-- ==== Sys2Proof/Word.lean ====
section
/-! DEFINITION. Words and bytes: the types of the part's registers, addresses and data, and the plainest
operations on them (the spec's 00_scope R5 to R7, R10). -/

namespace Sys2Proof

/-- A register word: all registers are 64 bits wide (R10). -/
abbrev Word := BitVec 64

/-- A byte (R6). -/
abbrev Byte := BitVec 8

/-- The number that the `n` bits of `v` from bit `lo` spell (R6: NAME[msb:lsb]). -/
def bitsOf (v lo n : Nat) : Nat := v / 2 ^ lo % 2 ^ n

/-- `v` with the `n` bits from bit `lo` replaced by the low `n` bits of `x`. -/
def putBits (v lo n x : Nat) : Nat :=
  v % 2 ^ lo + (x % 2 ^ n) * 2 ^ lo + v / 2 ^ (lo + n) * 2 ^ (lo + n)

/-- Little-endian number of a byte string (R7). -/
def leNat : List Byte → Nat
  | [] => 0
  | b :: bs => b.toNat + 256 * leNat bs

/-- The `n` little-endian bytes of a number (R7). -/
def leBytes : Nat → Nat → List Byte
  | 0, _ => []
  | n + 1, v => BitVec.ofNat 8 v :: leBytes n (v / 256)

/-- Big-endian bytes, for formats of published standards (R7). -/
def beBytes (n v : Nat) : List Byte := (leBytes n v).reverse

/-- Big-endian number of a byte string. -/
def beNat (bs : List Byte) : Nat := leNat bs.reverse

/-- The value of `n` little-endian bytes at offset `off` of a byte string; bytes past its end read 0. -/
def fieldAt (bs : List Byte) (off n : Nat) : Nat := leNat ((bs.drop off).take n)

end Sys2Proof
end

