-- ==== Sys2Proof/Syntax.lean ====
section
/-! DEFINITION. The commands of the part: one constructor of `Instr` per row of spec/opcode_table.json, in the
table's order, each with what the environment supplies with the event. -/

namespace Sys2Proof

/-- Dies D0 to D3 (R15). -/
abbrev Die := Fin 4
/-- Physical bays of a die (Table 1-1). -/
abbrev Bay := Fin 9
/-- Stream slots of a bay (R213). -/
abbrev Slot := Fin 32
/-- Fabric ports CP0 to CP19 (R289). -/
abbrev Port := Fin 20
/-- A stack's position on its die (Table 5-1, APR0 to APR2). -/
abbrev StackIx := Fin 3
/-- Clock islands of a die (Table 4-1). -/
abbrev Island := Fin 25
/-- Context numbers (R271). -/
abbrev CtxId := Fin 4096
/-- Device indices within the company (R245). -/
abbrev DevIx := Fin 512
/-- Mailboxes (R426). -/
abbrev Mbox := Fin 16
/-- Physical lanes of a port (R289). -/
abbrev Lane := Fin 5
/-- Firmware components 0 to 6 (Table 20-2). -/
abbrev Component := Fin 7
/-- Shedding steps 1 to 7 of Table 19-3, as step minus 1. -/
abbrev ShedStep := Fin 7

/-- Origin codes (Table 0-4). -/
inductive Origin where
  | fuse | hw | fw | mgmt | sys | ctx | peer | dbg
  deriving DecidableEq, Repr

/-- The code of an origin (Table 0-4). -/
def Origin.code : Origin → Nat
  | .fuse => 0 | .hw => 1 | .fw => 2 | .mgmt => 3 | .sys => 4 | .ctx => 5 | .peer => 6 | .dbg => 7

/-- A writer: its origin (R91), the SOURCE field of its change record (Table 5-10) and, for a core, its die. -/
structure Writer where
  origin : Origin
  source : BitVec 32 := 0
  die    : Die := 0
  /-- Of origin SYS: an access from U mode (R454). -/
  user   : Bool := false
  deriving DecidableEq, Repr

/-- A register address: the die and the offset within the die's register space (R86). -/
structure RegAddr where
  die    : Die
  offset : BitVec 38
  deriving DecidableEq, Repr

/-- One write that reaches a register: writer, value sent and width in bytes (R10). -/
structure WriteReq where
  w     : Writer
  value : Word
  width : Nat := 8
  deriving DecidableEq, Repr

/-- The two reference clocks of R74. -/
inductive RefClk where
  | sys | link
  deriving DecidableEq, Repr

/-- The rails of a die (Table 3-4). -/
inductive Rail where
  | varith | vshc | vlink | vcpu | vstk | vapr | vpp | vaux
  deriving DecidableEq, Repr

/-- A time exchange received (R306): a child's request, or the parent's reply with t1, t2 and t3. -/
inductive TimeMsg where
  | request (t1 : BitVec 64)
  | reply (t1 t2 t3 : BitVec 64)
  deriving DecidableEq, Repr

/-- A reset domain (Table 4-3); power-on is the part's own start. -/
inductive Domain where
  | bay (d : Die) (b : Bay)
  | port (p : Port)
  | cluster (d : Die)
  | partition (d : Die)
  | device
  deriving DecidableEq, Repr

/-- The start-up stages (Table 4-5). -/
inductive Stage where
  | s1 | s2 | s3 | s4 | s5 | s6 | s7a | s7b | s7c | s8 | s9 | s10 | s11
  deriving DecidableEq, Repr

/-- How a start-up stage ended: done, or one of the failures of Table 4-6. -/
inductive StageResult where
  | ok
  | badSignature | rolledBack | badPseudoChannel | noAddress | badBootMode
  | auditionNoSpare | neighbourMismatch | identityFail | noRefClk
  deriving DecidableEq, Repr

/-- A bit flip that a hardware fault made in one drained element (R342): row, column, XOR of the encoding. -/
structure Flip where
  row : Nat
  col : Nat
  xor : Nat
  deriving DecidableEq, Repr

/-- Status codes of an answer (Table 14-6). -/
inductive Status where
  | ok | uncorrectable | refused | branchLost | authFail | noRoute
  deriving DecidableEq, Repr

/-- The code of a status (Table 14-6). -/
def Status.code : Status → Nat
  | .ok => 0 | .uncorrectable => 1 | .refused => 2 | .branchLost => 3 | .authFail => 4 | .noRoute => 5

/-- A gather submission (Table 6-5). -/
structure GatherSub where
  slot   : BitVec 8
  rows   : BitVec 8
  stride : BitVec 16
  src    : BitVec 64
  deriving DecidableEq, Repr

/-- A bay of the part, for the VXE's instructions. -/
structure Unit36 where
  die : Die
  bay : Bay
  deriving DecidableEq, Repr

/-- Fields of layout V (Table 9-2). `scalar` is class 0x1, or FUNC[2] of class 0x2, or FUNC[4] of class 0x3. -/
structure VArgs where
  vd     : Fin 32
  vs1    : Fin 32
  vs2    : Fin 32
  scalar : Bool := false
  men    : Bool := false
  msel   : Fin 4 := 0
  rm     : BitVec 3 := 0
  deriving DecidableEq, Repr

/-- Fields of layout C (Table 9-2). -/
structure CvtArgs where
  dfmt   : BitVec 4
  sfmt   : BitVec 4
  vd     : Fin 32
  vs1    : Fin 32
  dscale : BitVec 2 := 0
  sscale : BitVec 2 := 0
  men    : Bool := false
  msel   : Fin 4 := 0
  rm     : BitVec 3 := 0
  deriving DecidableEq, Repr

/-- Fields of layout L (Table 9-2). -/
structure LsArgs where
  mfmt    : BitVec 4
  vd      : Fin 32
  sbase   : Fin 16
  sstride : Fin 16 := 0
  men     : Bool := false
  msel    : Fin 4 := 0
  deriving DecidableEq, Repr

/-- Fields of layout S (Table 9-2); SZ is IMM[14:11]. -/
structure SArgs where
  sx  : Fin 16
  sy  : Fin 16
  imm : BitVec 15 := 0
  deriving DecidableEq, Repr

/-- Mask fields of class 0x8 (R188). -/
structure MArgs where
  md  : Fin 4
  ms1 : Fin 4
  ms2 : Fin 4
  deriving DecidableEq, Repr

/-- A page fault of a slot (R232, Table 12-7): address, KIND, LEVEL, ACCESS and the cursor's position. -/
structure PageFault where
  va    : BitVec 64
  kind  : BitVec 8
  level : Fin 4
  write : Bool
  pos   : Nat
  deriving DecidableEq, Repr

/-- A short-path port (R241). -/
inductive SpPort where
  | su (d : Die) (b : Bay)
  | cores (d : Die)
  | cue
  | router (p : Port)
  deriving DecidableEq, Repr

/-- Short-path transfer kinds (Table 10-5). -/
inductive SpKind where
  | write | read | bell | semwait | semadd | atomic | cue
  deriving DecidableEq, Repr

/-- A short-path transfer offered at a port (R240). `room` says whether the 1/8 limit of R241 leaves room; `op` is the code of
Table 11-3 of an atomic, `data` what a write, an atomic, a wait, a doorbell or a CUE packet carries. -/
structure SpTransfer where
  kind  : SpKind
  addr  : BitVec 52
  len   : Nat
  ctx   : CtxId := 0
  room  : Bool := true
  op    : Nat := 0
  data  : List Byte := []
  deriving DecidableEq, Repr

/-- A request at its home (Tables 14-2, 14-4): `src` is none for a requester on this part; `port` is where a request of
another part came in (14 R310). -/
structure Req where
  src    : Option DevIx
  die    : Die
  track  : BitVec 16
  epoch  : BitVec 8
  gen    : BitVec 8
  ctx    : CtxId
  addr   : BitVec 52
  issue  : BitVec 32
  mark   : Bool := false
  w      : Writer
  port   : Port := 0
  ptype  : BitVec 8 := 0
  flow   : Option (BitVec 16) := none
  seq    : BitVec 16 := 0
  deriving DecidableEq, Repr

/-- Errors that arise on a lane of a pseudo-channel as a sector's burst passes (R260): an address in the sector, the lane,
0 to 31 DQ and 32 to 35 CB, and the beats. -/
structure LaneError where
  addr  : Nat
  lane  : Fin 36
  beats : BitVec 16
  deriving DecidableEq, Repr

/-- What has happened to stored data up to an access: the errors that stand in it, which the check of R265 meets, and how
many corrections of on-die ECC the stack reports (R261). -/
structure EccEnv where
  errors : List LaneError := []
  onDie  : Nat := 0
  deriving DecidableEq, Repr

/-- Routing of a data packet at its home (R319, R331): the flow label at the delivering entry, none for cut-through; and
SEQ. -/
structure DataHdr where
  flow  : Option (BitVec 16)
  seq   : BitVec 16 := 0
  deriving DecidableEq, Repr

/-- Fields of an ordered reduce (R258, AUX of Table 14-4), beside its routing. -/
structure RedFields extends DataHdr where
  rank  : Nat
  count : Nat
  etype : BitVec 2
  deriving DecidableEq, Repr

/-- Who asks for a retrain (R299, R301): a write of BLK_CTRL.RETRAIN, or a RETRAIN message naming a lane. -/
inductive RetrainSrc where
  | register (w : Writer)
  | message (lane : Lane)
  deriving DecidableEq, Repr

/-- The good lanes that training or a retrain ends with, in logical order. -/
abbrev LaneSet := List Lane

/-- What a link's training finds beside its lanes (R301, R76): the lanes whose pairs are inverted, and the asymmetry of
the link's delays in ns. -/
structure Trained where
  inv  : BitVec 5
  asym : Int := 0
  deriving DecidableEq, Repr

/-- A flit taken from a link (Table 13-2). `crc` is the CRC that arrived, none where it is the one that the flit's bytes
give; a flit that cannot be read is the command FLIT_CRC_FAIL. -/
structure Flit where
  ftype       : BitVec 8
  start       : BitVec 8 := 0xFF
  seq         : BitVec 12
  vc          : BitVec 2
  ack         : BitVec 12
  ackValid    : Bool
  credit      : BitVec 10
  creditVc    : BitVec 1
  creditValid : Bool
  payload     : List Byte := []
  /-- The symbols that the decoder corrected in each codeword that ended with this flit or since the one before (R292). -/
  fec         : List (List (Fin 544)) := []
  crc         : Option (BitVec 32) := none
  deriving DecidableEq, Repr

/-- A TIME flit taken from a link: its exchange, and its header where ACK or CREDIT are valid in it (R295, R306). -/
structure TimeFlit where
  msg  : TimeMsg
  head : Option Flit := none
  deriving DecidableEq, Repr

/-- A HELLO message (Table 13-5). -/
structure Hello where
  protoMin : BitVec 8
  protoMax : BitVec 8
  protoSel : BitVec 8
  serial   : List Byte
  die      : BitVec 2
  port     : BitVec 5
  device   : BitVec 16
  company  : BitVec 32
  fw       : BitVec 32
  deriving DecidableEq, Repr

/-- Where a packet arrives: a port, or injected by this part (Table 14-7, IN_PORT). -/
inductive InPort where
  | port (p : Port)
  | inject
  deriving DecidableEq, Repr

/-- A packet (Tables 14-2 to 14-4): a control packet is one segment of a transfer's train, `length` its TOTAL_LEN and `op`
its OP; of a data packet `length` is LENGTH and `aux` AUX. `data` are the payload bytes after the preamble. -/
structure Packet where
  ptype   : BitVec 8
  control : Bool
  flow    : BitVec 16 := 0
  ct      : Bool := false
  tgen    : Bool := false
  length  : Nat := 0
  req     : Req
  echo    : Bool := false
  conf    : Bool := false
  seg     : Nat := 0
  last    : Bool := true
  op      : Nat := 0
  aux     : Nat := 0
  seq     : BitVec 16 := 0
  data    : List Byte := []
  deriving DecidableEq, Repr

/-- Unit kinds with states (Table 15-5, UNIT_CMD.KIND). -/
inductive UnitKind where
  | bay | core | bank
  deriving DecidableEq, Repr

/-- The four decisions of a round (Tables 16-5 and 16-6, OUTCOME). -/
inductive Decision where
  | certify | skip | rollBack | stop
  deriving DecidableEq, Repr

/-- The code of a decision (Table 16-6). -/
def Decision.code : Decision → Nat
  | .certify => 1 | .skip => 2 | .rollBack => 3 | .stop => 4

/-- Header of a Cue message (Table 16-5). -/
structure CueHdr where
  attempt   : Nat
  rank      : Nat
  step      : Nat
  partIx    : Nat := 0
  partCount : Nat := 1
  deriving DecidableEq, Repr

/-- Body of a VOTE (Table 16-6). -/
structure VoteBody where
  proposal    : Decision
  flags       : BitVec 8
  fMax        : Nat
  pairMsgs    : Nat
  reason      : BitVec 8
  prepAttempt : Nat
  prepOutcome : Option Decision
  committed   : Option Decision
  view        : BitVec 32
  deriving DecidableEq, Repr

/-- Body of a PREPARE (Table 16-6). -/
structure PrepBody where
  outcome   : Decision
  actions   : BitVec 8
  fCast     : Nat
  pairMsgs  : Nat
  fenceMsgs : Nat
  rehKind   : Nat
  rehDevice : Nat
  admitRank : Nat
  admitDev  : Nat
  view      : BitVec 32
  deriving DecidableEq, Repr

/-- The highest readings of a die in °C, by kind (R63, R64): its compute junctions, its stacks, its regulators. -/
structure Heat where
  junction  : Int
  stack     : Nat
  regulator : Nat
  deriving DecidableEq, Repr

/-- A trip signal (R64): the die that drives it, with its readings. -/
structure Trip where
  die  : Die
  heat : Heat
  deriving DecidableEq, Repr

/-- One die's figures for the power loop (R410): E_d and M_d in watts, whether the sensor reads in range, the P48
reading in mV, and the current of each rail in A, in the order of Table 3-4. -/
structure PowerReading where
  e       : Nat
  m       : Nat
  inRange : Bool
  mv      : Nat
  amps    : List Nat := []
  deriving DecidableEq, Repr

/-- An Ethernet port: a die's 400GBASE-CR4 port or the management port (R459). -/
inductive EthPort where
  | eth (d : Die)
  | mgt
  deriving DecidableEq, Repr

/-- A frame received (R459, R460): bytes, whether its FCS holds, whether it is an IEEE 1588 event message, and
whether it is a UDP datagram to the command port. -/
structure RxFrame where
  bytes  : List Byte
  fcsOk  : Bool := true
  ptp    : Bool := false
  toCmd  : Bool := false
  deriving DecidableEq, Repr

/-- A lane of a pseudo-channel (Table 11-4), by the numbers of LANE_MAP: 0 to 31 DQ, 32 to 35 CB, 36 to 45 CA, 46 WCK,
47 RCK. -/
structure StackLane where
  die   : Die
  stack : StackIx
  pc    : Fin 64
  lane  : Fin 48
  deriving DecidableEq, Repr

/-- How a start-up stage ended; for stage 7a also the lanes that its training finds failing (R262). -/
structure StageEnd where
  result : StageResult
  lanes  : List StackLane := []
  deriving DecidableEq, Repr

/-- The commands: one constructor per row of spec/opcode_table.json. -/
inductive Instr where
  /-- R43. A write of 1 to STP.LOAD_CTRL.START copies the prompt book into the management staging area and begins its validation. -/
  | loadStart (w : Writer)
  /-- R43. A write of 1 to STP.LOAD_CTRL.DISCARD discards the staged book. -/
  | loadDiscard (w : Writer)
  /-- R44. Validation of a loaded book ends after the checks of Table 2-10, giving a code, a staged book or a failure. -/
  | validationComplete
  /-- R28. Action 1 of the curtain completes once all in-flight work of the step has completed or been discarded. -/
  | curtainAction1Complete
  /-- R337. Once every queued check has ended, the part publishes the step witness and forms the weight digest. -/
  | curtainAction2
  /-- R30. When no Cue decision arrives within CURTAIN_TIMEOUT, the part treats the step as rolled back and fails over. -/
  | curtainTimeout
  /-- R29. Action 4 on certify completes when the buddy has acknowledged the whole new shard. -/
  | buddyStreamComplete
  /-- R20. At action 5 the part begins the next step or an encore, applying all pending role and state changes. -/
  | stepBegin
  /-- R53. When the 48 V input rises above 30 V, the part limits its inrush current for 20 ms. -/
  | p48Rise (mv : Nat)
  /-- R59. A rise of PWR_EN starts the regulator sequence of Table 3-5, ending with PWR_GOOD high. -/
  | powerUp (railsOk : Bool)
  /-- R60. A fall of PWR_EN begins an orderly power-down. -/
  | pwrEnFall
  /-- R56. A failed regulator phase is switched out in hardware and a spare phase takes its share. -/
  | phaseSwitchOut (d : Die) (r : Rail)
  /-- R64. A hardware trip stops issue on the die, puts its stacks in self-refresh and lowers THERM_TRIP_N. -/
  | thermalTrip (x : Trip)
  /-- R64. A trip whose readings have not fallen 5 °C below trip within 100 ms starts the orderly power-down. -/
  | tripPersistTimeout (d : Die) (h : Heat)
  /-- R74. The loss of a reference clock puts the generators into holdover, sets HOLDOVER and logs CLOCK_LOST. -/
  | clockLost (c : RefClk)
  /-- R76. Every 1 ms each time-sync link sends a timestamp exchange towards the parent. -/
  | timeExchange (p : Port)
  /-- R306. A received TIME flit gives timestamps from which the part measures its offset and steers its counter. -/
  | timeFlit (p : Port) (m : TimeFlit)
  /-- R78. RST.REQ DOMAIN 1 requests a reset of one bay island. -/
  | bayReset (w : Writer) (d : Die) (b : Bay)
  /-- R78. RST.REQ DOMAIN 2 requests a reset of one fabric port. -/
  | fabricPortReset (w : Writer) (p : Port)
  /-- R78. RST.REQ DOMAIN 3 requests a reset of one die's application core cluster. -/
  | coreClusterReset (w : Writer) (d : Die)
  /-- R78. RST.REQ DOMAIN 4 requests a reset of every island of one die except MGC. -/
  | diePartitionReset (w : Writer) (d : Die)
  /-- R78. RST.REQ DOMAIN 5 requests a reset of every island of every die. -/
  | wholeDeviceReset (w : Writer)
  /-- R80. SYS_RST_N held low for at least 1 µs requests a whole-device reset. -/
  | sysRstNAssert
  /-- R78. A domain reset ends and the domain is ready to take work again. -/
  | resetComplete (dom : Domain)
  /-- R82. The straps are sampled 1 ms after PWR_GOOD rises and after each whole-device reset. -/
  | strapSample (bootMode : BitVec 2) (slotId : BitVec 8)
  /-- R84. The completion of a start-up stage of Table 4-5 starts the next stage. -/
  | startupStageComplete (st : Stage) (e : StageEnd)
  /-- R85. After 10 s following an image signature or rollback failure, the boot ROM fetches the image again. -/
  | imageRefetchTimeout
  /-- R85. With no address or TFTP reply within the stage maximum, start-up restarts at stage 4. -/
  | bootStageTimeout
  /-- R101. A write to a register without behaviour of its own passes protection and collision rules and leaves a change record. -/
  | registerWrite (a : RegAddr) (reqs : List WriteReq)
  /-- R97. A write of 1 to BLK_CTRL.ENABLE moves an OFF block to OPENING, or is held. -/
  | blockEnable (w : Writer) (d : Die) (pg : BitVec 8)
  /-- R97. A write of 0 to BLK_CTRL.ENABLE moves an ON block to CLOSING, or is held. -/
  | blockDisable (w : Writer) (d : Die) (pg : BitVec 8)
  /-- R97. A block ends OPENING and goes ON, or to CLOSING if ENABLE holds 0. -/
  | openingComplete (d : Die) (pg : BitVec 8)
  /-- R97. A block ends CLOSING and goes OFF, or to OPENING if ENABLE holds 1. -/
  | closingComplete (d : Die) (pg : BitVec 8)
  /-- R99. When the hardware condition clears, HW_HOLD clears and the block opens if ENABLE holds 1. -/
  | hwHoldClear (d : Die) (pg : BitVec 8)
  /-- R90. A write of 1 to BLK_CTRL.CLR_COUNT clears ERR_COUNT. -/
  | clrCount (w : Writer) (d : Die) (pg : BitVec 8)
  /-- R127. BLK_CTRL.PAUSE written 1 stops the MXE after the chain in progress drains. -/
  | mxePause (w : Writer) (d : Die) (b : Bay)
  /-- R127. BLK_CTRL.PAUSE written 0 resumes the MXE. -/
  | mxeUnpause (w : Writer) (d : Die) (b : Bay)
  /-- R212. BLK_CTRL.PAUSE written 1 stops the VXE at the next instruction boundary. -/
  | vxePause (w : Writer) (d : Die) (b : Bay)
  /-- R212. BLK_CTRL.PAUSE written 0 resumes the VXE. -/
  | vxeUnpause (w : Writer) (d : Die) (b : Bay)
  /-- R239. BLK_CTRL.PAUSE written 1 stops all issue of the stream unit. -/
  | suPause (w : Writer) (d : Die) (b : Bay)
  /-- R239. BLK_CTRL.PAUSE written 0 resumes the stream unit. -/
  | suUnpause (w : Writer) (d : Die) (b : Bay)
  /-- R105. The MXE computes a tile in the fixed accumulation order of its operand pair. -/
  | mma (d : Die) (b : Bay)
  /-- R131. The MXE waits for a closed gather round, places its rows at A_OFF and computes as MMA. -/
  | mmaGather (d : Die) (b : Bay)
  /-- R120. The MXE waits until the 64-bit value at SEM_ADDR is at least SEM_VALUE. -/
  | syncWait (d : Die) (b : Bay)
  /-- R120. After every earlier descriptor has drained, the MXE adds SEM_VALUE at SEM_ADDR. -/
  | syncAdd (d : Die) (b : Bay)
  /-- R123. END ends the bay's tile list for the step and the bay takes its part in action 1. -/
  | mxeEnd (d : Die) (b : Bay)
  /-- R114. A chain's drain completes: output is written, the witness is formed and the SIGNAL slot is signalled. -/
  | tileDrainComplete (d : Die) (b : Bay) (flips : List Flip)
  /-- R128. A parity error in the MXE marks the tile and records an event, and the engine runs on. -/
  | arrayParityError (d : Die) (b : Bay)
  /-- R470. An error response to a semaphore wait or add stops its engine and, for the book context, ends the step. -/
  | syncErrorResponse (d : Die) (b : Bay) (vxe : Bool) (status : Status) (remote : Bool)
  /-- R130. A 16 B doorbell write submits rows to a gather queue, and may close the open round. -/
  | gatherSubmit (d : Die) (b : Bay) (g : GatherSub)
  /-- R131. TIMEOUT_US after the first acceptance, the open gather round closes. -/
  | gatherRoundTimeout (d : Die) (b : Bay)
  /-- R132. Disabling a gather queue drops every submission of its open round. -/
  | gatherQueueDisable (w : Writer) (d : Die) (b : Bay)
  /-- R134. A write to GQ_SLOTS binds and unbinds die slots, refusing slots bound elsewhere. -/
  | gqSlotsWrite (w : Writer) (d : Die) (b : Bay) (v : BitVec 64)
  /-- R173. Once every bay of a layer has drained, the gate takes the layer's verdict and releases the bays. -/
  | layerGateOpen (layer : Nat)
  /-- R189. Element-wise addition. -/
  | vxeAdd (u : Unit36) (a : VArgs)
  /-- R189. Element-wise subtraction. -/
  | vxeSub (u : Unit36) (a : VArgs)
  /-- R189. Element-wise multiplication. -/
  | vxeMul (u : Unit36) (a : VArgs)
  /-- R189. Element-wise division. -/
  | vxeDiv (u : Unit36) (a : VArgs)
  /-- R189. Element-wise square root. -/
  | vxeSqrt (u : Unit36) (a : VArgs)
  /-- R189. Element-wise minimumNumber or signed minimum. -/
  | vxeMin (u : Unit36) (a : VArgs)
  /-- R189. Element-wise maximumNumber or signed maximum. -/
  | vxeMax (u : Unit36) (a : VArgs)
  /-- R189. Element-wise IEEE 754-2019 minimum. -/
  | vxeMini (u : Unit36) (a : VArgs)
  /-- R189. Element-wise IEEE 754-2019 maximum. -/
  | vxeMaxi (u : Unit36) (a : VArgs)
  /-- R189. Element-wise negation. -/
  | vxeNeg (u : Unit36) (a : VArgs)
  /-- R189. Element-wise absolute value. -/
  | vxeAbs (u : Unit36) (a : VArgs)
  /-- R189. Element-wise copy-sign. -/
  | vxeCsgn (u : Unit36) (a : VArgs)
  /-- R189. Element-wise roundToIntegral in the mode in force. -/
  | vxeRti (u : Unit36) (a : VArgs)
  /-- R191. Element-wise reciprocal estimate with fixed bits. -/
  | vxeRece (u : Unit36) (a : VArgs)
  /-- R191. Element-wise reciprocal square-root estimate with fixed bits. -/
  | vxeRsqe (u : Unit36) (a : VArgs)
  /-- R189. Element-wise move, or broadcast of a scalar. -/
  | vxeMov (u : Unit36) (a : VArgs)
  /-- R189. Element-wise bitwise AND. -/
  | vxeAnd (u : Unit36) (a : VArgs)
  /-- R189. Element-wise bitwise OR. -/
  | vxeOr (u : Unit36) (a : VArgs)
  /-- R189. Element-wise bitwise XOR. -/
  | vxeXor (u : Unit36) (a : VArgs)
  /-- R189. Element-wise logical shift left. -/
  | vxeSll (u : Unit36) (a : VArgs)
  /-- R189. Element-wise logical shift right. -/
  | vxeSrl (u : Unit36) (a : VArgs)
  /-- R189. Element-wise arithmetic shift right. -/
  | vxeSra (u : Unit36) (a : VArgs)
  /-- R189. Element-wise merge of two vectors under a mask. -/
  | vxeMrg (u : Unit36) (a : VArgs)
  /-- R189. Writes each element's index. -/
  | vxeIota (u : Unit36) (a : VArgs)
  /-- R192. Fused multiply-add with one rounding. -/
  | vxeFma (u : Unit36) (a : VArgs)
  /-- R192. Fused multiply-subtract with one rounding. -/
  | vxeFms (u : Unit36) (a : VArgs)
  /-- R192. Negated fused multiply-add. -/
  | vxeFnma (u : Unit36) (a : VArgs)
  /-- R192. Negated fused multiply-subtract. -/
  | vxeFnms (u : Unit36) (a : VArgs)
  /-- R193. Compares for equality into a mask. -/
  | vxeCmpEq (u : Unit36) (a : VArgs)
  /-- R193. Compares less-than into a mask. -/
  | vxeCmpLt (u : Unit36) (a : VArgs)
  /-- R193. Compares less-or-equal into a mask. -/
  | vxeCmpLe (u : Unit36) (a : VArgs)
  /-- R193. Tests unordered into a mask. -/
  | vxeCmpUn (u : Unit36) (a : VArgs)
  /-- R193. Compares not-equal into a mask. -/
  | vxeCmpNe (u : Unit36) (a : VArgs)
  /-- R195. Sums active elements over the fixed tree. -/
  | vxeRedSum (u : Unit36) (a : VArgs)
  /-- R195. Minimum of active elements over the fixed tree. -/
  | vxeRedMin (u : Unit36) (a : VArgs)
  /-- R195. Maximum of active elements over the fixed tree. -/
  | vxeRedMax (u : Unit36) (a : VArgs)
  /-- R195. Maximum magnitude of active elements over the fixed tree. -/
  | vxeRedAmax (u : Unit36) (a : VArgs)
  /-- R195. Widening FP32 sum of FP16 or BF16 elements over the fixed tree. -/
  | vxeRedSumw (u : Unit36) (a : VArgs)
  /-- R195. Reports the finite amax of active elements to the amax unit for VTID. -/
  | vxeRedRepamax (u : Unit36) (a : VArgs)
  /-- R196. Converts active elements between formats with scales and rounding. -/
  | vxeCvt (u : Unit36) (a : CvtArgs)
  /-- R201. Loads active elements from staging. -/
  | vxeLoad (u : Unit36) (a : LsArgs)
  /-- R201. Stores active elements to staging. -/
  | vxeStore (u : Unit36) (a : LsArgs)
  /-- R186. Sets VFMT and VL and returns VL. -/
  | vxeSetvl (u : Unit36) (a : SArgs)
  /-- R192. Sets VTID. -/
  | vxeSettid (u : Unit36) (a : SArgs)
  /-- R192. Sets VIDX. -/
  | vxeSetidx (u : Unit36) (a : SArgs)
  /-- R192. Adds to VIDX. -/
  | vxeAddidx (u : Unit36) (a : SArgs)
  /-- R192. Sets VSCALE. -/
  | vxeSetscl (u : Unit36) (a : SArgs)
  /-- R192. Sets VBLK. -/
  | vxeSetblk (u : Unit36) (a : SArgs)
  /-- R194. Sets VRM, faulting on a value above 4. -/
  | vxeSetrm (u : Unit36) (a : SArgs)
  /-- R192. Reads VFLAGS into a scalar. -/
  | vxeRdflg (u : Unit36) (a : SArgs)
  /-- R192. Clears VFLAGS. -/
  | vxeClrflg (u : Unit36) (a : SArgs)
  /-- R192. Reads VL into a scalar. -/
  | vxeRdvl (u : Unit36) (a : SArgs)
  /-- R192. Moves element 0 of a vector to a scalar. -/
  | vxeVtos (u : Unit36) (a : SArgs)
  /-- R192. Writes a scalar into element 0 of a vector. -/
  | vxeStov (u : Unit36) (a : SArgs)
  /-- R192. Mask AND. -/
  | vxeMskAnd (u : Unit36) (a : MArgs)
  /-- R192. Mask OR. -/
  | vxeMskOr (u : Unit36) (a : MArgs)
  /-- R192. Mask XOR. -/
  | vxeMskXor (u : Unit36) (a : MArgs)
  /-- R192. Mask AND-NOT. -/
  | vxeMskAndn (u : Unit36) (a : MArgs)
  /-- R192. Mask NOT. -/
  | vxeMskNot (u : Unit36) (a : MArgs)
  /-- R192. Sets every bit of a mask. -/
  | vxeMskSet (u : Unit36) (a : MArgs)
  /-- R192. Clears every bit of a mask. -/
  | vxeMskClr (u : Unit36) (a : MArgs)
  /-- R192. Scalar add immediate. -/
  | vxeSclAddi (u : Unit36) (a : SArgs)
  /-- R192. Scalar add. -/
  | vxeSclAdd (u : Unit36) (a : SArgs)
  /-- R192. Scalar subtract. -/
  | vxeSclSub (u : Unit36) (a : SArgs)
  /-- R192. Scalar AND. -/
  | vxeSclAnd (u : Unit36) (a : SArgs)
  /-- R192. Scalar OR. -/
  | vxeSclOr (u : Unit36) (a : SArgs)
  /-- R192. Scalar XOR. -/
  | vxeSclXor (u : Unit36) (a : SArgs)
  /-- R192. Scalar shift left by immediate. -/
  | vxeSclSlli (u : Unit36) (a : SArgs)
  /-- R192. Scalar logical shift right by immediate. -/
  | vxeSclSrli (u : Unit36) (a : SArgs)
  /-- R192. Scalar arithmetic shift right by immediate. -/
  | vxeSclSrai (u : Unit36) (a : SArgs)
  /-- R192. Shifts a scalar left 15 and ORs in an immediate. -/
  | vxeSclLih (u : Unit36) (a : SArgs)
  /-- R192. Scalar multiply, low 64 bits. -/
  | vxeSclMul (u : Unit36) (a : SArgs)
  /-- R192. Branch if equal. -/
  | vxeBeq (u : Unit36) (a : SArgs)
  /-- R192. Branch if not equal. -/
  | vxeBne (u : Unit36) (a : SArgs)
  /-- R192. Branch if signed less. -/
  | vxeBlt (u : Unit36) (a : SArgs)
  /-- R192. Branch if signed greater or equal. -/
  | vxeBge (u : Unit36) (a : SArgs)
  /-- R192. Branch if unsigned less. -/
  | vxeBltu (u : Unit36) (a : SArgs)
  /-- R192. Unconditional relative jump. -/
  | vxeJmp (u : Unit36) (a : SArgs)
  /-- R205. Stalls until the named stream slots have completed their pending deliveries. -/
  | vxeWait (u : Unit36) (a : SArgs)
  /-- R205. Signals a stream slot once earlier stores have reached staging. -/
  | vxeSignal (u : Unit36) (a : SArgs)
  /-- R205. Stalls until the value at an address is at least a scalar. -/
  | vxeSemwait (u : Unit36) (a : SArgs)
  /-- R205. Adds to the value at an address after earlier instructions complete. -/
  | vxeSemadd (u : Unit36) (a : SArgs)
  /-- R203. Ends a vector program, folds its flags and starts the bay's next program. -/
  | vxeEnd (u : Unit36) (a : SArgs)
  /-- R209. A VXE register parity error records an event and the VXE runs on. -/
  | vxeRegParityError (d : Die) (b : Bay)
  /-- R213. A slot takes its next STREAM descriptor and starts running it. -/
  | streamStart (d : Die) (b : Bay) (sl : Slot)
  /-- R231. A REARM taken at DONE gives a persistent stream a new base and restarts it. -/
  | streamRearm (d : Die) (b : Bay) (sl : Slot)
  /-- R230. The last delivery of an arming completes and, for writes, is acknowledged, so the slot goes DONE. -/
  | streamArmingDone (d : Die) (b : Bay) (sl : Slot)
  /-- R221. A stream delivery completes, committing amax and events and releasing waits on it. -/
  | suDeliveryComplete (d : Die) (b : Bay) (sl : Slot)
  /-- R232. Translation finds no valid page, so the slot stops at its cursor and goes FAULTED. -/
  | slotPageFault (d : Die) (b : Bay) (sl : Slot) (f : PageFault)
  /-- R233. SLOTs_CTRL.RESUME takes a FAULTED slot back to RUNNING from its cursor. -/
  | slotResume (w : Writer) (d : Die) (b : Bay) (sl : Slot)
  /-- R233. SLOTs_CTRL.ABORT takes a FAULTED slot to ABORTED. -/
  | slotAbort (w : Writer) (d : Die) (b : Bay) (sl : Slot)
  /-- R234. SLOTs_CTRL.CANCEL stops all issue of the slot and takes it to CANCELLING. -/
  | slotCancel (w : Writer) (d : Die) (b : Bay) (sl : Slot)
  /-- R233. A fault not resumed within FAULT_TIMEOUT takes the slot to ABORTED. -/
  | slotFaultTimeout (d : Die) (b : Bay) (sl : Slot)
  /-- R235. With its outstanding count at 0, a cancelled slot goes IDLE. -/
  | slotCancelComplete (d : Die) (b : Bay) (sl : Slot)
  /-- R240. A short-path transfer is issued from its port, or refused at it. -/
  | shortPathTransfer (p : SpPort) (t : SpTransfer)
  /-- R241. At each 1 µs window a transfer held by the 1/8 limit may proceed. -/
  | shortPathWindow (p : SpPort)
  /-- R251. A read of 1 to 256 B is performed at its home. -/
  | srd (r : Req) (len : Nat) (env : EccEnv)
  /-- R251. A write of 1 to 256 B is performed at its home, evaluating watches on the address. -/
  | swr (r : Req) (data : List (Byte)) (env : EccEnv)
  /-- R257. A watch is placed at the home bank and evaluated at once. -/
  | semwait (r : Req) (value : BitVec 64) (env : EccEnv)
  /-- R255. Atomic 32-bit integer add returning the old value. -/
  | addI32 (r : Req) (size : Nat) (operand : BitVec 64) (env : EccEnv)
  /-- R255. Atomic 64-bit unsigned add returning the old value. -/
  | addU64 (r : Req) (size : Nat) (operand : BitVec 64) (env : EccEnv)
  /-- R255. Atomic FP32 add returning the old value. -/
  | addF32 (r : Req) (size : Nat) (operand : BitVec 64) (env : EccEnv)
  /-- R255. Atomic BF16 add returning the old value. -/
  | addBf16 (r : Req) (size : Nat) (operand : BitVec 64) (env : EccEnv)
  /-- R255. Atomic signed minimum. -/
  | minI32 (r : Req) (size : Nat) (operand : BitVec 64) (env : EccEnv)
  /-- R255. Atomic signed maximum. -/
  | maxI32 (r : Req) (size : Nat) (operand : BitVec 64) (env : EccEnv)
  /-- R255. Atomic FP32 minimumNumber. -/
  | minF32 (r : Req) (size : Nat) (operand : BitVec 64) (env : EccEnv)
  /-- R255. Atomic FP32 maximumNumber. -/
  | maxF32 (r : Req) (size : Nat) (operand : BitVec 64) (env : EccEnv)
  /-- R255. Atomic unsigned 64-bit minimum. -/
  | minU64 (r : Req) (size : Nat) (operand : BitVec 64) (env : EccEnv)
  /-- R255. Atomic unsigned 64-bit maximum. -/
  | maxU64 (r : Req) (size : Nat) (operand : BitVec 64) (env : EccEnv)
  /-- R255. Atomic compare and swap. -/
  | cas (r : Req) (size : Nat) (compare : BitVec 64) (operand : BitVec 64) (env : EccEnv)
  /-- R255. Atomic swap. -/
  | swap (r : Req) (size : Nat) (operand : BitVec 64) (env : EccEnv)
  /-- R258. An ordered reduce contribution is applied in rank order or parked. -/
  | red (r : Req) (red : RedFields) (data : List (Byte)) (env : EccEnv)
  /-- R314. A data-class read is performed at its home and answered with RD_DATA. -/
  | rd (r : Req) (h : DataHdr) (len : Nat) (env : EccEnv)
  /-- R314. A data-class write is performed at its home and acknowledged. -/
  | wr (r : Req) (h : DataHdr) (data : List (Byte)) (env : EccEnv)
  /-- R328. A multicast write is performed at a leaf and acknowledged. -/
  | mwr (r : Req) (h : DataHdr) (data : List (Byte)) (env : EccEnv)
  /-- R314. A doorbell write is delivered to its unit and acknowledged. -/
  | bell (r : Req) (data : List (Byte))
  /-- R329. An accepted LOST report counts leaves for its tracking entry and sets PARTIAL. -/
  | lost (r : Req) (leaves : Nat) (echo : Bool)
  /-- R285. A reply or acknowledgement is accepted against its tracking entry or dropped by tag. -/
  | replyReceive (r : Req) (status : Status) (ackCount : Nat) (echo : Bool) (data : List (Byte))
  /-- R253. A bank with a tag failure or three uncorrectable events is marked failed. -/
  | shcBankFail (d : Die) (bank : Fin 50)
  /-- R264. Every 1 ms a stack controller reads its DRAM temperature and sets the refresh rate. -/
  | stackTempRead (d : Die) (t : StackIx) (temp : BitVec 8)
  /-- R267. The stack controller scrubs its home region, reporting uncorrectable sectors. -/
  | scrub (d : Die) (t : StackIx) (granules : Nat) (env : EccEnv)
  /-- R269. The content of an uncorrectable range is restored before the encore reads it. -/
  | uncorrectableRestore (addr : Nat) (sectors : Nat) (data : List (Byte))
  /-- R274. CTX_CMD DEFINE checks and takes a context table entry. -/
  | define (w : Writer) (id : CtxId)
  /-- R274. CTX_CMD RUN makes a defined context RUNNABLE and seeks residency. -/
  | run (w : Writer) (id : CtxId)
  /-- R274. CTX_CMD STOP evicts a runnable context everywhere and returns it to DEFINED. -/
  | stop (w : Writer) (id : CtxId)
  /-- R287. CTX_CMD TEARDOWN closes a context, increments GEN and fences its requests. -/
  | teardown (w : Writer) (id : CtxId)
  /-- R286. CTX_CMD QUIESCE marks the context's tracking entries and fences on them. -/
  | quiesce (w : Writer) (id : CtxId)
  /-- R283. CTX_CMD INVAL_ALL removes all cached translations of a context. -/
  | invalAll (w : Writer) (id : CtxId)
  /-- R283. CTX_CMD INVAL_RANGE removes cached translations of the range in CTX_ARG. -/
  | invalRange (w : Writer) (id : CtxId)
  /-- R286. The fence completes when every marked tracking entry has ended. -/
  | fenceComplete
  /-- R286. A fence completes by time after 21 ms. -/
  | fenceTimeout
  /-- R278. Every quantum the die's scheduler admits waiting contexts and chooses evictions. -/
  | schedulerQuantum (d : Die)
  /-- R279. A context's quantum on a bay ends and the bay switches to the next context. -/
  | bayQuantumEnd (d : Die) (b : Bay)
  /-- R275. Once every bay is saved and outstanding requests are 0, the context's residency goes OUT. -/
  | evictionComplete (d : Die) (id : CtxId)
  /-- R285. The issuing die ends any tracking entry older than 21 ms. -/
  | trackingEntryExpire (d : Die) (track : BitVec 16)
  /-- R316. A home or router discards a request older than 20 ms. -/
  | requestAgeDiscard (d : Die) (r : Req) (issuedNs : Nat)
  /-- R284. Software advances FAULTQ_TAIL, freeing room for held fault records. -/
  | faultqTailWrite (w : Writer) (d : Die) (v : BitVec 64)
  /-- R298. A receiving end finds a lane failing, records it and sends RETRAIN. -/
  | laneFail (p : Port) (lane : Lane)
  /-- R299. A RETRAIN message or request holds the link and retrains its lanes. -/
  | retrain (p : Port) (src : RetrainSrc)
  /-- R299. A retrain ends, resuming the link or taking it DOWN. -/
  | retrainComplete (p : Port) (ok : Bool) (lanes : LaneSet) (durNs : Nat)
  /-- R296. A sequenced flit is taken in order or dropped with a NAK. -/
  | payloadFlit (p : Port) (f : Flit)
  /-- R294. An IDLE flit delivers acknowledgements and credits. -/
  | idleFlit (p : Port) (f : Flit)
  /-- R296. A flit failing its CRC is dropped and the receiver sends a NAK. -/
  | flitCrcFail (p : Port) (fec : Option (List (Fin 544))) (sequenced : Bool)
  /-- R296. A NAK makes the sender resend from the named sequence. -/
  | nak (p : Port) (f : Flit)
  /-- R296. After 4 µs without the expected sequence the receiver may NAK again. -/
  | nakHoldoffExpire (p : Port)
  /-- R301. Signal on at least 3 lanes of an enabled port starts training. -/
  | linkSignalDetect (p : Port) (lanes : Nat)
  /-- R301. Training ends with the link in HELLO, or HELD for lack of lanes. -/
  | linkTrainingComplete (p : Port) (lanes : LaneSet) (x : Trained)
  /-- R301. Loss of signal on more than 2 lanes takes the link DOWN. -/
  | linkSignalLost (p : Port) (lanes : Nat)
  /-- R302. A HELLO is sent every 1 ms in HELLO state and every 1 s after. -/
  | helloTimer (p : Port)
  /-- R303. A received HELLO is checked, the version chosen and the neighbour table entered. -/
  | hello (p : Port) (h : Hello)
  /-- R301. A received HOLD takes the link to HELD. -/
  | hold (p : Port) (reason : BitVec 16)
  /-- R301. After 10 s in HELD the link returns to TRAINING. -/
  | heldTimeout (p : Port)
  /-- R321. A transit hop relabels a circuit packet and starts it onto its output. -/
  | circuitForward (inp : InPort) (pk : Packet)
  /-- R324. A hop forwards a cut-through packet by its route bank once credits are held. -/
  | cutThroughForward (inp : InPort) (pk : Packet) (flits : Nat)
  /-- R320. An injected packet starts onto its port at the start of a slot its flow owns. -/
  | circuitSlotInject (pk : Packet) (slot : Nat)
  /-- R325. Each PERIOD_US without ECHO raises the issuing window by 4 KiB. -/
  | windowPeriod (p : SpPort)
  /-- R327. A write to VCT_DATA updates the route bank not in use, or is DENIED. -/
  | vctDataWrite (w : Writer) (d : Die) (v : BitVec 64)
  /-- R326. RTR.BLK_CTRL.HOLD_DATA written 1 holds data-class injection. -/
  | holdDataWrite (w : Writer) (d : Die) (v : Bool)
  /-- R326. A part holding injection reports DRAINED once no data-class packet or entry remains. -/
  | drainedReport
  /-- R340. A checker bay runs a queued sampled chain to produce a witness. -/
  | dupCheck (d : Die)
  /-- R342. The checker's witness is compared with the primary's, setting CHECKED or a mismatch. -/
  | dupCheckComplete (d : Die) (flips : List Flip)
  /-- R358. UNIT_CMD AUDITION starts an audition of a dark unit. -/
  | unitAudition (w : Writer) (k : BitVec 2) (d : Die) (ix : BitVec 6)
  /-- R355. UNIT_CMD DARK takes a unit dark at the next curtain. -/
  | unitDark (w : Writer) (k : BitVec 2) (d : Die) (ix : BitVec 6)
  /-- R359. An audition ends in pass, to wait for the wings, or fail, back to DARK. -/
  | auditionComplete (k : UnitKind) (d : Die) (ix : Nat) (pass : Bool)
  /-- R365. A leader receives a vote and decides once every live rank has voted. -/
  | vote (h : CueHdr) (v : VoteBody)
  /-- R364. A leader receives a weight or book digest from a member. -/
  | digest (h : CueHdr) (kind : BitVec 8) (value : BitVec 256)
  /-- R364. Skip pairs are received for the decision. -/
  | pairs (h : CueHdr) (ps : List (BitVec 32 × Nat))
  /-- R369. A HALT ends the receiving part's step, and a leader relays it. -/
  | halt (h : CueHdr) (reason : BitVec 8)
  /-- R365. A KEEP tells a voted member that the leader is alive. -/
  | keep (h : CueHdr) (votes : Nat)
  /-- R365. Every 200 µs the collecting leader sends KEEP to voted members. -/
  | keepTimer
  /-- R365. At CURTAIN_TIMEOUT less 5 ms the leader decides with absent ranks. -/
  | voteDeadline
  /-- R366. A member checks a prepared outcome and answers ACK. -/
  | prepare (h : CueHdr) (p : PrepBody)
  /-- R366. A member receives the list of devices to fence. -/
  | fences (h : CueHdr) (ds : List Nat)
  /-- R366. The leader counts acknowledgements and sends COMMIT when all are in. -/
  | ack (h : CueHdr) (outcome : Decision)
  /-- R366. A member adopts the committed outcome, view and fences. -/
  | commit (h : CueHdr) (outcome : Decision) (actions : BitVec 8) (view : BitVec 32)
  /-- R367. A member silent-served for 400 µs moves to the next attempt and revotes. -/
  | leaderSilence
  /-- R370. ADMIT_WINDOW_MS after a held roll-back, still-absent ranks are fenced. -/
  | admitWindowExpire
  /-- R372. A called pool part notifies software and fetches the rank's shards. -/
  | call (h : CueHdr) (rank : Nat) (holder : Nat) (buddyOf : Nat) (failed : Nat)
  /-- R372. With book, inputs and shards in place, the pool part sends DIGEST and READY. -/
  | poolReadySend
  /-- R373. The leader admits ready pool parts once their links are in VCT. -/
  | ready (h : CueHdr) (dev : Nat) (rank : Nat) (flags : BitVec 8)
  /-- R373. A pool part without READY in 10 s is replaced by the next. -/
  | callReadyTimeout (rank : Nat)
  /-- R326. The leader collects DRAINED and sends APPLY when all have reported. -/
  | drained (h : CueHdr)
  /-- R326. Each part loads new circuits and slots, flips TGEN and releases injection. -/
  | apply (h : CueHdr)
  /-- R380. A member learns the writer rank of its checkpoint group. -/
  | writer (h : CueHdr) (writer : Nat) (copies : Nat)
  /-- R386. CKP_CMD SIGN forms and signs the manifest. -/
  | sign (w : Writer)
  /-- R387. CKP_CMD RESTORE_OWN checks the manifest and restores the own shard image. -/
  | restoreOwn (w : Writer)
  /-- R387. CKP_CMD RESTORE_BUDDY restores the buddy shard image. -/
  | restoreBuddy (w : Writer)
  /-- R388. CKP_CMD FETCH_OWN fetches the rank's shard from its buddy holder. -/
  | fetchOwn (w : Writer) (dev : DevIx) (f : Option (Nat × List (Byte)))
  /-- R381. CKP_CMD ABANDON ends an export at the next 4 KiB boundary. -/
  | abandon (w : Writer)
  /-- R385. Software advances its ring position, giving the engine room or data. -/
  | ringSwWrite (w : Writer) (v : BitVec 64)
  /-- R382. The export engine finishes writing the shard image. -/
  | exportComplete
  /-- R387. A restore ends with STATE RESTORED. -/
  | restoreComplete
  /-- R391. A bay's watchdog reaches its limit, triggering capture, forced save and bay reset. -/
  | watchdogFire (d : Die) (b : Bay)
  /-- R392. A bay reset not ready within 3 ms escalates to a die partition reset. -/
  | bayResetTimeout (d : Die) (b : Bay)
  /-- R392. A die partition reset not ready within 40 ms escalates to a whole-device reset. -/
  | partitionTimeout (d : Die)
  /-- R392. A cache bank completing nothing for 1 ms triggers a die partition reset. -/
  | shcStall (d : Die)
  /-- R392. A stack controller completing nothing for 1 ms triggers a die partition reset. -/
  | aprStall (d : Die) (t : StackIx)
  /-- R399. A suspect that makes REPLAY_MS of progress is cleared and the next trial begins. -/
  | replayTrialClear (d : Die) (b : Bay)
  /-- R407. A die's frequency change ends. -/
  | frequencyChangeComplete (d : Die)
  /-- R408. A supply dip below threshold doubles the island clock period. -/
  | droopDetect (d : Die) (isl : Island)
  /-- R408. After 32 cycles above threshold the stretch ends. -/
  | droopClear (d : Die) (isl : Island)
  /-- R409. A paused frequency change resumes 50 µs after the last droop cleared. -/
  | droopPauseExpire (d : Die)
  /-- R410. Every 10 µs the power loop forms power figures and adjusts the package throttle. -/
  | powerLoopTick (rd : List PowerReading)
  /-- R411. Every 100 µs a die's thermal throttle rises or falls with its temperatures. -/
  | thermalThrottleTick (d : Die) (junction : Int) (stack : Nat)
  /-- R414. A shedding step comes into force after 10 µs below its threshold. -/
  | shedStepEnter (step : ShedStep) (mv : Nat)
  /-- R414. A shedding step is released after 100 ms 0.5 V above its threshold. -/
  | shedStepRelease (step : ShedStep) (mv : Nat)
  /-- R421. MON stops a faulting firmware component and restarts it, or escalates. -/
  | componentFault (d : Die) (c : Component)
  /-- R421. A component missing its liveness deadline is stopped and restarted. -/
  | componentLivenessMiss (d : Die) (c : Component)
  /-- R421. A restarted component is running again and takes back control. -/
  | componentRestartComplete (d : Die) (c : Component)
  /-- R427. A write to MBX.SLOTn submits a message, queued or returned BUSY or SUPERSEDED. -/
  | mbxSubmit (w : Writer) (n : Mbox) (addr : BitVec 64)
  /-- R427. Writing 1 to a DONE bit frees the mailbox and accepts its next queued message. -/
  | mbxDoneClear (w : Writer) (v : BitVec 64)
  /-- R433. Writing an empty buffer to SLOT14 arms the notice mailbox, which takes the oldest pending notice. -/
  | mbx14Arm (w : Writer) (addr : BitVec 64)
  /-- R429. A signed command datagram is verified and delivered to mailbox 15 or answered. -/
  | signedCommandReceive (msg : List (Byte)) (buf : Nat)
  /-- R431. Returns firmware version, API and rollback. -/
  | getVersion (n : Mbox)
  /-- R431. Sets the hello device index and company. -/
  | setIdentity (n : Mbox)
  /-- R304. Delivers the blocking table to the link manager. -/
  | setBlocking (n : Mbox)
  /-- R431. Answers an INPUTS_LOST report. -/
  | inputsReady (n : Mbox)
  /-- R434. Reports a die's core cluster alive. -/
  | heartbeat (n : Mbox)
  /-- R434. No heartbeat for 3 × HB_MS resets the die's core cluster. -/
  | heartbeatTimeout (d : Die)
  /-- R431. Copies log entries to memory. -/
  | logRead (n : Mbox)
  /-- R431. Copies change records to memory. -/
  | chgRead (n : Mbox)
  /-- R431. Copies fleet signature records to memory. -/
  | sigRead (n : Mbox)
  /-- R431. Copies one capture to memory. -/
  | captureRead (n : Mbox)
  /-- R431. Copies one reading of every sensor. -/
  | sensorRead (n : Mbox) (readings : List (Byte))
  /-- R431. Sets or clears trace point enables. -/
  | traceSet (n : Mbox)
  /-- R432. Firmware writes a listed cast-wide register with origin FW. -/
  | configWrite (n : Mbox)
  /-- R438. Copies, checks and writes a firmware image to the NOR update slot. -/
  | updateStage (n : Mbox)
  /-- R439. Activates a staged image, or holds it during an emergency. -/
  | updateActivate (n : Mbox)
  /-- R431. Withdraws a held activation. -/
  | updateCancel (n : Mbox)
  /-- R439. After 10 s without emergency a held activation marks the slot PENDING and resets. -/
  | updateHoldExpire
  /-- R436. When a source's rate returns within limit, one entry gives the suppressed count. -/
  | logSuppressed (d : Die) (src : BitVec 8)
  /-- R452. Writes a signed attestation report. -/
  | attest (n : Mbox)
  /-- R451. Copies the identity certificate. -/
  | getIdentity (n : Mbox)
  /-- R450. Decrypts and loads a key into a slot. -/
  | keyLoad (n : Mbox)
  /-- R451. Empties a key slot. -/
  | keyClear (n : Mbox)
  /-- R451. Blows an owner key hash and VALID and stores the key. -/
  | ownerEnroll (n : Mbox)
  /-- R451. Blows an owner slot's REVOKE fuse. -/
  | ownerRevoke (n : Mbox)
  /-- R449. Blows FW_ROLLBACK up to the running image's ROLLBACK. -/
  | rollbackCommit (n : Mbox)
  /-- R451. Blows fuses removing protection rights. -/
  | protRemove (n : Mbox)
  /-- R451. Stores an owner public key matching its slot hash. -/
  | ownerKeyPut (n : Mbox)
  /-- R459. An Ethernet port transmits a frame from a transmit descriptor. -/
  | ethTx (e : EthPort) (q : Fin 64)
  /-- R459. An Ethernet port receives a frame into a receive descriptor, stamping 1588 events. -/
  | ethRx (e : EthPort) (q : Fin 64) (f : RxFrame)
  /-- R460. PPS_OUT pulses at each whole second of device time. -/
  | ppsPulse
  /-- R463. An inbound PCIe request is performed in a DMA window or refused. -/
  | pcieInbound (write : Bool) (addr : Nat) (len : Nat) (data : List (Byte)) (poisoned : Bool)
  /-- R462. A core access to the memory or ECAM window issues an outbound PCIe request. -/
  | pcieOutbound (addr : Nat) (len : Nat) (write : Bool) (data : List (Byte))
  /-- R456. An uncorrectable error in a core's cache or registers raises a machine check. -/
  | coreMachineCheck (d : Die) (c : Fin 9)
  /-- R465. A block read of command 0x01 returns the board status record. -/
  | smbusBlockRead
  /-- R53. 20 ms after the input rises above 30 V, the part ends its 10 A input-current limit. -/
  | inrushLimitExpire
  /-- R302. While a link is HELD, its HOLD message is sent again every 1 s. -/
  | holdRepeat (p : Port)
  /-- R373. The leader of a held curtain starts a fresh round once every called pool part is READY and every re-formed link has reached VCT, or once a new roster is in force under NO_SPARE. -/
  | heldRound
  /-- R340. The seam copy of a sampled chain's operands to the checker ends, releasing the primary's held SIGNAL and queueing the check. -/
  | sampleCopyComplete (d : Die) (b : Bay)
  /-- R466. An Ethernet port's link goes down, setting ERR_STAT.LINK_DOWN and, on the time root, leaving device time to run free. -/
  | ethLinkDown (e : EthPort)
  /-- R459. An Ethernet port's link comes up after negotiation and training, setting LINK.UP and FEC_LOCK. -/
  | ethLinkUp (e : EthPort)
  /-- R462. The PCIe root port trains its link at 64, 32 or 16 GT/s, or holds it down with NO_FLIT for a partner without flit mode. -/
  | pcieLinkUp (rate : BitVec 2) (width : Nat) (flit : Bool)
  /-- R462. The PCIe root port's link goes down, clearing LINK_STAT.UP. -/
  | pcieLinkDown
  deriving DecidableEq, Repr

end Sys2Proof
end

