-- ==== Sys2Proof/Decode.lean ====
section
/-! DEFINITION. Decoding of the table's bits. No row of spec/opcode_table.json gives bits: the commands are events
and writes of the environment, so no word spells one. -/

namespace Sys2Proof

/-- The command that a word spells by the table's bits: none, since no row gives bits. -/
def decodeTableWord (_nbits _w : Nat) : Option Instr := none

end Sys2Proof
end

