-- ==== Sys2Proof/Config.lean ====
section
/-! DEFINITION. What an implementation fixes and the spec leaves open, and the free values: constants without a
body, so that no proof can see what they are. -/

namespace Sys2Proof.Config

/-- Free values, by a counter of the state (entry 3). -/
opaque freeValue : Nat → BitVec 64

/-- The scale byte that an infinite amax gives, by format code, mode and headroom (08 R164 states none; entry 3). -/
opaque scaleOfInf : Nat → Nat → Nat → Nat

/-- Does roundToIntegral of the vector engine raise NX (09 R189 does not say; entry 11)? -/
opaque rtiInexact : Bool

/-- Does 0 × ∞ with a quiet NaN addend raise NV (IEEE 754 leaves it to the implementation; entry 11)? -/
opaque fmaNanInvalid : Bool

/-- BLK_VER of a page kind (05 Table 5-2 gives no value; entry 12). -/
opaque blkVer : Nat → BitVec 32

/-- The SEVERITY of a log code (20 Table 20-9 gives no severity of any code; entry 13). -/
opaque severity : Nat → BitVec 3

/-- The CODE of a log entry that Table 20-10 lists no code for, by an index of the model's (entry 13). -/
opaque unlistedCode : Nat → BitVec 16

/-- The 28 DATA bytes of a log entry: Table 20-9 gives no layout of a code's fields (entry 13). -/
opaque logData : Nat → List Nat → BitVec 224

/-- SM2 verification of a 64-byte key (x, y), a message and a 64-byte signature (r, s): GB/T 32918 (entry 14). -/
opaque sm2Verify : List Byte → List Byte → List Byte → Bool

/-- SM2 signature of the device identity key over a message (entry 14). -/
opaque sm2Sign : List Byte → List Byte

/-- SM2 decryption of a ciphertext (C1, C3, C2) by the device identity key, where it succeeds (GB/T 32918.4; entry 14). -/
opaque sm2Open : List Byte → Option (List Byte)

/-- SM4 decryption of a block of 16 bytes under a key (21 R443; entry 14). -/
opaque sm4Decrypt : List Byte → List Byte → List Byte

/-- The public key (x, y) of an SM2 private key (21 R443; entry 14). -/
opaque sm2Public : List Byte → List Byte

/-- SM3 of the boot ROM, a mask whose content the spec does not give (21 R452; entry 6). -/
opaque romDigest : BitVec 256

/-- Offsets in D1's BELL space of the memory window (0) and the ECAM window (1) of the PCIe root port, and the address for
MSI (22 Table 22-9 gives no values; entry 40). -/
opaque pcieWindow : Nat → BitVec 38
opaque msiAddr : BitVec 64

/-- SM4-XTS of 17 R382 under a key and a tweak: encryption where the first argument is true (entry 14). -/
opaque sm4Xts : Bool → List Byte → Nat → List Byte → List Byte

/-- SM4-GCM of 14 R331 under a key, an IV and additional authenticated data: the data of a payload whose tag, its last 16
bytes, verifies (entry 14). -/
opaque gcmOpen : List Byte → List Byte → List Byte → List Byte → Option (List Byte)

/-- SM4-GCM the other way: the ciphertext of the data, followed by its tag of 16 bytes (entry 14). -/
opaque gcmSeal : List Byte → List Byte → List Byte → List Byte → List Byte

/-- Does a signer's device key, of another part, verify by its certificate (21 R444)? The manifest does not carry the
certificate (entry 14). -/
opaque signerTrusted : List Byte → Bool

/-- The fused VARITH curve of a die in mV at a frequency in MHz (19 R403: fused, no figures given; entry 24). -/
opaque varithCurve : Nat → Nat → Nat

/-- The highest bay frequency in MHz at which a rail of a die draws no more than a current in A (03 R57: the part knows
it, the spec gives no figures; entry 24): die, rail, current. -/
opaque railMhz : Nat → Nat → Nat → Nat

/-- By how many W the power loop lowers the cap at a tick that finds a degraded rail above its maximum (03 R57 gives the
end, not the steps; entry 24). -/
opaque capStep : Nat

/-- The set of its bank, of 256, that a line of 256 B takes (11 R250: the spec gives the ways, not the index; entry 20). -/
opaque cacheSet : Nat → Nat

/-- The replica group of another part, by device: the leader's source of it is not given (15 R350; entry 31). 0xFFFF
for none. -/
opaque replicaGroup : Nat → Nat

end Sys2Proof.Config
end

