-- ==== Sys2Proof/Machine/Float.lean ====
section
/-! DEFINITION. Number formats, exact values, rounding and conversion (07 R135 to R158): every unit of the part
reads, rounds and converts through these. -/

namespace Sys2Proof.Machine

/-- The formats of Table 7-1. -/
inductive Fmt where
  | fp64 | fp32 | fp16 | bf16 | e4m3 | e5m2 | e3m2 | e2m3 | e2m1 | int8 | int16 | int32 | e8m0 | raw8
  deriving DecidableEq, Repr

/-- The format of a code; none for an invalid code (Table 7-1). -/
def Fmt.ofCode (c : Nat) : Option Fmt :=
  match c with
  | 1 => some .fp64 | 2 => some .fp32 | 3 => some .fp16 | 4 => some .bf16 | 5 => some .e4m3 | 6 => some .e5m2
  | 7 => some .e3m2 | 8 => some .e2m3 | 9 => some .e2m1 | 10 => some .int8 | 11 => some .int16
  | 12 => some .int32 | 13 => some .e8m0 | 14 => some .raw8 | _ => none

/-- The width of an element in bits (Table 7-1). -/
def Fmt.width : Fmt → Nat
  | .fp64 => 64 | .fp32 => 32 | .fp16 => 16 | .bf16 => 16 | .e4m3 => 8 | .e5m2 => 8 | .e3m2 => 6 | .e2m3 => 6
  | .e2m1 => 4 | .int8 => 8 | .int16 => 16 | .int32 => 32 | .e8m0 => 8 | .raw8 => 8

/-- Which encodings of the top exponent are special (Table 7-2): infinities and NaNs as IEEE 754, the one NaN of
E4M3, or none. -/
inductive Specials where
  | ieee | e4m3 | none
  deriving DecidableEq, Repr

/-- A floating-point layout (Table 7-2): exponent bits, significand bits, bias, special encodings. -/
structure FpFmt where
  ebits : Nat
  mbits : Nat
  bias  : Nat
  spec  : Specials
  deriving DecidableEq, Repr

/-- The layout of a floating-point format; none for integers, scales and bytes. -/
def Fmt.fp? : Fmt → Option FpFmt
  | .fp64 => some ⟨11, 52, 1023, .ieee⟩
  | .fp32 => some ⟨8, 23, 127, .ieee⟩
  | .fp16 => some ⟨5, 10, 15, .ieee⟩
  | .bf16 => some ⟨8, 7, 127, .ieee⟩
  | .e4m3 => some ⟨4, 3, 7, .e4m3⟩
  | .e5m2 => some ⟨5, 2, 15, .ieee⟩
  | .e3m2 => some ⟨3, 2, 3, .none⟩
  | .e2m3 => some ⟨2, 3, 1, .none⟩
  | .e2m1 => some ⟨2, 1, 1, .none⟩
  | _ => none

/-- The width of an integer format. -/
def Fmt.int? : Fmt → Option Nat
  | .int8 => some 8 | .int16 => some 16 | .int32 => some 32 | _ => none

/-- The four formats of VXE floating-point arithmetic. -/
def Fmt.isWideFp : Fmt → Bool
  | .fp64 | .fp32 | .fp16 | .bf16 => true
  | _ => false

/-- Are the results of a conversion to the format classified: of 16 bits or less, or FP32 and FP64 where the tensor is a
principal one (R152, 08 R172)? -/
def Fmt.classified (f : Fmt) (principal : Bool) : Bool :=
  decide (f.width ≤ 16) || (principal && (f = .fp32 || f = .fp64))

/-- An exact value: a NaN (signalling or quiet), an infinity, or ±m × 2^e; `m` 0 is a zero with its sign. -/
inductive XNum where
  | nan (signalling : Bool)
  | inf (neg : Bool)
  | fin (neg : Bool) (m : Nat) (e : Int)
  deriving DecidableEq, Repr

def XNum.isNan : XNum → Bool
  | .nan _ => true
  | _ => false

def XNum.isSnan : XNum → Bool
  | .nan s => s
  | _ => false

def XNum.isZero : XNum → Bool
  | .fin _ 0 _ => true
  | _ => false

def XNum.sign : XNum → Bool
  | .nan _ => false
  | .inf n => n
  | .fin n _ _ => n

/-- Multiply by 2^k. -/
def XNum.scale (k : Int) : XNum → XNum
  | .fin n m e => .fin n m (e + k)
  | x => x

/-- Negation of a value. -/
def XNum.neg : XNum → XNum
  | .nan s => .nan s
  | .inf n => .inf (!n)
  | .fin n m e => .fin (!n) m e

/-- Magnitude times 2^k as a natural number, where that is whole; used with a common least exponent. -/
def shl (m : Nat) (k : Int) : Nat := m * 2 ^ k.toNat

/-- The signed integer of a finite value at the exponent `e0`, at most its own. -/
def fixAt (n : Bool) (m : Nat) (e e0 : Int) : Int :=
  if n then - (shl m (e - e0) : Int) else (shl m (e - e0) : Int)

/-- Value of an integer at exponent `e0`; `zneg` is the sign of a zero result. -/
def XNum.ofFix (v : Int) (e0 : Int) (zneg : Bool) : XNum :=
  if v = 0 then .fin zneg 0 0 else .fin (decide (v < 0)) v.natAbs e0

/-- The exact sum of two values (R107, R141, R156): a NaN operand or ∞ − ∞ gives a NaN. A sum of zeros of one sign
keeps it, as IEEE 754 gives; a zero from values that cancel is −0 only when rounding toward negative (`rdn`).
DEDUCED, entry 9. -/
def XNum.add (rdn : Bool) (x y : XNum) : XNum :=
  match x, y with
  | .nan s, .nan t => .nan (s || t)
  | .nan s, _ => .nan s
  | _, .nan t => .nan t
  | .inf a, .inf b => if a = b then .inf a else .nan false
  | .inf a, .fin _ _ _ => .inf a
  | .fin _ _ _, .inf b => .inf b
  | .fin n m e, .fin n' m' e' =>
    if m = 0 ∧ m' = 0 then .fin (if n = n' then n else rdn) 0 0
    else if m = 0 then .fin n' m' e'
    else if m' = 0 then .fin n m e
    else
      let e0 := min e e'
      XNum.ofFix (fixAt n m e e0 + fixAt n' m' e' e0) e0 rdn

/-- The exact product of two values: 0 × ∞ gives a NaN. -/
def XNum.mul (x y : XNum) : XNum :=
  match x, y with
  | .nan s, .nan t => .nan (s || t)
  | .nan s, _ => .nan s
  | _, .nan t => .nan t
  | .inf a, .inf b => .inf (a != b)
  | .inf a, .fin n m _ => if m = 0 then .nan false else .inf (a != n)
  | .fin n m _, .inf b => if m = 0 then .nan false else .inf (n != b)
  | .fin n m e, .fin n' m' e' => .fin (n != n') (m * m') (e + e')

/-- Order of two values that are not NaN: is x below y (−0 and +0 equal)? -/
def XNum.lt (x y : XNum) : Bool :=
  match x, y with
  | .inf a, .inf b => a && !b
  | .inf a, .fin _ _ _ => a
  | .fin _ _ _, .inf b => !b
  | .fin n m e, .fin n' m' e' =>
    let e0 := min e e'
    decide (fixAt n m e e0 < fixAt n' m' e' e0)
  | _, _ => false

/-- Equality of two values that are not NaN (−0 equals +0). -/
def XNum.eqv (x y : XNum) : Bool :=
  match x, y with
  | .inf a, .inf b => a == b
  | .fin n m e, .fin n' m' e' =>
    let e0 := min e e'
    decide (fixAt n m e e0 = fixAt n' m' e' e0)
  | _, _ => false

/-- Magnitude order of two finite values. -/
def XNum.magLt (x y : XNum) : Bool :=
  match x, y with
  | .fin _ m e, .fin _ m' e' => let e0 := min e e'; decide (shl m (e - e0) < shl m' (e' - e0))
  | _, _ => false

/-- The magnitude of a value. -/
def XNum.abs : XNum → XNum
  | .nan s => .nan s
  | .inf _ => .inf false
  | .fin _ m e => .fin false m e

/-! ### Encodings -/

/-- The two's complement value of an encoding of `w` bits (R142). -/
def sext (w v : Nat) : Int := if 2 * (v % 2 ^ w) < 2 ^ w then (v % 2 ^ w : Nat) else (v % 2 ^ w : Nat) - (2 ^ w : Nat)

/-- The encoding of an integer in `w` bits of two's complement. -/
def toBits (w : Nat) (v : Int) : Nat := (v % (2 ^ w : Nat)).toNat

/-- The value of a floating-point encoding (R138, R139). -/
def FpFmt.decode (f : FpFmt) (v : Nat) : XNum :=
  let m := v % 2 ^ f.mbits
  let e := v / 2 ^ f.mbits % 2 ^ f.ebits
  let s := decide (v / 2 ^ (f.mbits + f.ebits) % 2 = 1)
  let top := e = 2 ^ f.ebits - 1
  match f.spec with
  | .ieee =>
    if top then
      if m = 0 then .inf s
      else .nan (decide (m / 2 ^ (f.mbits - 1) = 0) && decide (4 < f.ebits ∧ 5 < f.mbits))
    else if e = 0 then .fin s m (1 - (f.bias : Int) - f.mbits)
    else .fin s (2 ^ f.mbits + m) (e - (f.bias : Int) - f.mbits)
  | .e4m3 =>
    if top ∧ m = 2 ^ f.mbits - 1 then .nan false
    else if e = 0 then .fin s m (1 - (f.bias : Int) - f.mbits)
    else .fin s (2 ^ f.mbits + m) (e - (f.bias : Int) - f.mbits)
  | .none =>
    if e = 0 then .fin s m (1 - (f.bias : Int) - f.mbits)
    else .fin s (2 ^ f.mbits + m) (e - (f.bias : Int) - f.mbits)

/-- The value of an encoding in a format: R138, R142, R143; a RAW8 byte has no value and is read as its number. -/
def Fmt.decode (f : Fmt) (v : Nat) : XNum :=
  match f.fp? with
  | some g => g.decode v
  | none =>
    match f with
    | .e8m0 => if v % 256 = 255 then .nan false else .fin false 1 ((v % 256 : Nat) - (127 : Int))
    | .raw8 => .fin false (v % 256) 0
    | _ =>
      let i := sext f.width v
      .fin (decide (i < 0)) i.natAbs 0

/-- The canonical NaN of a layout (R140); a layout without NaN gives +0 (Table 7-5). -/
def FpFmt.canonNan (f : FpFmt) : Nat :=
  match f.spec with
  | .ieee => (2 ^ f.ebits - 1) * 2 ^ f.mbits + 2 ^ (f.mbits - 1)
  | .e4m3 => 2 ^ (f.ebits + f.mbits) - 1
  | .none => 0

/-- Sign bit of a layout. -/
def FpFmt.signBit (f : FpFmt) (neg : Bool) : Nat := if neg then 2 ^ (f.ebits + f.mbits) else 0

/-- The largest finite encoding (Table 7-2). -/
def FpFmt.maxEnc (f : FpFmt) : Nat :=
  match f.spec with
  | .ieee => (2 ^ f.ebits - 1) * 2 ^ f.mbits - 1
  | .e4m3 => 2 ^ (f.ebits + f.mbits) - 2
  | .none => 2 ^ (f.ebits + f.mbits) - 1

/-- Infinity, or the largest magnitude of a layout without infinities (Table 7-5). -/
def FpFmt.infEnc (f : FpFmt) : Nat :=
  match f.spec with
  | .ieee => (2 ^ f.ebits - 1) * 2 ^ f.mbits
  | _ => f.maxEnc

/-- The least exponent of a normal value. -/
def FpFmt.emin (f : FpFmt) : Int := 1 - (f.bias : Int)

/-! ### Rounding -/

/-- The rounding modes a unit can be asked for (Table 7-3); DYN is resolved before. -/
inductive RMode where
  | rne | rtz | rdn | rup | rmm
  | sr (rbits : Nat)
  deriving DecidableEq, Repr

/-- The mode of a code of Table 7-3 below 5. -/
def RMode.ofCode (c : Nat) : RMode :=
  match c with
  | 1 => .rtz | 2 => .rdn | 3 => .rup | 4 => .rmm | _ => .rne

/-- Does the part `rem / 2^s` below the kept bits round the magnitude up (R145, R147)? -/
def roundsUp (mode : RMode) (neg : Bool) (q rem s : Nat) : Bool :=
  match mode with
  | .rne => decide (2 ^ s < 2 * rem) || (decide (2 * rem = 2 ^ s) && decide (q % 2 = 1))
  | .rtz => false
  | .rdn => neg && decide (rem ≠ 0)
  | .rup => !neg && decide (rem ≠ 0)
  | .rmm => decide (2 ^ s ≤ 2 * rem) && decide (rem ≠ 0)
  | .sr r => decide (65536 ≤ rem * 65536 / 2 ^ s + r % 65536)

/-- Round the magnitude m × 2^e to a multiple of 2^u: the multiple, and whether the value changed. -/
def roundAt (mode : RMode) (neg : Bool) (m : Nat) (e u : Int) : Nat × Bool :=
  if u ≤ e then (m * 2 ^ (e - u).toNat, false)
  else
    let s := (u - e).toNat
    let q := m / 2 ^ s
    let rem := m % 2 ^ s
    (if roundsUp mode neg q rem s then q + 1 else q, decide (rem ≠ 0))

/-- floor(log2(m × 2^e)) for m > 0. -/
def ilog2 (m : Nat) (e : Int) : Int := (Nat.log2 m : Int) + e

/-- Is m × 2^e above m' × 2^e'? -/
def magGt (m : Nat) (e : Int) (m' : Nat) (e' : Int) : Bool :=
  let e0 := min e e'
  decide (shl m' (e' - e0) < shl m (e - e0))

/-- The events of R152. -/
inductive Ev where
  | none | nan | inf | ovf
  deriving DecidableEq, Repr

/-- The event codes of NUM_LAST and Table 8-5: 1 NAN, 2 INF, 3 OVF. -/
def Ev.code : Ev → Nat
  | .none => 0 | .nan => 1 | .inf => 2 | .ovf => 3

/-- Exception flags NV, DZ, OF, UF, NX as bits 0 to 4 (R157, Table 8-5 kind 11). -/
def flNV : Nat := 1
def flDZ : Nat := 2
def flOF : Nat := 4
def flUF : Nat := 8
def flNX : Nat := 16

/-- A rounded result: encoding, event and flags. -/
structure Rounded where
  enc   : Nat
  ev    : Ev := .none
  flags : Nat := 0
  deriving DecidableEq, Repr

/-- Overflow result of a layout in a mode (Table 7-5). -/
def FpFmt.ovfEnc (f : FpFmt) (mode : RMode) (neg : Bool) : Nat :=
  f.signBit neg + match mode with
    | .rtz => f.maxEnc
    | .rdn => if neg then f.infEnc else f.maxEnc
    | .rup => if neg then f.maxEnc else f.infEnc
    | _ => f.infEnc

/-- Encode q × 2^u, which the layout represents, with its sign. -/
def FpFmt.encode (f : FpFmt) (neg : Bool) (q : Nat) (u : Int) : Nat :=
  f.signBit neg +
    if q = 0 then 0
    else
      let fl := ilog2 q u
      if fl < f.emin then q
      else
        let sig := if fl - f.mbits ≤ u then q * 2 ^ (u - (fl - f.mbits)).toNat
                   else q / 2 ^ ((fl - f.mbits) - u).toNat
        (fl + f.bias).toNat * 2 ^ f.mbits + sig % 2 ^ f.mbits

/-- Round a finite exact value to a layout (R146, R151, R157): once, then the overflow check. Tininess is
detected after rounding. -/
def FpFmt.round (f : FpFmt) (mode : RMode) (neg : Bool) (m : Nat) (e : Int) : Rounded :=
  if m = 0 then { enc := f.signBit neg }
  else
    let fl := ilog2 m e
    let u := max (fl - f.mbits) (f.emin - f.mbits)
    let (q, inex) := roundAt mode neg m e u
    let mx := f.decode f.maxEnc
    let past := match mx with
      | .fin _ mm me => magGt q u mm me
      | _ => false
    if past then { enc := f.ovfEnc mode neg, ev := .ovf, flags := flOF + flNX }
    else
      let (q', _) := roundAt mode neg m e (fl - f.mbits)
      let tiny := magGt 1 f.emin q' (fl - f.mbits)
      { enc := f.encode neg q u,
        flags := (if inex then flNX else 0) + (if inex && tiny then flUF else 0) }

/-- Round an exact value to an integer of `w` bits (R150): saturating. -/
def roundInt (w : Nat) (mode : RMode) (neg : Bool) (m : Nat) (e : Int) : Rounded :=
  let (q, inex) := roundAt mode neg m e 0
  let lim := if neg then 2 ^ (w - 1) else 2 ^ (w - 1) - 1
  if lim < q then
    { enc := toBits w (if neg then - (2 ^ (w - 1) : Nat) else (2 ^ (w - 1) - 1 : Nat)), ev := .ovf,
      flags := flOF + flNX }
  else { enc := toBits w (if neg then - (q : Int) else q), flags := if inex then flNX else 0 }

/-- Conversion of a value to a format with destination scale 2^sexp (R148, R150, R151); `snan` where the scale is
NaN. The flags follow R157 for a VXE conversion. DESIGN CHOICE (entry 146): a NaN that only the destination scale makes of
the element raises NV too, where the destination has no NaN; the rule names a source of that kind only. -/
def convert (d : Fmt) (mode : RMode) (sexp : Int) (snan : Bool) (x : XNum) : Rounded :=
  match d.fp? with
  | some f =>
    let isNan := x.isNan || snan
    if isNan then
      { enc := f.canonNan, ev := .nan,
        flags := if x.isSnan || decide (f.spec = .none) then flNV else 0 }
    else match x with
      | .inf n =>
        { enc := f.signBit n + f.infEnc, ev := .inf, flags := if f.spec = .ieee then 0 else flNV }
      | .fin n m e => f.round mode n m (e - sexp)
      | .nan _ => { enc := f.canonNan, ev := .nan }
  | none =>
    match d.int? with
    | some w =>
      if x.isNan || snan then { enc := 0, ev := .nan, flags := flNV }
      else match x with
        | .inf n =>
          { enc := toBits w (if n then - (2 ^ (w - 1) : Nat) else (2 ^ (w - 1) - 1 : Nat)), ev := .inf,
            flags := flNV }
        | .fin n m e => roundInt w mode n m (e - sexp)
        | .nan _ => { enc := 0, ev := .nan }
    | none => { enc := 0 }

/-- Round an exact value to a floating-point format as the result of an operation: a NaN gives the canonical NaN
(R140). `nv` says the operation itself was invalid. -/
def roundOp (f : FpFmt) (mode : RMode) (nv : Bool) (x : XNum) : Rounded :=
  match x with
  | .nan _ => { enc := f.canonNan, flags := if nv then flNV else 0 }
  | .inf n => { enc := f.signBit n + f.infEnc, flags := if nv then flNV else 0 }
  | .fin n m e => f.round mode n m e

/-- The value of a scaled element (R153): format, encoding, scale exponent, NaN scale, INT8 block factor. -/
def scaledValue (f : Fmt) (enc : Nat) (scaled snan : Bool) (sexp : Int) (intBlock : Bool) : XNum :=
  if scaled && snan then .nan false
  else ((f.decode enc).scale (if scaled then sexp else 0)).scale (if intBlock && decide (f = .int8) then -6 else 0)

/-! ### Arithmetic on encodings of one floating-point format (R156, R157) -/

/-- Sum or difference. -/
def fpAdd (f : FpFmt) (mode : RMode) (sub : Bool) (a b : Nat) : Rounded :=
  let x := f.decode a
  let y := if sub then (f.decode b).neg else f.decode b
  let nv := x.isSnan || y.isSnan || match x, y with
    | .inf p, .inf q => p != q
    | _, _ => false
  roundOp f mode nv (x.add (decide (mode = .rdn)) y)

/-- 0 × ∞. -/
def mulInvalid (x y : XNum) : Bool :=
  match x, y with
  | .inf _, .fin _ 0 _ => true
  | .fin _ 0 _, .inf _ => true
  | _, _ => false

/-- Product. -/
def fpMul (f : FpFmt) (mode : RMode) (a b : Nat) : Rounded :=
  let x := f.decode a
  let y := f.decode b
  roundOp f mode (x.isSnan || y.isSnan || mulInvalid x y) (x.mul y)

/-- ±a × b ± c with one rounding; `nanNv` says whether 0 × ∞ with a quiet NaN addend raises NV, which IEEE 754
leaves to the implementation. -/
def fpFma (f : FpFmt) (mode : RMode) (nanNv : Bool) (negProd negAdd : Bool) (a b c : Nat) : Rounded :=
  let x := f.decode a
  let y := f.decode b
  let z := if negAdd then (f.decode c).neg else f.decode c
  let p := if negProd then (x.mul y).neg else x.mul y
  let inv := mulInvalid x y && (!z.isNan || nanNv)
  let nv := x.isSnan || y.isSnan || z.isSnan || inv || match p, z with
    | .inf s, .inf t => s != t
    | _, _ => false
  roundOp f mode nv (p.add (decide (mode = .rdn)) z)

/-- Quotient of magnitudes with a sticky bit below more than 130 quotient bits, exact for every rounding to a
format of the part. -/
def quotient (m m' : Nat) : Nat × Int :=
  let k := 200 + Nat.log2 m'
  let q := m * 2 ^ k / m'
  (2 * q + if m * 2 ^ k % m' = 0 then 0 else 1, - (k : Int) - 1)

/-- Division; a finite non-zero value over zero raises DZ (R157). -/
def fpDiv (f : FpFmt) (mode : RMode) (a b : Nat) : Rounded :=
  let x := f.decode a
  let y := f.decode b
  let snv := x.isSnan || y.isSnan
  match x, y with
  | .nan _, _ => roundOp f mode snv (.nan false)
  | _, .nan _ => roundOp f mode snv (.nan false)
  | .inf _, .inf _ => roundOp f mode true (.nan false)
  | .inf n, .fin n' _ _ => roundOp f mode false (.inf (n != n'))
  | .fin n _ _, .inf n' => roundOp f mode false (.fin (n != n') 0 0)
  | .fin n m e, .fin n' m' e' =>
    if m' = 0 then
      if m = 0 then roundOp f mode true (.nan false)
      else { enc := f.signBit (n != n') + f.infEnc, flags := flDZ }
    else if m = 0 then roundOp f mode false (.fin (n != n') 0 0)
    else
      let (q, k) := quotient m m'
      roundOp f mode false (.fin (n != n') q (e - e' + k))

/-- Integer square root by `fuel` bits, highest first. -/
def isqrtFuel : Nat → Nat → Nat → Nat
  | 0, _, r => r
  | fuel + 1, m, r =>
    let c := r + 2 ^ fuel
    isqrtFuel fuel m (if c * c ≤ m then c else r)

/-- floor(sqrt m). -/
def isqrt (m : Nat) : Nat := isqrtFuel (Nat.log2 m / 2 + 1) m 0

/-- Square root. -/
def fpSqrt (f : FpFmt) (mode : RMode) (a : Nat) : Rounded :=
  match f.decode a with
  | .nan s => roundOp f mode s (.nan false)
  | .inf n => if n then roundOp f mode true (.nan false) else roundOp f mode false (.inf false)
  | .fin n m e =>
    if m = 0 then { enc := f.signBit n }
    else if n then roundOp f mode true (.nan false)
    else
      -- make the exponent even and keep 130 bits below the last bit of the root
      let m1 := if e % 2 = 0 then m else 2 * m
      let e1 := if e % 2 = 0 then e else e - 1
      let big := m1 * 2 ^ 260
      let r := isqrt big
      let st := if r * r = big then 0 else 1
      roundOp f mode false (.fin false (2 * r + st) (e1 / 2 - 131))

/-- Round to an integral value in the format: zero results keep the sign. `exact` says whether NX is raised. -/
def fpRti (f : FpFmt) (mode : RMode) (exact : Bool) (a : Nat) : Rounded :=
  match f.decode a with
  | .nan s => roundOp f mode s (.nan false)
  | .inf n => roundOp f mode false (.inf n)
  | .fin n m e =>
    if 0 ≤ e then { enc := a }
    else
      let (q, inex) := roundAt mode n m e 0
      { enc := f.encode n q 0, flags := if exact && inex then flNX else 0 }

/-- minimumNumber or maximumNumber (`num`), minimum or maximum otherwise, of IEEE 754-2019 (R156): −0 is below
+0; a signalling NaN raises NV. -/
def fpMinMax (f : FpFmt) (isMax num : Bool) (a b : Nat) : Rounded :=
  let x := f.decode a
  let y := f.decode b
  let fl := if x.isSnan || y.isSnan then flNV else 0
  if x.isNan && y.isNan then { enc := f.canonNan, flags := fl }
  else if x.isNan then { enc := if num then b else f.canonNan, flags := fl }
  else if y.isNan then { enc := if num then a else f.canonNan, flags := fl }
  else
    let xLess := if x.isZero && y.isZero then x.sign && !y.sign else x.lt y
    { enc := if xLess = isMax then b else a, flags := fl }

end Sys2Proof.Machine
end

