-- ==== Sys2Proof/Machine/Hash.lean ====
section
/-! DEFINITION. Check codes, digests and hashes: CRC-32 and CRC-64 (05 R101, 15 R335), the SM3 digest of
GB/T 32905 (02 R35, 15 R349), the rounding hash (08 R170) and the address hash (11 R247). -/

namespace Sys2Proof.Machine

/-! ### CRC-32 of IEEE 802.3: reflected, polynomial 0xEDB88320, initial value and final XOR of all ones -/

def crc32Bits : Nat → Nat → Nat
  | 0, c => c
  | n + 1, c => crc32Bits n (if c % 2 = 1 then (c / 2) ^^^ 0xEDB88320 else c / 2)

def crc32Byte (c : Nat) (b : Byte) : Nat := crc32Bits 8 (c ^^^ b.toNat)

/-- CRC-32 (IEEE 802.3 polynomial) of a byte string. -/
def crc32 (bs : List Byte) : Nat := (bs.foldl crc32Byte 0xFFFFFFFF) ^^^ 0xFFFFFFFF

/-! ### CRC-64 of ECMA-182: MSB first, initial value 0, no reflection, no final XOR (R335) -/

def crc64Bits : Nat → Nat → Nat
  | 0, c => c
  | n + 1, c => crc64Bits n (if 2 ^ 63 ≤ c then (2 * c % 2 ^ 64) ^^^ 0x42F0E1EBA9EA3693 else 2 * c)

def crc64Byte (c : Nat) (b : Byte) : Nat := crc64Bits 8 (c ^^^ (b.toNat * 2 ^ 56))

/-- The witness CRC of a byte string (R335). -/
def crc64 (bs : List Byte) : Nat := bs.foldl crc64Byte 0

/-! ### SM3 (GB/T 32905). PRESUMED, entry 10: the algorithm is the published standard's -/

abbrev W32 := BitVec 32

/-- The eight chaining words. -/
structure Sm3State where
  a : W32
  b : W32
  c : W32
  d : W32
  e : W32
  f : W32
  g : W32
  h : W32
  deriving DecidableEq, Repr

def sm3Iv : Sm3State :=
  ⟨0x7380166f, 0x4914b2b9, 0x172442d7, 0xda8a0600, 0xa96f30bc, 0x163138aa, 0xe38dee4d, 0xb0fb0e4e⟩

def sm3P0 (x : W32) : W32 := x ^^^ x.rotateLeft 9 ^^^ x.rotateLeft 17
def sm3P1 (x : W32) : W32 := x ^^^ x.rotateLeft 15 ^^^ x.rotateLeft 23

/-- Message expansion, newest word first: `n` more words. -/
def sm3Expand : Nat → List W32 → List W32
  | 0, ws => ws
  | n + 1, ws =>
    let g := fun i => ws.getD i 0
    let w := sm3P1 (g 15 ^^^ g 8 ^^^ (g 2).rotateLeft 15) ^^^ (g 12).rotateLeft 7 ^^^ g 5
    sm3Expand n (w :: ws)

/-- One round j on the words W_j and W_{j+4}. -/
def sm3Round (j : Nat) (s : Sm3State) (w w4 : W32) : Sm3State :=
  let t : W32 := if j < 16 then 0x79cc4519 else 0x7a879d8a
  let ss1 := (s.a.rotateLeft 12 + s.e + t.rotateLeft (j % 32)).rotateLeft 7
  let ss2 := ss1 ^^^ s.a.rotateLeft 12
  let ff := if j < 16 then s.a ^^^ s.b ^^^ s.c else (s.a &&& s.b) ||| (s.a &&& s.c) ||| (s.b &&& s.c)
  let gg := if j < 16 then s.e ^^^ s.f ^^^ s.g else (s.e &&& s.f) ||| (~~~ s.e &&& s.g)
  let tt1 := ff + s.d + ss2 + (w ^^^ w4)
  let tt2 := gg + s.h + ss1 + w
  ⟨tt1, s.a, s.b.rotateLeft 9, s.c, sm3P0 tt2, s.e, s.f.rotateLeft 19, s.g⟩

def sm3Rounds : Nat → Nat → List W32 → Sm3State → Sm3State
  | 0, _, _, s => s
  | n + 1, j, ws, s => sm3Rounds n (j + 1) (ws.drop 1) (sm3Round j s (ws.getD 0 0) (ws.getD 4 0))

/-- The sixteen big-endian words of a 64-byte block. -/
def sm3Words (blk : List Byte) : List W32 :=
  (List.range 16).map fun i => BitVec.ofNat 32 (beNat ((blk.drop (4 * i)).take 4))

def sm3Block (s : Sm3State) (blk : List Byte) : Sm3State :=
  let ws := (sm3Expand 52 (sm3Words blk).reverse).reverse
  let t := sm3Rounds 64 0 ws s
  ⟨s.a ^^^ t.a, s.b ^^^ t.b, s.c ^^^ t.c, s.d ^^^ t.d, s.e ^^^ t.e, s.f ^^^ t.f, s.g ^^^ t.g, s.h ^^^ t.h⟩

/-- Padding: a 1 bit, zeros, and the 64-bit length in bits. -/
def sm3Pad (bs : List Byte) : List Byte :=
  let n := bs.length
  bs ++ [0x80] ++ List.replicate ((119 - n % 64) % 64) 0 ++ beBytes 8 (8 * n)

def sm3Blocks : Nat → List Byte → Sm3State → Sm3State
  | 0, _, s => s
  | n + 1, bs, s => sm3Blocks n (bs.drop 64) (sm3Block s (bs.take 64))

/-- The SM3 digest, 32 bytes. -/
def sm3 (bs : List Byte) : List Byte :=
  let p := sm3Pad bs
  let s := sm3Blocks (p.length / 64) p sm3Iv
  [s.a, s.b, s.c, s.d, s.e, s.f, s.g, s.h].flatMap fun w => beBytes 4 w.toNat

/-! ### The rounding hash (R170) -/

def rhashRound (k : Word) (st : Word × Word × Word × Word) : Word × Word × Word × Word :=
  let (a, b, c, d) := st
  let a := a + b
  let d := (d ^^^ a).rotateLeft 29
  let c := c + d
  let b := (b ^^^ c).rotateLeft 17
  let a := a + k
  let c := (c ^^^ a).rotateLeft 43
  let d := d + c
  let a := (a ^^^ d).rotateLeft 11
  (a, b, c, d)

/-- rhash of R170. -/
def rhash (seed step : Nat) (tensor : Nat) (index : Nat) : Word :=
  let st : Word × Word × Word × Word :=
    (BitVec.ofNat 64 seed, BitVec.ofNat 64 (step % 2 ^ 48),
     BitVec.ofNat 64 (tensor % 2 ^ 32 * 2 ^ 32 + 0x4F4C5348), BitVec.ofNat 64 index)
  let st := rhashRound 0x6A1D38C5F29B0E47 st
  let st := rhashRound 0x3C8EB5D147A296F3 st
  let st := rhashRound 0xD4B70E298C531FA6 st
  let st := rhashRound 0x81F36CA45E0BD927 st
  let (a, b, c, d) := st
  a ^^^ b ^^^ c ^^^ d

/-! ### The address hash (R247) -/

/-- Where a byte of a die's home region lies: stack of the die, pseudo-channel, address within it. -/
structure Placed where
  stack : Nat
  pc    : Nat
  addr  : Nat
  deriving DecidableEq, Repr

/-- The hash of R247. -/
def placeOf (off : Nat) : Placed :=
  let g := off / 256
  let w := g % 64
  let u := g / 64
  let l := u / 3
  let r := u % 3
  let f := (l ^^^ (l / 2 ^ 6) ^^^ (l / 2 ^ 12) ^^^ (l / 2 ^ 18)) % 64
  ⟨(r + f) % 3, w ^^^ f, l * 256 + off % 256⟩

end Sys2Proof.Machine
end

