-- ==== Sys2Proof/Machine/Numerics.lean ====
section
/-! DEFINITION. Scale selection, the scale record's update and block conversion (08 R161 to R171). -/

namespace Sys2Proof.Machine

/-- fmax of R164 as m × 2^e; `block` for INT8 in block mode. -/
def fmaxOf (f : Fmt) (block : Bool) : Nat × Int :=
  match f.fp? with
  | some g =>
    match g.decode g.maxEnc with
    | .fin _ m e => (m, e)
    | _ => (1, 0)
  | none =>
    match f.int? with
    | some w => (2 ^ (w - 1) - 1, if block then -6 else 0)
    | none => (1, 0)

/-- select of R164: the scale byte for a finite amax m × 2^e above 0. -/
def select (m : Nat) (e : Int) (h : Nat) (fm : Nat × Int) : Nat :=
  let ef := ilog2 fm.1 fm.2
  let ea := ilog2 m e
  let d := ef - ea
  -- mf < ma, both mantissas brought below one exponent
  let less := magGt m (e - ea) fm.1 (fm.2 - ef)
  let d := if less then d - 1 else d
  let x := 127 - (d - h)
  if x < 0 then 0 else if 254 < x then 254 else x.toNat

/-- amax folded from finite values, as an FP32 encoding: a magnitude that FP32 does not hold is rounded toward
positive infinity (R161). -/
def amaxFp32 (x : XNum) : Nat :=
  match x with
  | .fin _ m e => (FpFmt.round ⟨8, 23, 127, .ieee⟩ .rup false m e).enc
  | _ => 0

/-- A scale record (Table 8-2). -/
structure ScaleRec where
  tensor   : Nat
  fmt      : Nat
  headroom : Nat
  base     : Nat
  scale    : Nat
  valid    : Nat
  clean    : Nat
  mode     : Nat
  last     : Nat
  amax     : List Nat
  deriving DecidableEq, Repr

/-- Read a record from its 128 bytes (Table 8-2). -/
def ScaleRec.ofBytes (bs : List Byte) : ScaleRec where
  tensor := fieldAt bs 0 4
  fmt := fieldAt bs 4 1
  headroom := fieldAt bs 5 1
  base := fieldAt bs 6 1
  scale := fieldAt bs 7 1
  valid := fieldAt bs 8 1
  clean := fieldAt bs 9 1
  mode := fieldAt bs 10 1
  last := fieldAt bs 0x10 8 % 2 ^ 48
  amax := (List.range 16).map fun i => fieldAt bs (0x20 + 4 * i) 4

/-- The 128 bytes of a record; reserved bytes 0 (R8). -/
def ScaleRec.toBytes (r : ScaleRec) : List Byte :=
  leBytes 4 r.tensor ++ leBytes 1 r.fmt ++ leBytes 1 r.headroom ++ leBytes 1 r.base ++ leBytes 1 r.scale
    ++ leBytes 1 r.valid ++ leBytes 1 r.clean ++ leBytes 1 r.mode ++ leBytes 5 0
    ++ leBytes 8 r.last ++ leBytes 8 0 ++ r.amax.flatMap (leBytes 4) ++ leBytes 32 0

/-- Does a record pass the checks of R163 that read it alone? -/
def ScaleRec.ok (r : ScaleRec) : Bool :=
  decide (2 ≤ r.fmt ∧ r.fmt ≤ 0x0A) && decide (r.headroom ≤ 31) && decide (r.base ≤ 31)
    && decide (r.valid ≤ 16) && decide (r.clean ≤ 15) && decide (r.mode ≤ 1) && decide (r.scale ≠ 0xFF)
    && (r.amax.take r.valid).all fun a => decide (a < 0x7F800000)

/-- The update of R165. `amax` is an FP32 encoding, 0 where the tensor had no finite non-zero value. R161's rounding
can give an infinite amax, and R164 states no scale for one: the byte is then a free value of the format, the mode and the
headroom (entry 3), the same in every run (01 R21). -/
def ScaleRec.update (o : ScaleRec) (amax : Nat) (ev : Bool) (k step : Nat) : ScaleRec :=
  let h := min (o.headroom + k) 31
  let hc : Nat × Nat :=
    if ev then (min (h + 1) 31, 0)
    else if o.clean + 1 = 16 then (if o.base < h then h - 1 else h, 0)
    else (h, o.clean + 1)
  let hist := if 0 < amax then amax :: o.amax.take 15 else o.amax
  let valid := if 0 < amax then min (o.valid + 1) 16 else o.valid
  let m := (hist.take valid).foldl max 0
  let scale := match Fmt.ofCode o.fmt, (FpFmt.mk 8 23 127 .ieee).decode m with
    | some f, .fin _ mm me => if 0 < valid ∧ 0 < m then select mm me hc.1 (fmaxOf f (o.mode = 1)) else o.scale
    | some _, .inf _ => Config.scaleOfInf o.fmt o.mode hc.1 % 255
    | _, _ => o.scale
  { o with headroom := hc.1, clean := hc.2, amax := hist, valid := valid, scale := scale, last := step }

/-- Larger magnitude of a finite value against one kept so far. -/
def amaxFold (acc : XNum) (x : XNum) : XNum :=
  match x with
  | .fin _ _ _ => if acc.magLt x then x.abs else acc
  | _ => acc

/-- The largest magnitude among the finite values of a list (R161, R169). -/
def amaxOf (xs : List XNum) : XNum := xs.foldl amaxFold (.fin false 0 0)

/-- The scale byte a writing converter chooses for a block (R169). -/
def blockScale (d : Fmt) (xs : List XNum) : Nat :=
  match amaxOf xs with
  | .fin _ m e => if m = 0 then 127 else select m e 0 (fmaxOf d true)
  | _ => 127

/-- The destination scale exponent of a scale byte: INT8 in block mode carries 2^-6 besides (R148). -/
def dstScaleExp (d : Fmt) (block : Bool) (x : Nat) : Int :=
  (x : Int) - 127 + if block && decide (d = .int8) then -6 else 0

/-- rbits of R170 and R171. -/
def rbitsOf (seed step tensor index : Nat) : Nat := (rhash seed step tensor index).toNat % 65536

end Sys2Proof.Machine
end

