-- ==== Sys2Proof/Machine/Tab.lean ====
section
/-! DEFINITION. Sparse tables by key: a list of (key, value) pairs, keys strictly rising. Registers, memory and
every per-unit record of the state are tables. -/

namespace Sys2Proof.Machine

/-- A sparse table: pairs of a key and a value, sorted by key, no key twice. -/
abbrev Tab (α : Type) := List (Nat × α)

/-- The value at key `k`, `dflt` where none is listed. -/
def Tab.get {α : Type} (dflt : α) : Tab α → Nat → α
  | [], _ => dflt
  | (k', v) :: t, k => if k = k' then v else Tab.get dflt t k

/-- The value at key `k`, where one is listed. -/
def Tab.find {α : Type} : Tab α → Nat → Option α
  | [], _ => none
  | (k', v) :: t, k => if k = k' then some v else Tab.find t k

/-- Insert or replace the value at key `k`. -/
def Tab.put {α : Type} : Tab α → Nat → α → Tab α
  | [], k, v => [(k, v)]
  | (k', v') :: t, k, v =>
    if k < k' then (k, v) :: (k', v') :: t
    else if k = k' then (k, v) :: t
    else (k', v') :: Tab.put t k v

/-- Remove every entry at key `k`. -/
def Tab.del {α : Type} : Tab α → Nat → Tab α
  | [], _ => []
  | (k', v') :: t, k => if k = k' then Tab.del t k else (k', v') :: Tab.del t k

/-- Set key `k` to `v`, listing nothing where `v` is what an unlisted key reads as: the canonical form. -/
def Tab.set {α : Type} [DecidableEq α] (dflt : α) (t : Tab α) (k : Nat) (v : α) : Tab α :=
  if v = dflt then Tab.del t k else Tab.put t k v

/-- Every key at or above `lo`, rising, and no value equal to what its key reads as unlisted. -/
def Tab.wfFrom {α : Type} [DecidableEq α] (dflt : Nat → α) : Nat → Tab α → Bool
  | _, [] => true
  | lo, (k, v) :: t => decide (lo ≤ k) && decide (v ≠ dflt k) && Tab.wfFrom dflt (k + 1) t

/-- The canonical form: keys strictly rising, no entry equal to its key's default. -/
def Tab.wf {α : Type} [DecidableEq α] (dflt : Nat → α) (t : Tab α) : Bool := Tab.wfFrom dflt 0 t

/-- Change the value at key `k` by `f`. -/
def Tab.upd {α : Type} [DecidableEq α] (dflt : α) (t : Tab α) (k : Nat) (f : α → α) : Tab α :=
  t.set dflt k (f (t.get dflt k))

/-- The entries whose key satisfies `p`. -/
def Tab.keep {α : Type} (p : Nat → Bool) (t : Tab α) : Tab α := t.filter fun e => p e.1

/-- The keys of the entries whose value satisfies `p`. -/
def Tab.keysWhere {α : Type} (p : α → Bool) (t : Tab α) : List Nat :=
  (t.filter fun e => p e.2).map (·.1)

/-- Insert in front of the first entry that `a` may precede. -/
def insertBy {α : Type} (le : α → α → Bool) (a : α) : List α → List α
  | [] => [a]
  | b :: t => if le a b then a :: b :: t else b :: insertBy le a t

/-- A list in the order of `le`; entries of equal rank keep their order. -/
def sortBy {α : Type} (le : α → α → Bool) (xs : List α) : List α := xs.foldr (insertBy le) []

end Sys2Proof.Machine
end

