-- ==== Sys2Proof/Machine/RegMap.lean ====
section
/-! DEFINITION. The register space (05 R86 to R90): which pages each die has, and for every register its
writable bits by access type (Table 0-3) and its value after reset, from the register tables of the chapters. -/

namespace Sys2Proof.Machine

/-- The kinds of register page (Table 5-1). -/
inductive PageKind where
  | die | rst | tim | stp | prot | chg | pwr | mgc | mbx | wit | dup | cue
  | mxe | vxe | su | shc | apr | cp | rtr | seam | eth | mgt | pcie | apc
  deriving DecidableEq, Repr

/-- The page at index `pg` of die `d`; none where it is absent (Table 5-1, R87). -/
def pageKind (d pg : Nat) : Option PageKind :=
  match pg with
  | 0x00 => some .die
  | 0x01 => if d = 0 then some .rst else none
  | 0x02 => some .tim
  | 0x03 => if d = 0 then some .stp else none
  | 0x04 => some .prot
  | 0x05 => some .chg
  | 0x06 => some .pwr
  | 0x07 => some .mgc
  | 0x08 => if d = 0 then some .mbx else none
  | 0x09 => some .wit
  | 0x0A => some .dup
  | 0x0B => if d = 0 then some .cue else none
  | 0x40 => some .shc
  | 0x57 => some .rtr
  | 0x58 => some .seam
  | 0x59 => some .seam
  | 0x5C => some .eth
  | 0x5D => if d = 0 then some .mgt else none
  | 0x5E => if d = 1 then some .pcie else none
  | 0x60 => some .apc
  | _ =>
    if 0x10 ≤ pg ∧ pg ≤ 0x18 then some .mxe
    else if 0x20 ≤ pg ∧ pg ≤ 0x28 then some .vxe
    else if 0x30 ≤ pg ∧ pg ≤ 0x38 then some .su
    else if 0x44 ≤ pg ∧ pg ≤ 0x46 then some .apr
    else if 0x50 ≤ pg ∧ pg ≤ 0x54 then some .cp
    else none

/-- BLK_ID.BLOCK of a page kind (Table 5-1). -/
def PageKind.block : PageKind → Nat
  | .die => 1 | .rst => 2 | .tim => 3 | .stp => 4 | .prot => 5 | .chg => 6 | .pwr => 7 | .mgc => 8 | .mbx => 9
  | .wit => 0xA | .dup => 0xB | .cue => 0xC | .mxe => 0x10 | .vxe => 0x11 | .su => 0x12 | .shc => 0x20
  | .apr => 0x21 | .cp => 0x30 | .rtr => 0x31 | .seam => 0x32 | .eth => 0x40 | .mgt => 0x41 | .pcie => 0x42
  | .apc => 0x50

/-- The instance number of a page within its die, by its index (Table 5-1). DESIGN CHOICE (entry 131): BLK_ID.INSTANCE has
4 bits and package port numbers reach 19, so a CP page shows 0 to 4, the port's place on its die. -/
def pageInstance (pg : Nat) : Nat :=
  if 0x10 ≤ pg ∧ pg ≤ 0x38 then pg % 16
  else if 0x44 ≤ pg ∧ pg ≤ 0x46 then pg - 0x44
  else if 0x50 ≤ pg ∧ pg ≤ 0x54 then pg - 0x50
  else if 0x58 ≤ pg ∧ pg ≤ 0x59 then pg - 0x58
  else 0

/-- The writable bits of a register by access type (R9), whether its type is RWL, and its reset value. -/
structure RegInfo where
  rw    : Nat := 0
  w1c   : Nat := 0
  wo    : Nat := 0
  rwl   : Bool := false
  reset : Nat := 0
  deriving DecidableEq, Repr

/-- Does the register have a writable field (R101)? -/
def RegInfo.writable (r : RegInfo) : Bool := r.rw != 0 || r.w1c != 0 || r.wo != 0

/-- The low `n` bits set. -/
def maskN (n : Nat) : Nat := 2 ^ n - 1

/-- The bits `lo` to `hi`. -/
def maskR (hi lo : Nat) : Nat := (2 ^ (hi + 1 - lo) - 1) * 2 ^ lo

/-- BLK_CAPS of a page kind: the fields the block's chapter fixes. F_LIMIT of PWR is fused; Table 19-4 gives its
least value. -/
def PageKind.caps : PageKind → Nat
  | .mxe => 128 + 128 * 2 ^ 8 + 7 * 2 ^ 16
  | .vxe => 32 + 4 * 2 ^ 8 + 512 * 2 ^ 16 + 3 * 2 ^ 28
  | .su => 32 + 6 * 2 ^ 6 + 4 * 2 ^ 13 + 4096 * 2 ^ 21
  | .shc => 50 + 16 * 2 ^ 8 + 16 * 2 ^ 16
  | .apr => 64 + 2 * 2 ^ 7 + 2 ^ 9
  | .cp => 5 + 2 * 2 ^ 3 + 2 * 2 ^ 11 + 1024 * 2 ^ 19
  | .rtr => 65536 + 4 * 2 ^ 17 + 16 * 2 ^ 20 + 1024 * 2 ^ 25
  | .wit => 32 + 2 ^ 8
  | .dup => 16
  | .cue => 512 + 2 ^ 10
  | .pwr => 1650 + 2 * 2 ^ 11
  | .mgc => 2 + 32 * 2 ^ 2
  | .apc => 9 + 512 * 2 ^ 4
  | _ => 0

/-- The ERR_STAT bits of a page kind: the common three (Table 5-5) and the block's own. -/
def PageKind.errBits : PageKind → Nat
  | .die => 7 + 2 ^ 8
  | .mxe => 7 + maskR 14 9
  | .vxe => 7 + maskR 12 9
  | .su => 7 + maskR 14 9
  | .shc => 7 + maskR 13 9
  | .apr => 7 + maskR 12 9
  | .cp => 7 + maskR 16 9
  | .rtr => 7 + maskR 15 9
  | .wit => 7 + maskR 12 9
  | .dup => 7 + maskR 11 9
  | .cue => 7 + maskR 15 9
  | .pwr => 7 + maskR 13 9
  | .mgc => 7 + maskR 12 9
  | .apc => 7 + maskR 10 9
  | .eth => 7 + maskR 11 9
  | .mgt => 7 + maskR 11 9
  | .pcie => 7 + maskR 13 9
  | _ => 7

/-- The block-specific RW bits of BLK_CTRL (Table 5-4 and the block's own chapter). -/
def PageKind.ctrlBits : PageKind → Nat
  | .mxe | .vxe | .su => 2 ^ 8
  | .cp => 2 ^ 9
  | .rtr => 2 ^ 8
  | _ => 0

/-- The block-specific WO bits of BLK_CTRL: CP.BLK_CTRL.RETRAIN reads 0. -/
def PageKind.ctrlWo : PageKind → Nat
  | .cp => 2 ^ 8
  | _ => 0

/-- The common header (Table 5-2), below offset 0x080. -/
def headerInfo (k : PageKind) (off : Nat) : RegInfo :=
  match off with
  | 0x010 => { reset := k.caps }
  | 0x018 => { reset := 0xF00 }
  | 0x020 => { rw := 1 + k.ctrlBits, wo := 2 + k.ctrlWo, rwl := true }
  | 0x030 => { w1c := k.errBits }
  | 0x038 => { rw := k.errBits }
  | _ => {}

/-- Table 19-1: frequency in MHz of an operating point at reset. -/
def opFreqReset (n : Nat) : Nat :=
  match n with
  | 0 => 900 | 1 => 1000 | 2 => 1100 | 3 => 1200 | 4 => 1300 | 5 => 1400 | 6 => 1500 | _ => 1650

/-- Table 19-1: package cap in W of an operating point at reset. -/
def opCapReset (n : Nat) : Nat :=
  match n with
  | 0 => 1600 | 1 => 1800 | 2 => 2000 | 3 => 2200 | 4 => 2400 | _ => 2600

/-- A block's own registers, from offset 0x080, with a writable field or a reset value other than 0. Every other
register is RO and 0 after reset (R467). BANK_MAP, BANK_STAT and CORE_MAP reset to the identity with the spares
idle: DESIGN CHOICE, entry 8. -/
def bodyInfo (d : Nat) (k : PageKind) (off : Nat) : RegInfo :=
  match k with
  | .stp =>
    match off with
    | 0x080 => { rw := maskN 52 }
    | 0x088 => { rw := maskN 64 }
    | 0x090 => { rw := 3, rwl := true }
    | 0x100 => { rw := maskN 13 + maskR 23 16, rwl := true, reset := 8 * 2 ^ 16 }
    | 0x108 => { rw := maskN 40, rwl := true }
    | 0x110 => { rw := maskN 52, rwl := true }
    | 0x200 => { rw := maskN 16, rwl := true }
    | 0x208 => { rw := maskN 52 }
    | 0x210 => { rw := maskN 11, reset := 16 }
    | 0x220 => { rw := maskN 32 }
    | 0x228 => { rw := maskN 52 }
    | 0x230 => { wo := maskN 13 }
    | _ => {}
  | .rst =>
    match off with
    | 0x080 => { wo := maskN 64 }
    | 0x100 => { rw := maskN 36, rwl := true, reset := 16 + 100 * 2 ^ 8 + 50 * 2 ^ 18 + 20 * 2 ^ 28 }
    | _ => {}
  | .tim =>
    match off with
    | 0x088 => { rw := 1, rwl := true }
    | _ => {}
  | .mxe =>
    match off with
    | 0x0C0 => { rw := 3 + maskR 25 16, reset := 100 * 2 ^ 16 }
    | 0x0C8 => { rw := maskN 16 }
    | _ => {}
  | .su =>
    if off = 0x0B0 then { rw := maskN 14, reset := 200 }
    else if 0x100 ≤ off ∧ off < 0x900 ∧ off % 64 = 8 then { wo := 7, rwl := true }
    else {}
  | .apr =>
    match off with
    | 0x080 => { rw := maskN 6 }
    | 0x088 => { reset := 0xFFFF * 2 ^ 24 }
    | _ => {}
  | .shc =>
    match off with
    | 0x080 => { reset := 0x2481c61440c2040 }
    | 0x088 => { reset := 0x4d24503ce34c2ca }
    | 0x090 => { reset := 0x75c6da6585d6554 }
    | 0x098 => { reset := 0x9e69648e28607de }
    | 0x0A0 => { reset := 0xbeeb6caeaa68 }
    | 0x0A8 => { reset := 2 * 2 ^ 50 }
    | _ => {}
  | .apc =>
    match off with
    | 0x080 => { reset := 0x76543210 }
    | 0x088 => { rw := maskN 52 }
    | 0x400 => if d = 0 then { rw := maskN 17, reset := 2000 } else {}
    | 0x408 => if d = 0 then { rw := maskN 52 } else {}
    | 0x410 => if d = 0 then { wo := maskN 16 } else {}
    | 0x418 => if d = 0 then { rw := maskN 64 } else {}
    | 0x428 => { rw := maskN 12 }
    | 0x440 => { rw := maskN 52 }
    | 0x448 => { rw := maskN 13, reset := 64 }
    | 0x458 => { rw := maskN 12 }
    | _ => {}
  | .rtr =>
    match off with
    | 0x0C0 => { rw := maskN 10 }
    | 0x0C8 => { rw := maskN 6, rwl := true }
    | 0x0D0 => { rw := maskN 10 + maskR 39 16, reset := 64 + 64 * 2 ^ 16 + 4 * 2 ^ 24 + 5 * 2 ^ 32 }
    | _ => {}
  | .wit =>
    match off with
    | 0x080 => if d = 0 then { rw := maskN 52 } else {}
    | 0x088 => if d = 0 then { rw := maskN 52 } else {}
    | 0x090 => if d = 0 then { rw := maskN 16, rwl := true, reset := 0xFFFF } else {}
    | _ => {}
  | .cue =>
    match off with
    | 0x080 => { rw := maskN 32, rwl := true, reset := 1000 + 3 * 2 ^ 16 + 24 * 2 ^ 20 + 0xF * 2 ^ 28 }
    | 0x088 => { rw := maskN 52 }
    | 0x090 => { rw := maskN 10 }
    | 0x0B8 => { wo := maskN 12 }
    | _ => {}
  | .pwr =>
    if 0x080 ≤ off ∧ off < 0x0C0 ∧ d = 0 then
      { rw := maskN 31, rwl := true,
        reset := opFreqReset ((off - 0x080) / 8) + opCapReset ((off - 0x080) / 8) * 2 ^ 19 }
    else if off = 0x0C0 ∧ d = 0 then { rw := maskN 20, rwl := true, reset := 2200 + 40 * 2 ^ 12 }
    else {}
  | .mgc =>
    if d = 0 ∧ 0x0A8 ≤ off ∧ off ≤ 0x0C0 then { rw := maskN 64 }
    else if d = 0 ∧ off = 0x0C8 then { rw := maskN 14 }
    else {}
  | .mbx =>
    if 0x080 ≤ off ∧ off < 0x100 then { rw := maskN 52, rwl := true }
    else if off = 0x108 then { w1c := maskN 16 }
    else {}
  | .eth | .mgt =>
    match off with
    | 0x080 => { rw := maskN 48 }
    | 0x090 => { rw := maskN 7 }
    | 0x098 => { rw := maskN 52 }
    | 0x0A0 => { rw := 1 + maskR 31 16, rwl := true }
    | 0x0B0 => { rw := maskN 12 }
    | _ => {}
  | .pcie =>
    if 0x0A0 ≤ off ∧ off < 0x0E0 then
      if off % 16 = 0 then { rw := maskR 51 12 + 1 } else { rw := maskR 51 12 }
    else {}
  | _ => {}

/-- What the register at offset `off` of page `pg` of die `d` allows and resets to. An absent page has none. -/
def regInfo (d pg off : Nat) : RegInfo :=
  match pageKind d pg with
  | none => {}
  | some k => if off < 0x080 then headerInfo k off else bodyInfo d k off

/-- The key of a register in the register table: die, page index and offset. -/
def rk (d pg off : Nat) : Nat := d * 2 ^ 20 + pg * 2 ^ 12 + off

/-- Die, page and offset of a key. -/
def rkDie (k : Nat) : Nat := k / 2 ^ 20
def rkPage (k : Nat) : Nat := k / 2 ^ 12 % 2 ^ 8
def rkOff (k : Nat) : Nat := k % 2 ^ 12

/-- The value after reset of the register with key `k`. -/
def regReset (k : Nat) : BitVec 64 := BitVec.ofNat 64 (regInfo (rkDie k) (rkPage k) (rkOff k)).reset

end Sys2Proof.Machine
end

