-- ==== Sys2Proof/Machine/Tile.lean ====
section
/-! DEFINITION. Packing of elements (07 R137), the tile descriptor (06 Table 6-2), the accumulation of the matrix
engine (R105 to R108) and its drain conversion (R114, R117), as functions of the bytes they read. -/

namespace Sys2Proof.Machine

/-- A reader of bytes by offset: staging of one bay, or an address space. -/
abbrev Reader := Nat → Byte

/-- `n` bytes at `off`. -/
def readN (rd : Reader) (off : Nat) : Nat → List Byte
  | 0 => []
  | n + 1 => rd off :: readN rd (off + 1) n

/-! ### Packing (R137) -/

/-- Element `i` of a row whose first byte is at `base`. -/
def elemAt (f : Fmt) (rd : Reader) (base i : Nat) : Nat :=
  match f.width with
  | 4 => (rd (base + i / 2)).toNat / 2 ^ (4 * (i % 2)) % 16
  | 6 => leNat (readN rd (base + 3 * (i / 4)) 3) / 2 ^ (6 * (i % 4)) % 64
  | w => leNat (readN rd (base + i * (w / 8)) (w / 8))

/-- Bytes that `n` packed elements take. -/
def rowBytes (f : Fmt) (n : Nat) : Nat :=
  match f.width with
  | 4 => (n + 1) / 2
  | 6 => (n + 3) / 4 * 3
  | w => n * (w / 8)

/-- The packed bytes of a row of encodings; bits beyond the last element are 0. -/
def packRow (f : Fmt) (es : List Nat) : List Byte :=
  match f.width with
  | 4 => (List.range ((es.length + 1) / 2)).map fun i =>
      BitVec.ofNat 8 (es.getD (2 * i) 0 % 16 + es.getD (2 * i + 1) 0 % 16 * 16)
  | 6 => (List.range ((es.length + 3) / 4)).flatMap fun i =>
      leBytes 3 (es.getD (4 * i) 0 % 64 + es.getD (4 * i + 1) 0 % 64 * 2 ^ 6
        + es.getD (4 * i + 2) 0 % 64 * 2 ^ 12 + es.getD (4 * i + 3) 0 % 64 * 2 ^ 18)
  | w => es.flatMap fun e => leBytes (w / 8) e

/-! ### Descriptors -/

/-- A scale byte of a descriptor (Table 6-2): mode 0 none, 1 tensor, 2 block; block size 16 × 2^n. -/
structure ScaleSel where
  mode  : Nat := 0
  block : Nat := 16
  deriving DecidableEq, Repr

def ScaleSel.ofByte (b : Nat) : ScaleSel := ⟨b % 4, 16 * 2 ^ (b / 4 % 4)⟩

/-- A tile program descriptor (Table 6-2). -/
structure TileDesc where
  opcode      : Nat
  cont        : Bool := false
  drain       : Bool := false
  loadC       : Bool := false
  sr          : Bool := false
  aFmt        : Nat := 0
  bFmt        : Nat := 0
  outFmt      : Nat := 0
  aScale      : ScaleSel := {}
  bScale      : ScaleSel := {}
  outScale    : ScaleSel := {}
  mValid      : Nat := 0
  nValid      : Nat := 0
  lbay        : Nat := 0
  signal      : Nat := 0xFF
  k           : Nat := 0
  aOff        : Nat := 0
  bOff        : Nat := 0
  cOff        : Nat := 0
  aStride     : Nat := 0
  bStride     : Nat := 0
  cStride     : Nat := 0
  aScaleOff   : Nat := 0
  bScaleOff   : Nat := 0
  outScaleOff : Nat := 0
  tileId      : Nat := 0
  waitMask    : Nat := 0
  elemBase    : Nat := 0
  elemRow     : Nat := 0
  semAddr     : Nat := 0
  semValue    : Nat := 0
  deriving DecidableEq, Repr

/-- Read a descriptor's fields from its 64 bytes. -/
def TileDesc.raw (bs : List Byte) : TileDesc where
  opcode := fieldAt bs 0 1
  cont := bitsOf (fieldAt bs 1 1) 0 1 = 1
  drain := bitsOf (fieldAt bs 1 1) 1 1 = 1
  loadC := bitsOf (fieldAt bs 1 1) 2 1 = 1
  sr := bitsOf (fieldAt bs 1 1) 3 1 = 1
  aFmt := fieldAt bs 2 1
  bFmt := fieldAt bs 3 1
  outFmt := fieldAt bs 4 1
  aScale := ScaleSel.ofByte (fieldAt bs 5 1)
  bScale := ScaleSel.ofByte (fieldAt bs 6 1)
  outScale := ScaleSel.ofByte (fieldAt bs 7 1)
  mValid := fieldAt bs 8 1
  nValid := fieldAt bs 9 1
  lbay := fieldAt bs 10 1
  signal := fieldAt bs 11 1
  k := fieldAt bs 12 4
  aOff := fieldAt bs 0x10 4
  bOff := fieldAt bs 0x14 4
  cOff := fieldAt bs 0x18 4
  aStride := fieldAt bs 0x1C 2
  bStride := fieldAt bs 0x1E 2
  cStride := fieldAt bs 0x20 2
  aScaleOff := fieldAt bs 0x24 4
  bScaleOff := fieldAt bs 0x28 4
  outScaleOff := fieldAt bs 0x2C 4
  tileId := fieldAt bs 0x30 4
  waitMask := fieldAt bs 0x34 4
  elemBase := bitsOf (fieldAt bs 0x38 8) 0 40
  elemRow := bitsOf (fieldAt bs 0x38 8) 40 24
  semAddr := fieldAt bs 0x10 8
  semValue := fieldAt bs 0x18 8

/-- Read a descriptor from its 64 bytes. Of SYNC_WAIT, SYNC_ADD and END the fields that R120 reserves are ignored (00
R8). -/
def TileDesc.ofBytes (bs : List Byte) : TileDesc :=
  let t := TileDesc.raw bs
  if t.opcode = 0x10 ∨ t.opcode = 0x11 then
    { opcode := t.opcode, lbay := t.lbay, tileId := t.tileId, semAddr := t.semAddr, semValue := t.semValue }
  else if t.opcode = 0xFF then { opcode := t.opcode, lbay := t.lbay, tileId := t.tileId }
  else t

/-- Kinds of operand pair (Table 6-1). -/
inductive PairKind where
  | narrow | half | fp32 | fp64
  deriving DecidableEq, Repr

def isNarrowFp (c : Nat) : Bool := decide (5 ≤ c ∧ c ≤ 9)

/-- The pair of two format codes; none where Table 6-1 has none (R104). -/
def pairKind (a b : Nat) : Option PairKind :=
  if isNarrowFp a && isNarrowFp b then some .narrow
  else if a = 10 ∧ b = 10 then some .narrow
  else if (a = 4 ∧ b = 4) ∨ (a = 3 ∧ b = 3) then some .half
  else if a = 2 ∧ b = 2 then some .fp32
  else if a = 1 ∧ b = 1 then some .fp64
  else none

/-- K granule of a pair (Table 6-1). -/
def kGranule (a b : Nat) : Nat :=
  match pairKind a b with
  | some .narrow => if a = 9 ∧ b = 9 then 16 else 8
  | some .half => 4
  | _ => 1

/-! ### Accumulation -/

/-- Side A or B of a tile, as the accumulation reads it. -/
structure Side where
  fmt    : Fmt
  scale  : ScaleSel
  base   : Nat
  pitch  : Nat
  sbase  : Nat
  k      : Nat

/-- The value of element k of line r (row of A or column of B), before its scale (R142). -/
def Side.value (s : Side) (rd : Reader) (r k : Nat) : XNum :=
  (s.fmt.decode (elemAt s.fmt rd (s.base + r * s.pitch) k)).scale
    (if s.scale.mode = 2 ∧ s.fmt = .int8 then -6 else 0)

/-- The scale byte that governs line r at element k; 127 (factor 1) where there is none (R109). -/
def Side.scaleByte (s : Side) (rd : Reader) (r k : Nat) : Nat :=
  match s.scale.mode with
  | 1 => (rd s.sbase).toNat
  | 2 => (rd (s.sbase + r * (s.k / s.scale.block) + k / s.scale.block)).toNat
  | _ => 127

def TileDesc.sideA (d : TileDesc) (f : Fmt) : Side :=
  ⟨f, d.aScale, d.aOff, d.aStride * 64, d.aScaleOff, d.k⟩

def TileDesc.sideB (d : TileDesc) (f : Fmt) : Side :=
  ⟨f, d.bScale, d.bOff, d.bStride * 64, d.bScaleOff, d.k⟩

/-- The exact sum of products k0 to k0 + n - 1 (R105, R107). -/
def sumProducts (a b : Side) (rd : Reader) (i j k0 : Nat) : Nat → XNum
  | 0 => .fin false 0 0
  | 1 => (a.value rd i k0).mul (b.value rd j k0)
  | n + 2 => (sumProducts a b rd i j k0 (n + 1)).add false
      ((a.value rd i (k0 + n + 1)).mul (b.value rd j (k0 + n + 1)))

/-- FP32 and FP64 layouts. -/
def fp32L : FpFmt := ⟨8, 23, 127, .ieee⟩
def fp64L : FpFmt := ⟨11, 52, 1023, .ieee⟩

/-- acc + x in a layout with one rounding to nearest even. -/
def accAdd (f : FpFmt) (acc : Nat) (x : XNum) : Nat :=
  (roundOp f .rne false ((f.decode acc).add false x)).enc

/-- The contribution of one narrow block (R105, R106): a zero sum carries no sign. -/
def blockTerm (a b : Side) (rd : Reader) (i j k0 n : Nat) : XNum :=
  let sa := a.scaleByte rd i k0
  let sb := b.scaleByte rd j k0
  if sa = 255 ∨ sb = 255 then .nan false
  else
    match sumProducts a b rd i j k0 n with
    | .fin s m e => if m = 0 then .fin false 0 0 else .fin s m (e + ((sa : Int) - 127) + ((sb : Int) - 127))
    | x => x

/-- The summation block of a narrow pair (R105). -/
def summationBlock (a b : Side) : Nat :=
  match decide (a.scale.mode = 2), decide (b.scale.mode = 2) with
  | true, true => min a.scale.block b.scale.block
  | true, false => a.scale.block
  | false, true => b.scale.block
  | false, false => 128

/-- Narrow accumulation over blocks from k0, ascending. -/
def accNarrow (a b : Side) (rd : Reader) (i j kb k : Nat) : Nat → Nat → Nat → Nat
  | 0, _, acc => acc
  | fuel + 1, k0, acc =>
    if k ≤ k0 then acc
    else accNarrow a b rd i j kb k fuel (k0 + kb)
      (accAdd fp32L acc (blockTerm a b rd i j k0 (min kb (k - k0))))

/-- Accumulation by groups of `g` elements with one rounding each (R107). -/
def accGroups (f : FpFmt) (a b : Side) (rd : Reader) (i j g k : Nat) : Nat → Nat → Nat → Nat
  | 0, _, acc => acc
  | fuel + 1, k0, acc =>
    if k ≤ k0 then acc
    else accGroups f a b rd i j g k fuel (k0 + g)
      (accAdd f acc (sumProducts a b rd i j k0 (min g (k - k0))))

/-- One output element (R105 to R107) from an initial accumulator encoding. -/
def accElem (d : TileDesc) (rd : Reader) (i j init : Nat) : Nat :=
  match Fmt.ofCode d.aFmt, Fmt.ofCode d.bFmt, pairKind d.aFmt d.bFmt with
  | some fa, some fb, some pk =>
    let a := d.sideA fa
    let b := d.sideB fb
    match pk with
    | .narrow => accNarrow a b rd i j (summationBlock a b) d.k d.k 0 init
    | .half => accGroups fp32L a b rd i j 4 d.k d.k 0 init
    | .fp32 => accGroups fp32L a b rd i j 1 d.k d.k 0 init
    | .fp64 => accGroups fp64L a b rd i j 1 d.k d.k 0 init
  | _, _, _ => init

/-- Bytes of an accumulator element of the pair: 8 for FP64, else 4. -/
def accWidth (d : TileDesc) : Nat := if pairKind d.aFmt d.bFmt = some .fp64 then 8 else 4

/-- The initial value of element (i, j) (R108): of the chain, of C_OFF, or 0. -/
def initElem (d : TileDesc) (rd : Reader) (prev : List (List Nat)) (i j : Nat) : Nat :=
  if d.cont then (prev.getD i []).getD j 0
  else if d.loadC then leNat (readN rd (d.cOff + i * d.cStride * 64 + j * accWidth d) (accWidth d))
  else 0

/-- The accumulators of a tile: row i, column j. Only the rows and columns that the chain's draining descriptor
writes (R114) are formed; by R110 no other cell bears on them. -/
def accTile (d : TileDesc) (rd : Reader) (rows cols : Nat) (prev : List (List Nat)) : List (List Nat) :=
  (List.range rows).map fun i => (List.range cols).map fun j =>
    accElem d rd i j (initElem d rd prev i j)

/-! ### Drain -/

/-- What the drain of a chain produces: each row's bytes and output scale bytes, the events in row order, and the amax
(FP32 encoding) of the finite accumulator values. -/
structure Drained where
  rows   : List (List Byte)
  scales : List (List Byte)
  evs    : List Ev
  amax   : Nat
  deriving DecidableEq, Repr

/-- The first event of a list; none where there is none. -/
def firstEv : List Ev → Ev
  | [] => .none
  | e :: es => if e = .none then firstEv es else e

/-- Split a list into runs of `n`, by fuel. -/
def chunksOf {α : Type} (n : Nat) : Nat → List α → List (List α)
  | 0, _ => []
  | fuel + 1, xs => if xs.isEmpty then [] else xs.take n :: chunksOf n fuel (xs.drop n)

/-- The rounding inputs of a drain (R117, R171). -/
structure DrainEnv where
  seed   : Nat
  step   : Nat
  tensor : Nat

/-- The rounding mode of element (i, j) at the drain: RNE, or SR with its hash bits (Table 7-4, R117). -/
def drainMode (d : TileDesc) (v : DrainEnv) (i j : Nat) : RMode :=
  if d.sr then .sr (rbitsOf v.seed v.step v.tensor (d.elemBase + i * d.elemRow + j)) else .rne

/-- Convert a row of accumulator values: the results, and the output block scales (R114, R148, R169). -/
def drainRow (d : TileDesc) (v : DrainEnv) (out : Fmt) (oscale : Nat) (i : Nat) (xs : List XNum) :
    List Rounded × List Byte :=
  match d.outScale.mode with
  | 2 =>
    let blocks := chunksOf d.outScale.block xs.length xs
    let rs := (List.range blocks.length).map fun b =>
      let blk := blocks.getD b []
      let x := blockScale out blk
      ((List.range blk.length).map fun t =>
          convert out (drainMode d v i (b * d.outScale.block + t)) (dstScaleExp out true x) false (blk.getD t (.fin false 0 0)),
        (BitVec.ofNat 8 x : Byte))
    (rs.flatMap (·.1), rs.map (·.2))
  | 1 =>
    ((List.range xs.length).map fun j =>
      convert out (drainMode d v i j) (dstScaleExp out false oscale) (decide (oscale = 255)) (xs.getD j (.fin false 0 0)), [])
  | _ =>
    ((List.range xs.length).map fun j =>
      convert out (drainMode d v i j) 0 false (xs.getD j (.fin false 0 0)), [])

/-- Drain a chain's accumulators (R114, R118, R161). `oscale` is the tensor scale byte at OUT_SCALE_OFF. -/
def drainTile (d : TileDesc) (v : DrainEnv) (oscale : Nat) (acc : List (List Nat)) : Drained :=
  let f := if accWidth d = 8 then fp64L else fp32L
  match Fmt.ofCode d.outFmt with
  | none => ⟨[], [], [], 0⟩
  | some out =>
    let xs := acc.map fun r => r.map f.decode
    let rs := (List.range xs.length).map fun i => drainRow d v out oscale i (xs.getD i [])
    { rows := rs.map fun r => packRow out (r.1.map (·.enc)),
      scales := rs.map (·.2),
      evs := (rs.flatMap fun r => r.1.map (·.ev)).filter (· ≠ .none),
      amax := amaxFp32 (amaxOf xs.flatten) }

/-- A drained row in which a fault of the engine changed the encodings of some columns (R342): pairs of a column
and the XOR of its encoding. -/
def flipRow (out : Fmt) (n : Nat) (fs : List (Nat × Nat)) (row : List Byte) : List Byte :=
  if fs.isEmpty then row
  else
    let es := (List.range n).map fun j => elemAt out (fun o => row.getD o 0) 0 j
    packRow out ((List.range n).map fun j =>
      fs.foldl (fun e f => if f.1 = j then e ^^^ (f.2 % 2 ^ out.width) else e) (es.getD j 0))

end Sys2Proof.Machine
end

