-- ==== Sys2Proof/Machine/StreamCore.lean ====
section
/-! DEFINITION. The stream descriptor (10 Table 10-1) and its geometry: positions, addresses and the local layout
(R215 to R217, R223), with the checks of Table 10-3 that read one descriptor. -/

namespace Sys2Proof.Machine

/-- A stream descriptor (Table 10-1). -/
structure StreamDesc where
  base      : Nat := 0
  region    : Nat := 0
  localOff  : Nat := 0
  pitch     : Nat := 0
  ring      : Nat := 0
  dest      : Nat := 0
  srcFmt    : Nat := 0
  dstFmt    : Nat := 0
  dir       : Nat := 0
  kind      : Nat := 0
  srcScale  : Nat := 0
  dstScale  : Nat := 0
  block     : Nat := 16
  sr        : Bool := false
  paired    : Bool := false
  persist   : Bool := false
  digest    : Bool := false
  companion : Bool := false
  slot      : Nat := 0
  ndim      : Nat := 1
  delivDim  : Nat := 0
  lbay      : Nat := 0
  tensor    : Nat := 0xFFFFFFFF
  dims      : List (Nat × Int) := []
  deriving DecidableEq, Repr

/-- Read a descriptor from its 64 bytes. -/
def StreamDesc.ofBytes (bs : List Byte) : StreamDesc :=
  let b0 := fieldAt bs 0 8
  let l := fieldAt bs 8 8
  let route := fieldAt bs 0x12 1
  let conv := fieldAt bs 0x13 1
  let fl := fieldAt bs 0x14 1
  let sh := fieldAt bs 0x16 1
  { base := bitsOf b0 0 52, region := bitsOf b0 60 4, localOff := bitsOf l 0 23, pitch := bitsOf l 32 16,
    ring := bitsOf l 48 8, dest := bitsOf l 0 52, srcFmt := fieldAt bs 0x10 1, dstFmt := fieldAt bs 0x11 1,
    dir := bitsOf route 0 2, kind := bitsOf route 2 2, srcScale := bitsOf conv 0 2, dstScale := bitsOf conv 2 2,
    block := 16 * 2 ^ bitsOf conv 4 2, sr := bitsOf conv 6 1 = 1, paired := bitsOf conv 7 1 = 1,
    persist := bitsOf fl 0 1 = 1, digest := bitsOf fl 1 1 = 1, companion := bitsOf fl 2 1 = 1,
    slot := bitsOf (fieldAt bs 0x15 1) 0 5, ndim := bitsOf sh 0 3, delivDim := bitsOf sh 3 3,
    lbay := bitsOf (fieldAt bs 0x17 1) 0 5, tensor := fieldAt bs 0x18 4,
    dims := (List.range 6).map fun i =>
      (fieldAt bs (0x1C + 6 * i) 2, sext 32 (fieldAt bs (0x1C + 6 * i + 2) 4)) }

/-- The dimensions in use. -/
def StreamDesc.used (d : StreamDesc) : List (Nat × Int) := d.dims.take d.ndim

/-- Product of counts. -/
def countsProd (ds : List (Nat × Int)) : Nat := ds.foldl (fun p c => p * c.1) 1

/-- Elements of one arming. -/
def StreamDesc.elems (d : StreamDesc) : Nat := countsProd d.used

/-- Elements of one delivery (R217): a pass over dimensions 0 to DELIV_DIM. -/
def StreamDesc.perDelivery (d : StreamDesc) : Nat := countsProd (d.used.take (d.delivDim + 1))

/-- Deliveries of one arming. -/
def StreamDesc.deliveries (d : StreamDesc) : Nat := countsProd (d.used.drop (d.delivDim + 1))

/-- Elements of a dimension-0 row. -/
def StreamDesc.count0 (d : StreamDesc) : Nat := (d.dims.headD (1, 0)).1

/-- Indices (i0, …) of position p (R215). -/
def indicesOf : List (Nat × Int) → Nat → List Nat
  | [], _ => []
  | (c, _) :: t, p => p % c :: indicesOf t (p / c)

/-- Position of a list of indices (R215). -/
def positionOf : List (Nat × Int) → List Nat → Nat
  | (c, _) :: t, i :: is => i + c * positionOf t is
  | _, _ => 0

/-- Σ id × STRIDEd. -/
def strideSum : List (Nat × Int) → List Nat → Int
  | (_, s) :: t, i :: is => (i : Int) * s + strideSum t is
  | _, _ => 0

/-- A place of an element: the byte address where its row or itself begins, and its index within a packed row. -/
structure Place where
  addr : Nat
  ix   : Nat
  deriving DecidableEq, Repr

/-- Memory-side place of position p under base `b` (R215): FP4 and FP6 rows are packed from A(0, i1, …). -/
def StreamDesc.memPlace (d : StreamDesc) (f : Fmt) (b p : Nat) : Place :=
  let is := indicesOf d.used p
  if f.width < 8 then ⟨((b : Int) + strideSum d.used (0 :: is.drop 1)).toNat, is.headD 0⟩
  else ⟨((b : Int) + strideSum d.used is).toNat, 0⟩

/-- Row pitch of the local side in bytes (R217). -/
def StreamDesc.localPitch (d : StreamDesc) (f : Fmt) : Nat :=
  if d.pitch = 0 then (rowBytes f d.count0 + 63) / 64 * 64 else d.pitch * 64

/-- Bytes of one delivery on the local side. -/
def StreamDesc.delivBytes (d : StreamDesc) (f : Fmt) : Nat :=
  d.perDelivery / max d.count0 1 * d.localPitch f

/-- Local-side place of position p of an arming whose first delivery is k0 (R217). -/
def StreamDesc.localPlace (d : StreamDesc) (f : Fmt) (k0 p : Nat) : Place :=
  let k := p / max d.perDelivery 1
  let slotIx := if d.dir = 0 ∧ d.kind = 1 then (k0 + k) % max d.ring 1 else k
  let row := p % max d.perDelivery 1 / max d.count0 1
  ⟨d.localOff + slotIx * d.delivBytes f + row * d.localPitch f, p % max d.count0 1⟩

/-- Destination place of a COPY (R217): packed rows back to back. -/
def StreamDesc.copyPlace (d : StreamDesc) (f : Fmt) (p : Nat) : Place :=
  ⟨d.dest + p / max d.count0 1 * rowBytes f d.count0, p % max d.count0 1⟩

/-- Companion position of the block that position p lies in (R223). -/
def StreamDesc.companionPos (d c : StreamDesc) (p : Nat) : Nat :=
  match indicesOf d.used p with
  | i0 :: is => positionOf c.used (i0 / d.block :: is)
  | [] => 0

/-- The positions of p's block within its row (R222). -/
def StreamDesc.blockOf (d : StreamDesc) (p : Nat) : List Nat :=
  let c0 := max d.count0 1
  let i0 := p % c0
  let lo := i0 / d.block * d.block
  (List.range (min d.block (c0 - lo))).map fun t => p - i0 + lo + t

/-- Is the byte CONV 0: no scale on either side, BLOCK code 0, no SR, not PAIRED? -/
def StreamDesc.convZero (d : StreamDesc) : Bool :=
  decide (d.srcScale = 0 ∧ d.dstScale = 0 ∧ d.block = 16) && !d.sr && !d.paired

/-- Does the stream convert (R222)? -/
def StreamDesc.converts (d : StreamDesc) : Bool := d.srcFmt != d.dstFmt || !d.convZero

/-- Is the descriptor a REARM? -/
def StreamDesc.isRearm (d : StreamDesc) : Bool := decide (d.dir = 3)

/-! ### Checks of Table 10-3 on one descriptor -/

/-- May a code be streamed (Table 7-1)? Any valid code; E8M0 and RAW8 only unconverted. -/
def streamFmtsOk (d : StreamDesc) : Bool :=
  match Fmt.ofCode d.srcFmt, Fmt.ofCode d.dstFmt with
  | some s, some t =>
    if s = .e8m0 ∨ s = .raw8 ∨ t = .e8m0 ∨ t = .raw8 then
      decide (s = t) && d.convZero
    else true
  | _, _ => false

def carriesScale (c : Nat) : Bool := decide (5 ≤ c ∧ c ≤ 10)

def streamScalesOk (d : StreamDesc) : Bool :=
  decide (d.srcScale ≤ 2 ∧ d.dstScale ≤ 2)
    && !(decide (d.srcScale = 1 ∧ d.dstScale = 1)) && !(decide (d.srcScale = 2 ∧ d.dstScale = 2))
    && (decide (d.srcScale = 0) || carriesScale d.srcFmt)
    && (decide (d.dstScale = 0) || decide (1 ≤ d.dstFmt ∧ d.dstFmt ≤ 10))
    && (!d.sr || match Fmt.ofCode d.srcFmt, Fmt.ofCode d.dstFmt with
        | some s, some t => decide (t.width < s.width)
        | _, _ => false)
    && (decide (d.srcScale ≠ 2 ∧ d.dstScale ≠ 2) || d.paired)

def streamRouteOk (d : StreamDesc) : Bool :=
  decide (d.region < 4) && (if d.dir = 0 then decide (d.kind ≤ 2) else decide (d.kind = 0))
    && (decide (d.region ≠ 2) || decide (d.dir = 1))
    && (if d.dir = 0 ∧ d.kind = 1 then decide (1 ≤ d.ring) else decide (d.dir = 2) || decide (d.ring = 0))

def streamShapeOk (d : StreamDesc) : Bool :=
  decide (1 ≤ d.ndim ∧ d.ndim ≤ 6) && decide (d.delivDim < d.ndim)
    && d.used.all (fun c => decide (1 ≤ c.1)) && decide (d.elems ≤ 2 ^ 40)

def streamStridesOk (d : StreamDesc) : Bool :=
  match Fmt.ofCode (if d.dir = 1 then d.dstFmt else d.srcFmt) with
  | some f =>
    if f.width < 8 then decide ((d.dims.headD (1, 0)).2 = 0)
    else d.used.all fun c => decide (c.2 % ((f.width / 8 : Nat) : Int) = 0)
  | none => false

/-- The local side lies in staging, and PITCH holds a row (Table 10-3, Local). -/
def streamLocalOk (d : StreamDesc) : Bool :=
  if d.dir = 2 ∨ (d.dir = 0 ∧ d.kind = 2) then true
  else
    match Fmt.ofCode (if d.dir = 1 then d.srcFmt else d.dstFmt) with
    | some f =>
      (decide (d.pitch = 0) || decide (rowBytes f d.count0 ≤ d.pitch * 64))
        && decide (d.localOff + (if d.dir = 0 ∧ d.kind = 1 then d.ring else d.deliveries) * d.delivBytes f ≤ 2 ^ 23)
    | none => false

/-- Least and greatest memory-side offsets touched, from BASE. -/
def strideLow (ds : List (Nat × Int)) : Int := ds.foldl (fun a c => a + min 0 (((c.1 : Int) - 1) * c.2)) 0
def strideHigh (ds : List (Nat × Int)) : Int := ds.foldl (fun a c => a + max 0 (((c.1 : Int) - 1) * c.2)) 0

/-- With REGION 1 to 3 every address touched lies within the region (Table 10-3, Regions). -/
def streamRegionOk (d : StreamDesc) (regionSize : Nat) : Bool :=
  match Fmt.ofCode (if d.dir = 1 then d.dstFmt else d.srcFmt) with
  | some f =>
    let last := if f.width < 8 then rowBytes f d.count0 else f.width / 8
    decide (0 ≤ (d.base : Int) + strideLow d.used)
      && decide ((d.base : Int) + strideHigh d.used + last ≤ regionSize)
  | none => false

end Sys2Proof.Machine
end

