-- ==== Sys2Proof/Machine/VxeCore.lean ====
section
/-! DEFINITION. The vector engine's registers (09 Table 9-1) and what one instruction makes of them (R184 to R201):
functions of the registers and the staging they read. -/

namespace Sys2Proof.Machine

/-- The state of Table 9-1; defaults are the values when a program starts, with V and M zero. -/
structure VxeRegs where
  v      : Tab (BitVec 16384) := []
  m      : Tab (BitVec 2048) := []
  s      : Tab Word := []
  vl     : Nat := 0
  vfmt   : Nat := 2
  vtid   : Nat := 0xFFFFFFFF
  vidx   : Word := 0
  vscale : Nat := 0x7F7F
  vblk   : Nat := 3
  vrm    : Nat := 0
  vflags : Nat := 0
  pc     : Nat := 0
  deriving DecidableEq, Repr

/-- Read a vector register. -/
def VxeRegs.vreg (r : VxeRegs) (n : Nat) : BitVec 16384 := r.v.get 0 n
/-- Read a mask register. -/
def VxeRegs.mreg (r : VxeRegs) (n : Nat) : BitVec 2048 := r.m.get 0 n
/-- Read a scalar register: S0 reads 0. -/
def VxeRegs.sreg (r : VxeRegs) (n : Nat) : Word := if n = 0 then 0 else r.s.get 0 n
/-- Write a vector register. -/
def VxeRegs.setV (r : VxeRegs) (n : Nat) (x : BitVec 16384) : VxeRegs := { r with v := r.v.set 0 n x }
/-- Write a mask register. -/
def VxeRegs.setM (r : VxeRegs) (n : Nat) (x : BitVec 2048) : VxeRegs := { r with m := r.m.set 0 n x }
/-- Write a scalar register: S0 ignores writes. -/
def VxeRegs.setS (r : VxeRegs) (n : Nat) (x : Word) : VxeRegs :=
  if n = 0 then r else { r with s := r.s.set 0 n x }
/-- Raise flags: sticky. -/
def VxeRegs.orFlags (r : VxeRegs) (f : Nat) : VxeRegs := { r with vflags := r.vflags ||| f }

/-- Width of an element in a register (R184). -/
def Fmt.slot (f : Fmt) : Nat := if f.width < 8 then 8 else f.width

/-- VLMAX of a format (R185). -/
def Fmt.vlmax (f : Fmt) : Nat := 16384 / f.slot

/-- Element i of a register in a format; slot bits above the format's width are ignored (R184). -/
def vElem (f : Fmt) (x : BitVec 16384) (i : Nat) : Nat := x.toNat / 2 ^ (f.slot * i) % 2 ^ f.width

/-- The register with element i replaced; slot bits above the width become 0 (R184). -/
def vPut (f : Fmt) (x : Nat) (i e : Nat) : Nat := putBits x (f.slot * i) f.slot (e % 2 ^ f.width)

/-- Replace elements i0 to i0 + n - 1 where `act` holds, by `g`. -/
def vMap (f : Fmt) (act : Nat → Bool) (g : Nat → Nat) : Nat → Nat → Nat → Nat
  | 0, _, x => x
  | n + 1, i, x => vMap f act g n (i + 1) (if act i then vPut f x i (g i) else x)

/-- Is element i active under MEN and MSEL (R187)? `i < n` is the caller's. -/
def VxeRegs.active (r : VxeRegs) (men : Bool) (msel : Nat) (i : Nat) : Bool :=
  !men || (r.mreg msel).getLsbD i

/-- Flags of the active elements below n. -/
def orFlagsOf (act : Nat → Bool) (fl : Nat → Nat) (n : Nat) : Nat :=
  (List.range n).foldl (fun acc i => if act i then acc ||| fl i else acc) 0

/-- The rounding mode in force of an RM field (R188): 6 takes VRM. -/
def VxeRegs.mode (r : VxeRegs) (rm : Nat) : RMode := RMode.ofCode (if rm = 6 then r.vrm else rm)

/-- What an instruction did: a fault of R208 with its cause, or new registers with its staging and reports. -/
inductive VRes where
  | fault (cause : Nat)
  | ok (r : VxeRegs)
  deriving DecidableEq, Repr

/-- VFMT as a format. -/
def VxeRegs.fmt (r : VxeRegs) : Option Fmt := Fmt.ofCode r.vfmt

/-- Element b of an instruction of layout V: vector element, or the low w bits of a scalar (R188). -/
def VxeRegs.opB (r : VxeRegs) (a : VArgs) (f : Fmt) (i : Nat) : Nat :=
  if a.scalar then (r.sreg (a.vs2.val % 16)).toNat % 2 ^ f.width else vElem f (r.vreg a.vs2) i

/-- An element-wise instruction in format f: `g` gives each result from a and b. -/
def vElementwise (r : VxeRegs) (a : VArgs) (f : Fmt) (g : Nat → Nat → Rounded) : VRes :=
  let n := min r.vl f.vlmax
  let act := r.active a.men a.msel
  let res := fun i => g (vElem f (r.vreg a.vs1) i) (r.opB a f i)
  let x := vMap f act (fun i => (res i).enc) n 0 (r.vreg a.vd).toNat
  .ok ((r.setV a.vd (BitVec.ofNat 16384 x)).orFlags (orFlagsOf act (fun i => (res i).flags) n))

/-- A function of Table 9-3 for the formats it lists: by layout for FP, by width for INT; a format of neither kind
is a format fault (R189). DEDUCED (entry 171): also with n = 0, where the instruction has no effect (R187), as one that faults has none
(R208). -/
def vByFmt (r : VxeRegs) (a : VArgs) (fp : Option (FpFmt → Nat → Nat → Rounded))
    (int : Option (Nat → Nat → Nat → Nat)) (raw : Bool) : VRes :=
  match r.fmt with
  | none => .fault 1
  | some f =>
    match f.isWideFp, f.fp?, f.int? with
    | true, some g, _ =>
      match fp with
      | some h => vElementwise r a f (h g)
      | none => .fault 1
    | _, _, some w =>
      match int with
      | some h => vElementwise r a f (fun x y => { enc := h w x y })
      | none => .fault 1
    | _, _, _ =>
      match int with
      | some h => if raw && decide (f = .raw8) then vElementwise r a f (fun x y => { enc := h 8 x y }) else .fault 1
      | none => .fault 1

/-- Signed order of two encodings. -/
def sLess (w x y : Nat) : Bool := decide (sext w x < sext w y)

def vAdd (r : VxeRegs) (a : VArgs) : VRes :=
  vByFmt r a (some fun f x y => fpAdd f (r.mode a.rm.toNat) false x y) (some fun w x y => (x + y) % 2 ^ w) false
def vSub (r : VxeRegs) (a : VArgs) : VRes :=
  vByFmt r a (some fun f x y => fpAdd f (r.mode a.rm.toNat) true x y)
    (some fun w x y => (x + (2 ^ w - y % 2 ^ w)) % 2 ^ w) false
def vMul (r : VxeRegs) (a : VArgs) : VRes :=
  vByFmt r a (some fun f x y => fpMul f (r.mode a.rm.toNat) x y) (some fun w x y => x * y % 2 ^ w) false
def vDiv (r : VxeRegs) (a : VArgs) : VRes :=
  vByFmt r a (some fun f x y => fpDiv f (r.mode a.rm.toNat) x y) none false
def vSqrt (r : VxeRegs) (a : VArgs) : VRes :=
  vByFmt r a (some fun f x _ => fpSqrt f (r.mode a.rm.toNat) x) none false
def vMin (r : VxeRegs) (a : VArgs) : VRes :=
  vByFmt r a (some fun f x y => fpMinMax f false true x y) (some fun w x y => if sLess w y x then y else x) false
def vMax (r : VxeRegs) (a : VArgs) : VRes :=
  vByFmt r a (some fun f x y => fpMinMax f true true x y) (some fun w x y => if sLess w x y then y else x) false
def vMini (r : VxeRegs) (a : VArgs) : VRes :=
  vByFmt r a (some fun f x y => fpMinMax f false false x y) none false
def vMaxi (r : VxeRegs) (a : VArgs) : VRes :=
  vByFmt r a (some fun f x y => fpMinMax f true false x y) none false

/-- Sign bit of a layout's encoding, toggled, cleared or taken (R140). -/
def fpTop (f : FpFmt) : Nat := 2 ^ (f.ebits + f.mbits)
def vNeg (r : VxeRegs) (a : VArgs) : VRes :=
  vByFmt r a (some fun f x _ => { enc := x ^^^ fpTop f }) (some fun w x _ => (2 ^ w - x % 2 ^ w) % 2 ^ w) false
def vAbs (r : VxeRegs) (a : VArgs) : VRes :=
  vByFmt r a (some fun f x _ => { enc := x % fpTop f })
    (some fun w x _ => if sLess w x 0 then (2 ^ w - x % 2 ^ w) % 2 ^ w else x) false
def vCsgn (r : VxeRegs) (a : VArgs) : VRes :=
  vByFmt r a (some fun f x y => { enc := x % fpTop f + y / fpTop f % 2 * fpTop f }) none false

/-- roundToIntegral (R189). Whether it raises NX the spec does not say: Config.rtiInexact. -/
def vRti (r : VxeRegs) (a : VArgs) : VRes :=
  vByFmt r a (some fun f x _ => fpRti f (r.mode a.rm.toNat) Config.rtiInexact x) none false

/-- Round to nearest even with a significand of `sig` bits and the layout's subnormal spacing (R191). -/
def roundSig (f : FpFmt) (sig : Nat) (neg : Bool) (m : Nat) (e : Int) : Rounded :=
  let fl := ilog2 m e
  let sb := min sig (f.mbits + 1) - 1
  let u := max (fl - sb) (f.emin - f.mbits)
  let (q, inex) := roundAt .rne neg m e u
  let u0 := max (fl - f.mbits) (f.emin - f.mbits)
  let past := match f.decode f.maxEnc with
    | .fin _ mm me => magGt q u mm me
    | _ => false
  if past then { enc := f.ovfEnc .rne neg, flags := flOF + flNX }
  else
    let (q', _) := roundAt .rne neg m e (fl - sb)
    { enc := f.encode neg (q * 2 ^ (u - u0).toNat) u0,
      flags := (if inex then flNX else 0) + (if inex && magGt 1 f.emin q' (fl - sb) then flUF else 0) }

/-- Estimate of 1/a (R191). -/
def fpRece (f : FpFmt) (x : Nat) : Rounded :=
  match f.decode x with
  | .nan s => roundOp f .rne s (.nan false)
  | .inf n => { enc := f.signBit n }
  | .fin n m e =>
    if m = 0 then { enc := f.signBit n + f.infEnc, flags := flDZ }
    else
      let (q, k) := quotient 1 m
      roundSig f 12 n q (k - e)

/-- Estimate of 1/√a (R191). -/
def fpRsqe (f : FpFmt) (x : Nat) : Rounded :=
  match f.decode x with
  | .nan s => roundOp f .rne s (.nan false)
  | .inf n => if n then roundOp f .rne true (.nan false) else { enc := 0 }
  | .fin n m e =>
    if m = 0 then { enc := f.signBit n + f.infEnc, flags := flDZ }
    else if n then roundOp f .rne true (.nan false)
    else
      let m1 := if e % 2 = 0 then m else 2 * m
      let e1 := if e % 2 = 0 then e else e - 1
      let t := 100 + Nat.log2 m1
      let q := isqrt (2 ^ (2 * t) / m1)
      let st := if q * q * m1 = 2 ^ (2 * t) then 0 else 1
      roundSig f 12 false (2 * q + st) (- (e1 / 2) - (t : Int) - 1)

def vRece (r : VxeRegs) (a : VArgs) : VRes := vByFmt r a (some fun f x _ => fpRece f x) none false
def vRsqe (r : VxeRegs) (a : VArgs) : VRes := vByFmt r a (some fun f x _ => fpRsqe f x) none false

/-- MOV: bits unchanged, or a broadcast scalar; any format. -/
def vMov (r : VxeRegs) (a : VArgs) : VRes :=
  match r.fmt with
  | none => .fault 1
  | some f => vElementwise r a f (fun x y => { enc := if a.scalar then y else x })

def vAnd (r : VxeRegs) (a : VArgs) : VRes := vByFmt r a none (some fun _ x y => x &&& y) true
def vOr (r : VxeRegs) (a : VArgs) : VRes := vByFmt r a none (some fun _ x y => x ||| y) true
def vXor (r : VxeRegs) (a : VArgs) : VRes := vByFmt r a none (some fun _ x y => x ^^^ y) true
def vSll (r : VxeRegs) (a : VArgs) : VRes := vByFmt r a none (some fun w x y => x * 2 ^ (y % w) % 2 ^ w) false
def vSrl (r : VxeRegs) (a : VArgs) : VRes := vByFmt r a none (some fun w x y => x / 2 ^ (y % w)) false
def vSra (r : VxeRegs) (a : VArgs) : VRes :=
  vByFmt r a none (some fun w x y => toBits w (sext w x / (2 ^ (y % w) : Nat))) false

/-- MRG: bit i of mask MSEL picks a or b; every element below n is written. -/
def vMrg (r : VxeRegs) (a : VArgs) : VRes :=
  match r.fmt with
  | none => .fault 1
  | some f =>
    let n := min r.vl f.vlmax
    let x := vMap f (fun _ => true)
      (fun i => if (r.mreg a.msel).getLsbD i then vElem f (r.vreg a.vs1) i else vElem f (r.vreg a.vs2) i)
      n 0 (r.vreg a.vd).toNat
    .ok (r.setV a.vd (BitVec.ofNat 16384 x))

/-- IOTA: element i is i modulo 2^w. -/
def vIota (r : VxeRegs) (a : VArgs) : VRes :=
  match r.fmt with
  | none => .fault 1
  | some f =>
    match f.int? with
    | none => .fault 1
    | some w =>
      let n := min r.vl f.vlmax
      let x := vMap f (r.active a.men a.msel) (fun i => i % 2 ^ w) n 0 (r.vreg a.vd).toNat
      .ok (r.setV a.vd (BitVec.ofNat 16384 x))

/-- The fused multiply-adds of class 0x2 (Table 9-4). -/
def vFused (r : VxeRegs) (a : VArgs) (negProd negAdd : Bool) : VRes :=
  match r.fmt with
  | none => .fault 1
  | some f =>
    match f.isWideFp, f.fp? with
    | true, some g =>
      let n := min r.vl f.vlmax
      let act := r.active a.men a.msel
      let res := fun i => fpFma g (r.mode a.rm.toNat) Config.fmaNanInvalid negProd negAdd
        (vElem f (r.vreg a.vs1) i) (r.opB a f i) (vElem f (r.vreg a.vd) i)
      let x := vMap f act (fun i => (res i).enc) n 0 (r.vreg a.vd).toNat
      .ok ((r.setV a.vd (BitVec.ofNat 16384 x)).orFlags (orFlagsOf act (fun i => (res i).flags) n))
    | _, _ => .fault 1

/-- Comparisons (R193): outcome and NV. -/
inductive CmpOp where
  | eq | lt | le | un | ne
  deriving DecidableEq, Repr

def fpCmp (op : CmpOp) (f : FpFmt) (x y : Nat) : Bool × Nat :=
  let a := f.decode x
  let b := f.decode y
  let un := a.isNan || b.isNan
  let sn := a.isSnan || b.isSnan
  match op with
  | .eq => (!un && a.eqv b, if sn then flNV else 0)
  | .ne => (un || !(a.eqv b), if sn then flNV else 0)
  | .un => (un, if sn then flNV else 0)
  | .lt => (!un && a.lt b, if un then flNV else 0)
  | .le => (!un && (a.lt b || a.eqv b), if un then flNV else 0)

def intCmp (op : CmpOp) (w x y : Nat) : Bool :=
  match op with
  | .eq => x == y
  | .ne => x != y
  | .un => false
  | .lt => sLess w x y
  | .le => !(sLess w y x)

/-- Set mask bits i0 to i0 + n - 1 where active. -/
def mMap (act : Nat → Bool) (g : Nat → Bool) : Nat → Nat → Nat → Nat
  | 0, _, x => x
  | n + 1, i, x => mMap act g n (i + 1) (if act i then putBits x i 1 (if g i then 1 else 0) else x)

/-- A comparison into mask VD[1:0]. -/
def vCmp (r : VxeRegs) (a : VArgs) (op : CmpOp) : VRes :=
  match r.fmt with
  | none => .fault 1
  | some f =>
    let n := min r.vl f.vlmax
    let act := r.active a.men a.msel
    let md := a.vd.val % 4
    let res : Option (Nat → Bool × Nat) :=
      match f.isWideFp, f.fp?, f.int? with
      | true, some g, _ => some fun i => fpCmp op g (vElem f (r.vreg a.vs1) i) (r.opB a f i)
      | _, _, some w => some fun i => (intCmp op w (vElem f (r.vreg a.vs1) i) (r.opB a f i), 0)
      | _, _, _ => none
    match res with
    | none => .fault 1
    | some g =>
      let x := mMap act (fun i => (g i).1) n 0 (r.mreg md).toNat
      .ok ((r.setM md (BitVec.ofNat 2048 x)).orFlags (orFlagsOf act (fun i => (g i).2) n))

/-! ### Reductions (R195) -/

/-- One level of the tree: neighbours combined; flags ORed. -/
def redLevel (op : Nat → Nat → Rounded) : List Nat → List Nat × Nat
  | x :: y :: t =>
    let z := op x y
    let (t', fl) := redLevel op t
    (z.enc :: t', z.flags ||| fl)
  | xs => (xs, 0)

/-- The tree over a list of leaves: `fuel` levels. -/
def redTree (op : Nat → Nat → Rounded) : Nat → List Nat → Nat → Nat × Nat
  | 0, xs, fl => (xs.headD 0, fl)
  | fuel + 1, xs, fl =>
    match xs with
    | [] => (0, fl)
    | [x] => (x, fl)
    | _ =>
      let (ys, fl') := redLevel op xs
      redTree op fuel ys (fl ||| fl')

/-- The leaves: f of the active elements, the identity elsewhere, over L leaves. -/
def redLeaves (act : Nat → Bool) (n l : Nat) (f : Nat → Nat) (ident : Nat) : List Nat :=
  (List.range l).map fun i => if decide (i < n) && act i then f i else ident

/-- Write a reduction's value to element 0 of VD. -/
def redWrite (r : VxeRegs) (f : Fmt) (vd : Nat) (x : Nat × Nat) : VxeRegs :=
  (r.setV vd (BitVec.ofNat 16384 (vPut f (r.vreg vd).toNat 0 x.1))).orFlags x.2

/-- Signalling NaN operands of a minimum or maximum reduction raise NV through the tree's operation; a leaf that
meets no operation of its own never does, as every leaf of L ≥ 2 meets one. -/
def vReduce (r : VxeRegs) (a : VArgs) (fpOp : Option (FpFmt → Nat → Nat → Rounded)) (fpLeaf : FpFmt → Nat → Nat)
    (fpIdent : FpFmt → Nat) (intOp : Option (Nat → Nat → Nat → Nat)) (intIdent : Nat → Nat) : VRes :=
  match r.fmt with
  | none => .fault 1
  | some f =>
    let n := min r.vl f.vlmax
    let act := r.active a.men a.msel
    match f.isWideFp, f.fp?, f.int? with
    | true, some g, _ =>
      match fpOp with
      | none => .fault 1
      | some op =>
        if n = 0 then .ok r
        else .ok (redWrite r f a.vd
          (redTree (op g) 12 (redLeaves act n f.vlmax (fun i => fpLeaf g (vElem f (r.vreg a.vs1) i)) (fpIdent g)) 0))
    | _, _, some w =>
      match intOp with
      | none => .fault 1
      | some op =>
        if n = 0 then .ok r
        else .ok (redWrite r f a.vd
          (redTree (fun x y => { enc := op w x y }) 12
            (redLeaves act n f.vlmax (fun i => vElem f (r.vreg a.vs1) i) (intIdent w)) 0))
    | _, _, _ => .fault 1

def negZero (f : FpFmt) : Nat := fpTop f

def vRedSum (r : VxeRegs) (a : VArgs) : VRes :=
  vReduce r a (some fun f x y => fpAdd f (r.mode a.rm.toNat) false x y) (fun _ x => x) negZero
    (some fun w x y => (x + y) % 2 ^ w) (fun _ => 0)
def vRedMin (r : VxeRegs) (a : VArgs) : VRes :=
  vReduce r a (some fun f x y => fpMinMax f false true x y) (fun _ x => x) (fun f => f.infEnc)
    (some fun w x y => if sLess w y x then y else x) (fun w => 2 ^ (w - 1) - 1)
def vRedMax (r : VxeRegs) (a : VArgs) : VRes :=
  vReduce r a (some fun f x y => fpMinMax f true true x y) (fun _ x => x) (fun f => f.signBit true + f.infEnc)
    (some fun w x y => if sLess w x y then y else x) (fun w => 2 ^ (w - 1))
def vRedAmax (r : VxeRegs) (a : VArgs) : VRes :=
  vReduce r a (some fun f x y => fpMinMax f true true x y) (fun f x => x % fpTop f) (fun _ => 0) none (fun _ => 0)

/-- SUMW: FP32 sum of FP16 or BF16 elements into bits [31:0] of VD. -/
def vRedSumw (r : VxeRegs) (a : VArgs) : VRes :=
  match r.fmt with
  | some f =>
    if f = .fp16 ∨ f = .bf16 then
      match f.fp? with
      | some g =>
        let n := min r.vl (min f.vlmax Fmt.fp32.vlmax)
        let act := r.active a.men a.msel
        let wide := fun i => roundOp fp32L .rne (g.decode (vElem f (r.vreg a.vs1) i)).isSnan
          (g.decode (vElem f (r.vreg a.vs1) i))
        if n = 0 then .ok r
        else
          let t := redTree (fun x y => fpAdd fp32L (r.mode a.rm.toNat) false x y) 12
            (redLeaves act n f.vlmax (fun i => (wide i).enc) (negZero fp32L)) 0
          .ok (redWrite r .fp32 a.vd (t.1, t.2 ||| orFlagsOf act (fun i => (wide i).flags) n))
      | none => .fault 1
    else .fault 1
  | none => .fault 1

/-- REPAMAX: the amax it reports, as an FP32 encoding; none where it has no effect (VTID none, n = 0). -/
def vRepamax (r : VxeRegs) (a : VArgs) : Option Fmt × Option Nat :=
  match r.fmt with
  | none => (none, none)
  | some f =>
    match f.isWideFp, f.fp? with
    | true, some g =>
      let n := min r.vl f.vlmax
      let act := r.active a.men a.msel
      let fin := fun x => match g.decode x with
        | .fin _ _ _ => x % fpTop g
        | _ => 0
      if n = 0 ∨ r.vtid = 0xFFFFFFFF then (some f, none)
      else
        let t := redTree (fun x y => fpMinMax g true true x y) 12
          (redLeaves act n f.vlmax (fun i => fin (vElem f (r.vreg a.vs1) i)) 0) 0
        (some f, some (amaxFp32 (g.decode t.1)))
    | _, _ => (none, none)

/-! ### Conversions (R196 to R198) -/

/-- May the format carry a scale on the source side (R153)? -/
def Fmt.scalable : Fmt → Bool
  | .e4m3 | .e5m2 | .e3m2 | .e2m3 | .e2m1 | .int8 => true
  | _ => false

/-- Is the pair one that CVT takes (R197)? -/
def cvtPair (d s : Fmt) : Bool :=
  let num := fun (f : Fmt) => f.fp?.isSome || f.int?.isSome
  (num d && num s) || (decide (d = .e8m0) && decide (s = .fp32)) || (decide (s = .e8m0) && decide (d = .fp32))

/-- May the format carry a scale on the destination side of a conversion (R153)? -/
def Fmt.dstScalable (f : Fmt) : Bool := f.scalable || f.isWideFp

/-- Is a CVT of a form that R153, R196 and R197 allow: the pair, the formats that carry its scales, and a register behind
VS1 and VD for block scales? DEDUCED (entry 153): a CVT of another form is invalid. -/
def cvtForm (a : CvtArgs) : Bool :=
  match Fmt.ofCode a.dfmt.toNat, Fmt.ofCode a.sfmt.toNat with
  | some d, some s =>
    cvtPair d s && decide (a.dscale.toNat ≤ 2 ∧ a.sscale.toNat ≤ 2) && (a.sscale.toNat = 0 || s.scalable) &&
    (a.dscale.toNat = 0 || d.dstScalable) && !(a.sscale.toNat = 2 && a.vs1.val = 31) && !(a.dscale.toNat = 2 && a.vd.val = 31)
  | _, _ => false

/-- The result of a conversion: registers, events and amax of the active elements. -/
structure CvtOut where
  regs : VxeRegs
  evs  : List Ev
  amax : Nat
  deriving DecidableEq, Repr

/-- ⌊log2 |v|⌋ + 127 clamped; 0xFF for zero, NaN and infinity (R197). -/
def toE8m0 (x : XNum) : Nat :=
  match x with
  | .fin _ m e =>
    if m = 0 then 255
    else
      let l := ilog2 m e + 127
      if l < 0 then 0 else if 254 < l then 254 else l.toNat
  | _ => 255

/-- Byte i of a vector register. -/
def vByte (x : BitVec 16384) (i : Nat) : Nat := x.toNat / 2 ^ (8 * i) % 256

/-- Block size of VBLK. -/
def VxeRegs.kb (r : VxeRegs) : Nat := 16 * 2 ^ r.vblk

/-- The source value of element i, with its scale (R196). -/
def VxeRegs.cvtSrc (r : VxeRegs) (a : CvtArgs) (s : Fmt) (i : Nat) : XNum :=
  let sb := match a.sscale.toNat with
    | 1 => r.vscale / 256 % 256
    | 2 => vByte (r.vreg (a.vs1.val + 1)) (i / r.kb)
    | _ => 127
  scaledValue s (vElem s (r.vreg a.vs1) i) (decide (a.sscale.toNat ≠ 0)) (decide (sb = 255))
    ((sb : Int) - 127) (decide (a.sscale.toNat = 2))

/-- CVT (R196). `seed`, `step` feed the rounding hash; `cls` says whether the tensor is a principal one, of which
FP32 and FP64 results are classified too (R152, R172). A cause of R208 where it faults. -/
def vCvt (r : VxeRegs) (a : CvtArgs) (seed step : Nat) (cls : Bool) : Nat ⊕ CvtOut :=
  match Fmt.ofCode a.dfmt.toNat, Fmt.ofCode a.sfmt.toNat with
  | some d, some s =>
    let rm := if a.rm.toNat = 6 then r.vrm else a.rm.toNat
    if !cvtForm a then .inl 1
    else if rm = 5 ∧ s.width ≤ d.width then .inl 2
    else
      let n := min r.vl (min d.vlmax s.vlmax)
      let act := r.active a.men a.msel
      let src := r.cvtSrc a s
      if n = 0 then .inr ⟨r, [], 0⟩
      else if d = .e8m0 then
        let x := vMap d act (fun i => toE8m0 (src i)) n 0 (r.vreg a.vd).toNat
        .inr ⟨r.setV a.vd (BitVec.ofNat 16384 x), [], amaxFp32 (amaxOf (((List.range n).filter act).map src))⟩
      else
        let mode := fun i =>
          if rm = 5 then RMode.sr (rbitsOf seed step r.vtid (r.vidx + BitVec.ofNat 64 i).toNat) else RMode.ofCode rm
        let kb := r.kb
        let blkIx := fun b => (List.range kb).map (b * kb + ·) |>.filter fun i => decide (i < n) && act i
        let blkScale := fun b => blockScale d ((blkIx b).map src)
        let dst := fun i => match a.dscale.toNat with
          | 1 => (((r.vscale % 256 : Nat) : Int) - 127, decide (r.vscale % 256 = 255))
          | 2 => (dstScaleExp d true (blkScale (i / kb)), false)
          | _ => ((0 : Int), false)
        let res := fun i => convert d (mode i) (dst i).1 (dst i).2 (src i)
        let x := vMap d act (fun i => (res i).enc) n 0 (r.vreg a.vd).toNat
        let r1 := r.setV a.vd (BitVec.ofNat 16384 x)
        let r2 := if a.dscale.toNat = 2 then
            let bytes := vMap .raw8 (fun b => !(blkIx b).isEmpty) blkScale ((n + kb - 1) / kb) 0
              (r1.vreg (a.vd.val + 1)).toNat
            r1.setV (a.vd.val + 1) (BitVec.ofNat 16384 bytes)
          else r1
        let ix := (List.range n).filter act
        let classify := d.classified cls
        let noFlag := decide (s = .e8m0)
        .inr { regs := r2.orFlags (if noFlag then 0 else orFlagsOf act (fun i => (res i).flags) n),
               evs := if classify && !noFlag then (ix.map fun i => (res i).ev).filter (· ≠ .none) else [],
               amax := amaxFp32 (amaxOf (ix.map src)) }
  | _, _ => .inl 1

/-! ### Loads and stores (R201) -/

/-- Bytes of staging per bay: 8 MiB. -/
def stagingSize : Nat := 2 ^ 23

/-- First byte, relative position and byte count of element i: contiguous packing, or SBASE + i × SSTRIDE. -/
def lsPlace (f : Fmt) (base stride : Nat) (packed : Bool) (i : Nat) : Nat × Nat × Nat :=
  if packed then
    match f.width with
    | 4 => (base, i, 1)
    | 6 => (base, i, 3)
    | _ => (base, i, f.width / 8)
  else (base + i * stride, 0, f.width / 8)

/-- First staging byte that element i touches. -/
def lsFirst (f : Fmt) (p : Nat × Nat × Nat) : Nat :=
  match f.width with
  | 4 => p.1 + p.2.1 / 2
  | 6 => p.1 + 3 * (p.2.1 / 4)
  | w => p.1 + p.2.1 * (w / 8)

/-- The addressing of an LS instruction, or its fault: cause 3 stride, 4 staging range. -/
def lsCheck (r : VxeRegs) (a : LsArgs) : Nat ⊕ (Fmt × Nat × (Nat → Bool) × (Nat → Nat × Nat × Nat)) :=
  match Fmt.ofCode a.mfmt.toNat with
  | none => .inl 1
  | some f =>
    let packed := a.sstride.val = 0
    let base := (r.sreg a.sbase).toNat
    let stride := (r.sreg a.sstride).toNat
    if f.width < 8 ∧ !packed then .inl 3
    else if !packed ∧ stride % (f.width / 8) ≠ 0 then .inl 3
    else
      let n := min r.vl f.vlmax
      let act := r.active a.men a.msel
      let place := lsPlace f base stride packed
      let out := (List.range n).any fun i =>
        act i && decide (stagingSize < lsFirst f (place i) + (place i).2.2)
      if out then .inl 4 else .inr (f, n, act, place)

/-- A load from staging. -/
def vLoad (r : VxeRegs) (a : LsArgs) (rd : Reader) : Nat ⊕ VxeRegs :=
  match lsCheck r a with
  | .inl c => .inl c
  | .inr (f, n, act, place) =>
    let x := vMap f act (fun i => elemAt f rd (place i).1 (place i).2.1) n 0 (r.vreg a.vd).toNat
    .inr (r.setV a.vd (BitVec.ofNat 16384 x))

/-- Write one element at its place in a byte table whose bay begins at key `k0`; bits of other elements in a
shared byte or 3-byte group stay (R201). -/
def stgPut (t : Tab Byte) (k0 : Nat) (f : Fmt) (p : Nat × Nat × Nat) (e : Nat) : Tab Byte :=
  let a := k0 + lsFirst f p
  match f.width with
  | 4 =>
    let old := (t.get 0 a).toNat
    t.set 0 a (BitVec.ofNat 8 (putBits old (4 * (p.2.1 % 2)) 4 e))
  | 6 =>
    let old := leNat (readN (fun i => t.get 0 i) a 3)
    let new := putBits old (6 * (p.2.1 % 4)) 6 e
    ((t.set 0 a (BitVec.ofNat 8 new)).set 0 (a + 1) (BitVec.ofNat 8 (new / 256))).set 0 (a + 2)
      (BitVec.ofNat 8 (new / 65536))
  | w => (List.range (w / 8)).foldl (fun t j => t.set 0 (a + j) (BitVec.ofNat 8 (e / 256 ^ j))) t

/-- A store to staging. -/
def vStore (r : VxeRegs) (a : LsArgs) (t : Tab Byte) (k0 : Nat) : Nat ⊕ Tab Byte :=
  match lsCheck r a with
  | .inl c => .inl c
  | .inr (f, n, act, place) =>
    .inr ((List.range n).foldl
      (fun t i => if act i then stgPut t k0 f (place i) (vElem f (r.vreg a.vd) i) else t) t)

/-! ### Configuration, masks, scalars (R192) -/

/-- SETVL (R186). -/
def vSetvl (r : VxeRegs) (a : SArgs) : VRes :=
  match Fmt.ofCode (a.imm.toNat % 16) with
  | none => .fault 1
  | some f =>
    let n := min (r.sreg a.sy).toNat f.vlmax
    .ok ({ r with vfmt := a.imm.toNat % 16, vl := n }.setS a.sx (BitVec.ofNat 64 n))

/-- SETRM (R194): a value above 4 is a format fault. -/
def vSetrm (r : VxeRegs) (a : SArgs) : VRes :=
  let x := a.imm.toNat % 8
  if 4 < x then .fault 5 else .ok { r with vrm := x }

/-- VTOS: element 0 in VFMT, zero-extended. -/
def vVtos (r : VxeRegs) (a : SArgs) : VRes :=
  match r.fmt with
  | none => .fault 1
  | some f => .ok (r.setS a.sx (BitVec.ofNat 64 (vElem f (r.vreg (a.imm.toNat % 32)) 0)))

/-- STOV: element 0 takes the low w bits of SY. -/
def vStov (r : VxeRegs) (a : SArgs) : VRes :=
  match r.fmt with
  | none => .fault 1
  | some f =>
    let n := a.imm.toNat % 32
    .ok (r.setV n (BitVec.ofNat 16384 (vPut f (r.vreg n).toNat 0 (r.sreg a.sy).toNat)))

/-- SZ of a register form: IMM[14:11]. -/
def sArgsZ (a : SArgs) : Nat := a.imm.toNat / 2 ^ 11 % 16

/-- IMM sign-extended to 64 bits. -/
def sArgsImm (a : SArgs) : Word := a.imm.signExtend 64

/-- SX = SY op SZ. -/
def vScalar (r : VxeRegs) (a : SArgs) (op : Word → Word → Word) : VRes :=
  .ok (r.setS a.sx (op (r.sreg a.sy) (r.sreg (sArgsZ a))))

/-- A mask operation over all 2,048 bits. -/
def vMask (r : VxeRegs) (a : MArgs) (op : BitVec 2048 → BitVec 2048 → BitVec 2048) : VRes :=
  .ok (r.setM a.md (op (r.mreg a.ms1) (r.mreg a.ms2)))

/-- The branch target of R192: the branch's own index plus IMM sign-extended, in 16 bits. -/
def branchTarget (r : VxeRegs) (a : SArgs) : Nat :=
  (((r.pc : Int) + a.imm.toInt) % 65536).toNat

/-- A conditional branch: the target if taken, else the next index. -/
def vBranch (r : VxeRegs) (a : SArgs) (taken : Word → Word → Bool) : Nat :=
  if taken (r.sreg a.sx) (r.sreg a.sy) then branchTarget r a else (r.pc + 1) % 65536

end Sys2Proof.Machine
end

