-- ==== Sys2Proof/Machine/Parts.lean ====
section
/-! DEFINITION. The records of which the state is made, chapter by chapter. Each field's value at reset is its
default here; where the spec gives none the assumption log names the value. -/

namespace Sys2Proof.Machine

/-! ### The log and the change rings (05 R101, 20 R435) -/

/-- The log codes of Table 20-10, and codes the table does not list, by an index of the model's (entry 13). -/
inductive LogCode where
  | clockLost | bookSuperseded | noBookContext | accessRefused
  | sensorDisagree | phaseOut | railDegraded | shed
  | laneFail | portDegraded | linkHeld | branchLost | authFail
  | decision | rehearsal | rehearsalMiss
  | fallback | skipLimit
  | mismatch | replicaDiverge | dupFallback | unchecked
  | uncorrectable | bankFail | laneSuspect | reduceFail
  | hangGuilty | hangCleared | stateLost
  | compRestart | compEscalate | updateHeld | updateDropped | logSuppressed | superseded | heartbeatLost
  | updateStaged | configWrite
  | other (i : Nat)
  deriving DecidableEq, Repr

/-- One entry of the log ring (Table 20-9). `data` holds the figures the rule that logs names; their layout in
DATA is open (entry 13). -/
structure LogEntry where
  time   : Nat
  seq    : Nat
  step   : Nat
  code   : LogCode
  die    : Nat
  source : Nat
  flags  : Nat := 0
  tpoint : Nat := 0
  data   : List Nat := []
  deriving DecidableEq, Repr

/-- The log ring of D0's MGC SRAM, newest first (R435), and the rate limit of R436: per source (die × 256 + SOURCE)
the times of its entries in the last second and the count it lost. -/
structure LogState where
  next    : Nat := 0
  ring    : List LogEntry := []
  recent  : Tab (List Nat) := []
  lost    : Tab Nat := []
  /-- SEQ of the first entry of severity ERROR or above since the last LOG_ALERT (R433). -/
  alert   : Option Nat := none
  deriving DecidableEq, Repr

/-- Outcomes of a write (Table 5-10). -/
inductive WOutcome where
  | applied | held | superseded | denied
  deriving DecidableEq, Repr

/-- The code of an outcome (Table 5-10). -/
def WOutcome.code : WOutcome → Nat
  | .applied => 0 | .held => 1 | .superseded => 2 | .denied => 3

/-- One change record (Table 5-10); CHECK is computed when the record is read. -/
structure ChangeRec where
  time    : Nat
  seq     : Nat
  die     : Nat
  origin  : Nat
  outcome : WOutcome
  flags   : Nat
  page    : Nat
  offset  : Nat
  old     : Nat
  new     : Nat
  written : Nat
  detail  : Nat
  source  : Nat
  deriving DecidableEq, Repr

/-- The change ring of a die (R102): records newest first, at most 8,192, and the next SEQ. -/
structure ChgRing where
  next : Nat := 0
  recs : List ChangeRec := []
  deriving DecidableEq, Repr


/-! ### Prompt books (chapter 02) -/

/-- A LAYER record (Table 2-6). -/
structure Layer where
  layerId   : Nat := 0
  format    : Nat := 0
  cls       : Nat := 0
  tileFirst : Nat := 0
  tileCount : Nat := 0
  fbFirst   : Nat := 0
  fbCount   : Nat := 0
  tensor    : Nat := 0
  expNs     : Nat := 0
  deriving DecidableEq, Repr

/-- A PHASE record (Table 2-7). -/
structure PhaseRec where
  tileIndex  : Nat := 0
  phase      : Nat := 0
  prefOp     : Nat := 0
  microBatch : Nat := 0
  expUs      : Nat := 0
  deriving DecidableEq, Repr

/-- An ORDER record (Table 2-8). -/
structure OrderRec where
  microBatch  : Nat := 0
  pass        : Nat := 0
  inputOffset : Nat := 0
  deriving DecidableEq, Repr

/-- A PRINCIPAL record (Table 2-9). -/
structure Principal where
  tensor  : Nat := 0
  layerId : Nat := 0
  lowerK  : Nat := 0
  deriving DecidableEq, Repr

/-- A VECTOR record (Table 9-5): initial scalars S1 onwards and instruction words. -/
structure VecProg where
  progId  : Nat := 0
  lbay    : Nat := 0
  scalars : List Word := []
  insns   : List (BitVec 32) := []
  expUs   : Nat := 0
  deriving DecidableEq, Repr

/-- A CIRCUIT record (14 Table 14-7): `outs` lists (port, label, leaves) of each output; port 20 delivers here.
`source` is none for 0x3FF. -/
structure CircuitRec where
  flow    : Nat := 0
  inPort  : Nat := 0
  conf    : Bool := false
  reduce  : Bool := false
  buddy   : Bool := false
  nout    : Nat := 1
  key     : Nat := 0
  retFlow : Nat := 0
  outs    : List (Nat × Nat × Nat) := []
  red     : Nat := 0
  source  : Nat := 0x3FF
  deriving DecidableEq, Repr

/-- A SLOT record (14 Table 14-8). -/
structure SlotRec where
  flow  : Nat := 0
  port  : Nat := 0
  start : Nat := 0
  count : Nat := 0
  deriving DecidableEq, Repr

/-- A validated prompt book (chapter 02): header, JOB record and the records of its sections. -/
structure Book where
  jobId          : Nat := 0
  castRank       : Nat := 0
  castSize       : Nat := 1
  tilingId       : Nat := 0
  confidential   : Bool := false
  castDigest     : BitVec 256 := 0
  bookDigest     : BitVec 256 := 0
  jobSeed        : Nat := 0
  firstStep      : Nat := 0
  curtainTimeout : Nat := 2000
  digestInterval : Nat := 1
  dupDivisor     : Nat := 64
  headroom       : Nat := 0
  microBatches   : Nat := 1
  buddyRank      : Nat := 0
  buddyOf        : Nat := 0
  shapeId        : Nat := 0
  bcFirst        : Nat := 0
  bcCount        : Nat := 0
  retain         : List (Nat × Nat) := []
  layers         : List Layer := []
  tiles          : List TileDesc := []
  fallback       : List TileDesc := []
  streams        : List StreamDesc := []
  programs       : List VecProg := []
  circuits       : List CircuitRec := []
  slots          : List SlotRec := []
  phases         : List PhaseRec := []
  order          : List OrderRec := []
  principals     : List Principal := []
  deriving DecidableEq, Repr

/-- The books the part keeps (02 R43 to R47): the copy under validation, the staged, the active and the held book;
and the book staged when action 3 began (R46). -/
structure Books where
  loading : Option (List Byte) := none
  staged  : Option Book := none
  active  : Option Book := none
  held    : Option Book := none
  atVote  : Option Book := none
  deriving DecidableEq, Repr

/-! ### What the part sends -/

/-- Output pins (Tables 3-3, 22-4). -/
inductive Pin where
  | pwrGood | thermTripN | ppsOut | alertN | perstN
  deriving DecidableEq, Repr

/-- Notifications raised to the application cores or to firmware, with the fields their rule gives. -/
inductive Note where
  /-- 05 R90: a page's error notification for an ERR_STAT bit that ERR_MASK does not stop. -/
  | err (die page bit : Nat)
  /-- 20 R427: mailbox `n` is DONE. -/
  | mailbox (n : Nat)
  /-- 12 R284: the fault queue of a die has a record. -/
  | faultQueue (die : Nat)
  /-- 22 R456: an access fault in a core of the die, with the physical address. -/
  | busError (die addr : Nat)
  /-- 22 R462: an MSI vector at the cores. -/
  | msi (vector : Nat)
  /-- 22 R456: a machine check on a core. -/
  | machineCheck (die core : Nat)
  /-- 10: a stream slot notification. -/
  | other (kind : Nat) (args : List Nat)
  deriving DecidableEq, Repr

/-- What leaves the part: pins, notifications, link messages, packets, answers, Cue messages, frames and blocks.
Kinds and types are the codes of the chapters' own tables; `fields` are the values the rule names, in its order. -/
inductive Out where
  | note (n : Note)
  | pin (p : Pin) (level : Bool)
  | packet (port : Nat) (k : Packet)
  | flit (port : Nat) (bytes : List Byte)
  | answer (r : Req) (st : Status) (data : List Byte)
  | cue (dst : Nat) (mtype : Nat) (fields : List Nat)
  | frame (e : EthPort) (bytes : List Byte)
  | datagram (bytes : List Byte)
  | tlp (write : Bool) (addr : Nat) (fields : List Nat) (data : List Byte)
  | block (bytes : List Byte)
  deriving DecidableEq, Repr

/-! ### Fuses and keys (chapter 21) -/

/-- The fuse array (Table 21-1). The production image of Table 5-8 is not listed: `protRemove` holds, per page
index, the rights blown beyond it, in the bit places of PROT.ENTRYn. -/
structure Fuses where
  serial      : BitVec 128 := 0
  vendorHash  : BitVec 256 := 0
  drs         : BitVec 256 := 0
  idkWrap     : BitVec 256 := 0
  idkPubHash  : BitVec 256 := 0
  ownerHash   : Tab (BitVec 256) := []
  ownerValid  : BitVec 4 := 0
  ownerRevoke : BitVec 4 := 0
  ownerFw     : Bool := false
  fwRollback  : BitVec 64 := 0
  dbgDisable  : Bool := true
  protRemove  : Tab (BitVec 13) := []
  fLimit      : Nat := 1650
  deriving DecidableEq, Repr

/-- Keys and identity (chapter 21): the fuses as blown and as last sensed (R83), the identity certificate and owner
public keys in NOR (R444, R447), the 17 key slots and the tags seen (R450). -/
structure Security where
  fuses     : Fuses := {}
  sensed    : Fuses := {}
  cert      : List Byte := []
  ownerKeys : Tab (List Byte) := []
  keys      : Tab (List Byte) := []
  tags      : List (BitVec 64) := []
  deriving DecidableEq, Repr

/-! ### Units (chapters 15 and 16) -/

/-- Unit states (Table 5-3). -/
inductive UnitState where
  | inService | wings | dark | audition | reset
  deriving DecidableEq, Repr

/-- BLK_STATE.UNIT of a unit state (Table 5-3). -/
def UnitState.code : UnitState → Nat
  | .inService => 0 | .wings => 1 | .dark => 2 | .audition => 3 | .reset => 4

/-- The key of a unit: kind 0 bay, 1 core, 2 bank; die; index. -/
def unitKey (k : Nat) (d ix : Nat) : Nat := k * 1024 + d * 64 + ix

/-- The unit states at reset: the last bay and core of each die and banks 48 and 49 in the wings (entry 8). -/
def unitDflt (key : Nat) : UnitState :=
  if key / 1024 = 2 then (if key % 64 ≥ 48 then .wings else .inService)
  else if key % 64 = 8 then .wings else .inService

/-! ### The step in progress (chapters 01, 02, 08) -/

/-- What the part holds of the step between its registers: why it may not certify (reasons of Table 16-7, in the
order they arose), whether it ended early and with which reason, which curtain actions are done, which events its
conversions met, and the gates passed. -/
structure StepRun where
  reasons   : List Nat := []
  /-- Ended before its curtain with this reason (R369). -/
  ended     : Option Nat := none
  a1Done    : Bool := false
  a2Done    : Bool := false
  /-- A write was answered LOST (R330). -/
  partial_  : Bool := false
  /-- The decision adopted for the step that has just ended (R366). -/
  decision  : Option Decision := none
  /-- The part came into the cast by an admission, at this curtain (16 R373). -/
  admitted  : Bool := false
  /-- The buddy stream of action 4 is not acknowledged whole (R29). -/
  buddyOpen : Bool := false
  /-- Bytes of the shard that the buddy stream has sent, and the packets sent. -/
  buddyNext : Nat := 0
  buddyPk   : Nat := 0
  /-- Where the stream writes at the buddy. -/
  buddyAt   : Nat := 0
  /-- The next step changes tables (R46, R326): the decision's actions. -/
  change    : Bool := false
  /-- Device time on D0 at which action 2 completed (R30). -/
  a2Time    : Nat := 0
  /-- Tensors with a conversion or drain event in this step (R165: ev), by TENSOR_ID. -/
  evTensors : List Nat := []
  /-- Step amax of R161 by TENSOR_ID: FP32 encodings. -/
  amax      : Tab Nat := []
  /-- Pairs to propose at the vote: TENSOR_ID and k (R176). -/
  pairs     : Tab Nat := []
  /-- Layers (their index in the LAYER section) with a drain event in their TILE range, with the first event's
  TILE_ID and kind (R173, R174). -/
  layerEv   : Tab (Nat × Nat) := []
  /-- Layers whose gate has opened in this step. -/
  gates     : List Nat := []
  /-- Layers repeated in their fallback format in this step (R174). -/
  repeated  : List Nat := []
  deriving DecidableEq, Repr

/-- Roles of the retained regions (02 R31, R32) and what restores them (R269): `curB` says that SHARD_B is the
region the step reads; `buddyB` that BUDDY_B holds the buddy copy in force; `buddyValid` that there is one. DESIGN CHOICE
(entry 133): before the first activation, with no restore (R387), SHARD_A is current and BUDDY_A is in role. -/
structure Retained where
  curB       : Bool := false
  buddyB     : Bool := false
  buddyValid : Bool := false
  /-- Pending lowerings by TENSOR_ID (R167). -/
  lower      : Tab Nat := []
  /-- Ranges of uncorrectable data to restore before the encore: first key, sectors, region of UE_INFO. -/
  toRestore  : List (Nat × Nat × Nat) := []
  /-- Micro-batches of INPUTS reported lost and not yet answered by INPUTS_READY. -/
  inputsLost : List Nat := []
  /-- Bytes of the buddy stream in progress that this part has received into the buddy region out of role: offset and
  length, rising (R32). -/
  buddyIn    : List (Nat × Nat) := []
  deriving DecidableEq, Repr

/-! ### The matrix engine (chapter 06) -/

/-- A descriptor of the active book: in FALLBACK or in TILE, and its index there. -/
structure TileRef where
  fb : Bool
  ix : Nat
  deriving DecidableEq, Repr

/-- A chain that has consumed its last beat and waits to drain (R114). -/
structure DrainJob where
  ref    : TileRef
  bank   : Nat
  wide   : Bool
  marked : Bool
  rows   : Nat
  cols   : Nat
  acc    : List (List Nat)
  /-- Whether the chain is sampled (15 R338). -/
  sampled : Bool := false
  deriving DecidableEq, Repr

/-- The MXE of a bay (R122 to R128): descriptors still to run, the bank being filled and its accumulators, the
open chain's first descriptor, drains that wait (oldest first), and why it issues nothing. -/
structure Mxe where
  work    : List TileRef := []
  bank    : Nat := 0
  acc     : List (List Nat) := []
  openBy  : Option TileRef := none
  rows    : Nat := 0
  cols    : Nat := 0
  marked  : Bool := false
  drains  : List DrainJob := []
  /-- A SYNC_WAIT or SYNC_ADD at the head of the list waits for its answer. -/
  syncing : Bool := false
  /-- R470: stopped at its descriptor. -/
  stopped : Bool := false
  atEnd   : Bool := false
  /-- Waiting at the gate of this layer index (R173). -/
  gate    : Option Nat := none
  /-- Rows of the current gather round, for M_VALID 0 (R131). -/
  gatherRows : Nat := 0
  /-- Held by a drain event (R118). -/
  ovfHold : Bool := false
  /-- The open chain is sampled (15 R338). -/
  sampled : Bool := false
  deriving DecidableEq, Repr

/-- A gather round that the stream unit places (R131): its submissions; the reads still to issue, each a place in staging, a
source address and a length; those to other parts that wait for their answer, each with its tracking entry. -/
structure GatherRun where
  round : List GatherSub
  left  : List (Nat × Nat × Nat) := []
  waits : List (Nat × Nat × Nat × Nat) := []
  deriving DecidableEq, Repr

/-- The gather queue of a bay (R129 to R132): submissions of the open round in order of acceptance with the time of
the first, closed rounds oldest first, and the round being placed. -/
structure GatherQ where
  opened : List GatherSub := []
  since  : Nat := 0
  closed : List (List GatherSub) := []
  placing : Option GatherRun := none
  deriving DecidableEq, Repr

/-! ### The vector engine (chapter 09) -/

/-- The VXE of a bay: the state of Table 9-1, the program in progress, those that wait, and the amax unit. -/
structure Vxe where
  regs    : VxeRegs := {}
  prog    : Option VecProg := none
  queue   : List VecProg := []
  /-- SEMWAIT or SEMADD waits for its answer. -/
  syncing : Bool := false
  faulted : Bool := false
  atEnd   : Bool := false
  /-- The amax unit (R198): FP32 amax by TENSOR_ID. -/
  amax    : Tab Nat := []
  deriving DecidableEq, Repr

/-! ### The stream unit (chapter 10) -/

/-- Slot states (Table 10-10). -/
inductive SlotSt where
  | idle | running | waiting | faulted | done | cancelling | aborted
  deriving DecidableEq, Repr

/-- The code of a slot state (Table 10-10). -/
def SlotSt.code : SlotSt → Nat
  | .idle => 0 | .running => 1 | .waiting => 2 | .faulted => 3 | .done => 4 | .cancelling => 5 | .aborted => 6

/-- Partial reports of a delivery whose first elements were placed before a fault (R232): events NAN, INF, OVF and
the amax. -/
structure Partial where
  nan  : Nat := 0
  inf  : Nat := 0
  ovf  : Nat := 0
  amax : Nat := 0
  deriving DecidableEq, Repr

/-- A slot (R213, R219 to R236). -/
structure SuSlot where
  st         : SlotSt := .idle
  /-- How many descriptors of the slot's stream list have been taken. -/
  taken      : Nat := 0
  /-- STREAM record index and descriptor in force. -/
  desc       : Option (Nat × StreamDesc) := none
  base       : Nat := 0
  arm        : Nat := 0
  k0         : Nat := 0
  nDone      : Nat := 0
  nRel       : Nat := 0
  nReady     : Nat := 0
  sig        : Nat := 0
  /-- The cursor: elements of the arming before this position have been placed. -/
  cursor     : Nat := 0
  part       : Partial := {}
  /-- Deliveries all of whose requests have issued, requests issued of the next one, and deliveries up to which run-ahead
  has filled the shared cache (R225, R226). -/
  nIss       : Nat := 0
  iss        : Nat := 0
  nFill      : Nat := 0
  /-- Memory-side bytes of the delivery under issue up to and with its next request, and fills of the next delivery (R226). -/
  upto       : Nat := 0
  fillIss    : Nat := 0
  /-- Ring positions of a FEEDER: of a pair as many as both its rings have (R219, R223). -/
  ring       : Nat := 0
  /-- Staging bytes from which the issued writes of a WRITE are formed that was aborted or cancelled (R234 rule 3). -/
  kept       : List (Nat × List Byte) := []
  /-- Deliveries of which a request ended without an answer: they never complete (12 R285). -/
  lost       : List Nat := []
  /-- Frames of the virtual pages that issued requests were translated to, by delivery, and bytes that replies brought, by
  address. -/
  pages      : Tab (Tab Nat) := []
  got        : Tab Byte := []
  /-- First delivery, base and ARM of earlier armings with deliveries still unreleased, oldest first (R231). -/
  past       : List (Nat × Nat × Nat) := []
  /-- Completed deliveries not yet released are to be fetched again (R238). -/
  refetch    : Bool := false
  /-- A page of the next delivery did not translate: nothing issues until the fault is taken (R232). -/
  stuck      : Bool := false
  cause      : Nat := 0
  cancelDone : Bool := false
  faultAddr  : Nat := 0
  faultTime  : Nat := 0
  faultSeq   : Nat := 0
  /-- The list has ended for the step (R230, R235). -/
  ended      : Bool := false
  /-- Writes it had issued when it was aborted or cancelled are still in flight (R234 rule 3). -/
  owes       : Bool := false
  deriving DecidableEq, Repr

/-- A short-path port (R241, R325): transfers that wait, the window of bytes, the time of the last halving and whether an
ECHO came in the period. The bytes outstanding to other parts are those of the port's tracking entries. -/
structure SpPortSt where
  waiting  : List SpTransfer := []
  win      : Option Nat := none
  lastHalf : Nat := 0
  /-- When its last period ended. -/
  periodAt : Option Nat := none
  echoed   : Bool := false
  deriving DecidableEq, Repr

/-! ### Memory (chapter 11) -/

/-- What a tracking entry's answer is for. -/
inductive Owner where
  | mxe (die bay : Nat)
  | vxe (die bay : Nat)
  | slot (die bay slot : Nat)
  | port (p : SpPort)
  | buddy
  | restore
  | gather (die bay : Nat)
  | other
  deriving DecidableEq, Repr

/-- A tracking entry of an issuing die (R285): the full tag, issue time in ns, what it is for, whether a running
fence marked it, whether it is a data-class request to another part, and for a multicast the leaves still due. -/
structure Track where
  epoch  : Nat
  ctx    : Nat
  gen    : Nat
  addr   : Nat
  issued : Nat
  owner  : Owner
  marked : Bool := false
  remote : Bool := false
  data   : Bool := false
  bytes  : Nat := 0
  leaves : Nat := 1
  lost   : Bool := false
  /-- Of a stream: the delivery, and whether it writes. -/
  deliv  : Nat := 0
  write  : Bool := false
  /-- Of a short-path transfer: its number in the order of issue on the die, and whether its home performed it (10 R242). -/
  seq    : Nat := 0
  performed : Bool := false
  /-- Of a control or cut-through request to another part, whether its port's window counts it (14 R325), and its route
  bank (14 R317). -/
  windowed : Bool := false
  bank   : Nat := 0
  deriving DecidableEq, Repr

/-- A row that awaits repair (11 R266): die × 192 + pseudo-channel, the first address found, and whether it is a rehearsal's. -/
structure RowDue where
  pc   : Nat
  addr : Nat
  reh  : Bool
  deriving DecidableEq, Repr

/-- A watch at its home (R257); one that is not placed yet waits in its port's queue. -/
structure Watch where
  req    : Req
  value  : BitVec 64
  placed : Bool := false
  deriving DecidableEq, Repr

/-- A line that a bank of the shared cache holds (R250): the line, and which of its four sectors are valid, as bits. -/
structure CacheLine where
  line  : Nat
  valid : Nat
  deriving DecidableEq, Repr

/-- A line with an open reduce (R258): progress, count, element type. -/
structure RedLine where
  p     : Nat
  count : Nat
  etype : Nat
  deriving DecidableEq, Repr

/-- A parked contribution to one line (R258): rank, count, element type and the line's 256 bytes. -/
structure ParkedLine where
  line  : Nat
  rank  : Nat
  count : Nat
  etype : Nat
  data  : List Byte
  deriving DecidableEq, Repr

/-- A contribution whose bank withholds credit (R258 rule 4): the request, its fields, the key and the data from the
first line on that is not yet taken, and whether all lines before were performed. -/
structure RedHeld where
  req  : Req
  red  : RedFields
  key  : Nat
  data : List Byte
  ok   : Bool
  deriving DecidableEq, Repr

/-- Memory behind the shared caches. Keys are the low 40 bits of a global address: die and offset. -/
structure Mem where
  /-- Bytes, as they were written; unlisted bytes are 0 (R262; entry 5). The check bytes of a sector are those of its
  bytes and its address (R265). -/
  bytes   : Tab Byte := []
  /-- Errors in the 72 stored bytes of a sector (key / 64), 64 of data and 8 of check, as the bits that are flipped. -/
  err     : Tab (BitVec 576) := []
  /-- Sectors whose content is lost though no error pattern stands for it (16 Table 16-9 kind 3; 18 R396). -/
  bad     : Tab Bool := []
  /-- Sectors found uncorrectable and logged by R269. -/
  found   : Tab Bool := []
  /-- Sectors dirty in the cache, with the 64 bytes that the stack still holds. -/
  dirty   : Tab (BitVec 512) := []
  /-- The sets of the shared cache by (die × 50 + physical bank) × 256 + set: at most 16 lines, the last used first. -/
  cache   : Tab (List CacheLine) := []
  /-- Watches by die, in order of arrival; those from index 1,024 on wait in their port's queue. -/
  watches : Tab (List Watch) := []
  /-- Lines (key / 256) with an open reduce, and parked contributions, oldest first. -/
  reduce  : Tab RedLine := []
  parked  : List ParkedLine := []
  /-- Contributions that the banks hold off, in order of arrival. -/
  redHeld : List RedHeld := []
  /-- Uncorrectable events of the step by die × 64 + physical bank (R253). -/
  bankUe  : Tab Nat := []
  /-- Banks (die × 64 + physical) that failed and wait for action 5 (R253). -/
  bankDue : List Nat := []
  /-- Times of corrections in the last second, by pseudo-channel and lane (R263). -/
  ceTimes : Tab (List Nat) := []
  /-- Rows with uncorrectable sectors that await repair at the next curtain (R266), by die × 192 + pseudo-channel. -/
  rows    : List RowDue := []
  /-- LANE_MAP by (die × 3 + stack) × 64 + pseudo-channel; unlisted as the register table's reset. -/
  lanes   : Tab (BitVec 64) := []
  deriving DecidableEq, Repr

/-! ### Contexts (chapter 12) -/

/-- A context (Tables 12-1 and 12-2): state 0 FREE to 4 CLOSING, generation, and the fields of its entry. -/
structure Ctx where
  st      : Nat := 0
  gen     : Nat := 0
  root    : Nat := 0
  bayMask : Nat := 0
  save    : List Nat := []
  quantum : Nat := 0
  excl    : Bool := false
  book    : Bool := false
  noEvict : Bool := false
  deriving DecidableEq, Repr

/-- Residency of a context on a die (R275): 0 OUT, 1 WAITING, 2 RESIDENT, 3 EVICTING; slot, and device time on the
die of the change (order of WAITING and of admission). -/
structure Resid where
  res   : Nat := 0
  slot  : Nat := 0
  since : Nat := 0
  order : Nat := 0
  deriving DecidableEq, Repr

/-- The engine state saved for a context on a bay (R280); staging, accumulators and the registers of Table 9-1 are in the
save area in memory, but of the book context's lists that a step began since then (`begun`). -/
structure SaveSet where
  mxe   : Mxe
  vxe   : Vxe
  slots : List SuSlot
  begun : Bool := false
  /-- Instructions of the VXE that were answered while the context was switched out: its saved PC stands before them (09 R211). -/
  vDone : Nat := 0
  deriving DecidableEq, Repr

/-- A fault record held until the queue has room (R284), or written at an index of the queue. -/
structure FaultRec where
  time   : Nat
  va     : Nat
  ctx    : Nat
  gen    : Nat
  kind   : Nat
  level  : Nat
  access : Nat
  bay    : Nat
  die    : Nat
  slot   : Nat
  seq    : Nat
  deriving DecidableEq, Repr

/-- A cached translation of a 4 KiB page (R283): the page's frame, the rights of its leaf and the leaf's level. -/
structure Xlat where
  die   : Nat
  ctx   : Nat
  page  : Nat
  frame : Nat
  read  : Bool
  write : Bool
  level : Nat
  deriving DecidableEq, Repr

/-- A cached table entry (R283): the table of level `level` that the entry of the level above, for these upper bits of
the address, points to. -/
structure TabEntry where
  die    : Nat
  ctx    : Nat
  level  : Nat
  upper : Nat
  table  : Nat
  deriving DecidableEq, Repr

/-- Contexts and their tags. -/
structure CtxState where
  ctxs    : Tab Ctx := []
  /-- Residencies by die × 4,096 + id. -/
  resid   : Tab Resid := []
  order   : Nat := 0
  /-- Tracking entries by die × 65,536 + track. -/
  tracks  : Tab Track := []
  /-- The command in progress: OP, ID and when it was accepted (R276). -/
  cmd     : Option (Nat × Nat × Nat) := none
  /-- Teardowns by origin HW in progress: context, and since when (R287, R399, R469). -/
  hwDown  : List (Nat × Nat) := []
  /-- Fault records that wait for room, by die, oldest first; the next fault sequence number by die; records in the
  queue by die × 4,096 + index. -/
  held    : Tab (List FaultRec) := []
  nextSeq : Tab Nat := []
  queued  : Tab FaultRec := []
  /-- The context a bay runs (id + 1; 0 the book context, which runs until another is switched in; 4,097 none) and since
  when, by bay key. -/
  bays    : Tab Nat := []
  baySince : Tab Nat := []
  /-- When a die's scheduler last ran (R278). -/
  schedAt  : Tab Nat := []
  /-- Saved engine state by id × 64 + bay key. -/
  saved   : Tab SaveSet := []
  /-- Cached translations, and cached table entries. -/
  xlat    : List Xlat := []
  tabs    : List TabEntry := []
  /-- The next number of a short-path transfer (10 R242). -/
  spNext  : Nat := 0
  deriving DecidableEq, Repr

/-! ### Unit history (15 R351 to R354) -/

/-- One event of the unit history, with what its fleet signature record gives (Table 15-7). -/
structure HistEvent where
  seq      : Nat
  histTime : Nat
  devTime  : Nat
  step     : Nat
  kind     : Nat
  die      : Nat
  ix       : Nat
  event    : Nat
  verdict  : Nat
  count    : Nat
  flags    : Nat := 0
  tile     : Option Nat := none
  peer     : Option (Nat × Nat) := none
  wits     : List Nat := []
  diff     : Option (Nat × Nat × Nat × Nat) := none
  op       : Nat := 0
  temp     : Int := 0
  varith   : Nat := 0
  fw       : Nat := 0
  book     : Option (BitVec 256) := none
  address  : Option Nat := none
  deriving DecidableEq, Repr

/-- The history in NOR: events newest first, records read so far, units pending DARK, units that passed an audition and
wait for the next curtain, powered-on seconds; of the stacks, the lane maps of the last training with what turned suspect
since (11 R262, R263), by pseudo-channel, and the rows due for hard repair (11 R266), by die × 192 + pseudo-channel. -/
structure History where
  next   : Nat := 0
  events : List HistEvent := []
  read   : Nat := 0
  due    : List Nat := []
  passed : List Nat := []
  time   : Nat := 0
  lanes  : Tab (BitVec 64) := []
  hard   : List Nat := []
  deriving DecidableEq, Repr

/-- What an event records of its die: the operating point in force, the highest junction reading in °C and VARITH
in mV. -/
structure DieEnv where
  op     : Nat := 0
  temp   : Int := 0
  varith : Nat := 650
  deriving DecidableEq, Repr

end Sys2Proof.Machine
end

