-- ==== Sys2Proof/Machine/PartsSystem.lean ====
section
/-! DEFINITION. Records of the state, continued: links and the router (chapters 13, 14), duplicate checks and the
digest (chapter 15), power and clocks (chapters 03, 04, 19). -/

namespace Sys2Proof.Machine

/-! ### Links (chapter 13) -/

/-- A sequenced flit in the retry buffer (R296): its number, VC, whether it is a link-control message, how often it
has been resent, and the packet that ends in it with the leaves it stands for (R329). -/
structure TxFlit where
  seq    : Nat
  vc     : Nat
  lctrl  : Bool
  start   : Nat := 255
  payload : List Byte := []
  resent  : Nat := 0
  /-- The packets whose last byte the flit carries, with their leaves. -/
  pks     : List (Packet × Nat) := []
  deriving DecidableEq, Repr

/-- A packet that waits at an output: the leaves behind the output, the input that it came from (Table 14-7's IN_PORT, an own
flow's 21 + label), whether it is one copy of several (R328), and the flow whose slots it waits for (R320). -/
structure QPk where
  pk     : Packet
  leaves : Nat := 1
  inp    : Nat := 20
  multi  : Bool := false
  gate   : Option Nat := none
  deriving DecidableEq, Repr

/-- A link's state besides its registers (R295 to R303, R307). -/
structure Link where
  /-- Link state to return to after a retrain. -/
  back     : Nat := 3
  /-- Sent and not acknowledged, oldest first; the next number to send. -/
  retry    : List TxFlit := []
  txNext   : Nat := 0
  /-- The next number expected, and whether a NAK for it is out. -/
  rxNext   : Nat := 0
  nakOut   : Bool := false
  /-- Has a sequenced flit been taken since training; credits to return by VC. -/
  heard    : Bool := false
  owe0     : Nat := 0
  owe1     : Nat := 0
  /-- Packets that wait for credit, for a slot or for the link, oldest first. -/
  queue    : List QPk := []
  /-- Packets begun whose last byte is in no flit yet, with the bytes sent. -/
  begun    : List (QPk × Nat) := []
  /-- Device time at which an injected packet last started (R320: one slot carries one packet). -/
  slotAt   : Option Nat := none
  /-- Device times (D0) of the retrains of the last 60 s. -/
  retrains : List Nat := []
  /-- A retrain has restarted once (R308). -/
  again    : Bool := false
  /-- The retrain aims at 3 lanes (R300, R308, R414). -/
  three    : Bool := false
  /-- The link has been DOWN since its last admission, and not HELD since (R307). -/
  down     : Bool := false
  /-- The last HELLO heard, the neighbour's last accepted one, and the one recorded at admission (R301, R307). -/
  hello    : Option Hello := none
  nbr      : Option Hello := none
  admitted : Option Hello := none
  /-- This end has the lower SERIAL and chose PROTO_SEL. -/
  chose    : Bool := false
  /-- Degradations to report at the next curtain (R300). -/
  report   : Bool := false
  /-- The delay of the lanes towards the neighbour less that of the lanes back, in ns, as training measured it (04 R77). -/
  asym     : Int := 0
  /-- Symbols corrected since the 1 ms window in progress began, by physical lane (LANE_SER). -/
  ser      : List Nat := [0, 0, 0, 0, 0]
  /-- Codewords of the window that could not be corrected, and the symbols attributed in them, by physical lane (R298). -/
  badWords : Nat := 0
  badSer   : List Nat := [0, 0, 0, 0, 0]
  /-- Flits of the codeword pair taken so far, and which of its codewords are counted uncorrectable (R292). -/
  pairAt   : Nat := 0
  pairBad  : Bool × Bool := (false, false)
  /-- An admission step waits for the link manager, which restarts (20 Table 20-2). -/
  due      : Bool := false
  /-- t1 of the exchange in progress (R306). -/
  asked    : Option Nat := none
  deriving DecidableEq, Repr

/-- A blocking table record (Table 13-7). -/
structure BlockRec where
  dev     : Nat := 0
  port    : Nat := 0
  used    : Bool := false
  remap   : Bool := false
  sync    : Bool := false
  rdev    : Nat := 0
  rport   : Nat := 0
  company : Nat := 0
  deriving DecidableEq, Repr

/-- The fabric of the part: links, the blocking table in force and the one delivered (R304), flow entries and slots
as loaded (R318, R320), packet counters of the key slots sent and expected (R331, R332: key × 512 + source), lost
branches logged in this step (R330). -/
structure Fabric where
  links   : Tab Link := []
  table   : List BlockRec := []
  tableIn : Option (List BlockRec) := none
  flows   : List CircuitRec := []
  sched   : List SlotRec := []
  keyTx   : Tab Nat := []
  keyRx   : Tab Nat := []
  lostLog : List (Nat × Nat × Nat) := []
  /-- Circuit packets in the input buffers, by input, behind one whose outputs have not all taken it (R328). -/
  inbuf   : Tab (List (CircuitRec × Packet)) := []
  /-- A change of tables holds data-class injection (R326), and every part is known to be drained. -/
  hold    : Bool := false
  deriving DecidableEq, Repr

/-! ### Duplicate execution (15 R338 to R343) -/

/-- An entry of the witness table (Table 15-2). -/
structure WitEntry where
  tileId  : Nat
  flags   : Nat
  lbay    : Nat
  witness : Nat
  deriving DecidableEq, Repr

/-- A chain's drained output as the witness unit keeps it (R340): witness and rows. -/
structure Drain where
  witness : Nat
  rows    : List (List Byte)
  deriving DecidableEq, Repr

/-- A sampled chain from its first beat to its verdict. `image` holds the operand bytes copied from the primary's
staging; `descs` the chain's descriptors, last first until the chain ends; `prim` the primary's drain; `check` the
checker's. `copied` when the last copy has ended; `arbiter` marks the second check of R343, `same` a check on the primary's die,
`sameArb` the second check on the first checker itself. -/
structure DupJob where
  ref     : TileRef
  tileId  : Nat
  lbay    : Nat
  pdie    : Nat
  pbay    : Nat
  cdie    : Nat
  descs   : List TileDesc := []
  image   : Tab Byte := []
  rows    : Nat := 0
  closed  : Bool := false
  copied  : Bool := false
  running : Bool := false
  prim    : Option Drain := none
  check   : Option Drain := none
  arbiter : Bool := false
  same    : Bool := false
  sameArb : Bool := false
  deriving DecidableEq, Repr

/-- A mismatch whose verdict the encore takes (R343): chain, original primary and checker with their witnesses, and
what was found. -/
structure Mismatch where
  tileId  : Nat
  step    : Nat
  pdie    : Nat
  pbay    : Nat
  cdie    : Nat
  cbay    : Nat
  p1      : Nat
  c1      : Nat
  diff    : Nat × Nat × Nat × Nat
  same    : Bool
  reh     : Bool := false
  deriving DecidableEq, Repr

/-- A rehearsal on its target (R376, R377): kind, the byte h[47:40] that chooses its unit, the step it plays in, when
the fault was injected, where (TILE_ID, port or sector), and when it was found. -/
structure RehRun where
  kind     : Nat
  pick     : Nat
  step     : Nat
  injected : Option Nat := none
  place    : Nat := 0
  /-- Of kind 1: row, column and bit of the element that was flipped. -/
  elem     : Nat × Nat × Nat := (0, 0, 0)
  found    : Option Nat := none
  deriving DecidableEq, Repr

/-- Sampling of the step: eligible chains by logical bay and the TILE_ID that opened their window, chains under
check, mismatches that wait for a verdict, and the TILE_IDs sampled. -/
structure DupState where
  count  : Tab Nat := []
  first  : Tab Nat := []
  jobs   : List DupJob := []
  mism   : List Mismatch := []
  deriving DecidableEq, Repr

/-- The weight digest in progress (R346 to R349): the bytes that DIGEST streams committed of chunks still open, by offset in
the region, the die that holds each open chunk, and the values of chunks formed. -/
structure Digest where
  bytes  : Tab Byte := []
  dies   : Tab Nat := []
  chunks : Tab (BitVec 256) := []
  deriving DecidableEq, Repr

/-! ### Power and clocks (chapters 03, 04, 19) -/

/-- Supply, temperature, throttles and shedding beside the PWR registers. -/
structure Power where
  /-- PWR_GOOD and PWR_EN. -/
  good     : Bool := true
  enable   : Bool := true
  /-- The 10 A input limit of R53 is in force. -/
  inrush   : Bool := false
  /-- An orderly power-down has begun (R61, R62). -/
  down     : Bool := false
  /-- Rails that are off, in the order in which they turned off (R59, R61). -/
  off      : List Rail := []
  /-- How long PWR_EN has been low, in ns, up to the 10 ms of R62. -/
  lowFor   : Nat := 0
  /-- Dies under a hardware trip (R64), and dies halted by a rail without a phase (R57). -/
  tripped  : List Nat := []
  dead     : List Nat := []
  /-- Failed phases by die × 8 + rail; degraded rails to report at the next curtain; by how much the loop has lowered the
  part's cap for them (R57). -/
  phases   : Tab Nat := []
  degraded : List (Nat × Nat) := []
  report   : List (Nat × Nat) := []
  lowered  : Nat := 0
  /-- Package power of the last 10,000 ticks of the loop, newest first. -/
  samples  : List Nat := []
  /-- Ticks in a row below 97 % of the cap. -/
  low      : Nat := 0
  /-- Device time of a die at which its last droop on a bay island cleared (R409). -/
  cleared  : Tab Nat := []
  /-- Ticks in a row of disagreement above 12 %, and within 6 %, by die. -/
  disagree : Tab Nat := []
  agree    : Tab Nat := []
  /-- Device time at which rule 3 of R411 last acted. -/
  hardAt   : Option Nat := none
  /-- A reading above the limits of R406 in this step, and when the step began. -/
  hot      : Bool := false
  since    : Nat := 0
  /-- PHASE record in force by die, plus 1 (R405). -/
  phase    : Tab Nat := []
  /-- Steps shed so far in this step lie at or above 1 (R415). -/
  shed1    : Bool := false
  deriving DecidableEq, Repr

/-! ### The Cue agent (chapter 16) -/

/-- A pool part called for a rank (R372, R373): its device, the failed device, when it was called, the READY flags
and whether its BOOK_DIGEST matched. -/
structure Called where
  rank   : Nat
  device : Nat
  failed : Nat
  since  : Nat
  ready  : Option Nat := none
  deriving DecidableEq, Repr

/-- A decision that the leader has prepared (R366), with its lists and whom it calls: rank and device. -/
structure CuePlan where
  body   : PrepBody
  pairs  : List (Nat × Nat) := []
  fences : List Nat := []
  calls  : List (Nat × Nat) := []
  deriving DecidableEq, Repr

/-- What a vote goes out with, to be sent again after a failover (R364, R367): digests by kind, and pairs. -/
structure OwnVote where
  body    : VoteBody
  digests : List (Nat × BitVec 256) := []
  pairs   : List (Nat × Nat) := []
  deriving DecidableEq, Repr

/-- The Cue agent besides its registers. View: the device of each rank and the pool. Member: the step of the round,
its own vote, the PREPARE it acknowledged with its attempt and lists, the outcome it received in a COMMIT. Leader:
votes by rank, digests by rank × 4 + KIND, pairs by rank, the arrival of the first and last vote, the plan and who has
acknowledged it, the roll-backs of the step, ranks absent, parts called and parts that did not answer, ranks drained.
Pool part: the call it answers: rank, holder, the device of BUDDY_OF, failed device and leader. -/
structure Cue where
  ranks    : Tab Nat := []
  pool     : List Nat := []
  step     : Nat := 0
  mine     : Option OwnVote := none
  prep     : Option (Nat × PrepBody) := none
  prepPairs : List (Nat × Nat) := []
  prepFences : List Nat := []
  committed : Option Decision := none
  /-- Decisions committed before this part has completed action 2: it adopts them then (R20, R366). -/
  late     : List (PrepBody × List (Nat × Nat) × List Nat) := []
  votes    : Tab VoteBody := []
  digests  : Tab (BitVec 256) := []
  pairsIn  : Tab (List (Nat × Nat)) := []
  first    : Option Nat := none
  last     : Nat := 0
  plan     : Option CuePlan := none
  acks     : List Nat := []
  encores  : Nat := 0
  minority : List Nat := []
  noMajor  : Bool := false
  absent   : List Nat := []
  called   : List Called := []
  spent    : List Nat := []
  drained  : List Nat := []
  /-- BOOK_DIGEST by device, as DIGEST of KIND 2 reported it, and those of pool parts, whose READY follows. -/
  books    : Tab (BitVec 256) := []
  poolDigests : List (BitVec 256) := []
  /-- The cast is held at the curtain, since when, and ranks that no pool part is left for. -/
  held     : Bool := false
  heldAt   : Nat := 0
  noSpare  : List Nat := []
  /-- The decision whose encore the held curtain waits with. -/
  after    : Decision := .rollBack
  call     : Option (Nat × Nat × Nat × Nat × Nat) := none
  /-- The rehearsal on this part, and the kind that the cast plays in this step. -/
  reh      : Option RehRun := none
  rehStep  : Nat := 0
  /-- PAIRS and FENCES messages of the round received so far, and lists promised by decisions since the last
  certified step (R167). -/
  gotPairs  : Nat := 0
  gotFences : Nat := 0
  lowers   : Tab Nat := []
  /-- F_CAST that the decision commits (R405). -/
  fNext    : Nat := 0
  /-- The device that the rehearsal of this step plays on, and a part that a rehearsal of kind 4 fenced (R377). -/
  rehDev   : Nat := 0
  back     : List Nat := []
  /-- Device time at which the member last heard from its leader, or voted (R367). -/
  heard    : Nat := 0
  /-- Device time at which the collecting leader last sent KEEP (R365). -/
  keptAt   : Nat := 0
  deriving DecidableEq, Repr

/-! ### Checkpoints (chapter 17) -/

/-- The kept map (R380): the step, the view, by rank the digest and the writer, and TILING_ID and CAST_DIGEST of the book that
certified the step (Table 17-3). -/
structure KeptMap where
  step    : Nat
  view    : Nat
  digests : Tab (BitVec 256)
  writers : Tab Nat
  tiling  : Nat
  cast    : BitVec 256
  deriving DecidableEq, Repr

/-- An export or a restore in progress (R382, R387): whether of the buddy image, its step, the writer of the image, its
digest, the address of its region, its length, the chunks, the 4 KiB units done, and what a restore has of the front
(header and list) and of the chunk it is in. -/
structure CkpRun where
  exporting : Bool
  buddy     : Bool := false
  step      : Nat := 0
  writer    : Nat := 0
  digest    : BitVec 256 := 0
  base      : Nat := 0
  len       : Nat := 0
  pos       : Nat := 0
  front     : List Byte := []
  chunk     : List Byte := []
  deriving DecidableEq, Repr

/-- Checkpoints (17 R379 to R388): the kept map and the last checkpoint curtain, the run in progress, the writer of the
part's group at that curtain (step, rank, copies), the manifest that a restore accepted, whether a restore has begun
since the last activation, and the steps for which the own and the buddy image are in place. -/
structure Ckpt where
  kept      : Option KeptMap := none
  curtain   : Nat := 0
  run       : Option CkpRun := none
  writer    : Option (Nat × Nat × Nat) := none
  manifest  : List Byte := []
  begun     : Bool := false
  ownDone   : Option Nat := none
  buddyDone : Option Nat := none
  deriving DecidableEq, Repr

/-- Device time between exchanges (04 R75 to R77): the offset in ns that steering has still to remove, the part of a
nanosecond that steering has gathered in parts per 10^9, and whether the part has stepped its time. -/
structure TimeSync where
  left    : Int := 0
  part    : Int := 0
  stepped : Bool := false
  /-- Has an exchange with the present parent given an offset? -/
  synced  : Bool := false
  deriving DecidableEq, Repr

/-- Resets in progress (04 R78 to R81): domain code, die, unit, origin code (8 for SYS_RST_N). -/
structure ResetRun where
  dom    : Nat
  die    : Nat
  unit   : Nat
  origin : Nat
  /-- The watchdog or a stall asked for it (chapter 18). -/
  hang   : Bool := false
  /-- Device time of the request: the bounds of Table 4-3 run from it (18 R393). -/
  since  : Nat := 0
  deriving DecidableEq, Repr

/-- The reset controller: resets in progress, newest first; the time and die of the last partition resets; whether
the part has had its first curtain; the strap pins as sampled. -/
structure ResetState where
  runs    : List ResetRun := []
  lastPar : Tab Nat := []
  curtain : Bool := false
  straps  : Nat := 0
  /-- States that units in RESET held before, by `unitKey` (Table 16-1). -/
  units   : Tab UnitState := []
  /-- Stages 7a, 7b and 7c that are done, as bits (R84). -/
  boot7   : Nat := 0
  /-- The code of the stage in progress, which a failure's code in RST.BOOT.STAGE may hide (R85): 0 after State.reset,
  0xE1 where a refetch is waited for, 0xFF where start-up has stopped. -/
  stage   : Nat := 0
  /-- Stage 2 has counted the epoch of the whole-device reset or power-on in progress (R79). -/
  counted : Bool := false
  /-- A failed stack, or a unit kind without a spare, keeps the part from offering itself to a cast (Table 4-6). -/
  barred  : Bool := false
  /-- The start-up follows a whole-device reset, so that training reuses what NOR holds (R78, 11 R262). -/
  warm    : Bool := false
  deriving DecidableEq, Repr

end Sys2Proof.Machine
end

