-- ==== Sys2Proof/Machine/Book.lean ====
section
/-! DEFINITION. The prompt book's bytes (02 R35 to R42; 14 Tables 14-7, 14-8; 09 Table 9-5): directory and records. -/

namespace Sys2Proof.Machine

/-- `n` bytes from an offset. -/
def slice (bs : List Byte) (off n : Nat) : List Byte := (bs.drop off).take n

/-- A directory entry (Table 2-3). -/
structure DirEntry where
  type   : Nat
  sver   : Nat
  sflags : Nat
  off    : Nat
  len    : Nat
  count  : Nat
  size   : Nat
  deriving DecidableEq, Repr

def DirEntry.ofBytes (bs : List Byte) : DirEntry :=
  ⟨fieldAt bs 0 2, fieldAt bs 2 2, fieldAt bs 4 4, fieldAt bs 8 8, fieldAt bs 16 8, fieldAt bs 24 4, fieldAt bs 28 4⟩

/-- The entries at DIR_OFFSET among the first SECTION_COUNT, at most 64, that lie within the book (R44). -/
def dirOf (bs : List Byte) : List DirEntry :=
  let off := fieldAt bs 0x20 8
  let n := min 64 (fieldAt bs 0x10 4)
  ((List.range n).filter fun i => decide (off + 32 * i + 32 ≤ bs.length)).map fun i =>
    DirEntry.ofBytes (slice bs (off + 32 * i) 32)

/-- Section types (Table 2-4): record size and fixed count, 0 where it has none. -/
def sectionType (t : Nat) : Option (Nat × Nat) :=
  match t with
  | 0x01 => some (64, 1) | 0x02 => some (16, 6) | 0x03 => some (32, 0) | 0x10 => some (64, 0)
  | 0x11 => some (64, 0) | 0x20 => some (64, 0) | 0x30 => some (0, 0) | 0x40 => some (32, 0)
  | 0x41 => some (8, 0) | 0x50 => some (16, 0) | 0x51 => some (8, 0) | 0x52 => some (16, 0)
  | 0xFF => some (128, 1) | _ => none

/-- Required section types (Table 2-4). -/
def requiredTypes : List Nat := [0x01, 0x02, 0x03, 0x10, 0x11, 0x20, 0x50, 0x51, 0xFF]

/-- The records of a section of a fixed record size. -/
def recordsOf (bs : List Byte) (dir : List DirEntry) (type : Nat) : List (List Byte) :=
  match dir.find? fun e => e.type = type with
  | none => []
  | some e => (List.range e.count).map fun i => slice bs (e.off + i * e.size) e.size

/-! ### Records -/

def Layer.ofBytes (b : List Byte) : Layer :=
  ⟨fieldAt b 0 4, fieldAt b 4 1, fieldAt b 5 1, fieldAt b 8 4, fieldAt b 12 4, fieldAt b 16 4, fieldAt b 20 4,
    fieldAt b 24 4, fieldAt b 28 4⟩

def PhaseRec.ofBytes (b : List Byte) : PhaseRec :=
  ⟨fieldAt b 0 4, fieldAt b 4 1, fieldAt b 5 1, fieldAt b 6 2, fieldAt b 8 4⟩

def OrderRec.ofBytes (b : List Byte) : OrderRec := ⟨fieldAt b 0 2, fieldAt b 2 1, fieldAt b 4 4⟩

def Principal.ofBytes (b : List Byte) : Principal := ⟨fieldAt b 0 4, fieldAt b 4 4, fieldAt b 8 1⟩

/-- A CIRCUIT record (Table 14-7). -/
def CircuitRec.ofBytes (b : List Byte) : CircuitRec :=
  let fl := fieldAt b 3 1
  let n := fieldAt b 4 1
  let outs := fieldAt b 8 4
  let labels := fieldAt b 0x0C 8
  let leaves := fieldAt b 0x1A 6
  { flow := fieldAt b 0 2, inPort := fieldAt b 2 1, conf := bitsOf fl 0 1 = 1, reduce := bitsOf fl 1 1 = 1,
    buddy := bitsOf fl 2 1 = 1, nout := n, key := fieldAt b 5 1, retFlow := fieldAt b 6 2,
    outs := (List.range (min n 4)).map fun i => (bitsOf outs (5 * i) 5, bitsOf labels (16 * i) 16, bitsOf leaves (10 * i) 10),
    red := fieldAt b 0x14 4, source := fieldAt b 0x18 2 % 2 ^ 10 }

/-- A SLOT record (Table 14-8). -/
def SlotRec.ofBytes (b : List Byte) : SlotRec := ⟨fieldAt b 0 2, fieldAt b 2 1 % 32, fieldAt b 4 2, fieldAt b 6 2⟩

/-- A VECTOR record at the head of some bytes, and its REC_LEN (Table 9-5). -/
def VecProg.ofBytes (b : List Byte) : VecProg × Nat :=
  let ns := fieldAt b 5 1
  let n := fieldAt b 8 4
  ({ progId := fieldAt b 0 4, lbay := fieldAt b 4 1,
     scalars := (List.range ns).map fun i => BitVec.ofNat 64 (fieldAt b (0x20 + 8 * i) 8),
     insns := (List.range n).map fun i => BitVec.ofNat 32 (fieldAt b (0x20 + 8 * ns + 4 * i) 4),
     expUs := fieldAt b 12 4 }, fieldAt b 16 4)

/-- The records of the VECTOR section, while they lie within it. -/
def vecRecords : Nat → List Byte → List (VecProg × Nat)
  | 0, _ => []
  | n + 1, bs =>
    let r := VecProg.ofBytes bs
    if r.2 < 32 ∨ bs.length < r.2 then [] else r :: vecRecords n (bs.drop r.2)

/-- The VECTOR section's records. -/
def vectorsOf (bs : List Byte) (dir : List DirEntry) : List (VecProg × Nat) :=
  match dir.find? fun e => e.type = 0x30 with
  | none => []
  | some e => vecRecords e.count (slice bs e.off e.len)

/-- BOOK_DIGEST recomputed (Table 2-2): up to the SIGN section, with CAST_DIGEST and BOOK_DIGEST taken as 0. -/
def bookDigest (bs : List Byte) (signOff : Nat) : List Byte :=
  sm3 (slice bs 0 0x40 ++ List.replicate 64 0 ++ (bs.take signOff).drop 0x80)

/-- The book of some bytes and their directory. -/
def Book.ofBytes (bs : List Byte) (dir : List DirEntry) : Book :=
  let job := (recordsOf bs dir 0x01).headD []
  let bc := fieldAt job 0x20 8
  { jobId := fieldAt bs 0x18 8, castRank := fieldAt bs 0x28 2, castSize := fieldAt bs 0x2A 2,
    tilingId := fieldAt bs 0x30 8, confidential := fieldAt bs 0x38 8 % 2 = 1,
    castDigest := BitVec.ofNat 256 (leNat (slice bs 0x40 32)), bookDigest := BitVec.ofNat 256 (leNat (slice bs 0x60 32)),
    jobSeed := fieldAt job 0 8, firstStep := fieldAt job 8 8 % 2 ^ 48, curtainTimeout := fieldAt job 0x10 4,
    digestInterval := fieldAt job 0x14 2, dupDivisor := fieldAt job 0x16 2, headroom := fieldAt job 0x18 1,
    microBatches := fieldAt job 0x19 1, buddyRank := fieldAt job 0x1A 2, buddyOf := fieldAt job 0x1C 2,
    shapeId := fieldAt job 0x1E 2, bcFirst := bitsOf bc 0 32, bcCount := bitsOf bc 32 16,
    retain := (recordsOf bs dir 0x02).map fun b => (fieldAt b 0 8, fieldAt b 8 8),
    layers := (recordsOf bs dir 0x03).map Layer.ofBytes,
    tiles := (recordsOf bs dir 0x10).map TileDesc.ofBytes,
    fallback := (recordsOf bs dir 0x11).map TileDesc.ofBytes,
    streams := (recordsOf bs dir 0x20).map StreamDesc.ofBytes,
    programs := (vectorsOf bs dir).map (·.1),
    circuits := (recordsOf bs dir 0x40).map CircuitRec.ofBytes,
    slots := (recordsOf bs dir 0x41).map SlotRec.ofBytes,
    phases := (recordsOf bs dir 0x50).map PhaseRec.ofBytes,
    order := (recordsOf bs dir 0x51).map OrderRec.ofBytes,
    principals := (recordsOf bs dir 0x52).map Principal.ofBytes }

end Sys2Proof.Machine
end

