-- ==== Sys2Proof/Machine/VxeWords.lean ====
section
/-! DEFINITION. The vector engine's instruction words (09 R188, Tables 9-2 to 9-4): the fields of the layouts, which words
are valid, the command that a word spells and the word that a command spells. -/

namespace Sys2Proof.Machine

def vf (w lo n : Nat) : Nat := bitsOf w lo n

/-- RM of a class with rounding, other than CVT (R188). -/
def rmOk (w : Nat) : Bool := decide (vf w 2 3 ≤ 4) || vf w 2 3 = 6

/-- Element-wise functions that read VS1 only (Table 9-3). -/
def unaryFuncs : List Nat := [0x04, 0x09, 0x0A, 0x0C, 0x0D, 0x0E, 0x0F]

/-! ### Fields of the layouts (Table 9-2) -/

def argsV (w : Nat) (scalar : Bool) : VArgs :=
  { vd := Fin.ofNat 32 (vf w 18 5), vs1 := Fin.ofNat 32 (vf w 13 5), vs2 := Fin.ofNat 32 (vf w 8 5), scalar := scalar,
    men := vf w 7 1 = 1, msel := Fin.ofNat 4 (vf w 5 2), rm := BitVec.ofNat 3 (vf w 2 3) }
def argsC (w : Nat) : CvtArgs :=
  { dfmt := BitVec.ofNat 4 (vf w 24 4), sfmt := BitVec.ofNat 4 (vf w 20 4), vd := Fin.ofNat 32 (vf w 15 5),
    vs1 := Fin.ofNat 32 (vf w 10 5), dscale := BitVec.ofNat 2 (vf w 8 2), sscale := BitVec.ofNat 2 (vf w 0 2),
    men := vf w 7 1 = 1, msel := Fin.ofNat 4 (vf w 5 2), rm := BitVec.ofNat 3 (vf w 2 3) }
def argsL (w : Nat) : LsArgs :=
  { mfmt := BitVec.ofNat 4 (vf w 24 4), vd := Fin.ofNat 32 (vf w 18 5), sbase := Fin.ofNat 16 (vf w 14 4),
    sstride := Fin.ofNat 16 (vf w 10 4), men := vf w 7 1 = 1, msel := Fin.ofNat 4 (vf w 5 2) }
def argsS (w : Nat) : SArgs :=
  { sx := Fin.ofNat 16 (vf w 19 4), sy := Fin.ofNat 16 (vf w 15 4), imm := BitVec.ofNat 15 (vf w 0 15) }
def argsM (w : Nat) : MArgs :=
  { md := Fin.ofNat 4 (vf w 18 5), ms1 := Fin.ofNat 4 (vf w 13 5), ms2 := Fin.ofNat 4 (vf w 8 5) }

/-- Is an instruction word valid (R188, R189, R192, R196, R197)? Where a branch leads is the program's matter (R204). -/
def vwordOk (w : Nat) : Bool :=
  let func := vf w 23 5
  let vd := vf w 18 5
  let vs1 := vf w 13 5
  let vs2 := vf w 8 5
  let men := vf w 7 1
  let res := vf w 0 2 = 0
  match vf w 28 4 with
  | 0x0 => res && rmOk w && decide (func ≤ 0x17) && (!(unaryFuncs.contains func) || vs2 = 0) && (func ≠ 0x16 || men = 0)
  | 0x1 => res && rmOk w && decide (func ≤ 0x15) && decide (vs2 < 16) && (!(unaryFuncs.contains func) || func = 0x0F)
  | 0x2 => res && rmOk w && decide (func < 8) && (func < 4 || decide (vs2 < 16))
  | 0x3 => res && vf w 2 3 = 0 && decide (func % 16 ≤ 4) && decide (vd < 4) && (func < 16 || decide (vs2 < 16))
  | 0x4 => res && rmOk w && decide (func ≤ 5)
  | 0x5 => cvtForm (argsC w) && vf w 2 3 ≠ 7
  | 0x6 => (Fmt.ofCode (vf w 24 4)).isSome && vf w 8 2 = 0 && vf w 0 5 = 0
  | 0x7 => decide (func ≤ 0xB) && (func ≠ 0 || (Fmt.ofCode (vf w 0 4)).isSome)
  | 0x8 => res && vf w 2 3 = 0 && men = 0 && decide (func ≤ 6) && decide (vd < 4 ∧ vs1 < 4 ∧ vs2 < 4)
  | 0x9 => decide (func ≤ 0xA) && (!([1, 2, 3, 4, 5, 0xA].contains func) || vf w 0 11 = 0)
  | 0xA =>
    if func = 0x0A ∨ func = 0x0B then vf w 0 11 = 0
    else decide (func ≤ 5) || func = 0x08 || func = 0x09 || func = 0x1F
  | _ => false

/-! ### The command that a word spells -/

/-- The functions of Table 9-3 by FUNC. -/
def elemInsn (u : Unit36) (a : VArgs) : Nat → Option Instr
  | 0x00 => some (.vxeAdd u a)
  | 0x01 => some (.vxeSub u a)
  | 0x02 => some (.vxeMul u a)
  | 0x03 => some (.vxeDiv u a)
  | 0x04 => some (.vxeSqrt u a)
  | 0x05 => some (.vxeMin u a)
  | 0x06 => some (.vxeMax u a)
  | 0x07 => some (.vxeMini u a)
  | 0x08 => some (.vxeMaxi u a)
  | 0x09 => some (.vxeNeg u a)
  | 0x0A => some (.vxeAbs u a)
  | 0x0B => some (.vxeCsgn u a)
  | 0x0C => some (.vxeRti u a)
  | 0x0D => some (.vxeRece u a)
  | 0x0E => some (.vxeRsqe u a)
  | 0x0F => some (.vxeMov u a)
  | 0x10 => some (.vxeAnd u a)
  | 0x11 => some (.vxeOr u a)
  | 0x12 => some (.vxeXor u a)
  | 0x13 => some (.vxeSll u a)
  | 0x14 => some (.vxeSrl u a)
  | 0x15 => some (.vxeSra u a)
  | 0x16 => some (.vxeMrg u a)
  | 0x17 => some (.vxeIota u a)
  | _ => none

/-- Class 0x2 by FUNC[1:0]. -/
def fusedInsn (u : Unit36) (a : VArgs) : Nat → Option Instr
  | 0x00 => some (.vxeFma u a)
  | 0x01 => some (.vxeFms u a)
  | 0x02 => some (.vxeFnma u a)
  | 0x03 => some (.vxeFnms u a)
  | _ => none

/-- Class 0x3 by FUNC[3:0]. -/
def cmpInsn (u : Unit36) (a : VArgs) : Nat → Option Instr
  | 0x00 => some (.vxeCmpEq u a)
  | 0x01 => some (.vxeCmpLt u a)
  | 0x02 => some (.vxeCmpLe u a)
  | 0x03 => some (.vxeCmpUn u a)
  | 0x04 => some (.vxeCmpNe u a)
  | _ => none

/-- Class 0x4 by FUNC. -/
def redInsn (u : Unit36) (a : VArgs) : Nat → Option Instr
  | 0x00 => some (.vxeRedSum u a)
  | 0x01 => some (.vxeRedMin u a)
  | 0x02 => some (.vxeRedMax u a)
  | 0x03 => some (.vxeRedAmax u a)
  | 0x04 => some (.vxeRedSumw u a)
  | 0x05 => some (.vxeRedRepamax u a)
  | _ => none

/-- Class 0x7 by FUNC. -/
def cfgInsn (u : Unit36) (a : SArgs) : Nat → Option Instr
  | 0x00 => some (.vxeSetvl u a)
  | 0x01 => some (.vxeSettid u a)
  | 0x02 => some (.vxeSetidx u a)
  | 0x03 => some (.vxeAddidx u a)
  | 0x04 => some (.vxeSetscl u a)
  | 0x05 => some (.vxeSetblk u a)
  | 0x06 => some (.vxeSetrm u a)
  | 0x07 => some (.vxeRdflg u a)
  | 0x08 => some (.vxeClrflg u a)
  | 0x09 => some (.vxeRdvl u a)
  | 0x0A => some (.vxeVtos u a)
  | 0x0B => some (.vxeStov u a)
  | _ => none

/-- Class 0x8 by FUNC. -/
def mskInsn (u : Unit36) (a : MArgs) : Nat → Option Instr
  | 0x00 => some (.vxeMskAnd u a)
  | 0x01 => some (.vxeMskOr u a)
  | 0x02 => some (.vxeMskXor u a)
  | 0x03 => some (.vxeMskAndn u a)
  | 0x04 => some (.vxeMskNot u a)
  | 0x05 => some (.vxeMskSet u a)
  | 0x06 => some (.vxeMskClr u a)
  | _ => none

/-- Class 0x9 by FUNC. -/
def sclInsn (u : Unit36) (a : SArgs) : Nat → Option Instr
  | 0x00 => some (.vxeSclAddi u a)
  | 0x01 => some (.vxeSclAdd u a)
  | 0x02 => some (.vxeSclSub u a)
  | 0x03 => some (.vxeSclAnd u a)
  | 0x04 => some (.vxeSclOr u a)
  | 0x05 => some (.vxeSclXor u a)
  | 0x06 => some (.vxeSclSlli u a)
  | 0x07 => some (.vxeSclSrli u a)
  | 0x08 => some (.vxeSclSrai u a)
  | 0x09 => some (.vxeSclLih u a)
  | 0x0A => some (.vxeSclMul u a)
  | _ => none

/-- Class 0xA by FUNC. -/
def ctlInsn (u : Unit36) (a : SArgs) : Nat → Option Instr
  | 0x00 => some (.vxeBeq u a)
  | 0x01 => some (.vxeBne u a)
  | 0x02 => some (.vxeBlt u a)
  | 0x03 => some (.vxeBge u a)
  | 0x04 => some (.vxeBltu u a)
  | 0x05 => some (.vxeJmp u a)
  | 0x08 => some (.vxeWait u a)
  | 0x09 => some (.vxeSignal u a)
  | 0x0A => some (.vxeSemwait u a)
  | 0x0B => some (.vxeSemadd u a)
  | 0x1F => some (.vxeEnd u a)
  | _ => none

/-- The command of an instruction word on a bay; none where the word is not valid. In class 0x1, and by FUNC[2] of class 0x2
and FUNC[4] of class 0x3, the second operand is a scalar. -/
def decodeVxe (u : Unit36) (w : Nat) : Option Instr :=
  let func := vf w 23 5
  if vwordOk w = false then none
  else match vf w 28 4 with
    | 0x0 => elemInsn u (argsV w false) func
    | 0x1 => elemInsn u (argsV w true) func
    | 0x2 => fusedInsn u (argsV w (4 ≤ func)) (func % 4)
    | 0x3 => cmpInsn u (argsV w (16 ≤ func)) (func % 16)
    | 0x4 => redInsn u (argsV w false) func
    | 0x5 => some (.vxeCvt u (argsC w))
    | 0x6 => some (if vf w 23 1 = 1 then .vxeStore u (argsL w) else .vxeLoad u (argsL w))
    | 0x7 => cfgInsn u (argsS w) func
    | 0x8 => mskInsn u (argsM w) func
    | 0x9 => sclInsn u (argsS w) func
    | 0xA => ctlInsn u (argsS w) func
    | _ => none

/-! ### The word that a command spells -/

/-- A word of layout V, C, L, S, or of class 0x8. -/
def wordV (cls func : Nat) (a : VArgs) : Nat :=
  cls * 2 ^ 28 + func * 2 ^ 23 + a.vd.val * 2 ^ 18 + a.vs1.val * 2 ^ 13 + a.vs2.val * 2 ^ 8 + a.men.toNat * 2 ^ 7 +
    a.msel.val * 2 ^ 5 + a.rm.toNat * 2 ^ 2
def wordC (a : CvtArgs) : Nat :=
  0x5 * 2 ^ 28 + a.dfmt.toNat * 2 ^ 24 + a.sfmt.toNat * 2 ^ 20 + a.vd.val * 2 ^ 15 + a.vs1.val * 2 ^ 10 +
    a.dscale.toNat * 2 ^ 8 + a.men.toNat * 2 ^ 7 + a.msel.val * 2 ^ 5 + a.rm.toNat * 2 ^ 2 + a.sscale.toNat
def wordL (store : Bool) (a : LsArgs) : Nat :=
  0x6 * 2 ^ 28 + a.mfmt.toNat * 2 ^ 24 + store.toNat * 2 ^ 23 + a.vd.val * 2 ^ 18 + a.sbase.val * 2 ^ 14 +
    a.sstride.val * 2 ^ 10 + a.men.toNat * 2 ^ 7 + a.msel.val * 2 ^ 5
def wordS (cls func : Nat) (a : SArgs) : Nat :=
  cls * 2 ^ 28 + func * 2 ^ 23 + a.sx.val * 2 ^ 19 + a.sy.val * 2 ^ 15 + a.imm.toNat
def wordM (func : Nat) (a : MArgs) : Nat :=
  0x8 * 2 ^ 28 + func * 2 ^ 23 + a.md.val * 2 ^ 18 + a.ms1.val * 2 ^ 13 + a.ms2.val * 2 ^ 8
/-- A word of class 0x0 or 0x1, of class 0x2, and of class 0x3. -/
def wordE (func : Nat) (a : VArgs) : Nat := wordV a.scalar.toNat func a
def wordF (func : Nat) (a : VArgs) : Nat := wordV 0x2 (func + 4 * a.scalar.toNat) a
def wordK (func : Nat) (a : VArgs) : Nat := wordV 0x3 (func + 16 * a.scalar.toNat) a

/-- A word of class 0x4, which has no scalar operand. -/
def wordR (func : Nat) (a : VArgs) : Option Nat := if a.scalar then none else some (wordV 0x4 func a)

/-- The instruction word of a vector engine command; none for any other command. -/
def encodeVxe : Instr → Option Nat
  | .vxeAdd _ a => some (wordE 0x00 a)
  | .vxeSub _ a => some (wordE 0x01 a)
  | .vxeMul _ a => some (wordE 0x02 a)
  | .vxeDiv _ a => some (wordE 0x03 a)
  | .vxeSqrt _ a => some (wordE 0x04 a)
  | .vxeMin _ a => some (wordE 0x05 a)
  | .vxeMax _ a => some (wordE 0x06 a)
  | .vxeMini _ a => some (wordE 0x07 a)
  | .vxeMaxi _ a => some (wordE 0x08 a)
  | .vxeNeg _ a => some (wordE 0x09 a)
  | .vxeAbs _ a => some (wordE 0x0A a)
  | .vxeCsgn _ a => some (wordE 0x0B a)
  | .vxeRti _ a => some (wordE 0x0C a)
  | .vxeRece _ a => some (wordE 0x0D a)
  | .vxeRsqe _ a => some (wordE 0x0E a)
  | .vxeMov _ a => some (wordE 0x0F a)
  | .vxeAnd _ a => some (wordE 0x10 a)
  | .vxeOr _ a => some (wordE 0x11 a)
  | .vxeXor _ a => some (wordE 0x12 a)
  | .vxeSll _ a => some (wordE 0x13 a)
  | .vxeSrl _ a => some (wordE 0x14 a)
  | .vxeSra _ a => some (wordE 0x15 a)
  | .vxeMrg _ a => some (wordE 0x16 a)
  | .vxeIota _ a => some (wordE 0x17 a)
  | .vxeFma _ a => some (wordF 0x00 a)
  | .vxeFms _ a => some (wordF 0x01 a)
  | .vxeFnma _ a => some (wordF 0x02 a)
  | .vxeFnms _ a => some (wordF 0x03 a)
  | .vxeCmpEq _ a => some (wordK 0x00 a)
  | .vxeCmpLt _ a => some (wordK 0x01 a)
  | .vxeCmpLe _ a => some (wordK 0x02 a)
  | .vxeCmpUn _ a => some (wordK 0x03 a)
  | .vxeCmpNe _ a => some (wordK 0x04 a)
  | .vxeRedSum _ a => wordR 0x00 a
  | .vxeRedMin _ a => wordR 0x01 a
  | .vxeRedMax _ a => wordR 0x02 a
  | .vxeRedAmax _ a => wordR 0x03 a
  | .vxeRedSumw _ a => wordR 0x04 a
  | .vxeRedRepamax _ a => wordR 0x05 a
  | .vxeCvt _ a => some (wordC a)
  | .vxeLoad _ a => some (wordL false a)
  | .vxeStore _ a => some (wordL true a)
  | .vxeSetvl _ a => some (wordS 7 0x00 a)
  | .vxeSettid _ a => some (wordS 7 0x01 a)
  | .vxeSetidx _ a => some (wordS 7 0x02 a)
  | .vxeAddidx _ a => some (wordS 7 0x03 a)
  | .vxeSetscl _ a => some (wordS 7 0x04 a)
  | .vxeSetblk _ a => some (wordS 7 0x05 a)
  | .vxeSetrm _ a => some (wordS 7 0x06 a)
  | .vxeRdflg _ a => some (wordS 7 0x07 a)
  | .vxeClrflg _ a => some (wordS 7 0x08 a)
  | .vxeRdvl _ a => some (wordS 7 0x09 a)
  | .vxeVtos _ a => some (wordS 7 0x0A a)
  | .vxeStov _ a => some (wordS 7 0x0B a)
  | .vxeMskAnd _ a => some (wordM 0x00 a)
  | .vxeMskOr _ a => some (wordM 0x01 a)
  | .vxeMskXor _ a => some (wordM 0x02 a)
  | .vxeMskAndn _ a => some (wordM 0x03 a)
  | .vxeMskNot _ a => some (wordM 0x04 a)
  | .vxeMskSet _ a => some (wordM 0x05 a)
  | .vxeMskClr _ a => some (wordM 0x06 a)
  | .vxeSclAddi _ a => some (wordS 9 0x00 a)
  | .vxeSclAdd _ a => some (wordS 9 0x01 a)
  | .vxeSclSub _ a => some (wordS 9 0x02 a)
  | .vxeSclAnd _ a => some (wordS 9 0x03 a)
  | .vxeSclOr _ a => some (wordS 9 0x04 a)
  | .vxeSclXor _ a => some (wordS 9 0x05 a)
  | .vxeSclSlli _ a => some (wordS 9 0x06 a)
  | .vxeSclSrli _ a => some (wordS 9 0x07 a)
  | .vxeSclSrai _ a => some (wordS 9 0x08 a)
  | .vxeSclLih _ a => some (wordS 9 0x09 a)
  | .vxeSclMul _ a => some (wordS 9 0x0A a)
  | .vxeBeq _ a => some (wordS 0xA 0x00 a)
  | .vxeBne _ a => some (wordS 0xA 0x01 a)
  | .vxeBlt _ a => some (wordS 0xA 0x02 a)
  | .vxeBge _ a => some (wordS 0xA 0x03 a)
  | .vxeBltu _ a => some (wordS 0xA 0x04 a)
  | .vxeJmp _ a => some (wordS 0xA 0x05 a)
  | .vxeWait _ a => some (wordS 0xA 0x08 a)
  | .vxeSignal _ a => some (wordS 0xA 0x09 a)
  | .vxeSemwait _ a => some (wordS 0xA 0x0A a)
  | .vxeSemadd _ a => some (wordS 0xA 0x0B a)
  | .vxeEnd _ a => some (wordS 0xA 0x1F a)
  | _ => none

end Sys2Proof.Machine
end

