-- ==== Sys2Proof/Machine/BookCheck.lean ====
section
/-! DEFINITION. The checks of a prompt book (02 Table 2-10, R44), and those of its descriptors: 06 Table 6-4, 09 R204,
10 Table 10-3, 14 Table 14-9, 15 R348. -/

namespace Sys2Proof.Machine

/-- No element twice. -/
def noDup : List Nat → Bool
  | [] => true
  | x :: xs => !(xs.contains x) && noDup xs

/-- The index of the first element that fails. -/
def firstBad {α : Type} (p : α → Bool) : Nat → List α → Option Nat
  | _, [] => none
  | i, x :: xs => if p x then firstBad p (i + 1) xs else some i

/-! ### Check 5: the directory -/

/-- Is an entry in order, after those before it? -/
def entryOk (total dirEnd : Nat) (before : List DirEntry) (e : DirEntry) : Bool :=
  e.off % 256 = 0 && decide (dirEnd ≤ e.off) && decide (e.off + e.len ≤ total) &&
  before.all (fun x => decide (e.off + e.len ≤ x.off ∨ x.off + x.len ≤ e.off) && x.type != e.type) &&
  match sectionType e.type with
  | none => e.sflags % 2 = 0
  | some (size, count) => e.sver = 1 && e.size = size && decide (e.count * e.size ≤ e.len) && (count = 0 || e.count = count)

/-- The first entry out of order (R44). -/
def dirBad (total dirEnd : Nat) : Nat → List DirEntry → List DirEntry → Option Nat
  | _, _, [] => none
  | i, before, e :: es => if entryOk total dirEnd before e then dirBad total dirEnd (i + 1) (e :: before) es else some i

/-! ### Check 7: fields -/

/-- JOB by Table 2-5. -/
def Book.jobOk (b : Book) : Bool :=
  decide (10 ≤ b.curtainTimeout ∧ b.curtainTimeout ≤ 60000) && decide (1 ≤ b.digestInterval ∧ b.digestInterval ≤ 64) &&
  ((List.range 11).map (2 ^ ·)).contains b.dupDivisor && decide (b.headroom ≤ 7) && decide (1 ≤ b.microBatches) &&
  decide (b.buddyRank < b.castSize) && decide (b.buddyOf < b.castSize)

/-- PHASE records in ascending TILE_INDEX order, by Table 2-7. -/
def phasesOk (mb : Nat) : Nat → List PhaseRec → Bool
  | _, [] => true
  | lo, p :: ps => decide (lo ≤ p.tileIndex) && decide (p.phase ≤ 4) && decide (p.prefOp ≤ 7) &&
      (if p.phase ≤ 1 then decide (p.microBatch < mb) else p.microBatch = 0xFFFF) && phasesOk mb (p.tileIndex + 1) ps

def Book.phaseOk (b : Book) : Bool :=
  match b.phases with
  | [] => false
  | p :: _ => p.tileIndex = 0 && phasesOk b.microBatches 0 b.phases

/-- LAYER records by R39 and 07 R136: FORMAT is a code marked Yes in the MXE output column of Table 7-1, which FP64 is not (entry
147). -/
def Book.layersOk (b : Book) : Bool :=
  noDup (b.layers.map (·.layerId)) && b.layers.all fun l =>
    decide (2 ≤ l.format ∧ l.format ≤ 10) && decide (l.cls ≤ 1) &&
    decide (l.tileFirst + l.tileCount ≤ b.tiles.length) && decide (l.fbFirst + l.fbCount ≤ b.fallback.length)

/-! ### Checks 8 to 11 -/

/-- No FORWARD record follows a BACKWARD record (R41). -/
def forwardFirst : Bool → List OrderRec → Bool
  | _, [] => true
  | back, r :: rs => !(back && r.pass = 0) && forwardFirst (back || r.pass = 1) rs

/-- ORDER rules of R41. -/
def Book.orderOk (b : Book) : Bool :=
  b.order.length = 2 * b.microBatches && forwardFirst false b.order && b.order.all (fun r => decide (r.pass ≤ 1)) &&
  (List.range b.microBatches).all fun m => (List.range 2).all fun p =>
    (b.order.filter fun r => r.microBatch = m && r.pass = p).length = 1

/-- PRINCIPAL rules of R42. -/
def Book.principalsOk (b : Book) : Bool :=
  decide (b.principals.length ≤ 16) &&
  b.principals.all (fun p => decide (1 ≤ p.lowerK ∧ p.lowerK ≤ 8) &&
    b.layers.any fun l => l.layerId = p.layerId && l.cls = 1 && l.tensor = p.tensor) &&
  b.layers.all fun l => l.cls ≠ 1 || (b.principals.filter fun p => p.layerId = l.layerId).length = 1

/-- Every narrow layer has its fallback range (R39). -/
def Book.fallbackOk (b : Book) : Bool :=
  b.layers.all fun l => decide (l.format ≤ 2) || decide (0 < l.fbCount)

/-- Two ranges share no byte. -/
def apart (a b : Nat × Nat) : Bool := decide (a.2 = 0 ∨ b.2 = 0 ∨ a.1 + a.2 ≤ b.1 ∨ b.1 + b.2 ≤ a.1)

def allApart : List (Nat × Nat) → Bool
  | [] => true
  | x :: xs => xs.all (apart x) && allApart xs

/-- RETAIN rules of R34: in the part's own stack memory, apart, in equal pairs. -/
def Book.retainOk (b : Book) (device homeSize : Nat) : Bool :=
  b.retain.length = 6 && allApart b.retain &&
  b.retain.all (fun r => r.1 / 2 ^ 40 = device && decide (r.1 % 2 ^ 38 + r.2 ≤ homeSize)) &&
  (b.retain.getD 0 (0, 0)).2 = (b.retain.getD 1 (0, 0)).2 && (b.retain.getD 2 (0, 0)).2 = (b.retain.getD 3 (0, 0)).2

/-! ### Tile descriptors (Table 6-4) -/

def TileDesc.isMma (t : TileDesc) : Bool := t.opcode = 1 || t.opcode = 2

/-- Output formats of a pair (Table 6-1). -/
def outAllowed (k : PairKind) (c : Nat) : Bool :=
  match k with
  | .fp64 => c = 1
  | _ => decide (2 ≤ c ∧ c ≤ 10)

/-- Staging ranges that an MMA reads and writes (R119). -/
def TileDesc.extents (t : TileDesc) : List (Nat × Nat) :=
  let rows := if t.mValid = 0 then 128 else t.mValid
  match Fmt.ofCode t.aFmt, Fmt.ofCode t.bFmt, Fmt.ofCode t.outFmt with
  | some fa, some fb, some fo =>
    let sc (x : ScaleSel) (off lines : Nat) : List (Nat × Nat) :=
      match x.mode with | 1 => [(off, 1)] | 2 => [(off, lines * (t.k / x.block))] | _ => []
    [(t.aOff + (rows - 1) * t.aStride * 64, rowBytes fa t.k), (t.bOff + (t.nValid - 1) * t.bStride * 64, rowBytes fb t.k)] ++
      sc t.aScale t.aScaleOff rows ++ sc t.bScale t.bScaleOff t.nValid ++
      (if t.loadC then [(t.cOff + (rows - 1) * t.cStride * 64, t.nValid * accWidth t)] else []) ++
      (if t.drain then [(t.cOff + (rows - 1) * t.cStride * 64, rowBytes fo t.nValid)] ++
        (match t.outScale.mode with
          | 1 => [(t.outScaleOff, 1)]
          | 2 => [(t.outScaleOff, rows * ((t.nValid + t.outScale.block - 1) / t.outScale.block))]
          | _ => [])
      else [])
  | _, _, _ => []

/-- Checks of Table 6-4 on one MMA. DESIGN CHOICE (entry 143): a stride of 0 and a SIGNAL of 0x20 to 0xFE, which lie
outside the ranges of Table 6-2 and have no check of their own in Table 6-4, fail here too. -/
def mmaOk (t : TileDesc) : Bool :=
  match pairKind t.aFmt t.bFmt with
  | none => false
  | some k =>
    let narrow := decide (k = .narrow)
    let scaleOk (x : ScaleSel) : Bool := if narrow then decide (x.mode ≤ 2) else x.mode = 0
    let blockOk (x : ScaleSel) : Bool := x.mode ≠ 2 || t.k % x.block = 0
    outAllowed k t.outFmt && scaleOk t.aScale && scaleOk t.bScale && decide (t.outScale.mode ≤ 2) &&
    decide (1 ≤ t.k ∧ t.k ≤ 262144) && t.k % kGranule t.aFmt t.bFmt = 0 && blockOk t.aScale && blockOk t.bScale &&
    decide (1 ≤ t.nValid ∧ t.nValid ≤ 128) && decide (t.mValid ≤ 128) &&
    decide (1 ≤ t.aStride ∧ 1 ≤ t.bStride ∧ 1 ≤ t.cStride) &&
    (t.extents.all fun r => decide (r.1 + r.2 ≤ 2 ^ 23)) &&
    (!t.loadC || (t.outFmt = (if k = .fp64 then 1 else 2) && !t.cont)) &&
    (!t.sr || decide (3 ≤ t.outFmt ∧ t.outFmt ≤ 10)) && (decide (t.signal < 32) || t.signal = 0xFF)

/-- Checks of Table 6-4 on one descriptor. -/
def tileOk (t : TileDesc) : Bool :=
  decide (t.lbay < 32) &&
  match t.opcode with
  | 0x01 | 0x02 => mmaOk t
  | 0x10 | 0x11 => t.semAddr % 8 = 0
  | 0xFF => true
  | _ => false

/-- Chains and M_VALID 0 along one bay's descriptors (Table 6-4, Chain and Shape). DESIGN CHOICE (entry 142): the
FALLBACK descriptors of a bay are a list of their own, across layers, in which an MMA with M_VALID 0 follows an
MMA_GATHER. -/
def bayChainOk : Option TileDesc → Bool → List TileDesc → Bool
  | p, _, [] => match p with | some x => !(x.isMma && !x.drain) | none => true
  | p, gathered, t :: ts =>
    let open_ := match p with | some x => x.isMma && !x.drain | none => false
    let same := match p with | some x => pairKind x.aFmt x.bFmt = pairKind t.aFmt t.bFmt && x.aFmt = t.aFmt && x.bFmt = t.bFmt | none => false
    let g := if t.opcode = 0xFF then false else gathered || t.opcode = 2
    (open_ == (t.isMma && t.cont)) && (!t.cont || same) && (!(t.isMma && t.mValid = 0) || g) && bayChainOk (some t) g ts

/-- The pair of a layer's fallback range (R39). -/
def fallbackPair (format : Nat) : Option Nat :=
  if 5 ≤ format ∧ format ≤ 10 then some 4 else if format = 3 ∨ format = 4 then some 2 else none

/-- The TILE section's checks. -/
def Book.tilesOk (b : Book) : Bool :=
  b.tiles.all tileOk && noDup ((b.tiles ++ b.fallback).map (·.tileId)) &&
  (List.range 32).all fun lb =>
    let l := b.tiles.filter fun t => t.lbay = lb
    bayChainOk none false l &&
    (l.isEmpty || ((l.filter fun t => t.opcode = 0xFF).length = 1 && (l.getLast?.map (·.opcode)) = some 0xFF))

/-- The FALLBACK section's checks. -/
def Book.fallbackTilesOk (b : Book) : Bool :=
  b.fallback.all tileOk &&
  ((List.range 32).all fun lb => bayChainOk none false (b.fallback.filter fun t => t.lbay = lb)) &&
  b.layers.all fun l =>
    let lbays := ((b.tiles.drop l.tileFirst).take l.tileCount).map (·.lbay)
    ((b.fallback.drop l.fbFirst).take l.fbCount).all fun t =>
      lbays.contains t.lbay &&
      (!t.isMma || match fallbackPair l.format with
        | some c => t.aFmt = c && t.bFmt = c
        | none => true)

/-! ### Vector programs (R188, R204) -/

/-- A branch or jump target in range (R204). -/
def targetOk (count ix w : Nat) : Bool :=
  let t := (ix : Int) + sext 15 (vf w 0 15)
  decide (0 ≤ t ∧ t < count)

/-- Is an instruction word valid at its index in a program of `count`: it decodes, and a branch leads within the program
(R204)? -/
def vinsnOk (count ix w : Nat) : Bool :=
  vwordOk w && (!(vf w 28 4 = 0xA && decide (vf w 23 5 ≤ 5)) || targetOk count ix w)

/-- A program and its REC_LEN (R203, R204). -/
def vecOk (x : VecProg × Nat) : Bool :=
  let p := x.1
  let n := p.insns.length
  let ws := p.insns.map (·.toNat)
  decide (p.lbay < 32) && decide (p.scalars.length ≤ 15) && decide (1 ≤ n ∧ n ≤ 65536) &&
  x.2 = (32 + 8 * p.scalars.length + 4 * n + 7) / 8 * 8 &&
  ((List.range n).all fun i => vinsnOk n i (ws.getD i 0)) &&
  match ws.getLast? with
  | some w => vf w 28 4 = 0xA && (vf w 23 5 = 0x1F || vf w 23 5 = 5)
  | none => false

/-! ### Stream descriptors (Table 10-3, R222, R348) -/

/-- Does every address that a descriptor with REGION 1 to 3 touches lie within its region (Table 10-3)? -/
def Book.streamWithin (b : Book) (d : StreamDesc) : Bool :=
  d.region = 0 || streamRegionOk d (b.retain.getD (match d.region with | 1 => 0 | 2 => 1 | _ => 4) (0, 0)).2

/-- Checks that read one descriptor; `recs` the tensors with a scale record. -/
def Book.streamOk (b : Book) (recs : List Nat) (d : StreamDesc) : Bool :=
  if d.isRearm then decide (d.region < 4) && decide (d.kind = 0)
  else
    streamRouteOk d && streamFmtsOk d && streamScalesOk d && streamShapeOk d && streamStridesOk d && streamLocalOk d &&
    b.streamWithin d &&
    (!d.digest || (d.dir = 1 && d.region = 2)) && (d.srcFmt = d.dstFmt || d.converts) &&
    (!(d.srcScale = 1 || d.dstScale = 1) || recs.contains d.tensor)

/-- The companion of a PAIRED descriptor (Table 10-3). -/
def companionOk (d c : StreamDesc) : Bool :=
  c.companion && c.dir = d.dir && c.kind = d.kind && c.ndim = d.ndim && c.delivDim = d.delivDim && c.srcFmt = 13 &&
  c.dstFmt = 13 && c.convZero && c.count0 = (d.count0 + d.block - 1) / d.block &&
  (c.used.drop 1).map (·.1) = (d.used.drop 1).map (·.1)

/-- PAIRED, COMPANION and REARM along the section: `last` is the stream that a REARM would re-arm, by slot. What a REARM
re-arms touches its region from the new base. -/
def Book.streamsOrderOk (b : Book) (last : Tab StreamDesc) : List StreamDesc → Bool
  | [] => true
  | d :: ds =>
    let key := d.lbay * 32 + d.slot
    let pairOk := if d.paired && !d.isRearm then
        decide (d.slot < 31) && (match ds.find? fun c => c.lbay = d.lbay && c.slot = d.slot + 1 with
          | some c => companionOk d c
          | none => false)
      else true
    let rearmOk := !d.isRearm || match Tab.find last key with
      | some q => q.region = d.region && b.streamWithin { q with base := d.base }
      | none => false
    let last := if d.isRearm then last
      else if d.persist then Tab.put last key d else Tab.del last key
    pairOk && rearmOk && b.streamsOrderOk last ds

/-- Every COMPANION stands behind its PAIRED descriptor on the slot below. -/
def companionsOk : List StreamDesc → List StreamDesc → Bool
  | _, [] => true
  | before, d :: ds =>
    (!d.companion || d.isRearm || (decide (0 < d.slot) &&
      match before.find? fun p => p.lbay = d.lbay && p.slot = d.slot - 1 with
      | some p => p.paired
      | none => false)) && companionsOk (d :: before) ds

/-- Do a descriptor's bytes in one arming lie back to back in stream order? Then how many they are. -/
def contiguous (f : Fmt) : List (Nat × Int) → Option Nat
  | [] => some 0
  | (c0, s0) :: ds =>
    if f.width < 8 ∨ c0 = 1 ∨ s0 = (f.width / 8 : Nat) then
      ds.foldl (fun n x => match n with
        | none => none
        | some n => if x.1 = 1 ∨ x.2 = (n : Int) then some (n * x.1) else none) (some (rowBytes f c0))
    else none

/-- An arming of a DIGEST stream: slot key, its place among the slot's armings, and the range it writes; length none
where the bytes do not lie back to back. -/
structure DigestArm where
  key : Nat
  nr  : Nat
  lo  : Nat
  len : Option Nat
  deriving DecidableEq, Repr

/-- The armings of DIGEST streams, in section order (R348). -/
def digestArms (last : Tab (Nat × StreamDesc)) : List StreamDesc → List DigestArm
  | [] => []
  | d :: ds =>
    let key := d.lbay * 32 + d.slot
    let nr := match Tab.find last key with | some x => x.1 + 1 | none => 0
    let e := if d.isRearm then (match Tab.find last key with | some x => { x.2 with base := d.base } | none => d) else d
    let last := Tab.put last key (nr, e)
    if e.digest then
      let len := match Fmt.ofCode e.dstFmt with | some f => contiguous f e.used | none => none
      ⟨key, nr, e.base, len⟩ :: digestArms last ds
    else digestArms last ds

/-- The part of an arming in a range. -/
def DigestArm.within (a : DigestArm) (lo hi : Nat) : Nat × Nat :=
  let l := max a.lo lo
  let h := min (a.lo + a.len.getD 0) hi
  (l, h - l)

/-- Consecutive armings of one slot. -/
def consecutive : List DigestArm → Bool
  | a :: b :: rest => a.key = b.key && b.nr = a.nr + 1 && consecutive (b :: rest)
  | _ => true

/-- R348: every stream chunk is written whole, once, by consecutive armings of one slot, and no record chunk is. -/
def Book.digestOk (b : Book) (recLo recLen : Nat) : Bool :=
  let l := (b.retain.getD 1 (0, 0)).2
  let arms := digestArms [] b.streams
  let n := (l + 2 ^ 22 - 1) / 2 ^ 22
  let isRec (c : Nat) : Bool := decide (0 < recLen ∧ recLo / 2 ^ 22 ≤ c ∧ c ≤ (recLo + recLen - 1) / 2 ^ 22)
  arms.all (fun a => a.len.isSome) &&
  (List.range n).all fun c =>
    let lo := c * 2 ^ 22
    let hi := min ((c + 1) * 2 ^ 22) l
    let xs := arms.filter fun a => (a.within lo hi).2 ≠ 0
    if isRec c then xs.isEmpty
    else (xs.map fun a => (a.within lo hi).2).sum = hi - lo && allApart (xs.map fun a => a.within lo hi) && consecutive xs

/-- The STREAM section's checks. -/
def Book.streamsOk (b : Book) (recs : List Nat) (recLo recLen : Nat) : Bool :=
  b.streams.all (b.streamOk recs) && b.streamsOrderOk [] b.streams && companionsOk [] b.streams && b.digestOk recLo recLen &&
  (List.range 1024).all fun k =>
    decide ((b.streams.filter fun d => d.isRearm && d.lbay * 32 + d.slot = k).length ≤ 16777215)

/-! ### Circuits and slots (Table 14-9) -/

/-- The CIRCUIT section's checks. -/
def Book.circuitsOk (b : Book) : Bool :=
  noDup (b.circuits.map (·.flow)) && decide (b.circuits.length ≤ 65536) &&
  (b.circuits.all fun c =>
    decide (1 ≤ c.nout ∧ c.nout ≤ 4) && decide (c.inPort ≤ 20) && noDup (c.outs.map (·.1)) &&
    c.outs.all (fun o => decide (o.1 ≤ 20) && o.1 ≠ c.inPort && decide (1 ≤ o.2.2 ∧ o.2.2 ≤ 512) && (o.1 ≠ 20 || o.2.2 = 1)) &&
    (!(c.outs.any fun o => o.1 = 20) || b.circuits.any fun r => r.flow = c.retFlow && r.inPort = 20 && r.source = 0x3FF) &&
    (c.inPort = 20 || (!c.reduce && c.source = 0x3FF)) &&
    (!c.reduce || (decide (1 ≤ bitsOf c.red 9 10 ∧ bitsOf c.red 9 10 ≤ 512) && decide (bitsOf c.red 0 9 < bitsOf c.red 9 10) &&
      decide (bitsOf c.red 19 2 ≤ 2))) &&
    (!c.conf || decide (c.key ≤ 15))) &&
  noDup ((b.circuits.filter fun c => c.source ≠ 0x3FF).map (·.source)) &&
  ((List.range b.circuits.length).zip b.circuits).all (fun x =>
    x.2.buddy = decide (b.bcFirst ≤ x.1 ∧ x.1 < b.bcFirst + b.bcCount)) &&
  decide (b.bcCount = 0 ∨ b.bcFirst + b.bcCount ≤ b.circuits.length) &&
  b.confidential = b.circuits.any (·.conf)

/-- Two slot records of one port share no slot. -/
def slotsApart : List SlotRec → Bool
  | [] => true
  | x :: xs => xs.all (fun y => x.port ≠ y.port || apart (x.start, x.count) (y.start, y.count)) && slotsApart xs

/-- The SLOT section's checks. -/
def Book.slotsOk (b : Book) : Bool :=
  (b.slots.all fun r => decide (1 ≤ r.count ∧ r.start + r.count ≤ 1024) &&
    b.circuits.any fun c => c.flow = r.flow && c.outs.any fun o => o.1 = r.port && o.1 ≠ 20) &&
  slotsApart b.slots &&
  b.circuits.all fun c => c.inPort ≠ 20 || c.outs.all fun o => o.1 = 20 || b.slots.any fun r => r.flow = c.flow && r.port = o.1

/-! ### The whole (Table 2-10) -/

/-- What the part holds that the checks read: usable owner key hashes, the signature check, its device index, the size
of a home region, and the tensors and range of the record array. -/
structure CheckEnv where
  keys     : List (BitVec 256)
  device   : Nat
  homeSize : Nat
  recs     : List Nat
  recLo    : Nat
  recLen   : Nat

/-- Check 4: the SIGN section located, the digest recomputed, the key fused, the signature verified. -/
def signOk (v : CheckEnv) (verify : List Byte → List Byte → List Byte → Bool) (bs : List Byte) (dir : List DirEntry) : Bool :=
  match dir.filter fun e => e.type = 0xFF with
  | [e] =>
    e.len = 128 && e.off + e.len = bs.length && slice bs 0x60 32 = bookDigest bs e.off &&
    v.keys.contains (BitVec.ofNat 256 (leNat (sm3 (slice bs e.off 64)))) &&
    verify (slice bs e.off 64) (slice bs 0x60 32) (slice bs (e.off + 64) 64)
  | _ => false

/-- Directory index of a type. DESIGN CHOICE (entry 162): a section that is absent and fails its check, a CIRCUIT section that
JOB counts circuits of, is reported as 0xFF. -/
def dirIx (dir : List DirEntry) (t : Nat) : Nat := (dir.findIdx? fun e => e.type = t).getD 0xFF

/-- The lowest directory index among failing sections. -/
def lowestBad (dir : List DirEntry) (xs : List (Nat × Bool)) : Option Nat :=
  ((xs.filter fun x => !x.2).map fun x => dirIx dir x.1).min?

/-- Validation (R44): CODE, SECTION and, when every check passes, the book. DESIGN CHOICE (entry 162): a directory whose entries
run past TOTAL_LEN fails check 5 with SECTION 0xFF, as its header's SECTION_COUNT does. -/
def validate (v : CheckEnv) (verify : List Byte → List Byte → List Byte → Bool) (loadLen : Nat) (raw : List Byte) :
    Nat × Nat × Option Book :=
  let total := fieldAt raw 0x08 8
  let bs := raw.take total
  let dir := dirOf bs
  let n := fieldAt bs 0x10 4
  let b := Book.ofBytes bs dir
  if fieldAt raw 0 4 ≠ 0x42504C4F ∨ fieldAt raw 0x14 4 ≠ 128 then (0x01, 0, none)
  else if fieldAt raw 0x04 2 ≠ 2 then (0x02, 0, none)
  else if total ≠ loadLen ∨ 2 ^ 32 < total ∨ raw.length < total then (0x03, 0, none)
  else if signOk v verify bs dir = false then (0x04, 0, none)
  else if fieldAt bs 0x20 8 ≠ 128 ∨ n < 9 ∨ 64 < n ∨ bs.length < 128 + 32 * n then (0x05, 0xFF, none)
  else match dirBad bs.length (128 + 32 * n) 0 [] dir with
  | some i => (0x05, i, none)
  | none =>
    if (requiredTypes.all fun t => dir.any fun e => e.type = t) = false then (0x06, 0, none)
    else if b.castSize < 1 ∨ 512 < b.castSize then (0x07, 0xFF, none)
    else match lowestBad dir [(0x01, b.jobOk), (0x50, b.phaseOk), (0x03, b.layersOk)] with
    | some i => (0x07, i, none)
    | none =>
      if b.orderOk = false then (0x08, 0, none)
      else if b.principalsOk = false then (0x09, 0, none)
      else if b.fallbackOk = false then (0x0A, 0, none)
      else if b.retainOk v.device v.homeSize = false then (0x0B, 0, none)
      else
        let vec := vectorsOf bs dir
        let vecCount := ((dir.find? fun e => e.type = 0x30).map (·.count)).getD 0
        let vecGood := vec.length = vecCount && vec.all vecOk && noDup (vec.map (·.1.progId))
        match lowestBad dir [(0x10, b.tilesOk), (0x11, b.fallbackTilesOk), (0x20, b.streamsOk v.recs v.recLo v.recLen),
            (0x30, vecGood), (0x40, b.circuitsOk), (0x41, b.slotsOk)] with
        | some i => (0x0C, i, none)
        | none => if b.castSize ≤ b.castRank then (0x0D, 0, none) else (0x00, 0, some b)

end Sys2Proof.Machine
end

