-- ==== Sys2Proof/Machine/PartsManage.lean ====
section
/-! DEFINITION. Records of the state, concluded: mailboxes, firmware, the log's readers and updates (chapter 20), hangs
and captures (chapter 18), Ethernet queues and PCIe (chapter 22). -/

namespace Sys2Proof.Machine

/-! ### Management (chapter 20) -/

/-- A message in a mailbox or in its queue (R427): its buffer, who sent it, and its 256 bytes, which the mailbox takes
as the message is accepted (a signed command's, as its datagram brought them). -/
structure Msg where
  addr  : Nat
  w     : Writer
  bytes : List Byte := []
  deriving DecidableEq, Repr

/-- A capture (R394): the fields of its header and its sections, by KIND, as payload bytes. -/
structure Capture where
  seq      : Nat
  time     : Nat
  step     : Nat
  epoch    : Nat
  domain   : Nat
  die      : Nat
  unit     : Nat
  trigger  : Nat
  ctx      : Nat
  gen      : Nat
  progress : Nat
  sections : List (Nat × List Byte)
  deriving DecidableEq, Repr

/-- The flush area (R423): the epoch, the newest log entries, change records by die and captures. -/
structure Flush where
  epoch    : Nat
  log      : List LogEntry
  chg      : Tab (List ChangeRec)
  captures : List Capture
  deriving DecidableEq, Repr

/-- Firmware (chapter 20). Messages in process by mailbox, those queued, and those that reached a mailbox since its
current message time began, with its start (R96); notices that wait, each its type and body
(R433), the armed buffer of mailbox 14 and when the last LOG_ALERT went; restart times of components by die × 8 + ID
(R421); heartbeats by die (R434); the last accepted command sequence (R429); the header and component entries of the
running image (R425); the update slot's image, PENDING, whether that image failed stage 6, and in this start, the time at which EMERGENCY
was last 1, whether an activation waits for its COMMIT (R438 to R440) and whether the slot was loaded;
captures by die × 4 + slot and the next SEQ by die; the flush area; what waits while CUES restarts, oldest first: 0 the notice
of a CALL, 1 the roster of an activation, 2 the roster of a held curtain (Table 20-2). -/
structure Firmware where
  cur      : Tab Msg := []
  queue    : Tab (List Msg) := []
  arrivals : Tab (Nat × List Msg) := []
  notices  : List (Nat × List Byte) := []
  armed    : Option Nat := none
  alertAt  : Option Nat := none
  restarts : Tab (List Nat) := []
  beats    : Tab Nat := []
  lastSeq  : Nat := 0
  image    : List Byte := []
  slot     : Option (List Byte) := none
  slotDue  : Bool := false
  slotBad  : Bool := false
  slotTried : Bool := false
  clean    : Option Nat := none
  waiting  : Bool := false
  fromSlot : Bool := false
  captures : Tab Capture := []
  capNext  : Tab Nat := []
  flush    : Option Flush := none
  cuesDue  : List Nat := []
  deriving DecidableEq, Repr

/-! ### Hangs (chapter 18) -/

/-- A replay of a bay's suspects (R399): bay, those left in order of admission, how many in all, the one under trial
and since when, whether the bay waits for its reset, whether a suspect was guilty, and the capture's SEQ. -/
structure Replay where
  die   : Nat
  bay   : Nat
  left  : List Nat
  all   : Nat
  trial : Option Nat := none
  since : Nat := 0
  hung  : Bool := false
  guilty : Bool := false
  seq   : Nat := 0
  deriving DecidableEq, Repr

/-- Hangs: times of the bays' last firings by bay key (R392), replays in progress, and contexts that left a bay with
the time they left it, newest first (R397); the device time of the bays' last progress, of those that have made any
(R389). -/
structure Hang where
  fired   : Tab Nat := []
  replays : List Replay := []
  ran     : Tab (List (Nat × Nat)) := []
  last    : Tab Nat := []
  /-- From when the watchdog of a bay counts, by `bayKey`: none while it is held at 0 (18 R389, R390). -/
  counts  : Tab Nat := []
  deriving DecidableEq, Repr

/-! ### Cores and IO (chapter 22) -/

/-- An Ethernet queue (Table 22-8): base, ENABLE, ENTRIES, head and tail. -/
structure EthQ where
  base    : Nat := 0
  enable  : Bool := false
  entries : Nat := 0
  head    : Nat := 0
  tail    : Nat := 0
  deriving DecidableEq, Repr

/-- IO: Ethernet queues by port × 128 + direction × 64 + queue (port 4 is the management port, direction 1 receives),
MSI vectors that wait for a core cluster in reset (R466), and the input voltage last read. -/
structure Io where
  queues : Tab EthQ := []
  msi    : List Nat := []
  mv     : Nat := 48000
  deriving DecidableEq, Repr

end Sys2Proof.Machine
end

