-- ==== Sys2Proof/Machine/State.lean ====
section
/-! DEFINITION. The machine's state: the registers, and by chapter everything the spec gives the part that no
register holds; the ways a step can stop; the state after reset. -/

namespace Sys2Proof.Machine

/-- Ways the machine stops with a fault: none. No command of this part stops it; what a unit reports as an error is in the
state. -/
inductive Fault where
  deriving DecidableEq, Repr

/-- Ways a command is refused. -/
inductive Refusal where
  /-- Raised by an arm of `exec` whose command has no meaning yet (safe: the model stops). -/
  | notModelled (mnemonic : String)
  deriving DecidableEq, Repr

/-- The state of one OL2S-864-A. -/
structure State where
  /-- The model's own field: commands that wait, first in first out. -/
  pending : List Instr := []
  /-- The model's own field: how many free values have been taken (entry 3). -/
  freeIdx : Nat := 0
  /-- The model's own field: what the part has sent, newest first. -/
  sent    : List Out := []
  /-- The register file (chapter 05): registers that differ from their reset value, by key. -/
  regs    : Tab Word := []
  /-- Values in force of registers whose writes take effect at a later activation (R181, R347, R378, R404). -/
  inForce : Tab Word := []
  log     : LogState := {}
  chg     : Tab ChgRing := []
  /-- Writes that the crossing into an island in reset holds (R72, R100): die, page, offset, writes, arrival time. -/
  heldW   : List (Nat × Nat × Nat × List WriteReq × Nat) := []
  /-- The cut-through route table (R323): bank × 512 + device to the value of VCT_DATA. -/
  routes  : Tab Nat := []
  books   : Books := {}
  sec     : Security := {}
  /-- DEVICE and COMPANY of SET_IDENTITY (20 R431); unassigned (13 Table 13-5) until it is sent. -/
  ident   : Nat × Nat := (0xFFFF, 0)
  /-- Unit states (R355), by `unitKey`; unlisted units are as at reset. -/
  units   : Tab UnitState := []
  step    : StepRun := {}
  /-- The part asks through Cue, at the next curtain, to be fenced (R74, R263, R439). -/
  fenceSelf : Bool := false
  retained : Retained := {}
  /-- TENSOR_ID of each scale record of the array taken at the last activation (R163, R200). -/
  tensors : List Nat := []
  /-- Device index of the part's Cue leader (R362), to which it sends. -/
  leader  : Nat := 0
  /-- Engines by bay key, die × 9 + bay. -/
  mxe     : Tab Mxe := []
  gather  : Tab GatherQ := []
  vxe     : Tab Vxe := []
  /-- Stream slots by bay key × 32 + slot. -/
  slots   : Tab SuSlot := []
  /-- Staging SRAM by bay key × 2^23 + offset; unlisted bytes are 0 (entry 5). -/
  staging : Tab Byte := []
  ports   : Tab SpPortSt := []
  mem     : Mem := {}
  ctx     : CtxState := {}
  history : History := {}
  dieEnv  : Tab DieEnv := []
  fabric  : Fabric := {}
  /-- The witness unit's entries of the step, by table index (R336). -/
  wtab    : Tab WitEntry := []
  dup     : DupState := {}
  digest  : Digest := {}
  power   : Power := {}
  time    : TimeSync := {}
  cue     : Cue := {}
  ckpt    : Ckpt := {}
  resets  : ResetState := {}
  fw      : Firmware := {}
  hang    : Hang := {}
  io      : Io := {}
  deriving DecidableEq, Repr

/-- The machine right after reset: power applied and the fuses sensed, every block OFF, no book, no context, the
command queue empty. -/
def State.reset : State := {}

end Sys2Proof.Machine
end

