-- ==== Sys2Proof/Machine/Ops.lean ====
section
/-! DEFINITION. The shared operations: reading and writing registers, free values, what the part sends, error bits,
the log, protection (05, 20 R435, R436). -/

namespace Sys2Proof.Machine

/-! ### Page indices (Table 5-1) -/
abbrev pgDie := 0x00
abbrev pgRst := 0x01
abbrev pgTim := 0x02
abbrev pgStp := 0x03
abbrev pgProt := 0x04
abbrev pgChg := 0x05
abbrev pgPwr := 0x06
abbrev pgMgc := 0x07
abbrev pgMbx := 0x08
abbrev pgWit := 0x09
abbrev pgDup := 0x0A
abbrev pgCue := 0x0B
abbrev pgShc := 0x40
abbrev pgRtr := 0x57
abbrev pgEth := 0x5C
abbrev pgMgt := 0x5D
abbrev pgPcie := 0x5E
abbrev pgApc := 0x60
/-- Pages of bay `b`. -/
abbrev pgMxe (b : Nat) := 0x10 + b
abbrev pgVxe (b : Nat) := 0x20 + b
abbrev pgSu (b : Nat) := 0x30 + b
/-- Page of stack `t` of its die. -/
abbrev pgApr (t : Nat) := 0x44 + t
/-- The die and the page of port CPp (R87). -/
abbrev portDie (p : Nat) := p / 5
abbrev pgCp (p : Nat) := 0x50 + p % 5

/-! ### Registers -/

/-- The stored value of a register. -/
def State.rd (s : State) (d pg off : Nat) : Nat := (Tab.get (regReset (rk d pg off)) s.regs (rk d pg off)).toNat

/-- Store a register. -/
def State.wr (s : State) (d pg off v : Nat) : State :=
  { s with regs := Tab.set (regReset (rk d pg off)) s.regs (rk d pg off) (BitVec.ofNat 64 v) }

/-- The field of `n` bits from bit `lo`. -/
def State.rdF (s : State) (d pg off lo n : Nat) : Nat := bitsOf (s.rd d pg off) lo n

/-- Store a field. -/
def State.wrF (s : State) (d pg off lo n v : Nat) : State := s.wr d pg off (putBits (s.rd d pg off) lo n v)

/-- Add to a field, wrapping. -/
def State.incF (s : State) (d pg off lo n v : Nat) : State := s.wrF d pg off lo n (s.rdF d pg off lo n + v)

/-- Add to a field, saturating. -/
def State.satF (s : State) (d pg off lo n v : Nat) : State :=
  s.wrF d pg off lo n (min (2 ^ n - 1) (s.rdF d pg off lo n + v))

/-- Raise a field to `v` where it holds less. -/
def State.maxF (s : State) (d pg off lo n v : Nat) : State :=
  s.wrF d pg off lo n (max (s.rdF d pg off lo n) v)

/-- Apply `f` for every number below `n`. -/
def foldNat {α : Type} (n : Nat) (f : α → Nat → α) (a : α) : α := (List.range n).foldl f a

/-- The value in force of a register whose writes take effect later. -/
def State.inf (s : State) (d pg off : Nat) : Nat :=
  (Tab.get (regReset (rk d pg off)) s.inForce (rk d pg off)).toNat

/-- Bring a register's written value into force. -/
def State.enforce (s : State) (d pg off : Nat) : State :=
  let v := Tab.get (regReset (rk d pg off)) s.regs (rk d pg off)
  { s with inForce := Tab.set (regReset (rk d pg off)) s.inForce (rk d pg off) v }

/-- Device time on a die (TIM.TIME_NOW, R75). -/
def State.now (s : State) (d : Nat) : Nat := s.rd d pgTim 0x080

/-- The step in progress (STP.STEP_CUR). -/
def State.stepCur (s : State) : Nat := s.rdF 0 pgStp 0x0A0 0 48

/-- STP.STEP_STAT.STATE: 0 IDLE, 1 RUNNING, 2 AT_CURTAIN, 3 VOTING, 4 BUDDY_STREAM. -/
def State.stepState (s : State) : Nat := s.rdF 0 pgStp 0x0B0 0 3

/-- The step in progress or at the curtain; 0 outside a job. -/
def State.stepNum (s : State) : Nat := if s.stepState = 0 then 0 else s.stepCur

/-- BLK_STATE.STATE of a page: 2 is ON (Table 5-3). -/
def State.blkIs (s : State) (d pg st : Nat) : Bool := s.rdF d pg 0x018 0 3 = st

/-- Is the page's island in reset, so that every crossing into it holds its senders (R72, R97)? A core-cluster reset
resets the APC island and changes no field of its page (R467). -/
def State.inReset (s : State) (d pg : Nat) : Bool :=
  s.blkIs d pg 4 || (pg = 0x60 && s.resets.runs.any fun r => r.dom = 3 && r.die = d)

/-- Is a die at work: no orderly power-down, its rails on, no trip, a working phase on every rail (03 R57, R61, R64)? -/
def State.alive (s : State) (d : Nat) : Bool :=
  !s.power.down && s.power.off.isEmpty && !s.power.tripped.contains d && !s.power.dead.contains d

/-- The state of a firmware component on a die (20 Table 20-13): 0 ABSENT, 1 RUNNING, 2 RESTARTING, 3 STOPPED. -/
def State.comp (s : State) (d c : Nat) : Nat := s.rdF d pgMgc 0x028 (2 * c) 2
def State.setComp (s : State) (d c v : Nat) : State := s.wrF d pgMgc 0x028 (2 * c) 2 v

/-! ### Free values and messages -/

/-- The next free value (entry 3). -/
def State.free (s : State) : Word := Config.freeValue s.freeIdx

/-- The state with the next `n` free values taken. -/
def State.took (s : State) (n : Nat) : State := { s with freeIdx := s.freeIdx + n }

/-- Send something. -/
def State.send (s : State) (o : Out) : State := { s with sent := o :: s.sent }

/-! ### The log (20 R435, R436) -/

/-- The number of a code (Table 20-10). -/
def LogCode.num : LogCode → BitVec 16
  | .clockLost => 0x0001 | .bookSuperseded => 0x0002 | .noBookContext => 0x0003 | .accessRefused => 0x0004
  | .sensorDisagree => 0x0101 | .phaseOut => 0x0102 | .railDegraded => 0x0103 | .shed => 0x0104
  | .laneFail => 0x0201 | .portDegraded => 0x0202 | .linkHeld => 0x0203 | .branchLost => 0x0204
  | .authFail => 0x0205 | .decision => 0x0301 | .rehearsal => 0x0302 | .rehearsalMiss => 0x0303
  | .fallback => 0x0401 | .skipLimit => 0x0402 | .mismatch => 0x0501 | .replicaDiverge => 0x0502
  | .dupFallback => 0x0503 | .unchecked => 0x0504 | .uncorrectable => 0x0601 | .bankFail => 0x0602
  | .laneSuspect => 0x0603 | .reduceFail => 0x0604 | .hangGuilty => 0x0701 | .hangCleared => 0x0702
  | .stateLost => 0x0703 | .compRestart => 0x0801 | .compEscalate => 0x0802 | .updateHeld => 0x0803
  | .updateDropped => 0x0804 | .logSuppressed => 0x0805 | .superseded => 0x0806 | .heartbeatLost => 0x0807
  | .updateStaged => 0x0808 | .configWrite => 0x0809 | .other i => Config.unlistedCode i

/-- Sources of log entries: a component ID, or 0xFF for hardware (Table 20-9). -/
abbrev srcHw : Nat := 0xFF

/-- Put an entry into the ring without the rate limit. -/
def State.logPut (s : State) (d src : Nat) (code : LogCode) (data : List Nat) (flags tp : Nat := 0) : State :=
  { s with log := { s.log with
      next := s.log.next + 1,
      alert := if s.log.alert.isNone && decide (3 ≤ (Config.severity code.num.toNat).toNat) then some s.log.next
        else s.log.alert,
      ring := (⟨s.now 0, s.log.next, s.stepNum, code, d, src, flags, tp, data⟩ :: s.log.ring).take 16384 } }

/-- The entries of a source within the last second. -/
def State.recentOf (s : State) (key : Nat) : List Nat :=
  (Tab.get [] s.log.recent key).filter fun t => decide (s.now 0 < t + 1000000000)

/-- Write one log entry (R435), unless its source has written 4,096 in the last second (R436). -/
def State.logAt (s : State) (d src : Nat) (code : LogCode) (data : List Nat := []) (flags : Nat := 0) : State :=
  let key := d * 256 + src
  let r := s.recentOf key
  if r.length < 4096 then
    let s := { s with log := { s.log with recent := Tab.set [] s.log.recent key (s.now 0 :: r) } }
    s.logPut d src code data flags
  else
    let s := { s with log := { s.log with lost := Tab.upd 0 s.log.lost key (· + 1) } }
    s.incF 0 pgMgc 0x0A0 0 32 1

/-! ### Error bits (R90, Table 5-5) -/

/-- Set a bit of a page's ERR_STAT, count the event and raise the page's notification unless masked. -/
def State.setErr (s : State) (d pg bit : Nat) : State :=
  let mask := s.rdF d pg 0x038 bit 1
  let s := s.wrF d pg 0x030 bit 1 1
  let s := s.satF d pg 0x040 0 32 1
  if mask = 1 then s else s.send (.note (.err d pg bit))

/-! ### Rehearsals (16 R376, R377) -/

/-- The rehearsal on this part has injected its fault. -/
def State.rehInject (s : State) (r : RehRun) (place : Nat) : State :=
  { s with cue := { s.cue with reh := some { r with injected := some (s.now 0), place := place } } }

/-- The rehearsal's fault is found. -/
def State.rehFound (s : State) : State :=
  match s.cue.reh with
  | some r => if r.injected.isSome ∧ r.found.isNone then
      { s with cue := { s.cue with reh := some { r with found := some (s.now 0) } } } else s
  | none => s

/-- The rehearsal of a kind that is on, and has injected its fault or not. -/
def State.rehOn (s : State) (kind : Nat) (injected : Bool) : Option RehRun :=
  s.cue.reh.filter fun r => r.kind = kind && r.step = s.stepCur && r.injected.isSome = injected

/-! ### Fences -/

/-- Is a device in the fence list (RTR.FENCE0 to FENCE7)? -/
def State.fenced (s : State) (dev : Nat) : Bool := s.rdF 0 pgRtr (0x080 + 8 * (dev / 64)) (dev % 64) 1 = 1

/-- ATTEMPT of the round, and the part's own rank, 0xFFFF for a pool part. -/
def State.attempt (s : State) : Nat := s.rdF 0 pgCue 0x098 48 8
def State.ownRank (s : State) : Nat := ((s.cue.ranks.find? fun x => x.2 = s.ident.1).map (·.1)).getD 0xFFFF

/-- Send a Cue message (R363): type, and the header's ATTEMPT, RANK and STEP before the body's fields. -/
def State.cueSend (s : State) (dst mtype : Nat) (body : List Nat) : State :=
  s.send (.cue dst mtype ([s.attempt, s.ownRank, s.cue.step] ++ body))

/-- Devices of the live ranks, in rank order (R362). -/
def State.liveRanks (s : State) : List (Nat × Nat) := s.cue.ranks.filter fun x => !(s.fenced x.2)

/-! ### Units -/

/-- The state of a unit. -/
def State.unit (s : State) (k d ix : Nat) : UnitState := Tab.get (unitDflt (unitKey k d ix)) s.units (unitKey k d ix)

/-- Set the state of a unit. -/
def State.setUnit (s : State) (k d ix : Nat) (u : UnitState) : State :=
  { s with units := Tab.set (unitDflt (unitKey k d ix)) s.units (unitKey k d ix) u }

/-- Does an event of the history concern a unit, within the window of 2,592,000 s, outside rehearsals? -/
def histCounts (time kind d ix : Nat) (e : HistEvent) : Bool :=
  e.kind = kind && e.die = d && e.ix = ix && e.flags % 2 = 0 && decide (time < e.histTime + 2592000)

/-- Record an event against a unit (R351, R352): `e` gives what the rule knows of it; the unit goes DARK at the next
curtain where states apply to its kind and this is its third event within the window. -/
def State.histEvent (s : State) (kind d ix event : Nat) (e : HistEvent → HistEvent := id) : State :=
  let h := s.history
  let v : DieEnv := Tab.get {} s.dieEnv d
  let count := (h.events.filter (histCounts h.time kind d ix)).length + 1
  let fw := s.rdF 0 pgMgc 0x080 0 32
  let r := e { seq := h.next, histTime := h.time, devTime := s.now d, step := s.stepNum, kind := kind, die := d,
               ix := ix, event := event, verdict := 0, count := count, op := v.op, temp := v.temp,
               varith := v.varith, fw := fw, book := s.books.active.map (·.bookDigest) }
  let dark : Bool := decide (kind ≤ 3) && r.flags % 2 = 0 && (decide (3 ≤ count) || event = 3)
  let r := if dark ∧ r.verdict = 0 then { r with verdict := 1 } else r
  let key := unitKey (kind - 1) d ix
  let due := if dark ∧ ¬ h.due.contains key then h.due ++ [key] else h.due
  let s := { s with history := { h with next := h.next + 1, events := r :: h.events, due := due } }
  s.satF 0 pgWit 0x128 0 32 1

/-! ### Protection (R92, R93) -/

/-- Rights of the production image, Table 5-8: READ in bits 4:0 and WRITE in 12:8, each FW, MGMT, SYS, CTX, PEER. -/
def prodRights (k : PageKind) : Nat :=
  match k with
  | .die => 0b10111 + 0b00001 * 256
  | .rst => 0b00111 + 0b00111 * 256
  | .tim => 0b10111 + 0b00011 * 256
  | .stp => 0b00111 + 0b00101 * 256
  | .prot | .chg => 0b00111
  | .pwr => 0b00111 + 0b00011 * 256
  | .mgc => 0b00011 + 0b00001 * 256
  | .mbx => 0b00111 + 0b00101 * 256
  | .wit | .dup => 0b00111 + 0b00001 * 256
  | .cue => 0b10111 + 0b10001 * 256
  | .mxe | .vxe => 0b00111 + 0b00101 * 256
  | .su => 0b01111 + 0b01101 * 256
  | .shc | .apr => 0b00111 + 0b00001 * 256
  | .cp | .rtr | .seam => 0b10111 + 0b00011 * 256
  | .eth | .mgt | .pcie | .apc => 0b00111 + 0b00101 * 256

/-- PROT.ENTRYn as in force: the production image less the rights whose fuses were sensed blown (R93, R83). -/
def State.protEntry (s : State) (d pg : Nat) : Nat :=
  match pageKind d pg with
  | none => 0
  | some k => prodRights k &&& (maskN 13 ^^^ (Tab.get 0 s.sec.sensed.protRemove pg).toNat)

/-- The right bit of an origin in an entry; none for origins the table does not bind. -/
def protBit : Origin → Option Nat
  | .fw => some 0 | .mgmt => some 1 | .sys => some 2 | .ctx => some 3 | .peer => some 4
  | .fuse | .hw | .dbg => none

/-- May an origin write (or read) a page (R92)? DBG is accepted by no part (R12). -/
def State.protAllows (s : State) (d pg : Nat) (o : Origin) (write : Bool) : Bool :=
  match o with
  | .fuse | .hw => true
  | .dbg => false
  | _ =>
    match protBit o with
    | some b => bitsOf (s.protEntry d pg) (if write then b + 8 else b) 1 = 1
    | none => false

/-- An access that is not performed writes one log entry (R88, R92). -/
def State.logRefused (s : State) (d pg off : Nat) (o : Origin) : State :=
  s.logAt d srcHw .accessRefused [pg, off, o.code]

end Sys2Proof.Machine
end

