-- ==== Sys2Proof/Machine/Engines.lean ====
section
/-! DEFINITION. Small operations on the engines of a bay that several chapters share: signals and pending
deliveries (10 R219, R220), stopping an engine, ending a step early (16 R369), tracking entries (12 R285). -/

namespace Sys2Proof.Machine

/-! ### Access -/

/-- The key of bay `b` of die `d`. -/
def bayKey (d b : Nat) : Nat := d * 9 + b
/-- The key of a slot. -/
def slotKey (d b sl : Nat) : Nat := bayKey d b * 32 + sl

def State.mxeOf (s : State) (d b : Nat) : Mxe := Tab.get {} s.mxe (bayKey d b)
def State.setMxe (s : State) (d b : Nat) (m : Mxe) : State := { s with mxe := Tab.set {} s.mxe (bayKey d b) m }
def State.vxeOf (s : State) (d b : Nat) : Vxe := Tab.get {} s.vxe (bayKey d b)
def State.setVxe (s : State) (d b : Nat) (v : Vxe) : State := { s with vxe := Tab.set {} s.vxe (bayKey d b) v }
def State.slotOf (s : State) (d b sl : Nat) : SuSlot := Tab.get {} s.slots (slotKey d b sl)
def State.setSlot (s : State) (d b sl : Nat) (x : SuSlot) : State :=
  { s with slots := Tab.set {} s.slots (slotKey d b sl) x }
def State.gatherOf (s : State) (d b : Nat) : GatherQ := Tab.get {} s.gather (bayKey d b)
def State.setGather (s : State) (d b : Nat) (g : GatherQ) : State :=
  { s with gather := Tab.set {} s.gather (bayKey d b) g }

/-- A byte of staging. -/
def State.stg (s : State) (d b : Nat) (off : Nat) : Byte := Tab.get 0 s.staging (bayKey d b * 2 ^ 23 + off)

/-- Write bytes into staging from an offset; bytes past the 8 MiB are not written. -/
def stgWrite (t : Tab Byte) (k0 off : Nat) : List Byte → Tab Byte
  | [] => t
  | x :: xs => stgWrite (if off < 2 ^ 23 then Tab.set 0 t (k0 + off) x else t) k0 (off + 1) xs

def State.stgPutBytes (s : State) (d b off : Nat) (xs : List Byte) : State :=
  { s with staging := stgWrite s.staging (bayKey d b * 2 ^ 23) off xs }

/-- The logical bay that a physical bay runs (MXEn.LBAY). -/
def State.lbayOf (s : State) (d b : Nat) : Option Nat :=
  if s.rdF d (pgMxe b) 0x080 5 1 = 1 then some (s.rdF d (pgMxe b) 0x080 0 5) else none

/-- All bays of the part, die and bay. -/
def allBays : List (Nat × Nat) := (List.range 36).map fun k => (k / 9, k % 9)

/-- The physical bay of a logical bay (R122). -/
def State.bayOf (s : State) (lb : Nat) : Option (Nat × Nat) :=
  allBays.find? fun x => s.lbayOf x.1 x.2 = some lb

/-- Does the bay run the book context (R273)? A bay to which no context was switched runs it. -/
def State.isBook (s : State) (d b : Nat) : Bool :=
  let v := Tab.get 0 s.ctx.bays (bayKey d b)
  if v = 0 then true else (Tab.get {} s.ctx.ctxs (v - 1)).book

/-- Free bytes (entry 3): `n` bytes that nothing constrains. -/
def State.freeBytes (s : State) (n : Nat) : List Byte :=
  (List.range n).map fun i => (Config.freeValue (s.freeIdx + i)).setWidth 8

/-- The context a bay runs: its id; until one is switched in, the book context, or 0. The number 4,096 is no context: the
bay runs none. -/
def State.bayCtx (s : State) (d b : Nat) : Nat :=
  let v := Tab.get 0 s.ctx.bays (bayKey d b)
  if v = 0 then ((s.ctx.ctxs.find? fun x => x.2.book).map (·.1)).getD 0 else v - 1

/-- Is the context that the bay runs RESIDENT on the die (R277)? -/
def State.residentOn (s : State) (d b : Nat) : Bool :=
  decide (s.bayCtx d b < 4096) && (Tab.get {} s.ctx.resid (d * 4096 + s.bayCtx d b)).res = 2

/-- The device index of this part in addresses (20 R431, SET_IDENTITY); 0 while none is assigned (entry 37). -/
def State.device (s : State) : Nat := if s.ident.1 < 512 then s.ident.1 else 0

/-! ### The step -/

/-- The step is not certified at its curtain, for a reason of Table 16-7. -/
def State.noCert (s : State) (reason : Nat) : State :=
  if s.step.reasons.contains reason then s
  else { s with step := { s.step with reasons := s.step.reasons ++ [reason] } }

/-- As `noCert`, where the bay runs the book context. -/
def State.noCertBay (s : State) (d b reason : Nat) : State := if s.isBook d b then s.noCert reason else s

/-- HALT (R369): to the leader, or, where the part leads, relayed to every live member. -/
def State.sendHalt (s : State) (reason : Nat) : State :=
  let s := s.wrF 0 pgCue 0x028 5 1 1
  if s.leader = s.ident.1 then
    (s.liveRanks.filter fun x => x.2 ≠ s.ident.1).foldl (fun s x => s.cueSend x.2 0x04 [reason]) s
  else s.cueSend s.leader 0x04 [reason]

/-- The part ends its step before the curtain (R268, R342, R369, R470): its in-flight work is discarded as action 1
completes, and the leader learns it by HALT. -/
def State.endStep (s : State) (reason : Nat) : State :=
  let s := s.noCert reason
  if s.stepState = 1 ∧ s.step.ended = none then
    let s := { s with step := { s.step with ended := some reason } }
    (s.wrF 0 pgStp 0x0B0 0 3 2).sendHalt reason
  else s

/-- May engines issue work of the step (R28, R369)? -/
def State.running (s : State) : Bool := s.stepState = 1 && s.step.ended.isNone

/-- May anything issue on the die: no orderly power-down, trip, dead rail or shedding step 6 (03 R57, R61, R64;
19 R414)? -/
def State.issues (s : State) (d : Nat) : Bool :=
  s.alive d && decide (s.rdF d pgPwr 0x0E8 0 3 < 6)

/-- Is a context switch in progress on the bay (SU.BLK_STAT.SWITCHING)? -/
def State.switching (s : State) (d b : Nat) : Bool := s.rdF d (pgSu b) 0x028 1 1 = 1
def State.setSwitching (s : State) (d b : Nat) (on : Bool) : State := s.wrF d (pgSu b) 0x028 1 1 (if on then 1 else 0)

/-- May the bay issue work of its lists: the step is running for the book context, its context is
RESIDENT (R277), no switch is in progress (R280), and the die may issue? -/
def State.bayRunsWork (s : State) (d b : Nat) : Bool :=
  s.issues d && s.residentOn d b && !(s.switching d b) && (!(s.isBook d b) || s.running)

/-- The bay makes progress (18 R389): its watchdog counts from this device time. -/
def State.progress (s : State) (d b : Nat) : State :=
  { s with hang := { s.hang with last := Tab.put s.hang.last (bayKey d b) (s.now d) } }

/-! ### Tracking entries (R285) -/

def trackKey (d t : Nat) : Nat := d * 65536 + t
def State.trackOf (s : State) (d t : Nat) : Option Track := Tab.find s.ctx.tracks (trackKey d t)
def State.putTrack (s : State) (d t : Nat) (e : Track) : State :=
  { s with ctx := { s.ctx with tracks := Tab.put s.ctx.tracks (trackKey d t) e } }
def State.endTrack (s : State) (d t : Nat) : State :=
  { s with ctx := { s.ctx with tracks := Tab.del s.ctx.tracks (trackKey d t) } }

/-- The lowest track number free on a die, below 65,536. -/
def freeTrackFrom : Nat → Tab Track → Nat → Nat → Option Nat
  | 0, _, _, _ => none
  | _ + 1, [], _, t => some t
  | n + 1, (k, _) :: rest, base, t =>
    if k < base + t then freeTrackFrom (n + 1) rest base t
    else if k = base + t then freeTrackFrom n rest base (t + 1)
    else some t

def State.freeTrack (s : State) (d : Nat) : Option Nat := freeTrackFrom 65536 s.ctx.tracks (d * 65536) 0

/-- Tracking entries of a die that satisfy `p`. -/
def State.tracksOn (s : State) (d : Nat) (p : Track → Bool) : Nat :=
  (s.ctx.tracks.filter fun e => e.1 / 65536 = d && p e.2).length

def State.ctxGen (s : State) (id : Nat) : Nat := (Tab.get {} s.ctx.ctxs id).gen

/-- The device epoch (RST.EPOCH). -/
def State.epoch (s : State) : Nat := s.rdF 0 pgRst 0x098 0 8

/-- Open a tracking entry on a die for a request of a context: `f` gives what else it holds. None free, the request waits
(the state is unchanged). -/
def State.openTrack (s : State) (d id addr : Nat) (o : Owner) (remote data : Bool) (f : Track → Track) : State :=
  match s.freeTrack d with
  | none => s
  | some t => s.putTrack d t (f
      { epoch := s.epoch, ctx := id, gen := s.ctxGen id, addr := addr, issued := s.now d, owner := o, remote := remote,
        data := data })

/-! ### Signals and deliveries (R219, R220) -/

/-- Is a slot RUNNING or WAITING? -/
def SlotSt.active : SlotSt → Bool
  | .running | .waiting => true
  | _ => false

/-- The delivery count of a descriptor in force, and its first number. -/
def SuSlot.last (x : SuSlot) : Nat := match x.desc with | some (_, d) => x.k0 + d.deliveries | none => x.k0

def SuSlot.isFeeder (x : SuSlot) : Bool := match x.desc with | some (_, d) => d.dir = 0 && d.kind = 1 | none => false
def SuSlot.isWrite (x : SuSlot) : Bool := match x.desc with | some (_, d) => d.dir = 1 | none => false
/-- Does the slot write memory: WRITE or COPY? -/
def SuSlot.writes (x : SuSlot) : Bool := match x.desc with | some (_, d) => d.dir = 1 || d.dir = 2 | none => false
def SuSlot.isCompanion (x : SuSlot) : Bool := match x.desc with | some (_, d) => d.companion | none => false
def SuSlot.isPaired (x : SuSlot) : Bool := match x.desc with | some (_, d) => d.paired | none => false

/-- Memory-side bytes of one delivery. -/
def StreamDesc.memBytes (q : StreamDesc) : Nat :=
  match Fmt.ofCode (if q.dir = 1 then q.dstFmt else q.srcFmt) with
  | some f => q.perDelivery / max q.count0 1 * rowBytes f q.count0
  | none => 0

/-- The oldest delivery not released: for other kinds than FEEDER a delivery is released as it completes (R226). -/
def SuSlot.oldest (x : SuSlot) : Nat := if x.isFeeder then x.nRel else x.nDone

/-- Do signals and run-ahead let a request of delivery `n` issue, with which `k` memory-side bytes of the delivery have
issued? A WRITE's delivery is marked ready; a read or a COPY runs ahead by at most 4 MiB beyond the oldest delivery not
released (R226; entry 140). -/
def SuSlot.inWindow (x : SuSlot) (q : StreamDesc) (n k : Nat) : Bool :=
  if q.dir = 1 then decide (n < x.nReady)
  else decide (n ≤ x.oldest) || decide ((n - x.oldest - 1) * q.memBytes + min k q.memBytes ≤ 2 ^ 22)

/-- Is there ring room for delivery `n` of a FEEDER (R219, R226)? -/
def SuSlot.hasRoom (x : SuSlot) (n : Nat) : Bool := !x.isFeeder || decide (n < x.nRel + x.ring)

/-- RUNNING, or WAITING where ring room, signals or run-ahead stop every request (Table 10-4), or where deliveries are to
be fetched again first (R238). -/
def SuSlot.settle (x : SuSlot) : SuSlot :=
  if x.st = .running ∨ x.st = .waiting then
    let held : Bool := match x.desc with
      | some (_, q) => decide (x.nIss < x.last) && !(x.inWindow q x.nIss x.upto && x.hasRoom x.nIss)
      | none => false
    { x with st := if held || x.refetch then .waiting else .running }
  else x

/-- Take as many signal units as deliveries are there for them (R219): of a WRITE only while its arming runs. -/
def SuSlot.takeUnits (x : SuSlot) : SuSlot :=
  if x.isFeeder then
    let n := min x.sig (x.nDone - x.nRel)
    { x with sig := x.sig - n, nRel := x.nRel + n }.settle
  else if x.isWrite && (SlotSt.active x.st || x.st = .faulted) then
    let n := min x.sig (x.last - x.nReady)
    { x with sig := x.sig - n, nReady := x.nReady + n }.settle
  else x

/-! ### Lists and pairs (R213, R223) -/

/-- The stream list of a slot: record indices and descriptors, in section order. They are the book's, which runs under its
own context only (12 R273). -/
def State.streamList (s : State) (d b sl : Nat) : List (Nat × StreamDesc) :=
  if s.isBook d b = false then [] else
  match s.books.active, s.lbayOf d b with
  | some bk, some lb =>
    ((List.range bk.streams.length).zip bk.streams).filter fun x => x.2.lbay = lb && x.2.slot = sl
  | _, _ => []

/-- The slot's next descriptor. -/
def State.nextStream (s : State) (d b sl : Nat) : Option (Nat × StreamDesc) :=
  (s.streamList d b sl)[(s.slotOf d b sl).taken]?

/-- Is a REARM of the slot's persistent stream next? -/
def State.rearmNext (s : State) (d b sl : Nat) : Bool :=
  (match s.nextStream d b sl with | some (_, q) => q.isRearm | none => false) &&
    (match (s.slotOf d b sl).desc with | some (_, q) => q.persist | none => false)

/-- Is the slot's stream over: IDLE, or DONE with no REARM of it next (Table 10-4)? -/
def State.over (s : State) (d b sl : Nat) : Bool :=
  (s.slotOf d b sl).st = .idle || ((s.slotOf d b sl).st = .done && !(s.rearmNext d b sl))

/-- The other slot of the pair of which the slot's stream is one, while it is not over (R233). -/
def State.partner (s : State) (d b sl : Nat) : Option Nat :=
  let x := s.slotOf d b sl
  if s.over d b sl then none else if x.isPaired then some (sl + 1) else if x.isCompanion then some (sl - 1) else none

/-- The slot that was the pair partner of a stream that is DONE. -/
def State.partnerDone (s : State) (d b sl : Nat) : Option Nat :=
  let x := s.slotOf d b sl
  if x.st ≠ .done then none else if x.isPaired then some (sl + 1) else if x.isCompanion then some (sl - 1) else none

/-- Does the slot carry another's scales now? -/
def State.bound (s : State) (d b sl : Nat) : Bool := (s.slotOf d b sl).isCompanion && !(s.over d b sl)

/-- A companion's counts are its primary's (R223). -/
def SuSlot.follow (p x : SuSlot) : SuSlot :=
  { p with st := x.st, nDone := x.nDone, nRel := x.nRel, nReady := x.nReady, k0 := x.k0, arm := x.arm, ring := x.ring }

/-- Set a slot, and its companion after it. -/
def State.setPair (s : State) (d b sl : Nat) (x : SuSlot) : State :=
  let s := s.setSlot d b sl x
  if x.isPaired then s.setSlot d b (sl + 1) ((s.slotOf d b (sl + 1)).follow x) else s

/-- Signal a slot (R219, R223, R236). -/
def State.signal (s : State) (d b sl : Nat) : State :=
  let x := s.slotOf d b sl
  if x.st = .cancelling ∨ s.bound d b sl ∨ x.sig = 65535 then s.incF d (pgSu b) 0x0B8 0 32 1
  else s.setPair d b sl { x with sig := x.sig + 1 }.takeUnits

/-- Is there no pending delivery, or is it complete (R220)? -/
def SuSlot.pendingDone (x : SuSlot) : Bool :=
  match x.st with
  | .idle | .aborted | .cancelling | .done => true
  | _ => if x.isFeeder then x.nRel < x.nDone && !x.refetch else if x.isWrite then x.nReady ≤ x.nDone else x.last ≤ x.nDone

/-- Have all slots of a mask completed their pending deliveries (R123, R205)? -/
def State.waitDone (s : State) (d b mask : Nat) : Bool :=
  (List.range 32).all fun i => bitsOf mask i 1 = 0 || (s.slotOf d b i).pendingDone

/-- A wait that completed on a slot in ABORTED or CANCELLING of the book context (R220). -/
def State.waitMarks (s : State) (d b mask : Nat) : State :=
  if (List.range 32).any fun i =>
      bitsOf mask i 1 = 1 && ((s.slotOf d b i).st = .aborted || (s.slotOf d b i).st = .cancelling)
  then s.noCertBay d b 6 else s

/-- Do `f` on a slot and on its pair partner. -/
def State.onPair (s : State) (d b sl : Nat) (f : SuSlot → SuSlot) : State :=
  let p := s.partner d b sl
  let s := s.setSlot d b sl (f (s.slotOf d b sl))
  match p with
  | some p => s.setSlot d b p (f (s.slotOf d b p))
  | none => s

/-! ### Staging of a delivery -/

/-- The format of the slot's local side. -/
def StreamDesc.localFmt (d : StreamDesc) : Nat := if d.dir = 1 then d.srcFmt else d.dstFmt

/-- Staging offset and length of delivery `n` of a slot; nothing for kinds without a local side. -/
def SuSlot.delivRange (x : SuSlot) (n : Nat) : Option (Nat × Nat) :=
  match x.desc with
  | none => none
  | some (_, d) =>
    if d.dir = 2 ∨ (d.dir = 0 ∧ d.kind = 2) then none
    else match Fmt.ofCode d.localFmt with
      | none => none
      | some f =>
        let dz := d.delivBytes f
        let i := if d.dir = 0 ∧ d.kind = 1 then n % max d.ring 1 else n - x.k0
        some (d.localOff + i * dz, dz)

/-- Deliveries of a slot that are not completed: of a FEEDER those with room in the ring (R226). -/
def SuSlot.inFlight (x : SuSlot) : List Nat :=
  match x.desc with
  | none => []
  | some (_, d) =>
    let hi := if d.dir = 0 ∧ d.kind = 1 then min x.last (x.nRel + x.ring) else x.last
    (List.range (hi - x.nDone)).map (x.nDone + ·)

/-- Staging that deliveries not completed hold is undefined (R234 rule 4): free bytes. -/
def State.undefStaging (s : State) (d b : Nat) (x : SuSlot) : State :=
  x.inFlight.foldl (fun s n => match x.delivRange n with
    | none => s
    | some (off, len) => (s.stgPutBytes d b off (s.freeBytes len)).took len) s

/-- Keep what a WRITE's issued writes are formed from, before its staging is undefined. -/
def State.keepStaging (s : State) (d b sl : Nat) : State :=
  let x := s.slotOf d b sl
  if x.isWrite = false then s
  else
    let at' (r : Nat × Nat) : Nat × List Byte := (r.1, (List.range r.2).map fun i => s.stg d b (r.1 + i))
    s.setSlot d b sl { x with kept := (x.inFlight.filterMap x.delivRange).map at' }

/-- Requests of a slot to this part return: their tracking entries end. -/
def State.endOwnTracks (s : State) (d b sl : Nat) : State :=
  { s with ctx := { s.ctx with tracks := s.ctx.tracks.filter fun e => e.2.remote || e.2.owner ≠ .slot d b sl } }

/-- A slot goes to ABORTED (R230, R239): 2 uncorrectable data, 3 staging range, 5 another error response, 1 and 4 by
R233. -/
def State.abortSlot (s : State) (d b sl cause : Nat) : State :=
  let p := s.partner d b sl
  let s := (s.keepStaging d b sl).undefStaging d b (s.slotOf d b sl)
  let s := match p with | some p => (s.keepStaging d b p).undefStaging d b (s.slotOf d b p) | none => s
  let s := s.onPair d b sl fun x => { x with st := .aborted, cause := cause, part := {}, owes := x.writes, refetch := false }
  let s := (s.endOwnTracks d b sl).setErr d (pgSu b) 9
  let s := if cause = 2 then s.setErr d (pgSu b) 10 else if cause = 3 then s.setErr d (pgSu b) 11 else s
  s.noCert 6

/-! ### Engines that go on, or stop -/

/-- The descriptor a reference names in the active book. -/
def State.tileOf (s : State) (r : TileRef) : Option TileDesc :=
  match s.books.active with
  | none => none
  | some b => if r.fb then b.fallback[r.ix]? else b.tiles[r.ix]?

/-- Does a layer's range hold a descriptor: of TILE, or of FALLBACK? -/
def Layer.holds (l : Layer) (r : TileRef) : Bool :=
  if r.fb then decide (l.fbFirst ≤ r.ix ∧ r.ix < l.fbFirst + l.fbCount)
  else decide (l.tileFirst ≤ r.ix ∧ r.ix < l.tileFirst + l.tileCount)

/-- The index of the layer that a descriptor belongs to, and its record. -/
def State.layerOf (s : State) (r : TileRef) : Option (Nat × Layer) :=
  match s.books.active with
  | none => none
  | some b => ((List.range b.layers.length).zip b.layers).find? fun x => x.2.holds r

/-- When the work of a PHASE record comes in a step (02 R27): forward and backward passes in the order of the ORDER
section, then the collective, optimizer and checkpoint phases. -/
def Book.phasePlace (b : Book) (p : PhaseRec) : Nat :=
  if p.phase ≤ 1 then (b.order.findIdx? fun o => o.microBatch = p.microBatch && o.pass = p.phase).getD b.order.length
  else b.order.length + p.phase - 1

/-- When a TILE descriptor comes, by the PHASE record that it stands behind (R40). -/
def Book.tilePlace (b : Book) (i : Nat) : Nat :=
  (((b.phases.filter fun p => decide (p.tileIndex ≤ i)).getLast?).map b.phasePlace).getD 0

/-- When a descriptor comes in a step: one of FALLBACK with its layer. -/
def State.placeOf (s : State) (r : TileRef) : Nat :=
  match s.books.active with
  | none => 0
  | some b => b.tilePlace (if r.fb then ((s.layerOf r).map (·.2.tileFirst)).getD 0 else r.ix)

/-- The gate that a bay waits at once it has issued descriptor `r`, the rest of its list being `rest` (R173): the
layer's, where `r` is its last TILE descriptor of the layer. -/
def State.gateAfter (s : State) (r : TileRef) (rest : List TileRef) : Option Nat :=
  match s.layerOf r with
  | none => none
  | some (i, l) => if r.fb || rest.any (fun x => !x.fb && l.holds x) then none else some i

/-- An MXE passed to its next descriptor. -/
def State.mxeAdv (s : State) (m : Mxe) : Mxe :=
  { m with work := m.work.tail, syncing := false, gate := match m.work with | [] => none | r :: rest => s.gateAfter r rest }

/-- The MXE passes to its next descriptor. -/
def State.mxeNext (s : State) (d b : Nat) : State := s.setMxe d b (s.mxeAdv (s.mxeOf d b))

/-- Change the MXE or the VXE of a context on a bay: live, or in its save set where the bay runs another (06 R125; 09
R211). -/
def State.onSaved (s : State) (d b id : Nat) (f : SaveSet → SaveSet) : State :=
  match Tab.find s.ctx.saved (id * 64 + bayKey d b) with
  | some x => { s with ctx := { s.ctx with saved := Tab.put s.ctx.saved (id * 64 + bayKey d b) (f x) } }
  | none => s
def State.onMxe (s : State) (d b id : Nat) (f : Mxe → Mxe) : State :=
  if s.bayCtx d b = id then s.setMxe d b (f (s.mxeOf d b)) else s.onSaved d b id fun x => { x with mxe := f x.mxe }
def State.onVxe (s : State) (d b id : Nat) (f : Vxe → Vxe) : State :=
  if s.bayCtx d b = id then s.setVxe d b (f (s.vxeOf d b)) else s.onSaved d b id fun x => { x with vxe := f x.vxe }

/-- The id of the book context; 0 where none is defined. -/
def State.bookId (s : State) : Nat := ((s.ctx.ctxs.find? fun x => x.2.book).map (·.1)).getD 0

/-- Is a context the book context? -/
def State.isBookId (s : State) (id : Nat) : Bool := (Tab.get {} s.ctx.ctxs id).book

/-- The save set of the book context on a bay. -/
def State.bookSaved (s : State) (d b : Nat) : Option SaveSet := Tab.find s.ctx.saved (s.bookId * 64 + bayKey d b)

/-- The engines of the book context on a bay: live, or in its save set where the bay runs another context or none. -/
def State.bookMxe (s : State) (d b : Nat) : Mxe := if s.isBook d b then s.mxeOf d b else ((s.bookSaved d b).map (·.mxe)).getD {}
def State.bookVxe (s : State) (d b : Nat) : Vxe := if s.isBook d b then s.vxeOf d b else ((s.bookSaved d b).map (·.vxe)).getD {}

/-- Change the MXE of the book context on a bay. -/
def State.onBookMxe (s : State) (d b : Nat) (f : Mxe → Mxe) : State :=
  if s.isBook d b then s.setMxe d b (f (s.mxeOf d b)) else s.onSaved d b s.bookId fun x => { x with mxe := f x.mxe }

/-- Counters of beats and cycles advance by what timing makes it: free values (entry 77). -/
def State.stalls (s : State) (d pg : Nat) (offs : List Nat) : State :=
  offs.foldl (fun s off => (s.incF d pg off 0 64 s.free.toNat).took 1) s

/-- The instruction word at PC of the program in progress (R203); none where no program is. -/
def Vxe.insn (v : Vxe) : Option Nat := v.prog.bind fun p => (p.insns[v.regs.pc]?).map (·.toNat)

/-- Is a word WAIT (Table 9-4)? -/
def isWait (w : Nat) : Bool := bitsOf w 23 9 = 0xA * 32 + 0x08

/-- The VXE completes an instruction that goes on to the next. -/
def State.vxeNext (s : State) (d b : Nat) (r : VxeRegs) : State :=
  let v := s.vxeOf d b
  let s := s.setVxe d b { v with regs := { r with pc := r.pc + 1 }, syncing := false }
  (s.incF d (pgVxe b) 0x090 0 64 1).progress d b

/-- A fault of R208 with its cause of Table 9-10, of the context `id` on the bay. -/
def State.vxeStop (s : State) (d b id cause : Nat) : State :=
  let pc := if s.bayCtx d b = id then (s.vxeOf d b).regs.pc
    else ((Tab.find s.ctx.saved (id * 64 + bayKey d b)).map (·.vxe.regs.pc)).getD 0
  let s := s.onVxe d b id fun v => { v with faulted := true, syncing := false, queue := [] }
  let s := s.wr d (pgVxe b) 0x0B0 (pc % 65536 + cause * 2 ^ 16 + 2 ^ 20)
  s.setErr d (pgVxe b) (if cause = 4 then 11 else 9)

/-- A fault of R208 of the program that runs. -/
def State.vxeFault (s : State) (d b cause : Nat) : State := (s.vxeStop d b (s.bayCtx d b) cause).noCertBay d b 6

/-- The reason of R470 for an error response. -/
def syncReason (st : Status) (remote : Bool) : Nat :=
  if st = .uncorrectable then 1 else if remote then 3 else 6

/-- Is a context the one that runs the book: as the context table has it, or as the bay has it that runs it? -/
def State.bookCtx (s : State) (d b id : Nat) : Bool :=
  if s.bayCtx d b = id then s.isBook d b else (Tab.get {} s.ctx.ctxs id).book

/-- R470: an error response to a semaphore wait or add of an engine, of the context `id`. The step of the book context ends
with R470's reason before the stop leaves its own. -/
def State.syncError (s : State) (d b id : Nat) (vxe : Bool) (st : Status) (remote : Bool) : State :=
  let book := s.bookCtx d b id
  let s := if book then s.endStep (syncReason st remote) else s
  let s := if vxe then s.vxeStop d b id 7
    else (s.onMxe d b id fun m => { m with stopped := true, syncing := false }).setErr d (pgMxe b) 14
  if book then s.noCert 6 else s

/-- The answer of a semaphore wait or add reaches the engine of the context that issued it, on the bay or in its save
set. -/
def State.syncDone (s : State) (d b id : Nat) (vxe : Bool) : State :=
  if vxe then
    let s := s.onVxe d b id fun v => { v with regs := { v.regs with pc := v.regs.pc + 1 }, syncing := false }
    let s := if s.bayCtx d b = id then s else s.onSaved d b id fun x => { x with vDone := x.vDone + 1 }
    (s.incF d (pgVxe b) 0x090 0 64 1).progress d b
  else s.onMxe d b id s.mxeAdv

/-- A slot receives an error response (R239, R268, R369): the step of the book context ends. Only a slot in RUNNING or
WAITING is aborted (Table 10-4), or one in FAULTED that fetches again (R238); to any other the request has returned (R235). -/
def State.slotError (s : State) (d b sl : Nat) (st : Status) (remote : Bool) : State :=
  let book := s.isBook d b
  let x := s.slotOf d b sl
  if SlotSt.active x.st = false ∧ (x.st ≠ .faulted ∨ x.refetch = false) then s
  else
    let s := s.abortSlot d b sl (if st = .uncorrectable then 2 else 5)
    if book then (if st = .uncorrectable then s.endStep 1 else if remote then s.endStep 3 else s) else s

/-- Deliver an answer to what waits for it, of the context `id` (R315). -/
def State.deliver (s : State) (o : Owner) (id : Nat) (st : Status) (remote : Bool) : State :=
  match o with
  | .mxe d b => if st = .ok then s.syncDone d b id false else s.syncError d b id false st remote
  | .vxe d b => if st = .ok then s.syncDone d b id true else s.syncError d b id true st remote
  | .slot d b sl => if st = .ok then s else s.slotError d b sl st remote
  | .gather _ _ => if st = .ok then s else s.endStep (syncReason st remote)
  | _ => s

end Sys2Proof.Machine
end

