-- ==== Sys2Proof/Machine/Ports.lean ====
section
/-! DEFINITION. The ports that issue requests (10 R241, R242; 14 R317, R325): their order, and their window on requests to
other parts. -/

namespace Sys2Proof.Machine

/-- The index of a port in the state's table. -/
def portIx : SpPort → Nat
  | .su d b => bayKey d b
  | .cores d => 36 + d
  | .cue => 40
  | .router p => 41 + p

/-- The die of a port. -/
def spDie : SpPort → Nat
  | .su d _ => d
  | .cores d => d
  | .cue => 0
  | .router p => portDie p

/-- The index of the port that a request was issued at: an engine's, a slot's and a gather round's is the SU's of the bay. -/
def Owner.portIx : Owner → Option Nat
  | .port p => some (Machine.portIx p)
  | .mxe d b | .vxe d b | .slot d b _ | .gather d b => some (bayKey d b)
  | _ => none

def State.portAt (s : State) (ix : Nat) : SpPortSt := Tab.get {} s.ports ix
def State.portOf (s : State) (p : SpPort) : SpPortSt := s.portAt (portIx p)
def State.setPort (s : State) (p : SpPort) (x : SpPortSt) : State :=
  { s with ports := Tab.set {} s.ports (portIx p) x }

/-! ### The window (R325) -/

/-- WIN_MAX, WIN_MIN in bytes and the period in ns (RTR.MARK_CFG of the port's die). -/
def State.winMax (s : State) (d : Nat) : Nat := s.rdF d pgRtr 0x0D0 16 8 * 1024
def State.winMin (s : State) (d : Nat) : Nat := s.rdF d pgRtr 0x0D0 24 8 * 1024
def State.winPeriod (s : State) (d : Nat) : Nat := s.rdF d pgRtr 0x0D0 32 8 * 1000

/-- Bytes of the control and cut-through requests of a port that are outstanding to other parts. -/
def State.portOut (s : State) (ix : Nat) : Nat :=
  ((s.ctx.tracks.filter fun e => e.2.windowed && e.2.owner.portIx = some ix).map (·.2.bytes)).sum

/-- Would a request take the outstanding bytes of a port above its window, which is WIN_MAX until an ECHO? -/
def State.overWindow (s : State) (d ix n : Nat) : Bool := decide ((s.portAt ix).win.getD (s.winMax d) < s.portOut ix + n)

/-! ### Order (10 R242; 14 R317) -/

/-- The cut-through route bank in use. -/
def State.bank (s : State) : Nat := s.rdF 0 pgRtr 0x028 0 1

/-- Is a request of a port to the home of an address, its DEVICE and DIE (11 R245), outstanding on the other route bank? -/
def State.bankOpen (s : State) (ix a : Nat) : Bool :=
  s.ctx.tracks.any fun e => e.2.windowed && e.2.bank ≠ s.bank && e.2.owner.portIx = some ix && e.2.addr / 2 ^ 38 % 2 ^ 11 = a / 2 ^ 38 % 2 ^ 11

/-- May a control or cut-through request of `n` bytes issue at a port towards another part (R317, R325)? -/
def State.mayLeave (s : State) (d ix a n : Nat) : Bool := !(s.overWindow d ix n) && !(s.bankOpen ix a)

/-- Is an earlier request of the port to the same home of this part still to be performed there (R242)? -/
def State.behind (s : State) (d ix a : Nat) (before : Nat → Bool) : Bool :=
  s.ctx.tracks.any fun e => e.1 / 65536 = d && !e.2.remote && !e.2.performed && before e.2.seq &&
    (match e.2.owner with | .port p => portIx p = ix | _ => false) && e.2.addr / 2 ^ 38 % 2 ^ 11 = a / 2 ^ 38 % 2 ^ 11

end Sys2Proof.Machine
end

