-- ==== Sys2Proof/Machine/Fabric.lean ====
section
/-! DEFINITION. What the part sends over the fabric: packets as bytes (14 R312, R313, R331), the output queue of a port, flits,
credits and the retry buffer (13 R293 to R297), circuits and cut-through (14 R318 to R333). -/

namespace Sys2Proof.Machine

/-! ### A port's registers and records -/

def State.link (s : State) (p : Nat) : Link := Tab.get {} s.fabric.links p
def State.setLink (s : State) (p : Nat) (l : Link) : State :=
  { s with fabric := { s.fabric with links := Tab.set {} s.fabric.links p l } }

/-- A field of a port's page, and its writing. -/
def State.cpF (s : State) (p off lo n : Nat) : Nat := s.rdF (portDie p) (pgCp p) off lo n
def State.setCp (s : State) (p off lo n v : Nat) : State := s.wrF (portDie p) (pgCp p) off lo n v
def State.cpErr (s : State) (p bit : Nat) : State := s.setErr (portDie p) (pgCp p) bit

/-- Link state (Table 13-4): 0 DOWN, 1 TRAINING, 2 HELLO, 3 VCT, 4 ADMITTED, 5 RETRAIN, 6 HELD. -/
def State.linkSt (s : State) (p : Nat) : Nat := s.cpF p 0x028 0 3
def State.setLinkSt (s : State) (p v : Nat) : State := s.setCp p 0x028 0 3 v

/-- Show how many flits the retry buffer holds (CREDIT_STAT). -/
def State.syncRetry (s : State) (p : Nat) : State := s.setCp p 0x0D8 32 11 (s.link p).retry.length

/-- Credits of a VC, and the size of its receive buffer (R295). -/
def State.credits (s : State) (p vc : Nat) : Nat := if vc = 0 then s.cpF p 0x0D8 0 7 else s.cpF p 0x0D8 16 9
def State.setCredits (s : State) (p vc n : Nat) : State := if vc = 0 then s.setCp p 0x0D8 0 7 n else s.setCp p 0x0D8 16 9 n
def vcBuffer (vc : Nat) : Nat := if vc = 0 then 64 else 384

/-! ### Packets as bytes (Tables 14-2 to 14-4) -/

/-- The first `n` bytes of a list, with zeros where it has fewer. -/
def padTo (n : Nat) (xs : List Byte) : List Byte := xs.take n ++ List.replicate (n - xs.length) 0

/-- The tag of a request that this part issues, and its address. -/
def State.ownReq (s : State) (d t id a : Nat) : Req :=
  { src := none, die := Fin.ofNat 4 d, track := BitVec.ofNat 16 t, epoch := BitVec.ofNat 8 s.epoch,
    gen := BitVec.ofNat 8 (s.ctxGen id), ctx := Fin.ofNat 4096 id, addr := BitVec.ofNat 52 a,
    issue := BitVec.ofNat 32 (s.now d / 256), w := { origin := .ctx, die := Fin.ofNat 4 d } }

/-- The device that issued a request: SRC, this part's own where none is named. -/
def State.srcDev (s : State) (r : Req) : Nat := (r.src.map (·.val)).getD s.device
/-- SRC of a header: issuing device and die (Table 14-2). -/
def State.srcOf (s : State) (r : Req) : Nat := s.srcDev r + r.die.val * 2 ^ 9

/-- PFLAGS. -/
def packetFlags (k : Packet) : Nat :=
  (if k.req.mark then 1 else 0) + (if k.echo then 2 else 0) + (if k.tgen then 4 else 0) +
    if k.control then k.seg % 8 * 8 + (if k.last then 64 else 0) else (if k.conf then 8 else 0) + if k.ct then 16 else 0

/-- Bytes of a packet. -/
def packetSize (k : Packet) : Nat := if k.control then 64 else 32 + k.length

/-- A packet as it stands in the byte stream of its VC. -/
def State.packetBytes (s : State) (k : Packet) : List Byte :=
  let r := k.req
  let addr := leBytes 8 (r.addr.toNat + r.ctx.val * 2 ^ 52)
  let tag := leBytes 2 r.track.toNat ++ leBytes 1 r.epoch.toNat ++ leBytes 1 r.gen.toNat
  let head := leBytes 1 k.ptype.toNat ++ leBytes 1 (packetFlags k)
  if k.control then
    let pre := if k.seg = 0 ∧ k.ptype ≠ 6 then leBytes 4 r.issue.toNat ++ leBytes 1 k.op ++ leBytes 1 0 ++ leBytes 2 k.length
      else []
    head ++ leBytes 2 (s.srcOf r) ++ tag ++ addr ++ padTo 48 (pre ++ k.data)
  else
    head ++ leBytes 2 k.flow.toNat ++ leBytes 2 (s.srcOf r) ++ leBytes 2 k.length ++ addr ++ tag ++ leBytes 2 k.seq.toNat ++
      leBytes 2 0 ++ leBytes 4 r.issue.toNat ++ leBytes 4 k.aux ++ padTo k.length k.data

/-- Segments of a transfer with `n` bytes of data: 40 in the first, 48 in each further one (R312). -/
def segmentsOf (n : Nat) : Nat := if n ≤ 40 then 1 else 1 + (n - 40 + 47) / 48

/-- The train of a control transfer that carries data. -/
def trainOf (k : Packet) (data : List Byte) : List Packet :=
  let n := segmentsOf data.length
  (List.range n).map fun i =>
    { k with seg := i, last := decide (i + 1 = n), data := if i = 0 then data.take 40 else (data.drop (40 + 48 * (i - 1))).take 48 }

/-- A request, whose age every hop checks (R316); CUE and LOST carry no request. -/
def packetRequest (k : Packet) : Bool :=
  let t := k.ptype.toNat
  (1 ≤ t && t ≤ 5) || (0x10 ≤ t && t ≤ 0x13)

/-- A data-class request, which a lost branch answers LOST (R329). -/
def packetLossy (k : Packet) : Bool := decide (0x10 ≤ k.ptype.toNat ∧ k.ptype.toNat ≤ 0x13)

/-- The age of a packet at a die, in units of 256 ns. -/
def State.hopAge (s : State) (d : Nat) (k : Packet) : Nat := (s.now d / 256 + 2 ^ 32 - k.req.issue.toNat) % 2 ^ 32

/-! ### Slots (R320, R324) -/

/-- The slot of the frame that runs at a die, and whether it starts now (R320): 1,024 slots of 21 ns. -/
def State.slotNow (s : State) (d : Nat) : Nat := s.now d % 21504 / 21
def State.slotStarts (s : State) (d : Nat) : Bool := s.now d % 21504 % 21 = 0

/-- Does the flow own a slot on a port (R320, Table 14-8)? -/
def State.ownsSlot (s : State) (flow port slot : Nat) : Bool :=
  s.fabric.sched.any fun r => r.flow = flow && r.port = port && decide (r.start ≤ slot ∧ slot < r.start + r.count)

/-- Does no flow own the slot that runs at a port (R324)? -/
def State.slotFree (s : State) (p : Nat) : Bool :=
  let n := s.slotNow (portDie p)
  !(s.fabric.sched.any fun r => r.port = p && decide (r.start ≤ n ∧ n < r.start + r.count))

/-- Does a packet take a free slot: a cut-through data packet on an ADMITTED port (R324)? -/
def State.inFreeSlot (s : State) (p : Nat) (k : Packet) : Bool := !k.control && k.ct && s.linkSt p = 4

/-! ### Flits (R292 to R297) -/

def packetVc (k : Packet) : Nat := if k.control then 0 else 1

/-- The 252 bytes of a flit that its CRC covers (Table 13-2). -/
def flitBody (ftype start seq vc ack credit : Nat) (payload : List Byte) : List Byte :=
  leBytes 1 ftype ++ leBytes 1 start ++ leBytes 2 (seq + vc * 2 ^ 12) ++ leBytes 2 ack ++ leBytes 2 credit ++ padTo 244 payload

/-- A flit with its CRC. -/
def flitBytes (ftype start seq vc ack credit : Nat) (payload : List Byte) : List Byte :=
  let b := flitBody ftype start seq vc ack credit payload
  b ++ leBytes 4 (crc32 b)

/-- The ACK field: the last number taken in order, valid once one was. -/
def Link.ackField (l : Link) : Nat := if l.heard then (l.rxNext + 4095) % 4096 + 2 ^ 12 else 0

/-- The CREDIT field: what is owed of one VC, VC 0 first. -/
def Link.creditField (l : Link) : Nat :=
  if 0 < l.owe0 then min 1023 l.owe0 + 2 ^ 11 else if 0 < l.owe1 then min 1023 l.owe1 + 2 ^ 10 + 2 ^ 11 else 0

/-- The credits that a flit returns are owed no more. -/
def Link.paid (l : Link) : Link :=
  if 0 < l.owe0 then { l with owe0 := l.owe0 - min 1023 l.owe0 } else { l with owe1 := l.owe1 - min 1023 l.owe1 }

/-- Send a flit, with ACK and the credits that are owed. -/
def State.flitOut (s : State) (p ftype start seq vc : Nat) (payload : List Byte) : State :=
  let l := s.link p
  (s.setLink p l.paid).send (.flit p (flitBytes ftype start seq vc l.ackField l.creditField payload))

/-- Send a sequenced flit of the retry buffer, for the first time or again. -/
def State.txOut (s : State) (p : Nat) (f : TxFlit) : State :=
  s.flitOut p (if f.lctrl then 3 else 1) f.start f.seq f.vc f.payload

/-- An IDLE flit: ACK and CREDIT; SEQ holds the next number to be sent. -/
def State.idleOut (s : State) (p : Nat) : State := s.flitOut p 0 0xFF (s.link p).txNext 0 []

/-- A sequenced flit enters the retry buffer and is sent. -/
def State.sendFlit (s : State) (p : Nat) (f : TxFlit) : State :=
  let l := s.link p
  let f := { f with seq := l.txNext }
  ((s.setLink p { l with retry := l.retry ++ [f], txNext := (l.txNext + 1) % 4096 }).syncRetry p).txOut p f

/-! ### Lost branches (R329, R330) -/

/-- A part learns of a lost branch (R330): PARTIAL for the step, and one log entry per flow. -/
def State.branchLost (s : State) (d flow port nbr : Nat) : State :=
  let s := foldNat 4 (fun s x => s.wrF x pgRtr 0x028 4 1 1) s
  let s := { s with step := { s.step with partial_ := true } }.noCert 5
  let s := s.wr d pgRtr 0x108 (flow % 65536 + port % 32 * 2 ^ 16 + nbr % 512 * 2 ^ 21)
  if s.fabric.lostLog.any (·.1 = flow) then s
  else
    { s with fabric := { s.fabric with lostLog := (flow, port, nbr) :: s.fabric.lostLog } }.logAt d srcHw .branchLost
      [flow, port, nbr]

/-- The neighbour's device on a port; 0 where none is known. -/
def State.nbrDev (s : State) (p : Nat) : Nat := ((s.link p).nbr.map (·.device.toNat)).getD 0

/-! ### The output queue (R321, R324, R325) -/

/-- Flits of a packet that begins in a flit of its own. -/
def packetFlits (k : Packet) : Nat := (packetSize k + 243) / 244

/-- Flits that wait at a port in the class of a packet. -/
def State.queuedFlits (s : State) (p : Nat) (k : Packet) : Nat :=
  (((s.link p).queue.filter fun x => x.pk.control = k.control).map fun x => packetFlits x.pk).sum

/-- MARK on a control or cut-through packet that finds a long queue at its output (R325). -/
def State.markPacket (s : State) (p : Nat) (k : Packet) : State × Packet :=
  let d := portDie p
  if (k.control || k.ct) && decide (s.rdF d pgRtr 0x0D0 0 10 < s.queuedFlits p k) then
    (s.incF d pgRtr 0x0E8 0 32 1, { k with req := { k.req with mark := true } })
  else (s, k)

/-- Put a packet into the queue of a port. -/
def State.enqueue (s : State) (p : Nat) (q : QPk) : State :=
  let x := s.markPacket p q.pk
  x.1.setLink p { x.1.link p with queue := (x.1.link p).queue ++ [{ q with pk := x.2 }] }

/-- The cut-through port to a device, in the bank RTR.BLK_STAT.TGEN names (R323); none where it has no route. -/
def State.route (s : State) (dev : Nat) : Option Nat :=
  let v := Tab.get 0 s.routes (s.bank * 512 + dev)
  if v / 32 % 2 = 1 then some (v % 32) else none

/-- Issue a control packet, or a data packet by cut-through: CT and TGEN are the issuer's (R323). Without a route it is not sent
(R311); one to this part itself never leaves it (R310). -/
def State.sendCt (s : State) (d dev : Nat) (k : Packet) : State :=
  let k := { k with ct := !k.control, tgen := decide (s.bank = 1), flow := 0 }
  if dev = s.device then s.send (.packet 20 k)
  else match s.route dev with
  | none => s.setErr d pgRtr 14
  | some 20 => s.send (.packet 20 k)
  | some p => s.enqueue p { pk := k }

/-- A request packet on a lost branch is answered LOST, which a hop sends to SRC by cut-through, with MARK as ECHO (R325, R329);
one older than 20 ms is discarded by age (R333). Other packets get no answer. -/
def State.answerLost (s : State) (p : Nat) (k : Packet) (leaves : Nat) : State :=
  let d := portDie p
  if !(packetLossy k) then s
  else if 78125 < s.hopAge d k then (s.incF d pgRtr 0x0F0 0 16 1).setErr d pgRtr 10
  else
    let s := s.incF d pgRtr 0x0F0 32 16 1
    let s := (s.setErr d pgRtr 12).branchLost d k.flow.toNat p (s.nbrDev p)
    s.sendCt d (s.srcDev k.req)
      { ptype := 0x87, control := true, req := { k.req with mark := false }, echo := k.req.mark, op := 3, length := leaves }

/-- A copy for a lost branch is dropped; for a request, LOST goes to its sender. -/
def State.dropBranch (s : State) (p : Nat) (k : Packet) (leaves : Nat) : State :=
  if packetLossy k then s.answerLost p k leaves
  else
    let s := s.incF (portDie p) pgRtr 0x0F0 32 16 1
    (s.setErr (portDie p) pgRtr 12).branchLost (portDie p) k.flow.toNat p (s.nbrDev p)

/-- Packets on circuits towards a fenced neighbour are dropped at the head of the queue (R333). -/
def State.fenceDrop (s : State) (p : Nat) : State :=
  let l := s.link p
  let out (x : QPk) : Bool := !x.pk.control && !x.pk.ct
  match l.nbr with
  | some h =>
    if s.fenced h.device.toNat ∧ (l.queue.any out) = true then
      let gone := l.queue.filter out
      let s := s.setLink p { l with queue := l.queue.filter fun x => !(out x) }
      gone.foldl (fun s x => s.dropBranch p x.pk x.leaves) s
    else s
  | none => s

/-! ### Starting packets (R295, R320, R321, R324) -/

/-- Bytes of a VC that are begun and in no flit. -/
def Link.pendBytes (l : Link) (vc : Nat) : Nat :=
  ((l.begun.filter fun x => packetVc x.1.pk = vc).map fun x => packetSize x.1.pk - x.2).sum

/-- Is the link up for a packet: VCT or ADMITTED, for a circuit packet ADMITTED, its block not CLOSING (R301, R309)? -/
def State.linkUp (s : State) (p : Nat) (k : Packet) : Bool :=
  ((s.linkSt p = 3 && (k.control || k.ct)) || s.linkSt p = 4) && s.cpF p 0x018 0 3 ≠ 3

/-- May a packet start onto its link now: up, a control or cut-through packet with credits for all of its flits, a cut-through
data packet on an ADMITTED port in a free slot (R324), an injected circuit packet with a payload as a slot of its flow starts,
one to a slot (R320)? -/
def State.canStart (s : State) (p : Nat) (q : QPk) : Bool :=
  let d := portDie p
  let vc := packetVc q.pk
  s.linkUp p q.pk &&
    (!(q.pk.control || q.pk.ct) || decide (((s.link p).pendBytes vc + packetSize q.pk + 243) / 244 ≤ s.credits p vc)) &&
    (!(s.inFreeSlot p q.pk) || s.slotFree p) &&
    match q.gate with
    | some f => s.slotStarts d && s.ownsSlot f p (s.slotNow d) && (s.link p).slotAt ≠ some (s.now d)
    | none => true

/-- The order that a waiting packet keeps: that of its class, on a circuit that of its flow (R317). -/
def QPk.line (q : QPk) : Nat := if q.pk.control then 0 else if q.pk.ct then 1 else 2 + q.pk.flow.toNat

/-- The first packet that may start, of those that no earlier one of their line keeps waiting. -/
def firstStart (ok : QPk → Bool) : List QPk → List Nat → Option QPk
  | [], _ => none
  | x :: xs, seen =>
    if seen.contains x.line then firstStart ok xs seen
    else if ok x then some x else firstStart ok xs (x.line :: seen)

/-- Start a packet: its bytes follow those of its VC. -/
def State.startPk (s : State) (p : Nat) (q : QPk) : State :=
  let l := s.link p
  let s := s.setLink p { l with queue := l.queue.erase q, begun := l.begun ++ [(q, 0)],
                                slotAt := if q.gate.isSome then some (s.now (portDie p)) else l.slotAt }
  let s := if s.inFreeSlot p q.pk then s.incF (portDie p) pgRtr 0x0F8 32 32 1 else s
  s.send (.packet p q.pk)

/-- What the next flit of a VC carries, with `room` bytes left from offset `off`: its bytes, the offset of the first packet
that begins in it, the packets that end in it, and what is left of the stream. -/
def State.cut (s : State) (room off : Nat) : List (QPk × Nat) → List Byte × Option Nat × List (Packet × Nat) × List (QPk × Nat)
  | [] => ([], none, [], [])
  | (q, n) :: xs =>
    if room = 0 then ([], none, [], (q, n) :: xs)
    else
      let b := (s.packetBytes q.pk).drop n
      let first := if n = 0 then some off else none
      if b.length ≤ room then
        let r := s.cut (room - b.length) (off + b.length) xs
        (b ++ r.1, first.orElse fun _ => r.2.1, (q.pk, q.leaves) :: r.2.2.1, r.2.2.2)
      else (b.take room, first, [], (q, n + room) :: xs)

/-- Send the next flit of a VC: packets follow one another in its bytes (R295). -/
def State.emitFlit (s : State) (p vc : Nat) : State :=
  let l := s.link p
  let c := s.cut 244 0 (l.begun.filter fun x => packetVc x.1.pk = vc)
  let s := s.setLink p { l with begun := l.begun.filter (fun x => packetVc x.1.pk ≠ vc) ++ c.2.2.2 }
  let s := s.setCredits p vc (s.credits p vc - 1)
  (s.sendFlit p { seq := 0, vc := vc, lctrl := false, start := c.2.1.getD 0xFF, payload := c.1, pks := c.2.2.1 }).incF
    (portDie p) (pgCp p) 0x0C0 0 64 1

/-- May the link send a flit of a VC whose bytes wait: up, with a credit and room in the retry buffer (R295, R296)? -/
def State.flitReady (s : State) (p vc : Nat) : Bool :=
  decide (0 < (s.link p).pendBytes vc) && (s.linkSt p = 3 || s.linkSt p = 4) && decide (0 < s.credits p vc) &&
    decide ((s.link p).retry.length < 1024)

/-- The next packet of a VC to start, while its stream does not fill a flit. -/
def State.nextStart (s : State) (p vc : Nat) : Option QPk :=
  if 244 ≤ (s.link p).pendBytes vc then none
  else firstStart (s.canStart p) ((s.link p).queue.filter fun q => packetVc q.pk = vc) []

/-- Start packets and send flits while it can be, the control class before the data class (R295). -/
def pumpLink : Nat → State → Nat → State
  | 0, s, _ => s
  | n + 1, s, p =>
    match s.nextStart p 0 with
    | some q => pumpLink n (s.startPk p q) p
    | none =>
      if s.flitReady p 0 then pumpLink n (s.emitFlit p 0) p
      else match s.nextStart p 1 with
        | some q => pumpLink n (s.startPk p q) p
        | none => if s.flitReady p 1 then pumpLink n (s.emitFlit p 1) p else s

def State.pump (s : State) (p : Nat) : State :=
  let s := s.fenceDrop p
  pumpLink (12 * ((s.link p).queue.length + (s.link p).begun.length)) s p

/-- Give a packet to a port. -/
def State.toPort (s : State) (p : Nat) (q : QPk) : State := (s.enqueue p q).pump p

/-! ### Circuits (R318 to R321, R328 to R331) -/

/-- The flow entry of a packet that arrives on a port. -/
def State.flowEntry (s : State) (flow inp : Nat) : Option CircuitRec :=
  s.fabric.flows.find? fun c => c.flow = flow && c.inPort = inp

/-- The entry that delivers a flow here (R318). -/
def State.delivering (s : State) (flow : Nat) : Option CircuitRec :=
  s.fabric.flows.find? fun c => c.flow = flow && c.outs.any (·.1 = 20)

/-- Is the branch behind a port lost (R329)? During a retrain of an ADMITTED link its packets wait (R299). -/
def State.branchDead (s : State) (p : Nat) : Bool :=
  !(s.linkSt p = 4 || (s.linkSt p = 5 && (s.link p).back = 4)) ||
    (match (s.link p).nbr with | some h => s.fenced h.device.toNat | none => true)

/-- Put a copy with its label onto a port; one that must wait is counted (R321). -/
def State.onto (s : State) (d p label : Nat) (q : QPk) : State :=
  let q := { q with pk := { q.pk with flow := BitVec.ofNat 16 label } }
  if s.branchDead p then s.dropBranch p q.pk q.leaves
  else
    let goes := s.canStart p q && !((s.link p).queue.any fun x => x.line = q.line)
    let s := if goes || q.gate.isSome then s else s.incF d pgRtr 0x0F8 0 32 1
    s.toPort p q

/-- Forward a circuit packet to every output of its entry (R321, R328). A copy delivered here is performed, and a
request counted, by the home's own command. -/
def State.forwardCircuit (s : State) (d inp : Nat) (c : CircuitRec) (k : Packet) (gate : Option Nat) : State :=
  let here := c.outs.any fun o => o.1 = 20
  let s := if here && packetRequest k then s else s.incF d pgRtr 0x0D8 0 64 1
  c.outs.foldl (fun s o =>
    if o.1 = 20 then s
    else s.onto d o.1 o.2.1 { pk := k, leaves := o.2.2, inp := inp, multi := decide (1 < c.outs.length), gate := gate }) s

/-- Does a packet of an input wait for an output to take its copy (R328)? -/
def State.inputHeld (s : State) (inp : Nat) : Bool :=
  s.fabric.links.any fun e => e.2.queue.any fun q => q.multi && q.inp = inp

/-- Slots gate an injected packet with a payload alone (R320). -/
def CircuitRec.gate (c : CircuitRec) (k : Packet) : Option Nat := if c.inPort = 20 ∧ k.length ≠ 0 then some c.flow else none

/-- The input of an entry's packets, an own flow's apart from the others. -/
def CircuitRec.input (c : CircuitRec) : Nat := if c.inPort = 20 then 21 + c.flow else c.inPort

/-- The die whose router slice takes the packets of an input: the port's; an own flow's first output. -/
def CircuitRec.die (c : CircuitRec) : Nat := portDie (if c.inPort = 20 then (c.outs.head?.map (·.1)).getD 0 else c.inPort)

/-- A circuit packet enters an input buffer, which it leaves as every output has taken it (R328). -/
def State.circuitIn (s : State) (d : Nat) (c : CircuitRec) (k : Packet) : State :=
  let w := Tab.get [] s.fabric.inbuf c.input
  if s.inputHeld c.input || !w.isEmpty then
    { s with fabric := { s.fabric with inbuf := Tab.set [] s.fabric.inbuf c.input (w ++ [(c, k)]) } }
  else s.forwardCircuit d c.input c k (c.gate k)

/-- The oldest packet of each input buffer goes on as its input is free. -/
def State.inputsGo (s : State) : State :=
  s.fabric.inbuf.foldl (fun s e => match e.2 with
    | [] => s
    | x :: xs =>
      if s.inputHeld e.1 then s
      else { s with fabric := { s.fabric with inbuf := Tab.set [] s.fabric.inbuf e.1 xs } }.forwardCircuit x.1.die e.1 x.1 x.2
        (x.1.gate x.2)) s

/-- The additional authenticated data of a packet: header byte 0x00 and bytes 0x04 to 0x1F (R331, Table 14-4). -/
def State.packetAad (s : State) (r : Req) (h : DataHdr) (ptype len aux : Nat) : List Byte :=
  leBytes 1 ptype ++ leBytes 2 (s.srcOf r) ++ leBytes 2 len ++ leBytes 8 (r.addr.toNat + r.ctx.val * 2 ^ 52) ++
    leBytes 2 r.track.toNat ++ leBytes 1 r.epoch.toNat ++ leBytes 1 r.gen.toNat ++ leBytes 2 h.seq.toNat ++ leBytes 2 0 ++
    leBytes 4 r.issue.toNat ++ leBytes 4 aux

/-- The IV of a packet: SRC, 2 zero bytes, the slot's counter (R331). -/
def State.packetIv (s : State) (r : Req) (count : Nat) : List Byte := leBytes 2 (s.srcOf r) ++ leBytes 2 0 ++ leBytes 8 count

/-- The packet as a confidential entry sends it: encrypted under the next value of the key slot's counter, with its tag, SEQ and
PFLAGS.CONF (R331). -/
def State.sealPacket (s : State) (c : CircuitRec) (k : Packet) : State × Packet :=
  if c.conf ∧ k.length ≠ 0 then
    let n := Tab.get 0 s.fabric.keyTx c.key
    let h : DataHdr := { flow := none, seq := BitVec.ofNat 16 n }
    let key := (Tab.find s.sec.keys c.key).getD []
    let data := Config.gcmSeal key (s.packetIv k.req n) (s.packetAad k.req h k.ptype.toNat (k.length + 16) k.aux) (padTo k.length k.data)
    ({ s with fabric := { s.fabric with keyTx := Tab.upd 0 s.fabric.keyTx c.key (· + 1) } },
      { k with length := k.length + 16, conf := true, seq := h.seq, data := data })
  else (s, k)

/-- Inject a packet on an own entry (R319, R320, R331). -/
def State.injectCircuit (s : State) (c : CircuitRec) (k : Packet) : State :=
  let x := s.sealPacket c { k with ct := false, tgen := false }
  x.1.circuitIn c.die c x.2

/-! ### Answers to other parts (R311, R315) -/

/-- The reply or acknowledgement to a request of another part: a control reply by cut-through, a data reply on the return
circuit of the entry that delivered the request, or by cut-through (Table 14-1). -/
def State.answerPacket (s : State) (d : Nat) (r : Req) (st : Status) (data : List Byte) : State :=
  let k : Packet := { ptype := r.ptype ||| 0x80, control := decide (r.ptype.toNat < 0x10), req := { r with mark := false },
                      echo := r.mark, op := st.code, aux := st.code + 2 ^ 8, length := data.length }
  if k.control then (trainOf k data).foldl (fun s k => s.sendCt d (s.srcDev r) k) s
  else match r.flow with
    | none => s.sendCt d (s.srcDev r) { k with data := data }
    | some f =>
      match (s.delivering f.toNat).bind fun c => s.flowEntry c.retFlow 20 with
      | some c => s.injectCircuit c { k with data := data }
      | none => s

end Sys2Proof.Machine
end

