-- ==== Sys2Proof/Machine/ReedSolomon.lean ====
section
/-! DEFINITION. The check code of a sector (11 R260, R265, R266): a Reed-Solomon code over GF(2^8), its check bytes, what
the check of a received sector finds, and the lanes on which the bytes travel. -/

namespace Sys2Proof.Machine

/-! ### GF(2^8) under x^8 + x^4 + x^3 + x^2 + 1, α = 2 -/

/-- α × a. -/
def gfDouble (a : Nat) : Nat := if a < 128 then 2 * a else (2 * a) ^^^ 0x11D

/-- The product of `a` and the number whose low `n` bits are those of `b`. -/
def gfMulBits : Nat → Nat → Nat → Nat
  | 0, _, _ => 0
  | n + 1, a, b => (if b % 2 = 1 then a else 0) ^^^ gfMulBits n (gfDouble a) (b / 2)

def gfMul (a b : Nat) : Nat := gfMulBits 8 a b

/-- a to the power n. -/
def gfPow (a : Nat) : Nat → Nat
  | 0 => 1
  | n + 1 => gfMul a (gfPow a n)

/-- a to the power 2^n. -/
def gfSquares : Nat → Nat → Nat
  | 0, a => a
  | n + 1, a => gfSquares n (gfMul a a)

/-- 1 / a = a^254, the product of a^2, a^4, …, a^128; 0 for 0. -/
def gfInv (a : Nat) : Nat := (List.range 7).foldl (fun p i => gfMul p (gfSquares (i + 1) a)) 1

/-! ### Check bytes (R265) -/

/-- g(x) = (x − α^0)(x − α^1) … (x − α^7), its coefficients from x^7 down to x^0, that of x^8 being 1. -/
def rsGen : List Nat :=
  ((List.range 8).foldl (fun g i =>
    let r := gfPow 2 i
    (List.range (g.length + 1)).map fun j => g.getD j 0 ^^^ (if j = 0 then 0 else gfMul r (g.getD (j - 1) 0))) [1]).drop 1

/-- One symbol of the message enters the remainder of the division by g(x). -/
def rsStep (r : List Nat) (m : Nat) : List Nat :=
  let f := r.headD 0 ^^^ m
  (List.range 8).map fun j => r.getD (j + 1) 0 ^^^ gfMul f (rsGen.getD j 0)

/-- The message: OFFSET[37:6] of the sector's address as 4 bytes, and its 64 bytes (R265). -/
def rsMessage (sec : Nat) (data : List Byte) : List Nat := ((leBytes 4 (sec % 2 ^ 32)) ++ data).map BitVec.toNat

/-- The check bytes p0 to p7 of a sector. -/
def rsCheck (sec : Nat) (data : List Byte) : List Nat :=
  (rsMessage sec data).foldl rsStep (List.replicate 8 0)

/-! ### The check (R266) -/

/-- The syndromes of a received word of 76 symbols: its value at α^0 to α^7. -/
def rsSyndromes (w : List Nat) : List Nat :=
  (List.range 8).map fun j => w.foldl (fun a x => gfMul a (gfPow 2 j) ^^^ x) 0

/-- The locator of symbol `i` of 76, which is the coefficient of x^(75 − i). -/
def rsLocator (i : Nat) : Nat := gfPow 2 (75 - i)

/-- The error of one symbol with these syndromes: place and value. -/
def rsOne (s : List Nat) : Option (List (Nat × Nat)) :=
  let y := s.getD 0 0
  ((List.range 76).find? fun i => (List.range 8).all fun j => s.getD j 0 = gfMul y (gfPow (rsLocator i) j)).bind fun i =>
    if y = 0 then none else some [(i, y)]

/-- The error of two symbols with these syndromes. -/
def rsTwo (s : List Nat) : Option (List (Nat × Nat)) :=
  let g (i : Nat) : Nat := s.getD i 0
  let det := gfMul (g 0) (g 2) ^^^ gfMul (g 1) (g 1)
  if det = 0 then none
  else
    let l1 := gfMul (gfMul (g 0) (g 3) ^^^ gfMul (g 1) (g 2)) (gfInv det)
    let l2 := gfMul (gfMul (g 1) (g 3) ^^^ gfMul (g 2) (g 2)) (gfInv det)
    if (List.range 6).all fun j => g (j + 2) = gfMul l1 (g (j + 1)) ^^^ gfMul l2 (g j) then
      match (List.range 76).filter fun i => gfMul (rsLocator i) (rsLocator i) = gfMul l1 (rsLocator i) ^^^ l2 with
      | [a, b] =>
        let x1 := rsLocator a
        let x2 := rsLocator b
        let y1 := gfMul (gfMul (g 0) x2 ^^^ g 1) (gfInv (x1 ^^^ x2))
        some [(a, y1), (b, y1 ^^^ g 0)]
      | _ => none
    else none

/-- What the check of a sector finds: nothing, the symbols that it corrects, each a place and what to XOR in, or an
uncorrectable error. -/
inductive RsOutcome where
  | clean
  | fixed (at_ : List (Nat × Nat))
  | bad
  deriving DecidableEq, Repr

/-- The check of a received word: an error of at most 2 symbols is corrected. One placed among m0 to m3, which are not
stored, says that the sector was written to another address, and fails the check. -/
def rsDecode (w : List Nat) : RsOutcome :=
  let s := rsSyndromes w
  if s.all (· = 0) then .clean
  else
    match (rsOne s).orElse fun _ => rsTwo s with
    | some fs => if fs.any fun f => f.1 < 4 then .bad else .fixed fs
    | none => .bad

/-! ### Lanes of a burst (R260) -/

/-- Bit `b` of byte `y` of a sector's 72 bytes travels on this lane and in this beat: bytes 0 to 63 on DQ0 to DQ31 (lanes
0 to 31), the check bytes on CB0 to CB3 (lanes 32 to 35), two bytes to a lane of 16 beats. -/
def laneOf (y : Nat) : Nat := y / 2
def beatOf (y b : Nat) : Nat := 8 * (y % 2) + b

/-- The 72-byte error pattern of errors on one lane, in the beats set in `beats`. -/
def laneError (lane : Nat) (beats : BitVec 16) : BitVec 576 :=
  BitVec.ofNat 576 (((List.range 72).flatMap fun y => (List.range 8).map fun b =>
    if laneOf y = lane ∧ beats.getLsbD (beatOf y b) then 2 ^ (8 * y + b) else 0).foldl (· + ·) 0)

end Sys2Proof.Machine
end

