-- ==== Sys2Proof/Machine/Mem.lean ====
section
/-! DEFINITION. Memory at its home (chapter 11): addresses, sectors and the shared cache, reads and writes, watches,
atomics and the ordered reduce. -/

namespace Sys2Proof.Machine

/-! ### Addresses (R245, R246) -/

def addrSpace (a : Nat) : Nat := a / 2 ^ 49 % 8
def addrDev (a : Nat) : Nat := a / 2 ^ 40 % 512
def addrDie (a : Nat) : Nat := a / 2 ^ 38 % 4
def addrOff (a : Nat) : Nat := a % 2 ^ 38
/-- The key of an address in the memory tables: die and offset. -/
def addrKey (a : Nat) : Nat := a % 2 ^ 40
/-- Bytes of a die's home region (R246). -/
def homeSize : Nat := 215999987712
/-- First offset of the management store on D0 (20 R418). -/
def mgmtStore : Nat := homeSize - 2 ^ 34

/-- Are the `n` bytes at STACK address `a` present to this origin (R246, R418)? -/
def stackPresent (a n : Nat) (o : Origin) : Bool :=
  decide (addrOff a + n ≤ homeSize) &&
  (addrDie a ≠ 0 || o = .fw || o = .hw || decide (addrOff a + n ≤ mgmtStore))

/-- Die, page and offset of a REG address; none for an absent place (05 R86, R88). -/
def regPlace (a : Nat) : Option (Nat × Nat × Nat) :=
  if addrOff a < 2 ^ 20 ∧ (pageKind (addrDie a) (addrOff a / 4096)).isSome then
    some (addrDie a, addrOff a / 4096, addrOff a % 4096)
  else none

/-! ### Bytes and sectors -/

/-- The byte at a key. -/
def State.memByte (s : State) (k : Nat) : Byte := Tab.get 0 s.mem.bytes k
/-- `n` bytes from a key. -/
def State.memRead (s : State) (k n : Nat) : List Byte := (List.range n).map fun i => s.memByte (k + i)
/-- The sectors that `n` bytes from key `k` touch. -/
def sectorsOf (k n : Nat) : List Nat :=
  if n = 0 then [] else (List.range ((k + n - 1) / 64 - k / 64 + 1)).map (k / 64 + ·)
/-- The 76 symbols that a read of a sector meets: its address, its bytes and its check bytes, with the errors in them. -/
def State.received (s : State) (sec : Nat) (e : BitVec 576) : List Nat :=
  let data := s.memRead (sec * 64) 64
  let stored := data.map BitVec.toNat ++ rsCheck sec data
  (leBytes 4 (sec % 2 ^ 32)).map BitVec.toNat ++
    (List.range 72).map fun y => stored.getD y 0 ^^^ bitsOf e.toNat (8 * y) 8

/-- What the check of a sector finds (R265, R266). A sector without an error reads as the codeword that was written. -/
def State.sectorOutcome (s : State) (sec : Nat) : RsOutcome :=
  if Tab.get false s.mem.bad sec then .bad
  else match Tab.find s.mem.err sec with
    | none => .clean
    | some e => rsDecode (s.received sec e)

/-- Does a sector hold uncorrectable data? -/
def State.isBad (s : State) (sec : Nat) : Bool := s.sectorOutcome sec = .bad
/-- Does any sector of a range hold uncorrectable data? -/
def State.rangeBad (s : State) (k n : Nat) : Bool := (sectorsOf k n).any s.isBad
/-- The die of a sector. -/
def secDie (sec : Nat) : Nat := sec / 2 ^ 32 % 4

/-- Write bytes into the table from a key. -/
def putBytes (t : Tab Byte) (k : Nat) : List Byte → Tab Byte
  | [] => t
  | x :: xs => putBytes (Tab.set 0 t k x) (k + 1) xs

/-- A sector is written: what the stack holds is kept until the cache writes it back. -/
def State.dirtySector (s : State) (sec : Nat) : State :=
  match Tab.find s.mem.dirty sec with
  | some _ => s
  | none =>
    { s with mem := { s.mem with
        dirty := Tab.put s.mem.dirty sec (BitVec.ofNat 512 (leNat (s.memRead (sec * 64) 64))) } }

/-! ### The shared cache (R250) -/

/-- Place of a key within its die (R247). -/
def placeKey (k : Nat) : Placed := placeOf (k % 2 ^ 38)

/-- The logical bank of a place (R250), and the physical bank that serves it. -/
def logicalBank (p : Placed) : Nat := p.stack * 16 + p.pc / 4
def State.physBank (s : State) (d lb : Nat) : Nat := s.rdF d pgShc (0x080 + 8 * (lb / 10)) (6 * (lb % 10)) 6

/-- The key of the set that a line takes. -/
def State.setKey (s : State) (line : Nat) : Nat :=
  let d := line / 2 ^ 30 % 4
  (d * 50 + s.physBank d (logicalBank (placeKey (line * 256)))) * 256 + Config.cacheSet line % 256

/-- The lines of a set without the one that leaves it, of a set that is full: the least recently used one, of those
without an open reduce (R250, R258). -/
def State.victim (s : State) (set : List CacheLine) : Option Nat :=
  if set.length < 16 then none
  else ((set.reverse.find? fun c => (Tab.find s.mem.reduce c.line).isNone).map (·.line))

/-- A line leaves the cache: its dirty sectors are written back. -/
def State.evict (s : State) (line : Nat) : State :=
  { s with mem := { s.mem with dirty := Tab.keep (fun k => decide (k / 4 ≠ line)) s.mem.dirty } }

/-- A sector is used: its line becomes the last used of its set, with the sector valid. -/
def State.useSector (s : State) (sec : Nat) : State :=
  let line := sec / 4
  let key := s.setKey line
  let set := Tab.get [] s.mem.cache key
  let old := ((set.find? fun c => c.line = line).map (·.valid)).getD 0
  let rest := set.filter fun c => c.line ≠ line
  let valid := if bitsOf old (sec % 4) 1 = 1 then old else old + 2 ^ (sec % 4)
  match s.victim rest with
  | some v =>
    { s.evict v with mem := { (s.evict v).mem with
        cache := Tab.set [] s.mem.cache key (⟨line, valid⟩ :: rest.filter fun c => c.line ≠ v) } }
  | none => { s with mem := { s.mem with cache := Tab.set [] s.mem.cache key (⟨line, valid⟩ :: rest) } }

/-- Does the cache hold a sector? -/
def State.cached (s : State) (sec : Nat) : Bool :=
  (Tab.get [] s.mem.cache (s.setKey (sec / 4))).any fun c => c.line = sec / 4 && bitsOf c.valid (sec % 4) 1 = 1

/-- A sector is looked up, and counted (SHC.HITS, SHC.MISSES). -/
def State.lookSector (s : State) (sec : Nat) : State :=
  let hit := s.cached sec
  let s := s.useSector sec
  s.incF (secDie sec) pgShc (if hit then 0x0B0 else 0x0B8) 0 64 1

def State.lookRange (s : State) (k n : Nat) : State := (sectorsOf k n).foldl State.lookSector s

/-- A logical bank starts empty (R253). -/
def State.emptyBank (s : State) (d lb : Nat) : State :=
  { s with mem := { s.mem with cache := s.mem.cache.filterMap fun e =>
      let rest := e.2.filter fun c => !(c.line / 2 ^ 30 % 4 = d && logicalBank (placeKey (c.line * 256)) = lb)
      if rest.isEmpty then none else some (e.1, rest) } }

/-- Store bytes without any check: the named sectors become dirty. -/
def State.memStore (s : State) (k : Nat) (xs : List Byte) : State :=
  let s := (sectorsOf k xs.length).foldl (fun s sec => (s.useSector sec).dirtySector sec) s
  { s with mem := { s.mem with bytes := putBytes s.mem.bytes k xs } }

/-- The content of a sector is lost. -/
def State.markBad (s : State) (sec : Nat) : State :=
  { s with mem := { s.mem with bad := Tab.set false s.mem.bad sec true } }

/-- An uncorrectable event of the step counts for a physical bank (R253), and a corrected lane's times are kept (R263). -/
def State.countUe (s : State) (key : Nat) : State :=
  { s with mem := { s.mem with bankUe := Tab.upd 0 s.mem.bankUe key (· + 1) } }
def State.noteCe (s : State) (key : Nat) (ts : List Nat) : State :=
  { s with mem := { s.mem with ceTimes := Tab.set [] s.mem.ceTimes key ts } }

/-- A sector becomes good again: it is written whole, under new check bytes. -/
def State.clearBad (s : State) (sec : Nat) : State :=
  { s with mem := { s.mem with bad := Tab.set false s.mem.bad sec false, err := Tab.del s.mem.err sec,
                               found := Tab.set false s.mem.found sec false } }

/-- A sector is written back as the check corrects it: its bytes as received with the corrections, its errors gone. -/
def State.heal (s : State) (sec : Nat) (fixes : List (Nat × Nat)) : State :=
  let w := s.received sec (Tab.get 0 s.mem.err sec)
  let data := (List.range 64).map fun y =>
    BitVec.ofNat 8 (fixes.foldl (fun v f => if f.1 = y + 4 then v ^^^ f.2 else v) (w.getD (y + 4) 0))
  let s := s.clearBad sec
  { s with mem := { s.mem with bytes := putBytes s.mem.bytes (sec * 64) data } }

/-- Errors arise in a sector. Those that the check cannot see, a pattern that turns one codeword into another, change what the
sector holds (R266). -/
def State.upset (s : State) (x : LaneError) : State :=
  let sec := addrKey x.addr / 64
  let e := Tab.get 0 s.mem.err sec ^^^ laneError x.lane x.beats
  let s := { s with mem := { s.mem with err := Tab.set 0 s.mem.err sec e } }
  if e ≠ 0 ∧ s.sectorOutcome sec = .clean then s.heal sec [] else s

/-! ### Watches (R257) -/

def State.watchesOf (s : State) (d : Nat) : List Watch := Tab.get [] s.mem.watches d
def State.setWatches (s : State) (d : Nat) (ws : List Watch) : State :=
  { s with mem := { s.mem with watches := Tab.set [] s.mem.watches d ws } }

/-- A reply reaches its tracking entry on the issuing die (R285 rule 1): accepted where the tag holds, else dropped
and counted; either way the entry ends. -/
def State.reply (s : State) (d track epoch ctx gen : Nat) (st : Status) (remote : Bool) : State :=
  match s.trackOf d track with
  | none => s.incF d pgApc 0x460 0 32 1
  | some e =>
    let good := e.epoch = epoch && e.ctx = ctx && e.gen = gen && s.ctxGen ctx = gen
    let s := s.endTrack d track
    if good then s.deliver e.owner e.ctx st remote else s.incF d pgApc 0x460 0 32 1

/-- An error response to an access of a core: an access fault there, its address shown (22 R456). -/
def State.busErr (s : State) (d addr : Nat) : State :=
  ((s.wr d pgApc 0x090 (addr % 2 ^ 52)).setErr d pgApc 10).send (.note (.busError d addr))

/-- Answer a request (R314, R315): on this part at once, to another part as a packet, whose bytes its port sends. -/
def State.answer (s : State) (r : Req) (st : Status) (data : List Byte) : State :=
  let s := s.send (.answer r st data)
  let s := if r.src.isNone ∧ r.w.origin = .sys ∧ st ≠ .ok then s.busErr r.w.die r.addr.toNat else s
  match r.src with
  | none => s.reply r.die r.track.toNat r.epoch.toNat r.ctx r.gen.toNat st false
  | some _ => s.answerPacket (addrDie r.addr.toNat) r st data

/-- Evaluate a watch: its answer, where it has one. -/
def State.watchAnswer (s : State) (w : Watch) : Option Status :=
  let k := addrKey w.req.addr.toNat
  if s.rangeBad k 8 then some .uncorrectable
  else if w.value.toNat ≤ leNat (s.memRead k 8) then some .ok else none

/-- Does a watch see a write of `n` bytes from key `k`, or is it not placed yet? -/
def Watch.sees (w : Watch) (k n : Nat) : Bool :=
  !w.placed || decide (addrKey w.req.addr.toNat < k + n ∧ k < addrKey w.req.addr.toNat + 8)

/-- Answer the first watch that sees the write, among the first 1,024 of the die, and has an answer, and go on; those
that remain are placed. -/
def runWatches : Nat → State → Nat → Nat → Nat → State
  | 0, s, _, _, _ => s
  | m + 1, s, d, k, n =>
    let ws := s.watchesOf d
    match (ws.take 1024).find? fun w => w.sees k n && (s.watchAnswer w).isSome with
    | none => s.setWatches d (((ws.take 1024).map fun w => { w with placed := true }) ++ ws.drop 1024)
    | some w =>
      match s.watchAnswer w with
      | none => s
      | some st => runWatches m ((s.setWatches d (ws.erase w)).answer w.req st []) d k n

/-- After a write of `n` bytes from key `k`, every watch on them is evaluated. -/
def State.evalWatches (s : State) (k n : Nat) : State :=
  let d := k / 2 ^ 38 % 4
  runWatches ((s.watchesOf d).length + 1) s d k n

/-- Watches of a die are dropped: those that gain a place are evaluated (R257). -/
def State.dropWatches (s : State) (d : Nat) (p : Watch → Bool) : State :=
  if (s.watchesOf d).any p then (s.setWatches d ((s.watchesOf d).filter fun w => !(p w))).evalWatches (d * 2 ^ 38) 0 else s

/-- Place a watch and evaluate it. -/
def State.placeWatch (s : State) (d : Nat) (w : Watch) : State :=
  (s.setWatches d (s.watchesOf d ++ [w])).evalWatches (d * 2 ^ 38) 0

/-! ### Notices (20 R433) -/

/-- Write whole sectors of a message buffer. -/
def State.msgWrite (s : State) (addr : Nat) (bs : List Byte) : State :=
  let k := addrKey addr
  ((((sectorsOf k bs.length).foldl State.clearBad s).lookRange k bs.length).memStore k bs).evalWatches k bs.length

/-- A message buffer's 256 bytes (Table 20-6). -/
def msgBytes (flags type api len seq status mbox : Nat) (body : List Byte) : List Byte :=
  leBytes 1 1 ++ leBytes 1 flags ++ leBytes 2 type ++ leBytes 2 api ++ leBytes 2 len ++ leBytes 4 seq ++
    leBytes 2 status ++ leBytes 2 mbox ++ (body ++ List.replicate 240 0).take 240

/-- Mailbox `n` shows a state, and DONE raises its notification (R427). -/
def State.mboxState (s : State) (n v : Nat) : State :=
  let s := s.wrF 0 pgMbx 0x100 (2 * n) 2 v
  if v = 2 then (s.wrF 0 pgMbx 0x108 n 1 1).send (.note (.mailbox n)) else s

/-- The oldest pending notice goes into the armed mailbox 14, while the mailbox service runs (Table 20-2). -/
def State.noticeOut (s : State) : State :=
  if s.comp 0 4 ≠ 1 then s
  else match s.fw.armed, s.fw.notices with
  | some a, (ty, body) :: rest =>
    let s := { s with fw := { s.fw with armed := none, notices := rest } }
    (s.msgWrite a (msgBytes 0 ty (s.rdF 0 pgMgc 0x080 16 16) body.length 0 0 14 body)).mboxState 14 2
  | _, _ => s

/-- A notice waits, or is dropped where 64 wait already. -/
def State.notice (s : State) (ty : Nat) (body : List Byte) : State :=
  if 64 ≤ s.fw.notices.length then s.incF 0 pgMbx 0x118 48 16 1
  else { s with fw := { s.fw with notices := s.fw.notices ++ [(ty, body)] } }.noticeOut

/-- A LOG_ALERT is due: an entry of severity ERROR or above, and 1 ms since the last. -/
def State.alertOut (s : State) : State :=
  match s.log.alert with
  | none => s
  | some q =>
    let due : Bool := match s.fw.alertAt with | none => true | some t => decide (t + 1000000 ≤ s.now 0)
    if due then
      let s := { s with log := { s.log with alert := none }, fw := { s.fw with alertAt := some (s.now 0) } }
      s.notice 0x8003 (leBytes 8 q)
    else s

/-! ### Uncorrectable and corrected data (R263, R266, R268, R269) -/

/-- Is the key within the retained region `i` of the active book, in the order of R34? -/
def State.inRetained (s : State) (i k : Nat) : Bool :=
  match s.books.active with
  | none => false
  | some b => match b.retain[i]? with
    | some (base, size) => decide (addrKey base ≤ k ∧ k < addrKey base + size)
    | none => false

/-- The region code of UE_INFO: 0 none, 1 the shard the step reads, 2 INPUTS, 3 a buddy region, 4 another retained region,
which of the five of R34 is the shard that the step does not read (entry 138). -/
def State.ueRegion (s : State) (k : Nat) : Nat :=
  if s.inRetained (if s.retained.curB then 1 else 0) k then 1
  else if s.inRetained 4 k then 2
  else if s.inRetained 2 k || s.inRetained 3 k then 3
  else if s.inRetained (if s.retained.curB then 0 else 1) k then 4 else 0

/-- The index of the pseudo-channel of a key within its die: 0 to 191. -/
def pcIndex (k : Nat) : Nat := (placeKey k).stack * 64 + (placeKey k).pc

/-- Log an uncorrectable range and show it (R269). -/
def State.reportUe (s : State) (k n : Nat) (scrub : Bool) : State :=
  let d := k / 2 ^ 38 % 4
  let p := placeKey k
  let region := s.ueRegion k
  let addr := s.device * 2 ^ 40 + k
  let s := s.wr d (pgApr p.stack) 0x098 addr
  let s := s.wr d (pgApr p.stack) 0x0A0 (n % 65536 + p.pc * 2 ^ 16 + (if scrub then 2 ^ 22 else 0) + region * 2 ^ 23)
  let s := s.setErr d (pgApr p.stack) 10
  let s := { s with retained := { s.retained with toRestore := s.retained.toRestore ++ [(k, n, region)] } }
  s.logAt d srcHw .uncorrectable [d, p.stack, p.pc, addr, n, (if scrub then 1 else 0), region]

/-- The micro-batch of a key in INPUTS: the last ORDER record whose INPUT_OFFSET lies at or below it (R269). -/
def State.microBatchOf (s : State) (k : Nat) : Option Nat :=
  match s.books.active with
  | none => none
  | some b => match b.retain[4]? with
    | none => none
    | some (base, _) =>
      let off := k - addrKey base
      let c := b.order.filter fun r => r.pass = 0 && decide (r.inputOffset * 4096 ≤ off)
      (c.foldl (fun m r => match m with
        | none => some r
        | some x => if x.inputOffset ≤ r.inputOffset then some r else m) none).map (·.microBatch)

/-- INPUT_OFFSET of a micro-batch in the active book's ORDER (Table 2-8). -/
def State.inputOffset (s : State) (mb : Nat) : Nat :=
  match s.books.active with
  | none => 0
  | some b => ((b.order.find? fun r => r.pass = 0 && r.microBatch = mb).map (·.inputOffset)).getD 0

/-- Data of a retained region is lost: a micro-batch of INPUTS is reported, a buddy copy is no longer in force. -/
def State.regionLost (s : State) (k : Nat) : State :=
  let s := if s.ueRegion k = 2 then
      match s.microBatchOf k with
      | some mb =>
        let lo := s.inputOffset mb
        ({ s with retained := { s.retained with inputsLost := s.retained.inputsLost ++ [mb] } }).notice 0x8002
          (leBytes 6 s.stepNum ++ leBytes 2 mb ++ leBytes 4 lo)
      | none => s
    else s
  if s.ueRegion k = 3 then { s with retained := { s.retained with buddyValid := false } } else s

/-- Is a sector the one that a rehearsal has corrupted (16 R377)? -/
def State.rehSector (s : State) (sec : Nat) : Bool := (s.rehOn 3 true).any fun r => r.place = sec

/-- A read meets a sector that fails its check: an event of its bank (R253), which one of a rehearsal is not (16 R377);
SHC.ERR_STAT.UNCORRECTABLE. -/
def State.meetBad (s : State) (sec : Nat) : State :=
  let d := secDie sec
  let s := if s.rehSector sec then s else s.countUe (d * 64 + s.physBank d (logicalBank (placeKey (sec * 64))))
  s.setErr d pgShc 9

/-- The row of a sector awaits repair; whether the sector lies in a row of its pseudo-channel that already does is open (entry
27). -/
def State.rowDue (s : State) (sec : Nat) : State :=
  let pc := secDie sec * 192 + pcIndex (sec * 64)
  if (s.mem.rows.any fun r => r.pc = pc) ∧ s.free.toNat % 2 = 1 then s.took 1
  else { s with mem := { s.mem with rows := s.mem.rows ++ [RowDue.mk pc (s.device * 2 ^ 40 + sec * 64) (s.rehSector sec)] } }.took 1

/-- A sector newly found to fail its check: shown, its region lost, its row due for repair. -/
def State.newBad (s : State) (sec : Nat) : State :=
  let s := { s with mem := { s.mem with found := Tab.set false s.mem.found sec true } }
  let s := (s.regionLost (sec * 64)).satF (secDie sec) pgShc 0x0D8 0 32 1
  s.rowDue sec

/-- Runs of consecutive sectors within one granule, which lies whole on one pseudo-channel, in a rising list: first and
length. -/
def runsOf : List Nat → List (Nat × Nat)
  | [] => []
  | x :: xs => match runsOf xs with
    | (y, n) :: rest => if x + 1 = y ∧ x / 4 = y / 4 then (x, n + 1) :: rest else (x, 1) :: (y, n) :: rest
    | [] => [(x, 1)]

/-- Sectors newly found, by a read or by a scrub: each range is logged once (R269). -/
def State.foundBad (s : State) (secs : List Nat) (scrub : Bool) : State :=
  let new := secs.filter fun x => !(Tab.get false s.mem.found x)
  (runsOf new).foldl (fun s r => s.reportUe (r.1 * 64) r.2 scrub) (new.foldl State.newBad s)

/-- LANE_MAP of a pseudo-channel. -/
def laneKey (d t pc : Nat) : Nat := (d * 3 + t) * 64 + pc
def laneDflt : BitVec 64 := 0xFFFF000000
def State.laneMap (s : State) (d t pc : Nat) : Nat := (Tab.get laneDflt s.mem.lanes (laneKey d t pc)).toNat
/-- Set it, and the stack's record of it in NOR (R262, R263). -/
def State.setLaneMap (s : State) (d t pc v : Nat) : State :=
  { s with mem := { s.mem with lanes := Tab.set laneDflt s.mem.lanes (laneKey d t pc) (BitVec.ofNat 64 v) },
           history := { s.history with lanes := Tab.set laneDflt s.history.lanes (laneKey d t pc) (BitVec.ofNat 64 v) } }

/-- A lane turns suspect (R263): shown in SUSPECT, or SUSPECT2 where another lane already is; the second asks for a
fence. -/
def State.laneSuspect (s : State) (d t pc lane : Nat) : State :=
  let v := s.laneMap d t pc
  let a := bitsOf v 24 8
  let b := bitsOf v 32 8
  if a = lane ∨ b = lane then s
  else
    let s := if a = 0xFF then s.setLaneMap d t pc (putBits v 24 8 lane)
      else if b = 0xFF then
        { s.setLaneMap d t pc (putBits v 32 8 lane) with fenceSelf := true }
      else s
    let s := s.setErr d (pgApr t) 11
    let s := s.logAt d srcHw .laneSuspect [t, pc, lane]
    s.histEvent 4 d (t * 64 + pc) 5

/-- A corrected error of a lane: its time is kept, and the sixteenth within a second makes the lane suspect (R263). -/
def State.laneCe (s : State) (k lane : Nat) : State :=
  let d := k / 2 ^ 38 % 4
  let p := placeKey k
  let key := laneKey d p.stack p.pc * 64 + lane
  let ts := s.now d :: (Tab.get [] s.mem.ceTimes key).filter fun t => decide (s.now d < t + 1000000000)
  let s := s.noteCe key (ts.take 16)
  if 16 ≤ ts.length then s.laneSuspect d p.stack p.pc lane else s

/-- A sector is corrected and written back, the error attributed to every lane that carried a corrected symbol (R263,
R266; entry 138). -/
def State.corrected (s : State) (sec : Nat) (fixes : List (Nat × Nat)) : State :=
  let d := secDie sec
  let p := placeKey (sec * 64)
  let s := ((s.heal sec fixes).satF d (pgApr p.stack) 0x090 0 32 1).setErr d (pgApr p.stack) 9
  ((fixes.map fun f => laneOf (f.1 - 4)).eraseDups).foldl (fun s lane => s.laneCe (sec * 64) lane) s

/-- The check of one sector that is read (R265, R266): a correctable one is corrected. -/
def State.checkSector (s : State) (sec : Nat) : State :=
  match s.sectorOutcome sec with
  | .fixed fs => s.corrected sec fs
  | _ => s

/-- What has happened to stored data comes about: errors, and corrections of on-die ECC in the stack of the key (R261). -/
def State.arise (s : State) (k : Nat) (env : EccEnv) : State :=
  let s := env.errors.foldl State.upset s
  if env.onDie = 0 then s else s.satF (k / 2 ^ 38 % 4) (pgApr (placeKey k).stack) 0x090 32 32 env.onDie

/-- A physical bank is marked failed (R253): the part proposes roll-back, and action 5 replaces it. -/
def State.bankFail (s : State) (d b : Nat) : State :=
  if s.rdF d pgShc 0x0A8 b 1 = 1 then s
  else
    let s := (s.wrF d pgShc 0x0A8 b 1 1).setErr d pgShc 10
    let s := (s.logAt d srcHw .bankFail [d, b]).histEvent 3 d b 8
    { s with mem := { s.mem with bankDue := s.mem.bankDue ++ [d * 64 + b] } }.noCert 1

/-- Banks with 3 or more uncorrectable sector events in the step fail (R253). -/
def State.bankCheck (s : State) (d : Nat) : State :=
  (List.range 50).foldl (fun s b => if 3 ≤ Tab.get 0 s.mem.bankUe (d * 64 + b) then s.bankFail d b else s) s

/-- A read meets the sector that a rehearsal corrupted (16 Table 16-9, kind 3). -/
def State.rehSeen (s : State) (secs : List Nat) : State :=
  match s.rehOn 3 true with
  | some r => if r.found.isNone ∧ secs.contains r.place = true then s.rehFound else s
  | none => s

/-- Sectors of a die are read and checked (R251, R265): corrected where they can be, else met as uncorrectable, an event for
their bank each time and logged once (R253, R266, R268, R269). -/
def State.checkSecs (s : State) (d : Nat) (secs : List Nat) : State :=
  let s := secs.foldl State.checkSector s
  let bad := secs.filter s.isBad
  if bad.isEmpty then s
  else (((bad.foldl State.meetBad s).foundBad bad false).rehSeen bad).bankCheck d

/-- Every sector of a range is read and checked. -/
def State.checkRange (s : State) (k n : Nat) : State := s.checkSecs (k / 2 ^ 38 % 4) (sectorsOf k n)

/-- A range is read: through the cache (R250), checked as any read is (R265). -/
def State.touch (s : State) (k n : Nat) : State := (s.lookRange k n).checkRange k n

/-- Ranges of this part's memory are read: address and length. -/
def State.touchAll (s : State) (xs : List (Nat × Nat)) : State := xs.foldl (fun s x => s.touch (addrKey x.1) x.2) s

/-- A read by the part itself; none where uncorrectable data stands in the range (R268). -/
def State.readOwn (s : State) (k n : Nat) : State × Option (List Byte) :=
  let s := s.touch k n
  (s, if s.rangeBad k n then none else some (s.memRead k n))

/-- Does a range hold data already found uncorrectable? What waits for it to be restored does not read it again (R269). -/
def State.knownBad (s : State) (k n : Nat) : Bool := (sectorsOf k n).any fun x => s.isBad x && Tab.get false s.mem.found x

/-- The check of a range that a request reads, with what has happened to stored data before. -/
def State.check (s : State) (k n : Nat) (env : EccEnv) : State := (s.arise k env).checkRange k n

/-- EXP_PHASE_US of the active book's phases, summed, in ns. -/
def State.expStep (s : State) : Nat :=
  (s.books.active.map fun b => (b.phases.map (·.expUs)).sum * 1000).getD 0

/-- The rehearsal of kind 3 corrupts the first sector written outside SHARD, BUDDY and INPUTS after half of the
step. -/
def State.rehCorrupt (s : State) (sec : Nat) : State :=
  match s.rehOn 3 false with
  | some r =>
    if s.power.since + s.expStep / 2 ≤ s.now 0 ∧ ((List.range 5).any fun i => s.inRetained i (sec * 64)) = false then
      (s.markBad sec).rehInject r sec
    else s
  | none => s

/-! ### Reads and writes at the home (R251, R268) -/

/-- Write bytes sector by sector (R251, R268): a part of a sector reads it first and is refused where it holds
uncorrectable data; a whole sector replaces it. Answers the state and whether all of it was written. -/
def State.memWriteSec (s : State) (k : Nat) (xs : List Byte) (sec : Nat) : State × Bool :=
  let lo := max k (sec * 64)
  let hi := min (k + xs.length) (sec * 64 + 64)
  let part := (xs.drop (lo - k)).take (hi - lo)
  if part.length = 64 then (((s.clearBad sec).memStore lo part).rehCorrupt sec, true)
  else
    let s := s.checkRange (sec * 64) 64
    if s.isBad sec then (s, false) else ((s.memStore lo part).rehCorrupt sec, true)

/-- Write a range. -/
def State.memWrite (s : State) (k : Nat) (xs : List Byte) : State × Bool :=
  (sectorsOf k xs.length).foldl (fun a sec =>
    let r := a.1.memWriteSec k xs sec
    (r.1, a.2 && r.2)) (s, true)

/-- A write of a range at its home: watches see it. -/
def State.ownWrite (s : State) (k : Nat) (xs : List Byte) : State × Bool :=
  let r := (s.lookRange k xs.length).memWrite k xs
  (r.1.evalWatches k xs.length, r.2)

end Sys2Proof.Machine
end

