-- ==== Sys2Proof/Machine/Chunks.lean ====
section
/-! DEFINITION. The chunks of the weight digest (15 R346, R347): their values form as DIGEST streams commit bytes. -/

namespace Sys2Proof.Machine

/-- A digest as a value. -/
def digestOf (bs : List Byte) : BitVec 256 := BitVec.ofNat 256 (leNat (sm3 bs))

/-- Length of the retained shard regions. -/
def State.shardLen (s : State) : Nat := ((s.books.active.bind fun b => b.retain[0]?).map (·.2)).getD 0

/-- REC_COUNT and NUM_REC_OFF: as written, or as in force. -/
def State.recSpec (s : State) (inForce : Bool) : Nat × Nat :=
  let get (off : Nat) : Nat := if inForce then s.inf 0 pgStp off else s.rd 0 pgStp off
  (bitsOf (get 0x100) 0 13, bitsOf (get 0x108) 0 40)

/-- Chunks of 4 MiB that a length takes, the last being shorter where it must (R346). -/
def chunksIn (n : Nat) : Nat := n / 2 ^ 22 + if n % 2 ^ 22 = 0 then 0 else 1

/-- Length of a shard region, in chunks (R346). -/
def State.chunkCount (s : State) : Nat := chunksIn s.shardLen

/-- Bytes of a chunk: the last may be shorter. -/
def State.chunkLen (s : State) (c : Nat) : Nat := min (2 ^ 22) (s.shardLen - 2 ^ 22 * c)

/-- Does a chunk hold bytes of the record array (R347)? -/
def State.recChunk (s : State) (c : Nat) : Bool :=
  let (cnt, off) := s.recSpec true
  decide (0 < cnt ∧ off / 2 ^ 22 ≤ c ∧ c ≤ (off + 128 * cnt - 1) / 2 ^ 22)

/-- The bytes of an open stream chunk, once all of them have been committed. -/
def State.chunkBytes (s : State) (c : Nat) : Option (List Byte) :=
  (List.range (s.chunkLen c)).mapM fun i => Tab.find s.digest.bytes (2 ^ 22 * c + i)

/-- Stream chunks open on a die: some of their bytes have passed its witness unit, and not all. -/
def State.chunksOpen (s : State) (d : Nat) : Nat := (s.digest.dies.filter fun e => e.2 = d).length

/-- A stream chunk whose bytes have all passed the witness unit of a die has its value, and is counted there. -/
def State.chunkClose (s : State) (d c : Nat) : State :=
  match s.chunkBytes c with
  | none => s
  | some bs =>
    { s with digest := { s.digest with
        bytes := Tab.keep (fun a => decide (a / 2 ^ 22 ≠ c)) s.digest.bytes,
        dies := Tab.del s.digest.dies c,
        chunks := Tab.put s.digest.chunks c (digestOf bs) } }.incF d pgWit 0x120 0 32 1

/-- Bytes that a DIGEST stream of a die commits, by offset in the region, pass its witness unit. -/
def State.digestCommit (s : State) (d : Nat) (t : Tab Byte) : State :=
  let cs := (t.map (·.1 / 2 ^ 22)).eraseDups
  let s := { s with digest := { s.digest with bytes := t.foldl (fun t y => Tab.put t y.1 y.2) s.digest.bytes,
                                              dies := cs.foldl (fun t c => Tab.put t c d) s.digest.dies } }
  cs.foldl (fun s c => s.chunkClose d c) s

/-- Would a die then hold a 33rd chunk open? Its stream is held by credit (R347). -/
def State.chunkHeld (s : State) (d : Nat) (t : Tab Byte) : Bool := decide (32 < (s.digestCommit d t).chunksOpen d)

end Sys2Proof.Machine
end

