-- ==== Sys2Proof/Machine/PowerOps.lean ====
section
/-! DEFINITION. Operating points, frequency changes and phases (19 R403 to R407, R416). -/

namespace Sys2Proof.Machine

/-! ### Operating points (R403, R404) -/

/-- A value taken to the nearer end of a range. -/
def clampTo (lo hi v : Nat) : Nat := max lo (min hi v)

/-- Frequency, voltage offset in mV and cap of an operating point's register (Table 19-7). -/
def opFreq (v : Nat) : Nat := clampTo 900 1650 (bitsOf v 0 11)
def opOff (v : Nat) : Int := max (-50) (min 30 (sext 8 (bitsOf v 11 8)))
def opCap (v : Nat) : Nat := clampTo 1000 2600 (bitsOf v 19 12)

/-- The operating point `n` in force. -/
def State.opNow (s : State) (n : Nat) : Nat := s.inf 0 pgPwr (0x080 + 8 * (n % 8))

/-- The VARITH target in mV of a die at a frequency under an operating point's offset (R403). -/
def State.varithAt (s : State) (d f n : Nat) : Nat :=
  (max 650 (min 900 ((Config.varithCurve d f : Int) + opOff (s.opNow n)))).toNat

/-- The highest shedding step in force (PWR.SHED). -/
def State.shed (s : State) : Nat := s.rdF 0 pgPwr 0x0E8 0 3

/-- The operating point in force on a die: of its phase, and OP0 under shedding step 3 (R405, Table 19-3). -/
def State.opOf (s : State) (d : Nat) : Nat := if 3 ≤ s.shed then 0 else s.rdF d pgPwr 0x0C8 33 3

/-! ### Rails (03 Table 3-4, R55, R57) -/

/-- A rail's place in Table 3-4. -/
def Rail.ix : Rail → Nat
  | .varith => 0 | .vshc => 1 | .vlink => 2 | .vcpu => 3 | .vstk => 4 | .vapr => 5 | .vpp => 6 | .vaux => 7

/-- A row of Table 3-4: the lowest and the highest voltage in 0.1 mV (the nominal one less and plus its tolerance; for
VARITH the range that the operating point sets), N, and the rating of a phase in A. -/
structure RailRow where
  lo     : Nat
  hi     : Nat
  n      : Nat
  rating : Nat

/-- Table 3-4, by the rail's place. -/
def railRow : Nat → RailRow
  | 0 => ⟨6500, 9000, 16, 35⟩
  | 1 => ⟨7840, 8160, 3, 25⟩
  | 2 => ⟨7350, 7650, 4, 25⟩
  | 3 => ⟨7840, 8160, 2, 30⟩
  | 4 => ⟨10670, 11330, 6, 25⟩
  | 5 => ⟨4900, 5100, 3, 25⟩
  | 6 => ⟨17460, 18540, 1, 12⟩
  | _ => ⟨17460, 18540, 1, 5⟩

/-- Working phases of a rail out of its N and two spare ones. -/
def State.phasesLeft (s : State) (d k : Nat) : Nat := (railRow k).n + 2 - Tab.get 0 s.power.phases (d * 8 + k)

/-- The maximum current of a rail in A: N times the rating, available with any two phases failed; with more failed, the
rating times the phases left (R55, R57). -/
def State.railMax (s : State) (d k : Nat) : Nat := (railRow k).rating * min (railRow k).n (s.phasesLeft d k)

/-- The least of the frequencies that degraded rails carry (R57, R406). -/
def State.railLimit (s : State) (f : Nat) : Nat :=
  s.power.degraded.foldl (fun m x => min m (Config.railMhz x.1 x.2 (s.railMax x.1 x.2))) f

/-- A frequency under the limits of shedding (R414). -/
def State.shedLimit (s : State) (f : Nat) : Nat :=
  if 3 ≤ s.shed then opFreq (s.opNow 0) else if 2 ≤ s.shed then min f 1500 else f

/-- F_MAX as the next vote reports it (R406). -/
def State.fMax (s : State) : Nat :=
  s.railLimit (s.shedLimit (opFreq (s.opNow (s.rdF 0 pgPwr 0x0F0 0 3))))

/-- F_CAST (PWR.FREQ). -/
def State.fCast (s : State) : Nat := s.rdF 0 pgPwr 0x0C8 22 11

/-! ### Changing frequency (R407, R409, R412) -/

/-- Bay islands of the die that are stretching (DROOP_STAT). -/
def State.droopBays (s : State) (d : Nat) : Nat := bitsOf (s.rd d pgPwr 0x0E0) 0 9

/-- A new target for a die: it replaces one in progress; a droop on a bay island pauses the change. The fallback
governor starts no change. -/
def State.setTarget (s : State) (d f : Nat) : State :=
  if s.rdF d pgPwr 0x028 3 1 = 1 then s
  else
    let s := s.wrF d pgPwr 0x0C8 11 11 f
    if s.rdF d pgPwr 0x0C8 0 11 = f ∧ s.rdF d pgPwr 0x028 0 1 = 0 then s
    else
      let was := s.rdF d pgPwr 0x028 1 1
      let s := s.wrF d pgPwr 0x028 0 1 1
      if s.droopBays d ≠ 0 ∧ was = 0 then (s.wrF d pgPwr 0x028 1 1 1).satF d pgPwr 0x0E0 48 16 1 else s

/-- The PHASE record in force on a die. -/
def State.phaseOf (s : State) (d : Nat) : Option PhaseRec :=
  match Tab.get 0 s.power.phase d with
  | 0 => none
  | n + 1 => s.books.active.bind fun b => b.phases[n]?

/-- The frequency a die is to run: min of the phase's and F_CAST, under shedding (R405, R414). Before any phase it
is F_CAST. -/
def State.dieFreq (s : State) (d : Nat) : Nat :=
  let f := s.fCast
  s.shedLimit (match s.phaseOf d with
    | some p => min (opFreq (s.opNow p.prefOp)) f
    | none => f)

/-- Take a die to the frequency it is to run. -/
def State.retarget (s : State) (d : Nat) : State := s.setTarget d (s.dieFreq d)

/-- The number of PHASE records whose TILE_INDEX lies at or below a TILE index. -/
def phasesBelow (ps : List PhaseRec) (ix : Nat) : Nat := (ps.filter fun p => decide (p.tileIndex ≤ ix)).length

/-- A bay of the die begins a TILE descriptor (R405): the die enters the phase it lies in. -/
def State.phaseEnter (s : State) (d ix : Nat) : State :=
  match s.books.active with
  | none => s
  | some b =>
    let n := phasesBelow b.phases ix
    if n ≤ Tab.get 0 s.power.phase d then s
    else
      let s := { s with power := { s.power with phase := Tab.set 0 s.power.phase d n } }
      let op := ((b.phases[n - 1]?).map (·.prefOp)).getD 0
      let s := s.wrF d pgPwr 0x0C8 33 3 op
      let s := { s with dieEnv := Tab.upd {} s.dieEnv d fun v => { v with op := op } }
      s.retarget d

/-! ### Emergency (R416) -/

/-- Is the part in emergency? -/
def State.emergency (s : State) : Bool :=
  decide (0 < s.shed) || (List.range 4).any (fun d => decide (0 < s.rdF d pgPwr 0x0D8 4 4)) || !s.power.tripped.isEmpty ||
  (match s.power.hardAt with | some t => decide (s.now 0 < t + 10000000) | none => false)

/-- SMB_ALERT_N is low in emergency and while a start-up failure stands (22 R465). -/
def State.alertLow (s : State) : Bool := s.emergency || s.rdF 0 pgRst 0x0A0 4 4 = 0xE

end Sys2Proof.Machine
end

