-- ==== Sys2Proof/Machine/Views.lean ====
section
/-! DEFINITION. What a register reads as (R9): the stored value, or, for registers that show state held elsewhere,
that state. -/

namespace Sys2Proof.Machine

/-- A flag as a bit at a place. -/
def bitAt (b : Bool) (lo : Nat) : Nat := if b then 2 ^ lo else 0

/-- Bits of a predicate over 0 to n − 1. -/
def bitsWhere (n : Nat) (p : Nat → Bool) : Nat := (List.range n).foldl (fun a i => a + bitAt (p i) i) 0

/-! ### Header -/

/-- BLK_ID (Table 5-2). -/
def blkId (d pg : Nat) (k : PageKind) : Nat := k.block + pageInstance pg % 16 * 2 ^ 16 + d * 2 ^ 20

/-- BLK_STATE with UNIT as the unit states stand (Table 5-3). -/
def State.blkState (s : State) (d pg : Nat) : Nat :=
  let v := s.rd d pg 0x018
  if 0x10 ≤ pg ∧ pg ≤ 0x38 ∧ pg % 16 ≤ 8 then putBits v 8 4 (s.unit 0 d (pg % 16)).code else v

/-! ### Matrix engine (Tables 6-7, 6-10) -/

/-- Slots with a submission in the open round (GQ_STAT.PENDING). -/
def GatherQ.pending (g : GatherQ) : Nat := bitsWhere 16 fun i => g.opened.any fun x => x.slot.toNat = i

/-- Rows of a round. -/
def roundRows (r : List GatherSub) : Nat := r.foldl (fun a x => a + x.rows.toNat) 0

/-- Would an MMA_GATHER at a bay's head wait for its round: none is closed, or its rows are still being placed (R131)? -/
def State.gatherWaits (s : State) (d b : Nat) : Bool := (s.gatherOf d b).placing.isSome || (s.gatherOf d b).closed.isEmpty

/-- Does the MXE wait: for an answer, a gate, a mask or a gather round? DESIGN CHOICE (entry 144): a bay held at a layer
gate reads WAITING, which Table 6-7 does not name. -/
def State.mxeWaits (s : State) (d b : Nat) : Bool :=
  let m := s.mxeOf d b
  m.syncing || m.gate.isSome ||
  match m.work with
  | [] => false
  | r :: _ => match s.tileOf r with
    | none => false
    | some t => !(s.waitDone d b t.waitMask) || (t.opcode = 2 && s.gatherWaits d b)

/-- MXEn.BLK_STAT. -/
def State.mxeStat (s : State) (d b : Nat) : Nat :=
  let m := s.mxeOf d b
  let paused := s.rdF d (pgMxe b) 0x020 8 1 = 1 ∧ m.openBy = none ∧ m.drains = []
  let busy := m.openBy.isSome || !m.drains.isEmpty
  let engine := if paused then 3 else if s.mxeWaits d b then 2 else if busy then 1 else 0
  engine + m.bank % 2 * 4 + bitAt busy 3 + bitAt m.ovfHold 4

/-- MXEn.CURSOR: the TILE index of the descriptor at the head of the list. -/
def State.mxeCursor (s : State) (d b : Nat) : Nat :=
  match (s.mxeOf d b).work with
  | [] => 0
  | r :: _ => r.ix

/-- MXEn.GQ_STAT without its counters. -/
def State.gqStat (s : State) (d b : Nat) : Nat :=
  let g := s.gatherOf d b
  let v := s.rd d (pgMxe b) 0x0D0
  roundRows g.opened % 256 + bitAt (!g.closed.isEmpty) 8 + g.pending * 2 ^ 16 + v / 2 ^ 32 * 2 ^ 32

/-- MXEn.GQ_DOORBELL: BELL space, this part and die, offset bay × 4,096 (entry 22). -/
def State.doorbell (s : State) (d b : Nat) : Nat := 3 * 2 ^ 49 + s.device * 2 ^ 40 + d * 2 ^ 38 + b * 4096

/-! ### Vector engine (Table 9-8) -/

/-- VXEn.BLK_STAT. -/
def State.vxeStat (s : State) (d b : Nat) : Nat :=
  let v := s.vxeOf d b
  let engine := if s.rdF d (pgVxe b) 0x020 8 1 = 1 then 3 else if v.syncing then 2
    else if v.prog.isSome && !v.faulted then 1 else 0
  engine + bitAt v.faulted 2 + bitAt v.atEnd 3

/-- VXEn.PROG: the program in progress and its PC; with none in progress the last program, as stored. -/
def State.vxeProg (s : State) (d b : Nat) : Nat :=
  let v := s.vxeOf d b
  match v.prog with
  | some p => p.progId % 2 ^ 32 + v.regs.pc % 65536 * 2 ^ 32
  | none => s.rd d (pgVxe b) 0x080

/-! ### Stream unit (Tables 10-7 to 10-10) -/

/-- SLOTs_STAT. -/
def SuSlot.stat (x : SuSlot) : Nat :=
  let ring := if x.isFeeder then min 255 (x.nDone - x.nRel) else 0
  let persist := match x.desc with | some (_, d) => d.persist | none => false
  let ix := match x.desc with | some (i, _) => i % 2 ^ 24 | none => 0
  x.st.code + bitAt persist 3 + bitAt x.cancelDone 4 + ix * 2 ^ 8 + x.sig * 2 ^ 32 + ring * 2 ^ 48 + x.cause * 2 ^ 56

/-- SLOTs_BASE. -/
def SuSlot.baseReg (x : SuSlot) : Nat :=
  x.base % 2 ^ 52 + (match x.desc with | some (_, d) => d.region % 16 * 2 ^ 60 | none => 0)

/-- The cursor's indices i0 to i5. -/
def SuSlot.index (x : SuSlot) (i : Nat) : Nat :=
  match x.desc with
  | some (_, d) => (indicesOf d.used x.cursor).getD i 0
  | none => 0

/-- Deliveries released: for other kinds than FEEDER a delivery is released as it completes (R226). -/
def SuSlot.released (x : SuSlot) : Nat := if x.isFeeder then x.nRel else x.nDone

/-- Is a tracking entry a slot's, or of a bay's stream unit, which also reads the rows of a gather round (06 R131)? -/
def Track.ofSlot (e : Track) (d b sl : Nat) : Bool := e.owner = .slot d b sl
def Track.ofBaySlots (e : Track) (d b : Nat) : Bool :=
  match e.owner with
  | .slot d' b' _ | .gather d' b' => d' = d && b' = b
  | _ => false

/-- Registers of the SU page. -/
def State.suView (s : State) (d b off : Nat) : Nat :=
  let where' (p : SlotSt → Bool) : Nat → Bool := fun i => p (s.slotOf d b i).st
  let count (p : SlotSt → Bool) : Nat := ((List.range 32).filter (where' p)).length
  match off with
  | 0x028 => bitAt (s.rdF d (pgSu b) 0x020 8 1 = 1) 0 + s.rdF d (pgSu b) 0x028 1 1 * 2 +
      count SlotSt.active * 2 ^ 8 + count (· = .faulted) * 2 ^ 16 + count (· = .cancelling) * 2 ^ 24
  | 0x080 => bitsWhere 32 (where' SlotSt.active)
  | 0x088 => bitsWhere 32 (where' (· = .faulted))
  | 0x090 => min 4096 (s.tracksOn d fun e => e.ofBaySlots d b)
  | _ =>
    if 0x100 ≤ off ∧ off < 0x900 then
      let x := s.slotOf d b ((off - 0x100) / 64)
      match (off - 0x100) % 64 with
      | 0x00 => x.stat
      | 0x10 => x.baseReg
      | 0x18 => x.index 0 + x.index 1 * 2 ^ 16 + x.index 2 * 2 ^ 32 + x.index 3 * 2 ^ 48
      | 0x20 => x.index 4 + x.index 5 * 2 ^ 16 + x.arm % 2 ^ 32 * 2 ^ 32
      | 0x28 => x.faultAddr % 2 ^ 52
      | 0x30 => x.nDone % 2 ^ 32 + x.released % 2 ^ 32 * 2 ^ 32
      | _ => 0
    else s.rd d (pgSu b) off

/-! ### Contexts (Tables 12-8, 12-11) -/

def State.residOf (s : State) (d id : Nat) : Resid := Tab.get {} s.ctx.resid (d * 4096 + id)

/-- Does the bay run the context, for the slots of the bay? -/
def State.bayRuns (s : State) (d b id : Nat) : Bool := s.bayCtx d b = id

/-- CTX_VIEW of the context in CTX_SEL. -/
def State.ctxView (s : State) (d : Nat) : Nat :=
  let id := s.rdF d pgApc 0x428 0 12
  let c : Ctx := Tab.get {} s.ctx.ctxs id
  let r := s.residOf d id
  let faulted := (List.range 9).any fun b =>
    if s.bayRuns d b id then (List.range 32).any fun i => (s.slotOf d b i).st = .faulted
    else match Tab.find s.ctx.saved (id * 64 + bayKey d b) with
      | some x => x.slots.any fun y => y.st = .faulted
      | none => false
  c.st + r.res * 2 ^ 3 + (if 2 ≤ r.res then r.slot * 2 ^ 5 else 0) + c.gen * 2 ^ 12 +
    s.tracksOn d (fun e => e.ctx = id) * 2 ^ 20 + bitAt faulted 37

/-- RES_STAT. -/
def State.resStat (s : State) (d : Nat) : Nat :=
  let count (r : Nat) : Nat := (s.ctx.resid.filter fun e => e.1 / 4096 = d && e.2.res = r).length
  count 2 + count 1 * 2 ^ 7

/-! ### Fuses and keys (Tables 5-7, 21-7, 21-8) -/

/-- Is an owner slot usable (R442), of the fuses as sensed? -/
def Fuses.usable (f : Fuses) (n : Nat) : Bool :=
  bitsOf f.ownerValid.toNat n 1 = 1 && bitsOf f.ownerRevoke.toNat n 1 = 0
/-- Is an owner slot revoked or spoiled (R442)? -/
def Fuses.dead (f : Fuses) (n : Nat) : Bool :=
  bitsOf f.ownerRevoke.toNat n 1 = 1 || (bitsOf f.ownerValid.toNat n 1 = 0 && Tab.get 0 f.ownerHash n != 0)
/-- The anti-rollback counter: the bits blown from bit 0 upwards (Table 21-1). -/
def rollbackCount : Nat → BitVec 64 → Nat
  | 0, _ => 0
  | n + 1, v => if v.getLsbD 0 then 1 + rollbackCount n (v >>> 1) else 0
def Fuses.rollback (f : Fuses) : Nat := rollbackCount 64 f.fwRollback

/-- KEY_TAG of a key (R450). -/
def keyTag (key : List Byte) : Nat := leNat ((sm3 ([0x4F, 0x4C, 0x4B, 0x54] ++ key)).take 8)

/-- SEC_STAT. -/
def State.secStat (s : State) (d : Nat) : Nat :=
  let f := s.sec.sensed
  s.rdF d pgProt 0x880 0 1 + bitAt f.dbgDisable 1 + bitsWhere 4 f.usable * 2 ^ 2 + bitsWhere 4 f.dead * 2 ^ 6 +
    bitAt f.ownerFw 10 + f.rollback * 2 ^ 11 + bitAt (s.sec.fuses ≠ s.sec.sensed) 18 +
    bitAt (Tab.find s.sec.keys 16).isSome 19 + bitsWhere 16 (fun i => (Tab.find s.sec.keys i).isSome) * 2 ^ 20

/-- Registers of the PROT page. -/
def State.protView (s : State) (d off : Nat) : Nat :=
  let f := s.sec.sensed
  if 0x080 ≤ off ∧ off < 0x880 then s.protEntry d ((off - 0x080) / 8)
  else if off = 0x880 then s.secStat d
  else if 0x888 ≤ off ∧ off ≤ 0x890 then bitsOf f.serial.toNat ((off - 0x888) * 8) 64
  else if 0x898 ≤ off ∧ off ≤ 0x8B0 then bitsOf f.vendorHash.toNat ((off - 0x898) * 8) 64
  else if 0x8B8 ≤ off ∧ off ≤ 0x930 then
    bitsOf (Tab.get 0 f.ownerHash ((off - 0x8B8) / 32)).toNat ((off - 0x8B8) % 32 * 8) 64
  else if off = 0x938 then (match Tab.find s.sec.keys 16 with | some k => keyTag k | none => 0)
  else s.rd d pgProt off

/-! ### Rings -/

def State.ringOf (s : State) (d : Nat) : ChgRing := Tab.get {} s.chg d

/-- Registers of the CHG page (Table 5-11). -/
def State.chgView (s : State) (d off : Nat) : Nat :=
  let r := s.ringOf d
  match off with
  | 0x080 => r.next
  | 0x088 => r.next - r.recs.length
  | 0x090 => r.recs.length
  | _ => s.rd d pgChg off

/-- A 64-bit word of a 256-bit digest. -/
def digestWord (x : BitVec 256) (m : Nat) : Nat := bitsOf x.toNat (64 * m) 64

/-- Registers of the STP page that show the books. -/
def State.stpView (s : State) (off : Nat) : Nat :=
  match off with
  | 0x098 =>
    putBits (putBits (s.rd 0 pgStp 0x098) 8 1 (bitAt s.books.staged.isSome 0)) 9 1 (bitAt s.books.held.isSome 0)
  | _ =>
    if 0x0B8 ≤ off ∧ off ≤ 0x0D0 then
      match s.books.active with
      | some b => digestWord b.bookDigest ((off - 0x0B8) / 8)
      | none => 0
    else s.rd 0 pgStp off

/-- UPDATE_STAT (Table 20-12): STAGING while an UPDATE_STAGE message is in process, else the state as stored; the slot's
image is valid unless it failed stage 6. -/
def State.updateStat (s : State) : Nat :=
  let st := s.rdF 0 pgMgc 0x0D0 0 3
  let staging : Bool := match Tab.find s.fw.cur 15 with
    | some m => fieldAt m.bytes 2 2 = 0x0020 && st ≠ 3 && st ≠ 4
    | none => false
  let img := s.fw.slot.getD []
  (if staging then 1 else st) + bitAt (s.fw.slot.isSome && !s.fw.slotBad) 3 + fieldAt img 8 4 * 2 ^ 4

/-- QUEUED (Table 20-14): messages queued at each mailbox. -/
def State.queuedStat (s : State) : Nat :=
  (List.range 16).foldl (fun a n => a + (Tab.get [] s.fw.queue n).length * 16 ^ n) 0

/-- Registers of the MGC page that show the log and the update slot (Table 20-12). -/
def State.mgcView (s : State) (d off : Nat) : Nat :=
  match off with
  | 0x090 => if d = 0 then s.log.next else 0
  | 0x098 => if d = 0 then s.log.next - s.log.ring.length else 0
  | 0x0D0 => if d = 0 then s.updateStat else 0
  | _ => s.rd d pgMgc off

/-- HIST_STAT, BLK_STAT and the other registers of the WIT page. DIGEST_BUSY reads 1 while the die has a chunk open (entry 64). -/
def State.witView (s : State) (d off : Nat) : Nat :=
  match off with
  | 0x128 => s.rdF d pgWit 0x128 0 32 + s.history.due.length % 65536 * 2 ^ 32 +
      min 65535 (s.history.next - s.history.read) * 2 ^ 48
  | 0x028 =>
    let n := (s.digest.dies.filter fun e => e.2 = d).length
    s.rd d pgWit off + min 32 n + bitAt (n ≠ 0) 6 + bitAt s.retained.curB 7
  | _ => s.rd d pgWit off

/-! ### Ethernet queues (22 Table 22-8) -/

/-- Is the page a port's, and the register one of the selected queue? -/
def ethPage (d pg : Nat) : Bool := pageKind d pg = some .eth || pageKind d pg = some .mgt
def ethQueueReg (off : Nat) : Bool := decide (0x098 ≤ off ∧ off ≤ 0x0B0)

/-- The key of the queue that Q_SEL selects. -/
def State.ethKey (s : State) (d pg : Nat) : Nat := (if pg = pgMgt then 4 else d) * 128 + s.rdF d pg 0x090 6 1 * 64 + s.rdF d pg 0x090 0 6

/-- Registers of the selected queue. -/
def State.ethView (s : State) (d pg off : Nat) : Nat :=
  let q : EthQ := Tab.get {} s.io.queues (s.ethKey d pg)
  match off with
  | 0x098 => q.base
  | 0x0A0 => bitAt q.enable 0 + q.entries * 2 ^ 16
  | 0x0A8 => q.head
  | 0x0B0 => q.tail
  | _ => s.rd d pg off

/-- Windows of the root port: in D1's BELL space, at offsets that the spec does not give (entry 40). -/
def State.pcieWin (s : State) (i : Nat) : Nat := 3 * 2 ^ 49 + s.device * 2 ^ 40 + 2 ^ 38 + (Config.pcieWindow i).toNat

/-- Every register's value as a read finds it. -/
def State.view (s : State) (d pg off : Nat) : Nat :=
  match pageKind d pg with
  | none => 0
  | some k =>
    if off = 0x000 then blkId d pg k
    else if off = 0x008 then (Config.blkVer k.block).toNat
    else if off = 0x010 then (if k = .pwr then s.sec.sensed.fLimit + 2 * 2 ^ 11 else k.caps)
    else if off = 0x018 then s.blkState d pg
    else match k with
      | .mxe =>
        if off = 0x028 then s.mxeStat d (pg - 0x10)
        else if off = 0x088 then s.mxeCursor d (pg - 0x10)
        else if off = 0x0D0 then s.gqStat d (pg - 0x10)
        else if off = 0x0D8 then s.doorbell d (pg - 0x10)
        else s.rd d pg off
      | .vxe =>
        if off = 0x028 then s.vxeStat d (pg - 0x20)
        else if off = 0x080 then s.vxeProg d (pg - 0x20)
        else s.rd d pg off
      | .su => s.suView d (pg - 0x30) off
      | .apr => if off = 0x088 then s.laneMap d (pg - 0x44) (s.rdF d pg 0x080 0 6) else s.rd d pg off
      | .apc =>
        if off = 0x430 then s.ctxView d
        else if off = 0x438 then s.resStat d
        else s.rd d pg off
      | .prot => s.protView d off
      | .chg => s.chgView d off
      | .stp => s.stpView off
      | .mgc => s.mgcView d off
      | .mbx => if off = 0x110 then s.queuedStat else s.rd d pg off
      | .wit => s.witView d off
      | .eth | .mgt => if ethQueueReg off then s.ethView d pg off else s.rd d pg off
      | .pcie =>
        if off = 0x088 then s.pcieWin 0
        else if off = 0x090 then s.pcieWin 1
        else if off = 0x098 then Config.msiAddr.toNat
        else s.rd d pg off
      | .pwr => if off = 0x028 then s.rd d pg off + bitAt s.emergency 4 else s.rd d pg off
      | .rtr => if off = 0x0C8 then Tab.get 0 s.routes (s.rdF d pg 0x0C0 0 10) else s.rd d pg off
      | _ => s.rd d pg off

end Sys2Proof.Machine
end

