-- ==== Sys2Proof/Machine/RegWrite.lean ====
section
/-! DEFINITION. A write that reaches a register (05 R88 to R101): access faults, protection, the registers' own
rules, collisions, the change record. What a write sets off beyond the register is the commands' own. -/

namespace Sys2Proof.Machine

/-! ### Precedence (R95) -/

/-- Rank of an origin among writers that collide: 0 is the highest. -/
def originRank : Origin → Nat
  | .fuse => 0 | .hw => 1 | .fw => 2 | .mgmt => 3 | .sys => 4 | .peer => 5 | .ctx => 6 | .dbg => 7

/-- Rank of a write. -/
def wrank (r : WriteReq) : Nat := originRank r.w.origin

/-- Insert behind the writes of equal or higher rank. -/
def insertReq (r : WriteReq) : List WriteReq → List WriteReq
  | [] => [r]
  | x :: xs => if wrank r < wrank x then r :: x :: xs else x :: insertReq r xs

/-- Writes in order of precedence. DESIGN CHOICE (entry 130): R95 gives no order of two writes of one origin in one
cycle; they stay in order of arrival, so the first of the highest origin acts. -/
def sortReqs (rs : List WriteReq) : List WriteReq := rs.foldl (fun a r => insertReq r a) []

/-- SOURCE of a change record: the bits its origin uses (Table 5-10). -/
def sourceBits (w : Writer) : Nat :=
  match w.origin with
  | .fw => bitsOf w.source.toNat 0 8
  | .mgmt => w.source.toNat
  | .sys => bitsOf w.source.toNat 0 4
  | .ctx => bitsOf w.source.toNat 0 20
  | .peer => bitsOf w.source.toNat 0 9
  | _ => 0

/-! ### The registers' own rules (R94) -/

/-- Table 4-4: may the origin request a reset of RST.REQ's DOMAIN? A SYS writer names its own die's cluster only. -/
def resetAllowed (w : Writer) (v : Nat) : Bool :=
  match bitsOf v 0 3 with
  | 1 | 2 | 4 | 5 => w.origin = .hw || w.origin = .fw || w.origin = .mgmt
  | 3 => w.origin = .fw || w.origin = .mgmt || (w.origin = .sys && w.die.val = bitsOf v 4 2)
  | _ => true

/-- Is this the context that runs the active book, at its current generation (R244)? -/
def State.bookWriter (s : State) (w : Writer) : Bool :=
  let c : Ctx := Tab.get {} s.ctx.ctxs (bitsOf w.source.toNat 0 12)
  c.book && s.books.active.isSome && c.gen = bitsOf w.source.toNat 12 8

/-- Is the route bank in use, or kept (R327)? -/
def State.bankInUse (s : State) (d bank : Nat) : Bool :=
  bank = s.rdF d pgRtr 0x028 0 1 || s.rdF d pgRtr 0x028 1 1 = 1

/-- Are the registers of the selected queue denied to a SYS writer (22 R459: queue 63 of D0's 400GBASE-CR4 port while
PTP_ROOT is 1)? -/
def State.queueDenied (s : State) (d pg off : Nat) (w : Writer) : Bool :=
  d = 0 && pg = pgEth && w.origin = .sys && decide (0x098 ≤ off ∧ off ≤ 0x0B0) && s.rdF 0 pgEth 0x090 0 6 = 63 &&
    s.rdF 0 pgTim 0x088 0 1 = 1

/-- A register's own rule on its writers (R94): RST.REQ by Table 4-4, SLOTs_CTRL by R244, VCT_DATA by R327, CUE by
R378, Ethernet queues by 22 R459. -/
def State.ownRule (s : State) (d pg off : Nat) (r : WriteReq) : Bool :=
  match pageKind d pg with
  | some .rst => if off = 0x080 then resetAllowed r.w r.value.toNat else true
  | some .su => if r.w.origin = .ctx ∧ 0x100 ≤ off ∧ off % 64 = 8 then s.bookWriter r.w else true
  | some .rtr => if off = 0x0C8 then !(s.bankInUse d (s.rdF d pgRtr 0x0C0 9 1)) else true
  | some .eth => !(s.queueDenied d pg off r.w)
  | some .cue =>
    if r.w.origin = .peer ∧ off ≠ 0x080 then false
    else if off = 0x0B8 ∨ off = 0x088 ∨ off = 0x090 then r.w.origin = .fw
    else true
  | _ => true

/-! ### Storing, and what the record says of it -/

/-- The value after a write by the access types of the register's fields (R9). -/
def RegInfo.after (i : RegInfo) (old v : Nat) : Nat :=
  ((old &&& (maskN 64 ^^^ i.rw)) ||| (v &&& i.rw)) &&& (maskN 64 ^^^ (v &&& i.w1c))

/-- Slots of the die that other queues hold (R134). -/
def State.gqTaken (s : State) (d b : Nat) : Nat :=
  (List.range 9).foldl (fun a i => if i = b then a else a ||| s.rd d (pgMxe i) 0x0C8) 0

/-- Store into the selected Ethernet queue (22 Table 22-8). -/
def State.storeQueue (s : State) (d pg off v : Nat) : State :=
  let k := s.ethKey d pg
  let q : EthQ := Tab.get {} s.io.queues k
  let q := match off with
    | 0x098 => { q with base := v }
    | 0x0A0 => { q with enable := bitsOf v 0 1 = 1, entries := bitsOf v 16 16 }
    | 0x0B0 => { q with tail := v % 4096 }
    | _ => q
  { s with io := { s.io with queues := Tab.set {} s.io.queues k q } }

/-- Store what a write leaves in its register. -/
def State.store (s : State) (d pg off : Nat) (v : Nat) : State :=
  let i := regInfo d pg off
  let old := if ethPage d pg && ethQueueReg off then s.ethView d pg off else s.rd d pg off
  let new := i.after old v
  match pageKind d pg with
  | some .eth | some .mgt => if ethQueueReg off then s.storeQueue d pg off new else s.wr d pg off new
  | some .stp =>
    if off = 0x090 then s.wr d pg off (if bitsOf old 0 1 = 1 then 1 else bitsOf v 0 1)
    else s.wr d pg off new
  | some .mxe =>
    if off = 0x0C8 then
      let taken := s.gqTaken d (pg - 0x10)
      let s := s.wr d pg off (new &&& (maskN 16 ^^^ taken))
      if new &&& taken = 0 then s else s.setErr d pg 12
    else s.wr d pg off new
  | some .rtr =>
    if off = 0x0C0 then foldNat 4 (fun s d => s.wr d pg off new) s
    else if off = 0x0C8 then
      { s with routes := Tab.set 0 s.routes (s.rdF d pg 0x0C0 0 10) (v % 64) }
    else s.wr d pg off new
  | _ => s.wr d pg off new

/-- Registers whose DETAIL is the value in force at the last activation (R181, R350, R378, R379, R404). -/
def detailInForce (d pg off : Nat) : Bool :=
  match pageKind d pg with
  | some .stp => off = 0x100 || off = 0x108 || off = 0x110 || off = 0x200
  | some .wit => off = 0x090
  | some .cue => off = 0x080
  | some .pwr => decide (0x080 ≤ off ∧ off < 0x0C0)
  | _ => false

/-- DETAIL of a change record (Table 5-10, and the chapters' own sentences). -/
def State.detail (s : State) (d pg off : Nat) : Nat :=
  if (regInfo d pg off).rwl = false then 0
  else if detailInForce d pg off then s.inf d pg off
  else match pageKind d pg with
    | some .su => if 0x100 ≤ off then s.view d pg (off - 8) else s.blkState d pg
    | some .rtr => if off = 0x0C8 then s.rd d pg 0x0C0 else s.blkState d pg
    | some .mbx => if 0x080 ≤ off then s.rd d pg 0x100 else s.blkState d pg
    | some .rst => if off = 0x100 then s.rd d pg off else s.blkState d pg
    | some .pwr => if off = 0x0C0 then s.rd d pg off else s.blkState d pg
    | _ => s.blkState d pg

/-- Is a write of this value HELD (R98, R99; on a port in RETRAIN, a close, R308)? -/
def State.isHeld (s : State) (d pg off v : Nat) : Bool :=
  off = 0x020 && (s.blkIs d pg 1 || s.blkIs d pg 3 || (bitsOf v 0 1 = 1 && s.rdF d pg 0x018 4 1 = 1) ||
    (pageKind d pg = some .cp && s.rdF d pg 0x028 0 3 = 5 && bitsOf v 0 1 = 0))

/-- Put a record into the die's ring (R101, R102). -/
def State.record (s : State) (d pg off : Nat) (r : WriteReq) (o : WOutcome) (old new detail : Nat) : State :=
  let g := s.ringOf d
  let i := regInfo d pg off
  let c : ChangeRec := ⟨s.now d, g.next, d, r.w.origin.code, o, bitAt i.rwl 0 + bitAt (i.wo != 0) 1, pg, off, old,
    new, r.value.toNat, detail, sourceBits r.w⟩
  { s with chg := Tab.set {} s.chg d ⟨g.next + 1, (c :: g.recs).take 8192⟩ }

/-- WRITE_SEQ, LAST_WRITE_ORIGIN and LAST_WRITE_TIME (Table 5-2). -/
def State.lastWrite (s : State) (d pg off : Nat) (o : Origin) : State :=
  let s := s.incF d pg 0x060 0 64 1
  let s := s.wr d pg 0x050 (o.code + off / 8 * 8)
  s.wr d pg 0x058 (s.now d)

/-! ### Reaching the register -/

/-- What came of the writes of one cycle to one register: the state, the write that acted, and whether it is held. -/
structure Committed where
  s    : State
  win  : Option WriteReq := none
  held : Bool := false

/-- Access faults (R10, R12, R88): reported, not performed. -/
def accessOk (d pg off : Nat) (r : WriteReq) : Bool :=
  r.w.origin != .dbg && (pageKind d pg).isSome && r.width = 8 && off % 8 = 0

/-- Report a write that is not performed (R88). DESIGN CHOICE (entry 129): R12 says of a write with code 7 only that the
part accepts none; it is answered by one ACCESS_REFUSED log entry and no error bit. -/
def State.accessFault (s : State) (d pg off : Nat) (r : WriteReq) : State :=
  let s := if r.w.origin = .dbg then s
    else if (pageKind d pg).isNone then s.setErr d pgDie 8
    else s.setErr d pg 0
  s.logRefused d pg off r.w.origin

/-- Is the write allowed by the protection table and by the register's own rule (R92, R94), and not from U mode (22 R454)? -/
def State.mayWrite (s : State) (d pg off : Nat) (r : WriteReq) : Bool :=
  !r.w.user && s.protAllows d pg r.w.origin true && s.ownRule d pg off r

/-- Records of the writes that lost a collision (R95). -/
def State.loseAll (s : State) (d pg off old detail : Nat) (rs : List WriteReq) : State :=
  rs.foldl (fun s r => (s.setErr d pg 2).record d pg off r .superseded old old detail) s

/-- Records of the writes that were refused (R92, R95). -/
def State.denyAll (s : State) (d pg off old detail : Nat) (rs : List WriteReq) : State :=
  rs.foldl (fun s r => (s.setErr d pg 1).record d pg off r .denied old old detail) s

/-- The write that acts: stored, counted and recorded. A fuse load leaves no record (R101). -/
def State.winOne (s : State) (d pg off old detail : Nat) (r : WriteReq) : State :=
  let held := s.isHeld d pg off r.value.toNat
  let s := s.store d pg off r.value.toNat
  if r.w.origin = .fuse then s
  else
    let s := s.lastWrite d pg off r.w.origin
    s.record d pg off r (if held then .held else .applied) old (s.view d pg off) detail

/-- Writes that reach one register in one cycle (R88 to R101). While the page's island is in reset they are held at
the crossing (R100). -/
def State.commit (s : State) (d pg off : Nat) (reqs : List WriteReq) : Committed :=
  let bad := reqs.filter fun r => !(accessOk d pg off r)
  let good := reqs.filter (accessOk d pg off)
  let s := bad.foldl (fun s r => s.accessFault d pg off r) s
  if good.isEmpty then ⟨s, none, false⟩
  else if s.inReset d pg then ⟨{ s with heldW := s.heldW ++ [(d, pg, off, good, s.now d)] }, none, false⟩
  else
    let old := s.view d pg off
    let detail := s.detail d pg off
    let denied := sortReqs (good.filter fun r => !(s.mayWrite d pg off r))
    let ok := if (regInfo d pg off).writable then sortReqs (good.filter (s.mayWrite d pg off)) else []
    match ok with
    | [] => ⟨s.denyAll d pg off old detail denied, none, false⟩
    | w :: ls =>
      let held := s.isHeld d pg off w.value.toNat
      let s := s.winOne d pg off old detail w
      let s := s.loseAll d pg off old detail ls
      ⟨s.denyAll d pg off old detail denied, some w, held⟩

/-- One write of a register by a writer, of a whole word. -/
def State.write1 (s : State) (d pg off : Nat) (w : Writer) (v : Nat) : Committed :=
  s.commit d pg off [⟨w, BitVec.ofNat 64 v, 8⟩]

/-- The write acted: go on with its effect; else the state as the refusal left it. -/
def Committed.then_ (c : Committed) (f : State → State) : State := if c.win.isSome then f c.s else c.s

end Sys2Proof.Machine
end

