-- ==== Sys2Proof/Machine/Atomics.lean ====
section
/-! DEFINITION. The atomic operations of the shared cache and the ordered reduce (11 R254 to R259). -/

namespace Sys2Proof.Machine

/-- The BF16 layout. -/
def bf16L : FpFmt := ⟨8, 7, 127, .ieee⟩

/-- Combine two packed values element by element, `n` elements of `w` bits. -/
def elemwise (w : Nat) (f : Nat → Nat → Nat) : Nat → Nat → Nat → Nat
  | 0, _, _ => 0
  | n + 1, a, b => f (a % 2 ^ w) (b % 2 ^ w) % 2 ^ w + 2 ^ w * elemwise w f n (a / 2 ^ w) (b / 2 ^ w)

/-- The atomic operations of Table 11-3. -/
inductive AtomOp where
  | addI32 | addU64 | addF32 | addBf16 | minI32 | maxI32 | minF32 | maxF32 | minU64 | maxU64 | cas | swap
  deriving DecidableEq, Repr

/-- The operation of a code (Table 11-3). -/
def AtomOp.ofCode : Nat → Option AtomOp
  | 1 => some .addI32 | 2 => some .addU64 | 3 => some .addF32 | 4 => some .addBf16 | 5 => some .minI32
  | 6 => some .maxI32 | 7 => some .minF32 | 8 => some .maxF32 | 9 => some .minU64 | 10 => some .maxU64
  | 11 => some .cas | 12 => some .swap | _ => none

/-- Sizes that Table 11-3 allows an operation. -/
def AtomOp.sizeOk (op : AtomOp) (size : Nat) : Bool :=
  match op with
  | .addU64 | .minU64 | .maxU64 => size = 8
  | _ => size = 4 || size = 8

/-- The new contents of the `size` bytes (R255): elements of 32 bits, or 16 for ADD_BF16, or the whole. -/
def AtomOp.apply (op : AtomOp) (size old operand compare : Nat) : Nat :=
  let w32 (f : Nat → Nat → Nat) : Nat := elemwise 32 f (size / 4) old operand
  match op with
  | .addI32 => w32 fun a b => a + b
  | .addU64 => (old + operand) % 2 ^ 64
  | .addF32 => w32 fun a b => (fpAdd fp32L .rne false a b).enc
  | .addBf16 => elemwise 16 (fun a b => (fpAdd bf16L .rne false a b).enc) (size / 2) old operand
  | .minI32 => w32 fun a b => if sext 32 b < sext 32 a then b else a
  | .maxI32 => w32 fun a b => if sext 32 a < sext 32 b then b else a
  | .minF32 => w32 fun a b => (fpMinMax fp32L false true a b).enc
  | .maxF32 => w32 fun a b => (fpMinMax fp32L true true a b).enc
  | .minU64 => min old operand
  | .maxU64 => max old operand
  | .cas => if old = compare % 2 ^ (8 * size) then operand % 2 ^ (8 * size) else old
  | .swap => operand % 2 ^ (8 * size)

/-- Refuse an atomic (R255): nothing is written. -/
def State.atomRefused (s : State) (r : Req) (st : Status) : State :=
  (s.setErr (addrDie r.addr.toNat) pgShc 12).answer r st []

/-- Perform an atomic on present, aligned, good data: the old value is the answer, and watches see the write. -/
def State.atomDo (s : State) (r : Req) (op : AtomOp) (size operand compare : Nat) : State :=
  let a := r.addr.toNat
  let k := addrKey a
  let old := leNat (s.memRead k size)
  let new := op.apply size old operand compare
  let s := (s.lookRange k size).memStore k (leBytes size new)
  let s := s.incF (addrDie a) pgShc 0x0C0 0 64 1
  let s := s.evalWatches k size
  s.answer r .ok (leBytes size old)

/-! ### The ordered reduce (R258, R259) -/

/-- Add a rank's data to a line, element type 0 FP32, 1 BF16, 2 INT32 (R258 rule 1). -/
def redAdd (etype : Nat) (old data : List Byte) : List Byte :=
  let a := leNat old
  let b := leNat data
  leBytes 256 (match etype with
    | 0 => elemwise 32 (fun x y => (fpAdd fp32L .rne false x y).enc) 64 a b
    | 1 => elemwise 16 (fun x y => (fpAdd bf16L .rne false x y).enc) 128 a b
    | _ => elemwise 32 (fun x y => x + y) 64 a b)

/-- A reduce fails (R259): the error bit, a log entry, no certification. -/
def State.redFail (s : State) (line : Nat) : State :=
  let d := line / 2 ^ 30 % 4
  let s := s.setErr d pgShc 11
  let s := s.logAt d srcHw .reduceFail [d, line * 256]
  s.noCert 6

/-- Apply the contribution of rank p to a line whose progress is p; rank 0 writes whole sectors, and watches see the
write. -/
def State.redApply (s : State) (line : Nat) (c : ParkedLine) : State :=
  let k := line * 256
  let data := if c.rank = 0 then c.data else redAdd c.etype (s.memRead k 256) c.data
  let s := (s.lookRange k 256).memStore k data
  let p := c.rank + 1
  let s := if c.rank = 0 then (List.range 4).foldl (fun s i => s.clearBad (line * 4 + i)) s else s
  let red := if p = c.count then Tab.del s.mem.reduce line else Tab.put s.mem.reduce line ⟨p, c.count, c.etype⟩
  { s with mem := { s.mem with reduce := red } }.evalWatches k 256

/-- A contribution whose turn has come meets its line (R258, R268): rank 0 writes whole sectors, another reads them first and
is not performed on uncorrectable data. Whether it was performed. -/
def State.redMeet (s : State) (line : Nat) (c : ParkedLine) : State × Bool :=
  let s := if c.rank = 0 then s else s.checkRange (line * 256) 256
  if c.rank ≠ 0 ∧ s.rangeBad (line * 256) 256 then (s, false) else (s.redApply line c, true)

/-- Apply parked contributions of a line whose turn has come, until one meets uncorrectable data: that one stays parked and the
reduce does not complete, which its end reports (R259; entry 164). -/
def redDrain : Nat → State → Nat → State
  | 0, s, _ => s
  | n + 1, s, line =>
    let p := ((Tab.find s.mem.reduce line).map (·.p)).getD 0
    match s.mem.parked.find? fun c => c.line = line && c.rank = p with
    | none => s
    | some c =>
      let r := s.redMeet line c
      if r.2 = false then r.1
      else redDrain n { r.1 with mem := { r.1.mem with parked := r.1.mem.parked.erase c } } line

/-- The lines of a die with an open reduce and the parked contributions, in REDUCE_STAT. -/
def State.redStat (s : State) (d : Nat) : State :=
  let s := s.wrF d pgShc 0x0C8 0 16 (s.mem.reduce.filter fun e => e.1 / 2 ^ 30 % 4 = d).length
  s.wrF d pgShc 0x0C8 16 16 (s.mem.parked.filter fun c => c.line / 2 ^ 30 % 4 = d).length

/-- The park buffer of a die is 2 MiB (R258). -/
def parkLines : Nat := 8192

/-- Progress of a line. -/
def State.redProgress (s : State) (line : Nat) : Nat := ((Tab.find s.mem.reduce line).map (·.p)).getD 0

/-- Does a contribution fail by R259: r ≥ C, another C or element type than the line's, or a rank that arrives twice? -/
def State.redFaulty (s : State) (c : ParkedLine) : Bool :=
  let differs : Bool := match Tab.find s.mem.reduce c.line with
    | some x => x.count != c.count || x.etype != c.etype
    | none => s.mem.parked.any fun y => y.line = c.line && (y.count != c.count || y.etype != c.etype)
  decide (c.count ≤ c.rank) || differs || decide (c.rank < s.redProgress c.line) ||
    s.mem.parked.any fun y => y.line = c.line && y.rank = c.rank

/-- Does the bank withhold credit (R258 rule 4): a fifth way of the set would get an open reduce, or the contribution is
to be parked and the die's park buffer is full? -/
def State.redBlocked (s : State) (c : ParkedLine) : Bool :=
  if s.redFaulty c then false
  else if c.rank = s.redProgress c.line then
    c.rank = 0 && c.count != 1 && decide (4 ≤ (s.mem.reduce.filter fun e => s.setKey e.1 = s.setKey c.line).length)
  else decide (parkLines ≤ (s.mem.parked.filter fun y => y.line / 2 ^ 30 % 4 = c.line / 2 ^ 30 % 4).length)

/-- One line of a contribution that is not held off (R258): applied in turn, parked before its turn, failed where R259
says. False where uncorrectable data keeps it off (R268). -/
def State.redLine (s : State) (c : ParkedLine) : State × Bool :=
  if s.redFaulty c then (s.redFail c.line, true)
  else if c.rank = s.redProgress c.line then
    let r := s.redMeet c.line c
    if r.2 then (redDrain (r.1.mem.parked.length + 1) r.1 c.line, true) else r
  else ({ s with mem := { s.mem with parked := s.mem.parked ++ [c] } }, true)

/-- The first line of what is left of a contribution, and what is left behind it. -/
def RedHeld.first (h : RedHeld) : ParkedLine := ⟨h.key / 256, h.red.rank, h.red.count, h.red.etype.toNat, h.data.take 256⟩
def RedHeld.next (h : RedHeld) (ok : Bool) : RedHeld :=
  { h with key := h.key + 256, data := h.data.drop 256, ok := h.ok && ok }

/-- Take the lines of a contribution in order until one is held off: the state, and what is left. -/
def redLines : Nat → State → RedHeld → State × RedHeld
  | 0, s, h => (s, h)
  | n + 1, s, h =>
    if h.data.isEmpty ∨ s.redBlocked h.first then (s, h)
    else
      let r := s.redLine h.first
      redLines n r.1 (h.next r.2)

/-- Run a contribution: answered where every line is taken, else held at place `i` of those that wait. -/
def State.redRun (s : State) (i : Nat) (h : RedHeld) : State :=
  let d := h.key / 2 ^ 38 % 4
  let r := redLines (h.data.length / 256 + 1) s h
  let s := r.1.redStat d
  if r.2.data.isEmpty then s.answer h.req (if r.2.ok then .ok else .uncorrectable) []
  else { s with mem := { s.mem with redHeld := s.mem.redHeld.take i ++ r.2 :: s.mem.redHeld.drop i } }

/-- Contributions of one seam or port stay in order. -/
def sameSource (a b : Req) : Bool := a.src = b.src && a.die = b.die

/-- Contributions that wait go on where the bank takes them again, the oldest first. -/
def redRetry : Nat → State → State
  | 0, s => s
  | n + 1, s =>
    let ready (i : Nat) : Bool := match s.mem.redHeld[i]? with
      | some h => !(s.redBlocked h.first) && !((s.mem.redHeld.take i).any fun x => sameSource x.req h.req)
      | none => false
    match (List.range s.mem.redHeld.length).find? ready with
    | none => s
    | some i => match s.mem.redHeld[i]? with
      | none => s
      | some h => redRetry n ({ s with mem := { s.mem with redHeld := s.mem.redHeld.eraseIdx i } }.redRun i h)

/-- A contribution of `data` at key `k` arrives. Where its bank withholds credit it waits, counted in REDUCE_STAT. -/
def State.redArrive (s : State) (r : Req) (k : Nat) (f : RedFields) (data : List Byte) : State :=
  let h : RedHeld := ⟨r, f, k, data, true⟩
  let n := s.mem.redHeld.length
  let behind := s.mem.redHeld.any fun x => sameSource x.req r
  let s := if behind then { s with mem := { s.mem with redHeld := s.mem.redHeld ++ [h] } } else s.redRun n h
  let s := if n < s.mem.redHeld.length then s.incF (k / 2 ^ 38 % 4) pgShc 0x0C8 32 16 1 else s
  redRetry ((s.mem.redHeld.map fun x => x.data.length / 256 + 1).foldl (· + ·) 1) s

/-- The lines of what is left of a contribution. -/
def RedHeld.lines (h : RedHeld) : List Nat := (List.range (h.data.length / 256)).map (h.key / 256 + ·)

/-- At the end of action 1 a line that still has p < C fails (R259), also one of which only later ranks have come; its
reduce ends, and what is parked or waits for it goes. -/
def State.redEnd (s : State) : State :=
  let lines := (s.mem.reduce.map (·.1) ++ s.mem.parked.map (·.line) ++ s.mem.redHeld.flatMap RedHeld.lines).eraseDups
  let s := lines.foldl State.redFail s
  let s := { s with mem := { s.mem with reduce := [], parked := [], redHeld := [] } }
  (List.range 4).foldl State.redStat s

end Sys2Proof.Machine
end

