-- ==== Sys2Proof/Machine/Home.lean ====
section
/-! DEFINITION. Requests at their home (11 R246, R254 to R257, R268; 12 R285; 14 R311, R316, R319) as the engines
of the part use them: what admits a request, the semaphore operations, and requests sent to another part. -/

namespace Sys2Proof.Machine

/-! ### Admission -/

/-- The age of a request in units of 256 ns (R316). -/
def State.ageOf (s : State) (r : Req) : Nat := (s.now (addrDie r.addr.toNat) / 256 + 2 ^ 32 - r.issue.toNat) % 2 ^ 32

/-- A request is discarded by age: counted, and its watch removed (R257, R285 rule 2). -/
def State.discardAged (s : State) (r : Req) : State :=
  let d := addrDie r.addr.toNat
  let s := s.incF d pgRtr 0x0F0 0 16 1
  let s := s.setErr d pgRtr 10
  s.dropWatches d fun w => w.req = r

/-- A request from a fenced device is not performed (R285 rule 4). -/
def State.discardFenced (s : State) (r : Req) : State :=
  let d := addrDie r.addr.toNat
  (s.incF d pgRtr 0x0F0 16 16 1).setErr d pgRtr 11

/-- A request by the debug path, which production parts have not (R12, R91): one log entry, an error response and no
error bit (entry 129). -/
def State.dbgRefused (s : State) (r : Req) : State :=
  (s.logAt (addrDie r.addr.toNat) srcHw .accessRefused [r.addr.toNat, r.w.origin.code]).answer r .refused []

/-- The page of the unit that a request reaches: its register page, the bay behind a doorbell, or the die's shared cache;
none for an absent page. -/
def homePage (a : Nat) : Option Nat :=
  if addrSpace a = 6 then (regPlace a).map (·.2.1)
  else if addrSpace a = 3 ∧ addrOff a / 4096 < 9 then some (pgMxe (addrOff a / 4096))
  else some pgShc

/-- Is the unit that a request reaches in reset, so that its sender is held (R72, R97)? -/
def State.homeWaits (s : State) (a : Nat) : Bool := (homePage a).any (s.inReset (addrDie a))

/-! ### Seams (01 R16, 11 R249) -/

/-- The seam end of die `d` towards its ring neighbour `e`: SEAM0 towards the lower-numbered one (04 Table 4-1). -/
def seamPage (d e : Nat) : Nat := if e = (if d = 0 ∨ d = 3 then 1 else 0) then 0x58 else 0x59

/-- The dies that a request from die `d` passes on its way to its home on die `h`, `d` first: over the seam that joins
them, or through an intermediate die, for a stream by bit g[0] of its granule, for a short-path transfer (none) the
lower-numbered one. A reply takes the path in reverse. -/
def seamPath (d h : Nat) (stream : Option Nat) : List Nat :=
  if d = h then [d]
  else if d + h = 3 then
    let g := (stream.getD 0) / 256 % 2
    [d, (if d = 0 ∨ d = 3 then 1 + g else 3 * g), h]
  else [d, h]

/-- Is the seam between two ring neighbours at work: neither end in reset? -/
def State.seamOpen (s : State) (d e : Nat) : Bool := !(s.inReset d (seamPage d e)) && !(s.inReset e (seamPage e d))

/-- Is every seam on a request's path at work? A request that meets one in reset is held (04 R72). -/
def State.pathOpen (s : State) (d h : Nat) (stream : Option Nat) : Bool :=
  let p := seamPath d h stream
  (p.zip p.tail).all fun x => s.seamOpen x.1 x.2

/-! ### Order of a port's transfers (10 R242) -/

/-- Is a transfer of a port of this part at its home before an earlier one of the port to it has been performed? It waits. -/
def State.outOfTurn (s : State) (r : Req) : Bool :=
  r.src.isNone && match s.trackOf r.die r.track.toNat with
    | some e => (match e.owner with
      | .port p => s.behind r.die (portIx p) r.addr.toNat fun n => decide (n < e.seq)
      | _ => false)
    | none => false

/-- A transfer of a port of this part is performed at its home. -/
def State.inTurn (s : State) (r : Req) : State :=
  match r.src, s.trackOf r.die r.track.toNat with
  | none, some e => (match e.owner with
    | .port _ => s.putTrack r.die r.track.toNat { e with performed := true }
    | _ => s)
  | _, _ => s

/-- The die at which a request enters the way to its home: that of its requester, or, from another part, that of the port it
came in at (14 R310). -/
def reqEntry (r : Req) : Nat := if r.src.isSome then portDie r.port else r.die

/-- May an access of an agent on die `d` reach the shared cache at `a`: neither it nor a seam on the way is in reset? -/
def State.reaches (s : State) (d a : Nat) : Bool := !(s.inReset (addrDie a) pgShc) && s.pathOpen d (addrDie a) none

/-- A request of another part with the packet type that its command names, and the flow of a circuit: its answer goes by them
(R315, Table 14-1). -/
def came (r : Req) (ptype : BitVec 8) (flow : Option (BitVec 16)) : Req :=
  if r.src.isSome then { r with ptype := ptype, flow := flow } else r

/-- Perform `f` for a request at its home, unless its age, its sender or its DEVICE stops it. While the island of the
unit, or a seam on the way, is in reset its sender is held: the request stays where it is, and the same command may come again (R72, R97;
entry 134). A data packet on a circuit whose DEVICE is another part's keeps the step from certification (R319). -/
def State.atHome (s : State) (r : Req) (circuit : Bool) (f : State → State) (stream : Bool := false) : State :=
  let d := addrDie r.addr.toNat
  if s.homeWaits r.addr.toNat then s
  else if s.pathOpen (reqEntry r) d (if stream then some r.addr.toNat else none) = false then s
  else if s.outOfTurn r then s
  else
  let s := s.inTurn r
  if r.src.isNone ∧ r.w.origin = .dbg then s.dbgRefused r
  else if 78125 < s.ageOf r then s.discardAged r
  else if (match r.src with | some x => s.fenced x.val | none => false) then s.discardFenced r
  else if addrDev r.addr.toNat ≠ s.device then
    let s := s.setErr d pgRtr 15
    (if circuit then s.noCert 6 else s).answer r .refused []
  else f s

/-- An access to a reserved space or an absent offset (R246): logged, answered REFUSED. -/
def State.spaceRefused (s : State) (r : Req) : State :=
  let d := addrDie r.addr.toNat
  let s := s.setErr d pgShc 13
  let s := s.logAt d srcHw .accessRefused [r.addr.toNat, r.w.origin.code]
  s.answer r .refused []

/-- Does the range lie in STACK space, present to the writer? -/
def stackRange (r : Req) (n : Nat) : Bool :=
  addrSpace r.addr.toNat = 0 && stackPresent r.addr.toNat n r.w.origin

/-! ### Semaphores and atomics -/

/-- SEMWAIT at its home (R257): a watch, evaluated at once. -/
def State.homeSemwait (s : State) (r : Req) (value : BitVec 64) (env : EccEnv) : State :=
  if !(stackRange r 8) then s.spaceRefused r
  else if r.addr.toNat % 8 ≠ 0 then s.atomRefused r .refused
  else (s.check (addrKey r.addr.toNat) 8 env).placeWatch (addrDie r.addr.toNat) ⟨r, value, false⟩

/-- An atomic at its home (R254, R255, R268). -/
def State.homeAtom (s : State) (r : Req) (op : AtomOp) (size operand compare : Nat) (env : EccEnv) : State :=
  if !(stackRange r size) then s.spaceRefused r
  else if !(op.sizeOk size) ∨ r.addr.toNat % size ≠ 0 then s.atomRefused r .refused
  else
    let s := s.check (addrKey r.addr.toNat) size env
    if s.rangeBad (addrKey r.addr.toNat) size then s.atomRefused r .uncorrectable
    else s.atomDo r op size operand compare

/-! ### To another part -/

/-- A write by the part into its own stack memory (R468): false where the place is not such memory, or where
uncorrectable data kept a part of it. -/
def State.partWrite (s : State) (a : Nat) (xs : List Byte) : State × Bool :=
  if addrSpace a = 0 ∧ addrDev a = s.device ∧ addrOff a + xs.length ≤ homeSize then s.ownWrite (addrKey a) xs
  else (s, false)

/-- A write of a structure by the part that would fill a part of a sector (R468): where uncorrectable data keeps it off,
the home logs the refusal (R269). -/
def State.partPublish (s : State) (a : Nat) (xs : List Byte) : State × Bool :=
  let sec := addrKey a / 64
  let known := Tab.get false s.mem.found sec
  let r := s.partWrite a xs
  if r.2 = false ∧ known = true then (r.1.reportUe (sec * 64) 1 false, false) else r

/-- A request of an engine's semaphore on this part (R205, R120): performed at its home at once. -/
def engineReq (s : State) (d b a t : Nat) : Req := s.ownReq d t (s.bayCtx d b) a

/-- May an engine's semaphore transfer issue at its bay's port, behind those that wait there or are still to be performed
at its home (10 R241, R242), with the seams on its way at work, or within the window where it goes to another part? -/
def State.semReady (s : State) (d b a : Nat) : Bool :=
  let ix := bayKey d b
  (s.portAt ix).waiting.isEmpty &&
    (if addrDev a != s.device then s.mayLeave d ix a 8
     else s.pathOpen d (addrDie a) none && !(s.behind d ix a fun _ => true))

/-- A semaphore wait or add of an engine (R120, R205): at its home on this part, or sent to another part. With no
tracking entry free it waits (R285); with no route it is answered NO_ROUTE (R311). -/
def State.engineSem (s : State) (d b : Nat) (vxe add : Bool) (a v : Nat) : State :=
  match s.freeTrack d with
  | none => s
  | some t =>
    let o : Owner := if vxe then .vxe d b else .mxe d b
    let remote := addrDev a != s.device
    let open' (s : State) : State :=
      let s := s.openTrack d (s.bayCtx d b) a o remote false fun e =>
        { e with bytes := if remote then 8 else 0, windowed := remote, bank := s.bank, write := add }
      let s := s.incF d (pgSu b) 0x0C0 0 32 1
      if vxe then s.setVxe d b { s.vxeOf d b with syncing := true }
      else s.setMxe d b { s.mxeOf d b with syncing := true }
    if s.semReady d b a = false then s
    else if remote then
      match s.route (addrDev a) with
      | none => (s.setErr d pgRtr 14).syncError d b (s.bayCtx d b) vxe .noRoute true
      | some _ => (open' s).sendCt d (addrDev a)
          { ptype := if add then 0x03 else 0x04, control := true, req := engineReq s d b a t, length := 8,
            op := if add then 2 else 0, data := leBytes 8 v }
    else
      let s := open' s
      let r := engineReq s d b a t
      if add then s.homeAtom r .addU64 8 v 0 {} else s.homeSemwait r (BitVec.ofNat 64 v) {}

end Sys2Proof.Machine
end

