-- ==== Sys2Proof/Machine/Slots.lean ====
section
/-! DEFINITION. What befalls a slot besides its deliveries: the fault queue (12 R284), cancellation (10 R234 to
R237), and the end of a bay's lists (02 R28, 10 R237). -/

namespace Sys2Proof.Machine

/-! ### The fault queue (R284) -/

/-- The 64 bytes of a fault record (Table 12-7). -/
def FaultRec.bytes (r : FaultRec) : List Byte :=
  let body := leBytes 8 r.time ++ leBytes 8 (r.va % 2 ^ 48) ++ leBytes 2 r.ctx ++ leBytes 1 r.gen ++ leBytes 1 r.kind ++
    leBytes 1 r.level ++ leBytes 1 r.access ++ leBytes 1 (r.bay + r.die * 16) ++ leBytes 1 r.slot ++
    leBytes 8 r.seq ++ leBytes 28 0
  body ++ leBytes 4 (crc32 body)

/-- FAULTQ_CTRL.ENTRIES as it acts: other values than powers of two from 64 to 4,096 act as 64. -/
def State.fqEntries (s : State) (d : Nat) : Nat :=
  let n := s.rdF d pgApc 0x448 0 13
  if [64, 128, 256, 512, 1024, 2048, 4096].contains n then n else 64

/-- Is the die's queue full? -/
def State.fqFull (s : State) (d : Nat) : Bool :=
  decide ((s.rdF d pgApc 0x450 0 12 + 1) % s.fqEntries d = s.rdF d pgApc 0x458 0 12 % s.fqEntries d)

/-- Write a record at FAULTQ_HEAD and advance it, with the fault notification. -/
def State.fqWrite (s : State) (r : FaultRec) : State :=
  let head := s.rdF r.die pgApc 0x450 0 12
  let n := s.fqEntries r.die
  let s := (s.partWrite (s.rd r.die pgApc 0x440 + 64 * head) r.bytes).1
  let s := { s with ctx := { s.ctx with queued := Tab.put s.ctx.queued (r.die * 4096 + head) r } }
  let s := s.wrF r.die pgApc 0x450 0 12 ((head + 1) % n)
  s.send (.note (.faultQueue r.die))

/-- Write held records while the queue has room. -/
def fqDrain : Nat → State → Nat → State
  | 0, s, _ => s
  | n + 1, s, d =>
    match Tab.get [] s.ctx.held d with
    | [] => s
    | r :: rs =>
      if s.fqFull d then s
      else fqDrain n ({ s with ctx := { s.ctx with held := Tab.set [] s.ctx.held d rs } }.fqWrite r) d

/-- A new fault record: into the queue, or held behind those that wait. -/
def State.fqPost (s : State) (r : FaultRec) : State :=
  let s := { s with ctx := { s.ctx with held := Tab.set [] s.ctx.held r.die (Tab.get [] s.ctx.held r.die ++ [r]) } }
  fqDrain (Tab.get [] s.ctx.held r.die).length s r.die

/-- Withdraw the fault with this sequence number: its record's KIND becomes 0 (R284, R236). -/
def State.fqWithdraw (s : State) (d seq : Nat) : State :=
  let held := (Tab.get [] s.ctx.held d).map fun r => if r.seq = seq then { r with kind := 0 } else r
  let s := { s with ctx := { s.ctx with held := Tab.set [] s.ctx.held d held } }
  match s.ctx.queued.find? fun e => e.1 / 4096 = d && e.2.seq = seq with
  | none => s
  | some (k, r) =>
    let r := { r with kind := 0 }
    let s := { s with ctx := { s.ctx with queued := Tab.put s.ctx.queued k r } }
    (s.partWrite (s.rd d pgApc 0x440 + 64 * (k % 4096)) r.bytes).1

/-! ### Cancellation (R234 to R237) -/

/-- Cancel one slot, pair partner apart. Its requests to this part return, and what replies bring is dropped. -/
def State.cancelOne (s : State) (d b sl : Nat) : State :=
  let x := s.slotOf d b sl
  let s := if x.st = .faulted then s.fqWithdraw d x.faultSeq else s
  let s := if x.st = .running ∨ x.st = .waiting ∨ x.st = .faulted then (s.keepStaging d b sl).undefStaging d b x else s
  (s.setSlot d b sl { s.slotOf d b sl with st := .cancelling, part := {}, owes := x.writes && !(x.st = .done), refetch := false }).endOwnTracks
    d b sl

/-- Cancel a slot and its partner; IDLE and ABORTED slots, and those whose stream is over, are left (R236). -/
def State.cancelSlot (s : State) (d b sl : Nat) : State :=
  let p := s.partner d b sl
  if s.over d b sl then s
  else match (s.slotOf d b sl).st with
  | .aborted | .cancelling => s
  | _ =>
    let s := s.cancelOne d b sl
    match p with
    | some p => s.cancelOne d b p
    | none => s

/-- Has an engine's list reached END, drains included? A faulted program runs no further (R208). -/
def Mxe.ended (m : Mxe) : Bool := m.atEnd && m.drains.isEmpty
def Vxe.ended (v : Vxe) : Bool := v.faulted || (v.prog.isNone && v.queue.isEmpty)

/-- Have the bay's tile list and programs all reached END? -/
def State.bayEnded (s : State) (d b : Nat) : Bool := (s.mxeOf d b).ended && (s.vxeOf d b).ended

/-- R237: at the end of both lists every slot that is not IDLE or DONE is cancelled; a WRITE or COPY so cancelled
is incomplete. -/
def State.endCancel (s : State) (d b : Nat) : State :=
  if !(s.bayEnded d b) then s
  else
    (List.range 32).foldl (fun s sl =>
      let x := s.slotOf d b sl
      if x.st = .running ∨ x.st = .waiting ∨ x.st = .faulted then
        let s := s.cancelSlot d b sl
        if x.writes ∧ x.isCompanion = false then (s.setErr d (pgSu b) 14).noCertBay d b 6 else s
      else s) s

/-- Cancel every slot of a bay (R239, R287). -/
def State.cancelBay (s : State) (d b : Nat) : State := (List.range 32).foldl (fun s sl => s.cancelSlot d b sl) s

end Sys2Proof.Machine
end

