-- ==== Sys2Proof/Machine/Reports.lean ====
section
/-! DEFINITION. What conversions report: amax and events, and what an event of a tensor leads to (08 R161, R172 to
R176; 09 R199, R200; 10 R224). -/

namespace Sys2Proof.Machine

/-- Fold an amax (an FP32 encoding, never negative) into a bay's amax unit; a tensor without a record is not folded
(R200). -/
def State.reportAmax (s : State) (d b tensor amax : Nat) : State :=
  if s.tensors.contains tensor then
    let v := s.vxeOf d b
    s.setVxe d b { v with amax := Tab.set 0 v.amax tensor (max amax (Tab.get 0 v.amax tensor)) }
  else s

/-- The pair a skip proposes for a tensor: the larger k stays (R176). -/
def State.addPair (s : State) (tensor k : Nat) : State :=
  { s with step := { s.step with pairs := Tab.set 0 s.step.pairs tensor (max k (Tab.get 0 s.step.pairs tensor)) } }

/-- The PRINCIPAL record of a tensor in the active book. -/
def State.principalOf (s : State) (tensor : Nat) : Option Principal :=
  s.books.active.bind fun b => b.principals.find? fun p => p.tensor = tensor

/-- Is the tensor that of a CLASS 0 layer? -/
def State.ordinary (s : State) (tensor : Nat) : Bool :=
  match s.books.active with
  | some b => b.layers.any fun l => l.tensor = tensor && l.cls = 0
  | none => false

/-- An event on a tensor that repetition cannot answer: a principal's own LOWER_K, or a late event with k = 1 (R175,
R176); counted in NUM_EVENTS. DESIGN CHOICE (entry 149): one drained tile, delivery or CVT that has events counts 1, and
the counts saturate; the spec gives no granularity. -/
def State.lateEvent (s : State) (tensor : Nat) : State :=
  match s.principalOf tensor with
  | some p => (s.addPair tensor p.lowerK).satF 0 pgStp 0x120 32 16 1
  | none => if s.ordinary tensor then (s.addPair tensor 1).satF 0 pgStp 0x120 16 16 1 else s

/-- Events are attributed to a tensor: ev of its record's update is 1 (R165). -/
def State.markEv (s : State) (tensor : Nat) : State :=
  if s.step.evTensors.contains tensor then s
  else { s with step := { s.step with evTensors := tensor :: s.step.evTensors } }

/-- Count of an event kind. -/
def evCount (e : Ev) (evs : List Ev) : Nat := (evs.filter (· = e)).length

/-- Events of a stream or VXE conversion: counted in the unit's CVT_EVENTS; with a tensor, attributed to it and, where
no repetition can answer them, proposed for a skip (R172, R175, R199, R224). -/
def State.convEvents (s : State) (d pg tensor nan inf ovf : Nat) : State :=
  let n := nan + inf + ovf
  let s := s.satF d pg 0x0A8 0 16 nan
  let s := s.satF d pg 0x0A8 16 16 inf
  let s := s.satF d pg 0x0A8 32 16 ovf
  if n = 0 then s
  else if tensor = 0xFFFFFFFF then s.satF d pg 0x0A8 48 16 n
  else (s.markEv tensor).lateEvent tensor

/-- Report the events and the amax of a VXE conversion (R199). -/
def State.reportConv (s : State) (d b tensor : Nat) (evs : List Ev) (amax : Nat) : State :=
  let s := s.convEvents d (pgVxe b) tensor (evCount .nan evs) (evCount .inf evs) (evCount .ovf evs)
  if tensor = 0xFFFFFFFF then s else s.reportAmax d b tensor amax

/-- JOB_SEED of the active book. -/
def State.jobSeed (s : State) : Nat := (s.books.active.map (·.jobSeed)).getD 0

end Sys2Proof.Machine
end

