-- ==== Sys2Proof/Machine/Translate.lean ====
section
/-! DEFINITION. Translation of stream addresses (12 R282 to R284): the walk, and what the part caches of it. -/

namespace Sys2Proof.Machine

/-- One page's bytes lie wholly in one die's STACK home region. -/
def pageInHome (a size : Nat) : Bool := addrSpace a = 0 && decide (addrOff a + size ≤ homeSize)

/-- A table lies in this part's STACK space. -/
def State.tableHere (s : State) (a : Nat) : Bool := pageInHome a 4096 && addrDev a = s.device

/-- Bits of the address above those that a table of level `l` indexes. -/
def tableUpper (l va : Nat) : Nat := va / 2 ^ (21 + 9 * l)

/-- Walk from a table of level `l`; `known` gives the table of a level where a cached entry points to it. A fault's KIND
and LEVEL, or the translation; and the table entries that the walk went through: level and address of the table below.
Rights are those of the leaf. -/
def State.walk (s : State) (d id va : Nat) (known : Nat → Option Nat) : Nat → Nat → ((Nat × Nat) ⊕ Xlat) × List (Nat × Nat)
  | 0, table =>
    let k := addrKey table + 8 * (va / 2 ^ 12 % 512)
    if !(s.tableHere table) ∨ s.isBad (k / 64) then (.inl (5, 0), [])
    else
      let e := leNat (s.memRead k 8)
      let a := bitsOf e 12 40 * 4096
      if e % 2 = 0 then (.inl (1, 0), [])
      else if bitsOf e 1 1 = 0 then (.inl (5, 0), [])
      else if !(pageInHome a 4096) then (.inl (4, 0), [])
      else (.inr ⟨d, id, va / 4096, a / 4096, bitsOf e 2 1 = 1, bitsOf e 3 1 = 1, 0⟩, [])
  | l + 1, table =>
    match known l with
    | some below => s.walk d id va known l below
    | none =>
      let k := addrKey table + 8 * (va / 2 ^ (12 + 9 * (l + 1)) % 512)
      if !(s.tableHere table) ∨ s.isBad (k / 64) then (.inl (5, l + 1), [])
      else
        let e := leNat (s.memRead k 8)
        let a := bitsOf e 12 40 * 4096
        let size := 2 ^ (12 + 9 * (l + 1))
        if e % 2 = 0 then (.inl (1, l + 1), [])
        else if bitsOf e 1 1 = 0 then
          let r := s.walk d id va known l a
          (r.1, (l, a) :: r.2)
        else if l = 2 then (.inl (5, 3), [])
        else if a % size ≠ 0 ∨ pageInHome a size = false then (.inl (4, l + 1), [])
        else (.inr ⟨d, id, va / 4096, a / 4096 + va % size / 4096, bitsOf e 2 1 = 1, bitsOf e 3 1 = 1, l + 1⟩, [])

/-- The table that a cached entry gives for a level on the walk of an address. -/
def State.tabOf (s : State) (d id va l : Nat) : Option Nat :=
  (s.ctx.tabs.find? fun x => x.die = d && x.ctx = id && x.level = l && x.upper = tableUpper l va).map (·.table)

/-- The walk of a virtual address of a context, through cached table entries where `use` allows it at a level: an
address above 48 bits has KIND 6. -/
def State.walkVa (s : State) (d id va : Nat) (use : Nat → Bool) : ((Nat × Nat) ⊕ Xlat) × List (Nat × Nat) :=
  if 2 ^ 48 ≤ va then (.inl (6, 3), [])
  else s.walk d id va (fun l => if use l then s.tabOf d id va l else none) 3 ((Tab.get {} s.ctx.ctxs id).root / 4096 * 4096)

/-- The cached translation of a page. -/
def State.xlatOf (s : State) (d id va : Nat) : Option Xlat :=
  s.ctx.xlat.find? fun x => x.die = d && x.ctx = id && x.page = va / 4096

/-- The rights a translation must give. -/
def Xlat.allows (x : Xlat) (write : Bool) : Bool := if write then x.write else x.read

/-- Keep a translation, and the table entries that led to it, in the caches. An entry with VALID 0 is never kept. -/
def State.putXlat (s : State) (x : Xlat) (va : Nat) (path : List (Nat × Nat)) : State :=
  let fresh := path.map fun y => (⟨x.die, x.ctx, y.1, tableUpper y.1 va, y.2⟩ : TabEntry)
  let old := s.ctx.tabs.filter fun t => !(fresh.any fun f =>
    f.die = t.die && f.ctx = t.ctx && f.level = t.level && f.upper = t.upper)
  { s with ctx := { s.ctx with
      xlat := x :: s.ctx.xlat.filter fun y => !(y.die = x.die && y.ctx = x.ctx && y.page = x.page), tabs := fresh ++ old } }

/-- The entries that a walk reads, as memory keys. -/
def State.walkKeys (s : State) (va : Nat) (known : Nat → Option Nat) : Nat → Nat → List Nat
  | 0, table => if s.tableHere table then [addrKey table + 8 * (va / 2 ^ 12 % 512)] else []
  | l + 1, table =>
    match known l with
    | some below => s.walkKeys va known l below
    | none =>
      let k := addrKey table + 8 * (va / 2 ^ (12 + 9 * (l + 1)) % 512)
      let e := leNat (s.memRead k 8)
      if !(s.tableHere table) then []
      else if !(s.isBad (k / 64)) ∧ bitsOf e 0 2 = 1 then k :: s.walkKeys va known l (bitsOf e 12 40 * 4096)
      else [k]

/-- A walk reads its entries through the shared cache, each sector checked as by any read (R282, 11 R265). -/
def State.walkChecked (s : State) (d id va : Nat) (use : Nat → Bool) : State :=
  if 2 ^ 48 ≤ va then s
  else (s.walkKeys va (fun l => if use l then s.tabOf d id va l else none) 3
    ((Tab.get {} s.ctx.ctxs id).root / 4096 * 4096)).foldl (fun s k => s.touch k 8) s

/-- Translate a page: through the caches, of whose entries any may have been replaced since (free bits: bit 0 for the
translation, bit l + 1 for the table entry of level l), or by a walk. No frame where the translation fails. -/
def State.translate (s : State) (d id va : Nat) (write : Bool) : State × Option Nat :=
  let bits := s.free.toNat
  let old : Option Xlat := if bits % 2 = 1 then s.xlatOf d id va else none
  let s := s.took 1
  match old with
  | some x => (s, if x.allows write then some x.frame else none)
  | none =>
    let s := s.incF d pgApc 0x470 0 32 1
    let use (l : Nat) : Bool := bitsOf bits (l + 1) 1 = 1
    let r := s.walkVa d id va use
    let s := s.walkChecked d id va use
    match r with
    | (.inl _, _) => (s, none)
    | (.inr x, path) => (s.putXlat x va path, if x.allows write then some x.frame else none)

/-- Translate the pages of a list: frames of those that translate. -/
def State.translateAll (s : State) (d id : Nat) (write : Bool) (pages : List Nat) : State × Tab Nat :=
  pages.foldl (fun a pg =>
    let r := a.1.translate d id (pg * 4096) write
    (r.1, match r.2 with | some f => Tab.put a.2 pg f | none => a.2)) (s, [])

/-- The physical address of a byte under a page map; addresses of other pages stand for themselves. -/
def physOf (t : Tab Nat) (a : Nat) : Nat :=
  match Tab.find t (a / 4096) with
  | some f => f * 4096 + a % 4096
  | none => a

/-- The physical address of a byte of a stream: through the page map where its REGION is 0 (R216, R282). -/
def physIf (virt : Bool) (t : Tab Nat) (a : Nat) : Nat := if virt then physOf t a else a

end Sys2Proof.Machine
end

