-- ==== Sys2Proof/Machine/StreamMove.lean ====
section
/-! DEFINITION. How a stream moves elements (chapter 10): conversion with scales (R222, R223), and where the results lie
(R215, R217). -/

namespace Sys2Proof.Machine

/-! ### Places -/

/-- First byte and length of the group of bytes that holds an element (R137). -/
def elemSpan (f : Fmt) (p : Place) : Nat × Nat :=
  match f.width with
  | 4 => (p.addr + p.ix / 2, 1)
  | 6 => (p.addr + 3 * (p.ix / 4), 3)
  | w => (p.addr + w / 8 * p.ix, w / 8)

/-- First byte and length of the bytes that hold an element: of FP6 the one or two of its group that its bits lie in. -/
def elemBytes (f : Fmt) (p : Place) : Nat × Nat :=
  if f.width = 6 then
    let lo := 6 * (p.ix % 4) / 8
    (p.addr + 3 * (p.ix / 4) + lo, (6 * (p.ix % 4) + 5) / 8 + 1 - lo)
  else elemSpan f p

/-- Put bytes into a table of bytes to write. -/
def placeBytes (t : Tab Byte) (a : Nat) : List Byte → Tab Byte
  | [] => t
  | x :: xs => placeBytes (Tab.put t a x) (a + 1) xs

/-- Put an element: earlier elements of its group stay, later ones become 0 until they are put (R137). -/
def putElem (f : Fmt) (rd : Reader) (t : Tab Byte) (p : Place) (enc : Nat) : Tab Byte :=
  let g := elemSpan f p
  let j := match f.width with | 4 => p.ix % 2 | 6 => p.ix % 4 | _ => 0
  let old := leNat ((List.range g.2).map fun i => (Tab.find t (g.1 + i)).getD (rd (g.1 + i)))
  placeBytes t g.1 (leBytes g.2 (old % 2 ^ (f.width * j) + enc % 2 ^ f.width * 2 ^ (f.width * j)))

/-- The first byte of the region that REGION names (R31, R33, R216); REGION 0 stands for itself. -/
def State.regionBase (s : State) (r : Nat) : Nat :=
  let at' (i : Nat) : Nat := ((s.books.active.bind fun b => b.retain[i]?).map (·.1)).getD 0
  match r with
  | 1 => at' (if s.retained.curB then 1 else 0)
  | 2 => at' (if s.retained.curB then 0 else 1)
  | 3 => at' 4
  | _ => 0

/-- Pages of spans. -/
def pagesOf (sp : List (Nat × Nat)) : List Nat := (sp.flatMap fun x => [x.1 / 4096, (x.1 + x.2 - 1) / 4096]).eraseDups

/-- The parts of a span that lie in one page each. -/
def pageParts (x : Nat × Nat) : List (Nat × Nat) :=
  (List.range ((x.1 + x.2 - 1) / 4096 + 1 - x.1 / 4096)).map fun i =>
    let lo := max x.1 ((x.1 / 4096 + i) * 4096)
    (lo, min (x.1 + x.2) ((x.1 / 4096 + i + 1) * 4096) - lo)

/-- A byte at a physical address: of this part's memory or registers; of another part, as a reply brought it, and free
where none has. -/
def State.physByte (s : State) (got : Tab Byte) (a : Nat) : Byte :=
  if addrDev a ≠ s.device then (Tab.find got a).getD ((Config.freeValue (s.freeIdx + a)).setWidth 8)
  else if addrSpace a = 6 then
    match regPlace a with
    | some (d, pg, off) => BitVec.ofNat 8 (s.view d pg (off / 8 * 8) / 2 ^ (8 * (off % 8)))
    | none => 0xFF
  else s.memByte (addrKey a)

/-- What a delivery, or a part of one, moves: staging bytes by offset, memory bytes by physical address, the spans
read (physical) and the memory-side bytes moved, the companion's among them; events and amax; DIGEST bytes by offset
in their region. -/
structure Move where
  stg   : Tab Byte := []
  mem   : Tab Byte := []
  reads : List (Nat × Nat) := []
  bytes : Nat := 0
  nan   : Nat := 0
  inf   : Nat := 0
  ovf   : Nat := 0
  amax  : Nat := 0
  dig   : Tab Byte := []

/-! ### Conversion (R222, R224) -/

/-- Where a side's bytes lie: a stream, its format on that side, a way from a place to bytes. -/
structure MoveEnv where
  sf   : Fmt
  df   : Fmt
  src  : Nat → Place
  dst  : Nat → Option Place
  rsrc : Reader
  rdst : Reader

/-- The live scale byte of a tensor (R168, R222 step 2), and where it lies. -/
def State.liveAddr (s : State) (tensor : Nat) : Nat := s.inf 0 pgStp 0x110 + s.tensors.idxOf tensor
def State.liveScale (s : State) (tensor : Nat) : Nat := (s.memByte (addrKey (s.liveAddr tensor))).toNat

/-- The source value at a position. -/
def StreamDesc.value (q : StreamDesc) (e : MoveEnv) (live : Nat) (sc : Nat → Nat) (p : Nat) : XNum :=
  let pl := e.src p
  let x := match q.srcScale with | 1 => live | 2 => sc p | _ => 127
  scaledValue e.sf (elemAt e.sf e.rsrc pl.addr pl.ix) (decide (q.srcScale ≠ 0)) (decide (x = 255)) ((x : Int) - 127)
    (decide (q.srcScale = 2))

/-- The scale byte chosen for the block of a position on the destination side (R169). -/
def StreamDesc.chosen (q : StreamDesc) (e : MoveEnv) (live : Nat) (sc : Nat → Nat) (p : Nat) : Nat :=
  blockScale e.df ((q.blockOf p).map (q.value e live sc))

/-- Are the results of a conversion classified: to a format of 16 bits or less, or for a principal tensor to FP32 or FP64
(R152, R172)? -/
def State.classifies (s : State) (df : Fmt) (tensor : Nat) : Bool :=
  df.classified (s.principalOf tensor).isSome

/-- The result at a position. -/
def State.convertAt (s : State) (q : StreamDesc) (e : MoveEnv) (arm live : Nat) (sc : Nat → Nat) (p : Nat) : Rounded :=
  if q.converts then
    let mode := if q.sr then RMode.sr (rbitsOf s.jobSeed s.stepCur q.tensor (arm * 2 ^ 40 + p)) else .rne
    match q.dstScale with
    | 1 => convert e.df mode (dstScaleExp e.df false live) (decide (live = 255)) (q.value e live sc p)
    | 2 => convert e.df mode (dstScaleExp e.df true (q.chosen e live sc p)) false (q.value e live sc p)
    | _ => convert e.df mode 0 false (q.value e live sc p)
  else { enc := elemAt e.sf e.rsrc (e.src p).addr (e.src p).ix }

/-- The companion byte of the block at whose first position `p` stands. -/
def StreamDesc.scaleAt (q : StreamDesc) (e : MoveEnv) (live : Nat) (sc : Nat → Nat) (p : Nat) : Nat :=
  if q.dstScale = 2 then q.chosen e live sc p else sc p

/-! ### Moving -/

/-- The staging or memory place of a position on the source side, and on the destination side. -/
def StreamDesc.srcPlace (q : StreamDesc) (f : Fmt) (base k0 p : Nat) : Place :=
  if q.dir = 1 then q.localPlace f k0 p else q.memPlace f base p
def StreamDesc.dstPlace (q : StreamDesc) (f : Fmt) (base k0 p : Nat) : Option Place :=
  match q.dir with
  | 0 => if q.kind = 2 then none else some (q.localPlace f k0 p)
  | 1 => some (q.memPlace f base p)
  | _ => some (q.copyPlace f p)

/-- Spans of a list of places. -/
def spansOf (f : Fmt) (ps : List Place) : List (Nat × Nat) := (ps.map (elemBytes f)).eraseDups

/-- The spans that positions of a slot touch on the memory side, of the primary and of its companion where that is used
in memory: it gives scales there, or takes them. -/
structure MemSpans where
  prim : List (Nat × Nat) := []
  comp : List (Nat × Nat) := []

/-- The bases of a slot and of its companion. -/
def State.slotBase (s : State) (x : SuSlot) (q : StreamDesc) : Nat := s.regionBase q.region + x.base

/-- First position of the block of a position. -/
def StreamDesc.blockStart (q : StreamDesc) (p : Nat) : Nat := p - p % max q.count0 1 % q.block

/-- Memory-side spans of a list of positions; `c` is the companion. -/
def State.spansAt (s : State) (x : SuSlot) (q : StreamDesc) (c : Option (SuSlot × StreamDesc)) (ps : List Nat) : MemSpans :=
  match Fmt.ofCode (if q.dir = 1 then q.dstFmt else q.srcFmt) with
  | none => {}
  | some f =>
    let base := s.slotBase x q
    let comp := match c with
      | none => []
      | some (y, r) =>
        if (if q.dir = 1 then q.srcScale ≠ 2 else q.dstScale ≠ 2) then
          spansOf .e8m0 (((ps.map q.blockStart).eraseDups).map fun p => r.memPlace .e8m0 (s.slotBase y r) (q.companionPos r p))
        else []
    ⟨spansOf f (ps.map (q.memPlace f base)), comp⟩

/-- The virtual pages of spans: those of a stream with REGION 0, and of its companion with REGION 0 (R216). -/
def MemSpans.pages (m : MemSpans) (q : StreamDesc) (c : Option (SuSlot × StreamDesc)) : List Nat :=
  ((if q.region = 0 then pagesOf m.prim else []) ++
    (if (c.map (·.2.region)).getD 0 = 0 then pagesOf m.comp else [])).eraseDups

/-- Collect what positions of a slot move, under a page map; `c` is the companion. -/
def State.moveOf (s : State) (d b : Nat) (x : SuSlot) (q : StreamDesc) (c : Option (SuSlot × StreamDesc)) (t : Tab Nat)
    (ps : List Nat) : Option Move :=
  match Fmt.ofCode q.srcFmt, Fmt.ofCode q.dstFmt with
  | some sf, some df =>
    let blocks := ps.filter fun p => q.blockStart p = p
    let base := s.slotBase x q
    let cq : StreamDesc := (c.map (·.2)).getD {}
    let cbase := s.slotBase ((c.map (·.1)).getD {}) cq
    let cpos := q.companionPos cq
    let wr := decide (q.dir = 1)
    let sp := s.spansAt x q c ps
    let phys := physIf (decide (q.region = 0)) t
    let cphys := physIf (decide (cq.region = 0)) t
    let rmem : Reader := fun a => s.physByte x.got (phys a)
    let rcmem : Reader := fun a => s.physByte x.got (cphys a)
    let rstg : Reader := fun o => if o < 2 ^ 23 then s.stg d b o else 0
    let rcopy : Reader := s.physByte x.got
    let e : MoveEnv :=
      ⟨sf, df, q.srcPlace sf base x.k0, q.dstPlace df base x.k0, if wr then rstg else rmem,
        if q.dir = 0 then rstg else if wr then rmem else rcopy⟩
    let csrc (p : Nat) : Nat :=
      ((if wr then rstg else rcmem) (cq.srcPlace .e8m0 cbase x.k0 (cpos p)).addr).toNat
    let sc : Nat → Nat := fun p => csrc (q.blockStart p)
    let live := s.liveScale q.tensor
    let rs := ps.map fun p => (p, s.convertAt q e x.arm live sc p)
    let out := rs.foldl (fun t r => match e.dst r.1 with
      | some pl => putElem df e.rdst t pl r.2.enc
      | none => t) []
    let cout : List (Nat × Byte) := if c.isSome ∧ q.srcScale ≠ 2 then
        blocks.filterMap fun p => (cq.dstPlace .e8m0 cbase x.k0 (cpos p)).map fun pl =>
          (pl.addr, BitVec.ofNat 8 (q.scaleAt e live sc p))
      else []
    let tags := s.classifies df q.tensor
    let evs := if q.converts && tags then rs.map (·.2.ev) else []
    let base' := s.regionBase q.region
    let toMem (virt : Bool) (t' : List (Nat × Byte)) : List (Nat × Byte) :=
      if wr then (t'.filter fun y => !virt || (Tab.find t (y.1 / 4096)).isSome).map fun y => (physIf virt t y.1, y.2) else t'
    some {
      stg := if q.dir = 0 then cout.foldl (fun a y => Tab.put a y.1 y.2) out else [],
      mem := if q.dir = 0 then [] else (toMem (decide (q.region = 0)) out ++ toMem (decide (cq.region = 0)) cout).foldl (fun a y => Tab.put a y.1 y.2) [],
      reads := if wr then [] else
        ((sp.prim.flatMap pageParts).map fun y => (phys y.1, y.2)) ++ (sp.comp.flatMap pageParts).map fun y => (cphys y.1, y.2),
      bytes := ((sp.prim ++ sp.comp).map (·.2)).sum,
      nan := evCount .nan evs, inf := evCount .inf evs, ovf := evCount .ovf evs,
      amax := if q.converts then amaxFp32 (amaxOf (ps.map (q.value e live sc))) else 0,
      dig := if q.digest then out.map fun y => (y.1 - base', y.2) else [] }
  | _, _ => none

/-! ### Requests of a move (R225, R246) -/

/-- Spans with those that touch or overlap joined, of a list sorted by address. -/
def joinSpans (sp : List (Nat × Nat)) : List (Nat × Nat) :=
  (sp.foldl (fun acc x => match acc with
    | (a, n) :: rest => if x.1 ≤ a + n then (a, max (a + n) (x.1 + x.2) - a) :: rest else x :: acc
    | [] => [x]) []).reverse

/-- The requests that move spans: of at most 256 bytes, each within one 256 B block, the bytes of a block that follow on
one another in one request (entry 139). -/
def requestsOf (sp : List (Nat × Nat)) : List (Nat × Nat) :=
  (joinSpans (sortBy (fun x y => decide (x.1 ≤ y.1)) sp)).flatMap fun x =>
    (List.range ((x.1 + x.2 - 1) / 256 + 1 - x.1 / 256)).map fun i =>
      let lo := max x.1 ((x.1 / 256 + i) * 256)
      (lo, min (x.1 + x.2) ((x.1 / 256 + i + 1) * 256) - lo)

/-- A move's requests, those that read before those that write: address, bytes, whether it writes. -/
def Move.requests (m : Move) : List (Nat × Nat × Bool) :=
  ((requestsOf m.reads).map fun x => (x.1, x.2, false)) ++ (requestsOf (m.mem.map fun y => (y.1, 1))).map fun x => (x.1, x.2, true)

/-- How a stream's request to this part is met (05 R88, R91, R92; 11 R246): present memory, a register access, a refused
register access, an absent address. -/
inductive Reach where
  | memory | register | denied | absent
  deriving DecidableEq, Repr

/-- Where a stream's request of `n` bytes arrives. A register access has 8 bytes, aligned, and the origin CTX. -/
def State.reach (s : State) (a n : Nat) (write : Bool) : Reach :=
  if addrSpace a = 0 then (if stackPresent a n .ctx then .memory else .absent)
  else if addrSpace a = 6 then
    match regPlace a with
    | some (d, pg, off) =>
      if n = 8 ∧ off % 8 = 0 ∧ (write ∨ s.protAllows d pg .ctx false) then .register else .denied
    | none => .denied
  else .absent

/-! ### Writing what was moved -/

/-- Bytes of a table of physical addresses that lie in this part's memory, by memory key. -/
def State.ownBytes (s : State) (t : Tab Byte) : Tab Byte :=
  (t.filter fun y => addrDev y.1 = s.device && addrSpace y.1 = 0).foldl (fun a y => Tab.put a (addrKey y.1) y.2) []

/-- Write one sector's part of a table (R251, R268): a part of a sector reads it first, and is refused where it holds
uncorrectable data. -/
def State.scatterSec (s : State) (t : Tab Byte) (sec : Nat) : State × Bool :=
  let part := t.filter fun y => y.1 / 64 = sec
  let s := s.lookSector sec
  let s := if part.length = 64 then s else s.checkRange (sec * 64) 64
  if s.isBad sec ∧ part.length ≠ 64 then (s, false)
  else
    let s := (s.clearBad sec).dirtySector sec
    ({ s with mem := { s.mem with bytes := part.foldl (fun m y => Tab.set 0 m y.1 y.2) s.mem.bytes } }, true)

/-- The sectors of a table, rising. -/
def sectorsIn (t : Tab Byte) : List Nat := (t.map (·.1 / 64)).eraseDups

/-- Write a table of bytes of this part's memory: false where a part of it was refused. Watches see it. -/
def State.scatter (s : State) (t : Tab Byte) : State × Bool :=
  let r := (sectorsIn t).foldl (fun (a : State × Bool) sec =>
    let q := a.1.scatterSec t sec
    (q.1, a.2 && q.2)) (s, true)
  ((sectorsIn t).foldl (fun s sec => s.evalWatches (sec * 64) 64) r.1, r.2)

/-- Put staging bytes. -/
def State.stgScatter (s : State) (d b : Nat) (t : Tab Byte) : State :=
  { s with staging := t.foldl (fun m y => Tab.set 0 m (bayKey d b * 2 ^ 23 + y.1) y.2) s.staging }

/-- The injection entry of a slot of the book context (Table 14-1), in the flow table as loaded; 0x3FF names no slot. -/
def State.injection (s : State) (d b sl : Nat) : Option CircuitRec :=
  if s.isBook d b = false then none
  else match s.lbayOf d b with
  | none => none
  | some lb => s.fabric.flows.find? fun c => c.inPort = 20 && c.source = lb + sl * 32 && c.source ≠ 0x3FF

/-- The route of a slot's request: on its injection entry, or by cut-through (R311, R319, R323); none has NO_ROUTE. -/
def State.streamPort (s : State) (d b sl a : Nat) : Option Nat :=
  match s.injection d b sl with
  | some c => some ((c.outs.head?.map (·.1)).getD 20)
  | none => s.route (addrDev a)

/-! ### Requests to another part (14 R311 to R313; entry 157) -/

/-- A request to another part as it travels: address and bytes. A read, and a write on a reducing or multicast circuit, is of the
whole 256 B block; a write of a part of a block is a control transfer. -/
def wireSpan (x : Nat × Nat × Bool) (whole : Bool) : Nat × Nat := if !x.2.2 || whole then (x.1 / 256 * 256, 256) else (x.1, x.2.1)

/-- Does a circuit reduce or have several outputs? -/
def CircuitRec.wide (c : CircuitRec) : Bool := c.reduce || decide (1 < c.outs.length)

/-- Is a slot's request to another part of the data class (R313)? -/
def State.dataClass (s : State) (d b sl : Nat) (x : Nat × Nat × Bool) : Bool :=
  (wireSpan x ((s.injection d b sl).any CircuitRec.wide)).2 = 256

/-- Send a slot's request to another part, a write with its bytes: on its circuit, or by cut-through. -/
def State.streamPacket (s : State) (d b sl t : Nat) (x : Nat × Nat × Bool) (mem : Tab Byte) : State :=
  let f := s.injection d b sl
  let sp := wireSpan x (f.any CircuitRec.wide)
  let data := if x.2.2 then (List.range sp.2).map fun i => Tab.get 0 mem (sp.1 + i) else []
  let r := s.ownReq d t (s.bayCtx d b) sp.1
  let k : Packet := { ptype := 0x10, control := false, req := r, aux := 256 }
  if x.2.2 = false then
    match f with
    | some c => s.injectCircuit c k
    | none => s.sendCt d (addrDev x.1) k
  else if sp.2 = 256 then
    let k := { k with length := 256, data := data, aux := 0 }
    match f with
    | some c =>
      s.injectCircuit c { k with ptype := if c.reduce then 0x12 else if 1 < c.outs.length then 0x13 else 0x11,
                                 aux := if c.reduce then c.red else 0 }
    | none => s.sendCt d (addrDev x.1) { k with ptype := 0x11 }
  else (trainOf { k with ptype := 0x02, control := true, length := sp.2, aux := 0 } data).foldl
    (fun s k => s.sendCt d (addrDev x.1) k) s

end Sys2Proof.Machine
end

