-- ==== Sys2Proof/Machine/StreamIssue.lean ====
section
/-! DEFINITION. The requests of a stream unit (10 R225, R226; 12 R285): which may issue, their tracking entries, run-ahead,
and the deliveries fetched again after a context switch (R238). -/

namespace Sys2Proof.Machine

/-- May the SU issue: ON, not PAUSED, no context switch in progress, its step running (R238, R239)? -/
def State.suReady (s : State) (d b : Nat) : Bool :=
  s.bayRunsWork d b && s.blkIs d (pgSu b) 2 && s.rdF d (pgSu b) 0x020 8 1 = 0

/-- May a slot's requests issue? A switch or an eviction lets a WRITE write out the deliveries marked ready (R238). -/
def State.slotReady (s : State) (d b : Nat) (x : SuSlot) : Bool :=
  s.suReady d b ||
    (x.isWrite && s.issues d && s.blkIs d (pgSu b) 2 && s.rdF d (pgSu b) 0x020 8 1 = 0 && (!(s.isBook d b) || s.running) &&
      decide (s.bayCtx d b < 4096) && decide (2 ≤ (Tab.get {} s.ctx.resid (d * 4096 + s.bayCtx d b)).res))

/-- The companion of a slot's pair, where both run. -/
def State.companionOf (s : State) (d b sl : Nat) (q : StreamDesc) : Option (SuSlot × StreamDesc) :=
  if q.paired then
    let c := s.slotOf d b (sl + 1)
    match c.desc with
    | some (_, r) => if r.companion then some (c, r) else none
    | none => none
  else none

/-- Positions `lo` up to `hi`. -/
def positions (lo hi : Nat) : List Nat := (List.range (hi - lo)).map (lo + ·)

/-- Positions of delivery `n` of a slot that are not placed yet. -/
def SuSlot.todo (x : SuSlot) (q : StreamDesc) (n : Nat) : List Nat :=
  let lo := (n - x.k0) * q.perDelivery
  positions (if n = x.nDone then max x.cursor lo else lo) (lo + q.perDelivery)

/-! ### What a move meets at its homes (R239; 05 R88, R92; 11 R246, R268) -/

/-- The writer of a register that a bay's stream writes: origin CTX, the context and its generation (05 R91, Table 5-10). -/
def State.ctxWriter (s : State) (d b : Nat) : Writer :=
  ⟨.ctx, BitVec.ofNat 32 (s.bayCtx d b + s.ctxGen (s.bayCtx d b) % 256 * 4096), Fin.ofNat 4 d, false⟩

/-- A request of a bay to this part that is not met by present memory or a register: its home reports it (11 R246; 05 R88,
R92). -/
def State.reportReq (s : State) (d b : Nat) (r : Nat × Nat × Bool) : State :=
  let h := addrDie r.1
  if s.reach r.1 r.2.1 r.2.2 = .absent then (s.setErr h pgShc 13).logAt h srcHw .accessRefused [r.1, Origin.ctx.code]
    else match regPlace r.1 with
      | some (rd, pg, off) =>
        if r.2.1 = 8 ∧ off % 8 = 0 then s.logRefused rd pg off .ctx
        else s.accessFault rd pg off ⟨s.ctxWriter d b, 0, r.2.1⟩
      | none => s.accessFault h (addrOff r.1 / 4096) (addrOff r.1 % 4096)
          ⟨s.ctxWriter d b, 0, r.2.1⟩

/-- Such a request of a slot: it is reported, and the slot stops (R239). -/
def State.refuseReq (s : State) (d b sl : Nat) (r : Nat × Nat × Bool) : State :=
  (s.reportReq d b r).slotError d b sl .refused false

/-- The live scale byte that a conversion reads, as a span (08 R168, R222 step 2). -/
def State.liveSpan (s : State) (q : StreamDesc) : List (Nat × Nat) :=
  if q.srcScale = 1 ∨ q.dstScale = 1 then [(s.liveAddr q.tensor, 1)] else []

/-- May what a part of a delivery moves be moved? The state, its reads through the cache and checked, and whether it may:
where not, the slot has stopped. -/
def State.moveGate (s : State) (d b sl : Nat) (q : StreamDesc) (m : Move) : State × Bool :=
  if m.stg.any fun y => decide (2 ^ 23 ≤ y.1) then (s.abortSlot d b sl 3, false)
  else match m.requests.find? fun r => addrDev r.1 = s.device &&
      (s.reach r.1 r.2.1 r.2.2 = .absent || s.reach r.1 r.2.1 r.2.2 = .denied) with
  | some r => (s.refuseReq d b sl r, false)
  | none =>
    let own := (m.reads.filter fun y => addrDev y.1 = s.device && addrSpace y.1 = 0) ++ s.liveSpan q
    let s := own.foldl (fun s y => (s.lookRange (addrKey y.1) y.2).checkRange (addrKey y.1) y.2) s
    if own.any fun y => s.rangeBad (addrKey y.1) y.2 then (s.slotError d b sl .uncorrectable false, false) else (s, true)

/-! ### One request (R225, R285) -/

/-- Remote requests of a slot's delivery that are outstanding. -/
def State.awaits (s : State) (d b sl n : Nat) (p : Track → Bool) : Bool :=
  s.ctx.tracks.any fun e => e.2.ofSlot d b sl && e.2.deliv = n && e.2.remote && p e.2

/-- The leaves of a slot's write: on a multicast circuit those of its outputs (14 R329). -/
def State.leavesOf (s : State) (d b sl : Nat) (write : Bool) : Nat :=
  match s.injection d b sl with
  | some c => if write then max 1 ((c.outs.map (·.2.2)).sum) else 1
  | none => 1

/-- Issue a request of delivery `n`: false where it waits. At most 4,096 requests of an SU are outstanding, and one
without a free tracking entry waits (R225, R285); a request for another die waits while a seam on its path is in reset (11
R249, 04 R72), one for another part while data-class
injection is held, or beyond the port's window (14 R317, R325, R326). Without a route the slot gets
NO_ROUTE (14 R311), a read of the book context then ending the step (16 R369). -/
def State.issueReq (s : State) (d b sl n : Nat) (mem : Tab Byte) (r : Nat × Nat × Bool) : State × Bool :=
  if 4096 ≤ s.tracksOn d (fun e => e.ofBaySlots d b) then (s, false)
  else match s.freeTrack d with
  | none => (s, false)
  | some t =>
    let remote := addrDev r.1 != s.device
    let data := !remote || s.dataClass d b sl r
    let cut := remote && ((s.injection d b sl).isNone || !data)
    let sp := if remote then wireSpan r ((s.injection d b sl).any CircuitRec.wide) else (r.1, r.2.1)
    let open' (s : State) : State :=
      s.openTrack d (s.bayCtx d b) sp.1 (.slot d b sl) remote data fun e =>
        { e with bytes := sp.2, leaves := if remote && data then s.leavesOf d b sl r.2.2 else 1, deliv := n, write := r.2.2,
                 windowed := cut, bank := s.bank }
    if remote = false then
      if s.pathOpen d (addrDie r.1) (some r.1) then (open' s, true) else (s, false)
    else if (data && s.rdF d pgRtr 0x028 2 1 = 1) || (cut && !(s.mayLeave d (bayKey d b) r.1 sp.2)) then (s, false)
    else match s.streamPort d b sl r.1 with
      | none => ((s.setErr d pgRtr 14).slotError d b sl .noRoute (!r.2.2), false)
      | some p =>
        if s.pathOpen d (portDie p) (some r.1) then ((open' s).streamPacket d b sl t r mem, true) else (s, false)

/-- Memory-side bytes that a stream reads with a list of requests (R226). -/
def readBytes (rs : List (Nat × Nat × Bool)) : Nat := ((rs.filter fun r => !r.2.2).map (·.2.1)).sum

/-- Note the bytes of the delivery under issue with its next request, and that one more of its requests has issued. -/
def State.noteReq (s : State) (d b sl k : Nat) : State := s.setSlot d b sl { s.slotOf d b sl with upto := k }
def State.countReq (s : State) (d b sl : Nat) : State :=
  let x := s.slotOf d b sl
  s.setSlot d b sl { x with iss := x.iss + 1 }

/-- Issue requests in order while they may, `k` bytes having been read before them: a COPY's writes to another part follow
once its reads from others have been answered. -/
def issueList (d b sl n : Nat) (q : StreamDesc) (mem : Tab Byte) : Nat → List (Nat × Nat × Bool) → State → State × Bool
  | _, [], s => (s, true)
  | k, r :: rs, s =>
    let k := k + readBytes [r]
    let s := s.noteReq d b sl k
    let x := s.slotOf d b sl
    if !(x.refetch || x.inWindow q n k) || (r.2.2 && s.awaits d b sl n fun e => !e.write) then (s, false)
    else
      let y := s.issueReq d b sl n mem r
      if y.2 then issueList d b sl n q mem k rs (y.1.countReq d b sl) else y

/-! ### Deliveries under issue -/

/-- Do the pages of a position all stand in a page map? -/
def State.clearAt (s : State) (x : SuSlot) (q : StreamDesc) (c : Option (SuSlot × StreamDesc)) (t : Tab Nat) (p : Nat) : Bool :=
  ((s.spansAt x q c [p]).pages q c).all fun g => (Tab.find t g).isSome

/-- The positions before the cursor at which a page that does not translate stops a slot: the first position it cannot
read or write, or, of a block-scaled destination, the start of its block (R232). -/
def State.clearTo (s : State) (x : SuSlot) (q : StreamDesc) (c : Option (SuSlot × StreamDesc)) (t : Tab Nat) (ps : List Nat) :
    List Nat :=
  let ok := ps.takeWhile (s.clearAt x q c t)
  match ps.drop ok.length with
  | [] => ok
  | p :: _ => if q.dstScale = 2 then ok.filter fun y => decide (y < q.blockStart p) else ok

/-- Issue the next delivery's requests: true where all of them have issued. Where a page does not translate, those of the
positions before the cursor issue, and the slot waits for its fault (R232). -/
def State.issueDeliv (s : State) (d b sl : Nat) : State × Bool :=
  let x := s.slotOf d b sl
  match x.desc with
  | none => (s, false)
  | some (_, q) =>
    let n := x.nIss
    if !(SlotSt.active x.st) || x.stuck || q.companion || decide (x.last ≤ n) || !(x.inWindow q n x.upto && x.hasRoom n) then
      (s, false)
    else
      let c := s.companionOf d b sl q
      let ps := x.todo q n
      let pages := (s.spansAt x q c ps).pages q c
      let tr := if x.iss = 0 then s.translateAll d (s.bayCtx d b) (decide (q.dir = 1)) pages else (s, Tab.get [] x.pages n)
      let x := { x with pages := Tab.put x.pages n tr.2 }
      let s := tr.1.setSlot d b sl x
      let go := s.clearTo x q c tr.2 ps
      match s.moveOf d b x q c tr.2 go with
      | none => (s, false)
      | some m =>
        let r := issueList d b sl n q m.mem (readBytes (m.requests.take x.iss)) (m.requests.drop x.iss) s
        let y := r.1.slotOf d b sl
        if r.2 = false then r
        else if go.length < ps.length then (r.1.setSlot d b sl { y with stuck := true }, false)
        else (r.1.setSlot d b sl { y with nIss := n + 1, iss := 0, upto := 0 }, true)

/-- Issue deliveries while the next one may issue whole. -/
def issueAll : Nat → State → Nat → Nat → Nat → State
  | 0, s, _, _, _ => s
  | k + 1, s, d, b, sl =>
    let r := s.issueDeliv d b sl
    if r.2 then issueAll k r.1 d b sl else r.1

/-- The requests of a list that the window still lets a slot make for delivery `n`, `k` bytes having been read before
them. -/
def inWindowOf (x : SuSlot) (q : StreamDesc) (n : Nat) : Nat → List (Nat × Nat) → List (Nat × Nat)
  | _, [] => []
  | k, r :: rs => if x.inWindow q n (k + r.2) then r :: inWindowOf x q n (k + r.2) rs else []

/-- Run-ahead beyond the room of the ring: fills of the shared cache, for addresses on this part's own dies (R226), as far
as the window reaches. -/
def State.fillDeliv (s : State) (d b sl : Nat) : State × Bool :=
  let x := s.slotOf d b sl
  match x.desc with
  | none => (s, false)
  | some (_, q) =>
    let n := max x.nFill x.nIss
    let done := if x.nFill < n then 0 else x.fillIss
    if !(SlotSt.active x.st) || x.stuck || !x.isFeeder || decide (x.last ≤ n) || x.hasRoom n || !(x.inWindow q n 0) then
      (s, false)
    else
      let c := s.companionOf d b sl q
      let ps := x.todo q n
      let pages := (s.spansAt x q c ps).pages q c
      let tr := s.translateAll d (s.bayCtx d b) false pages
      if pages.any fun p => (Tab.find tr.2 p).isNone then (tr.1, false)
      else
        let s := tr.1
        match s.moveOf d b x q c tr.2 ps with
        | none => (s, false)
        | some m =>
          let all := requestsOf m.reads
          let now := inWindowOf x q n ((all.take done).map (·.2)).sum (all.drop done)
          let whole := decide (all.length ≤ done + now.length)
          let s := s.setSlot d b sl { x with nFill := if whole then n + 1 else n, fillIss := if whole then 0 else done + now.length }
          let own := now.filter fun y => addrDev y.1 = s.device && addrSpace y.1 = 0 && stackPresent y.1 y.2 .ctx
          (own.foldl (fun s y => s.lookRange (addrKey y.1) y.2) s, whole)

/-- Fill ahead while run-ahead lets the slot. -/
def fillAll : Nat → State → Nat → Nat → Nat → State
  | 0, s, _, _, _ => s
  | k + 1, s, d, b, sl =>
    let r := s.fillDeliv d b sl
    if r.2 then fillAll k r.1 d b sl else r.1

/-! ### Fetching again (R238) -/

/-- The slot as it was in the arming that delivery `n` belongs to (R231). -/
def SuSlot.inArming (x : SuSlot) (q : StreamDesc) (n : Nat) : SuSlot :=
  match x.past.find? fun a => decide (n < x.k0 ∧ a.1 ≤ n ∧ n < a.1 + q.deliveries) with
  | some (k0, base, arm) => { x with k0 := k0, base := base, arm := arm }
  | none => x

/-- What delivery `n`, completed and not released, moves when it is fetched again; none where a page does not translate. -/
def State.refetchMove (s : State) (d b sl : Nat) (q : StreamDesc) (n : Nat) : State × Option Move :=
  let x := (s.slotOf d b sl).inArming q n
  let c := (s.companionOf d b sl q).map fun y => (y.1.inArming y.2 n, y.2)
  let lo := (n - x.k0) * q.perDelivery
  let ps := positions lo (lo + q.perDelivery)
  let pages := (s.spansAt x q c ps).pages q c
  let tr := s.translateAll d (s.bayCtx d b) false pages
  if pages.any fun p => (Tab.find tr.2 p).isNone then (tr.1, none) else (tr.1, tr.1.moveOf d b x q c tr.2 ps)

/-- The moves of all deliveries that a slot fetches again. -/
def State.refetchMoves (s : State) (d b sl : Nat) (q : StreamDesc) : State × Option (List Move) :=
  let x := s.slotOf d b sl
  (positions x.nRel x.nDone).foldl (fun a n => match a.2 with
    | none => a
    | some ms =>
      let r := a.1.refetchMove d b sl q n
      (r.1, r.2.map fun m => ms ++ [m])) (s, some [])

/-- Place what is fetched again, delivery by delivery: false where the slot has stopped (R239). -/
def State.placeAgain (s : State) (d b sl : Nat) (q : StreamDesc) (ms : List Move) : State × Bool :=
  ms.foldl (fun a m =>
    if a.2 = false then a
    else
      let g := a.1.moveGate d b sl q m
      if g.2 then (g.1.stgScatter d b m.stg, true) else g) (s, true)

/-- Fetch again: requests to other parts issue; once none is outstanding, every byte is placed as before. -/
def State.refetchSlot (s : State) (d b sl : Nat) : State :=
  let x := s.slotOf d b sl
  match x.desc with
  | none => s
  | some (_, q) =>
    if !x.refetch || x.stuck then s
    else match s.refetchMoves d b sl q with
    | (s, none) => s.setSlot d b sl { x with stuck := true }
    | (s, some ms) =>
      let remote := (ms.flatMap Move.requests).filter fun r => addrDev r.1 ≠ s.device
      let r := issueList d b sl x.nIss q [] 0 (remote.drop x.iss) s
      let s := r.1
      if r.2 = false ∨ (s.awaits d b sl x.nIss fun _ => true) = true then s
      else
        let r := s.placeAgain d b sl q ms
        if r.2 then r.1.setPair d b sl { r.1.slotOf d b sl with refetch := false, iss := 0, upto := 0 }.settle else r.1

/-! ### The pump -/

/-- Every request of a slot that may issue does. A slot that resumed FAULTED fetches again what had completed, too
(R238). -/
def State.pumpSlot (s : State) (d b sl : Nat) : State :=
  let x := s.slotOf d b sl
  if !(s.slotReady d b x) || x.isCompanion || x.stuck then s
  else if x.refetch ∧ (SlotSt.active x.st = true ∨ x.st = .faulted) then s.refetchSlot d b sl
  else if SlotSt.active x.st = false then s
  else
    let s := fillAll 4097 (issueAll 4097 s d b sl) d b sl
    s.setPair d b sl (s.slotOf d b sl).settle

/-- Every request of every slot that may issue does. -/
def State.pumpAll (s : State) : State :=
  s.slots.foldl (fun s e => s.pumpSlot (e.1 / 32 / 9) (e.1 / 32 % 9) (e.1 % 32)) s

/-- A signal, and what issues for it. -/
def State.signalGo (s : State) (d b sl : Nat) : State := (s.signal d b sl).pumpSlot d b sl

end Sys2Proof.Machine
end

