-- ==== Sys2Proof/Machine/Stream.lean ====
section
/-! DEFINITION. The stream unit's slots (chapter 10, R213 to R239): starting, re-arming, deliveries, page faults,
cancellation. -/

namespace Sys2Proof.Machine

abbrev SRes := Host.Outcome State Fault Refusal

/-! ### Starting (R213, R230, R231) -/

/-- A slot takes a descriptor: numbering and the signal count go on. -/
def SuSlot.arm1 (x : SuSlot) (ix : Nat) (q : StreamDesc) : SuSlot :=
  { x with st := .running, taken := x.taken + 1, desc := some (ix, q), base := q.base, arm := x.taken, k0 := x.nDone,
           nReady := max x.nReady x.nDone, cursor := 0, part := {}, nIss := x.nDone, iss := 0, nFill := x.nDone, past := [],
           stuck := false, upto := 0, fillIss := 0, ring := q.ring, kept := [], pages := [] }

/-- A slot takes a REARM: only the base, the cursor and ARM change (R231). -/
def SuSlot.rearm (x : SuSlot) (q : StreamDesc) : SuSlot :=
  let n := (x.desc.map (·.2.deliveries)).getD 0
  { x with st := .running, taken := x.taken + 1, base := q.base, arm := x.taken, k0 := x.nDone,
           nReady := max x.nReady x.nDone, cursor := 0, part := {}, nIss := x.nDone, iss := 0, nFill := x.nDone,
           past := (x.past ++ [(x.k0, x.base, x.arm)]).filter fun a => decide (x.oldest < a.1 + n), stuck := false,
           upto := 0, fillIss := 0, pages := [] }

/-- May slot `sl` carry the scales of the pair that starts: its stream is over, and a COMPANION comes next (R223)? -/
def State.mateReady (s : State) (d b sl : Nat) : Bool :=
  s.over d b sl && !(s.slotOf d b sl).ended && (match s.nextStream d b sl with | some (_, r) => r.companion | none => false)

/-- The slot whose companion stream the next one replaces goes from DONE to IDLE. -/
def State.partnerIdle (s : State) (d b sl : Nat) : State := match s.partnerDone d b sl with
  | some p => if (s.slotOf d b p).st = .done then s.setSlot d b p { s.slotOf d b p with st := .idle } else s
  | none => s

/-- Start a slot's next descriptor. A companion is started and moved by its primary (R223): its slot only goes IDLE. -/
def State.startSlot (s : State) (d b sl : Nat) : State :=
  let x := s.slotOf d b sl
  match s.nextStream d b sl with
  | none => if x.st = .done then s.setSlot d b sl { x with st := .idle } else s
  | some (ix, q) =>
    if q.companion then (if x.st = .done then s.setSlot d b sl { x with st := .idle } else s)
    else if q.isRearm || (q.paired && !(s.mateReady d b (sl + 1))) then s
    else
      let s := s.partnerIdle d b sl
      let mate : Option (Nat × StreamDesc) := if q.paired then s.nextStream d b (sl + 1) else none
      let x := x.arm1 ix q
      let ring := match mate with | some (_, r) => min q.ring r.ring | none => q.ring
      let s := s.setSlot d b sl { x with ring := ring }.takeUnits
      let s : State := match q.paired, s.nextStream d b (sl + 1) with
        | true, some (jx, r) =>
          s.setSlot d b (sl + 1) (((s.slotOf d b (sl + 1)).arm1 jx r).follow (s.slotOf d b sl))
        | _, _ => s
      s.pumpSlot d b sl

/-- STREAM_START: from IDLE, or from DONE where no REARM of a persistent stream comes next. -/
def execStreamStart (d : Die) (b : Bay) (sl : Slot) (s : State) : SRes :=
  .next <| if s.suReady d b ∧ s.over d b sl ∧ (s.slotOf d b sl).ended = false then s.startSlot d b sl else s

/-- STREAM_REARM: a persistent stream in DONE takes the REARM that comes next, a pair on both its slots. -/
def execStreamRearm (d : Die) (b : Bay) (sl : Slot) (s : State) : SRes :=
  .next <|
    let x := s.slotOf d b sl
    match s.nextStream d b sl, x.desc with
    | some (_, r), some (_, q) =>
      if s.suReady d b && x.st = .done && !x.ended && s.rearmNext d b sl && !q.companion then
        if q.paired then
          match s.nextStream d b (sl + 1) with
          | some (_, r') =>
            if r'.isRearm then
              let s := s.setSlot d b sl (x.rearm r).takeUnits
              (s.setSlot d b (sl + 1) (((s.slotOf d b (sl + 1)).rearm r').follow (s.slotOf d b sl))).pumpSlot d b sl
            else s
          | none => s
        else (s.setSlot d b sl (x.rearm r).takeUnits).pumpSlot d b sl
      else s
    | _, _ => s

/-- The tracking entries of a slot end. -/
def State.endSlotTracks (s : State) (d b sl : Nat) : State :=
  { s with ctx := { s.ctx with tracks := s.ctx.tracks.filter fun e => !(e.2.ofSlot d b sl) } }

/-- STREAM_ARMING_DONE (Table 10-4). -/
def execStreamArmingDone (d : Die) (b : Bay) (sl : Slot) (s : State) : SRes :=
  .next <|
    let x := s.slotOf d b sl
    if SlotSt.active x.st ∧ x.refetch = false ∧ x.desc.isSome ∧ x.last ≤ x.nDone ∧ x.isCompanion = false then
      (s.setPair d b sl { x with st := .done }).endSlotTracks d b sl
    else s

/-! ### Deliveries (R219 to R224) -/

/-- May the slot's next delivery be placed: ring room for a FEEDER, marked ready for a WRITE, none of its requests lost? -/
def SuSlot.placeable (x : SuSlot) (q : StreamDesc) : Bool :=
  SlotSt.active x.st && !x.refetch && !q.companion && decide (x.nDone < x.last) && !(x.lost.contains x.nDone) &&
    (!x.isFeeder || decide (x.nDone - x.nRel < x.ring)) && (!x.isWrite || decide (x.nDone < x.nReady))

/-- The register writes of a move (05 R91), as address and 8 bytes. -/
def State.regWrites (s : State) (m : Move) : List (Nat × Nat) :=
  (m.requests.filter fun r => r.2.2 && addrDev r.1 = s.device && addrSpace r.1 = 6).map fun r =>
    (r.1, leNat ((List.range 8).map fun i => Tab.get 0 m.mem (r.1 + i)))

/-- Place what a part of a delivery moves: the state, or the way in which the slot stops. The last argument goes on
where all of it was placed; `put` performs its register writes. -/
def State.placeMove (s : State) (d b sl : Nat) (x : SuSlot) (q : StreamDesc) (m : Move) (put : State → Nat → Nat → State)
    (go : State → State) : State :=
  let g := s.moveGate d b sl q m
  if g.2 = false then g.1
  else
    let s := g.1
    let regs := s.regWrites m
    let s := s.stgScatter d b m.stg
    let r := s.scatter (s.ownBytes m.mem)
    if r.2 = false then r.1.slotError d b sl .uncorrectable false
    else
      let s := r.1.took (2 ^ 53)
      let s := if q.dir = 1 then s else s.incF d (pgSu b) 0x098 0 64 m.bytes
      let s := if x.writes then s.incF d (pgSu b) 0x0A0 0 64 m.mem.length else s
      regs.foldl (fun s w => put s w.1 w.2)
        (go (s.digestCommit d m.dig))

/-- A delivery has completed: counts, units, its reports once, its tracking entries end (R221, R224). -/
def State.deliveryDone (s : State) (d b sl : Nat) (x : SuSlot) (q : StreamDesc) (m : Move) : State :=
  let n := x.nDone + 1
  let y := { x with nDone := n, cursor := (n - x.k0) * q.perDelivery, part := {}, nIss := max x.nIss n,
                    iss := if x.nIss < n then 0 else x.iss, upto := if x.nIss < n then 0 else x.upto, stuck := false,
                    pages := Tab.del x.pages x.nDone }
  let y := if x.isFeeder then y else { y with nRel := y.nDone }
  let s := (s.setPair d b sl y.takeUnits.settle).progress d b
  let s := { s with ctx := { s.ctx with tracks := s.ctx.tracks.filter fun e => !(e.2.ofSlot d b sl && decide (e.2.deliv < n)) } }
  let p := x.part
  let s := if q.converts then
      s.convEvents d (pgSu b) q.tensor (p.nan + m.nan) (p.inf + m.inf) (p.ovf + m.ovf) else s
  if q.converts ∧ q.tensor ≠ 0xFFFFFFFF then s.reportAmax d b q.tensor (max p.amax m.amax) else s

/-- May the oldest delivery not completed be placed now? Its requests to other parts have all issued and been answered.
Of those to this part, which return as they arrive, the ones still to issue do so at once where the SU may issue, an entry
is or comes free, and the seams are at work. -/
def State.answered (s : State) (d b sl : Nat) (x : SuSlot) (m : Move) : Bool :=
  let rest := m.requests.drop (if x.nIss = x.nDone then x.iss else 0)
  let own := m.requests.filter fun r => addrDev r.1 = s.device
  !(s.awaits d b sl x.nDone fun _ => true) && own.all (fun r => s.pathOpen d (addrDie r.1) (some r.1)) &&
    (decide (x.nDone < x.nIss) || (s.slotReady d b x && rest.all (fun r => addrDev r.1 = s.device) && (decide (0 < x.iss) || (s.freeTrack d).isSome)))

/-- Complete the oldest delivery not completed, where it may be. -/
def State.completeOne (s : State) (d b sl : Nat) (put : Option (State → Nat → Nat → State)) : State :=
  let x := s.slotOf d b sl
  match x.desc with
  | none => s
  | some (_, q) =>
    if x.placeable q = false then s
    else
      let c := s.companionOf d b sl q
      let ps := x.todo q x.nDone
      let pages := (s.spansAt x q c ps).pages q c
      let fresh := x.nIss = x.nDone ∧ x.iss = 0
      let tr := if fresh then s.translateAll d (s.bayCtx d b) (decide (q.dir = 1)) pages else (s, Tab.get [] x.pages x.nDone)
      let s := tr.1
      if pages.any fun p => (Tab.find tr.2 p).isNone then s
      else match s.moveOf d b x q c tr.2 ps with
      | none => s
      | some m =>
        if s.answered d b sl x m = false ∨ (put.isNone = true ∧ (s.regWrites m).isEmpty = false) ∨ s.chunkHeld d m.dig = true then s
        else s.placeMove d b sl x q m (put.getD fun s _ _ => s) fun s => s.deliveryDone d b sl x q m

/-- SU_DELIVERY_COMPLETE: what may issue issues, and the oldest delivery not completed is placed whole. `put` performs a
register write of the stream. -/
def State.suDelivery (s : State) (d b sl : Nat) (put : State → Nat → Nat → State) : State :=
  if s.blkIs d (pgSu b) 2 = false then s
  else
    let s := s.setSlot d b sl { s.slotOf d b sl with stuck := (s.slotOf d b sl).stuck && decide (0 < (s.slotOf d b sl).iss) }
    ((s.pumpSlot d b sl).completeOne d b sl (some put)).pumpSlot d b sl

/-! ### Page faults (R232, R233; 12 R284) -/

/-- KIND and LEVEL of the fault of an address whose translation failed: as the walk finds it; as the event says where the
table has changed since, or a cached entry differs from it. -/
def State.faultKind (s : State) (d b : Nat) (f : PageFault) : Nat × Nat :=
  match (s.walkVa d (s.bayCtx d b) f.va.toNat fun _ => false).1 with
  | .inl k => k
  | .inr x => if x.allows f.write = false then (if f.write then 3 else 2, x.level) else (f.kind.toNat, f.level.val)

/-- The slot and its partner go to FAULTED at a position, and the fault is recorded. -/
def State.slotFaults (s : State) (d b sl p : Nat) (cur : Nat) (f : PageFault) (k : Nat × Nat) : State :=
  let id := s.bayCtx d b
  let seq := Tab.get 0 s.ctx.nextSeq d
  let s := s.onPair d b p fun y =>
    { y with st := .faulted, faultAddr := f.va.toNat, faultTime := s.now d, faultSeq := seq, nIss := y.nDone, iss := 0,
             nFill := y.nDone, stuck := false, upto := 0, fillIss := 0, pages := [] }
  let s := (s.setSlot d b p { s.slotOf d b p with cursor := cur }).endOwnTracks d b p
  let s := { s with ctx := { s.ctx with nextSeq := Tab.set 0 s.ctx.nextSeq d (seq + 1) } }
  let s := s.incF d pgApc 0x470 32 32 1
  s.fqPost ⟨s.now d, f.va.toNat, id, s.ctxGen id, k.1, k.2, if f.write then 1 else 0, b, d, sl, seq⟩

/-- The slot that a control acts as if written to: the primary of a pair (R233). -/
def State.primaryOf (s : State) (d b sl : Nat) : Nat := if s.bound d b sl then sl - 1 else sl

/-- Bytes of a table whose sectors' free bit says that their write had issued. -/
def State.issued (s : State) (t : Tab Byte) : Tab Byte :=
  let secs := sectorsIn t
  t.filter fun y => (Config.freeValue (s.freeIdx + secs.idxOf (y.1 / 64))).toNat % 2 = 1

/-- The staging that the writes of a slot aborted or cancelled were formed from, put back. -/
def State.withKept (s : State) (d b : Nat) (x : SuSlot) : State := x.kept.foldl (fun s r => s.stgPutBytes d b r.1 r.2) s

/-- Writes of a slot that had issued when it stopped complete at their homes (R232, R234), with the bytes they issued with: of
positions from `lo` up to `hi` whose pages translate, sector by sector, which had issued being open. -/
def State.settleWrites (s : State) (d b sl : Nat) (x : SuSlot) (q : StreamDesc) (lo hi : Nat) : State :=
  let c := s.companionOf d b sl q
  let all := positions lo hi
  let tr := s.translateAll d (s.bayCtx d b) true ((s.spansAt x q c all).pages q c)
  let s := tr.1
  let ps := all.filter fun p => ((s.spansAt x q c [p]).pages q c).all fun g => (Tab.find tr.2 g).isSome
  match ((s.withKept d b x).withKept d b ((c.map (·.1)).getD {})).moveOf d b x q c tr.2 ps with
  | none => s
  | some m =>
    let t := s.issued (s.ownBytes m.mem)
    let s := (s.scatter t).1
    (s.incF d (pgSu b) 0x0A0 0 64 t.length).took (2 ^ 53)

/-- The last position, and one more, up to which a slot's deliveries could issue writes. -/
def SuSlot.writeEnd (x : SuSlot) (q : StreamDesc) : Nat := if q.dir = 1 then (x.nReady - x.k0) * q.perDelivery else q.elems

/-- Deliveries before the one of a position are completed. -/
def State.completeTo (s : State) (d b sl n : Nat) (put : State → Nat → Nat → State) : State :=
  foldNat (n - (s.slotOf d b sl).nDone) (fun s _ => s.completeOne d b sl (some put)) s

/-- The primary position at which a fault at position `pos` of a slot's stream stops it: of a companion, the first of the
block. -/
def StreamDesc.faultPos (q : StreamDesc) (r : Option StreamDesc) (pos : Nat) : Nat :=
  match r with
  | none => pos
  | some r => match indicesOf r.used pos with
    | i0 :: is => positionOf q.used (i0 * q.block :: is)
    | [] => 0

/-- Does an address lie in the bytes of position `pos` of a slot, or of its companion, on a page that a map lacks? -/
def State.missesAt (s : State) (x : SuSlot) (q : StreamDesc) (c : Option (SuSlot × StreamDesc)) (t : Tab Nat) (pos va : Nat)
    (mate : Bool) : Bool :=
  let here := s.spansAt x q c [pos]
  (Tab.find t (va / 4096)).isNone && (if mate then here.comp else here.prim).any fun y => decide (y.1 ≤ va ∧ va < y.1 + y.2)

/-- The first delivery to be fetched again whose pages do not all translate, the slot as in its arming, and its pages that do
(R238). -/
def State.againMiss (s : State) (d b p : Nat) (q : StreamDesc) : Option (Nat × SuSlot × Tab Nat) :=
  let x := s.slotOf d b p
  (positions x.nRel x.nDone).findSome? fun n =>
    let y := x.inArming q n
    let c := (s.companionOf d b p q).map fun z => (z.1.inArming z.2 n, z.2)
    let lo := (n - y.k0) * q.perDelivery
    let pages := (s.spansAt y q c (positions lo (lo + q.perDelivery))).pages q c
    let t := (s.translateAll d (s.bayCtx d b) false pages).2
    if pages.any fun g => (Tab.find t g).isNone then some (n, y, t) else none

/-- A fault while deliveries are fetched again: of the first position that does not translate. The cursor stays; once it is
resumed the slot fetches again (R233, R238). -/
def State.againFault (s : State) (d b sl p : Nat) (q : StreamDesc) (pos : Nat) (f : PageFault) : State :=
  match s.againMiss d b p q with
  | none => s
  | some (n, y, t) =>
    let c := (s.companionOf d b p q).map fun z => (z.1.inArming z.2 n, z.2)
    let ps := positions ((n - y.k0) * q.perDelivery) ((n - y.k0 + 1) * q.perDelivery)
    if ps.find? (fun i => !(s.clearAt y q c t i)) = some pos ∧ s.missesAt y q c t pos f.va.toNat (decide (sl ≠ p)) = true then
      s.slotFaults d b sl p (s.slotOf d b p).cursor f (s.faultKind d b f)
    else s

/-- A fault of the delivery under issue: once the requests of the positions before the cursor have been answered, those are
placed and their reports kept, and the slot goes to FAULTED (R232). -/
def State.slotStops (s : State) (d b sl p : Nat) (q : StreamDesc) (pos : Nat) (f : PageFault)
    (put : State → Nat → Nat → State) : State :=
  let s0 := s
  let s := ((s.pumpSlot d b p).completeTo d b p (pos / max q.perDelivery 1 + (s.slotOf d b p).k0) put).pumpSlot d b p
  let x := s.slotOf d b p
  let c := s.companionOf d b p q
  let ps := x.todo q x.nDone
  let t := Tab.get [] x.pages x.nDone
  if s.slotReady d b x && x.stuck && decide (x.nIss = x.nDone) && x.placeable q && f.write = decide (q.dir = 1) &&
      decide (ps.find? (fun i => !(s.clearAt x q c t i)) = some pos) && s.missesAt x q c t pos f.va.toNat (decide (sl ≠ p)) &&
      !(s.awaits d b p x.nDone fun _ => true) then
    let cur := if q.dstScale = 2 then q.blockStart pos else pos
    match s.moveOf d b x q c t (s.clearTo x q c t ps) with
    | none => s0
    | some m =>
      let old := x.part
      s.placeMove d b p x q m put fun s =>
        let s := s.setSlot d b p
          { x with part := ⟨old.nan + m.nan, old.inf + m.inf, old.ovf + m.ovf, max old.amax m.amax⟩ }
        let s := if x.writes then s.settleWrites d b p x q cur (x.writeEnd q) else s
        s.slotFaults d b sl p cur f (s.faultKind d b f)
  else s0

/-- A page of a slot's stream with REGION 0 does not translate (R232; 12 R284). `put` performs a register write of the
stream. -/
def State.slotPageFault (s : State) (d b sl : Nat) (f : PageFault) (put : State → Nat → Nat → State) : State :=
  let p := s.primaryOf d b sl
  match (s.slotOf d b p).desc, (s.slotOf d b sl).desc with
  | some (_, q), some (_, r) =>
    let pos := q.faultPos (if sl = p then none else some r) f.pos
    if r.region ≠ 0 ∨ SlotSt.active (s.slotOf d b p).st = false then s
    else if (s.slotOf d b p).refetch then s.againFault d b sl p q pos f
    else s.slotStops d b sl p q pos f put
  | _, _ => s

/-- What a write of SLOTs_CTRL does (R233, R236): CANCEL before ABORT before RESUME. -/
def State.slotCtrl (s : State) (d b sl v : Nat) : State :=
  let p := s.primaryOf d b sl
  if bitsOf v 2 1 = 1 then s.cancelSlot d b p
  else if (s.slotOf d b p).st ≠ .faulted then s
  else if bitsOf v 1 1 = 1 then s.abortSlot d b p 1
  else if bitsOf v 0 1 = 1 then
    (s.onPair d b p fun x => { x with st := .running, stuck := false }.settle).pumpSlot d b p
  else s

/-- A write of one bit of SLOTs_CTRL. -/
def State.slotCtrlWrite (s : State) (w : Writer) (d b sl v : Nat) : State :=
  (s.write1 d (pgSu b) (0x108 + 64 * sl) w v).then_ fun s => s.slotCtrl d b sl v

def execSlotResume (w : Writer) (d : Die) (b : Bay) (sl : Slot) (s : State) : SRes := .next (s.slotCtrlWrite w d b sl 1)
def execSlotAbort (w : Writer) (d : Die) (b : Bay) (sl : Slot) (s : State) : SRes := .next (s.slotCtrlWrite w d b sl 2)
def execSlotCancel (w : Writer) (d : Die) (b : Bay) (sl : Slot) (s : State) : SRes := .next (s.slotCtrlWrite w d b sl 4)

/-- FAULT_TIMEOUT as it acts, in ms. -/
def State.faultTimeout (s : State) (d b : Nat) : Nat := max 1 (min 10000 (s.rdF d (pgSu b) 0x0B0 0 14))

/-- SLOT_FAULT_TIMEOUT (R233): CAUSE 4. -/
def execSlotFaultTimeout (d : Die) (b : Bay) (sl : Slot) (s : State) : SRes :=
  .next <|
    let p := s.primaryOf d b sl
    let x := s.slotOf d b p
    if x.st = .faulted ∧ x.faultTime + 1000000 * s.faultTimeout d b ≤ s.now d then s.abortSlot d b p 4 else s

/-! ### The end of a cancellation (R234, R235) -/

/-- Writes that a slot had issued when it stopped complete at their homes. -/
def State.settleSlot (s : State) (d b sl : Nat) : State :=
  let x := s.slotOf d b sl
  match x.desc with
  | none => s
  | some (_, q) =>
    if x.owes = false then s
    else
      let s := s.setSlot d b sl { x with owes := false, kept := [] }
      if q.companion then s
      else s.settleWrites d b sl x q (max x.cursor ((x.nDone - x.k0) * q.perDelivery)) (x.writeEnd q)

/-- Settle the writes of every slot of a bay. -/
def State.settleBay (s : State) (d b : Nat) : State := (List.range 32).foldl (fun s sl => s.settleSlot d b sl) s

/-- SLOT_CANCEL_COMPLETE: no request of the slot to another part is outstanding; its own part's have returned. -/
def execSlotCancelComplete (d : Die) (b : Bay) (sl : Slot) (s : State) : SRes :=
  .next <|
    let p := s.primaryOf d b sl
    let x := s.slotOf d b p
    let out := s.ctx.tracks.any fun e => e.2.ofSlot d b p && e.2.remote
    if x.st ≠ .cancelling ∨ out then s
    else
      let s := (s.settleSlot d b p).endSlotTracks d b p
      s.onPair d b p fun x => { x with st := .idle, cancelDone := true, ended := true, owes := false, kept := [] }

end Sys2Proof.Machine
end

