-- ==== Sys2Proof/Machine/Witness.lean ====
section
/-! DEFINITION. Witnesses and duplicate sampling as the engines use them (15 R335 to R340), and the expected shape of
a chain. -/

namespace Sys2Proof.Machine

/-! ### The witness (R335, R336) -/

/-- The bytes of Table 15-1. -/
def witnessInput (t : TileDesc) (rows : Nat) (fb : Bool) (step : Nat) (d : Drained) (out : List (List Byte))
    (oscale : Byte) : List Byte :=
  leBytes 4 t.tileId ++ leBytes 1 rows ++ leBytes 1 t.nValid ++ leBytes 1 t.outFmt ++ leBytes 1 (if fb then 1 else 0) ++
    leBytes 6 step ++ leBytes 2 0 ++ out.flatten ++
    (match t.outScale.mode with
      | 1 => [oscale]
      | 2 => d.scales.flatten
      | _ => []) ++
    leBytes 2 (evCount .nan d.evs) ++ leBytes 2 (evCount .inf d.evs) ++ leBytes 2 (evCount .ovf d.evs) ++ leBytes 2 0

/-- The rows of a drain with the bits that a fault flipped (R342). -/
def flipRows (t : TileDesc) (flips : List Flip) (rows : List (List Byte)) : List (List Byte) :=
  match Fmt.ofCode t.outFmt with
  | none => rows
  | some out => (List.range rows.length).map fun i =>
      flipRow out t.nValid ((flips.filter fun f => f.row = i).map fun f => (f.col, f.xor)) (rows.getD i [])

/-- Table index of a descriptor (R336). -/
def State.wtabIndex (s : State) (r : TileRef) : Nat :=
  if r.fb then (s.books.active.map (·.tiles.length)).getD 0 + r.ix else r.ix

/-- Bytes of an entry (Table 15-2). -/
def WitEntry.bytes (e : WitEntry) : List Byte :=
  leBytes 4 e.tileId ++ leBytes 1 e.flags ++ leBytes 1 e.lbay ++ leBytes 2 0 ++ leBytes 8 e.witness

/-- Write an entry; a refused write keeps the step from certification (R468). -/
def State.putWit (s : State) (x : Nat) (e : WitEntry) : State :=
  let s := { s with wtab := Tab.put s.wtab x e }
  let r := s.partPublish (s.inf 0 pgWit 0x080 + 16 * x) e.bytes
  if r.2 then r.1 else (r.1.setErr 0 pgWit 12).noCert 6

/-! ### Sampling (R338 to R340) -/

/-- Operand bytes of a descriptor: A, B, their scales and the initial value; rows 0 counts as 128. -/
def TileDesc.operandBytes (t : TileDesc) : Nat :=
  let m := if t.mValid = 0 then 128 else t.mValid
  match Fmt.ofCode t.aFmt, Fmt.ofCode t.bFmt with
  | some fa, some fb =>
    let sc (x : ScaleSel) (lines : Nat) : Nat :=
      match x.mode with | 1 => 1 | 2 => lines * (t.k / x.block) | _ => 0
    m * rowBytes fa t.k + t.nValid * rowBytes fb t.k + sc t.aScale m + sc t.bScale t.nValid +
      (if t.loadC then m * t.nValid * accWidth t else 0)
  | _, _ => 0

/-- The descriptors of the chain at the head of a work list, up to its DRAIN = 1. -/
def State.chainOf (s : State) : Nat → List TileRef → List (TileRef × TileDesc)
  | 0, _ => []
  | _, [] => []
  | n + 1, r :: rs =>
    match s.tileOf r with
    | none => []
    | some t => (r, t) :: (if t.drain then [] else s.chainOf n rs)

/-- Is a chain eligible (section Duplicate sampling)? -/
def chainEligible (c : List (TileRef × TileDesc)) : Bool := c.all fun x => (x.2.opcode = 1 || x.2.opcode = 2) && decide (x.2.operandBytes ≤ 2 ^ 22)

/-- Is chain number `c` of a logical bay sampled, its window opened by the chain `first` (R338)? -/
def sampledPick (lbay c step first div : Nat) : Bool :=
  let h := (rhash 0x44555053414D504C step first lbay).toNat
  c % div = h / 2 ^ 32 % div

/-- The bay in the wings of a die; a reset leaves it that role, as the checker map stays as it is (R339). -/
def State.wingsBay (s : State) (d : Nat) : Option Nat :=
  (List.range 9).find? fun b => s.unit 0 d b = .wings ||
    (s.unit 0 d b = .reset && Tab.find s.resets.units (unitKey 0 d b) = some .wings)

/-- Ring order starting after a die (R339). -/
def ringAfter : Nat → List Nat
  | 0 => [1, 3, 2]
  | 1 => [3, 2, 0]
  | 3 => [2, 0, 1]
  | _ => [0, 1, 3]

/-- The die that checks a die's samples: another's, or its own. -/
def State.checkDie (s : State) (d : Nat) : Option Nat :=
  match (ringAfter d).find? fun x => (s.wingsBay x).isSome with
  | some x => some x
  | none => if (s.wingsBay d).isSome then some d else none

/-- Staging ranges of a descriptor's operands: offset and length. -/
def TileDesc.ranges (t : TileDesc) (rows cols : Nat) : List (Nat × Nat) :=
  match Fmt.ofCode t.aFmt, Fmt.ofCode t.bFmt with
  | some fa, some fb =>
    let sc (x : ScaleSel) (off lines : Nat) : List (Nat × Nat) :=
      match x.mode with | 1 => [(off, 1)] | 2 => [(off, lines * (t.k / x.block))] | _ => []
    (List.range rows).map (fun i => (t.aOff + i * t.aStride * 64, rowBytes fa t.k)) ++
      (List.range cols).map (fun j => (t.bOff + j * t.bStride * 64, rowBytes fb t.k)) ++
      sc t.aScale t.aScaleOff rows ++ sc t.bScale t.bScaleOff cols ++
      (if t.loadC then (List.range rows).map fun i => (t.cOff + i * t.cStride * 64, cols * accWidth t) else []) ++
      (if t.outScale.mode = 1 then [(t.outScaleOff, 1)] else [])
  | _, _ => []

/-- Copy a range of staging into an image. -/
def State.copyRange (s : State) (d b : Nat) (img : Tab Byte) (r : Nat × Nat) : Tab Byte :=
  (List.range r.2).foldl (fun t i => Tab.set 0 t (r.1 + i) (s.stg d b (r.1 + i))) img

/-- Bytes of a bay's staging are copied to the same place of another's; what lies outside staging is not. -/
def State.copyStaging (s : State) (d b cd cb : Nat) (r : Nat × Nat) : State :=
  let n := min r.2 (2 ^ 23 - r.1)
  s.stgPutBytes cd cb r.1 ((List.range n).map fun i => s.stg d b (r.1 + i))

/-- The checker's staging gets a descriptor's operands, at their places in the primary's (entry 82). -/
def State.copyChecker (s : State) (d b : Nat) (t : TileDesc) (rows cols : Nat) : State :=
  (s.dup.jobs.filter fun j => j.pdie = d && j.pbay = b && !j.closed).foldl (fun s j =>
    match s.wingsBay j.cdie with
    | some cb => (t.ranges rows cols).foldl (fun s r => s.copyStaging d b j.cdie cb r) s
    | none => s) s

/-- The sampler's copy as a descriptor of a sampled chain begins (R340 rule 1): to the last job of this bay. -/
def State.dupCopy (s : State) (d b : Nat) (t : TileDesc) (rows cols : Nat) : State :=
  let s := s.copyChecker d b t rows cols
  { s with dup := { s.dup with jobs := s.dup.jobs.map fun j =>
      if j.pdie = d ∧ j.pbay = b ∧ j.closed = false then
        { j with descs := j.descs ++ [t], closed := t.drain, rows := rows,
                 image := (t.ranges rows cols).foldl (s.copyRange d b) j.image }
      else j } }

/-- Count a sampled chain that nobody checks (R339). -/
def State.unchecked (s : State) (d : Nat) : State := (s.incF d pgDup 0x090 0 32 1).setErr d pgDup 11

/-- Is a mismatch of this chain waiting for its verdict (R343)? -/
def State.judged (s : State) (tileId : Nat) : Bool := s.dup.mism.any fun m => m.tileId = tileId && m.step = s.stepNum

/-- The die of the arbiter of a chain (R343): the first after the checker's die with a bay in the wings that is
neither the primary's nor the checker's; none where there is no such die. -/
def State.arbiterDie (s : State) (pd cd : Nat) : Option Nat :=
  (ringAfter cd).find? fun x => x ≠ pd && x ≠ cd && (s.wingsBay x).isSome

/-- Take a chain for checking on a die. -/
def State.dupQueue (s : State) (d b cd lbay : Nat) (r : TileRef) (t : TileDesc) (arb same sameArb : Bool) : State :=
  let j : DupJob := { ref := r, tileId := t.tileId, lbay := lbay, pdie := d, pbay := b, cdie := cd, arbiter := arb,
                      same := same, sameArb := sameArb }
  { s with dup := { s.dup with jobs := s.dup.jobs ++ [j] } }

/-- A chain of the book context begins (R338, R343, R414 step 1): numbered, and taken for checking where it is
sampled or named in a mismatch. Whether it is sampled the engine keeps for its entry of the witness table. -/
def State.dupBegin (s : State) (d b : Nat) (chain : List (TileRef × TileDesc)) : State :=
  match chain.head?, chain.getLast?, s.lbayOf d b with
  | some _, some (r, t), some lbay =>
    if !(chainEligible chain) then s.incF d pgDup 0x090 32 32 1
    else
      let div := max 1 ((s.books.active.map (·.dupDivisor)).getD 1)
      let c := Tab.get 0 s.dup.count lbay
      let first := if c % div = 0 then t.tileId else Tab.get 0 s.dup.first lbay
      let s := { s with dup := { s.dup with count := Tab.set 0 s.dup.count lbay (c + 1),
                                            first := Tab.set 0 s.dup.first lbay first } }
      let twice := s.judged t.tileId
      let picked := sampledPick lbay c s.stepNum first div
      let s := s.setMxe d b { s.mxeOf d b with sampled := picked }
      if !picked && !twice then s
      else
        let s := s.incF d pgDup 0x080 0 32 1
        if 1 ≤ s.shed ∨ s.rdF d pgDup 0x028 11 1 = 1 then s.unchecked d
        else
          let cd := s.rdF d pgDup 0x028 8 2
          let same := s.rdF d pgDup 0x028 10 1 = 1
          let s := s.dupQueue d b cd lbay r t false same false
          if twice then
            match s.arbiterDie d cd with
            | some ad => s.dupQueue d b ad lbay r t true false false
            | none => s.dupQueue d b cd lbay r t true same true
          else s
  | _, _, _ => s

/-- The chain's first check waits for its copy: the drain holds the SIGNAL (R340 rule 2). -/
def State.dupHolds (s : State) (d b tileId : Nat) : Bool :=
  s.dup.jobs.any fun j => j.pdie = d && j.pbay = b && j.tileId = tileId && !j.copied

/-- Checks queued or running on a die (DUP.BLK_STAT.QUEUED). -/
def State.dupQueued (s : State) (cd : Nat) : Nat :=
  (s.dup.jobs.filter fun j => j.cdie = cd && j.copied).length

/-- The first of a list of rows that lie within `n` bytes. -/
def rowsWithin : Nat → List (List Byte) → List (List Byte)
  | _, [] => []
  | n, r :: rs => if n < r.length then [] else r :: rowsWithin (n - r.length) rs

/-- The primary's drain reaches the sample buffer, which holds 64 KiB of a chain (R340 rule 3). DESIGN CHOICE (entry 163): of a
longer drain its first rows, and those alone are compared element by element. -/
def State.dupPrim (s : State) (d b tileId : Nat) (x : Drain) : State :=
  let x := { x with rows := rowsWithin 65536 x.rows }
  { s with dup := { s.dup with jobs := s.dup.jobs.map fun j =>
      if j.pdie = d ∧ j.pbay = b ∧ j.tileId = tileId ∧ j.prim = none then { j with prim := some x } else j } }

/-- Abandon the checks of a bay, as primary or as checker (R353): counted UNCHECKED, held SIGNALs left. -/
def State.dupAbandon (s : State) (p : DupJob → Bool) : State :=
  let gone := s.dup.jobs.filter fun j => p j && !j.arbiter
  let s := { s with dup := { s.dup with jobs := s.dup.jobs.filter fun j => !(p j) } }
  gone.foldl (fun s j => s.unchecked j.pdie) s

end Sys2Proof.Machine
end

