-- ==== Sys2Proof/Machine/Switch.lean ====
section
/-! DEFINITION. Bay switches: the save set and its area (12 R272, R279, R280; 06 R125; 09 R211; 10 R238; 18 R398). -/

namespace Sys2Proof.Machine

/-! ### The table's entries -/

def State.ctxOf (s : State) (id : Nat) : Ctx := Tab.get {} s.ctx.ctxs id

/-- May bay `b` of die `d` run it (R273)? -/
def Ctx.onBay (c : Ctx) (d b : Nat) : Bool := c.book || bitsOf c.bayMask (9 * d + b) 1 = 1

/-- Bytes of a bay's save area (R272). -/
def saveSize : Nat := 0x840000

/-- The save area of a bay (R272), as a memory key. -/
def Ctx.saveKey (c : Ctx) (d b : Nat) : Nat := addrKey (c.save.getD d 0) + b * saveSize

/-! ### Bytes of the save set -/

/-- A bay's accumulators in its save area (DESIGN CHOICE, entry 28): bank k at 64 KiB × k, row i and column j at
(128 i + j) × 4; a chain of FP64 takes both banks, 8 bytes each. -/
def accBase (bank : Nat) (wide : Bool) : Nat := if wide then 0 else bank % 2 * 65536

/-- Put accumulators at a key. -/
def putAcc (t : Tab Byte) (k : Nat) (wide : Bool) (acc : List (List Nat)) : Tab Byte :=
  let w := if wide then 8 else 4
  ((List.range acc.length).zip acc).foldl (fun t r => putBytes t (k + r.1 * 128 * w) (r.2.flatMap (leBytes w))) t

/-- Read accumulators of the same rows and columns back. -/
def getAcc (rd : Nat → Byte) (k : Nat) (wide : Bool) (acc : List (List Nat)) : List (List Nat) :=
  let w := if wide then 8 else 4
  ((List.range acc.length).zip acc).map fun r =>
    (List.range r.2.length).map fun j => leNat (readN rd (k + (r.1 * 128 + j) * w) w)

/-- Is the chain that fills a bank one of FP64? -/
def State.wideOpen (s : State) (m : Mxe) : Bool :=
  match m.openBy.bind s.tileOf with
  | some t => accWidth t = 8
  | none => false

/-- The accumulators that an MXE holds: bank, width, values. -/
def State.putBanks (s : State) (t : Tab Byte) (k : Nat) (m : Mxe) : Tab Byte :=
  let t := m.drains.foldl (fun t j => putAcc t (k + accBase j.bank j.wide) j.wide j.acc) t
  putAcc t (k + accBase m.bank (s.wideOpen m)) (s.wideOpen m) m.acc

/-- The MXE with the accumulators that its save area holds. -/
def State.getBanks (s : State) (rd : Nat → Byte) (k : Nat) (m : Mxe) : Mxe :=
  { m with acc := getAcc rd (k + accBase m.bank (s.wideOpen m)) (s.wideOpen m) m.acc,
           drains := m.drains.map fun j => { j with acc := getAcc rd (k + accBase j.bank j.wide) j.wide j.acc } }

/-- The vector registers, 2,048 bytes each. -/
def VxeRegs.vecBytes (r : VxeRegs) : List Byte := (List.range 32).flatMap fun i => leBytes 2048 (r.vreg i).toNat

/-- Masks, scalars, then the rest of Table 9-1 in 8 bytes each (entry 34). -/
def VxeRegs.restBytes (r : VxeRegs) : List Byte :=
  ((List.range 4).flatMap fun i => leBytes 256 (r.mreg i).toNat) ++
    ((List.range 16).flatMap fun i => leBytes 8 (r.sreg i).toNat) ++
    [r.vl, r.vfmt, r.vtid, r.vidx.toNat, r.vscale, r.vblk, r.vrm, r.vflags, r.pc].flatMap (leBytes 8)

/-- The state of Table 9-1, in the table's order. -/
def VxeRegs.bytes (r : VxeRegs) : List Byte := r.vecBytes ++ r.restBytes

/-- The registers that the two parts of a save area hold, at `v` and at `c`. -/
def VxeRegs.ofBytes (rd : Nat → Byte) (v c : Nat) : VxeRegs :=
  let word (i : Nat) : Nat := leNat (readN rd (c + 1152 + 8 * i) 8)
  let r : VxeRegs := { vl := word 0, vfmt := word 1, vtid := word 2, vidx := BitVec.ofNat 64 (word 3), vscale := word 4,
                       vblk := word 5, vrm := word 6, vflags := word 7, pc := word 8 }
  let r := foldNat 32 (fun r i => r.setV i (BitVec.ofNat 16384 (leNat (readN rd (v + 2048 * i) 2048)))) r
  let r := foldNat 4 (fun r i => r.setM i (BitVec.ofNat 2048 (leNat (readN rd (c + 256 * i) 256)))) r
  foldNat 16 (fun r i => r.setS i (BitVec.ofNat 64 (leNat (readN rd (c + 1024 + 8 * i) 8)))) r

/-- The registers once `n` more instructions at PC have been answered. -/
def VxeRegs.skip (r : VxeRegs) (n : Nat) : VxeRegs := { r with pc := r.pc + n }

/-! ### Staging -/

/-- Staging of the deliveries that a slot fetches again: completed and not released (R238). -/
def SuSlot.againRanges (x : SuSlot) : List (Nat × Nat) :=
  if x.isFeeder then (positions x.nRel x.nDone).filterMap x.delivRange else []

/-- Staging that a bay does not save (R280): none of it in a forced save (18 R398). -/
def State.spared (s : State) (d b : Nat) (forced : Bool) : List (Nat × Nat) :=
  if forced then [] else (List.range 32).flatMap fun sl => (s.slotOf d b sl).againRanges

/-- Does one of the ranges hold an offset? -/
def inRanges (rs : List (Nat × Nat)) (a : Nat) : Bool := rs.any fun r => decide (r.1 ≤ a ∧ a < r.1 + r.2)

/-- Bytes of a save area that a save set takes (R272, R281). -/
def saveUsed : Nat := 0x832000

/-- How much of a sector of a save area at `k` is in ranges of it: of its 64 bytes. -/
def spareIn (rs : List (Nat × Nat)) (k sec : Nat) : Nat := ((List.range 64).filter fun i => inRanges rs (sec * 64 + i - k)).length

/-- Sectors of a save area at `k` that are read or written where ranges of it are not: whole, and in part. -/
def saveSectors (rs : List (Nat × Nat)) (k : Nat) : List Nat × List Nat :=
  ((sectorsOf k saveUsed).filter fun x => spareIn rs k x = 0, (sectorsOf k saveUsed).filter fun x => decide (0 < spareIn rs k x ∧ spareIn rs k x < 64))

/-- The part's step meets data of the save area of its book context that cannot be read: it ends (11 R268). What another
context's restore makes of such data is open (entry 28). -/
def State.saveBad (s : State) (id : Nat) (bad : List Nat) : State := if bad.isEmpty || !(s.isBookId id) then s else s.endStep 1

/-- Write a bay's save set to its save area (R280 rule 2), through the cache and sector by sector: one that is written in part
is read first, and refused where it holds uncorrectable data (11 R251, R268). The layout of the slots' state is open: free
bytes, as what idle banks hold (entry 28). -/
def State.saveBytes (s : State) (d b id k : Nat) (forced : Bool) : State :=
  let k0 := bayKey d b * 2 ^ 23
  let spare := s.spared d b forced
  let (whole, part) := saveSectors spare k
  let s := ((whole ++ part).foldl State.lookSector s).checkSecs (k / 2 ^ 38 % 4) part
  let refused := part.filter s.isBad
  let s := s.saveBad id refused
  let here := (s.staging.filter fun e => decide (k0 ≤ e.1 ∧ e.1 < k0 + 2 ^ 23) && !(inRanges spare (e.1 - k0))).map
    fun e => (k + (e.1 - k0), e.2)
  let keep (a : Nat) : Bool := refused.contains (a / 64)
  let s := whole.foldl State.clearBad s
  let s := ((whole ++ part).filter fun x => !(refused.contains x)).foldl (fun s x => (s.dirtySector x).rehCorrupt x) s
  let kept := Tab.keep (fun a => decide (a < k ∨ k + saveUsed ≤ a) || inRanges spare (a - k) || keep a) s.mem.bytes
  let t := (here.filter fun e => !(keep e.1)).foldl (fun t e => Tab.set 0 t e.1 e.2) kept
  let t := putBytes t (k + 0x800000) (s.freeBytes 0x32000)
  let t := s.putBanks t (k + 0x800000) (s.mxeOf d b)
  let r := (s.vxeOf d b).regs
  let t := putBytes (putBytes t (k + 0x820000) r.vecBytes) (k + 0x830000) r.restBytes
  ({ s with mem := { s.mem with bytes := t } }.evalWatches k saveUsed).took 0x32000

/-- A save area is read back, through the cache and checked, but for the staging that is fetched again (R280 rule 3). -/
def State.readSaved (s : State) (id k : Nat) (spare : List (Nat × Nat)) : State :=
  let (whole, part) := saveSectors spare k
  let s := ((whole ++ part).foldl State.lookSector s).checkSecs (k / 2 ^ 38 % 4) (whole ++ part)
  s.saveBad id ((whole ++ part).filter s.isBad)

/-- A byte of a save area as the restore has it: where its sector holds uncorrectable data, which is not passed on, it is a
free value (entry 28). -/
def State.savedByte (s : State) (a : Nat) : Byte :=
  if s.isBad (a / 64) then (Config.freeValue (s.freeIdx + a)).setWidth 8 else s.memByte a

/-- Take a bay's staging back from a save area. -/
def State.loadStaging (s : State) (d b k : Nat) : State :=
  let k0 := bayKey d b * 2 ^ 23
  let bad := (sectorsOf k (2 ^ 23)).filter s.isBad
  let here := s.mem.bytes.filter fun e => decide (k ≤ e.1 ∧ e.1 < k + 2 ^ 23)
  let kept := Tab.keep (fun a => decide (a < k0 ∨ k0 + 2 ^ 23 ≤ a)) s.staging
  let t := here.foldl (fun t e => Tab.set 0 t (k0 + (e.1 - k)) e.2) kept
  { s with staging := bad.foldl (fun t x => (List.range 64).foldl (fun t i =>
      Tab.set 0 t (k0 + (x * 64 + i - k)) (s.savedByte (x * 64 + i))) t) t }

/-! ### Save and restore -/

/-- The engines and slots of a bay as after OPENING of each block. -/
def State.freshBay (s : State) (d b : Nat) : State :=
  let k0 := bayKey d b
  { s with mxe := Tab.del s.mxe k0, vxe := Tab.del s.vxe k0,
           slots := Tab.keep (fun k => decide (k / 32 ≠ k0)) s.slots }

/-- A slot as it is saved (R238): what had issued beyond the completed deliveries is forgotten. -/
def SuSlot.saved (x : SuSlot) : SuSlot :=
  { x with nIss := x.nDone, iss := 0, nFill := x.nDone, pages := [], got := [], stuck := false, upto := 0, fillIss := 0 }

/-- Write out what is marked ready and commit what completes (R238): for as many deliveries as may be. -/
def State.settleSwitch (s : State) (d b : Nat) : State :=
  let s := s.settleBay d b
  (List.range 32).foldl (fun s sl =>
    let s := s.pumpSlot d b sl
    let x := s.slotOf d b sl
    foldNat (max x.nIss x.nReady - x.nDone) (fun s _ => (s.completeOne d b sl none).pumpSlot d b sl) s) s

/-- Is the SU of a bay at rest (R238): no request to another part outstanding, every delivery marked ready written? -/
def State.suAtRest (s : State) (d b : Nat) : Bool :=
  !(s.ctx.tracks.any fun e => e.2.ofBaySlots d b && e.2.remote) &&
    (List.range 32).all fun sl =>
      let x := s.slotOf d b sl
      !(x.isWrite && SlotSt.active x.st) || x.isCompanion || x.stuck || x.lost.contains x.nDone || decide (x.nReady ≤ x.nDone)

/-- The context that a bay runs; none where it runs none, or would run the book's and holds no logical number. -/
def State.runsOn (s : State) (d b : Nat) : Option Nat :=
  let v := Tab.get 0 s.ctx.bays (bayKey d b)
  if v = 4097 then none
  else if v ≠ 0 then some (v - 1)
  else if (s.lbayOf d b).isSome then (s.ctx.ctxs.find? fun x => x.2.book).map (·.1) else none

/-- Save the context that runs on a bay (R280 rules 1 and 2). -/
def State.saveBay (s : State) (d b : Nat) (forced : Bool) : State :=
  match s.runsOn d b with
  | none => s
  | some id =>
    let s := (List.range 32).foldl (fun s sl => (s.setSlot d b sl (s.slotOf d b sl).saved).endSlotTracks d b sl) s
    let set : SaveSet := { mxe := s.mxeOf d b, vxe := s.vxeOf d b, slots := (List.range 32).map (s.slotOf d b) }
    let s := s.saveBytes d b id ((s.ctxOf id).saveKey d b) forced
    { s with ctx := { s.ctx with saved := Tab.put s.ctx.saved (id * 64 + bayKey d b) set } }.progress d b

/-- A bay leaves the context that it ran, and runs another or none. -/
def State.setBayCtx (s : State) (d b v : Nat) : State :=
  let was := Tab.get [] s.hang.ran (bayKey d b)
  let recent := was.filter fun x => decide (s.now d < x.2 + 1000000000)
  let s := match s.runsOn d b with
    | some old => if old + 1 = v then s
      else { s with hang := { s.hang with ran := Tab.set [] s.hang.ran (bayKey d b) ((old, s.now d) :: recent) } }
    | none => s
  { s with ctx := { s.ctx with bays := Tab.set 0 s.ctx.bays (bayKey d b) v } }

/-- A slot on resumption (R238): deliveries completed and not released are fetched again before it leaves WAITING. -/
def SuSlot.resumed (x : SuSlot) : SuSlot :=
  if x.isFeeder ∧ x.nRel < x.nDone ∧ (x.st = .running ∨ x.st = .waiting ∨ x.st = .done ∨ x.st = .faulted) then
    { x with refetch := true, st := if x.st = .faulted then .faulted else .waiting }
  else x

/-- A slot is restored: the staging that is fetched again is undefined till then. -/
def State.resumeSlot (s : State) (d b sl : Nat) : State :=
  let x := s.slotOf d b sl
  let y := x.resumed
  let s := if y.refetch then x.againRanges.foldl (fun s r => (s.stgPutBytes d b r.1 (s.freeBytes r.2)).took r.2) s else s
  if x.isCompanion then s else s.setPair d b sl y

/-- A bay runs a context: from its save area, or from the state after OPENING where it never ran there (R280 rule 3); its
quantum begins. -/
def State.restoreBay (s : State) (d b id : Nat) : State :=
  let s := s.freshBay d b
  let k := (s.ctxOf id).saveKey d b
  let s := match Tab.find s.ctx.saved (id * 64 + bayKey d b) with
    | none => s
    | some x =>
      let s := s.readSaved id k (x.slots.flatMap SuSlot.againRanges)
      let s := if x.begun then (s.setMxe d b x.mxe).setVxe d b x.vxe
        else (s.setMxe d b (s.getBanks s.savedByte (k + 0x800000) x.mxe)).setVxe d b
          { x.vxe with regs := (VxeRegs.ofBytes s.savedByte (k + 0x820000) (k + 0x830000)).skip x.vDone }
      let s := (List.range 32).foldl (fun (s : State) sl => s.setSlot d b sl (x.slots.getD sl {})) s
      (s.loadStaging d b k).took (2 ^ 40)
  let s := s.setBayCtx d b (id + 1)
  let s := { s with ctx := { s.ctx with baySince := Tab.set 0 s.ctx.baySince (bayKey d b) (s.now d) } }
  let s := (s.setSwitching d b false).progress d b
  let s := (List.range 32).foldl (fun s sl => s.resumeSlot d b sl) s
  let s := s.incF d pgApc 0x468 0 32 1
  (List.range 32).foldl (fun s sl => s.pumpSlot d b sl) s

/-! ### The end of a quantum (R279) -/

/-- Is every pending delivery of a mask either complete or on a slot that is FAULTED, one at least being so? -/
def State.onFaulted (s : State) (d b mask : Nat) : Bool :=
  !(s.waitDone d b mask) && (List.range 32).all fun i =>
    bitsOf mask i 1 = 0 || (s.slotOf d b i).pendingDone || (s.slotOf d b i).st = .faulted

/-- Is the MXE idle, or waiting only on FAULTED slots? -/
def State.mxeSpare (s : State) (d b : Nat) : Bool :=
  let m := s.mxeOf d b
  m.drains.isEmpty && m.openBy.isNone && !m.syncing && m.gate.isNone &&
    (m.stopped || m.atEnd || match m.work.head?.bind s.tileOf with
      | none => true
      | some t => s.onFaulted d b t.waitMask)

/-- Is the VXE idle, or waiting only on FAULTED slots? -/
def State.vxeSpare (s : State) (d b : Nat) : Bool :=
  let v := s.vxeOf d b
  !v.syncing && (v.faulted || (match v.insn with
    | none => v.queue.isEmpty
    | some w => isWait w && s.onFaulted d b ((v.regs.sreg (bitsOf w 19 4)).toNat % 2 ^ 32)))

/-- CTX_CFG.QUANTUM_US as it acts. -/
def State.ctxQuantum (s : State) : Nat := max 100 (min 100000 (s.rdF 0 pgApc 0x400 0 17))

/-- The bay quantum of a context in ns. -/
def State.quantumOf (s : State) (id : Nat) : Nat :=
  let q := (s.ctxOf id).quantum
  1000 * (if q = 0 then s.ctxQuantum else q)

/-- When the quantum of the context on a bay began: as its restore ended; the book context's, where it runs without a switch, with
its activation or as it was admitted. -/
def State.quantumStart (s : State) (d b id : Nat) : Nat :=
  max (Tab.get 0 s.ctx.baySince (bayKey d b)) (Tab.get {} s.ctx.resid (d * 4096 + id)).since

/-- May the bay switch: its quantum has passed, its engines are idle or wait only on FAULTED slots, or it runs none; or
the switch is in progress? -/
def State.switchDue (s : State) (d b : Nat) : Bool :=
  s.switching d b || match s.runsOn d b with
    | none => true
    | some id => decide (s.quantumStart d b id + s.quantumOf id ≤ s.now d) || (s.mxeSpare d b && s.vxeSpare d b)

/-- Contexts of a die with a residency, in the order in which they came to it. -/
def State.inRes (s : State) (d res : Nat) : List (Nat × Resid) :=
  let xs := (s.ctx.resid.filter fun e => e.1 / 4096 = d && e.2.res = res).map fun e => (e.1 % 4096, e.2)
  sortBy (fun a b => decide (a.2.order ≤ b.2.order)) xs

/-- Contexts that may run on a bay, in order of admission; an EXCLUSIVE one runs alone (R279), and so does a suspect
in its trial (18 R399). -/
def State.bayQueue (s : State) (d b : Nat) : List Nat :=
  let ids := ((s.inRes d 2).map (·.1)).filter fun id =>
    let c := s.ctxOf id
    c.st = 2 && (if c.book then (s.lbayOf d b).isSome else c.onBay d b && s.unit 0 d b = .inService)
  match s.hang.replays.find? fun r => r.die = d && r.bay = b with
  | some r => r.trial.toList
  | none =>
    match ids.find? fun id => (s.ctxOf id).excl with
    | some id => [id]
    | none => ids

/-- The next context in turn on a bay. -/
def State.nextCtx (s : State) (d b : Nat) : Option Nat :=
  let q := s.bayQueue d b
  match (q.dropWhile fun x => some x ≠ s.runsOn d b).tail.head? with
  | some x => some x
  | none => q.head?

/-- BAY_QUANTUM_END (R279, R280): the switch to the next context in turn, where there is another. It waits, SWITCHING, for
the SU to come to rest. -/
def execBayQuantumEnd (d : Die) (b : Bay) (s : State) : Host.Outcome State Fault Refusal :=
  .next <|
    match s.nextCtx d b with
    | none => s
    | some id =>
      if s.runsOn d b = some id then (if s.switching d b then s.setSwitching d b false else s)
      else if !(s.issues d) || !(s.switchDue d b) then s
      else
        let s := (s.setSwitching d b true).settleSwitch d b
        if s.suAtRest d b then (s.saveBay d b false).restoreBay d b id
        else s

end Sys2Proof.Machine
end

