-- ==== Sys2Proof/Machine/Contexts.lean ====
section
/-! DEFINITION. Contexts (chapter 12): the table and its commands, residency, fences and teardown, the fault queue's
tail. -/

namespace Sys2Proof.Machine

abbrev CRes := Host.Outcome State Fault Refusal

/-! ### Discarding a bay's work (R126, R212, R287) -/

/-- CLOSING of an MXE: banks, drains and queued descriptors are discarded, and a gather round that is being placed;
sampled chains that have not drained are abandoned (R353). -/
def State.mxeDiscard (s : State) (d b : Nat) : State :=
  let m := s.mxeOf d b
  let s := s.setErr d (pgMxe b) 13
  let s := if m.openBy.isSome || !m.drains.isEmpty || !m.work.isEmpty then s.noCertBay d b 6 else s
  let s := s.dupAbandon fun j => j.pdie = d && j.pbay = b && j.prim.isNone
  let s := s.setGather d b { s.gatherOf d b with placing := none }
  s.setMxe d b { atEnd := true }

/-- CLOSING of a VXE: the program in progress and those queued are discarded. -/
def State.vxeDiscard (s : State) (d b : Nat) : State :=
  let v := s.vxeOf d b
  let s := s.setErr d (pgVxe b) 12
  let s := if v.prog.isSome || !v.queue.isEmpty then s.noCertBay d b 6 else s
  s.setVxe d b { v with prog := none, queue := [], syncing := false, atEnd := true }

/-! ### The table (R271 to R273) -/

/-- Address of an entry. -/
def State.ctxEntry (s : State) (id : Nat) : Nat := s.rd 0 pgApc 0x408 + 64 * id

/-- Set a context, and publish STATE and GEN in its entry; a refused write changes nothing there (R468). -/
def State.setCtx (s : State) (id : Nat) (c : Ctx) : State :=
  let s := { s with ctx := { s.ctx with ctxs := Tab.set {} s.ctx.ctxs id c } }
  (s.partPublish (s.ctxEntry id + 0x35) (leBytes 1 c.st ++ leBytes 1 c.gen)).1

/-- The context a table entry defines, its state and generation apart. -/
def ctxOfBytes (bs : List Byte) (c : Ctx) : Ctx :=
  let fl := fieldAt bs 0x34 1
  { c with
    root := bitsOf (fieldAt bs 0 8) 0 52, bayMask := fieldAt bs 8 8,
    save := (List.range 4).map fun i => bitsOf (fieldAt bs (0x10 + 8 * i) 8) 0 52, quantum := fieldAt bs 0x30 4,
    excl := bitsOf fl 0 1 = 1, book := bitsOf fl 1 1 = 1, noEvict := bitsOf fl 2 1 = 1 }

/-- The dies on which a context seeks residency (R274). -/
def Ctx.dies (c : Ctx) : List Nat :=
  if c.book then [0, 1, 2, 3] else (List.range 4).filter fun d => bitsOf c.bayMask (9 * d) 9 ≠ 0
/-- A needed SAVE_BASE and the save areas above it lie in the die's own home region (Table 12-3). -/
def State.saveOk (s : State) (c : Ctx) (d : Nat) : Bool :=
  let a := c.save.getD d 0
  addrSpace a = 0 && addrDev a = s.device && addrDie a = d && decide (a % 4096 = 0) &&
    (List.range 9).all fun b => !(c.onBay d b) || decide (addrOff a + b * saveSize + saveSize ≤ homeSize)

/-- Does an entry pass DEFINE's checks (BAD_ENTRY)? -/
def State.entryOk (s : State) (id : Nat) (c : Ctx) : Bool :=
  s.tableHere c.root && decide (c.root % 4096 = 0) && c.dies.all (s.saveOk c) &&
    (decide (c.quantum = 0) || decide (100 ≤ c.quantum ∧ c.quantum ≤ 100000)) && decide (c.bayMask < 2 ^ 36) &&
    !(c.book && s.ctx.ctxs.any fun x => x.1 ≠ id && x.2.st ≠ 0 && x.2.book)

/-! ### Residency (R274, R275) -/

/-- Drop what a die caches of a context's translations: kept per residency (R277). -/
def State.dropXlat (s : State) (d id : Nat) : State :=
  { s with ctx := { s.ctx with xlat := s.ctx.xlat.filter fun x => !(x.die = d && x.ctx = id),
                               tabs := s.ctx.tabs.filter fun x => !(x.die = d && x.ctx = id) } }

/-- Change a residency, counted in SWITCHES. -/
def State.setResid (s : State) (d id res slot : Nat) : State :=
  let s := s.incF d pgApc 0x468 32 32 1
  let s := if res = 0 then s.dropXlat d id else s
  let r : Resid := if res = 0 then {} else ⟨res, slot, s.now d, s.ctx.order⟩
  { s with ctx := { s.ctx with order := s.ctx.order + 1, resid := Tab.set {} s.ctx.resid (d * 4096 + id) r } }

/-- The lowest residency slot free on a die, of 64. -/
def State.freeSlot (s : State) (d : Nat) : Option Nat :=
  (List.range 64).find? fun k => !(s.ctx.resid.any fun e => e.1 / 4096 = d && decide (2 ≤ e.2.res) && e.2.slot = k)

/-- Is the context OUT on every die? -/
def State.outEverywhere (s : State) (id : Nat) : Bool := (List.range 4).all fun d => (s.residOf d id).res = 0

/-- Admit waiting contexts while slots are free (R278 rule 1). -/
def State.letIn (s : State) (d : Nat) : State :=
  ((s.inRes d 1).filter fun x => (s.ctxOf x.1).st = 2).foldl (fun s x => match s.freeSlot d with
    | some k => s.setResid d x.1 2 k
    | none => s) s

/-- May a resident context be evicted: not the book context, not NO_EVICT, resident for a quantum? -/
def State.evictable (s : State) (d : Nat) (x : Nat × Resid) : Bool :=
  let c := s.ctxOf x.1
  c.st = 2 && !c.book && !c.noEvict && decide (x.2.since + 1000 * s.ctxQuantum ≤ s.now d)

/-- SCHEDULER_QUANTUM (R278): a quantum after the last, admit, then evict as many as still wait. A die in reset admits none
(R469). -/
def execSchedulerQuantum (d : Die) (s : State) : CRes :=
  .next <| if s.inReset d pgApc = true ∨ (Tab.find s.ctx.schedAt d.val).any fun t => decide (s.now d < t + 1000 * s.ctxQuantum) then s else
    let s := { s with ctx := { s.ctx with schedAt := Tab.put s.ctx.schedAt d.val (s.now d) } }.letIn d
    let n := ((s.inRes d 1).filter fun x => (s.ctxOf x.1).st = 2).length
    (((s.inRes d 2).filter (s.evictable d)).take n).foldl (fun s x => s.setResid d x.1 3 x.2.slot) s

/-! ### Results of commands (R276) -/

/-- Write CTX_CMD_STAT. FENCE_BY_TIME stays as the last fence left it. -/
def State.ctxStat (s : State) (busy : Bool) (op res id : Nat) : State :=
  s.wr 0 pgApc 0x420 (bitAt busy 0 + s.rdF 0 pgApc 0x420 1 1 * 2 + op % 16 * 2 ^ 4 + res % 256 * 2 ^ 8 + id * 2 ^ 16)

/-- A command ends with OK. -/
def State.ctxDone (s : State) : State :=
  match s.ctx.cmd with
  | none => s
  | some (op, id, _) => { s with ctx := { s.ctx with cmd := none } }.ctxStat false op 0 id

/-- A command stays in progress. -/
def State.ctxBusy (s : State) (op id : Nat) : State :=
  { s with ctx := { s.ctx with cmd := some (op, id, s.now 0) } }.ctxStat true op (s.rdF 0 pgApc 0x420 8 8) id

/-- STOP ends once the context is OUT everywhere. -/
def State.stopCheck (s : State) (id : Nat) : State :=
  if (s.ctxOf id).st = 3 ∧ s.outEverywhere id then
    let s := s.setCtx id { s.ctxOf id with st := 1 }
    match s.ctx.cmd with
    | some (3, i, _) => if i = id then s.ctxDone else s
    | _ => s
  else s

/-- A bay that runs a context comes to rest, and is saved. -/
def State.evictBay (s : State) (d b id : Nat) : State :=
  if s.runsOn d b = some id then ((((s.settleSwitch d b).saveBay d b false).freshBay d b).setBayCtx d b 4097).setSwitching d b false
  else s

/-- May the state of every bay that runs the context be saved? -/
def State.evictReady (s : State) (d id : Nat) : Bool :=
  (List.range 9).all fun b => s.runsOn d b ≠ some id || (s.settleSwitch d b).suAtRest d b

/-- EVICTION_COMPLETE (R275): the bays saved, no request of the context outstanding on the die. A teardown abandons the
eviction (R288). -/
def execEvictionComplete (d : Die) (id : CtxId) (s : State) : CRes :=
  .next <|
    if (s.residOf d id).res ≠ 3 ∨ (s.ctxOf id).st = 4 ∨ s.evictReady d id = false then s
    else
      let t := (List.range 9).foldl (fun s b => s.evictBay d b id) s
      if t.ctx.tracks.any fun e => e.1 / 65536 = d && e.2.ctx = id then s
      else
        let s := t.setResid d id 0 0
        let s := if (s.ctxOf id).st = 2 then s.setResid d id 1 0 else s
        s.stopCheck id

/-! ### Commands -/

/-- DEFINE's checks on its entry: UNREADABLE, BAD_ENTRY, or OK. -/
def State.defineResult (s : State) (id : Nat) : Nat :=
  let k := addrKey (s.ctxEntry id)
  if s.rangeBad k 64 then 7
  else if s.entryOk id (ctxOfBytes (s.memRead k 64) (s.ctxOf id)) then 0 else 3

/-- May a command run in this state of its context (Table 12-3)? -/
def ctxAllowed (op st : Nat) : Bool :=
  match op with
  | 1 => st = 0 || st = 1
  | 2 => st = 1
  | 3 => st = 2
  | 4 | 5 => st = 1 || st = 2 || st = 3
  | _ => st ≠ 0

/-- STOP or TEARDOWN of the book context, or of context 0, while a book is in use (R273, Table 12-3). -/
def State.bookBlocks (s : State) (op id : Nat) : Bool :=
  (op = 3 || op = 4) &&
    (((s.ctxOf id).book && (s.books.active.isSome || s.books.held.isSome)) ||
      (id = 0 && (s.books.staged.isSome || s.books.active.isSome || s.books.held.isSome)))

/-- The result of a command's checks, in the order of R276, but for BUSY. -/
def State.ctxCheck (s : State) (op id : Nat) : Nat :=
  if op = 0 ∨ 7 < op then 6
  else if s.rd 0 pgApc 0x408 = 0 then 5
  else if !(ctxAllowed op (s.ctxOf id).st) then 2
  else if s.bookBlocks op id then 4
  else if op = 1 then s.defineResult id else 0

/-- Remove cached translations of a context's pages from `first` up to `hi`, and the table entries that lead to them
(R283). -/
def State.inval (s : State) (id first hi : Nat) : State :=
  let tab (x : TabEntry) : Bool :=
    let size := 2 ^ (9 * (x.level + 1))
    x.ctx = id && decide (x.upper * size < hi ∧ first < (x.upper + 1) * size)
  { s with ctx := { s.ctx with xlat := s.ctx.xlat.filter fun x => !(x.ctx = id && decide (first ≤ x.page ∧ x.page < hi)),
                               tabs := s.ctx.tabs.filter fun x => !(tab x) } }

/-- All of a context's. -/
def State.invalAll (s : State) (id : Nat) : State := s.inval id 0 (2 ^ 36)

/-- Those of the range in CTX_ARG. -/
def State.invalRange (s : State) (id : Nat) : State :=
  let first := s.rdF 0 pgApc 0x418 12 36
  s.inval id first (first + 2 ^ s.rdF 0 pgApc 0x418 48 6)

/-- Has a stream of a context issued some of a delivery's requests and not all? They are translated already. -/
def State.halfIssued (s : State) (id : Nat) : Bool :=
  allBays.any fun x => s.bayCtx x.1 x.2 = id && (List.range 32).any fun sl =>
    let y := s.slotOf x.1 x.2 sl
    SlotSt.active y.st && !y.refetch && decide (0 < y.iss) && !(Tab.get [] y.pages y.nIss).isEmpty

/-- An invalidation completes once every request that an old entry translated has issued (R283). -/
def State.invalGo (s : State) : State :=
  match s.ctx.cmd with
  | some (6, id, _) | some (7, id, _) => if s.halfIssued id then s else s.ctxDone
  | _ => s

/-- Mark the tracking entries of a context (R286). -/
def State.markTracks (s : State) (id : Nat) : State :=
  { s with ctx := { s.ctx with tracks := s.ctx.tracks.map fun e =>
      if e.2.ctx = id then (e.1, { e.2 with marked := true }) else e } }

/-- The faults of slots that a context's save sets hold are withdrawn (R236, R287 step 4), but for bays that it runs. -/
def State.savedWithdraw (s : State) (id : Nat) : State :=
  (s.ctx.saved.filter fun e => e.1 / 64 = id && s.runsOn (e.1 % 64 / 9) (e.1 % 64 % 9) ≠ some id).foldl (fun s e =>
    e.2.slots.foldl (fun s x => if x.st = .faulted then s.fqWithdraw (e.1 % 64 / 9) x.faultSeq else s) s) s

/-- Replies of this part's homes to the streams of a context that is torn down carry its old generation: they are dropped
and counted (R285 rule 1, R287 step 3). -/
def State.dropOwnReads (s : State) (id : Nat) : State :=
  (List.range 4).foldl (fun s d => s.incF d pgApc 0x460 0 32 (s.tracksOn d fun e =>
    e.ctx = id && !e.remote && (match e.owner with | .slot _ _ _ => true | _ => false))) s

/-- Steps 1 to 5 of TEARDOWN (R287): what waits at a port issues no more. Writes of its streams that had issued are performed
in its own pages. -/
def State.teardown (s : State) (id : Nat) : State :=
  let c := s.ctxOf id
  let s := ((s.markTracks id).savedWithdraw id).dropOwnReads id
  let s := allBays.foldl (fun s x =>
    if s.runsOn x.1 x.2 = some id then
      let s := (((s.mxeDiscard x.1 x.2).vxeDiscard x.1 x.2).cancelBay x.1 x.2).settleBay x.1 x.2
      (s.setBayCtx x.1 x.2 4097).setSwitching x.1 x.2 false
    else s) s
  let s := s.setCtx id { c with st := 4, gen := (c.gen + 1) % 256 }
  let s := (List.range 4).foldl (fun s d => s.dropWatches d fun w => w.req.src.isNone && w.req.ctx.val = id) s
  let s := s.invalAll id
  let s := { s with ports := s.ports.foldl (fun t (e : Nat × SpPortSt) =>
    Tab.set {} t e.1 { e.2 with waiting := e.2.waiting.filter fun t => t.ctx.val ≠ id }) s.ports }
  { s with ctx := { s.ctx with saved := Tab.keep (fun k => decide (k / 64 ≠ id)) s.ctx.saved } }

/-- Act on a command that has passed its checks. -/
def State.ctxAct (s : State) (op id : Nat) : State :=
  let c := s.ctxOf id
  match op with
  | 1 =>
    let c := ctxOfBytes (s.memRead (addrKey (s.ctxEntry id)) 64) c
    (s.setCtx id { c with st := 1 }).ctxStat false op 0 id
  | 2 =>
    let s := s.setCtx id { c with st := 2 }
    (c.dies.foldl (fun s d => s.setResid d id 1 0) s).ctxStat false op 0 id
  | 3 =>
    let s := s.setCtx id { c with st := 3 }
    let s := (List.range 4).foldl (fun s d =>
      let r := s.residOf d id
      if r.res = 2 then s.setResid d id 3 r.slot else if r.res = 1 then s.setResid d id 0 0 else s) s
    (s.ctxBusy op id).stopCheck id
  | 4 => (s.ctxBusy op id).teardown id
  | 5 => (s.ctxBusy op id).markTracks id
  | 6 => ((s.invalAll id).ctxBusy op id).invalGo
  | _ => ((s.invalRange id).ctxBusy op id).invalGo

/-- What a write of CTX_CMD does (R276). -/
def State.ctxCommand (s : State) (v : Nat) : State :=
  let id := bitsOf v 0 12
  let op := bitsOf v 12 4
  if s.ctx.cmd.isSome then s.wrF 0 pgApc 0x420 8 8 1
  else
    let s := if op = 1 ∧ s.rd 0 pgApc 0x408 ≠ 0 ∧ ctxAllowed op (s.ctxOf id).st then s.touch (addrKey (s.ctxEntry id)) 64 else s
    let r := s.ctxCheck op id
    if r = 0 then s.ctxAct op id else s.ctxStat false op r id

/-- A command row: a write of CTX_CMD. -/
def State.ctxCmdWrite (s : State) (w : Writer) (op id : Nat) : State :=
  let v := id + op * 2 ^ 12
  (s.write1 0 pgApc 0x410 w v).then_ fun s => s.ctxCommand v

def execDefine (w : Writer) (id : CtxId) (s : State) : CRes := .next (s.ctxCmdWrite w 1 id)
def execRun (w : Writer) (id : CtxId) (s : State) : CRes := .next (s.ctxCmdWrite w 2 id)
def execStop (w : Writer) (id : CtxId) (s : State) : CRes := .next (s.ctxCmdWrite w 3 id)
def execTeardown (w : Writer) (id : CtxId) (s : State) : CRes := .next (s.ctxCmdWrite w 4 id)
def execQuiesce (w : Writer) (id : CtxId) (s : State) : CRes := .next (s.ctxCmdWrite w 5 id)
def execInvalAll (w : Writer) (id : CtxId) (s : State) : CRes := .next (s.ctxCmdWrite w 6 id)
def execInvalRange (w : Writer) (id : CtxId) (s : State) : CRes := .next (s.ctxCmdWrite w 7 id)

/-! ### Fences (R286, R287) -/

/-- A torn-down context is FREE and OUT. -/
def State.ctxFree (s : State) (id : Nat) : State :=
  let s := (List.range 4).foldl (fun s d => if (s.residOf d id).res = 0 then s else s.setResid d id 0 0) s
  s.setCtx id { s.ctxOf id with st := 0 }

/-- The fence ends, by time or with every marked request: a torn-down context is FREE and OUT. -/
def State.fenceEnd (s : State) (byTime : Bool) : State :=
  match s.ctx.cmd with
  | some (op, id, _) => ((if op = 4 then s.ctxFree id else s).wrF 0 pgApc 0x420 1 1 (if byTime then 1 else 0)).ctxDone
  | none => s

/-- Teardown by origin HW (R287), beside the commands; a context that is FREE or CLOSING is left. -/
def State.hwTeardown (s : State) (id : Nat) : State :=
  if (s.ctxOf id).st = 0 ∨ (s.ctxOf id).st = 4 then s
  else { s.teardown id with ctx := { (s.teardown id).ctx with hwDown := s.ctx.hwDown ++ [(id, s.now 0)] } }

/-- Teardowns by origin HW whose fence has ended: no marked request left, or 21 ms have passed. A STOP of the context
that was in progress ends with it. -/
def State.hwFences (s : State) : State :=
  let past (x : Nat × Nat) : Bool :=
    decide (x.2 + 21000000 ≤ s.now 0) || !(s.ctx.tracks.any fun e => e.2.ctx = x.1 && e.2.marked)
  (s.ctx.hwDown.filter past).foldl (fun s x =>
    let s := { s with ctx := { s.ctx with hwDown := s.ctx.hwDown.erase x } }.ctxFree x.1
    match s.ctx.cmd with
    | some (3, i, _) => if i = x.1 then s.ctxDone else s
    | _ => s) s

/-- Is a fence running? -/
def State.fencing (s : State) : Option (Nat × Nat) :=
  match s.ctx.cmd with
  | some (4, id, t) => some (id, t)
  | some (5, id, t) => some (id, t)
  | _ => none

/-- FENCE_COMPLETE: every marked entry has ended. -/
def execFenceComplete (s : State) : CRes :=
  .next <| let s := s.hwFences; match s.fencing with
    | some (id, _) => if s.ctx.tracks.any fun e => e.2.ctx = id && e.2.marked then s else s.fenceEnd false
    | none => s

/-- FENCE_TIMEOUT: 21 ms have passed with a marked request left. -/
def execFenceTimeout (s : State) : CRes :=
  .next <| let s := s.hwFences; match s.fencing with
    | some (id, t) => if s.now 0 < t + 21000000 then s else s.fenceEnd (s.ctx.tracks.any fun e => e.2.ctx = id && e.2.marked)
    | none => s

/-! ### The fault queue's tail (R284) -/

/-- What a write of FAULTQ_TAIL does: held records find room. -/
def State.faultqTail (s : State) (d : Nat) : State := fqDrain (Tab.get [] s.ctx.held d).length s d

def execFaultqTailWrite (w : Writer) (d : Die) (v : BitVec 64) (s : State) : CRes :=
  .next <| (s.write1 d pgApc 0x458 w v.toNat).then_ fun s => s.faultqTail d

end Sys2Proof.Machine
end

