-- ==== Sys2Proof/Machine/Matrix.lean ====
section
/-! DEFINITION. The matrix engine's descriptors, drains and gates (chapter 06; 08 R172 to R175; 15 R335 to R340), and
the gather queue (06 R129 to R132). -/

namespace Sys2Proof.Machine

abbrev MRes := Host.Outcome State Fault Refusal

/-! ### Issue -/

/-- May the MXE begin the descriptor at the head of its list (R118, R123, R127, R173, R470)? DEDUCED (entry 25): a bay
held by R118 goes on to its layer's gate, which alone releases it and opens only as the bay has drained the layer. While a
FALLBACK run drains, no TILE descriptor begins (R124). -/
def State.mxeReady (s : State) (d b : Nat) : Bool :=
  let m := s.mxeOf d b
  s.bayRunsWork d b && s.blkIs d (pgMxe b) 2 && !m.stopped && !m.syncing && !m.atEnd && m.gate.isNone &&
    (s.rdF d (pgMxe b) 0x020 8 1 = 0 || m.openBy.isSome) &&
    (m.work.head?.all (·.fb) || !(m.drains.any (·.ref.fb)))

/-- What an MXE still has to do of the book's list: descriptors to issue but for END, the chain that is open, chains to drain. -/
def State.mxeLeft (s : State) (m : Mxe) : List TileRef :=
  (m.work.filter fun r => (s.tileOf r).any fun t => t.opcode ≠ 0xFF) ++ m.openBy.toList ++ m.drains.map (·.ref)

/-- Does the step's order keep a descriptor of the book waiting: another bay has still work to do that comes in an earlier pass or
phase (02 R27; entry 148)? END waits for none. -/
def State.phaseWaits (s : State) (d b : Nat) (r : TileRef) (t : TileDesc) : Bool :=
  s.isBook d b && t.opcode ≠ 0xFF && allBays.any fun x =>
    (decide (x.1 ≠ d) || decide (x.2 ≠ b)) && (s.lbayOf x.1 x.2).isSome && (s.mxeLeft (s.bookMxe x.1 x.2)).any fun y => decide (s.placeOf y < s.placeOf r)

/-- The descriptor at the head of the list, where it has the opcode and may begin. -/
def State.mxeHead (s : State) (d b op : Nat) : Option (TileRef × TileDesc) :=
  match (s.mxeOf d b).work with
  | [] => none
  | r :: _ => match s.tileOf r with
    | none => none
    | some t =>
      if t.opcode = op && s.mxeReady d b && s.waitDone d b t.waitMask && !(s.phaseWaits d b r t) then some (r, t) else none

/-- Staging of the bay as the engine reads it; outside staging a free value (R128). -/
def State.tileReader (s : State) (d b : Nat) : Reader := fun off =>
  if off < 2 ^ 23 then s.stg d b off else (Config.freeValue (s.freeIdx + off)).setWidth 8

/-- Does a descriptor reach outside staging? -/
def TileDesc.outside (t : TileDesc) (rows cols : Nat) : Bool :=
  (t.ranges rows cols).any fun r => decide (2 ^ 23 < r.1 + r.2)

/-- May a chain begin: a bank free for its fill, both for FP64 (R114, R115)? -/
def Mxe.bankFree (m : Mxe) (wide : Bool) : Bool :=
  if wide then m.drains.isEmpty else decide (m.drains.length < 2) && !(m.drains.any (·.wide))

/-- Rows of a descriptor now: M_VALID 0 takes those of the current gather round (R131). -/
def Mxe.rowsOf (m : Mxe) (t : TileDesc) : Nat := if t.mValid = 0 then m.gatherRows else t.mValid

/-- Rows of a chain, which its last descriptor gives (R114); none where a gather round yet to come decides them. -/
def Mxe.chainRows (m : Mxe) (chain : List (TileRef × TileDesc)) : Option Nat :=
  match chain.getLast? with
  | none => none
  | some (_, l) =>
    if l.mValid = 0 ∧ (chain.drop 1).any (fun x => x.2.opcode = 2) = true then none else some (m.rowsOf l)

/-- Run a tile (R105 to R108) for rows and columns of its chain, its operands lying within its first `held` rows; its
chain closes where DRAIN = 1. DESIGN CHOICE (entry 168): after an FP64 chain, which takes both banks, FILL_BANK stays as it was. -/
def State.mmaTile (s : State) (d b : Nat) (r : TileRef) (t : TileDesc) (rows held cols : Nat) : State :=
  let m := s.mxeOf d b
  let out := t.outside held cols
  let acc := accTile t (s.tileReader d b) rows cols m.acc
  let wide := decide (accWidth t = 8)
  let marked := (if t.cont then m.marked else false) || out
  let m := if t.drain then
      { m with drains := m.drains ++ [⟨r, m.bank, wide, marked, rows, cols, acc, m.sampled⟩], acc := [], openBy := none,
               bank := if wide then m.bank else 1 - m.bank, marked := false, sampled := false }
    else { m with acc := acc, openBy := some r, rows := rows, cols := cols, marked := marked }
  let s := if out then ((s.took (2 ^ 33)).setErr d (pgMxe b) 11).noCertBay d b 6 else s
  ((s.setMxe d b m).mxeNext d b).progress d b

/-- Begin a chain, or go on with the open one (R105, R338, R340, R405). -/
def State.mmaStart (s : State) (d b : Nat) (r : TileRef) (t : TileDesc) : State :=
  let m := s.mxeOf d b
  let book := s.isBook d b
  let s := if book ∧ r.fb = false then s.phaseEnter d r.ix else s
  let chain := s.chainOf m.work.length m.work
  let known := m.chainRows chain
  let rows := known.getD 128
  let held := known.getD (m.rowsOf t)
  if t.cont then
    let s := if book then s.dupCopy d b t held m.cols else s
    s.mmaTile d b r t rows held m.cols
  else if !(m.bankFree (decide (accWidth t = 8))) then s
  else
    match chain.getLast? with
    | none => s
    | some (_, l) =>
      let s := if book then (s.dupBegin d b chain).dupCopy d b t held l.nValid else s
      s.mmaTile d b r t rows held l.nValid

/-- MMA (Table 6-3). -/
def execMma (d : Die) (b : Bay) (s : State) : MRes :=
  .next <| match s.mxeHead d b 0x01 with
    | some (r, t) => (s.waitMarks d b t.waitMask).mmaStart d b r t
    | none => s

/-! ### The gather queue -/

/-- Close the open round (R131). -/
def GatherQ.close (g : GatherQ) : GatherQ :=
  if g.opened.isEmpty then g else { g with opened := [], closed := g.closed ++ [g.opened] }

/-- GQ_CTRL.TIMEOUT_US as it acts. -/
def State.gqTimeout (s : State) (d b : Nat) : Nat := max 1 (min 1000 (s.rdF d (pgMxe b) 0x0C0 16 10))

/-- Has every bound slot a submission in the open round, with EARLY (R131 rule 4)? -/
def State.gqEarly (s : State) (d b : Nat) (g : GatherQ) : Bool :=
  s.rdF d (pgMxe b) 0x0C0 1 1 = 1 && !g.opened.isEmpty &&
    (s.rd d (pgMxe b) 0x0C8 &&& (maskN 16 ^^^ g.pending)) % 65536 = 0

/-- A submission refused or dropped (R130, R132). -/
def State.gqDrop (s : State) (d b n : Nat) : State := s.incF d (pgMxe b) 0x0D0 48 16 n

/-- Accept a submission into the open round, closing rounds as R131 says. -/
def State.gqAccept (s : State) (d b : Nat) (g : GatherSub) : State :=
  let q := s.gatherOf d b
  let q := if 128 < roundRows q.opened + g.rows.toNat then q.close else q
  let q := if q.opened.isEmpty then { q with since := s.now d } else q
  let q := { q with opened := q.opened ++ [g] }
  let q := if roundRows q.opened = 128 ∨ s.gqEarly d b q then q.close else q
  s.setGather d b q

/-- GATHER_SUBMIT (R130, R131). -/
def State.gatherSubmit (s : State) (d b : Nat) (g : GatherSub) : State :=
  let bound := decide (g.slot.toNat < 16) && bitsOf (s.rd d (pgMxe b) 0x0C8) g.slot.toNat 1 = 1
  if !bound ∨ g.rows.toNat = 0 ∨ 128 < g.rows.toNat ∨ s.rdF d (pgMxe b) 0x0C0 0 1 = 0 then
    (s.gqDrop d b 1).setErr d (pgMxe b) 12
  else s.gqAccept d b g

def execGatherSubmit (d : Die) (b : Bay) (g : GatherSub) (s : State) : MRes :=
  .next (if s.inReset d (pgMxe b) then s else s.gatherSubmit d b g)

/-- TIMEOUT_US after the first acceptance the open round closes (R131 rule 3). -/
def execGatherRoundTimeout (d : Die) (b : Bay) (s : State) : MRes :=
  .next <|
    let q := s.gatherOf d b
    if q.opened.isEmpty ∨ s.now d < q.since + 1000 * s.gqTimeout d b then s
    else (s.setGather d b q.close).incF d (pgMxe b) 0x0D0 32 16 1

/-- Drop the submissions of the open round that satisfy `p`, each counted (R132, R134). -/
def State.gqDropWhere (s : State) (d b : Nat) (p : GatherSub → Bool) : State :=
  let q := s.gatherOf d b
  let n := (q.opened.filter p).length
  (s.setGather d b { q with opened := q.opened.filter fun x => !(p x) }).gqDrop d b n

/-- What a write of GQ_CTRL leads to: a queue disabled drops its open round; EARLY may close one. -/
def State.gqCtrlEffect (s : State) (d b : Nat) : State :=
  if s.rdF d (pgMxe b) 0x0C0 0 1 = 0 then s.gqDropWhere d b fun _ => true
  else
    let q := s.gatherOf d b
    if s.gqEarly d b q then s.setGather d b q.close else s

/-- What a write of GQ_SLOTS leads to (R134). -/
def State.gqSlotsEffect (s : State) (d b : Nat) : State :=
  let v := s.rd d (pgMxe b) 0x0C8
  let s := s.gqDropWhere d b fun x => bitsOf v x.slot.toNat 1 = 0
  let q := s.gatherOf d b
  if s.gqEarly d b q then s.setGather d b q.close else s

def execGatherQueueDisable (w : Writer) (d : Die) (b : Bay) (s : State) : MRes :=
  .next <| (s.write1 d (pgMxe b) 0x0C0 w (putBits (s.rd d (pgMxe b) 0x0C0) 0 1 0)).then_ fun s => s.gqCtrlEffect d b

def execGqSlotsWrite (w : Writer) (d : Die) (b : Bay) (v : BitVec 64) (s : State) : MRes :=
  .next <| (s.write1 d (pgMxe b) 0x0C8 w v.toNat).then_ fun s => s.gqSlotsEffect d b

/-- Rows of a round in order of acceptance: source address of each. DESIGN CHOICE (entry 169): a SRC that is not 64 B aligned is
taken as it stands. -/
def roundSources (g : List GatherSub) : List Nat :=
  g.flatMap fun x => (List.range x.rows.toNat).map fun i => (x.src.toNat % 2 ^ 52 + i * x.stride.toNat * 64) % 2 ^ 52

/-- GQ_MAP of a round: first row and rows of each die slot. -/
def State.gqMap (s : State) (d b : Nat) (g : List GatherSub) : State :=
  let first (sl : Nat) : Nat := roundRows (g.takeWhile fun x => x.slot.toNat ≠ sl)
  let rows (sl : Nat) : Nat := roundRows (g.filter fun x => x.slot.toNat = sl)
  foldNat 4 (fun s m =>
    s.wr d (pgMxe b) (0x0E0 + 8 * m) (foldNat 4 (fun v i =>
      let sl := 4 * m + i
      v + (if rows sl = 0 then 0 else first sl % 256 + rows sl * 256) * 2 ^ (16 * i)) 0)) s

/-- The reads that place a round at A_OFF: a row of each source in turn, in requests within 256 B blocks. -/
def roundReads (t : TileDesc) (g : List GatherSub) : List (Nat × Nat × Nat) :=
  match Fmt.ofCode t.aFmt with
  | none => []
  | some f =>
    let srcs := roundSources g
    ((List.range srcs.length).zip srcs).flatMap fun x =>
      (requestsOf [(x.2, rowBytes f t.k)]).map fun r => (t.aOff + x.1 * t.aStride * 64 + (r.1 - x.2), r.1, r.2)

/-- Set what a bay places. -/
def State.setPlacing (s : State) (d b : Nat) (g : Option GatherRun) : State :=
  s.setGather d b { s.gatherOf d b with placing := g }

/-- A source on this part (R131): read through the cache and checked, and placed. One that is absent or refused is reported by
its home (R246); it and one that holds uncorrectable data end the step (R268). DESIGN CHOICE (entry 145): with reason 6,
NOT_CERTIFIABLE, where it is refused or absent. -/
def State.gatherOwn (s : State) (d b : Nat) (x : Nat × Nat × Nat) : State :=
  if s.reach x.2.1 x.2.2 false ≠ .memory then (s.reportReq d b (x.2.1, x.2.2, false)).endStep 6
  else
    let s := s.touch (addrKey x.2.1) x.2.2
    if s.rangeBad (addrKey x.2.1) x.2.2 then s.endStep 1
    else (s.stgPutBytes d b x.1 (s.memRead (addrKey x.2.1) x.2.2)).took (2 ^ 53)

/-- A source on another part: an RD of its block by cut-through, under tracking entry `t` (12 R285; entry 157). -/
def State.gatherRemote (s : State) (d b t : Nat) (run : GatherRun) (x : Nat × Nat × Nat) : State :=
  let a := x.2.1 / 256 * 256
  let s := s.openTrack d (s.bayCtx d b) a (.gather d b) true true fun e =>
    { e with bytes := 256, windowed := true, bank := s.bank }
  let s := s.setPlacing d b (some { run with waits := run.waits ++ [(t, x)] })
  s.sendCt d (addrDev a) { ptype := 0x10, control := false, req := s.ownReq d t (s.bayCtx d b) a, aux := 256 }

/-- The next read of the round that a bay places, where it may issue: at most 4,096 requests of an SU are outstanding, each
with a tracking entry, and one to another part obeys its port (R225, R285; 14 R311, R317, R325, R326). -/
def State.gatherOne (s : State) (d b : Nat) : State :=
  match (s.gatherOf d b).placing, s.freeTrack d with
  | some run, some t => match run.left with
    | [] => s
    | x :: xs =>
      let run := { run with left := xs }
      if 4096 ≤ s.tracksOn d (fun e => e.ofBaySlots d b) ∨ s.running = false then s
      else if addrDev x.2.1 = s.device then
        if s.pathOpen d (addrDie x.2.1) (some x.2.1) then (s.setPlacing d b (some run)).gatherOwn d b x else s
      else if s.rdF d pgRtr 0x028 2 1 = 1 ∨ s.mayLeave d (bayKey d b) x.2.1 256 = false then s
      else match s.route (addrDev x.2.1) with
        | none => ((s.setErr d pgRtr 14).setPlacing d b (some run)).endStep 3
        | some p => if s.pathOpen d (portDie p) (some x.2.1) then s.gatherRemote d b t run x else s
  | _, _ => s

/-- Issue what may issue of the round that a bay places. -/
def State.gatherIssue (s : State) (d b : Nat) : State :=
  foldNat (((s.gatherOf d b).placing.map fun g => g.left.length).getD 0) (fun s _ => s.gatherOne d b) s

/-- The block that a reply of another part brings to a gather round is placed. -/
def State.gatherReply (s : State) (d b t : Nat) (data : List Byte) : State :=
  match (s.gatherOf d b).placing with
  | none => s
  | some run => match run.waits.find? fun w => w.1 = t with
    | none => s
    | some (_, at', a, n) =>
      let s := (s.stgPutBytes d b at' (slice data (a % 256) n)).took (2 ^ 53)
      (s.setPlacing d b (some { run with waits := run.waits.filter fun w => w.1 ≠ t })).gatherIssue d b

/-- The oldest closed round begins to be placed. -/
def State.gatherBegin (s : State) (d b : Nat) (t : TileDesc) (g : List GatherSub) (rest : List (List GatherSub)) : State :=
  (s.setGather d b { s.gatherOf d b with closed := rest, placing := some { round := g, left := roundReads t g } }).gatherIssue d b

/-- Once every row of the round stands in staging the tile runs, with the round's row count (R131). -/
def State.gatherRun (s : State) (d b : Nat) (r : TileRef) (t : TileDesc) : State :=
  match (s.gatherOf d b).placing with
  | none => s
  | some run =>
    if run.left.isEmpty = false ∨ run.waits.isEmpty = false ∨ s.running = false then s
    else
      let s := (s.setPlacing d b none).gqMap d b run.round
      let s := s.setMxe d b { s.mxeOf d b with gatherRows := roundRows run.round }
      (s.waitMarks d b t.waitMask).mmaStart d b r t

/-- MMA_GATHER (Table 6-3, R131): the round before it retires. Where rows come from other parts, the descriptor waits for
them. -/
def execMmaGather (d : Die) (b : Bay) (s : State) : MRes :=
  .next <| match s.mxeHead d b 0x02 with
    | none => s
    | some (r, t) =>
      match (s.gatherOf d b).placing, (s.gatherOf d b).closed with
      | some _, _ => (s.gatherIssue d b).gatherRun d b r t
      | none, [] => s
      | none, g :: rest =>
        if t.cont = false ∧ (s.mxeOf d b).bankFree (decide (accWidth t = 8)) = false then s
        else (s.gatherBegin d b t g rest).gatherRun d b r t

/-! ### Semaphores and END -/

/-- SYNC_WAIT (R120). DESIGN CHOICE (entry 79): of SEM_ADDR the low 52 bits are the address. -/
def execSyncWait (d : Die) (b : Bay) (s : State) : MRes :=
  .next <| match s.mxeHead d b 0x10 with
    | some (_, t) => (s.waitMarks d b t.waitMask).engineSem d b false false (t.semAddr % 2 ^ 52) t.semValue
    | none => s

/-- SYNC_ADD (R120): every earlier descriptor has drained. Of SEM_ADDR the low 52 bits are the address (entry 79). -/
def execSyncAdd (d : Die) (b : Bay) (s : State) : MRes :=
  .next <| match s.mxeHead d b 0x11 with
    | some (_, t) =>
      let m := s.mxeOf d b
      if m.drains.isEmpty && m.openBy.isNone then (s.waitMarks d b t.waitMask).engineSem d b false true (t.semAddr % 2 ^ 52) t.semValue else s
    | none => s

/-- END (R123, R131, R237). -/
def execMxeEnd (d : Die) (b : Bay) (s : State) : MRes :=
  .next <| match s.mxeHead d b 0xFF with
    | some (_, t) =>
      let s := (s.waitMarks d b t.waitMask).mxeNext d b
      let s := s.setMxe d b { s.mxeOf d b with atEnd := true, gatherRows := 0 }
      s.endCancel d b
    | none => s

/-- The context whose engine of a bay waits for an answer: the one on the bay, or one that is switched out. -/
def State.syncOwner (s : State) (d b : Nat) (vxe : Bool) : Option Nat :=
  if (if vxe then (s.vxeOf d b).syncing else (s.mxeOf d b).syncing) then some (s.bayCtx d b)
  else (s.ctx.saved.find? fun e => e.1 % 64 = bayKey d b && (if vxe then e.2.vxe.syncing else e.2.mxe.syncing)).map (·.1 / 64)

/-- The request of an engine's wait or add has ended: its tracking entry, and its watch where this part's home holds it. -/
def State.syncEnded (s : State) (d b id : Nat) (vxe : Bool) : State :=
  let o : Owner := if vxe then .vxe d b else .mxe d b
  let mine := s.ctx.tracks.filter fun e => e.2.owner = o && e.2.ctx = id
  let s := { s with ctx := { s.ctx with tracks := s.ctx.tracks.filter fun e => !(e.2.owner = o && e.2.ctx = id) } }
  foldNat 4 (fun s h => s.dropWatches h fun w =>
    w.req.src.isNone && mine.any fun e => e.1 = trackKey w.req.die w.req.track.toNat) s

/-- An error response to an engine's wait or add (R470). -/
def execSyncErrorResponse (d : Die) (b : Bay) (vxe : Bool) (status : Status) (remote : Bool) (s : State) : MRes :=
  .next <|
    match s.syncOwner d b vxe with
    | none => s
    | some id => if status = .ok then s else (s.syncEnded d b id vxe).syncError d b id vxe status remote

/-! ### Drains -/

/-- TENSOR_ID of the layer of a descriptor, for the rounding hash (R171). -/
def State.tensorOf (s : State) (r : TileRef) : Nat := ((s.layerOf r).map (·.2.tensor)).getD 0xFFFFFFFF

/-- Is a layer FORMAT narrower than FP32 (R174)? -/
def narrowFmt (c : Nat) : Bool := match Fmt.ofCode c with | some f => decide (f.width < 32) | none => false

/-- A drain event (R118, R172 to R175): OVERFLOW, OVF_TILE and the hold; attributed to the layer's tensor; a
repeatable layer's is judged at its gate, any other is late or the principal tensor's. An event that no gate follows, of a
FALLBACK run or without a layer, does not stop the step (R175, R176): its hold ends as it begins (DEDUCED, entry 25). -/
def State.drainEvent (s : State) (d b : Nat) (r : TileRef) (t : TileDesc) (e : Ev) : State :=
  let pg := pgMxe b
  let s := if s.rdF d pg 0x0B8 32 1 = 0 then s.wr d pg 0x0B8 (t.tileId + 2 ^ 32) else s
  let s := s.setErr d pg 9
  match s.layerOf r with
  | none => s
  | some (i, l) =>
    let s := s.markEv l.tensor
    let evs := if (Tab.find s.step.layerEv i).isSome then s.step.layerEv
      else Tab.put s.step.layerEv i (t.tileId, e.code)
    let s := if r.fb then s else { s with step := { s.step with layerEv := evs } }
    let s := if r.fb then s else s.setMxe d b { s.mxeOf d b with ovfHold := true }
    if r.fb = false ∧ l.cls = 0 ∧ narrowFmt l.format = true then s else s.lateEvent l.tensor

/-- Write the drained rows and block scales to staging (R114, R119); rows past 8 MiB are not written. -/
def State.drainWrite (s : State) (d b : Nat) (t : TileDesc) (rows : List (List Byte)) (scales : List (List Byte)) : State :=
  let s := ((List.range rows.length).zip rows).foldl (fun s x =>
    s.stgPutBytes d b (t.cOff + x.1 * t.cStride * 64) x.2) s
  if t.outScale.mode = 2 then
    let nb := (t.nValid + t.outScale.block - 1) / t.outScale.block
    ((List.range scales.length).zip scales).foldl (fun s x => s.stgPutBytes d b (t.outScaleOff + x.1 * nb) x.2) s
  else s

/-- The rehearsal of kind 1 (16 Table 16-9) flips one bit, in an element of a sampled chain of its logical bay; which
bit is open. -/
def State.rehFlip (s : State) (d b : Nat) (t : TileDesc) (rows : Nat) (sampled : Bool) : State × List Flip :=
  match s.rehOn 1 false, Fmt.ofCode t.outFmt with
  | some r, some f =>
    if sampled ∧ s.lbayOf d b = some (r.pick % 32) then
      let u (i m : Nat) : Nat := (Config.freeValue (s.freeIdx + i)).toNat % max 1 m
      ((s.took 3).rehInject { r with elem := (u 0 rows, u 1 t.nValid, u 2 f.width) } t.tileId,
        [⟨u 0 rows, u 1 t.nValid, 2 ^ u 2 f.width⟩])
    else (s, [])
  | _, _ => (s, [])

/-- Does a chain, given by its descriptor that drains, belong to a gather round (R336, R337): one of its descriptors is an
MMA_GATHER or has M_VALID 0? -/
def State.chainGathers (s : State) (r : TileRef) (t : TileDesc) : Bool :=
  let l := match s.books.active with
    | none => []
    | some k => if r.fb then k.fallback else k.tiles
  let back := ((l.take (r.ix + 1)).filter fun x => x.lbay = t.lbay).reverse
  let g (x : TileDesc) : Bool := x.mValid = 0 || x.opcode = 2
  (back.takeWhile (·.cont)).any g || ((back.dropWhile (·.cont)).head?.map g).getD false

/-- A chain drains (R114 to R118, R335, R336, R161): oldest first. -/
def State.drainChain (s : State) (d b : Nat) (j : DrainJob) (t : TileDesc) (flips : List Flip) : State :=
  let tensor := s.tensorOf j.ref
  let osc := s.stg d b t.outScaleOff
  let dr := drainTile t ⟨s.jobSeed, s.stepCur, tensor⟩ osc.toNat j.acc
  let x := s.rehFlip d b t j.rows j.sampled
  let s := x.1
  let out := flipRows t (flips ++ x.2) dr.rows
  let m := s.mxeOf d b
  let s := (s.setMxe d b { m with drains := m.drains.tail }).progress d b
  let s := s.drainWrite d b t out dr.scales
  let s := (s.incF d (pgMxe b) 0x090 0 64 1).stalls d (pgMxe b) [0x098, 0x0A0, 0x0A8, 0x0B0]
  let wit := crc64 (witnessInput t j.rows j.ref.fb s.stepNum dr out osc)
  let gather := s.chainGathers j.ref t
  let e : WitEntry := ⟨t.tileId, 1 + (if j.sampled then 2 else 0) + (if j.ref.fb then 8 else 0) + (if gather then 16 else 0),
    (s.lbayOf d b).getD 0, wit⟩
  let s := if s.isBook d b then (s.putWit (s.wtabIndex j.ref) e).incF d pgWit 0x098 0 32 1 else s
  let s := if dr.evs.isEmpty then s else s.drainEvent d b j.ref t (firstEv dr.evs)
  let s := s.reportAmax d b tensor dr.amax
  let s := s.dupPrim d b t.tileId ⟨wit, out⟩
  let s := if t.signal < 32 ∧ s.dupHolds d b t.tileId = false then s.signalGo d b t.signal else s
  s.endCancel d b

/-- TILE_DRAIN_COMPLETE. -/
def execTileDrainComplete (d : Die) (b : Bay) (flips : List Flip) (s : State) : MRes :=
  .next <|
    match (s.mxeOf d b).drains with
    | [] => s
    | j :: _ =>
      match s.tileOf j.ref with
      | none => s
      | some t => s.drainChain d b j t flips

/-- A parity error of the array (R128, R353): of a bay in service its tile is marked; of a checker its check is
abandoned. -/
def execArrayParityError (d : Die) (b : Bay) (s : State) : MRes :=
  .next <|
    let s := (s.setErr d (pgMxe b) 10).histEvent 1 d b 2
    let s := if s.wingsBay d = some b.val then
        let busy := s.dup.jobs.any fun j => j.cdie = d && j.running
        if busy then (s.setErr d pgDup 10).dupAbandon fun j => j.cdie = d && j.running else s
      else s
    let m := s.mxeOf d b
    let s := s.setMxe d b (if m.openBy.isSome then { m with marked := true }
      else { m with drains := m.drains.map fun j => { j with marked := true } })
    if s.wingsBay d = some b.val then s else s.noCertBay d b 6

/-! ### The layer gate (R173, R174) -/

/-- Has every bay that holds TILE descriptors of the layer drained them? -/
def State.gateDone (s : State) (l : Layer) (i : Nat) : Bool :=
  allBays.all fun x =>
    let m := s.bookMxe x.1 x.2
    if m.gate = some i then m.drains.isEmpty && m.openBy.isNone && !m.syncing
    else !(m.work.any fun r => !r.fb && l.holds r) && !(m.drains.any fun j => !j.ref.fb && l.holds j.ref)

/-- The FALLBACK descriptors of a layer that a logical bay runs, in index order (R124). -/
def fallbackOf (bk : Book) (l : Layer) (lb : Nat) : List TileRef :=
  ((List.range l.fbCount).map fun i => (⟨true, l.fbFirst + i⟩ : TileRef)).filter fun r =>
    match bk.fallback[r.ix]? with
    | some t => t.lbay = lb
    | none => false

/-- LAYER_GATE_OPEN: the layer's verdict, taken once; a repeated layer's bays run their FALLBACK descriptors. -/
def execLayerGateOpen (layer : Nat) (s : State) : MRes :=
  .next <|
    match s.books.active with
    | none => s
    | some bk =>
      match bk.layers[layer]? with
      | none => s
      | some l =>
        let waits := allBays.any fun x => (s.bookMxe x.1 x.2).gate = some layer
        if !waits ∨ s.gateDone l layer = false then s
        else
          let ev := Tab.find s.step.layerEv layer
          let again := ev.isSome && l.cls = 0 && narrowFmt l.format
          let s := if again then
              let s := { s with step := { s.step with repeated := s.step.repeated ++ [layer] } }
              let s := s.satF 0 pgStp 0x120 0 16 1
              match ev with
              | some (tile, kind) =>
                (s.wr 0 pgStp 0x128 (l.layerId % 2 ^ 32 + kind % 4 * 2 ^ 32)).logAt 0 srcHw .fallback
                  [s.stepNum, l.layerId, tile, kind]
              | none => s
            else s
          let s := { s with step := { s.step with gates := s.step.gates ++ [layer] } }
          allBays.foldl (fun s x =>
            let fb := if again then fallbackOf bk l ((s.lbayOf x.1 x.2).getD 32) else []
            if (s.bookMxe x.1 x.2).gate = some layer then
              s.onBookMxe x.1 x.2 fun m => { m with gate := none, ovfHold := false, work := fb ++ m.work }
            else s) s

end Sys2Proof.Machine
end

