-- ==== Sys2Proof/Machine/ShortPath.lean ====
section
/-! DEFINITION. The short path (10 R240 to R242) and the window of a port on requests to other parts (14 R325). -/

namespace Sys2Proof.Machine

abbrev PRes := Host.Outcome State Fault Refusal

/-- Sizes of Table 10-5. -/
def spSizeOk (k : SpKind) (n : Nat) : Bool :=
  match k with
  | .write | .read => decide (1 ≤ n ∧ n ≤ 256)
  | .bell => n = 16
  | .semwait => n = 8
  | .semadd | .atomic => n = 4 || n = 8
  | .cue => n = 64

/-- The packet type of a kind (Table 14-5). -/
def spPtype : SpKind → Nat
  | .read => 0x01 | .write => 0x02 | .semadd | .atomic => 0x03 | .semwait => 0x04 | .bell => 0x05 | .cue => 0x06

/-- Is a transfer of a size its kind allows, within one 256 B block (R240)? -/
def spOk (t : SpTransfer) : Bool := spSizeOk t.kind t.len && decide (t.addr.toNat % 256 + t.len ≤ 256)

/-- Count in SP_STAT, which SUs alone have. -/
def State.spCount (s : State) (p : SpPort) (lo n : Nat) : State :=
  match p with
  | .su d b => s.incF d (pgSu b) 0x0C0 lo n 1
  | _ => s

/-- A transfer is refused at its port (R240). -/
def State.spRefused (s : State) (p : SpPort) (t : SpTransfer) : State :=
  let s := match p with | .su d b => s.setErr d (pgSu b) 12 | _ => s
  let s := s.spCount p 32 16
  if t.kind = .read then s.send (.note (.other 0 [portIx p, t.addr.toNat])) else s

/-- Does a transfer go to another part? -/
def State.spRemote (s : State) (t : SpTransfer) : Bool := addrDev t.addr.toNat != s.device

/-- Does a transfer of a context issue on a die: the die at work, its context RESIDENT there and not being torn down (12 R277, R287; 03 R61, R64)? The
system context's are those that software issues for no other: while no entry of the table defines it they issue, too (entry 141). -/
def State.spLive (s : State) (p : SpPort) (t : SpTransfer) : Bool :=
  s.alive (spDie p) && (Tab.get {} s.ctx.ctxs t.ctx.val).st ≠ 4 && ((t.ctx.val = 0 && (Tab.get {} s.ctx.ctxs 0).st = 0) || (Tab.get {} s.ctx.resid (spDie p * 4096 + t.ctx.val)).res = 2)

/-- May a transfer issue now: a tracking entry free (12 R285), the seams on its way at work, within the window where it
goes to another part? CUE packets are neither limited nor counted. -/
def State.spReady (s : State) (p : SpPort) (t : SpTransfer) : Bool :=
  let a := t.addr.toNat
  (t.kind = .cue || (s.freeTrack (spDie p)).isSome) &&
    (if s.spRemote t then t.kind = .cue || s.mayLeave (spDie p) (portIx p) a t.len else s.pathOpen (spDie p) (addrDie a) none)

/-- The packet of a transfer to another part (Tables 14-2, 14-3): a CUE packet has no tracking entry. -/
def State.spPacket (s : State) (p : SpPort) (t : SpTransfer) : Packet :=
  let d := spDie p
  let r := if t.kind = .cue then { s.ownReq d 0 0 t.addr.toNat with gen := 0 }
    else s.ownReq d ((s.freeTrack d).getD 0) t.ctx t.addr.toNat
  { ptype := BitVec.ofNat 8 (spPtype t.kind), control := true, req := r, length := t.len, op := t.op }

/-- Issue a transfer: counted, its tracking entry opened, and sent where it goes to another part. A part without a
route answers NO_ROUTE (R311), which ends the step that the book context's read or atomic belongs to (16 R369). -/
def State.spIssue (s : State) (p : SpPort) (t : SpTransfer) : State :=
  let d := spDie p
  let a := t.addr.toNat
  let s := s.spCount p 0 32
  let seq := s.ctx.spNext
  let open' (s : State) (remote : Bool) : State :=
    if t.kind = .cue then s
    else { s with ctx := { s.ctx with spNext := seq + 1 } }.openTrack d t.ctx a (.port p) remote false fun e =>
      { e with bytes := t.len, seq := seq, windowed := remote, bank := s.bank, write := t.kind = SpKind.write }
  if s.spRemote t then
    match s.route (addrDev a) with
    | none =>
      let s := (s.setErr d pgRtr 14).send (.note (.other 1 [portIx p, a, Status.noRoute.code]))
      if s.isBookId t.ctx.val ∧ t.kind ≠ .write ∧ t.kind ≠ .cue then s.endStep 3 else s
    | some _ => (trainOf (s.spPacket p t) t.data).foldl (fun s k => s.sendCt d (addrDev a) k) (open' s true)
  else open' s false

/-- SHORT_PATH_TRANSFER: refused, issued, or put into the port's queue of 64 behind those that wait. With the queue
full it waits at its issuer, and so does that of a context that is not RESIDENT, or of a die that is down: the command has
no effect and may come again. -/
def execShortPathTransfer (p : SpPort) (t : SpTransfer) (s : State) : PRes :=
  .next <|
    let x := s.portOf p
    if s.spLive p t = false then s
    else if spOk t = false then s.spRefused p t
    else if x.waiting.isEmpty ∧ t.room ∧ s.spReady p t then s.spIssue p t
    else if 64 ≤ x.waiting.length then s
    else
      let s := if t.room then s else s.spCount p 48 16
      s.setPort p { x with waiting := x.waiting ++ [t] }

/-- SHORT_PATH_WINDOW: the oldest transfer that waits proceeds, unless something still holds it. -/
def execShortPathWindow (p : SpPort) (s : State) : PRes :=
  .next <|
    let x := s.portOf p
    match x.waiting with
    | [] => s
    | t :: ts => if s.spLive p t && s.spReady p t then (s.setPort p { x with waiting := ts }).spIssue p t else s

/-- An ECHO reaches the port: it halves W, at most once in a period and not below WIN_MIN (R325). -/
def State.echo (s : State) (p : SpPort) : State :=
  let x := s.portOf p
  let d := spDie p
  let x := { x with echoed := true }
  if x.win.isSome ∧ s.now d < x.lastHalf + s.winPeriod d then s.setPort p x
  else s.setPort p { x with win := some (max (s.winMin d) (x.win.getD (s.winMax d) / 2)), lastHalf := s.now d }

/-- WINDOW_PERIOD: a period has passed since the last; one without an ECHO adds 4 KiB, up to WIN_MAX. -/
def execWindowPeriod (p : SpPort) (s : State) : PRes :=
  .next <|
    let d := spDie p
    if (s.portOf p).periodAt.any fun t => decide (s.now d < t + s.winPeriod d) then s else
    let x := { s.portOf p with periodAt := some (s.now d) }
    if x.echoed then s.setPort p { x with echoed := false }
    else s.setPort p { x with win := some (min (s.winMax d) (x.win.getD (s.winMax d) + 4096)) }

end Sys2Proof.Machine
end

