-- ==== Sys2Proof/Machine/Requests.lean ====
section
/-! DEFINITION. Requests at their home and answers at their issuer (11 R251 to R269; 12 R285; 14 R311 to R332). Writes
that may reach a register stand in RegEffects. -/

namespace Sys2Proof.Machine

abbrev QRes := Host.Outcome State Fault Refusal

/-! ### Registers as an address space (R86, R88, R92) -/

/-- The origin of a request: PEER over the fabric (R91). -/
def reqWriter (r : Req) : Writer :=
  match r.src with
  | some x => ⟨.peer, BitVec.ofNat 32 x.val, r.w.die, false⟩
  | none => r.w

/-- A read of a register: refused by R88 (all ones) or R92 (0), or the value of its view. -/
def State.regRead (s : State) (r : Req) (len : Nat) : State :=
  let a := r.addr.toNat
  match regPlace a with
  | none =>
    let s := (s.setErr (addrDie a) pgDie 8).logRefused (addrDie a) (addrOff a / 4096) (a % 4096) (reqWriter r).origin
    s.answer r .refused (leBytes 8 (2 ^ 64 - 1))
  | some (d, pg, off) =>
    if len ≠ 8 ∨ off % 8 ≠ 0 then
      ((s.setErr d pg 0).logRefused d pg off (reqWriter r).origin).answer r .refused (leBytes 8 (2 ^ 64 - 1))
    else if !(reqWriter r).user && s.protAllows d pg (reqWriter r).origin false && !(s.queueDenied d pg off (reqWriter r)) then s.answer r .ok (leBytes 8 (s.view d pg off))
    else (s.logRefused d pg off (reqWriter r).origin).answer r .refused (leBytes 8 0)

/-- A data packet's write at a REG address (R10, R88): its width is never 8 bytes, so it is reported and not performed. -/
def State.regDataWrite (s : State) (r : Req) (data : List Byte) : State :=
  let a := r.addr.toNat
  (s.accessFault (addrDie a) (addrOff a / 4096) (a % 4096)
    ⟨reqWriter r, BitVec.ofNat 64 (leNat (data.take 8)), data.length⟩).answer r .refused []

/-! ### Short-path requests at their home -/

/-- A packet from another part is counted where it is delivered (Table 14-13). -/
def State.countPacket (s : State) (r : Req) (circuit : Bool) : State :=
  if r.src.isSome then s.incF (addrDie r.addr.toNat) pgRtr (if circuit then 0x0D8 else 0x0E0) 0 64 1 else s

/-- A packet with a field out of range is discarded (R314). -/
def State.badPacket (s : State) (r : Req) : State := s.setErr (addrDie r.addr.toNat) pgRtr 9

/-- A read of memory: an error response for uncorrectable data (R268). -/
def State.memAnswer (s : State) (r : Req) (len : Nat) (env : EccEnv) : State :=
  let k := addrKey r.addr.toNat
  let s := (s.arise k env).touch k len
  if s.rangeBad k len then s.answer r .uncorrectable [] else s.answer r .ok (s.memRead k len)

/-- SRD (Table 14-5). -/
def execSrd (r : Req) (len : Nat) (env : EccEnv) (s : State) : QRes :=
  .next <|
    let r := came r 0x01 none
    s.atHome r false fun s =>
    if len = 0 ∨ 256 < len then s.badPacket r
    else
      let s := s.countPacket r false
      if addrSpace r.addr.toNat = 6 then s.regRead r len
      else if stackRange r len then s.memAnswer r len env
      else s.spaceRefused r

/-- A request's write of memory; its sectors that hold uncorrectable data refuse a part (R251, R268). -/
def State.memPut (s : State) (r : Req) (data : List Byte) (env : EccEnv) : State × Bool :=
  (s.arise (addrKey r.addr.toNat) env).ownWrite (addrKey r.addr.toNat) data

def State.memWriteReq (s : State) (r : Req) (data : List Byte) (env : EccEnv) : State :=
  let w := s.memPut r data env
  w.1.answer r (if w.2 then .ok else .uncorrectable) []

/-- SEMWAIT (R257). -/
def execSemwait (r : Req) (value : BitVec 64) (env : EccEnv) (s : State) : QRes :=
  .next <|
    let r := came r 0x04 none
    s.atHome r false fun s => (s.countPacket r false).homeSemwait r value env

/-- An atomic of Table 11-3. -/
def State.atomReq (s : State) (r : Req) (op : AtomOp) (size : Nat) (operand compare : BitVec 64) (env : EccEnv) : State :=
  let r := came r 0x03 none
  s.atHome r false fun s => (s.countPacket r false).homeAtom r op size operand.toNat compare.toNat env

def execAddI32 (r : Req) (size : Nat) (operand : BitVec 64) (env : EccEnv) (s : State) : QRes :=
  .next (s.atomReq r .addI32 size operand 0 env)
def execAddU64 (r : Req) (size : Nat) (operand : BitVec 64) (env : EccEnv) (s : State) : QRes :=
  .next (s.atomReq r .addU64 size operand 0 env)
def execAddF32 (r : Req) (size : Nat) (operand : BitVec 64) (env : EccEnv) (s : State) : QRes :=
  .next (s.atomReq r .addF32 size operand 0 env)
def execAddBf16 (r : Req) (size : Nat) (operand : BitVec 64) (env : EccEnv) (s : State) : QRes :=
  .next (s.atomReq r .addBf16 size operand 0 env)
def execMinI32 (r : Req) (size : Nat) (operand : BitVec 64) (env : EccEnv) (s : State) : QRes :=
  .next (s.atomReq r .minI32 size operand 0 env)
def execMaxI32 (r : Req) (size : Nat) (operand : BitVec 64) (env : EccEnv) (s : State) : QRes :=
  .next (s.atomReq r .maxI32 size operand 0 env)
def execMinF32 (r : Req) (size : Nat) (operand : BitVec 64) (env : EccEnv) (s : State) : QRes :=
  .next (s.atomReq r .minF32 size operand 0 env)
def execMaxF32 (r : Req) (size : Nat) (operand : BitVec 64) (env : EccEnv) (s : State) : QRes :=
  .next (s.atomReq r .maxF32 size operand 0 env)
def execMinU64 (r : Req) (size : Nat) (operand : BitVec 64) (env : EccEnv) (s : State) : QRes :=
  .next (s.atomReq r .minU64 size operand 0 env)
def execMaxU64 (r : Req) (size : Nat) (operand : BitVec 64) (env : EccEnv) (s : State) : QRes :=
  .next (s.atomReq r .maxU64 size operand 0 env)
def execCas (r : Req) (size : Nat) (compare : BitVec 64) (operand : BitVec 64) (env : EccEnv) (s : State) : QRes :=
  .next (s.atomReq r .cas size operand compare env)
def execSwap (r : Req) (size : Nat) (operand : BitVec 64) (env : EccEnv) (s : State) : QRes :=
  .next (s.atomReq r .swap size operand 0 env)

/-- Read a gather submission (Table 6-5). -/
def gatherOfBytes (bs : List Byte) : GatherSub :=
  ⟨BitVec.ofNat 8 (fieldAt bs 0 1), BitVec.ofNat 8 (fieldAt bs 1 1), BitVec.ofNat 16 (fieldAt bs 2 2),
    BitVec.ofNat 64 (fieldAt bs 8 8)⟩

/-- BELL: a submission at a gather queue's doorbell (R130, entry 22); other places have no unit. A submission that the
queue refuses is counted there. An access from U mode is refused as a write of the bay's page is (22 R454). -/
def execBell (r : Req) (data : List (BitVec 8)) (s : State) : QRes :=
  .next <|
    let r := came r 0x05 none
    s.atHome r false fun s =>
    let a := r.addr.toNat
    if data.length ≠ 16 then s.badPacket r
    else if addrSpace a = 3 ∧ addrOff a % 4096 = 0 ∧ addrOff a / 4096 < 9 then
      if (reqWriter r).user then
        let pg := pgMxe (addrOff a / 4096)
        ((s.setErr (addrDie a) pg 1).logRefused (addrDie a) pg 0 .sys).answer r .refused []
      else
      ((s.countPacket r false).gatherSubmit (addrDie a) (addrOff a / 4096) (gatherOfBytes data)).answer r .ok []
    else s.spaceRefused r

/-! ### Data packets at their home -/

/-- Does a data payload have an allowed length (R313): in the clear, and with its tag on a confidential circuit? -/
def dataLen (n : Nat) : Bool := decide (256 ≤ n ∧ n ≤ 2048 ∧ n % 256 = 0)
def confLen (n : Nat) : Bool := decide (272 ≤ n ∧ n ≤ 1808 ∧ n % 256 = 16)

/-- A payload that fails R332: not performed, answered, counted, logged; the step is not certified. -/
def State.authFail (s : State) (r : Req) (c : CircuitRec) : State :=
  let d := addrDie r.addr.toNat
  let s := (s.incF d pgRtr 0x0F0 48 16 1).setErr d pgRtr 13
  ((s.logAt d srcHw .authFail [c.flow, s.srcOf r]).noCert 6).answer r .authFail []

/-- The data of a packet's payload, which `f` performs: the payload itself, or at an entry with CONF what it decrypts to,
where its tag verifies under the entry's key and SEQ is the counter expected, which then rises (R331, R332). `ptype` and `aux`
are of its header. -/
def State.payload (s : State) (r : Req) (h : DataHdr) (ptype aux : Nat) (p : List Byte) (f : State → List Byte → State) :
    State :=
  match (h.flow.bind fun x => s.delivering x.toNat).filter (·.conf) with
  | none => if dataLen p.length then f (s.countPacket r h.flow.isSome) p else s.badPacket r
  | some c =>
    if confLen p.length = false then s.badPacket r
    else
      let s := s.countPacket r true
      let ix := c.key * 512 + (r.src.map (·.val)).getD s.device
      let want := Tab.get 0 s.fabric.keyRx ix
      match (Tab.find s.sec.keys c.key).bind fun key =>
          Config.gcmOpen key (s.packetIv r want) (s.packetAad r h ptype p.length aux) p with
      | some data =>
        if h.seq.toNat = want % 65536 ∧ data.length + 16 = p.length then
          f { s with fabric := { s.fabric with keyRx := Tab.set 0 s.fabric.keyRx ix (want + 1) } } data
        else s.authFail r c
      | none => s.authFail r c

/-- A range joined to ranges that rise and do not touch. -/
def joinRange (a n : Nat) (rs : List (Nat × Nat)) : List (Nat × Nat) :=
  let near := rs.filter fun x => decide (x.1 ≤ a + n ∧ a ≤ x.1 + x.2)
  let lo := near.foldl (fun m x => min m x.1) a
  let hi := near.foldl (fun m x => max m (x.1 + x.2)) (a + n)
  rs.filter (fun x => decide (x.1 + x.2 < a)) ++ [(lo, hi - lo)] ++ rs.filter fun x => decide (a + n < x.1)

/-- The buddy region out of role: its first key and its size. -/
def State.buddyOut (s : State) : Option (Nat × Nat) :=
  s.books.active.bind fun b => b.retain[if s.retained.buddyB then 2 else 3]?.map fun r => (addrKey r.1, r.2)

/-- A part of the buddy stream is written: with the last byte of the region, the region becomes the buddy copy in force
(02 R32; 17 Table 17-9), of the step that is decided here, or is being decided (entry 110). -/
def State.buddyGot (s : State) (k n : Nat) : State :=
  match s.buddyOut with
  | none => s
  | some (k0, len) =>
    if k < k0 ∨ k0 + len < k + n then s
    else
      let got := joinRange (k - k0) n s.retained.buddyIn
      if got.contains (0, len) then
        let early := s.cue.prep.isSome ∧ s.step.decision = none
        let step := if early then s.cue.step else s.rdF 0 pgStp 0x0A8 0 48
        ({ s with retained := { s.retained with buddyB := !s.retained.buddyB, buddyValid := true, buddyIn := [] } }).wr 0 pgStp 0x248
          (step % 2 ^ 48 + 2 ^ 48)
      else { s with retained := { s.retained with buddyIn := got } }

/-- A data packet's write of memory. What a circuit from another part brings may be the buddy stream. -/
def State.dataPut (s : State) (r : Req) (h : DataHdr) (data : List Byte) (env : EccEnv) : State :=
  let w := s.memPut r data env
  let s := if w.2 ∧ h.flow.isSome ∧ r.src.isSome then w.1.buddyGot (addrKey r.addr.toNat) data.length else w.1
  s.answer r (if w.2 then .ok else .uncorrectable) []

/-- A data write at its home, WR or a leaf's MWR. -/
def State.dataWrite (s : State) (r : Req) (h : DataHdr) (ptype : Nat) (p : List Byte) (env : EccEnv) : State :=
  let r := came r (BitVec.ofNat 8 ptype) h.flow
  s.atHome r h.flow.isSome (stream := true) fun s =>
    s.payload r h ptype 0 p fun s data =>
      if addrSpace r.addr.toNat = 6 then s.regDataWrite r data
      else if stackRange r data.length then s.dataPut r h data env else s.spaceRefused r

/-- RD (Table 14-5). -/
def execRd (r : Req) (h : DataHdr) (len : Nat) (env : EccEnv) (s : State) : QRes :=
  .next <|
    let r := came r 0x10 h.flow
    s.atHome r h.flow.isSome (stream := true) fun s =>
    if !(dataLen len) then s.badPacket r
    else
      let s := s.countPacket r h.flow.isSome
      if addrSpace r.addr.toNat = 6 then s.regRead r len
      else if stackRange r len then s.memAnswer r len env else s.spaceRefused r

def execWr (r : Req) (h : DataHdr) (data : List (BitVec 8)) (env : EccEnv) (s : State) : QRes :=
  .next (s.dataWrite r h 0x11 data env)
def execMwr (r : Req) (h : DataHdr) (data : List (BitVec 8)) (env : EccEnv) (s : State) : QRes :=
  .next (s.dataWrite r h 0x13 data env)

/-- AUX of a RED packet (Table 14-4). -/
def redAux (x : RedFields) : Nat := x.rank % 512 + x.count % 1024 * 2 ^ 9 + x.etype.toNat * 2 ^ 19

/-- RED (R258): 256 B-aligned; a line that holds uncorrectable data is not performed (R268). -/
def execRed (r : Req) (red : RedFields) (data : List (BitVec 8)) (env : EccEnv) (s : State) : QRes :=
  .next <|
    let r := came r 0x12 red.flow
    s.atHome r red.flow.isSome (stream := true) fun s =>
    let k := addrKey r.addr.toNat
    if k % 256 ≠ 0 ∨ 512 < red.count ∨ red.etype = 3 then s.badPacket r
    else s.payload r red.toDataHdr 0x12 (redAux red) data fun s data =>
      if !(stackRange r data.length) then s.spaceRefused r else (s.arise k env).redArrive r k red data

/-! ### Answers at the issuer (R285, R315, R325, R328) -/

/-- Does a reply's tag hold against its entry (R285 rule 1)? -/
def State.tagHolds (s : State) (e : Track) (r : Req) : Bool :=
  e.epoch = r.epoch.toNat && e.ctx = r.ctx.val && e.gen = r.gen.toNat && s.ctxGen r.ctx.val = r.gen.toNat

/-- A reply that finds no entry, or whose tag does not hold. -/
def State.dropReply (s : State) (r : Req) : State := s.incF r.die pgApc 0x460 0 32 1

/-- An ECHO at its issuer: counted, and its port's window halved. -/
def State.echoAt (s : State) (r : Req) (o : Owner) (echo : Bool) : State :=
  if echo then
    let s := s.incF r.die pgRtr 0x0E8 32 32 1
    match o with
    | .port p => s.echo p
    | .mxe d b | .vxe d b | .slot d b _ => if h : d < 4 ∧ b < 9 then s.echo (.su ⟨d, h.1⟩ ⟨b, h.2⟩) else s
    | _ => s
  else s

/-- What a reply brings to a stream slot: the bytes, kept by address until their delivery is placed (10 R221); a slot that
does not run drops them (10 R234). What waited for it may issue. -/
def State.slotReply (s : State) (d b sl : Nat) (e : Track) (data : List Byte) : State :=
  let x := s.slotOf d b sl
  if !(SlotSt.active x.st) then s
  else
    let got := if e.write then x.got else ((List.range e.bytes).zip data).foldl (fun t y => Tab.put t (e.addr + y.1) y.2) x.got
    ((s.setSlot d b sl { x with got := got }).progress d b).pumpSlot d b sl

/-- Is a request a remote read, atomic or semaphore of the book context, whose failure ends the step (16 R369)? A write that is
LOST only makes it PARTIAL. -/
def State.endsStep (s : State) (e : Track) : Bool :=
  e.remote && s.isBookId e.ctx && match e.owner with
    | .mxe _ _ | .vxe _ _ | .gather _ _ => true
    | .slot _ _ _ | .port _ => !e.write
    | _ => false

/-- A request ended without an answer (R285): a stream's delivery that it belongs to never completes. -/
def State.unanswered (s : State) (e : Track) : State :=
  match e.owner with
  | .slot d b sl =>
    let x := s.slotOf d b sl
    if SlotSt.active x.st ∧ x.nDone ≤ e.deliv then s.setSlot d b sl { x with lost := e.deliv :: x.lost } else s
  | _ => s

/-- A packet of the buddy stream that was not written: the stream goes on from it (02 R29). -/
def State.buddyAgain (s : State) (e : Track) : State :=
  { s with step := { s.step with buddyNext := min s.step.buddyNext (e.addr - s.step.buddyAt) } }

/-- An accepted answer of `n` leaves: the entry of a multicast stays until the sum is reached, and an error response acts at
once (R328). -/
def State.accept (s : State) (r : Req) (t : Nat) (e : Track) (st : Status) (n : Nat) (data : List Byte) : State :=
  if n < e.leaves then
    let s := s.putTrack r.die t { e with leaves := e.leaves - n }
    if st = .ok then s else s.deliver e.owner e.ctx st true
  else
    let s := s.endTrack r.die t
    match e.owner with
    | .slot d b sl => if st = .ok then s.slotReply d b sl e data else s.deliver e.owner e.ctx st true
    | .gather d b => if st = .ok then s.gatherReply d b t data else s.deliver e.owner e.ctx st true
    | .buddy => if st = .ok then s else s.buddyAgain e
    | .port _ => if st ≠ .ok ∧ s.endsStep e = true then s.endStep (syncReason st true) else s
    | _ => s.deliver e.owner e.ctx st true

/-- A reply's payload on a confidential return circuit, as its tag and SEQ verify (R332); it fails with none. -/
def State.replyOpen (s : State) (r : Req) (st : Status) (n : Nat) (data : List Byte) : State × Option (List Byte) :=
  match ((r.flow.bind fun f => s.delivering f.toNat).filter (·.conf)).filter fun _ => !data.isEmpty with
  | none => (s, some data)
  | some c =>
    let src := addrDev r.addr.toNat
    let want := Tab.get 0 s.fabric.keyRx (c.key * 512 + src)
    let iv := { r with src := some (Fin.ofNat 512 src) }
    let h : DataHdr := { flow := none, seq := r.seq }
    match (Tab.find s.sec.keys c.key).bind fun key =>
        Config.gcmOpen key (s.packetIv iv want) (s.packetAad r h 0x90 data.length (st.code + n * 2 ^ 8)) data with
    | some xs =>
      if r.seq.toNat = want % 65536 ∧ xs.length + 16 = data.length then
        ({ s with fabric := { s.fabric with keyRx := Tab.set 0 s.fabric.keyRx (c.key * 512 + src) (want + 1) } }, some xs)
      else (s, none)
    | none => (s, none)

/-- A reply that fails R332 is dropped: counted, logged, and the step is not certified. -/
def State.replyAuth (s : State) (r : Req) : State :=
  let s := (s.incF r.die pgRtr 0x0F0 48 16 1).setErr r.die pgRtr 13
  (s.logAt r.die srcHw .authFail [(r.flow.map (·.toNat)).getD 0, s.srcOf r]).noCert 6

/-- REPLY_RECEIVE. -/
def execReplyReceive (r : Req) (status : Status) (ackCount : Nat) (echo : Bool) (data : List (BitVec 8))
    (s : State) : QRes :=
  .next <|
    let t := r.track.toNat
    match s.trackOf r.die t with
    | none => s.dropReply r
    | some e =>
      if s.tagHolds e r = false then ((s.endTrack r.die t).unanswered e).dropReply r
      else match s.replyOpen r status ackCount data with
      | (s, none) => s.replyAuth r
      | (s, some data) =>
        let s := (s.echoAt r e.owner echo).accept r t e status (max 1 ackCount) data
        match e.owner with
        | .port p =>
          let s := match p with
            | .cores c => if status = Status.ok then s else s.busErr c e.addr
            | _ => s
          s.send (.note (.other 2 ([portIx p, e.addr, status.code] ++ data.map BitVec.toNat)))
        | _ => s

/-- The flow of an entry's owner, 0 where it took none, its port, and the neighbour there (R330). -/
def State.lostFlow (s : State) (e : Track) : Nat × Nat × Nat :=
  let c := match e.owner with
    | .slot d b sl => s.injection d b sl
    | _ => none
  let p := match c with
    | some c => (c.outs.head?.map (·.1)).getD 20
    | none => (s.route (addrDev e.addr)).getD 20
  ((c.map (·.flow)).getD 0, p, s.nbrDev p)

/-- LOST (R239, R328 to R330): a write counts as answered; a read has got an error response. -/
def execLost (r : Req) (leaves : Nat) (echo : Bool) (s : State) : QRes :=
  .next <|
    let t := r.track.toNat
    match s.trackOf r.die t with
    | none => s.dropReply r
    | some e =>
      if s.tagHolds e r = false then ((s.endTrack r.die t).unanswered e).dropReply r
      else
        let f := s.lostFlow e
        let s := (s.echoAt r e.owner echo).branchLost r.die f.1 f.2.1 f.2.2
        let e := { e with lost := true }
        (s.putTrack r.die t e).accept r t e (if e.write then .ok else .branchLost) leaves []

/-! ### Age (R285 rules 2 and 3, R316) -/

/-- TRACKING_ENTRY_EXPIRE (12 R285 rule 3; 16 R369). -/
def execTrackingEntryExpire (d : Die) (track : BitVec 16) (s : State) : QRes :=
  .next <|
    match s.trackOf d track.toNat with
    | none => s
    | some e =>
      if s.now d ≤ e.issued + 21000000 then s
      else
        let s := ((s.endTrack d track.toNat).unanswered e).incF d pgApc 0x460 32 32 1
        if s.endsStep e then s.endStep 3 else s

/-- REQUEST_AGE_DISCARD: the home or a router of die `d` discards the request. -/
def execRequestAgeDiscard (d : Die) (r : Req) (_issuedNs : Nat) (s : State) : QRes :=
  .next <|
    let age := (s.now d / 256 + 2 ^ 32 - r.issue.toNat) % 2 ^ 32
    if age ≤ 78125 then s
    else
      let s := (s.incF d pgRtr 0x0F0 0 16 1).setErr d pgRtr 10
      s.dropWatches d fun w => w.req = r

/-! ### Cache banks and stacks (R253, R264, R267, R269) -/

/-- SHC_BANK_FAIL: a tag failure, of a cache that is not in reset (05 R97). -/
def execShcBankFail (d : Die) (bank : Fin 50) (s : State) : QRes := .next (if s.inReset d pgShc then s else s.bankFail d bank)

/-- Granules of a pseudo-channel in the home region. -/
def granulesPerPc : Nat := 4394531

/-- Is a sector in the granules that the pass over a stack covers from `p` on? -/
def scrubbed (d t p n sec : Nat) : Bool :=
  let x := placeKey (sec * 64)
  secDie sec = d && x.stack = t && decide (p ≤ x.addr / 256 ∧ x.addr / 256 < p + n)

/-- SCRUB: the pass goes on by some granules of every pseudo-channel; what the check corrects in them is written back,
what it cannot is reported and left as it is (R267). Errors of the stored data stand in the state. A controller in reset scrubs
nothing (05 R97). -/
def execScrub (d : Die) (t : StackIx) (granules : Nat) (env : EccEnv) (s : State) : QRes :=
  .next <|
    let pg := pgApr t
    if s.inReset d pg then s
    else
    let old := s.rdF d pg 0x0A8 0 32
    let p := old + granules
    let s := env.errors.foldl State.upset s
    let s := s.satF d pg 0x090 32 32 env.onDie
    let s := s.wrF d pg 0x0A8 0 32 (p % granulesPerPc)
    let s := s.incF d pg 0x0A8 32 16 (p / granulesPerPc)
    let mine := ((s.mem.err.map (·.1) ++ s.mem.bad.map (·.1)).eraseDups.filter fun sec =>
      scrubbed d t old granules sec || scrubbed d t 0 (p - granulesPerPc) sec)
    let s := mine.foldl State.checkSector s
    s.foundBad (sortBy (fun a b => decide (a ≤ b)) (mine.filter s.isBad)) true

/-- The value of chunk `c` in the list in force (R349): list B where SHARD_B is current. -/
def State.listHash (s : State) (c : Nat) : Nat :=
  leNat (s.memRead (addrKey (s.inf 0 pgWit 0x088) + (if s.retained.curB then 2 ^ 21 else 0) + 32 * c) 32)

/-- Do the chunks that hold a range of the shard, with `data` in its place, match the certified list (R269)? -/
def State.chunksMatch (s : State) (k n : Nat) (data : List Byte) : Bool :=
  let base := addrKey (s.regionBase 1)
  let len := s.shardLen
  let lo := (k - base) / 2 ^ 22
  let hi := (k + n - 1 - base) / 2 ^ 22
  let t := putBytes s.mem.bytes k data
  (List.range (hi - lo + 1)).all fun i =>
    let c := lo + i
    let size := min ((c + 1) * 2 ^ 22) len - c * 2 ^ 22
    leNat (sm3 ((List.range size).map fun j => Tab.get 0 t (base + c * 2 ^ 22 + j))) = s.listHash c

/-- UNCORRECTABLE_RESTORE: the content of a reported range comes back, of the shard only where its chunks match the
certified digest. -/
def execUncorrectableRestore (addr : Nat) (sectors : Nat) (data : List (BitVec 8)) (s : State) : QRes :=
  .next <|
    let k := addrKey addr / 64 * 64
    let region := s.ueRegion k
    if data.length ≠ 64 * sectors ∨ sectors = 0 then s
    else
    let s := if region = 1 then s.touch (addrKey (s.inf 0 pgWit 0x088) + if s.retained.curB then 2 ^ 21 else 0)
      (32 * s.chunkCount) else s
    if region = 1 ∧ s.chunksMatch k data.length data = false then s
    else
      let s := (s.ownWrite k data).1
      { s with retained := { s.retained with
          toRestore := s.retained.toRestore.filter fun x => !(s.rangeBad x.1 (64 * x.2.1) = false) } }

end Sys2Proof.Machine
end

