-- ==== Sys2Proof/Machine/Links.lean ====
section
/-! DEFINITION. Chodir links (chapter 13), device time over them (04 R74 to R77; 13 R306), and the packets that a link
holds. -/

namespace Sys2Proof.Machine

abbrev LRes := Host.Outcome State Fault Refusal

/-! ### Link-control messages (R302) -/

/-- The part's own HELLO (Table 13-5); PROTO_SEL is 0 until the version is chosen, or accepted. -/
def State.ownHello (s : State) (p : Nat) : Hello :=
  { protoMin := 2, protoMax := 2, protoSel := if (s.link p).chose then 2 else 0,
    serial := leBytes 16 s.sec.sensed.serial.toNat, die := BitVec.ofNat 2 (portDie p), port := BitVec.ofNat 5 p,
    device := BitVec.ofNat 16 s.ident.1, company := BitVec.ofNat 32 s.ident.2,
    fw := BitVec.ofNat 32 (s.rdF 0 pgMgc 0x080 0 32) }

/-- The 64 bytes of a link-control message: kind 1 HELLO, 2 HOLD, 3 RETRAIN, and its REASON (Table 13-5). -/
def State.lctrlBytes (s : State) (p kind reason : Nat) : List Byte :=
  let h := s.ownHello p
  [0x4F, 0x43, 0x48, 0x44] ++ leBytes 1 kind ++ leBytes 1 h.protoMin.toNat ++ leBytes 1 h.protoMax.toNat ++
    leBytes 1 h.protoSel.toNat ++ padTo 16 h.serial ++ leBytes 1 h.die.toNat ++ leBytes 1 h.port.toNat ++
    leBytes 2 h.device.toNat ++ leBytes 4 h.company.toNat ++ leBytes 4 h.fw.toNat ++ leBytes 2 reason ++
    leBytes 2 (s.cpF p 0x028 3 3) ++ leBytes 24 0

/-- Send a link-control message in an LCTRL flit. With the retry buffer full it is not sent (R296). -/
def State.lctrl (s : State) (p kind reason : Nat) : State :=
  if 1024 ≤ (s.link p).retry.length then s
  else s.sendFlit p { seq := 0, vc := 0, lctrl := true, start := 0xFF, payload := s.lctrlBytes p kind reason }

def State.sendHello (s : State) (p : Nat) : State := s.lctrl p 1 0

/-! ### Going down, and held (R299, R301, R329) -/

/-- What a link that goes DOWN discards: its retry buffer and its output queue. -/
def State.dropLink (s : State) (p : Nat) : State :=
  let l := s.link p
  let ps := l.retry.flatMap (·.pks) ++ l.begun.map (fun x => (x.1.pk, x.1.leaves)) ++ l.queue.map fun x => (x.pk, x.leaves)
  let s := s.setLink p { l with retry := [], begun := [], queue := [], nakOut := false, again := false }
  ps.foldl (fun s x => s.answerLost p x.1 x.2) (s.syncRetry p)

/-- ENABLE = 0 that was written during a retrain acts as the retrain ends (R308). -/
def State.retrainEnded (s : State) (p : Nat) : State :=
  if s.cpF p 0x018 0 3 = 2 ∧ s.cpF p 0x020 0 1 = 0 then s.setCp p 0x018 0 3 3 else s

/-- The link goes DOWN. -/
def State.linkDown (s : State) (p : Nat) : State :=
  let s := (s.setLinkSt p 0).setCp p 0x028 3 3 0
  let s := s.setLink p { s.link p with down := true, chose := false }
  (s.dropLink p).retrainEnded p

/-- The link is HELD for a reason of Table 13-6. Circuits on it lose their path. -/
def State.linkHeld (s : State) (p reason : Nat) : State :=
  let s := ((s.setLinkSt p 6).setCp p 0x028 20 4 reason).cpErr p 13
  let s := s.logAt (portDie p) srcHw .linkHeld [p, reason]
  (s.setLink p { s.link p with down := false, chose := false }).dropLink p

/-! ### Retraining (R297 to R300, R308) -/

/-- Begin a retrain from VCT or ADMITTED; one in progress absorbs the request. The ninth retrain within 60 s holds the
link. -/
def State.beginRetrain (s : State) (p : Nat) : State :=
  let st := s.linkSt p
  if st = 5 then s.incF (portDie p) (pgCp p) 0x0B8 48 16 1
  else if st = 3 ∨ st = 4 then
    let l := s.link p
    let now := s.now 0
    let ts := now :: l.retrains.filter fun t => decide (now < t + 60000000000)
    let s := s.incF (portDie p) (pgCp p) 0x0B8 48 16 1
    let s := s.setLink p { l with back := st, retrains := ts, again := false }
    if 8 < ts.length then s.linkHeld p 6 else s.setLinkSt p 5
  else s

/-- Record a failed physical lane in LANE_MAP (R298). -/
def State.markLane (s : State) (p lane : Nat) : State :=
  let a := s.cpF p 0x080 12 3
  let b := s.cpF p 0x080 15 3
  if a = lane ∨ b = lane then s
  else if a = 7 then s.setCp p 0x080 12 3 lane
  else if b = 7 then s.setCp p 0x080 15 3 lane else s

/-- A lane fails: recorded, logged, RETRAIN sent; during a retrain it restarts once, aiming at 3 lanes, and a further failure
takes the link DOWN (R308). -/
def State.laneFail (s : State) (p lane : Nat) : State :=
  let s := (s.cpErr p 12).markLane p lane
  let s := s.logAt (portDie p) srcHw .laneFail [p, lane]
  let s := s.histEvent 5 (portDie p) (5 * p + lane) 5
  if s.linkSt p = 5 then
    let l := s.link p
    if l.again then (s.cpErr p 15).linkDown p else s.setLink p { l with again := true }
  else (s.lctrl p 3 lane).beginRetrain p

/-- LANE_FAIL. -/
def execLaneFail (p : Port) (lane : Lane) (s : State) : LRes := .next (s.laneFail p lane)

/-- What a write of 1 to BLK_CTRL.RETRAIN does; the bit reads 0. -/
def State.retrainWritten (s : State) (p : Nat) : State := (s.setCp p 0x020 8 1 0).beginRetrain p

/-- RETRAIN, by a register or a message. -/
def execRetrain (p : Port) (src : RetrainSrc) (s : State) : LRes :=
  .next <| match src with
    | .register w =>
      let d := portDie p
      (s.write1 d (pgCp p) 0x020 w (putBits (s.rd d (pgCp p) 0x020) 8 1 1)).then_ fun s => s.retrainWritten p
    | .message lane => (s.markLane p lane).beginRetrain p

/-- The lane map of a set of lanes: logical lanes in order, and whether the fifth lane carries one. -/
def State.setLanes (s : State) (p : Nat) (lanes : List Nat) : State :=
  let l4 := lanes.take 4
  let s := foldNat 4 (fun s i => s.setCp p 0x080 (3 * i) 3 (l4.getD i 0)) s
  let s := s.setCp p 0x028 3 3 l4.length
  let s := s.setCp p 0x028 6 1 (if l4.contains 4 then 1 else 0)
  s.setCp p 0x028 7 1 (if l4.length = 3 then 1 else 0)

/-- Resend flits of the retry buffer, from number `seq` on or all of them (R296, R299 step 4); the eighth resend of one without an
ACK retrains (R297). -/
def State.resend (s : State) (p : Nat) (seq : Option Nat) : State :=
  let l := s.link p
  let before (f : TxFlit) : Bool := seq.any fun n => f.seq ≠ n
  let again := (l.retry.dropWhile before).map fun f => { f with resent := f.resent + 1 }
  let s := s.setLink p { l with retry := l.retry.takeWhile before ++ again }
  let s := again.foldl (fun s f => s.txOut p f) (s.incF (portDie p) (pgCp p) 0x0B8 32 16 again.length)
  if again.any fun f => decide (8 ≤ f.resent) then (s.cpErr p 11).beginRetrain p else s

/-- A retrain has ended with its good lanes: a lane among them is failed no more. The rehearsal of kind 2 is found where
the port retrained within the bound of R299 without the lane that it forces off (16 Table 16-9, R377). -/
def State.retrained (s : State) (p : Nat) (lanes : List Nat) (ns : Nat) : State :=
  let bad := [s.cpF p 0x080 12 3, s.cpF p 0x080 15 3].filter fun x => x ≠ 7 && !(lanes.contains x)
  let s := (s.setCp p 0x080 12 3 (bad.getD 0 7)).setCp p 0x080 15 3 (bad.getD 1 7)
  match s.rehOn 2 true with
  | some r => if r.place / 8 = p ∧ ns ≤ 300000 ∧ lanes.contains (r.place % 8) = false then s.rehFound else s
  | none => s

/-- The logical lanes that training takes of the good ones: 4, or 3 where a retrain that restarted, or shedding, aims at 3-lane
mode (R300, R308). -/
def Link.aims (l : Link) (lanes : List Nat) : List Nat := lanes.take (if l.again || l.three then 3 else 4)

/-- RETRAIN_COMPLETE. A close that was held begins (R308). -/
def execRetrainComplete (p : Port) (ok : Bool) (lanes : LaneSet) (durNs : Nat) (s : State) : LRes :=
  .next <|
    if s.linkSt p ≠ 5 then s
    else if !ok ∨ lanes.length < 3 then (s.cpErr p 15).linkDown p
    else
      let l := s.link p
      let good := l.aims (lanes.map (·.val))
      let s := (s.setLanes p good).retrained p (lanes.map (·.val)) durNs
      let s := s.setLink p { l with again := false, report := l.report || decide (good.length = 3) }
      let s := (s.setCp p 0x0D0 0 32 durNs).setLinkSt p l.back
      ((s.resend p none).retrainEnded p).pump p

/-! ### Flits (R293 to R297) -/

/-- An ACK covers the retry buffer up to its number. -/
def State.ackTo (s : State) (p seq : Nat) : State :=
  let l := s.link p
  if l.retry.any fun f => f.seq = seq then
    (s.setLink p { l with retry := (l.retry.dropWhile (fun f => f.seq ≠ seq)).tail }).syncRetry p
  else s

/-- Credits come back; more than the buffer holds is a protocol error (R295). -/
def State.creditIn (s : State) (p vc n : Nat) : State :=
  if vcBuffer vc < s.credits p vc + n then (s.cpErr p 16).beginRetrain p
  else s.setCredits p vc (s.credits p vc + n)

/-- The physical lane of a symbol: symbols go round-robin over the logical lanes in use (R292). -/
def State.symbolLane (s : State) (p sym : Nat) : Nat := s.cpF p 0x080 (3 * (sym % max 1 (s.cpF p 0x028 3 3))) 3

/-- Symbols by physical lane, added to a count of 5. -/
def State.onLanes (s : State) (p : Nat) (ser : List Nat) (w : List (Fin 544)) : List Nat :=
  w.foldl (fun c y => c.modify (s.symbolLane p y.val) (· + 1)) ser

/-- A codeword that cannot be corrected (R292), counted once: of the pair of codewords that carries 5 flits the first holds
flits 0 and 1 and the head of flit 2 (entry 158). -/
def State.badWord (s : State) (p : Nat) (w : List (Fin 544)) : State :=
  let l := s.link p
  let first := decide (l.pairAt < 2 ∨ (l.pairAt = 2 ∧ l.pairBad.1 = true))
  if (if first then l.pairBad.1 else l.pairBad.2) then s
  else
    let s := (s.cpErr p 10).satF (portDie p) (pgCp p) 0x0A8 32 32 1
    s.setLink p { l with badWords := l.badWords + 1, badSer := s.onLanes p l.badSer w,
                         pairBad := if first then (true, l.pairBad.2) else (l.pairBad.1, true) }

/-- What the decoder did: codewords corrected in FEC_STAT with their symbols by physical lane, of up to 15 symbols; one of more
cannot be corrected (R292). -/
def State.fecCount (s : State) (p : Nat) (words : List (List (Fin 544))) : State :=
  words.foldl (fun s w =>
    if w.isEmpty then s
    else if 15 < w.length then s.badWord p w
    else
      let s := s.satF (portDie p) (pgCp p) 0x0A8 0 32 1
      s.setLink p { s.link p with ser := s.onLanes p (s.link p).ser w }) s

/-- A flit has been taken: the next one of the codeword pair follows. -/
def State.pairNext (s : State) (p : Nat) : State :=
  let l := s.link p
  s.setLink p { l with pairAt := (l.pairAt + 1) % 5, pairBad := if l.pairAt = 4 then (false, false) else l.pairBad }

/-- Lanes that fail by a 1 ms window: more than 1 in 1,000 of a lane's 22.4 million symbols corrected, or more than half of the
symbols in 8 or more codewords that could not be corrected (R289, R298). -/
def Link.failing (l : Link) : List Nat :=
  (List.range 5).filter fun n =>
    decide (22400 < l.ser.getD n 0) || (decide (8 ≤ l.badWords) && decide (l.badSer.sum < 2 * l.badSer.getD n 0))

/-- A 1 ms window of the corrected symbols has ended: LANE_SER shows it, and the receiver judges its lanes (R298). -/
def State.serWindow (s : State) (p : Nat) : State :=
  let l := s.link p
  let v := foldNat 5 (fun a n => a + min 4095 (l.ser.getD n 0) * 2 ^ (12 * n)) 0
  let s := (s.setCp p 0x0B0 0 60 v).setLink p
    { l with ser := [0, 0, 0, 0, 0], badWords := 0, badSer := [0, 0, 0, 0, 0] }
  l.failing.foldl (fun s n => s.laneFail p n) s

/-- ACK and CREDIT of any flit (R295). -/
def State.flitHeader (s : State) (p : Nat) (f : Flit) : State :=
  let s := if f.ackValid then s.ackTo p f.ack.toNat else s
  let s := if f.creditValid then s.creditIn p f.creditVc.toNat f.credit.toNat else s
  s.pump p

/-- Send a NAK, unless one is out (R296). -/
def State.sendNak (s : State) (p : Nat) : State :=
  let l := s.link p
  if l.nakOut then s
  else
    let s := s.incF (portDie p) (pgCp p) 0x0B8 0 32 1
    (s.setLink p { l with nakOut := true }).flitOut p 2 0xFF l.rxNext 0 []

/-- Does the link take flits: HELLO, VCT, ADMITTED, HELD? -/
def State.takesFlits (s : State) (p : Nat) : Bool := decide (2 ≤ s.linkSt p) && s.linkSt p != 5

/-- The CRC of a flit's bytes (R293). -/
def flitCrc (f : Flit) : Nat :=
  crc32 (flitBody f.ftype.toNat f.start.toNat f.seq.toNat f.vc.toNat (f.ack.toNat + if f.ackValid then 2 ^ 12 else 0)
    (f.credit.toNat + f.creditVc.toNat * 2 ^ 10 + if f.creditValid then 2 ^ 11 else 0) f.payload)

/-- Sequenced types (Table 13-3). -/
def flitSequenced (f : Flit) : Bool := f.ftype = 1 || f.ftype = 3

/-- Is a flit bad: a CRC that fails, a byte in a codeword that cannot be corrected (R292), a reserved type, or in a PAYLOAD flit
a reserved VC (entry 158)? -/
def flitBad (f : Flit) : Bool :=
  (match f.crc with | some c => c.toNat ≠ flitCrc f | none => false) || decide (4 < f.ftype.toNat) ||
    (f.ftype = 1 && decide (1 < f.vc.toNat)) || f.fec.any fun w => decide (15 < w.length)

/-- A NAK: every flit from the number it names is resent, where the buffer holds it. -/
def State.nakIn (s : State) (p seq : Nat) : State :=
  if (s.link p).retry.any fun f => f.seq = seq then s.resend p (some seq) else s

/-- A sequenced flit, taken only in order; its ACK and its credit go back (R295, R296). -/
def State.takeFlit (s : State) (p : Nat) (f : Flit) : State :=
  let l := s.link p
  if f.seq.toNat = l.rxNext then
    let pay := decide (f.ftype = 1)
    let s := s.setLink p { l with
      rxNext := (l.rxNext + 1) % 4096, nakOut := false, heard := true,
      owe0 := l.owe0 + if pay && f.vc = 0 then 1 else 0, owe1 := l.owe1 + if pay && f.vc = 1 then 1 else 0 }
    let s := if pay then s.incF (portDie p) (pgCp p) 0x0C8 0 64 1 else s
    s.idleOut p
  else s.sendNak p

/-- A flit arrives, by its type (Table 13-3): a bad one is dropped, and a NAK sent for it unless it is known to be unsequenced. -/
def State.flitIn (s : State) (p : Nat) (f : Flit) : State :=
  if s.takesFlits p = false then s
  else
    let s := s.fecCount p f.fec
    let s :=
      if flitBad f then
        let s := s.cpErr p 9
        if flitSequenced f || decide (4 < f.ftype.toNat) then s.sendNak p else s
      else
        let s := s.flitHeader p f
        if flitSequenced f then s.takeFlit p f else if f.ftype = 2 then s.nakIn p f.seq.toNat else s
    s.pairNext p

/-- PAYLOAD_FLIT: a sequenced flit, taken only in order. -/
def execPayloadFlit (p : Port) (f : Flit) (s : State) : LRes := .next (s.flitIn p f)

/-- IDLE_FLIT: ACK and CREDIT only. -/
def execIdleFlit (p : Port) (f : Flit) (s : State) : LRes := .next (s.flitIn p f)

/-- FLIT_CRC_FAIL: `fec` are the symbols attributed in a codeword that could not be corrected and has a byte of the flit. -/
def execFlitCrcFail (p : Port) (fec : Option (List (Fin 544))) (sequenced : Bool) (s : State) : LRes :=
  .next <|
    if s.takesFlits p = false then s
    else
      let s := s.cpErr p 9
      let s := match fec with | some w => s.badWord p w | none => s
      (if sequenced then s.sendNak p else s).pairNext p

/-- NAK: every flit from the named number is resent. -/
def execNak (p : Port) (f : Flit) (s : State) : LRes := .next (s.flitIn p { f with ftype := 2 })

/-- NAK_HOLDOFF_EXPIRE: 4 µs have passed, so another NAK may be sent. -/
def execNakHoldoffExpire (p : Port) (s : State) : LRes := .next (s.setLink p { s.link p with nakOut := false })

/-! ### Coming up (R301 to R303, R307, R308) -/

/-- LINK_SIGNAL_DETECT: a DOWN link of a port ON, or in OPENING (R309), trains on 3 lanes or more. -/
def execLinkSignalDetect (p : Port) (lanes : Nat) (s : State) : LRes :=
  .next <|
    let st := s.cpF p 0x018 0 3
    if s.linkSt p = 0 ∧ 3 ≤ lanes ∧ (st = 2 ∨ st = 1) then s.setLinkSt p 1 else s

/-- LINK_TRAINING_COMPLETE. -/
def execLinkTrainingComplete (p : Port) (lanes : LaneSet) (x : Trained) (s : State) : LRes :=
  .next <|
    if s.linkSt p ≠ 1 then s
    else if lanes.length < 3 then s.linkHeld p 3
    else
      let good := (s.link p).aims (lanes.map (·.val))
      let s := (s.setLanes p good).setCp p 0x080 18 5 x.inv.toNat
      let bad := if 4 ≤ lanes.length then [] else (List.range 5).filter fun i => !((lanes.map (·.val)).contains i)
      let s := (s.setCp p 0x080 12 3 (bad.getD 0 7)).setCp p 0x080 15 3 (bad.getD 1 7)
      let l := s.link p
      let s := s.setLink p { l with retry := [], txNext := 0, rxNext := 0, nakOut := false, nbr := none, asym := x.asym,
                                    heard := false, owe0 := 0, owe1 := 0, pairAt := 0, pairBad := (false, false), chose := false,
                                    report := l.report || decide (good.length = 3) }
      let s := ((s.setCredits p 0 64).setCredits p 1 384).syncRetry p
      (s.setCp p 0x028 20 4 0).setLinkSt p 2

/-- LINK_SIGNAL_LOST on more than 2 lanes. -/
def execLinkSignalLost (p : Port) (lanes : Nat) (s : State) : LRes :=
  .next <| if 2 < lanes ∧ s.linkSt p ≠ 0 then s.linkDown p else s

/-- HELLO_TIMER: a HELLO is sent in HELLO, VCT and ADMITTED. -/
def execHelloTimer (p : Port) (s : State) : LRes :=
  .next <| if 2 ≤ s.linkSt p ∧ s.linkSt p ≤ 4 then s.sendHello p else s

/-- The first check of R303 that a hello fails, by its code. -/
def State.helloFault (s : State) (p : Nat) (h : Hello) : Option Nat :=
  let own := s.ownHello p
  if h.protoMax.toNat < 2 ∨ 2 < h.protoMin.toNat then some 1
  else if own.company ≠ 0 ∧ h.company ≠ 0 ∧ own.company ≠ h.company then some 2
  else if h.serial = own.serial then some 4 else none

/-- PROTO_SEL of a hello; before it names one, the version that R303 chooses with this part (entry 158). -/
def helloSel (h : Hello) : Nat := if h.protoSel = 0 then min 2 h.protoMax.toNat else h.protoSel.toNat

/-- Does a hello match another in what R307 names? -/
def sameNbr (a b : Hello) : Bool :=
  a.serial = b.serial && a.die = b.die && a.port = b.port && a.device = b.device && a.company = b.company &&
    a.fw.toNat / 2 ^ 16 = b.fw.toNat / 2 ^ 16 && helloSel a = helloSel b

/-- Enter the neighbour in its table (CPn.NBR_SERIAL0 to NBR_FW). -/
def State.enterNbr (s : State) (p : Nat) (h : Hello) : State :=
  let d := portDie p
  let pg := pgCp p
  let ser := leNat h.serial
  let s := (s.wr d pg 0x088 (ser % 2 ^ 64)).wr d pg 0x090 (ser / 2 ^ 64 % 2 ^ 64)
  let s := s.wr d pg 0x098 (h.device.toNat + h.die.toNat * 2 ^ 16 + h.port.toNat * 2 ^ 18 + 2 * 2 ^ 24 +
    h.company.toNat * 2 ^ 32)
  let s := s.wr d pg 0x0A0 (h.fw.toNat + 2 ^ 32)
  let s := s.setCp p 0x028 8 8 2
  let chose := decide (beNat (s.ownHello p).serial < beNat h.serial) || h.protoSel ≠ 0
  s.setLink p { s.link p with nbr := some h, chose := chose }

/-- A link comes up in VCT; after DOWN it is ADMITTED at once where the hello matches the one recorded at its admission, and a
hello that does not match is reported (R307). -/
def State.comeUp (s : State) (p : Nat) (h : Hello) (l : Link) : State :=
  match l.admitted with
  | some a =>
    if sameNbr a h = false then (s.setLinkSt p 3).cpErr p 14
    else if l.down ∧ s.cpF p 0x020 9 1 = 0 then s.setLinkSt p 4
    else s.setLinkSt p 3
  | none => s.setLinkSt p 3

/-- HELLO (R303, R307, R308). A HELD link trains again on a hello that differs from the last one heard (R301). -/
def execHello (p : Port) (h : Hello) (s : State) : LRes :=
  .next <|
    let st := s.linkSt p
    let l := s.link p
    let differs (x : Option Hello) : Bool := x.any fun n => !(sameNbr n h)
    let ranges : Bool := l.hello.any fun n => n.protoMin ≠ h.protoMin || n.protoMax ≠ h.protoMax
    let s := s.setLink p { l with hello := some h }
    if st = 2 then
      match s.helloFault p h with
      | some r => (s.lctrl p 2 r).linkHeld p r
      | none => ((s.enterNbr p h).sendHello p).comeUp p h l
    else if (st = 3 ∨ st = 4) ∧ differs l.nbr = true then ((s.enterNbr p h).setLinkSt p 3).cpErr p 14
    else if st = 3 ∨ st = 4 then
      if h.protoSel = 0 then s else s.setLink p { s.link p with chose := true }
    else if st = 6 ∧ (differs l.hello || ranges) = true then s.setLinkSt p 1
    else s

/-- HOLD: the neighbour holds the link down. -/
def execHold (p : Port) (_reason : BitVec 16) (s : State) : LRes :=
  .next <| if 2 ≤ s.linkSt p ∧ s.linkSt p ≤ 4 then s.linkHeld p 5 else s

/-- HELD_TIMEOUT: after 10 s in HELD the link trains again. -/
def execHeldTimeout (p : Port) (s : State) : LRes := .next (if s.linkSt p = 6 then s.setLinkSt p 1 else s)

/-- HOLD_REPEAT: a HOLD is sent every 1 s while HELD. -/
def execHoldRepeat (p : Port) (s : State) : LRes :=
  .next <| if s.linkSt p = 6 then s.lctrl p 2 (s.cpF p 0x028 20 4) else s

/-! ### Device time (04 R74 to R77, 13 R306) -/

/-- Write a field of TIME_STAT on every die. -/
def State.timeStat (s : State) (lo n v : Nat) : State := foldNat 4 (fun s d => s.wrF d pgTim 0x090 lo n v) s

/-- CLOCK_LOST (R74). -/
def execClockLost (_c : RefClk) (s : State) : LRes :=
  .next { (s.timeStat 2 1 1).logAt 0 srcHw .clockLost [match _c with | .sys => 0 | .link => 1] with fenceSelf := true }

/-- The blocking table by which the part goes: the one in force; before the first curtain the one delivered, which time sync
(R77) and the check of stage 11 need before it takes effect (entry 159). -/
def State.plan (s : State) : List BlockRec :=
  if s.resets.curtain then s.fabric.table else s.fabric.tableIn.getD s.fabric.table

/-- A link that may carry time sync: planned so in the blocking table, in VCT or ADMITTED. DESIGN CHOICE (entry 159): before the
first curtain the delivered table counts. -/
def State.timeLink (s : State) (p : Nat) : Bool :=
  (s.linkSt p = 3 || s.linkSt p = 4) && s.plan.any fun r => r.dev = s.device && r.port = p && r.sync

/-- Send a TIME flit: t1, and in a reply t2 and t3 (R306). -/
def State.timeOut (s : State) (p : Nat) (ts : List Nat) : State := s.flitOut p 4 0xFF 0 0 (ts.flatMap (leBytes 8))

/-- TIME_EXCHANGE: a request goes towards the parent. -/
def execTimeExchange (p : Port) (s : State) : LRes :=
  .next <|
    if s.timeLink p && s.rdF 0 pgTim 0x090 1 1 = 0 && s.rdF 0 pgTim 0x090 16 5 = p.val then
      let t1 := s.now (portDie p)
      (s.setLink p { s.link p with asked := some t1 }).timeOut p [t1]
    else s

/-- The offset of the part's clock behind its parent's (R76), the asymmetry of the lanes removed. -/
def timeOffset (t1 t2 t3 t4 : Nat) (asym : Int) : Int := (((t2 : Int) - t1) + ((t3 : Int) - t4) - asym) / 2

/-- Steer by what is left to remove, at most 50 ppm: the rate that removes it within one exchange interval (R76). -/
def State.steer (s : State) (left : Int) : State :=
  let v := max (-50000) (min 50000 (left * 1000))
  foldNat 4 (fun s d => s.wr d pgTim 0x0A0 (toBits 64 v)) { s with time := { s.time with left := left } }

/-- LOCKED: the part has measured its offset to its present parent and no nanosecond of it is left, so that parts that all
show LOCKED agree within the bound of R75 at every depth of the tree; a root is its company's time (entry 30). On what LOCKED is
judged R75 leaves open: DESIGN CHOICE (entry 159). -/
def State.syncLock (s : State) : State :=
  s.timeStat 0 1 (if s.rdF 0 pgTim 0x090 1 1 = 1 ∨ (s.time.synced = true ∧ s.time.left = 0) then 1 else 0)

/-- A measured offset: shown; a part that lags and has neither locked nor met its first curtain steps forward, once; any
other offset is removed by steering, since time never decreases on a die (R75, R77). -/
def State.applyOffset (s : State) (o : Int) : State :=
  let s := foldNat 4 (fun s d => s.wr d pgTim 0x098 (toBits 64 o)) s
  let s := { s with time := { s.time with synced := true } }
  let s :=
    if s.rdF 0 pgTim 0x090 0 1 = 0 ∧ s.resets.curtain = false ∧ s.time.stepped = false ∧ 0 < o then
      let s := foldNat 4 (fun s d => s.wr d pgTim 0x080 (s.now d + o.toNat)) s
      { s with time := { s.time with stepped := true } }.steer 0
    else s.steer o
  s.syncLock

/-- TIME_FLIT: a child's request is answered; a reply to the exchange in progress gives an offset. -/
def execTimeFlit (p : Port) (m : TimeFlit) (s : State) : LRes :=
  .next <|
    let bad := m.head.any flitBad
    let s := match m.head with | some f => s.flitIn p { f with ftype := 4 } | none => s
    if bad ∨ s.timeLink p = false then s
    else match m.msg with
    | .request t1 => s.timeOut p [t1.toNat, s.now (portDie p), s.now (portDie p)]
    | .reply t1 t2 t3 =>
      let l := s.link p
      if l.asked = some t1.toNat then
        (s.setLink p { l with asked := none }).applyOffset
          (timeOffset t1.toNat t2.toNat t3.toNat (s.now (portDie p)) l.asym)
      else s

/-- Depths of the devices from the root over the time-sync links of the table: one round gives the devices that neighbour one of
depth `n` and have no depth yet the depth `n` + 1. -/
def timeRound (tb : List BlockRec) (t : Tab Nat) (n : Nat) : Tab Nat :=
  tb.foldl (fun u r =>
    if r.sync && r.used && Tab.find t r.rdev = some n && (Tab.find u r.dev).isNone then Tab.put u r.dev (n + 1) else u) t

/-- The time tree (R76) as the table gives it, of depth 8 at most: the root is the lowest device index, the parent the neighbour
nearest to it over the lowest port (entry 30). With another parent LOCKED waits for an exchange with it. -/
def State.timeTree (s : State) : State :=
  let tb := s.plan.filter fun r => !(s.fenced r.dev) && !(s.fenced r.rdev)
  match (tb.map (·.dev)).min? with
  | none => s
  | some root =>
    let t := foldNat 8 (timeRound tb) [(root, 0)]
    let own := (Tab.find t s.device).getD 0
    let ups := tb.filter fun r => r.dev = s.device && r.sync && r.used && decide (0 < own) && Tab.find t r.rdev = some (own - 1)
    let pt := (ups.map (·.port)).min?
    let par := (pt.bind fun p => ((ups.find? fun r => r.port = p).map (·.rdev))).getD 0
    let was := (s.rdF 0 pgTim 0x090 1 1, s.rdF 0 pgTim 0x090 7 9, s.rdF 0 pgTim 0x090 16 5)
    let now := (if root = s.device then 1 else 0, par, pt.getD 0)
    let s := s.timeStat 1 1 now.1
    let s := ((s.timeStat 3 4 own).timeStat 7 9 par).timeStat 16 5 now.2.2
    let s := if was = now then s else { s with time := { s.time with synced := false } }
    (if root = s.device ∧ was.1 = 0 then s.steer 0 else s).syncLock

/-! ### Admission (R304, R305) -/

/-- The record of the part's own port in the table in force. -/
def State.blockRec (s : State) (p : Nat) : Option BlockRec :=
  s.plan.find? fun r => r.dev = s.device && r.port = p

/-- The verdict of a port by Table 13-8. -/
def State.verdict (s : State) (p : Nat) : Nat :=
  let up := s.linkSt p = 3 ∨ s.linkSt p = 4
  match s.blockRec p with
  | none => if up then 4 else 0
  | some r =>
    match (s.link p).nbr, decide up with
    | some h, true =>
      if !r.used then 4
      else if h.device.toNat = r.rdev ∧ h.port.toNat = r.rport then
        if h.fw.toNat / 2 ^ 16 = (s.ownHello p).fw.toNat / 2 ^ 16 then 1 else 5
      else if s.plan.any fun x => x.dev = h.device.toNat then 2 else 3
    | _, _ => if r.used then 6 else 0

/-- The record of a device's port. -/
def State.recOf (s : State) (dev port : Nat) : Option BlockRec := s.plan.find? fun r => r.dev = dev && r.port = port

/-- A remap is allowed in every record concerned (Table 13-8): of this port, of the port that was planned for its other end, of the
neighbour's port, and of the port that was planned for the other end of that. -/
def State.remapOk (s : State) (p : Nat) : Bool :=
  match (s.link p).nbr, s.blockRec p with
  | some h, some a =>
    a.remap && ((s.recOf a.rdev a.rport).any (·.remap)) &&
      match s.recOf h.device.toNat h.port.toNat with
      | some c => c.remap && (s.recOf c.rdev c.rport).any (·.remap)
      | none => false
  | _, _ => false

/-- Show the verdicts of every port, as stage 11 compares the neighbour table with the blocking table (04 Table 4-5, R305). -/
def State.showVerdicts (s : State) : State := foldNat 20 (fun s p => s.setCp p 0x028 16 3 (s.verdict p)) s

/-- Has a port a verdict other than MATCH (R305)? -/
def State.mismatched (s : State) : Bool := (List.range 20).any fun p => decide (1 < s.cpF p 0x028 16 3)

/-- A decision to change tables admits the links whose verdict allows it (R305, R307); while the link manager of the die
restarts, the step waits. -/
def State.admitLink (s : State) (p : Nat) : State :=
  if s.comp (portDie p) 2 = 2 then s.setLink p { s.link p with due := true }
  else
    let v := s.verdict p
    let s := (s.setCp p 0x028 16 3 v).setLink p { s.link p with due := false }
    if s.linkSt p = 3 ∧ s.cpF p 0x020 9 1 = 0 ∧ (v = 1 ∨ (v = 2 ∧ s.remapOk p = true)) then
      let l := s.link p
      (s.setLink p { l with admitted := l.nbr }).setLinkSt p 4
    else s
def State.admitLinks (s : State) : State := foldNat 20 (fun s p => s.admitLink p) s

/-- The admission steps of a die's ports that waited for its link manager. -/
def State.admitDue (s : State) (d : Nat) : State :=
  foldNat 5 (fun s i => if (s.link (5 * d + i)).due then s.admitLink (5 * d + i) else s) s

end Sys2Proof.Machine
end

