-- ==== Sys2Proof/Machine/Router.lean ====
section
/-! DEFINITION. The router (14 R311 to R333): circuits, cut-through, and holding data-class injection. -/

namespace Sys2Proof.Machine

abbrev FRes := Host.Outcome State Fault Refusal

/-! ### Packets at a hop -/

/-- The code of an input port (Table 14-7, IN_PORT). -/
def inCode : InPort → Nat
  | .port p => p.val
  | .inject => 20

/-- The die whose router slice takes a packet. -/
def hopDie (inp : InPort) (k : Packet) : Nat :=
  match inp with
  | .port p => portDie p
  | .inject => k.req.die

/-- Control types whose transfers carry data, and so have further segments (R312). -/
def ctrlData (t : Nat) : Bool := t = 0x02 || t = 0x03 || t = 0x81 || t = 0x83

/-- Are the fields of a control packet's header in range: a listed type of the class, OP or STATUS of its tables, TOTAL_LEN, and SEG
and LAST as the train's length has them (Tables 14-2, 14-3)? -/
def ctrlOk (k : Packet) : Bool :=
  let t := k.ptype.toNat
  let segs := if ctrlData t then segmentsOf k.length else 1
  if t = 0x87 then decide (1 ≤ k.length ∧ k.length ≤ 512 ∧ k.seg = 0 ∧ k.last = true)
  else if t = 0x06 then decide (k.seg = 0 ∧ k.last = true ∧ k.req.track = 0 ∧ k.req.gen = 0 ∧ k.req.ctx = 0)
  else
    ((1 ≤ t && t ≤ 5) || (0x81 ≤ t && t ≤ 0x85)) && decide (k.length ≤ 256 ∧ k.seg < segs ∧ (k.last = true ↔ k.seg + 1 = segs)) &&
      decide (if 0x80 ≤ t then k.op ≤ 5 else if t = 3 then k.op ≤ 12 else True)

/-- Are the fields of a data packet's header in range: a listed type of the class, FLOW 0 under CT, and a LENGTH of its type's
payload: none of a read and of an acknowledgement, else a multiple of 256 B, with the tag on a confidential circuit (R313, Table
14-4)? -/
def dataOk (k : Packet) : Bool :=
  let t := k.ptype.toNat
  let full := if k.conf then !k.ct && confLen k.length else dataLen k.length
  ((0x10 ≤ t && t ≤ 0x13) || (0x90 ≤ t && t ≤ 0x93)) && (!k.ct || k.flow = 0) &&
    (if t = 0x10 then k.length = 0 && dataLen (k.aux % 2 ^ 16)
     else if t = 0x90 then k.length = 0 || full
     else if 0x90 < t then k.length = 0 else full) &&
    (t ≠ 0x12 || decide (k.aux / 2 ^ 9 % 2 ^ 10 ≤ 512 ∧ k.aux / 2 ^ 19 % 4 ≤ 2))

/-- Is the type listed, in its class, with its header fields in range (R314)? -/
def packetOk (k : Packet) : Bool := if k.control then ctrlOk k else dataOk k

/-- Take a packet at a hop: a bad one and an old request are discarded (R314, R316). A router slice in reset holds its
senders (R72, R97; entry 134). -/
def State.atHop (s : State) (d : Nat) (k : Packet) (f : State → State) : State :=
  if s.inReset d pgRtr then s
  else if !(packetOk k) then s.setErr d pgRtr 9
  else if packetRequest k ∧ 78125 < s.hopAge d k then (s.incF d pgRtr 0x0F0 0 16 1).setErr d pgRtr 10
  else f s

/-! ### Circuits (R318 to R321, R328 to R330) -/

/-- Is data-class injection held at a die (R326, HOLD_DATA)? -/
def State.heldData (s : State) (inp : InPort) (k : Packet) : Bool :=
  decide (inp = .inject) && !k.control && s.rdF k.req.die pgRtr 0x028 2 1 = 1

/-- CIRCUIT_FORWARD: an arriving packet, or an injected one of LENGTH 0, which no slot gates (R320). -/
def execCircuitForward (inp : InPort) (k : Packet) (s : State) : FRes :=
  .next <|
    let d := hopDie inp k
    if k.control ∨ k.ct ∨ (inp = .inject ∧ k.length ≠ 0) ∨ s.heldData inp k then s
    else s.atHop d k fun s =>
      match s.flowEntry k.flow.toNat (inCode inp) with
      | none => s.setErr d pgRtr 9
      | some c => s.circuitIn d c k

/-- CIRCUIT_SLOT_INJECT: nothing is injected while the die holds data (R326) or its islands do not issue (03 R64), and a packet
with a payload only as a slot starts that its flow owns on its first output (R320). Of more than 1,792 B it cannot be confidential
(R331). -/
def execCircuitSlotInject (k : Packet) (slot : Nat) (s : State) : FRes :=
  .next <|
    let d : Nat := k.req.die
    if k.control ∨ k.ct ∨ s.heldData .inject k ∨ s.alive d = false then s
    else match s.flowEntry k.flow.toNat 20 with
    | none => s
    | some c =>
      let port := (c.outs.head?.map (·.1)).getD 20
      if k.length ≠ 0 ∧ (s.ownsSlot c.flow port slot && s.slotStarts d && s.slotNow d = slot) = false then s
      else if c.conf ∧ 1792 < k.length then s.setErr d pgRtr 9
      else s.atHop d k fun s => s.injectCircuit c k

/-! ### Cut-through (R323 to R325) -/

/-- The device a packet goes to: the issuer for an answer, else DEVICE of its address. -/
def State.packetDest (s : State) (k : Packet) : Nat :=
  if 0x80 ≤ k.ptype.toNat then s.srcDev k.req
  else addrDev k.req.addr.toNat

/-- The route of a device in the bank that TGEN names: 20 delivers here. -/
def State.bankRoute (s : State) (tgen : Bool) (dev : Nat) : Option Nat :=
  let v := Tab.get 0 s.routes ((if tgen then 512 else 0) + dev)
  if v / 32 % 2 = 1 then some (v % 32) else none

/-- CUT_THROUGH_FORWARD: the packet goes to the queue of its output, where it waits for the next hop's credits and, a data
packet on an ADMITTED port, for a free slot (R324). Forwarding begins with the first of the packet's flits, which holds its
header. A packet that this part issues takes its route bank (R323). -/
def execCutThroughForward (inp : InPort) (k : Packet) (flits : Nat) (s : State) : FRes :=
  .next <|
    let d := hopDie inp k
    let k := if inp = .inject then { k with tgen := decide (s.bank = 1) } else k
    if flits = 0 ∨ (k.control = false ∧ k.ct = false) ∨ s.heldData inp k then s
    else s.atHop d k fun s =>
      match s.bankRoute k.tgen (s.packetDest k) with
      | none =>
        let s := s.setErr d pgRtr 14
        if packetRequest k then s.answer { k.req with ptype := k.ptype } .noRoute [] else s
      | some p =>
        if p = 20 then (if packetRequest k then s else s.incF d pgRtr 0x0E0 0 64 1)
        else (s.incF d pgRtr 0x0E0 0 64 1).toPort p { pk := k, inp := inCode inp }

/-! ### The route table and holding (R326, R327) -/

/-- VCT_DATA_WRITE: the store and its denial stand with the register. -/
def execVctDataWrite (w : Writer) (d : Die) (v : BitVec 64) (s : State) : FRes :=
  .next ((s.write1 d pgRtr 0x0C8 w v.toNat).then_ id)

/-- HOLDING as HOLD_DATA and a change of tables leave it (Table 14-14). -/
def State.holdEffect (s : State) (d : Nat) : State :=
  s.wrF d pgRtr 0x028 2 1 (if s.rdF d pgRtr 0x020 8 1 = 1 ∨ s.fabric.hold then 1 else 0)

/-- HOLD_DATA_WRITE. -/
def execHoldDataWrite (w : Writer) (d : Die) (v : Bool) (s : State) : FRes :=
  .next <|
    (s.write1 d pgRtr 0x020 w (putBits (s.rd d pgRtr 0x020) 8 1 (if v then 1 else 0))).then_ fun s => s.holdEffect d

/-- No data-class packet is in a port or queue, and no remote data-class tracking entry is open. -/
def State.dataGone (s : State) : Bool :=
  (s.fabric.links.all fun x =>
    (x.2.queue.all fun q => q.pk.control) && (x.2.begun.all fun q => q.1.pk.control) &&
      x.2.retry.all fun f => f.pks.all fun q => q.1.control) && (s.fabric.inbuf.all fun e => e.2.isEmpty) &&
  s.ctx.tracks.all fun e => !(e.2.remote && e.2.data)

end Sys2Proof.Machine
end

