-- ==== Sys2Proof/Machine/Dup.lean ====
section
/-! DEFINITION. Checks of sampled chains (15 R340 to R343). -/

namespace Sys2Proof.Machine

abbrev DRes := Host.Outcome State Fault Refusal

/-- Change the first job that satisfies `p`. -/
def updFirst (p : DupJob → Bool) (f : DupJob → DupJob) : List DupJob → List DupJob
  | [] => []
  | j :: js => if p j then f j :: js else j :: updFirst p f js

/-- The chain's last descriptor. -/
def State.jobTile (s : State) (j : DupJob) : Option TileDesc := s.tileOf j.ref

/-- SAMPLE_COPY_COMPLETE: the copy of the oldest chain of the bay ends where its checker has room for it (R340). The
SIGNAL that its drain held is sent. -/
def execSampleCopyComplete (d : Die) (b : Bay) (s : State) : DRes :=
  .next <|
    let due (j : DupJob) : Bool := j.pdie = d && j.pbay = b && j.closed && !j.copied
    match s.dup.jobs.find? due with
    | none => s
    | some j =>
      if 16 ≤ s.dupQueued j.cdie then s
      else
        let s := { s with dup := { s.dup with jobs := updFirst due (fun j => { j with copied := true }) s.dup.jobs } }
        match s.jobTile j with
        | none => s
        | some t => if j.prim.isSome ∧ t.signal < 32 ∧ s.dupHolds d b j.tileId = false then s.signalGo d b t.signal else s

/-- DUP_CHECK: the bay in the wings begins the oldest chain queued on its die, while the die may issue (R61, R64) and
its duplicate sampler is out of reset (R97). -/
def execDupCheck (d : Die) (s : State) : DRes :=
  .next <|
    let waits (j : DupJob) : Bool := j.cdie = d && j.copied && !j.running
    if s.issues d = false ∨ s.inReset d pgDup = true then s
    else if (s.dup.jobs.any fun j => j.cdie = d && j.running) = true ∨ (s.dup.jobs.any waits) = false then s
    else match s.wingsBay d with
    | none => s
    | some b =>
      let s := (s.incF d pgDup 0x080 32 32 1).progress d b
      { s with dup := { s.dup with jobs := updFirst waits (fun j => { j with running := true }) s.dup.jobs } }

/-- The checker's run of a chain (R340 rule 4): from the image of its operands. -/
def State.checkRun (s : State) (j : DupJob) (t : TileDesc) (flips : List Flip) : Drain :=
  let rd : Reader := fun off => Tab.get 0 j.image off
  let acc := j.descs.foldl (fun acc x => accTile x rd j.rows t.nValid acc) []
  let osc := rd t.outScaleOff
  let dr := drainTile t ⟨s.jobSeed, s.stepCur, s.tensorOf j.ref⟩ osc.toNat acc
  let out := flipRows t flips dr.rows
  ⟨crc64 (witnessInput t j.rows j.ref.fb s.stepNum dr out osc), out⟩

/-- Elements of a drain, row by row. -/
def drainElems (f : Fmt) (n : Nat) (d : Drain) : List (List Nat) :=
  d.rows.map fun r => (List.range n).map fun c => elemAt f (fun i => r.getD i 0) 0 c

/-- Differing elements, row and column of the first, and the XOR of its encodings (R342). -/
def drainDiff (t : TileDesc) (p c : Drain) : Nat × Nat × Nat × Nat :=
  match Fmt.ofCode t.outFmt with
  | none => (0, 0, 0, 0)
  | some f =>
    let a := drainElems f t.nValid p
    let b := drainElems f t.nValid c
    let all := (List.range a.length).flatMap fun r => (List.range t.nValid).filterMap fun k =>
      let x := (a.getD r []).getD k 0 ^^^ (b.getD r []).getD k 0
      if x = 0 then none else some (r, k, x)
    match all with
    | [] => (0, 0, 0, 0)
    | (r, k, x) :: _ => (all.length, r, k, x)

/-- Set flags in the entry of a chain of the witness table. -/
def State.witFlag (s : State) (r : TileRef) (bit : Nat) : State :=
  let x := s.wtabIndex r
  match Tab.find s.wtab x with
  | some e => s.putWit x { e with flags := e.flags ||| bit }
  | none => s

/-- A mismatch (R342): shown on the primary's die, logged, and the step ends; it waits for its verdict. -/
def State.mismatch (s : State) (j : DupJob) (t : TileDesc) (p c : Drain) (cbay : Nat) : State :=
  let d := j.pdie
  let diff := drainDiff t p c
  let s := (s.witFlag j.ref 32).setErr d pgDup 9
  let s := if s.rdF d pgDup 0x098 32 1 = 1 then s
    else
      let s := s.wr d pgDup 0x098 (j.tileId % 2 ^ 32 + 2 ^ 32)
      let s := s.wr d pgDup 0x0A0 (j.pbay + d * 2 ^ 4 + cbay * 2 ^ 6 + j.cdie * 2 ^ 10 + bitAt j.same 12)
      let s := s.wr d pgDup 0x0A8 (diff.1 % 2 ^ 16 + diff.2.1 * 2 ^ 16 + diff.2.2.1 * 2 ^ 23 + diff.2.2.2 % 2 ^ 32 * 2 ^ 32)
      (s.wr d pgDup 0x0B0 p.witness).wr d pgDup 0x0B8 c.witness
  let reh := match s.rehOn 1 true with
    | some r => r.place = j.tileId && diff = (1, r.elem.1, r.elem.2.1, 2 ^ r.elem.2.2)
    | none => false
  let s := if reh then s.rehFound else s
  let s := s.logAt d srcHw .mismatch [j.tileId, d, j.pbay, j.cdie, cbay, diff.1, diff.2.1, diff.2.2.1, diff.2.2.2]
    (bitAt reh 0)
  let m : Mismatch := ⟨j.tileId, s.stepNum, d, j.pbay, j.cdie, cbay, p.witness, c.witness, diff, j.same, reh⟩
  let s := { s with dup := { s.dup with mism := s.dup.mism ++ [m] } }
  s.endStep 2

/-- An event of a verdict against a bay (Table 15-3), its peer the other bay named. -/
def State.verdictEvent (s : State) (m : Mismatch) (v : Nat) (wits : List Nat) (sameArb : Bool) (d b pd pb : Nat) : State :=
  s.histEvent 1 d b 1 fun e => { e with
    verdict := v, flags := bitAt m.reh 0 + bitAt m.same 1 + bitAt sameArb 2, tile := some m.tileId,
    peer := some (pd, pb), wits := wits, diff := some m.diff }

/-- The verdict of a mismatch by Table 15-3, from the primary's and the arbiter's witness in the encore. "The primary
bay" is the original one. -/
def State.verdictOf (s : State) (m : Mismatch) (p2 a : Nat) (adie abay : Nat) (sameArb : Bool) : State :=
  let ws := [m.p1, m.c1, p2, a]
  let ev (s : State) (v d b pd pb : Nat) : State := s.verdictEvent m v ws sameArb d b pd pb
  let miss (s : State) : State := if m.reh then (s.setErr 0 pgCue 14).wrF 0 pgCue 0x0C8 4 2 2 else s
  let s := { s with dup := { s.dup with mism := s.dup.mism.erase m } }
  if p2 = a ∧ a = m.p1 then miss (ev s 2 m.cdie m.cbay m.pdie m.pbay)
  else if p2 = a ∧ a = m.c1 then ev s 3 m.pdie m.pbay m.cdie m.cbay
  else if p2 = a then miss (ev (ev s 4 m.pdie m.pbay m.cdie m.cbay) 4 m.cdie m.cbay m.pdie m.pbay)
  else if a = m.c1 then miss (ev (ev s 5 m.pdie m.pbay adie abay) 5 m.pdie m.pbay adie abay)
  else miss (ev (ev s 6 m.pdie m.pbay adie abay) 6 adie abay m.pdie m.pbay)

/-- DUP_CHECK_COMPLETE: the check that runs on the die ends, once the primary has drained. -/
def execDupCheckComplete (d : Die) (flips : List Flip) (s : State) : DRes :=
  .next <|
    match s.dup.jobs.find? fun j => j.cdie = d.val && j.running with
    | none => s
    | some j =>
      match s.jobTile j, j.prim, s.wingsBay d with
      | some t, some p, some cb =>
        let c := s.checkRun j t flips
        let s := s.progress d cb
        let s := { s with dup := { s.dup with jobs := s.dup.jobs.erase j } }
        let judged := s.dup.mism.find? fun m => m.tileId = j.tileId && m.step = s.stepNum
        let s := if p.witness = c.witness then (s.witFlag j.ref 4).incF j.pdie pgDup 0x088 0 32 1
            else s.mismatch j t p c cb
        match judged with
        | some m => if j.arbiter then s.verdictOf m p.witness c.witness d cb j.sameArb else s
        | none => s
      | _, _, _ => s

end Sys2Proof.Machine
end

