-- ==== Sys2Proof/Machine/Curtain.lean ====
section
/-! DEFINITION. Loading a book (02 R43 to R47), the scale records (08 R161 to R168), and actions 1 and 2 of the curtain
(02 R28; 11 R252; 15 R337, R346 to R349). -/

namespace Sys2Proof.Machine

abbrev URes := Host.Outcome State Fault Refusal

/-! ### Scale records (R162 to R168) -/

/-- The records of an array at a key. -/
def State.recordsAt (s : State) (k cnt : Nat) : List ScaleRec :=
  (List.range cnt).map fun i => ScaleRec.ofBytes (s.memRead (k + 128 * i) 128)

/-- The key of the record array in the region that is current, of a book. -/
def State.recKey (s : State) (b : Book) (off : Nat) : Nat :=
  addrKey ((b.retain.getD (if s.retained.curB then 1 else 0) (0, 0)).1 + off)

/-- Index of the first record that fails R163 or repeats a tensor. -/
def badRec : Nat → List Nat → List ScaleRec → Option Nat
  | _, _, [] => none
  | i, seen, r :: rs => if !r.ok || seen.contains r.tensor then some i else badRec (i + 1) (r.tensor :: seen) rs

/-- The first bad record of the array that a book would be activated with (R163): an array out of range, or one that
cannot be read, is bad from its first such record. -/
def State.recsBad (s : State) (b : Book) : Option Nat :=
  let (cnt, off) := s.recSpec false
  if 4096 < cnt ∨ (b.retain.getD 0 (0, 0)).2 < off + cnt * 128 then some 0
  else
    let k := s.recKey b off
    let unread := (List.range cnt).find? fun i => s.rangeBad (k + 128 * i) 128
    match badRec 0 [] (s.recordsAt k cnt), unread with
    | some i, some j => some (min i j)
    | some i, none | none, some i => some i
    | none, none => none

/-- A book's record array is read (11 R265), where it lies within its region. -/
def State.recTouch (s : State) (b : Book) (inForce : Bool) : State :=
  let (cnt, off) := s.recSpec inForce
  if 4096 < cnt ∨ (b.retain.getD 0 (0, 0)).2 < off + cnt * 128 then s else s.touch (s.recKey b off) (128 * cnt)

/-- Report what the check found in NUM_STAT. -/
def State.reportRecs (s : State) (b : Book) : State :=
  match s.recsBad b with
  | some i => (s.wrF 0 pgStp 0x118 10 1 1).wrF 0 pgStp 0x118 16 13 i
  | none => (s.wrF 0 pgStp 0x118 10 1 0).wrF 0 pgStp 0x118 16 13 0

/-- The tensors that a book's records name, for check 12 (10 R218). -/
def State.recTensors (s : State) (b : Book) : List Nat :=
  let (cnt, off) := s.recSpec false
  if 4096 < cnt ∨ s.rangeBad (s.recKey b off) (128 * cnt) = true then []
  else (s.recordsAt (s.recKey b off) cnt).map (·.tensor)

/-- The step amax of a tensor: the maximum over the bays' amax units for the book context (R161). -/
def State.stepAmax (s : State) (tensor : Nat) : Nat :=
  allBays.foldl (fun m x => max m (Tab.get 0 (s.bookVxe x.1 x.2).amax tensor)) 0

/-- The update of every record into the region that the step writes (R165, R166). An array that cannot be read keeps
the step from certification. -/
def State.updateRecords (s : State) : State :=
  let (cnt, off) := s.recSpec true
  if s.books.active.isNone ∨ cnt = 0 then s
  else
    let src := addrKey (s.regionBase 1 + off)
    let s := s.touch src (128 * cnt)
    if s.rangeBad src (128 * cnt) then s.noCert 1
    else
      let new := ((List.range cnt).zip (s.recordsAt src cnt)).map fun (_, r) =>
        r.update (s.stepAmax r.tensor) (s.step.evTensors.contains r.tensor) (Tab.get 0 s.retained.lower r.tensor)
          s.stepCur
      (s.ownWrite (addrKey (s.regionBase 2 + off)) (new.flatMap ScaleRec.toBytes)).1

/-- The live scale table (R168): written whole, its last sector filled with zeros. Of an array that cannot be read its bytes are
free, and the step is not certified (11 R268; entry 161). -/
def State.writeLive (s : State) : State :=
  match s.books.active with
  | none => s
  | some b =>
    let (cnt, off) := s.recSpec true
    let s := s.recTouch b true
    let bad := s.rangeBad (s.recKey b off) (128 * cnt)
    let s := if bad then s.noCert 1 else s
    let bytes := if bad then s.freeBytes cnt else (s.recordsAt (s.recKey b off) cnt).map fun r =>
      BitVec.ofNat 8 (min 254 (r.scale + Tab.get 0 s.retained.lower r.tensor))
    let s := if bad then s.took cnt else s
    let pad := (64 - cnt % 64) % 64
    let s := if cnt = 0 then s else (s.partWrite (s.inf 0 pgStp 0x110) (bytes ++ List.replicate pad 0)).1
    s.wrF 0 pgStp 0x118 9 1 1

/-- Show the pending lowerings in NUM_PEND0 to NUM_PEND15 (R167). DESIGN CHOICE (entry 170): of more than 16 the first in order of
their tensors. -/
def State.showPend (s : State) : State :=
  let ps := s.retained.lower.take 16
  let s := (List.range 16).foldl (fun s i =>
    s.wr 0 pgStp (0x130 + 8 * i) (match ps[i]? with
      | some (t, k) => t % 2 ^ 32 + k % 32 * 2 ^ 32 + 2 ^ 37
      | none => 0)) s
  s.wrF 0 pgStp 0x118 11 5 ps.length

/-! ### Loading (R43 to R47) -/

/-- The state once the book named by LOAD_BASE and LOAD_LEN is read, and its bytes; empty where they cannot be copied (entry
33). -/
def State.bookBytes (s : State) : State × List Byte :=
  let a := s.rdF 0 pgStp 0x080 0 52
  let n := min (s.rd 0 pgStp 0x088) (2 ^ 32 + 1)
  if addrSpace a = 0 ∧ addrDev a = s.device ∧ stackPresent a n .sys = true then
    let x := s.readOwn (addrKey a) n
    (x.1, x.2.getD [])
  else (s, [])

/-- What a write of LOAD_CTRL does: DISCARD, then START, which is refused while a validation runs. -/
def State.loadCtrlEffect (s : State) (v : Nat) : State :=
  let s := if bitsOf v 1 1 = 1 then
      ({ s with books := { s.books with staged := none } }).wrF 0 pgStp 0x098 10 1 0 else s
  if bitsOf v 0 1 = 0 then s
  else if s.books.loading.isSome then s.wrF 0 pgStp 0x098 0 8 0x0E
  else { s.bookBytes.1 with books := { s.books with loading := some s.bookBytes.2 } }

/-- LOAD_START. -/
def execLoadStart (w : Writer) (s : State) : URes :=
  .next ((s.write1 0 pgStp 0x090 w 1).then_ fun s => s.loadCtrlEffect 1)

/-- LOAD_DISCARD. -/
def execLoadDiscard (w : Writer) (s : State) : URes :=
  .next ((s.write1 0 pgStp 0x090 w 2).then_ fun s => s.loadCtrlEffect 2)

/-- Does FIRST_STEP break R47 at the curtain of the step in progress? -/
def State.stepBroken (s : State) (b : Book) : Bool :=
  if s.stepState = 0 then decide (0xFFFFFFFFFFFF ≤ b.firstStep) else b.firstStep ≠ s.stepCur + 1

/-- Show and log it (R47). -/
def State.markStep (s : State) (b : Book) : State :=
  if s.stepBroken b then (s.wrF 0 pgStp 0x098 10 1 1).logAt 0 srcHw (.other 1) [b.firstStep, s.stepCur]
  else s.wrF 0 pgStp 0x098 10 1 0

/-- Hashes of the usable owner keys (21 R442, R446). -/
def State.ownerHashes (s : State) : List (BitVec 256) :=
  ((List.range 4).filter s.sec.sensed.usable).map fun n => Tab.get 0 s.sec.sensed.ownerHash n

/-- What the checks of a book read. -/
def State.checkEnv (s : State) (raw : List Byte) : CheckEnv :=
  let (cnt, off) := s.recSpec false
  { keys := s.ownerHashes, device := s.device, homeSize := homeSize, recs := s.recTensors (Book.ofBytes raw (dirOf raw)),
    recLo := off, recLen := 128 * cnt }

/-- VALIDATION_COMPLETE. -/
def execValidationComplete (s : State) : URes :=
  .next <|
    match s.books.loading with
    | none => s
    | some raw =>
      let s := s.recTouch (Book.ofBytes raw (dirOf raw)) false
      let r := validate (s.checkEnv raw) Config.sm2Verify raw.length raw
      let s := { s with books := { s.books with loading := none } }
      let s := ((s.wrF 0 pgStp 0x098 0 8 r.1).wrF 0 pgStp 0x098 16 8 r.2.1).wrF 0 pgStp 0x090 0 1 0
      match r.2.2 with
      | none => s
      | some b =>
        let s := match s.books.staged with
          | some o => s.logAt 0 srcHw .bookSuperseded [o.bookDigest.toNat]
          | none => s
        ({ s with books := { s.books with staged := some b } }).markStep b

/-! ### Rehearsals (16 R377) -/

/-- Record how a rehearsal ended: 1 DETECTED, 2 MISS, 3 NOT_REACHED. -/
def State.rehReport (s : State) (r : RehRun) (result : Nat) : State :=
  let us := match r.injected, r.found with
    | some a, some b => (b - a) / 1000
    | _, _ => 0
  let s := s.wr 0 pgCue 0x0C8 (r.kind + result * 2 ^ 4 + s.device % 512 * 2 ^ 6 + us % 2 ^ 32 * 2 ^ 16)
  let s := { s with cue := { s.cue with reh := none } }
  if result = 2 then (s.setErr 0 pgCue 14).logAt 0 srcHw .rehearsalMiss [r.kind, us] 2
  else s.logAt 0 srcHw .rehearsal [r.kind, result, us] 2

/-- At action 1 an unread corrupted sector is restored. -/
def State.rehUndo (s : State) : State :=
  match s.rehOn 3 true with
  | some r => if r.found.isNone then (s.clearBad r.place).rehReport r 3 else s
  | none => s

/-- Once the checks of its step have ended, a rehearsal is reported; one whose fault was never injected is dropped.
Kind 4 is reported as its part is fenced. -/
def State.rehEnd (s : State) : State :=
  match s.cue.reh with
  | none => s
  | some r =>
    if r.step ≠ s.stepCur ∨ r.kind = 4 then s
    else if r.injected.isNone then { s with cue := { s.cue with reh := none } }
    else s.rehReport r (if r.found.isSome then 1 else 2)

/-! ### Action 1 (R28, R252, R259) -/

/-- Bays that hold a logical number. -/
def State.mappedBays (s : State) : List (Nat × Nat) := allBays.filter fun x => (s.lbayOf x.1 x.2).isSome

/-- A slot of a save set after the cancellations of action 1. -/
def SuSlot.closed (x : SuSlot) : SuSlot :=
  if SlotSt.active x.st ∨ x.st = .faulted ∨ x.st = .cancelling then { x with st := .idle, cancelDone := true, ended := true, owes := false } else x

/-- What the book context's save set holds of a step that ended early is discarded; else its cancellations complete. -/
def SaveSet.closed (x : SaveSet) (early : Bool) : SaveSet :=
  let x := { x with slots := x.slots.map SuSlot.closed }
  if early then
    { x with mxe := { atEnd := true }, vxe := { x.vxe with prog := none, queue := [], syncing := false, atEnd := true } }
  else x

/-- Discard what a bay holds of a step that ended early: descriptors, programs and slots, without the errors of a
CLOSING; checks whose primary has not drained are abandoned. -/
def State.bayDiscard (s : State) (d b : Nat) : State :=
  let s := s.dupAbandon fun j => j.pdie = d && j.pbay = b && j.prim.isNone
  let s := s.setMxe d b { atEnd := true }
  let v := s.vxeOf d b
  let s := s.setVxe d b { v with prog := none, queue := [], syncing := false, atEnd := true }
  s.cancelBay d b

/-- Cancellations of a bay complete: writes in flight settle, tracking entries of the slots end. -/
def State.bayClose (s : State) (d b : Nat) : State :=
  let s := s.settleBay d b
  (List.range 32).foldl (fun s sl =>
    let x := s.slotOf d b sl
    let s := s.endSlotTracks d b sl
    if x.st = .cancelling then s.setSlot d b sl { x with st := .idle, cancelDone := true, ended := true } else s) s

/-- The shared cache of a die writes back its dirty sectors (R252, R396): how many, and how long it took, which is
open within the bound of 20 µs. -/
def State.writeBack (s : State) (d : Nat) : State :=
  let n := (s.mem.dirty.filter fun e => secDie e.1 = d).length
  let s := s.wr d pgShc 0x0D0 (s.free.toNat % 20001 + n % 2 ^ 32 * 2 ^ 32)
  { s with mem := { s.mem with dirty := Tab.keep (fun k => secDie k ≠ d) s.mem.dirty } }.took 1

/-- Have the book context's lists on a bay ended, be it on the bay or in its save set? -/
def State.bookEnded (s : State) (d b : Nat) : Bool := Mxe.ended (s.bookMxe d b) && Vxe.ended (s.bookVxe d b)

/-- Does a request return by a command of its own: one to another part, or of an engine or a port to this part? A stream's
to this part returns as its delivery is placed or its slot cancelled. -/
def Track.returns (e : Track) : Bool :=
  e.remote || match e.owner with
    | .mxe _ _ | .vxe _ _ | .port _ => true
    | _ => false

/-- Does a port hold back short-path transfers of the book context? -/
def State.bookWaits (s : State) : Bool := s.ports.any fun e => e.2.waiting.any fun t => s.isBookId t.ctx.val

/-- The transfers of the book context that ports hold back are dropped: an ended step discards its in-flight work. -/
def State.dropWaiting (s : State) : State :=
  { s with ports := s.ports.foldl (fun t e =>
      Tab.set {} t e.1 { e.2 with waiting := e.2.waiting.filter fun t => !(s.isBookId t.ctx.val) }) s.ports }

/-- May action 1 complete: every mapped bay at the end of its lists and nothing of the book context held back at a port, or the
step ended early; no request of the book context outstanding, be it an engine's, a stream's or a port's (02 R28)? -/
def State.action1Ready (s : State) : Bool :=
  (s.stepState = 1 && s.mappedBays.all (fun x => s.bookEnded x.1 x.2) && !s.bookWaits ||
    s.stepState = 2 && s.step.ended.isSome && !s.step.a1Done) &&
  !(s.ctx.tracks.any fun e => e.2.returns && e.2.ctx = s.bookId)

/-- The slots of the book context's save set on a bay are cancelled: faults are withdrawn, and at the end of the lists a
WRITE or COPY that is cut off is incomplete (10 R236, R237). -/
def State.endSaved (s : State) (d b : Nat) (early : Bool) : State :=
  match s.bookSaved d b with
  | some x => x.slots.foldl (fun s y =>
      let s := if y.st = .faulted then s.fqWithdraw d y.faultSeq else s
      if !early && (SlotSt.active y.st || y.st = .faulted) && y.writes && !y.isCompanion then
        (s.setErr d (pgSu b) 14).noCert 6
      else s) s
  | none => s

/-- Action 1 of the book's bays and of its saved sets, `early` where the step ended early: work in flight is discarded then,
the blocks' step ends, reduces and records are settled and the caches written back. -/
def State.action1 (s : State) (bays saved : List (Nat × Nat)) (early : Bool) : State :=
  let s := saved.foldl (fun s x => s.endSaved x.1 x.2 early) s
  let s := saved.foldl (fun s x => s.onSaved x.1 x.2 s.bookId fun y => y.closed early) s
  let s := if early then (bays.foldl (fun s x => s.bayDiscard x.1 x.2) s).dropWaiting else s
  let s := bays.foldl (fun s x => s.bayClose x.1 x.2) s
  let s := (s.wrF 0 pgStp 0x0B0 0 3 2).redEnd.updateRecords.rehUndo
  let s := foldNat 4 State.writeBack s
  let s := foldNat 4 (fun s d => s.wrF d pgRtr 0x028 1 1 0) s
  { s with step := { s.step with a1Done := true } }

/-- CURTAIN_ACTION1_COMPLETE. Slots of bays whose lists have ended are cancelled by then, whatever ended last (10 R237). -/
def execCurtainAction1Complete (s : State) : URes :=
  .next <|
    let bays := s.mappedBays.filter fun x => s.isBook x.1 x.2
    let saved := s.mappedBays.filter fun x => !(s.isBook x.1 x.2)
    let s := if s.stepState = 1 then bays.foldl (fun s x => s.endCancel x.1 x.2) s else s
    if s.action1Ready = false then s else s.action1 bays saved s.step.ended.isSome

/-! ### Action 2 (R337, R346 to R349) -/

/-- Show a 256-bit value in four registers. -/
def State.wrDigest (s : State) (pg off : Nat) (x : BitVec 256) : State :=
  foldNat 4 (fun s m => s.wr 0 pg (off + 8 * m) (digestWord x m)) s

/-- The 256-bit value that four registers show. -/
def State.rdDigest (s : State) (pg off : Nat) : BitVec 256 :=
  BitVec.ofNat 256 (foldNat 4 (fun a m => a + s.rd 0 pg (off + 8 * m) * 2 ^ (64 * m)) 0)

/-- The step witness: SM3 over the valid entries outside gather rounds, CHECKED and MISMATCH taken as 0. -/
def State.stepWitness (s : State) : BitVec 256 :=
  digestOf ((s.wtab.filter fun e => bitsOf e.2.flags 0 1 = 1 && bitsOf e.2.flags 4 1 = 0).flatMap fun e =>
    WitEntry.bytes { e.2 with flags := e.2.flags &&& 0xDB })

/-- The value of a record chunk, read back by the witness unit of D0 and counted there; none where it cannot be read. -/
def State.recHash (s : State) (c : Nat) : State :=
  let k := addrKey (s.regionBase 2 + 2 ^ 22 * c)
  match (s.readOwn k (s.chunkLen c)) with
  | (s, some bs) =>
    { s with digest := { s.digest with chunks := Tab.put s.digest.chunks c (digestOf bs) } }.incF 0 pgWit 0x120 0 32 1
  | (s, none) => s

/-- The list of the written region in memory, and the digest of it (R346, R349). -/
def State.putDigest (s : State) (hs : List (BitVec 256)) : State :=
  let list := hs.flatMap fun h => leBytes 32 h.toNat
  let s := (s.partWrite (s.inf 0 pgWit 0x088 + if s.retained.curB then 0 else 2 ^ 21) list).1
  s.wrDigest pgWit 0x0E0 (digestOf (leBytes 8 s.stepCur ++ leBytes 8 s.shardLen ++ list))

/-- Form the weight digest (R346, R349): the list of the written region in memory, DIGEST0 to DIGEST3; with a chunk
missing it is invalid. -/
def State.formDigest (s : State) : State :=
  if s.books.active.isNone then s
  else
    let n := s.chunkCount
    let s := (List.range n).foldl (fun s c => if s.recChunk c then s.recHash c else s) s
    let s := foldNat 4 (fun s d => (s.satF d pgWit 0x120 32 32 s.free.toNat).took 1) s
    let hs := (List.range n).mapM (Tab.find s.digest.chunks)
    if hs.isNone then (s.setErr 0 pgWit 9).noCert 6 else s.putDigest (hs.getD [])

/-- What a curtain reports in the log: degraded rails (03 R57), degraded ports (13 R300), chains left unchecked by
shedding (19 R415). -/
def State.curtainReports (s : State) : State :=
  let s := s.power.report.foldl (fun s x => s.logAt x.1 srcHw .railDegraded [x.1, x.2]) s
  let s := { s with power := { s.power with report := [] } }
  let s := foldNat 20 (fun s p => if (s.link p).report then
      (s.setLink p { s.link p with report := false }).logAt (portDie p) srcHw .portDegraded [p, s.cpF p 0x028 3 3] else s) s
  if s.power.shed1 then foldNat 4 (fun s d => s.logAt d srcHw .unchecked [s.rdF d pgDup 0x090 0 32]) s else s

/-- Action 2 of a step's curtain: witness, digest, reports. -/
def State.action2 (s : State) : State :=
  let s := (s.wrDigest pgWit 0x0A0 s.stepWitness).formDigest
  let s := s.rehEnd.curtainReports
  { s with step := { s.step with a2Done := true, a2Time := s.now 0 } }

end Sys2Proof.Machine
end

