-- ==== Sys2Proof/Machine/Vector.lean ====
section
/-! DEFINITION. The vector engine's instructions (chapter 09). Each command is one instruction of the program in
progress; it acts only where the VXE may issue it, and has no effect elsewhere (entry 15). -/

namespace Sys2Proof.Machine

abbrev Res := Host.Outcome State Fault Refusal

/-- May the VXE issue an instruction: the bay runs its work, ON, not PAUSED, not stopped by a fault, not waiting (R207,
R208, R211, R212), and its step not ended early (R369)? -/
def State.vxeReady (s : State) (u : Unit36) : Bool :=
  !(s.isBook u.die u.bay && s.step.ended.isSome) && s.bayRunsWork u.die u.bay &&
  s.blkIs u.die (pgVxe u.bay) 2 && s.rdF u.die (pgVxe u.bay) 0x020 8 1 = 0 &&
    !(s.vxeOf u.die u.bay).faulted && !(s.vxeOf u.die u.bay).syncing

/-- May the VXE issue this command: it may issue, and the instruction at PC of the program in progress spells it (R188,
R203)? -/
def State.vxeAt (s : State) (u : Unit36) (i : Instr) : Bool :=
  s.vxeReady u && (s.vxeOf u.die u.bay).insn.bind (decodeVxe u) = some i

/-- Run an instruction that only changes the state of Table 9-1, or faults. -/
def vxeRun (u : Unit36) (i : Instr) (f : VxeRegs → VRes) (s : State) : State :=
  if s.vxeAt u i then
    match f (s.vxeOf u.die u.bay).regs with
    | .fault c => s.vxeFault u.die u.bay c
    | .ok r => s.vxeNext u.die u.bay r
  else s

/-- Run an instruction that always completes with these registers. -/
def vxeSet (u : Unit36) (i : Instr) (f : VxeRegs → VxeRegs) (s : State) : State := vxeRun u i (fun r => .ok (f r)) s

/-! ### Element-wise instructions (R189, R191) -/
def execVxeAdd (u : Unit36) (a : VArgs) (s : State) : Res := .next (vxeRun u (.vxeAdd u a) (fun r => vAdd r a) s)
def execVxeSub (u : Unit36) (a : VArgs) (s : State) : Res := .next (vxeRun u (.vxeSub u a) (fun r => vSub r a) s)
def execVxeMul (u : Unit36) (a : VArgs) (s : State) : Res := .next (vxeRun u (.vxeMul u a) (fun r => vMul r a) s)
def execVxeDiv (u : Unit36) (a : VArgs) (s : State) : Res := .next (vxeRun u (.vxeDiv u a) (fun r => vDiv r a) s)
def execVxeSqrt (u : Unit36) (a : VArgs) (s : State) : Res := .next (vxeRun u (.vxeSqrt u a) (fun r => vSqrt r a) s)
def execVxeMin (u : Unit36) (a : VArgs) (s : State) : Res := .next (vxeRun u (.vxeMin u a) (fun r => vMin r a) s)
def execVxeMax (u : Unit36) (a : VArgs) (s : State) : Res := .next (vxeRun u (.vxeMax u a) (fun r => vMax r a) s)
def execVxeMini (u : Unit36) (a : VArgs) (s : State) : Res := .next (vxeRun u (.vxeMini u a) (fun r => vMini r a) s)
def execVxeMaxi (u : Unit36) (a : VArgs) (s : State) : Res := .next (vxeRun u (.vxeMaxi u a) (fun r => vMaxi r a) s)
def execVxeNeg (u : Unit36) (a : VArgs) (s : State) : Res := .next (vxeRun u (.vxeNeg u a) (fun r => vNeg r a) s)
def execVxeAbs (u : Unit36) (a : VArgs) (s : State) : Res := .next (vxeRun u (.vxeAbs u a) (fun r => vAbs r a) s)
def execVxeCsgn (u : Unit36) (a : VArgs) (s : State) : Res := .next (vxeRun u (.vxeCsgn u a) (fun r => vCsgn r a) s)
def execVxeRti (u : Unit36) (a : VArgs) (s : State) : Res := .next (vxeRun u (.vxeRti u a) (fun r => vRti r a) s)
def execVxeRece (u : Unit36) (a : VArgs) (s : State) : Res := .next (vxeRun u (.vxeRece u a) (fun r => vRece r a) s)
def execVxeRsqe (u : Unit36) (a : VArgs) (s : State) : Res := .next (vxeRun u (.vxeRsqe u a) (fun r => vRsqe r a) s)
def execVxeMov (u : Unit36) (a : VArgs) (s : State) : Res := .next (vxeRun u (.vxeMov u a) (fun r => vMov r a) s)
def execVxeAnd (u : Unit36) (a : VArgs) (s : State) : Res := .next (vxeRun u (.vxeAnd u a) (fun r => vAnd r a) s)
def execVxeOr (u : Unit36) (a : VArgs) (s : State) : Res := .next (vxeRun u (.vxeOr u a) (fun r => vOr r a) s)
def execVxeXor (u : Unit36) (a : VArgs) (s : State) : Res := .next (vxeRun u (.vxeXor u a) (fun r => vXor r a) s)
def execVxeSll (u : Unit36) (a : VArgs) (s : State) : Res := .next (vxeRun u (.vxeSll u a) (fun r => vSll r a) s)
def execVxeSrl (u : Unit36) (a : VArgs) (s : State) : Res := .next (vxeRun u (.vxeSrl u a) (fun r => vSrl r a) s)
def execVxeSra (u : Unit36) (a : VArgs) (s : State) : Res := .next (vxeRun u (.vxeSra u a) (fun r => vSra r a) s)
def execVxeMrg (u : Unit36) (a : VArgs) (s : State) : Res := .next (vxeRun u (.vxeMrg u a) (fun r => vMrg r a) s)
def execVxeIota (u : Unit36) (a : VArgs) (s : State) : Res := .next (vxeRun u (.vxeIota u a) (fun r => vIota r a) s)

/-! ### Fused multiply-add (R192) -/
def execVxeFma (u : Unit36) (a : VArgs) (s : State) : Res := .next (vxeRun u (.vxeFma u a) (fun r => vFused r a false false) s)
def execVxeFms (u : Unit36) (a : VArgs) (s : State) : Res := .next (vxeRun u (.vxeFms u a) (fun r => vFused r a false true) s)
def execVxeFnma (u : Unit36) (a : VArgs) (s : State) : Res := .next (vxeRun u (.vxeFnma u a) (fun r => vFused r a true false) s)
def execVxeFnms (u : Unit36) (a : VArgs) (s : State) : Res := .next (vxeRun u (.vxeFnms u a) (fun r => vFused r a true true) s)

/-! ### Comparisons (R193) -/
def execVxeCmpEq (u : Unit36) (a : VArgs) (s : State) : Res := .next (vxeRun u (.vxeCmpEq u a) (fun r => vCmp r a .eq) s)
def execVxeCmpLt (u : Unit36) (a : VArgs) (s : State) : Res := .next (vxeRun u (.vxeCmpLt u a) (fun r => vCmp r a .lt) s)
def execVxeCmpLe (u : Unit36) (a : VArgs) (s : State) : Res := .next (vxeRun u (.vxeCmpLe u a) (fun r => vCmp r a .le) s)
def execVxeCmpUn (u : Unit36) (a : VArgs) (s : State) : Res := .next (vxeRun u (.vxeCmpUn u a) (fun r => vCmp r a .un) s)
def execVxeCmpNe (u : Unit36) (a : VArgs) (s : State) : Res := .next (vxeRun u (.vxeCmpNe u a) (fun r => vCmp r a .ne) s)

/-! ### Reductions (R195) -/
def execVxeRedSum (u : Unit36) (a : VArgs) (s : State) : Res := .next (vxeRun u (.vxeRedSum u a) (fun r => vRedSum r a) s)
def execVxeRedMin (u : Unit36) (a : VArgs) (s : State) : Res := .next (vxeRun u (.vxeRedMin u a) (fun r => vRedMin r a) s)
def execVxeRedMax (u : Unit36) (a : VArgs) (s : State) : Res := .next (vxeRun u (.vxeRedMax u a) (fun r => vRedMax r a) s)
def execVxeRedAmax (u : Unit36) (a : VArgs) (s : State) : Res := .next (vxeRun u (.vxeRedAmax u a) (fun r => vRedAmax r a) s)
def execVxeRedSumw (u : Unit36) (a : VArgs) (s : State) : Res := .next (vxeRun u (.vxeRedSumw u a) (fun r => vRedSumw r a) s)

/-- REPAMAX: the report goes to the bay's amax unit for VTID (R195, R200). -/
def execVxeRedRepamax (u : Unit36) (a : VArgs) (s : State) : Res :=
  .next <|
    if s.vxeAt u (.vxeRedRepamax u a) then
      let r := (s.vxeOf u.die u.bay).regs
      match vRepamax r a with
      | (none, _) => s.vxeFault u.die u.bay 1
      | (some _, none) => s.vxeNext u.die u.bay r
      | (some _, some x) => (s.reportAmax u.die u.bay r.vtid x).vxeNext u.die u.bay r
    else s

/-- CVT (R196 to R199). FP32 and FP64 elements of a principal tensor are classified too (R172). -/
def execVxeCvt (u : Unit36) (a : CvtArgs) (s : State) : Res :=
  .next <|
    if s.vxeAt u (.vxeCvt u a) then
      let r := (s.vxeOf u.die u.bay).regs
      match vCvt r a s.jobSeed s.stepCur (s.principalOf r.vtid).isSome with
      | .inl c => s.vxeFault u.die u.bay c
      | .inr o => (s.reportConv u.die u.bay r.vtid o.evs o.amax).vxeNext u.die u.bay o.regs
    else s

/-! ### Loads and stores (R201) -/
def execVxeLoad (u : Unit36) (a : LsArgs) (s : State) : Res :=
  .next <| vxeRun u (.vxeLoad u a) (fun r =>
    match vLoad r a (fun i => s.stg u.die u.bay i) with
    | .inl c => .fault c
    | .inr r' => .ok r') s

def execVxeStore (u : Unit36) (a : LsArgs) (s : State) : Res :=
  .next <|
    if s.vxeAt u (.vxeStore u a) then
      let r := (s.vxeOf u.die u.bay).regs
      match vStore r a s.staging (bayKey u.die u.bay * 2 ^ 23) with
      | .inl c => s.vxeFault u.die u.bay c
      | .inr t => { s with staging := t }.vxeNext u.die u.bay r
    else s

/-! ### Configuration (R192) -/
def execVxeSetvl (u : Unit36) (a : SArgs) (s : State) : Res := .next (vxeRun u (.vxeSetvl u a) (fun r => vSetvl r a) s)
def execVxeSettid (u : Unit36) (a : SArgs) (s : State) : Res :=
  .next (vxeSet u (.vxeSettid u a) (fun r => { r with vtid := (r.sreg a.sy).toNat % 2 ^ 32 }) s)
def execVxeSetidx (u : Unit36) (a : SArgs) (s : State) : Res :=
  .next (vxeSet u (.vxeSetidx u a) (fun r => { r with vidx := r.sreg a.sy }) s)
def execVxeAddidx (u : Unit36) (a : SArgs) (s : State) : Res :=
  .next (vxeSet u (.vxeAddidx u a) (fun r => { r with vidx := r.vidx + r.sreg a.sy }) s)
def execVxeSetscl (u : Unit36) (a : SArgs) (s : State) : Res :=
  .next (vxeSet u (.vxeSetscl u a) (fun r => { r with vscale := (r.sreg a.sy).toNat % 65536 }) s)
def execVxeSetblk (u : Unit36) (a : SArgs) (s : State) : Res :=
  .next (vxeSet u (.vxeSetblk u a) (fun r => { r with vblk := a.imm.toNat % 4 }) s)
def execVxeSetrm (u : Unit36) (a : SArgs) (s : State) : Res := .next (vxeRun u (.vxeSetrm u a) (fun r => vSetrm r a) s)
def execVxeRdflg (u : Unit36) (a : SArgs) (s : State) : Res :=
  .next (vxeSet u (.vxeRdflg u a) (fun r => r.setS a.sx (BitVec.ofNat 64 r.vflags)) s)
def execVxeClrflg (u : Unit36) (a : SArgs) (s : State) : Res :=
  .next (vxeSet u (.vxeClrflg u a) (fun r => { r with vflags := 0 }) s)
def execVxeRdvl (u : Unit36) (a : SArgs) (s : State) : Res :=
  .next (vxeSet u (.vxeRdvl u a) (fun r => r.setS a.sx (BitVec.ofNat 64 r.vl)) s)
def execVxeVtos (u : Unit36) (a : SArgs) (s : State) : Res := .next (vxeRun u (.vxeVtos u a) (fun r => vVtos r a) s)
def execVxeStov (u : Unit36) (a : SArgs) (s : State) : Res := .next (vxeRun u (.vxeStov u a) (fun r => vStov r a) s)

/-! ### Masks (R192) -/
def execVxeMskAnd (u : Unit36) (a : MArgs) (s : State) : Res :=
  .next (vxeRun u (.vxeMskAnd u a) (fun r => vMask r a fun x y => x &&& y) s)
def execVxeMskOr (u : Unit36) (a : MArgs) (s : State) : Res :=
  .next (vxeRun u (.vxeMskOr u a) (fun r => vMask r a fun x y => x ||| y) s)
def execVxeMskXor (u : Unit36) (a : MArgs) (s : State) : Res :=
  .next (vxeRun u (.vxeMskXor u a) (fun r => vMask r a fun x y => x ^^^ y) s)
def execVxeMskAndn (u : Unit36) (a : MArgs) (s : State) : Res :=
  .next (vxeRun u (.vxeMskAndn u a) (fun r => vMask r a fun x y => x &&& ~~~y) s)
def execVxeMskNot (u : Unit36) (a : MArgs) (s : State) : Res :=
  .next (vxeRun u (.vxeMskNot u a) (fun r => vMask r a fun x _ => ~~~x) s)
def execVxeMskSet (u : Unit36) (a : MArgs) (s : State) : Res :=
  .next (vxeRun u (.vxeMskSet u a) (fun r => vMask r a fun _ _ => BitVec.allOnes 2048) s)
def execVxeMskClr (u : Unit36) (a : MArgs) (s : State) : Res :=
  .next (vxeRun u (.vxeMskClr u a) (fun r => vMask r a fun _ _ => 0) s)

/-! ### Scalars (R192) -/
def execVxeSclAddi (u : Unit36) (a : SArgs) (s : State) : Res :=
  .next (vxeSet u (.vxeSclAddi u a) (fun r => r.setS a.sx (r.sreg a.sy + sArgsImm a)) s)
def execVxeSclAdd (u : Unit36) (a : SArgs) (s : State) : Res :=
  .next (vxeRun u (.vxeSclAdd u a) (fun r => vScalar r a fun x y => x + y) s)
def execVxeSclSub (u : Unit36) (a : SArgs) (s : State) : Res :=
  .next (vxeRun u (.vxeSclSub u a) (fun r => vScalar r a fun x y => x - y) s)
def execVxeSclAnd (u : Unit36) (a : SArgs) (s : State) : Res :=
  .next (vxeRun u (.vxeSclAnd u a) (fun r => vScalar r a fun x y => x &&& y) s)
def execVxeSclOr (u : Unit36) (a : SArgs) (s : State) : Res :=
  .next (vxeRun u (.vxeSclOr u a) (fun r => vScalar r a fun x y => x ||| y) s)
def execVxeSclXor (u : Unit36) (a : SArgs) (s : State) : Res :=
  .next (vxeRun u (.vxeSclXor u a) (fun r => vScalar r a fun x y => x ^^^ y) s)
def execVxeSclSlli (u : Unit36) (a : SArgs) (s : State) : Res :=
  .next (vxeSet u (.vxeSclSlli u a) (fun r => r.setS a.sx (r.sreg a.sy <<< (a.imm.toNat % 64))) s)
def execVxeSclSrli (u : Unit36) (a : SArgs) (s : State) : Res :=
  .next (vxeSet u (.vxeSclSrli u a) (fun r => r.setS a.sx (r.sreg a.sy >>> (a.imm.toNat % 64))) s)
def execVxeSclSrai (u : Unit36) (a : SArgs) (s : State) : Res :=
  .next (vxeSet u (.vxeSclSrai u a) (fun r => r.setS a.sx ((r.sreg a.sy).sshiftRight (a.imm.toNat % 64))) s)
def execVxeSclLih (u : Unit36) (a : SArgs) (s : State) : Res :=
  .next (vxeSet u (.vxeSclLih u a) (fun r => r.setS a.sx ((r.sreg a.sx <<< 15) ||| a.imm.setWidth 64)) s)
def execVxeSclMul (u : Unit36) (a : SArgs) (s : State) : Res :=
  .next (vxeRun u (.vxeSclMul u a) (fun r => vScalar r a fun x y => x * y) s)

/-! ### Branches (R192) -/

/-- A branch completes and the PC takes its target. -/
def vxeBranch (u : Unit36) (i : Instr) (a : SArgs) (taken : Word → Word → Bool) (s : State) : State :=
  if s.vxeAt u i then
    let v := s.vxeOf u.die u.bay
    let s := s.setVxe u.die u.bay { v with regs := { v.regs with pc := vBranch v.regs a taken } }
    (s.incF u.die (pgVxe u.bay) 0x090 0 64 1).progress u.die u.bay
  else s

def execVxeBeq (u : Unit36) (a : SArgs) (s : State) : Res := .next (vxeBranch u (.vxeBeq u a) a (fun x y => x == y) s)
def execVxeBne (u : Unit36) (a : SArgs) (s : State) : Res := .next (vxeBranch u (.vxeBne u a) a (fun x y => x != y) s)
def execVxeBlt (u : Unit36) (a : SArgs) (s : State) : Res := .next (vxeBranch u (.vxeBlt u a) a (fun x y => x.slt y) s)
def execVxeBge (u : Unit36) (a : SArgs) (s : State) : Res := .next (vxeBranch u (.vxeBge u a) a (fun x y => !(x.slt y)) s)
def execVxeBltu (u : Unit36) (a : SArgs) (s : State) : Res := .next (vxeBranch u (.vxeBltu u a) a (fun x y => x.ult y) s)
def execVxeJmp (u : Unit36) (a : SArgs) (s : State) : Res := .next (vxeBranch u (.vxeJmp u a) a (fun _ _ => true) s)

end Sys2Proof.Machine
end

