-- ==== Sys2Proof/Machine/VectorSync.lean ====
section
/-! DEFINITION. The vector engine's synchronisation and the ends of its programs (09 R203, R205, R208 to R210). -/

namespace Sys2Proof.Machine

/-- WAIT (R205): stalls, so has no effect yet, until the named slots have completed their pending deliveries. -/
def execVxeWait (u : Unit36) (a : SArgs) (s : State) : Res :=
  .next <|
    let r := (s.vxeOf u.die u.bay).regs
    let mask := (r.sreg a.sx).toNat % 2 ^ 32
    if s.vxeAt u (.vxeWait u a) && s.waitDone u.die u.bay mask then (s.waitMarks u.die u.bay mask).vxeNext u.die u.bay r else s

/-- SIGNAL (R205, R219). -/
def execVxeSignal (u : Unit36) (a : SArgs) (s : State) : Res :=
  .next <|
    if s.vxeAt u (.vxeSignal u a) then
      (s.signalGo u.die u.bay (a.imm.toNat % 32)).vxeNext u.die u.bay (s.vxeOf u.die u.bay).regs
    else s

/-- SEMWAIT and SEMADD: a misaligned address is a format fault, CAUSE 6. -/
def vxeSem (u : Unit36) (i : Instr) (a : SArgs) (add : Bool) (s : State) : State :=
  if s.vxeAt u i then
    let r := (s.vxeOf u.die u.bay).regs
    let addr := (r.sreg a.sx).toNat % 2 ^ 52
    if addr % 8 ≠ 0 then s.vxeFault u.die u.bay 6
    else s.engineSem u.die u.bay true add addr (r.sreg a.sy).toNat
  else s

def execVxeSemwait (u : Unit36) (a : SArgs) (s : State) : Res := .next (vxeSem u (.vxeSemwait u a) a false s)
def execVxeSemadd (u : Unit36) (a : SArgs) (s : State) : Res := .next (vxeSem u (.vxeSemadd u a) a true s)

/-- The registers a program starts with (Table 9-1): vector and mask registers stay as they are. -/
def VecProg.start (p : VecProg) (r : VxeRegs) : VxeRegs :=
  let scal := (List.range p.scalars.length).foldl (fun (q : VxeRegs) i => q.setS (i + 1) (p.scalars.getD i 0)) {}
  { scal with v := r.v, m := r.m }

/-- The next program of the bay starts, or the last has reached END (R203). -/
def Vxe.nextProg (v : Vxe) : Vxe :=
  match v.queue with
  | [] => { v with prog := none, atEnd := true }
  | p :: q => { v with prog := some p, queue := q, regs := p.start v.regs }

/-- END (R203, R210, R237). -/
def execVxeEnd (u : Unit36) (a : SArgs) (s : State) : Res :=
  .next <|
    if s.vxeAt u (.vxeEnd u a) then
      let v := s.vxeOf u.die u.bay
      let pg := pgVxe u.bay
      let s := s.wrF u.die pg 0x088 0 5 (s.rdF u.die pg 0x088 0 5 ||| v.regs.vflags % 32)
      let s := s.wr u.die pg 0x080 (s.vxeProg u.die u.bay)
      let s := ((s.incF u.die pg 0x090 0 64 1).stalls u.die pg [0x098, 0x0A0]).progress u.die u.bay
      (s.setVxe u.die u.bay v.nextProg).endCancel u.die u.bay
    else s

/-- R209: an event against the bay; the VXE runs on and the step is not certified. -/
def execVxeRegParityError (d : Die) (b : Bay) (s : State) : Res :=
  .next (((s.setErr d (pgVxe b) 10).histEvent 1 d b 2).noCertBay d b 6)

end Sys2Proof.Machine
end

