-- ==== Sys2Proof/Machine/Blocks.lean ====
section
/-! DEFINITION. Enabling, closing and pausing blocks (05 R90, R97 to R99; 06 R126, R127; 09 R212; 10 R239; 13 R309). -/

namespace Sys2Proof.Machine

abbrev BRes := Host.Outcome State Fault Refusal

/-! ### Block states (Table 5-9) -/

def State.blkSt (s : State) (d pg : Nat) : Nat := s.rdF d pg 0x018 0 3
/-- ENABLE and HW_HOLD. -/
def State.enabled (s : State) (d pg : Nat) : Bool := s.rdF d pg 0x020 0 1 = 1
def State.hwHold (s : State) (d pg : Nat) : Bool := s.rdF d pg 0x018 4 1 = 1

/-- ENABLE_PENDING: in OPENING or CLOSING, the held value would reverse the direction. DESIGN CHOICE (entry 167): it reads 0 in
CLOSING under HW_HOLD, where an ENABLE of 1 does not reopen the block. -/
def State.syncPend (s : State) (d pg : Nat) : State :=
  let st := s.blkSt d pg
  let up := s.enabled d pg && !(s.hwHold d pg)
  s.wrF d pg 0x018 3 1 (if (st = 3 ∧ up = true) ∨ (st = 1 ∧ s.enabled d pg = false) then 1 else 0)

/-- Set BLK_STATE.STATE. -/
def State.setBlkSt (s : State) (d pg v : Nat) : State := (s.wrF d pg 0x018 0 3 v).syncPend d pg

/-- CLOSING begins: an SU cancels every slot (R239), a port sends what its retry buffer holds (R309). -/
def State.beginClose (s : State) (d pg : Nat) : State :=
  let s := s.setBlkSt d pg 3
  match pageKind d pg with
  | some .su => (s.cancelBay d (pg - 0x30)).setErr d pg 13
  | some .cp => s.resend (5 * d + (pg - 0x50)) none
  | _ => s

/-- OPENING begins. -/
def State.beginOpen (s : State) (d pg : Nat) : State := s.setBlkSt d pg 1

/-- Is the page's link in RETRAIN, which holds a close (R308)? -/
def State.retraining (s : State) (d pg : Nat) : Bool := pageKind d pg = some .cp && s.rdF d pg 0x028 0 3 = 5

/-- What a write that reached BLK_CTRL does to the block's state (R97 to R99). A close by origin HW sets HW_HOLD. -/
def State.enableEffect (s : State) (d pg : Nat) (o : Origin) : State :=
  let st := s.blkSt d pg
  let on := s.enabled d pg
  let s := if o = .hw ∧ on = false ∧ 1 ≤ st ∧ st ≤ 3 then s.wrF d pg 0x018 4 1 1 else s
  if st = 0 ∧ on = true ∧ s.hwHold d pg = false then s.beginOpen d pg
  else if st = 2 ∧ on = false ∧ s.retraining d pg = false then s.beginClose d pg
  else s.syncPend d pg

/-- A write of BLK_CTRL that changes one bit. -/
def State.ctrlBit (s : State) (w : Writer) (d pg bit v : Nat) : Committed :=
  s.write1 d pg 0x020 w (putBits (s.rd d pg 0x020) bit 1 v)

/-- BLOCK_ENABLE. -/
def execBlockEnable (w : Writer) (d : Die) (pg : BitVec 8) (s : State) : BRes :=
  .next ((s.ctrlBit w d pg.toNat 0 1).then_ fun s => s.enableEffect d pg.toNat w.origin)

/-- BLOCK_DISABLE. -/
def execBlockDisable (w : Writer) (d : Die) (pg : BitVec 8) (s : State) : BRes :=
  .next ((s.ctrlBit w d pg.toNat 0 0).then_ fun s => s.enableEffect d pg.toNat w.origin)

/-- A slot as OPENING leaves it: IDLE; its list, units and counts are those of the step, which ends for a slot that was
ABORTED (R230, R235, R239). -/
def SuSlot.opened (x : SuSlot) : SuSlot :=
  { x with st := .idle, ended := x.ended || x.st = .aborted, refetch := false, part := {}, owes := false }

/-- What OPENING does to the block (R126, R212, R239). -/
def State.opened (s : State) (d pg : Nat) : State :=
  match pageKind d pg with
  | some .mxe =>
    let b := pg - 0x10
    s.setMxe d b { s.mxeOf d b with bank := 0, acc := [], openBy := none, rows := 0, cols := 0, marked := false, drains := [] }
  | some .vxe =>
    let b := pg - 0x20
    let v := s.vxeOf d b
    let regs : VxeRegs := match v.prog with | some p => p.start {} | none => {}
    s.setVxe d b { v with regs := regs, amax := [] }
  | some .su => (List.range 32).foldl (fun s sl => s.setSlot d (pg - 0x30) sl (s.slotOf d (pg - 0x30) sl).opened) s
  | _ => s

/-- May OPENING end: for a port, the link is in VCT, ADMITTED or HELD (R309)? -/
def State.openReady (s : State) (d pg : Nat) : Bool :=
  pageKind d pg ≠ some .cp || [3, 4, 6].contains (s.rdF d pg 0x028 0 3)

/-- OPENING_COMPLETE: ON, counted in GEN, or CLOSING where ENABLE holds 0. DESIGN CHOICE (entry 132): a block that origin
HW closed during OPENING, and whose ENABLE was written 1 again before OPENING ended, goes ON with HW_HOLD 1, as Table 5-9
looks at the held ENABLE value only. -/
def execOpeningComplete (d : Die) (pg : BitVec 8) (s : State) : BRes :=
  .next <|
    let p := pg.toNat
    if s.blkSt d p ≠ 1 ∨ s.openReady d p = false then s
    else
      let s := s.opened d p
      if s.enabled d p then (s.setBlkSt d p 2).incF d p 0x048 0 32 1 else s.beginClose d p

/-- May CLOSING end: an SU's cancellations are complete? -/
def State.closeReady (s : State) (d pg : Nat) : Bool :=
  pageKind d pg ≠ some .su || (List.range 32).all fun sl => (s.slotOf d (pg - 0x30) sl).st ≠ .cancelling

/-- What CLOSING does to the block's work (R126, R212, R309). -/
def State.closed (s : State) (d pg : Nat) : State :=
  match pageKind d pg with
  | some .mxe => s.mxeDiscard d (pg - 0x10)
  | some .vxe => s.vxeDiscard d (pg - 0x20)
  | some .cp =>
    let p := 5 * d + (pg - 0x50)
    let s := if (2 ≤ s.linkSt p ∧ s.linkSt p ≤ 4) ∨ s.linkSt p = 6 then s.lctrl p 2 5 else s
    s.linkDown p
  | _ => s

/-- CLOSING_COMPLETE: OFF, or OPENING where ENABLE holds 1 and HW_HOLD is 0. -/
def execClosingComplete (d : Die) (pg : BitVec 8) (s : State) : BRes :=
  .next <|
    let p := pg.toNat
    if s.blkSt d p ≠ 3 ∨ s.closeReady d p = false then s
    else
      let s := s.closed d p
      if s.enabled d p && !(s.hwHold d p) then s.beginOpen d p else s.setBlkSt d p 0

/-- HW_HOLD_CLEAR: the condition of R99 has cleared. -/
def execHwHoldClear (d : Die) (pg : BitVec 8) (s : State) : BRes :=
  .next <|
    let p := pg.toNat
    if s.hwHold d p = false then s
    else
      let s := s.wrF d p 0x018 4 1 0
      if s.blkSt d p = 0 ∧ s.enabled d p = true then s.beginOpen d p else s.syncPend d p

/-- CLR_COUNT. -/
def execClrCount (w : Writer) (d : Die) (pg : BitVec 8) (s : State) : BRes :=
  .next ((s.ctrlBit w d pg.toNat 1 1).then_ fun s =>
    (s.wrF d pg.toNat 0x040 0 32 0).enableEffect d pg.toNat w.origin)

/-! ### Pausing -/

/-- A write of BLK_CTRL.PAUSE, which the engines read where they issue. -/
def State.pauseBit (s : State) (w : Writer) (d pg v : Nat) : State :=
  (s.ctrlBit w d pg 8 v).then_ fun s => s.enableEffect d pg w.origin

def execMxePause (w : Writer) (d : Die) (b : Bay) (s : State) : BRes := .next (s.pauseBit w d (pgMxe b) 1)
def execMxeUnpause (w : Writer) (d : Die) (b : Bay) (s : State) : BRes := .next (s.pauseBit w d (pgMxe b) 0)
def execVxePause (w : Writer) (d : Die) (b : Bay) (s : State) : BRes := .next (s.pauseBit w d (pgVxe b) 1)
def execVxeUnpause (w : Writer) (d : Die) (b : Bay) (s : State) : BRes := .next (s.pauseBit w d (pgVxe b) 0)
def execSuPause (w : Writer) (d : Die) (b : Bay) (s : State) : BRes := .next (s.pauseBit w d (pgSu b) 1)
def execSuUnpause (w : Writer) (d : Die) (b : Bay) (s : State) : BRes := .next (s.pauseBit w d (pgSu b) 0)

end Sys2Proof.Machine
end

