-- ==== Sys2Proof/Machine/HangOps.lean ====
section
/-! DEFINITION. Watchdog limits, suspects, captures and lost sectors (18 R389 to R397). -/

namespace Sys2Proof.Machine

/-! ### Limits and suspects (R391, R397) -/

/-- The context that runs on a bay; none where it runs none, or where no context was switched to it and no book is active
or it holds no logical number. -/
def State.ctxOn (s : State) (d b : Nat) : Option Nat :=
  let v := Tab.get 0 s.ctx.bays (bayKey d b)
  if v = 4097 then none
  else if v ≠ 0 then some (v - 1)
  else if s.books.active.isSome ∧ (s.lbayOf d b).isSome then some (s.bayCtx d b) else none

/-- EXP_TILE_NS of the layer of the descriptor at the head of the MXE's list, 1,000 at END. -/
def State.expTile (s : State) (d b : Nat) : Nat :=
  match (s.mxeOf d b).work with
  | [] => 1000
  | r :: _ => ((s.layerOf r).map (·.2.expNs)).getD 1000

/-- The limit L of a bay in ns, by RST.WD_CFG. -/
def State.wdLimit (s : State) (d b : Nat) : Nat :=
  let v := s.rd 0 pgRst 0x100
  if s.isBook d b then
    let f := opFreq (s.opNow (s.rdF d pgPwr 0x0C8 33 3))
    max (1000 * clampTo 10 1000 (bitsOf v 8 10)) (max 4 (bitsOf v 0 8) * s.expTile d b * 1500 / f)
  else 1000000 * max 1 (min 1000 (bitsOf v 18 10))

/-- REPLAY_MS in ns. -/
def State.replayNs (s : State) : Nat := 1000000 * max 1 (s.rdF 0 pgRst 0x100 28 8)

/-- The suspects of a bay, in order of admission: the context that runs, those that take turns, those that ran within
the limit. -/
def State.suspects (s : State) (d b : Nat) : List Nat :=
  let turns := ((s.inRes d 2).map (·.1)).filter fun id =>
    (s.ctxOf id).st = 2 && ((s.ctxOf id).onBay d b && (!(s.ctxOf id).book || (s.lbayOf d b).isSome))
  let ran := ((Tab.get [] s.hang.ran (bayKey d b)).filter fun x => decide (s.now d ≤ x.2 + s.wdLimit d b)).map (·.1)
  let all := (s.ctxOn d b).toList ++ turns ++ ran
  let admitted := ((s.inRes d 2).map (·.1)).filter fun id => all.contains id
  (admitted ++ all).eraseDups

/-! ### The capture (R394, Tables 18-2 and 18-3) -/

/-- Values of a page's registers from one offset to another, 8 bytes each. -/
def State.pageBytes (s : State) (d pg lo hi : Nat) : List Byte :=
  (List.range ((hi - lo) / 8 + 1)).flatMap fun i => leBytes 8 (s.view d pg (lo + 8 * i))

/-- What the engines of a bay wait in (section SYNC): kind, address or mask, value. -/
def State.syncEntries (s : State) (d b : Nat) : List (Nat × Nat × Nat) :=
  let m := s.mxeOf d b
  let head := (m.work.head?).bind s.tileOf
  let mx : List (Nat × Nat × Nat) := match m.gate, head with
    | some g, _ => [(5, g, 0)]
    | none, some t =>
      if m.syncing then [(1, t.semAddr, t.semValue)]
      else if s.waitDone d b t.waitMask = false then [(3, t.waitMask, 0)]
      else if t.opcode = 2 ∧ s.gatherWaits d b = true then [(6, 0, 0)] else []
    | none, none => []
  let v := s.vxeOf d b
  let w := ((v.prog.bind fun p => p.insns[v.regs.pc]?).map (·.toNat)).getD 0
  let x := (v.regs.sreg (vf w 19 4)).toNat
  mx ++ (if v.syncing ∧ vf w 23 9 = 0xA * 32 + 0x0A then [(2, x, (v.regs.sreg (vf w 15 4)).toNat)]
    else if v.prog.isSome ∧ vf w 23 9 = 0xA * 32 + 0x08 ∧ s.waitDone d b (x % 2 ^ 32) = false then [(4, x % 2 ^ 32, 0)]
    else [])

/-- Sections 1 to 5 of a bay. The accumulators' layout in their banks and SINCE are open: free bytes (entry 34). -/
def State.baySections (s : State) (d b : Nat) : List (Nat × List Byte) × State :=
  let sync := s.syncEntries d b
  let free := s.freeBytes (131072 + 8 * sync.length)
  let m := s.mxeOf d b
  let v := s.vxeOf d b
  let ixs := (m.work.take 5).map (·.ix)
  let progs := ((v.prog.toList ++ v.queue).map (·.progId)).flatMap (leBytes 4)
  ([(1, s.pageBytes d (pgMxe b) 0x028 0x0F8 ++ free.take 131072),
    (2, s.pageBytes d (pgVxe b) 0x028 0x0B8 ++ v.regs.bytes),
    (3, s.pageBytes d (pgSu b) 0x100 0x8F8 ++ leBytes 8 (s.view d (pgSu b) 0x090)),
    (4, ((ixs ++ List.replicate (5 - ixs.length) 0xFFFFFFFF).flatMap (leBytes 4)) ++ progs),
    (5, (List.range sync.length).flatMap fun i =>
      let e := sync.getD i (0, 0, 0)
      leBytes 8 e.1 ++ leBytes 8 e.2.1 ++ leBytes 8 e.2.2 ++ (free.drop (131072 + 8 * i)).take 8)],
   s.took (131072 + 8 * sync.length))

/-- Section TRACK: the resident contexts of a die. -/
def State.trackSection (s : State) (d : Nat) : List Byte :=
  (s.inRes d 2).flatMap fun x =>
    leBytes 2 x.1 ++ leBytes 1 (s.ctxGen x.1) ++ leBytes 1 x.2.res ++ leBytes 4 (s.tracksOn d fun e => e.ctx = x.1)

/-- Section SUSPECTS of a bay: `failed` says that the forced save of the running context failed. -/
def State.suspectSection (s : State) (d b : Nat) (failed : Bool) : List Byte :=
  (s.suspects d b).flatMap fun id =>
    let run := s.ctxOn d b = some id
    leBytes 2 id ++ leBytes 1 (s.ctxGen id) ++
      leBytes 1 (bitAt run 0 + bitAt (s.ctxOf id).book 1 + bitAt (run && failed) 2)

/-- Write a capture into its slot, and show it in HANG_LAST. One of a bay holds that bay's sections; one of a larger domain
holds those of the die's 9 bays, and of `bay` the suspects only. LAST_PROGRESS of a die, or of a bay that made none, and
the running context in HANG_LAST where none runs, are open (entry 34): free values. -/
def State.capture (s : State) (trigger dom d : Nat) (bay : Option Nat) (lost : List (Nat × Nat)) (failed : Bool) : State :=
  let seq := Tab.get 0 s.fw.capNext d
  let one := if dom = 1 then bay else none
  let ctx := one.bind (s.ctxOn d)
  let bays := match one with | some b => [b] | none => List.range 9
  let r := bays.foldl (fun (a : List (Nat × List Byte) × State) b =>
    let x := a.2.baySections d b
    (a.1 ++ x.1, x.2)) ([], s)
  let s := r.2
  let secs := r.1 ++ [(6, s.trackSection d)] ++
    (if lost.isEmpty then [] else [(7, lost.flatMap fun x => leBytes 8 x.1 ++ leBytes 4 x.2 ++ leBytes 4 0)]) ++
    (match bay with | some b => [(8, s.suspectSection d b failed)] | none => [])
  let c : Capture := ⟨seq, s.now d, s.stepNum, s.epoch, dom, d, one.getD 0xFF, trigger, ctx.getD 0xFFFF,
    (ctx.map s.ctxGen).getD 0, (one.bind fun b => Tab.find s.hang.last (bayKey d b)).getD s.free.toNat, secs⟩
  let run := ctx.getD ((s.took 1).free.toNat % 4096)
  let s := { s.took 2 with fw := { s.fw with
    captures := Tab.put s.fw.captures (d * 4 + seq % 4) c, capNext := Tab.set 0 s.fw.capNext d (seq + 1) } }
  s.wr 0 pgRst 0x110 (seq % 2 ^ 32 + d * 2 ^ 32 + one.getD 0xF * 2 ^ 34 + trigger * 2 ^ 38 + run % 4096 * 2 ^ 42)

/-- Pad to a multiple of 8. -/
def pad8 (bs : List Byte) : List Byte := bs ++ List.replicate ((8 - bs.length % 8) % 8) 0

/-- The bytes of a capture. -/
def Capture.bytes (c : Capture) : List Byte :=
  let body := c.sections.flatMap fun x => leBytes 4 x.1 ++ leBytes 4 x.2.length ++ pad8 x.2
  let head := [0x4F, 0x4C, 0x48, 0x43] ++ leBytes 2 1 ++ leBytes 2 64 ++ leBytes 4 (64 + body.length) ++ leBytes 4 c.seq ++
    leBytes 8 c.time ++ leBytes 8 (c.step % 2 ^ 48 + c.epoch % 256 * 2 ^ 48) ++ leBytes 1 c.domain ++ leBytes 1 c.die ++
    leBytes 1 c.unit ++ leBytes 1 c.trigger ++ leBytes 2 c.ctx ++ leBytes 1 c.gen ++ leBytes 1 c.sections.length ++
    leBytes 8 c.progress ++ leBytes 12 0
  head ++ leBytes 4 (crc32 head) ++ body

/-! ### Lost sectors (R396) -/

/-- The dirty sectors of a die that a hung cache, or a stalled stack, loses. -/
def State.lostSectors (s : State) (d : Nat) (stack : Option Nat) : List Nat :=
  (s.mem.dirty.filter fun e => secDie e.1 = d && (match stack with
    | none => true
    | some t => (placeKey (e.1 * 64)).stack = t)).map (·.1)

/-- Lose sectors: every later read fails its check, and each range is logged (R269). -/
def State.loseSectors (s : State) (secs : List Nat) : State :=
  let s := secs.foldl State.markBad s
  let s := { s with mem := { s.mem with dirty := Tab.keep (fun k => !(secs.contains k)) s.mem.dirty } }
  s.foundBad secs false

end Sys2Proof.Machine
end

