-- ==== Sys2Proof/Machine/Messages.lean ====
section
/-! DEFINITION. The headers of messages (20 R426, R430, R431; 21 R451), and fuse blows that a reset or a power-down cuts short
(21 R442, R453). -/

namespace Sys2Proof.Machine

/-! ### Headers (Tables 20-6, 20-8, 21-4) -/

def Msg.type (m : Msg) : Nat := fieldAt m.bytes 2 2
def Msg.api (m : Msg) : Nat := fieldAt m.bytes 4 2
def Msg.len (m : Msg) : Nat := fieldAt m.bytes 6 2
def Msg.seq (m : Msg) : Nat := fieldAt m.bytes 8 4
/-- A field of the body. -/
def Msg.arg (m : Msg) (off n : Nat) : Nat := fieldAt m.bytes (0x10 + off) n
/-- Bytes of the body. -/
def Msg.part (m : Msg) (off n : Nat) : List Byte := slice m.bytes (0x10 + off) n

/-- A message type: the lengths its body may have, whether mailboxes 0 to 13 and mailbox 15 take it, whether SYS may
send it, and whether MGMT may. -/
structure MsgKind where
  lens : List Nat
  low  : Bool := true
  top  : Bool := true
  sys  : Bool := true
  mgmt : Bool := true
  deriving DecidableEq, Repr

/-- The catalogue: Tables 20-8 and 21-4. -/
def msgKind (t : Nat) : Option MsgKind :=
  match t with
  | 0x0001 => some { lens := [0] }
  | 0x0002 => some { lens := [6], low := false }
  | 0x0003 => some { lens := [10] }
  | 0x0004 => some { lens := [8], top := false, mgmt := false }
  | 0x0005 => some { lens := [1], top := false, mgmt := false }
  | 0x0010 => some { lens := [20] }
  | 0x0011 => some { lens := [21] }
  | 0x0012 => some { lens := [20] }
  | 0x0013 => some { lens := [13] }
  | 0x0014 => some { lens := [9] }
  | 0x0015 => some { lens := [33] }
  | 0x0016 => some { lens := [16] }
  | 0x0020 => some { lens := [12], low := false }
  | 0x0021 => some { lens := [0], low := false }
  | 0x0022 => some { lens := [0], low := false }
  | 0x0101 => some { lens := [40] }
  | 0x0102 => some { lens := [8] }
  | 0x0103 => some { lens := [117, 133], low := false, sys := false }
  | 0x0104 => some { lens := [1], low := false, sys := false }
  | 0x0105 => some { lens := [68], low := false, sys := false }
  | 0x0106 => some { lens := [1], low := false, sys := false }
  | 0x0107 => some { lens := [0], low := false, sys := false }
  | 0x0108 => some { lens := [3], low := false, sys := false }
  | 0x0109 => some { lens := [68], low := false }
  | _ => none

/-- The type's row, where this mailbox takes it. -/
def kindAt (n t : Nat) : Option MsgKind := (msgKind t).filter fun k => if n = 15 then k.top else k.low

/-- API major and minor of the running firmware (R430). -/
def State.fwApi (s : State) : Nat := s.rdF 0 pgMgc 0x080 16 16

/-- The status with which the header alone ends a message (Table 20-7; the order of the checks is entry 38). -/
def State.headerStatus (s : State) (n : Nat) (m : Msg) : Option Nat :=
  if fieldAt m.bytes 0 1 ≠ 1 then some 3
  else match kindAt n m.type with
    | none => some 4
    | some k =>
      if m.type ≠ 0x0001 ∧ m.api / 256 ≠ s.fwApi / 256 then some 3
      else if (m.w.origin = .sys ∧ k.sys = true ∨ m.w.origin = .mgmt ∧ k.mgmt = true) = false then some 7
      else if k.lens.contains m.len = false then some 5
      else none

/-- The message's API has the firmware's major and another minor (R430). -/
def State.badMinor (s : State) (m : Msg) : Bool := m.type ≠ 0x0001 && m.api / 256 = s.fwApi / 256 && m.api ≠ s.fwApi

/-! ### Fuse blows cut short (21 R442, Table 21-6) -/

/-- May an owner slot be enrolled: neither valid nor revoked, and no bit of its hash blown (R442, R451)? -/
def Fuses.fresh (f : Fuses) (n : Nat) : Bool :=
  bitsOf f.ownerValid.toNat n 1 = 0 && bitsOf f.ownerRevoke.toNat n 1 = 0 && Tab.get 0 f.ownerHash n = 0

/-- Is a slot the last usable one? -/
def Fuses.lastUsable (f : Fuses) (n : Nat) : Bool := f.usable n && ((List.range 4).filter f.usable).length = 1

/-- The rights that a PROT_REMOVE names, as PROT_REMOVE's bits have them. -/
def Msg.rights (m : Msg) : BitVec 13 := BitVec.ofNat 13 (m.arg 1 1 + m.arg 2 1 * 256)

/-- The fuses after the first bits of a message's blow, `j` saying how many: bits are blown in order, VALID last; `r` is the
running image's ROLLBACK. A message that blows nothing leaves them. -/
def Fuses.cut (f : Fuses) (m : Msg) (r j : Nat) : Fuses :=
  let n := m.arg 0 1
  match m.type with
  | 0x0105 =>
    if 4 ≤ n ∨ f.fresh n = false then f
    else { f with ownerHash := Tab.set 0 f.ownerHash n (BitVec.ofNat 256 (leNat (sm3 (m.part 4 64)) % 2 ^ (j % 257))) }
  | 0x0106 =>
    if 4 ≤ n ∨ f.lastUsable n = true ∨ j % 2 = 0 then f
    else { f with ownerRevoke := f.ownerRevoke ||| BitVec.ofNat 4 (2 ^ n) }
  | 0x0107 => { f with fwRollback := f.fwRollback ||| BitVec.ofNat 64 (2 ^ (f.rollback + j % (r + 1 - f.rollback)) - 1) }
  | 0x0108 =>
    if 32 ≤ m.arg 1 1 ∨ 32 ≤ m.arg 2 1 then f
    else { f with protRemove := Tab.upd 0 f.protRemove n (· ||| (m.rights &&& BitVec.ofNat 13 (2 ^ (j % 14) - 1))) }
  | _ => f

/-- ROLLBACK of the running image, as far as the counter goes. -/
def State.imageRollback (s : State) : Nat := min 64 (fieldAt s.fw.image 0x0C 4)

/-- The message at mailbox 15 whose blow may be under way: accepted, with a header that passes, and no emergency. -/
def State.blowing (s : State) : Option Msg :=
  if s.rdF 0 pgMbx 0x100 30 2 = 1 ∧ s.comp 0 4 = 1 ∧ s.emergency = false then
    (Tab.find s.fw.cur 15).filter fun m => 0x0105 ≤ m.type && m.type ≤ 0x0108 && (s.headerStatus 15 m).isNone
  else none

/-- A whole-device reset or an orderly power-down cuts a blow short (Table 21-6): how many bits it has blown is open (a free
value; entry 173). -/
def State.blowCut (s : State) : State :=
  match s.blowing with
  | some m =>
    ({ s with sec := { s.sec with fuses := s.sec.fuses.cut m s.imageRollback s.free.toNat } }).took 1
  | none => s

end Sys2Proof.Machine
end

