-- ==== Sys2Proof/Machine/Resets.lean ====
section
/-! DEFINITION. Reset requests and what a reset of a domain does (04 R78 to R81; 05 R100, R467; 12 R469; 18 R395,
R396). -/

namespace Sys2Proof.Machine

/-! ### Domains -/

/-- A reset domain as RST.REQ names it: DOMAIN, DIE, UNIT. -/
abbrev DomId := Nat × Nat × Nat

/-- Pages of the MGC island, which only a whole-device reset or power-on resets. -/
def mgcPages : List Nat := [pgDie, pgRst, pgStp, pgProt, pgChg, pgPwr, pgMgc, pgMbx]

/-- Does a domain contain a page's island (Tables 4-3, 5-12)? -/
def domPage (x : DomId) (d pg : Nat) : Bool :=
  match x.1 with
  | 1 => d = x.2.1 && 0x10 ≤ pg && pg ≤ 0x38 && pg % 16 = x.2.2
  | 2 => d = x.2.1 && pg = 0x50 + x.2.2
  | 4 => d = x.2.1 && !(mgcPages.contains pg)
  | 5 => true
  | _ => false

/-- Does domain `a` contain domain `b` (R78)? -/
def domHolds (a b : DomId) : Bool :=
  match a.1 with
  | 5 => true
  | 4 => b.1 ≠ 5 && b.2.1 = a.2.1
  | _ => a = b

/-- Pages of a die that are present. -/
def diePages (d : Nat) : List Nat := (List.range 256).filter fun pg => (pageKind d pg).isSome

/-- Pages in a domain. -/
def domPages (x : DomId) : List (Nat × Nat) :=
  (List.range 4).flatMap fun d => ((diePages d).filter (domPage x d)).map fun pg => (d, pg)

def ResetRun.id (r : ResetRun) : DomId := (r.dom, r.die, r.unit)

/-! ### Registers through resets (R467) -/

/-- Registers that Table 5-12 names as kept. GEN counts on (Table 5-2; entry 7). -/
def keptThrough (d : Nat) (k : PageKind) (off : Nat) : Bool :=
  off = 0x048 ||
  match k with
  | .tim => off = 0x080 || (0x090 ≤ off && off ≤ 0x0A0)
  | .wit => d = 0 && 0x0A0 ≤ off && off ≤ 0x118
  | .cue => [0x098, 0x0A0, 0x0B0, 0x0C8, 0x0D0].contains off
  | .mxe => off = 0x080
  | .shc => 0x080 ≤ off && off ≤ 0x0A8
  | .apr => off = 0x088 || off = 0x0A8 || off = 0x0B0
  | .cp => 0x088 ≤ off && off ≤ 0x0A0
  | .rtr => 0x080 ≤ off && off < 0x0C0
  | .apc => [0x080, 0x420, 0x450].contains off
  | _ => false

/-- The bits of a register that a reset of its domain keeps: RW and RWL fields but ENABLE, and of RTR.BLK_STAT the
bits TGEN, OLD_KEPT and FLOWS_LOADED. -/
def keptBits (d : Nat) (k : PageKind) (off rw : Nat) : Nat :=
  if keptThrough d k off then maskN 64
  else if off = 0x020 then rw - rw % 2
  else if k = .rtr ∧ off = 0x028 then 3 + maskR 32 16
  else rw

/-- A register's value after a reset of its domain. -/
def resetValue (d pg off v : Nat) : Nat :=
  match pageKind d pg with
  | none => 0
  | some k =>
    let i := regInfo d pg off
    let m := keptBits d k off i.rw
    (v &&& m) ||| (i.reset &&& (maskN 64 ^^^ m))

/-- Reset the registers of a page. -/
def State.resetPage (s : State) (d pg : Nat) : State :=
  let here := s.regs.filter fun e => rkDie e.1 = d && rkPage e.1 = pg
  here.foldl (fun s e => s.wr d pg (rkOff e.1) (resetValue d pg (rkOff e.1) e.2.toNat)) s

/-- A page's block goes to IN_RESET, counted in GEN. -/
def State.pageIn (s : State) (d pg : Nat) : State := ((s.resetPage d pg).wrF d pg 0x018 0 5 4).incF d pg 0x048 0 32 1

/-- A page's block leaves reset: OFF. -/
def State.pageOut (s : State) (d pg : Nat) : State := s.wrF d pg 0x018 0 5 0

/-! ### Units (Table 16-1) -/

/-- A unit in service, in the wings or in an audition goes to RESET; a unit that is DARK stays so. -/
def State.unitIn (s : State) (k d ix : Nat) : State :=
  let u := s.unit k d ix
  if u = .dark ∨ u = .reset then s
  else
    let was := if u = .audition then UnitState.dark else u
    let s := { s with resets := { s.resets with units := Tab.put s.resets.units (unitKey k d ix) was } }
    s.setUnit k d ix .reset

/-- A unit leaves RESET in the state it held before. -/
def State.unitOut (s : State) (k d ix : Nat) : State :=
  match Tab.find s.resets.units (unitKey k d ix) with
  | none => s
  | some u => { s.setUnit k d ix u with resets := { s.resets with units := Tab.del s.resets.units (unitKey k d ix) } }

/-- The units of a die: kind, die, index. -/
def dieUnits (d : Nat) : List (Nat × Nat × Nat) :=
  ((List.range 9).map fun i => (0, d, i)) ++ ((List.range 9).map fun i => (1, d, i)) ++ (List.range 50).map fun i => (2, d, i)

/-- The units of a domain. -/
def domUnits (x : DomId) : List (Nat × Nat × Nat) :=
  match x.1 with
  | 1 => [(0, x.2)]
  | 3 => (List.range 9).map fun i => (1, x.2.1, i)
  | 4 => dieUnits x.2.1
  | 5 => (List.range 4).flatMap dieUnits
  | _ => []

/-! ### What is lost -/

/-- The part ends its step without a HALT (R395): it waits at its curtain and votes NOT_CERTIFIABLE. -/
def State.endQuiet (s : State) : State :=
  if s.stepState = 1 ∧ s.step.ended = none then
    let s := { s.noCert 6 with step := { (s.noCert 6).step with ended := some 6 } }
    s.wrF 0 pgStp 0x0B0 0 3 2
  else if s.stepState = 1 ∨ s.stepState = 2 then s.noCert 6 else s

/-- End the tracking entries that satisfy `p`, without a count (R285 rule 5). -/
def State.dropTracks (s : State) (p : Nat → Track → Bool) : State :=
  { s with ctx := { s.ctx with tracks := s.ctx.tracks.filter fun e => !(p (e.1 / 65536) e.2) } }

/-- Is a tracking entry a bay's? -/
def Track.ofBay (e : Track) (d b : Nat) : Bool :=
  match e.owner with
  | .mxe d' b' | .vxe d' b' | .slot d' b' _ | .gather d' b' => d' = d && b' = b
  | _ => false

/-- A bay loses its state: engines, slots, gather queue, staging. Checks on it are abandoned. -/
def State.bayLost (s : State) (d b : Nat) : State :=
  let s := s.dupAbandon fun j => j.pdie = d && j.pbay = b
  let s := if s.wingsBay d = some b then s.dupAbandon fun j => j.cdie = d && j.running else s
  let k0 := bayKey d b
  let s := s.dropTracks fun _ e => e.ofBay d b
  { s with mxe := Tab.set {} s.mxe k0 { atEnd := true }, vxe := Tab.set {} s.vxe k0 { atEnd := true }, gather := Tab.del s.gather k0,
           slots := Tab.keep (fun k => decide (k / 32 ≠ k0)) s.slots,
           staging := Tab.keep (fun k => decide (k / 2 ^ 23 ≠ k0)) s.staging }

/-- A port loses its state: its link goes DOWN; the neighbour's last hello and the admitted one stay. -/
def State.portLost (s : State) (p : Nat) : State :=
  let l := s.link p
  (s.linkDown p).setLink p { nbr := l.nbr, admitted := l.admitted, hello := l.hello, three := l.three, down := true }

/-- A context that ran on a bay has lost its state there: torn down by origin HW and logged, but for the book context
and suspects that a replay keeps (R469; for a bay reset alone by inference, entry 35). -/
def State.ctxLost (s : State) (d b : Nat) (keep : List Nat) : State :=
  match s.ctxOn d b with
  | none => s
  | some id =>
    if (s.ctxOf id).book ∨ keep.contains id ∨ (s.ctxOf id).st = 0 then s
    else (s.hwTeardown id).logAt d srcHw .stateLost [id, s.ctxGen id]

/-- Suspects that replays on a die keep. -/
def State.keptSuspects (s : State) (d : Nat) : List Nat := (s.hang.replays.filter fun r => r.die = d).flatMap fun r => r.trial.toList ++ r.left

/-- Residencies of a die after its partition reset (R469): RESIDENT and EVICTING contexts go OUT, and WAITING again
where they are RUNNABLE. -/
def State.residLost (s : State) (d : Nat) : State :=
  let s := (List.range 9).foldl (fun s b => s.setBayCtx d b 0) s
  (s.inRes d 2 ++ s.inRes d 3).foldl (fun s x =>
    let s := s.setResid d x.1 0 0
    if (s.ctxOf x.1).st = 2 then s.setResid d x.1 1 0 else s.stopCheck x.1) s

/-- A die loses its cache, watches, reduces and translations. -/
def State.cacheLost (s : State) (d : Nat) : State :=
  let die (k : Nat) : Bool := k / 2 ^ 38 % 4 = d
  { s with
    mem := { s.mem with
      cache := Tab.keep (fun k => decide (k / 256 / 50 ≠ d)) s.mem.cache,
      watches := Tab.del s.mem.watches d,
      redHeld := s.mem.redHeld.filter fun h => !(die h.key),
      reduce := Tab.keep (fun l => !(die (l * 256))) s.mem.reduce,
      parked := s.mem.parked.filter fun c => !(die (c.line * 256)) },
    ctx := { s.ctx with xlat := s.ctx.xlat.filter (fun x => x.die ≠ d), tabs := s.ctx.tabs.filter fun x => x.die ≠ d } }

/-- A partition reset of D0 leaves the Cue agent its view (Table 5-12); what it holds of the round is lost. -/
def State.agentLost (s : State) (d : Nat) : State :=
  if d ≠ 0 then s
  else { s with cue := { ranks := s.cue.ranks, pool := s.cue.pool, step := s.cue.step, encores := s.cue.encores,
                         after := s.cue.after, rehStep := s.cue.rehStep, rehDev := s.cue.rehDev, back := s.cue.back, lowers := s.cue.lowers, fNext := s.cue.fNext,
                         reh := s.cue.reh } }

/-- The mode of every stack of a die (APRt.BLK_STAT.MODE); a FAILED stack stays so. -/
def State.stackMode (s : State) (d v : Nat) : State :=
  foldNat 3 (fun s t => if s.rdF d (pgApr t) 0x028 0 2 = 3 then s else s.wrF d (pgApr t) 0x028 0 2 v) s

/-- The stacks of a die leave self-refresh, unless a trip, shedding step 6 or the power-down keeps them there (R64, R414). -/
def State.stackWake (s : State) (d : Nat) : State :=
  if s.alive d ∧ s.rdF d pgPwr 0x0E8 0 3 < 6 ∧ (s.resets.runs.any fun r => r.dom = 4 && r.die = d) = false then s.stackMode d 1
  else s

/-- The Ethernet queues of a die are disabled (R466); in a reset of the IO island their heads take 0 too. -/
def State.queuesOff (s : State) (d : Nat) (heads : Bool) : State :=
  let own (k : Nat) : Bool := k / 128 = d || (d = 0 && k / 128 = 4)
  let off (e : Nat × EthQ) : Nat × EthQ :=
    if own e.1 then (e.1, { e.2 with enable := false, head := if heads then 0 else e.2.head }) else e
  { s with io := { s.io with queues := s.io.queues.map off } }

/-- PCIE_PERST_N is low while D1's IO island is not ready (Table 22-4). -/
def State.perst (s : State) (d : Nat) (level : Bool) : State := if d = 1 then s.send (.pin .perstN level) else s

/-- An export ends ABANDONED (17 Table 17-1). -/
def State.ckptAbandon (s : State) : State :=
  match s.ckpt.run with
  | some r => if r.exporting then ({ s with ckpt := { s.ckpt with run := none } }).wrF 0 pgStp 0x238 0 3 6 else s
  | none => s

/-- A die partition's state is lost. -/
def State.partitionLost (s : State) (d : Nat) : State :=
  let keep := s.keptSuspects d
  let s := s.endQuiet.ckptAbandon
  let s := (List.range 9).foldl (fun s b => s.ctxLost d b keep) s
  let s := s.residLost d
  let s := (List.range 9).foldl (fun s b => s.bayLost d b) s
  let s := foldNat 5 (fun s i => s.portLost (5 * d + i)) s
  let s := s.dropTracks fun e _ => e = d
  ((((s.cacheLost d).agentLost d).queuesOff d true).perst d false).stackMode d 2

/-- What a flush writes to NOR (20 R423): the newest log entries and change records, the newest capture of each die. -/
def State.flushed (s : State) : Flush :=
  ⟨s.epoch, s.log.ring.take 1024, s.chg.map fun e => (e.1, e.2.recs.take 1024),
    (List.range 4).filterMap fun d => Tab.find s.fw.captures (d * 4 + (Tab.get 0 s.fw.capNext d + 3) % 4)⟩

/-- What a whole-device reset keeps: history, log and captures as flushed to NOR, the states of the units (Table 16-1), fuses, the update
slot, certificates and owner keys, the epoch, and what the hardware around the part is (R78, R423; entry 36). -/
def State.deviceLost (s : State) : State :=
  { pending := s.pending, freeIdx := s.freeIdx, sent := s.sent, sec := { s.sec with keys := [], tags := [] },
    units := s.units, history := s.history, dieEnv := s.dieEnv,
    power := { s.power with samples := [], low := 0, cleared := [], disagree := [], agree := [], hardAt := none, hot := false,
                            since := 0, phase := [], shed1 := false },
    fw := { lastSeq := s.fw.lastSeq, slot := s.fw.slot, slotDue := s.fw.slotDue, slotBad := s.fw.slotBad, flush := some s.flushed },
    resets := { straps := s.resets.straps, units := s.resets.units, stage := 0x10, warm := true },
    io := { mv := s.io.mv } }

/-! ### Requests (R80, R81) -/

/-- A valid unit of a domain (Table 4-8); units and dies that a domain ignores read as 0. -/
def domOf (dom d u : Nat) : Option DomId :=
  match dom with
  | 1 => if u ≤ 8 then some (1, d, u) else none
  | 2 => if u ≤ 4 then some (2, d, u) else none
  | 3 => some (3, d, 0)
  | 4 => some (4, d, 0)
  | 5 => some (5, 0, 0)
  | _ => none

/-- Show the resets in progress in RST.STAT. -/
def State.showReset (s : State) : State :=
  let s := s.wrF 0 pgRst 0x088 0 1 (if s.resets.runs.isEmpty then 0 else 1)
  match s.resets.runs with
  | r :: _ => ((s.wrF 0 pgRst 0x088 1 3 r.dom).wrF 0 pgRst 0x088 4 2 r.die).wrF 0 pgRst 0x088 6 4 r.unit
  | [] => s

/-- The domain's blocks go into reset and its state is lost. -/
def State.domainIn (s : State) (x : DomId) : State :=
  let s := match x.1 with
    | 1 =>
      let book := (s.ctxOn x.2.1 x.2.2).any fun id => (s.ctxOf id).book || Tab.get 0 s.ctx.bays (bayKey x.2.1 x.2.2) = 0
      let s := if book then s.endQuiet else s
      let s := (s.ctxLost x.2.1 x.2.2 (s.keptSuspects x.2.1)).setBayCtx x.2.1 x.2.2 (if book then 0 else 4097)
      s.bayLost x.2.1 x.2.2
    | 2 => (s.portLost (5 * x.2.1 + x.2.2)).dropTracks fun _ e => e.owner = .port (.router (Fin.ofNat 20 (5 * x.2.1 + x.2.2)))
    | 3 => (s.dropTracks fun _ e => e.owner = .port (.cores (Fin.ofNat 4 x.2.1))).queuesOff x.2.1 false
    | 4 => s.partitionLost x.2.1
    | _ => s.deviceLost.perst 1 false
  let s := (domPages x).foldl (fun s e => s.pageIn e.1 e.2) s
  (domUnits x).foldl (fun s u => s.unitIn u.1 u.2.1 u.2.2) s

/-- A reset begins: smaller domains inside it are superseded, entries queued towards its islands are discarded and
counted, how many being open (R72; a free value). -/
def State.beginReset (s : State) (x : DomId) (origin : Nat) (hang : Bool) : State :=
  let runs := s.resets.runs.filter fun r => !(domHolds x r.id)
  let s := if x.1 = 4 then s.writeBack x.2.1
    else if x.1 = 5 ∧ s.rdF 0 pgMgc 0x0D0 0 3 = 3 then s.logAt 0 6 .updateDropped else s
  let s := if x.1 = 5 then s.blowCut else s
  let discarded := s.free.toNat
  let lastPar := if x.1 = 4 then Tab.put s.resets.lastPar x.2.1 (s.now 0) else s.resets.lastPar
  let epoch := s.epoch
  let s := (s.took 1).domainIn x
  let s := if x.1 = 5 then (s.wr 0 pgRst 0x098 epoch).wr 0 pgRst 0x0A0 (0x10 + s.resets.straps * 2 ^ 8) else s
  let s := s.incF 0 pgRst 0x088 32 32 discarded
  let r : ResetRun := { dom := x.1, die := x.2.1, unit := x.2.2, origin := origin, hang := hang, since := s.now 0 }
  { s with resets := { s.resets with runs := r :: runs, lastPar := if x.1 = 5 then [] else lastPar } }.showReset

/-- A reset request (R81): ignored in an orderly power-down, absorbed where its domain is in reset already, but that a start-up
that has stopped is tried again by a whole-device reset (Table 4-6); a die
partition before the first curtain, or a second one within 60 s, is carried out as a whole-device reset (Table 18-1,
trigger 7). -/
def State.resetReq (s : State) (x : DomId) (origin : Nat) (hang : Bool) : State :=
  if s.power.down ∨ s.power.off.isEmpty = false then s
  else
    let early := x.1 = 4 ∧ s.resets.curtain = false
    let again := x.1 = 4 ∧ (match Tab.find s.resets.lastPar x.2.1 with
      | some t => decide (s.now 0 < t + 60000000000)
      | none => false) = true
    let busy := (s.resets.runs.any fun r => domHolds r.id x) && !(x.1 = 5 && s.resets.stage = 0xFF)
    if busy then s.incF 0 pgRst 0x088 16 16 1
    else if early then s.beginReset (5, 0, 0) origin hang
    else if again then
      let s := s.capture 7 5 x.2.1 none [] false
      (s.incF 0 pgRst 0x120 48 16 1).beginReset (5, 0, 0) Origin.hw.code true
    else s.beginReset x origin hang

/-- What a write of RST.REQ does. -/
def State.reqWritten (s : State) (v : Nat) (o : Origin) : State :=
  match domOf (bitsOf v 0 3) (bitsOf v 4 2) (bitsOf v 6 4) with
  | some x => s.resetReq x o.code false
  | none => s

/-- A reset row: a write of RST.REQ. -/
def State.reqRow (s : State) (w : Writer) (dom d u : Nat) : State :=
  let v := dom + d * 2 ^ 4 + u * 2 ^ 6
  (s.write1 0 pgRst 0x080 w v).then_ fun s => s.reqWritten v w.origin

def execBayReset (w : Writer) (d : Die) (b : Bay) (s : State) : BRes := .next (s.reqRow w 1 d b)
def execFabricPortReset (w : Writer) (p : Port) (s : State) : BRes := .next (s.reqRow w 2 (portDie p) (p.val % 5))
def execCoreClusterReset (w : Writer) (d : Die) (s : State) : BRes := .next (s.reqRow w 3 d 0)
def execDiePartitionReset (w : Writer) (d : Die) (s : State) : BRes := .next (s.reqRow w 4 d 0)
def execWholeDeviceReset (w : Writer) (s : State) : BRes := .next (s.reqRow w 5 0 0)

/-- SYS_RST_N held low for 1 µs (R80); its code in a run is 8. -/
def execSysRstNAssert (s : State) : BRes := .next (s.resetReq (5, 0, 0) 8 false)

end Sys2Proof.Machine
end

