-- ==== Sys2Proof/Machine/Cue.lean ====
section
/-! DEFINITION. The Cue agent (16 R361 to R376): view and rounds, the vote, the decision, and what a committed decision
does. The commands of its messages stand in CueRows. -/

namespace Sys2Proof.Machine

abbrev KRes := Host.Outcome State Fault Refusal

/-! ### View, leader, round (R361, R362) -/

/-- BLK_STAT.PHASE (Table 16-11). -/
def State.phase (s : State) : Nat := s.rdF 0 pgCue 0x028 2 3
def State.setPhase (s : State) (v : Nat) : State := s.wrF 0 pgCue 0x028 2 3 v
/-- The view number. -/
def State.viewNum (s : State) : Nat := s.rdF 0 pgCue 0x098 0 32
/-- Does the part lead the round? -/
def State.leads (s : State) : Bool := s.ownRank ≠ 0xFFFF && s.leader = s.ident.1 && !(s.fenced s.ident.1)
/-- The device of a rank. -/
def State.rankDev (s : State) (r : Nat) : Option Nat := Tab.find s.cue.ranks r
/-- A field of CUE.CFG in force. -/
def State.cueCfg (s : State) (lo n : Nat) : Nat := bitsOf (s.inf 0 pgCue 0x080) lo n

/-- The leader of step `step`, attempt `a`. -/
def State.leaderOf (s : State) (step a : Nat) : Nat :=
  let at0 := step % max 1 s.cue.ranks.length
  let live := s.liveRanks
  let order := live.filter (fun x => decide (at0 ≤ x.1)) ++ live.filter fun x => decide (x.1 < at0)
  ((order[a % max 1 order.length]?).map (·.2)).getD s.ident.1

/-- Show the part's role. -/
def State.showRole (s : State) : State :=
  let r := if s.ownRank ≠ 0xFFFF ∧ s.fenced s.ident.1 = false then (if s.leader = s.ident.1 then 2 else 1)
    else if s.cue.pool.contains s.ident.1 ∧ s.fenced s.ident.1 = false then 3 else 0
  s.wrF 0 pgCue 0x028 0 2 r

/-- Enter attempt `a` of the round of a step. -/
def State.setRound (s : State) (step a : Nat) : State :=
  let s := { s with cue := { s.cue with step := step } }
  let l := s.leaderOf step a
  let s := { s with leader := l }
  let s := ((s.wrF 0 pgCue 0x098 32 9 l).wrF 0 pgCue 0x098 48 8 a).wrF 0 pgCue 0x028 16 9 l
  s.showRole

/-- What a leader has collected is dropped. -/
def Cue.clearVotes (c : Cue) : Cue := { c with votes := [], digests := [], pairsIn := [], first := none, plan := none, acks := [] }
/-- A prepared decision is done with. -/
def Cue.clearPrep (c : Cue) : Cue :=
  { c with prep := none, prepPairs := [], prepFences := [], gotPairs := 0, gotFences := 0, plan := none, acks := [], committed := none }

/-- A new round, attempt 0. -/
def State.newRound (s : State) (step : Nat) : State :=
  let s := { s with cue := { s.cue.clearVotes.clearPrep with mine := none, drained := [] } }
  let s := (s.wrF 0 pgCue 0x028 5 2 0).setPhase 0
  s.setRound step 0

/-- Where the roster of ROSTER_BASE lies: its key and how many records it has; none where the registers name no place for one. -/
def State.rosterSpan (s : State) : Option (Nat × Nat) :=
  let a := s.rdF 0 pgCue 0x088 0 52
  let n := s.rdF 0 pgCue 0x090 0 10
  if 1 ≤ n ∧ n ≤ 512 ∧ a % 8 = 0 ∧ addrSpace a = 0 ∧ addrDev a = s.device ∧ stackPresent a (8 * n) .hw = true then
    some (addrKey a, n)
  else none

/-- The roster is read (11 R265). -/
def State.rosterTouch (s : State) : State := match s.rosterSpan with
  | some x => s.touch x.1 (8 * x.2)
  | none => s

/-- The roster: device and rank of each record; none where it cannot be read. -/
def State.rosterRead (s : State) : Option (List (Nat × Nat)) :=
  s.rosterSpan.bind fun x =>
    let (k, n) := x
    if s.rangeBad k (8 * n) then none
    else some <| (List.range n).map fun i =>
      let bs := s.memRead (k + 8 * i) 8
      (fieldAt bs 0 2 % 512, fieldAt bs 2 2)

/-- Does a roster list every rank below `n` once, and no device twice (R361)? -/
def rosterOk (n : Nat) (r : List (Nat × Nat)) : Bool :=
  noDup (r.map (·.1)) && noDup ((r.map (·.2)).filter (· ≠ 0xFFFF)) &&
    (r.all fun x => x.2 = 0xFFFF || decide (x.2 < n)) && (List.range n).all fun k => r.any fun x => x.2 = k

/-- The good roster for a cast size. -/
def State.roster (s : State) (n : Nat) : Option (List (Nat × Nat)) := s.rosterRead.filter (rosterOk n)

/-- Show the fence list on every die, with origin HW. -/
def State.setFence (s : State) (dev : Nat) (on : Bool) : State :=
  foldNat 4 (fun s d => s.wrF d pgRtr (0x080 + 8 * (dev / 64)) (dev % 64) 1 (if on then 1 else 0)) s

/-- Does CUES restart, so that CALL notices and roster loads wait (20 Table 20-2)? -/
def State.cuesDown (s : State) : Bool := s.comp 0 3 = 2
def State.cuesLater (s : State) (x : Nat) : State := { s with fw := { s.fw with cuesDue := s.fw.cuesDue ++ [x] } }

/-- A roster comes into the view. -/
def State.loadRoster (s : State) (r : List (Nat × Nat)) : State :=
  let ranks := (r.filter fun x => x.2 ≠ 0xFFFF).foldl (fun t x => Tab.put t x.2 x.1) []
  { s with cue := { s.cue with ranks := ranks, pool := (r.filter fun x => x.2 = 0xFFFF).map (·.1) } }

/-! ### What a vote says (R364) -/

/-- Is a comparison of weight digests due (R350), or a checkpoint's grouping (R379, R380)? -/
def State.compareDue (s : State) : Bool :=
  match s.books.active with
  | some b => (s.cue.step - b.firstStep + 1) % max 1 b.digestInterval = 0
  | none => false
def State.ckptStep (s : State) (step : Nat) : Bool :=
  let n := bitsOf (s.inf 0 pgStp 0x200) 0 16
  match s.books.active with
  | some b => n ≠ 0 && (step - b.firstStep + 1) % n = 0
  | none => false
def State.digestDue (s : State) : Bool := s.stepState ≠ 0 && (s.compareDue || s.ckptStep s.cue.step)

/-- Operating points as written that an activation takes: frequencies that do not fall and keep within F_LIMIT. -/
def State.opsOk (s : State) : Bool :=
  let f := (List.range 8).map fun n => opFreq (s.rd 0 pgPwr (0x080 + 8 * n))
  (List.range 7).all (fun i => decide (f.getD i 0 ≤ f.getD (i + 1) 0)) && f.all fun x => decide (x ≤ s.sec.sensed.fLimit)

/-- Do the tables of the witness unit lie in the part's own memory (15 R336, R346)? -/
def State.witTablesOk (s : State) (b : Book) : Bool :=
  let here (a n : Nat) : Bool := addrSpace a = 0 && addrDev a = s.device && stackPresent a n .hw
  here (s.rd 0 pgWit 0x080) (16 * (b.tiles.length + b.fallback.length)) && here (s.rd 0 pgWit 0x088) (2 ^ 22)

/-- Are the key slots of the book's confidential circuits loaded (14 R331)? -/
def State.keysOk (s : State) (b : Book) : Bool := b.circuits.all fun c => !c.conf || (Tab.find s.sec.keys c.key).isSome

/-- May a book be activated: a restore that was begun has reached RESTORED for the step before its first (17 R388)? -/
def State.restoreOk (s : State) (b : Book) : Bool :=
  !s.ckpt.begun || (s.rdF 0 pgStp 0x238 0 3 = 5 && s.ckpt.ownDone.any (· + 1 = b.firstStep))

/-- Does the part offer itself to a cast: no failed stack, no unit kind without a spare (04 Table 4-6, 0xE3 and 0xE6)? -/
def State.offers (s : State) : Bool := !s.resets.barred

/-- Does the part join the decision to activate its staged book (R46, R47, R361; 08 R163; 12 R273; 19 R404; 15 R336)?
Each check that fails is reported. -/
def State.joins (s : State) (b : Book) : State × Bool :=
  let s := ((s.markStep b).recTouch b false).rosterTouch.reportRecs b
  let ctxOk := s.ctx.ctxs.any fun x => x.2.st = 2 && x.2.book
  let s := if ctxOk then s else s.logAt 0 srcHw .noBookContext [b.bookDigest.toNat]
  let s := if s.opsOk then s else s.setErr 0 pgPwr 12
  let s := if s.witTablesOk b then s else s.setErr 0 pgWit 11
  let rosterGood := (s.roster b.castSize).isSome
  let s := if rosterGood then s else s.setErr 0 pgCue 15
  (s, !(s.stepBroken b) && (s.recsBad b).isNone && ctxOk && s.opsOk && s.witTablesOk b && rosterGood && s.keysOk b &&
    s.restoreOk b && s.offers)

/-- Units of bays that go DARK at this curtain out of service, and bays that will be in the wings (R357, R360). -/
def State.noWings (s : State) : Bool :=
  let due (x : Nat × Nat) : Bool := s.history.due.contains (unitKey 0 x.1 x.2)
  let out := (allBays.filter fun x => s.unit 0 x.1 x.2 = .inService && due x).length
  let wings := (allBays.filter fun x => !(due x) && (s.unit 0 x.1 x.2 = .wings ||
    (s.unit 0 x.1 x.2 = .audition && s.history.passed.contains (unitKey 0 x.1 x.2)))).length
  decide (wings < out)

/-- FENCE_SELF. -/
def State.asksFence (s : State) : Bool :=
  s.fenceSelf || s.noWings || (s.fw.waiting && s.books.active.isSome) ||
    (match s.cue.reh with | some r => r.kind = 4 && r.step = s.stepCur && s.stepState ≠ 0 | none => false)

/-- Insert a pair into a list with the larger k first, the lower tensor first among equals. -/
def insertPair (x : Nat × Nat) : List (Nat × Nat) → List (Nat × Nat)
  | [] => [x]
  | y :: ys => if y.2 < x.2 ∨ (y.2 = x.2 ∧ x.1 < y.1) then x :: y :: ys else y :: insertPair x ys
/-- The 16 pairs with the largest k. -/
def topPairs (ps : List (Nat × Nat)) : List (Nat × Nat) := (ps.foldl (fun a x => insertPair x a) []).take 16
/-- Messages that carry a list. -/
def msgsFor (n size : Nat) : Nat := (n + size - 1) / size

/-- Reasons of Table 16-7 that hold. -/
def State.reasonsNow (s : State) : List Nat := s.step.reasons ++ if s.step.partial_ then [5] else []

/-- The reason that a rehearsal of a kind leads to. -/
def rehReason (kind : Nat) : Nat := match kind with | 1 => 2 | 3 => 1 | _ => 0
/-- The step's only reason is the fault of the rehearsal on this part. -/
def State.rehOnly (s : State) : Bool :=
  match s.cue.reh with
  | some r => r.injected.isSome && r.step = s.stepCur && rehReason r.kind ≠ 0 && s.reasonsNow = [rehReason r.kind]
  | none => s.cue.rehStep ≠ 0 && rehReason s.cue.rehStep ≠ 0 && s.reasonsNow = [rehReason s.cue.rehStep]

/-- The vote of the part for its step, or, IDLE, for an activation. -/
def State.makeVote (s : State) (staged : Bool) (timedOut : Bool) : OwnVote :=
  let rs := if s.stepState = 0 then [] else s.reasonsNow
  let rs := if timedOut ∧ rs = [] then [4] else rs
  let ps := if s.stepState = 0 then [] else topPairs s.step.pairs
  let prop : Decision := if rs ≠ [] then .rollBack else if ps ≠ [] then .skip else .certify
  let flags := bitAt (s.step.partial_ && s.stepState ≠ 0) 0 + bitAt s.asksFence 1 + bitAt staged 2 + bitAt timedOut 3 +
    bitAt (s.rdF 0 pgStp 0x118 8 1 = 1) 4 + bitAt s.rehOnly 5
  let ps := if prop = .skip then ps else []
  let book := if staged then s.books.atVote else none
  { body := { proposal := prop, flags := BitVec.ofNat 8 flags, fMax := s.fMax, pairMsgs := msgsFor ps.length 7,
              reason := BitVec.ofNat 8 (rs.headD 0), prepAttempt := (s.cue.prep.map (·.1)).getD 0,
              prepOutcome := s.cue.prep.map (·.2.outcome), committed := s.cue.committed,
              view := BitVec.ofNat 32 s.viewNum },
    digests := (if s.digestDue then [(0, s.rdDigest pgWit 0x0E0)] else []) ++
      (match book with | some b => [(1, b.castDigest), (2, b.bookDigest)] | none => []),
    pairs := ps }

/-- A vote as its message carries it (Table 16-6). -/
def voteFields (v : VoteBody) : List Nat :=
  [v.proposal.code, v.flags.toNat, v.fMax, v.pairMsgs, v.reason.toNat, v.prepAttempt,
    (v.prepOutcome.map Decision.code).getD 0, (v.committed.map Decision.code).getD 0, v.view.toNat]

/-- Pairs in messages of 7, unused ones with k = 0. -/
def pairFields (ps : List (Nat × Nat)) (i : Nat) : List Nat :=
  let part := (ps.drop (7 * i)).take 7
  (part ++ List.replicate (7 - part.length) ((0, 0) : Nat × Nat)).flatMap fun (x : Nat × Nat) => [x.1, x.2]

/-! ### Collecting (R365, R367) -/

/-- The leader records a vote. -/
def State.takeVote (s : State) (rank : Nat) (v : VoteBody) : State :=
  { s with cue := { s.cue with votes := Tab.put s.cue.votes rank v, last := s.now 0,
                               first := some (s.cue.first.getD (s.now 0)) } }

def State.takeDigest (s : State) (rank kind : Nat) (x : BitVec 256) : State :=
  let s := { s with cue := { s.cue with digests := Tab.put s.cue.digests (rank * 4 + kind) x } }
  match kind, s.rankDev rank with
  | 2, some dev => { s with cue := { s.cue with books := Tab.put s.cue.books dev x } }
  | _, _ => s

/-- Pairs of a member: seven entries a message. -/
def State.takePairs (s : State) (rank : Nat) (ps : List (Nat × Nat)) : State :=
  let ps := (ps ++ List.replicate 7 (0, 0)).take 7
  { s with cue := { s.cue with pairsIn := Tab.put s.cue.pairsIn rank ((Tab.get [] s.cue.pairsIn rank) ++ ps) } }

/-- Send the part's vote to its leader; its own leader takes it at once. -/
def State.sendVote (s : State) (m : OwnVote) : State :=
  if s.leads then
    let s := s.takeVote s.ownRank m.body
    let s := m.digests.foldl (fun s x => s.takeDigest s.ownRank x.1 x.2) s
    (List.range m.body.pairMsgs).foldl (fun s i => s.takePairs s.ownRank ((m.pairs.drop (7 * i)).take 7)) s
  else
    let s := s.cueSend s.leader 0x01 (voteFields m.body)
    let s := m.digests.foldl (fun s x => s.cueSend s.leader 0x02 [x.1, x.2.toNat]) s
    (List.range m.body.pairMsgs).foldl (fun s i => s.cueSend s.leader 0x03 (pairFields m.pairs i)) s

/-- The part's own vote. The 400 µs of its leader's silence run from it (R367). -/
def State.ownVote (s : State) (m : OwnVote) : State :=
  { s with cue := { s.cue with mine := some m, heard := s.now 0 } }

/-- Action 3: cast the vote. The book that is staged as action 3 begins is the one an activation takes (R46): a vote cast
again keeps it. -/
def State.castVote (s : State) (timedOut : Bool := false) : State :=
  let r := if s.cue.mine.isSome then (s, s.books.atVote.isSome)
    else match s.books.staged with
      | some b =>
        let r := s.joins b
        ({ r.1 with books := { r.1.books with atVote := if r.2 then some b else none } }, r.2)
      | none => ({ s with books := { s.books with atVote := none } }, false)
  let s := r.1
  let m := s.makeVote r.2 timedOut
  ((((s.ownVote m).wrF 0 pgPwr 0x0C8 36 11 m.body.fMax)).setPhase 1).sendVote m

/-- Is a rank's vote complete: its pairs and the digests that are due are in? -/
def State.voteIn (s : State) (rank : Nat) : Bool :=
  match Tab.find s.cue.votes rank with
  | none => false
  | some v =>
    let has (k : Nat) : Bool := (Tab.find s.cue.digests (rank * 4 + k)).isSome
    decide (7 * v.pairMsgs ≤ (Tab.get [] s.cue.pairsIn rank).length) && (!s.digestDue || has 0) &&
      (bitsOf v.flags.toNat 2 1 = 0 || has 1)

/-! ### The decision (R365, Table 15-4, R375, R376) -/

/-- The order of proposals. -/
def decOrder : Decision → Nat
  | .certify => 0 | .skip => 1 | .rollBack => 2 | .stop => 3

/-- The replica group of a rank (entry 31). -/
def State.groupOf (s : State) (dev : Nat) : Nat :=
  if dev = s.ident.1 then bitsOf (s.inf 0 pgWit 0x090) 0 16 else Config.replicaGroup dev

/-- Does the step's curtain compare this part with replicas? -/
def State.replicated (s : State) : Bool := s.compareDue && s.groupOf s.ident.1 ≠ 0xFFFF

/-- The part is in a minority of its group (R350, R351). -/
def State.diverged (s : State) : State := ((s.setErr 0 pgWit 10).logAt 0 srcHw .replicaDiverge [s.cue.step]).histEvent 7 0 0 7

/-- What the comparison of replicas finds: ranks in a minority, and whether some group has no majority. -/
def State.replicas (s : State) (voters : List (Nat × Nat)) : List Nat × Bool :=
  let dig (r : Nat) : BitVec 256 := Tab.get 0 s.cue.digests (r * 4)
  let groups := ((voters.map fun x => s.groupOf x.2).filter (· ≠ 0xFFFF)).eraseDups
  groups.foldl (fun a g =>
    let ms := (voters.filter fun x => s.groupOf x.2 = g).map (·.1)
    let major := ms.find? fun r => decide (ms.length < 2 * (ms.filter fun q => dig q = dig r).length)
    match major with
    | some r => (a.1 ++ ms.filter (fun q => dig q ≠ dig r), a.2)
    | none => (a.1, true)) ([], false)

/-- Replica rules: outcome and ranks to fence; and what the encore is to compare with. -/
def State.replicaRules (s : State) (voters : List (Nat × Nat)) (out : Decision) : Decision × List Nat × List Nat × Bool :=
  if s.compareDue = false ∨ s.stepState = 0 then (out, [], [], false)
  else
    let (minor, none_) := s.replicas voters
    let one := ((s.books.active.map (·.digestInterval)).getD 1) = 1
    if one then
      if none_ then (if s.cue.noMajor then .stop else if decOrder out < 2 then .rollBack else out, [], minor, true)
      else if minor = [] then (out, [], [], false)
      else (if decOrder out < 2 then .rollBack else out, if minor = s.cue.minority then minor else [], minor, false)
    else if none_ then (.stop, [], minor, true)
    else (out, minor, minor, false)

/-- The rank that holds a rank's buddy copy, by the offset of the part's own book. -/
def State.buddyHolder (s : State) (rank : Nat) : Nat :=
  let n := max 1 s.cue.ranks.length
  match s.books.active with
  | some b => (rank + (b.buddyRank + n - b.castRank)) % n
  | none => rank
/-- The rank whose buddy copy a rank holds. -/
def State.buddyFor (s : State) (rank : Nat) : Nat :=
  let n := max 1 s.cue.ranks.length
  match s.books.active with
  | some b => (rank + (b.buddyOf + n - b.castRank)) % n
  | none => rank

/-- Pool parts that may be called, lowest device first. -/
def State.poolFree (s : State) : List Nat :=
  sortBy (fun a b => decide (a ≤ b)) (s.cue.pool.filter fun d =>
    !(s.fenced d) && !(s.cue.spent.contains d) && !(s.cue.called.any fun c => c.device = d))

/-- Pool parts for ranks in order; ranks that none is left for. -/
def assignPool : List Nat → List Nat → List (Nat × Nat) × List Nat
  | [], _ => ([], [])
  | r :: rs, [] => let x := assignPool rs []; (x.1, r :: x.2)
  | r :: rs, p :: ps => let x := assignPool rs ps; ((r, p) :: x.1, x.2)

/-- The devices of ranks. -/
def State.devsOf (s : State) (rs : List Nat) : List Nat := rs.filterMap s.rankDev

/-- The union of pairs with the larger k. -/
def unionPairs (ps : List (Nat × Nat)) : List (Nat × Nat) :=
  ps.foldl (fun (t : Tab Nat) x => if x.2 = 0 then t else Tab.set 0 t x.1 (max x.2 (Tab.get 0 t x.1))) []

/-- A rehearsal that is due: kind and target (R376). Whether a kind is feasible on another part the leader cannot
see: a free bit. -/
def State.rehDue (s : State) : Option (Nat × Nat) :=
  let hours := s.cueCfg 20 8
  if hours = 0 ∨ s.now 0 < s.rd 0 pgCue 0x0D0 + hours * 3600000000000 then none
  else
    let h := (rhash 0x5245484541525345 s.cue.step 0 s.viewNum).toNat
    let live := s.liveRanks
    let target := ((live[h % 2 ^ 32 % max 1 live.length]?).map (·.2)).getD s.ident.1
    let own := target = s.ident.1
    let port := bitsOf h 40 8 % 20
    let feasible (k : Nat) : Bool := match k with
      | 1 => if own then (List.range 4).any fun d => (s.wingsBay d).isSome else s.free.toNat % 2 = 1
      | 2 => if own then s.linkSt port = 4 && s.cpF port 0x028 6 1 = 0 else s.free.toNat / 2 % 2 = 1
      | 3 => true
      | _ => !s.poolFree.isEmpty
    let kinds := [1, 2, 3, 4].filter fun k => bitsOf (s.cueCfg 28 4) (k - 1) 1 = 1 && feasible k
    (kinds[h / 2 ^ 32 % max 1 kinds.length]?).map fun k => (k, target)

/-- The bits of ACTIONS. -/
def actFence := 0
def actCall := 1
def actAdmit := 2
def actFreq := 3
def actTables := 4
def actReh := 5
def actHold := 6
def hasAct (a : Nat) (i : Nat) : Bool := bitsOf a i 1 = 1

/-- A plan with its fences and calls: outcome, whether ranks are absent and held for, ranks to fence, further ranks to
call for, and the rest. STOP with HOLD where the cast cannot recover by understudy (R375). -/
def State.mkPlan (s : State) (out : Decision) (absent fence again : List Nat) (pairs : List (Nat × Nat)) (fCast : Nat)
    (tables admits : Bool) (reh : Option (Nat × Nat)) (hold : Bool) : CuePlan :=
  let gone := absent ++ fence
  let lost := gone.any fun r => s.buddyHolder r ≠ r && (gone.contains (s.buddyHolder r) ||
    ((s.rankDev (s.buddyHolder r)).any s.fenced))
  let fence := sortBy (fun a b => decide (a ≤ b)) fence
  let asg := assignPool (fence ++ again) s.poolFree
  let stop := lost || asg.2 ≠ []
  let calls := if lost then [] else asg.1
  let act := bitAt (fence ≠ []) actFence + bitAt (calls ≠ []) actCall + bitAt admits actAdmit +
    bitAt (fCast ≠ s.fCast) actFreq + bitAt tables actTables + bitAt reh.isSome actReh +
    bitAt (hold || stop || absent ≠ [] || fence ≠ [] || again ≠ []) actHold
  let first := (calls.head?).getD (0, 0)
  let adm := if admits then ((s.cue.called.head?).map fun c => (c.rank, c.device)).getD (0, 0) else first
  { body := { outcome := if stop then .stop else out, actions := BitVec.ofNat 8 act, fCast := fCast,
              pairMsgs := msgsFor pairs.length 7, fenceMsgs := msgsFor fence.length 18,
              rehKind := (reh.map (·.1)).getD 0, rehDevice := (reh.map (·.2)).getD 0, admitRank := adm.1, admitDev := adm.2,
              view := BitVec.ofNat 32 (s.viewNum + if fence ≠ [] ∨ admits = true ∨ again ≠ [] then 1 else 0) },
    pairs := pairs, fences := s.devsOf fence, calls := calls }

/-- Live ranks that have voted, and those that have not. -/
def State.voters (s : State) : List (Nat × Nat) := s.liveRanks.filter fun x => s.voteIn x.1
def State.absentees (s : State) : List Nat := (s.liveRanks.filter fun x => !(s.voteIn x.1)).map (·.1)

/-- Only rehearsal faults keep the step from certification: someone reports it, and every roll-back names its
reason. -/
def State.rehRollback (s : State) (voters : List (Nat × Nat)) : Bool :=
  let back := (voters.filterMap fun x => Tab.find s.cue.votes x.1).filter fun v => v.proposal = .rollBack || bitsOf v.flags.toNat 0 1 = 1
  match back.find? fun v => bitsOf v.flags.toNat 5 1 = 1 with
  | some v => back.all fun x => x.reason = v.reason
  | none => false

/-- ENCORE_LIMIT. -/
def State.encoreLimit (s : State) : Nat := max 1 (s.cueCfg 16 4)

/-- The decision of R365 on the votes that are in; what the leader keeps for the encore. -/
def State.decideVotes (s : State) : State × CuePlan :=
  let voters := s.voters
  let absent := s.absentees
  let vs := voters.filterMap fun x => (Tab.find s.cue.votes x.1).map fun v => (x.1, v)
  let worst (a b : Decision) : Decision := if decOrder a < decOrder b then b else a
  let out : Decision := vs.foldl (fun o x =>
    worst o (if bitsOf x.2.flags.toNat 0 1 = 1 then .rollBack else x.2.proposal)) (if absent = [] then .certify else .rollBack)
  let fence := (vs.filter fun x => bitsOf x.2.flags.toNat 1 1 = 1).map (·.1)
  let (out, more, minor, noMajor) := s.replicaRules voters out
  let fence := (fence ++ more).eraseDups
  let limit := out = .rollBack ∧ s.rehRollback voters = false ∧ s.encoreLimit < s.cue.encores + 1
  let out : Decision := if limit then .stop else out
  let pairs := if out = .skip then topPairs (unionPairs ((voters.flatMap fun x => Tab.get [] s.cue.pairsIn x.1))) else []
  let fCast := (vs.map (·.2.fMax)).foldl min (((vs.head?).map (·.2.fMax)).getD s.fMax)
  let digs := voters.map fun x => (Tab.find s.cue.digests (x.1 * 4 + 1)).filter fun _ =>
    ((Tab.find s.cue.votes x.1).any fun v => bitsOf v.flags.toNat 2 1 = 1)
  let same := match digs with | [] => false | d :: ds => d.isSome && ds.all (· = d)
  let tables := (out = .certify ∨ out = .skip) ∧ fence = [] ∧ same = true
  let reh := if out = .certify ∧ s.stepState ≠ 0 then s.rehDue else none
  let s := { s with cue := { s.cue with minority := minor, noMajor := noMajor, absent := absent } }
  let s := if absent = [] then s else s.setErr 0 pgCue 9
  let s := if limit then s.setErr 0 pgCue 13 else s
  let s := if minor.contains s.ownRank then s.diverged else s
  (s.took 1, s.mkPlan out absent fence [] pairs fCast (decide tables) false reh false)

end Sys2Proof.Machine
end

