-- ==== Sys2Proof/Machine/CueAct.lean ====
section
/-! DEFINITION. What a committed decision does (02 R26, R29; 16 R366, R370 to R376; 14 Table 14-10), and the leader's
two phases. -/

namespace Sys2Proof.Machine

/-- The Cue agent takes messages and counts its timers but while its island is in reset (R72, R97; entry 134). -/
def State.agentUp (s : State) (f : State → State) : State := if s.inReset 0 pgCue ∨ s.alive 0 = false then s else f s

/-! ### Outcomes for the step that has ended (Table 2-1) -/

/-- Add to pending lowerings, saturating at 31 (R167). -/
def addLowers (t : Tab Nat) (ps : List (Nat × Nat)) : Tab Nat :=
  ps.foldl (fun t x => Tab.set 0 t x.1 (min 31 (Tab.get 0 t x.1 + x.2))) t

/-- Uncorrectable ranges of INPUTS need no restoring once the inputs are released. -/
def Retained.released (r : Retained) : Retained :=
  { r with inputsLost := [], toRestore := r.toRestore.filter fun x => x.2.2 ≠ 2 }

/-! ### The buddy stream (R26, R29, R32) -/

/-- The device that holds rank BUDDY_RANK, which holds the copy of this part's shard. -/
def State.buddyDev (s : State) : Option Nat :=
  s.books.active.bind fun b => (s.cue.ranks.find? fun x => x.1 = b.buddyRank).map (·.2)

/-- Where the stream writes at the buddy: from the start of the BUDDY region that is out of role, as this part's own book places
it, with the buddy's device (entry 110). Where this part's own copy of the step is whole already, its roles have changed. -/
def State.buddyBase (s : State) : Nat :=
  let done := decide (s.rd 0 pgStp 0x248 = s.stepCur + 2 ^ 48)
  match s.books.active.bind (fun b => b.retain[if s.retained.buddyB ≠ done then 2 else 3]?), s.buddyDev with
  | some r, some dev => r.1 % 2 ^ 40 + dev * 2 ^ 40 + r.1 / 2 ^ 49 * 2 ^ 49
  | _, _ => 0

/-- The next packet of the stream: 2,048 B, 1,792 on a confidential circuit, within one home die, in whole 256 B (14 R313). -/
def State.buddyLen (s : State) (c : CircuitRec) : Nat :=
  let most := if c.conf then 1792 else 2048
  let left := (s.shardLen - s.step.buddyNext + 255) / 256 * 256
  min most (min left (2 ^ 38 - (s.step.buddyAt + s.step.buddyNext) % 2 ^ 38))

/-- Send the next packet of the stream: on the circuits of JOB.BUDDY_CIRCUITS in turn, as a tracking entry of the circuit's die is
free and no packet of the stream waits for its slot there. A range that cannot be read waits to be restored. -/
def State.buddyGo (s : State) : State :=
  match s.books.active with
  | none => s
  | some b =>
    let cs := b.circuits.filter (·.buddy)
    match cs[s.step.buddyPk % max 1 cs.length]? with
    | none => s
    | some c =>
      let d := c.die
      let waits := s.fabric.links.any fun e => e.2.queue.any fun q => q.inp = c.input
      let src := addrKey (s.regionBase 1) + s.step.buddyNext
      if s.step.buddyOpen = false ∨ s.shardLen ≤ s.step.buddyNext ∨ waits = true ∨ s.alive d = false ∨
          s.knownBad src (s.buddyLen c) = true then s
      else match s.freeTrack d with
      | none => s
      | some t =>
        let n := s.buddyLen c
        let x := s.readOwn src n
        match x.2 with
        | none => x.1
        | some data =>
          let s := x.1
          let a := s.step.buddyAt + s.step.buddyNext
          let r := s.ownReq d t 0 a
          let s := s.openTrack d 0 a .buddy true true fun e =>
            { e with bytes := n, write := true, leaves := max 1 ((c.outs.map (·.2.2)).sum) }
          let s := { s with step := { s.step with buddyNext := s.step.buddyNext + n, buddyPk := s.step.buddyPk + 1 } }
          s.injectCircuit c { ptype := if 1 < c.outs.length then 0x13 else 0x11, control := false, req := r, length := n,
                              data := data }

/-- Is the whole stream sent and acknowledged (R29)? -/
def State.buddyDone (s : State) : Bool :=
  (decide (s.shardLen ≤ s.step.buddyNext) || s.buddyDev.isNone || (s.books.active.all fun b => (b.circuits.filter (·.buddy)).isEmpty)) &&
    !(s.ctx.tracks.any fun e => e.2.owner = .buddy)

/-- Certify: the written region is current, inputs are released, lowerings are cleared, the buddy stream begins. -/
def State.certifyStep (s : State) : State :=
  let r := s.retained.released
  let s := { s with
    retained := { r with curB := !r.curB, lower := [], toRestore := r.toRestore.filter fun x => x.2.2 ≠ 1 },
    cue := { s.cue with lowers := [] },
    books := { s.books with held := none },
    dup := { s.dup with mism := [] },
    step := { s.step with decision := some .certify, buddyOpen := true, buddyNext := 0, buddyPk := 0, buddyAt := s.buddyBase } }
  let s := (s.incF 0 pgCue 0x0B0 0 16 1).wrF 0 pgStp 0x0A8 0 48 s.stepCur
  let s := s.wrDigest pgWit 0x100 (s.rdDigest pgWit 0x0E0)
  let s := if s.ckptStep s.stepCur then
      let held := s.ckpt.kept.any fun m => m.step = s.stepCur
      ({ s with ckpt := { s.ckpt with curtain := s.stepCur } }).wrF 0 pgStp 0x238 4 1 (bitAt held 0)
    else s
  (s.wrF 0 pgStp 0x118 0 8 0).showPend.wrF 0 pgStp 0x0B0 0 3 4

/-- Skip: the prior weights stay; the pairs lower their tensors; the limit of consecutive skips stops the part
(R167, R178). -/
def State.skipStep (s : State) (pairs : List (Nat × Nat)) : State :=
  let mine := pairs.filter fun x => s.tensors.contains x.1
  let s := { s with
    retained := { s.retained.released with lower := addLowers s.retained.lower mine },
    cue := { s.cue with lowers := addLowers s.cue.lowers pairs },
    dup := { s.dup with mism := [] },
    step := { s.step with decision := some .skip } }
  let s := (s.incF 0 pgCue 0x0B0 16 16 1).showPend
  let n := s.rdF 0 pgStp 0x118 0 8 + 1
  let s := s.wrF 0 pgStp 0x118 0 8 n
  if max 1 (bitsOf (s.inf 0 pgStp 0x100) 16 8) ≤ n then
    ((s.wrF 0 pgStp 0x118 8 1 1).wrF 0 pgStp 0x0B0 0 3 0).logAt 0 srcHw .skipLimit [n, s.stepCur]
  else s

/-- Roll back: the step's witness is kept for the encore; the encores of the step are counted, but not for a
rehearsal's fault. No book voted for is activated: the encore runs under the step's own (02 R46; 16 R365). -/
def State.rollBackStep (s : State) : State :=
  let n := if s.rehOnly then 0 else 1
  let s := s.wrDigest pgWit 0x0C0 (s.rdDigest pgWit 0x0A0)
  let s := { s with books := { s.books with atVote := none } }
  { s.incF 0 pgCue 0x0B0 32 16 1 with
    cue := { (s.incF 0 pgCue 0x0B0 32 16 1).cue with encores := s.cue.encores + n },
    step := { s.step with decision := some .rollBack } }

/-- The part stops at its curtain (R178, R365). -/
def State.stopStep (s : State) : State :=
  let s := if s.encoreLimit < s.cue.encores + 1 then s.setErr 0 pgCue 13 else s
  ({ s with step := { s.step with decision := some .stop } }).wrF 0 pgStp 0x0B0 0 3 0

/-- The outcome of the step, once. -/
def State.outcome (s : State) (out : Decision) (pairs : List (Nat × Nat)) (waits : Bool) : State :=
  if s.stepState = 0 ∨ s.step.decision.isSome then s
  else match out with
    | .certify => s.certifyStep
    | .skip => s.skipStep pairs
    | .rollBack => s.rollBackStep
    | .stop => if waits then s.rollBackStep else s.stopStep

/-! ### Fences, calls, the view -/

/-- Ranks of devices in the view, in rank order. -/
def State.ranksOf (s : State) (devs : List Nat) : List Nat := (s.cue.ranks.filter fun x => devs.contains x.2).map (·.1)

/-- Whom a decision calls, as every part works it out (R372): the ranks it fences in order, by the free pool parts in
order; else the rank and device it names. Ranks that no part is left for. -/
def State.callsOf (s : State) (p : PrepBody) (fences : List Nat) : List (Nat × Nat) × List Nat :=
  if hasAct p.actions.toNat actFence then assignPool (s.ranksOf fences) s.poolFree
  else if hasAct p.actions.toNat actCall then ([(p.admitRank, p.admitDev)], []) else ([], [])

/-- A part that does not lead learns by a decision that it is in a minority (15 R350): of a roll-back with DIGEST_INTERVAL 1 no
message says so, which makes it a free value; a fence that it did not ask for, of a round that the cast was not held for, says it
(entry 165). -/
def State.learnMinority (s : State) (out : Decision) (mine : Bool) : State :=
  if s.leads ∨ s.cue.held ∨ s.replicated = false ∨ s.stepState = 0 then s
  else if mine then (if s.asksFence then s else s.diverged)
  else if out = .rollBack ∧ ((s.books.active.map (·.digestInterval)).getD 1) = 1 then
    (if s.free.toNat % 2 = 1 then s.diverged else s).took 1
  else s

/-- The part itself is fenced: it leaves the cast. A rehearsal of kind 4 has had its detection; an activation of
firmware that waited goes ahead with a whole-device reset (20 R439). -/
def State.selfFenced (s : State) : State :=
  let s := (s.wrF 0 pgStp 0x0B0 0 3 0).showRole
  let s := match s.cue.reh with
    | some r => if r.kind = 4 then s.rehReport { r with injected := some (s.now 0), found := some (s.now 0) } 1 else s
    | none => s
  let s := { s with fenceSelf := false }.ckptAbandon
  if s.fw.waiting then
    ({ s with fw := { s.fw with waiting := false, slotDue := true } }).resetReq (5, 0, 0) Origin.fw.code false
  else s

/-- Fence devices. One that a rehearsal of kind 4 plays on is to return to the pool. -/
def State.fenceDevs (s : State) (devs : List Nat) : State :=
  let s := devs.foldl (fun s x => s.setFence x true) s
  let back := devs.filter fun x => s.cue.rehStep = 4 && s.cue.rehDev = x
  let s := ({ s with cue := { s.cue with back := s.cue.back ++ back } }).timeTree.showRole
  foldNat 20 (fun s p => s.fenceDrop p) s

/-- Note the parts that a decision calls, in place of those called before for the same ranks. -/
def State.noteCalls (s : State) (calls : List (Nat × Nat)) (unserved : List Nat) : State :=
  let old := s.cue.called.filter fun c => calls.any fun x => x.1 = c.rank
  let keep := s.cue.called.filter fun c => !(calls.any fun x => x.1 = c.rank)
  let new := calls.map fun x =>
    { rank := x.1, device := x.2, failed := ((old.find? fun c => c.rank = x.1).map (·.failed)).getD ((s.rankDev x.1).getD 0),
      since := s.now 0 : Called }
  let s := { s with cue := { s.cue with called := keep ++ new, spent := s.cue.spent ++ old.map (·.device),
                                        noSpare := (s.cue.noSpare.filter fun r => !(calls.any fun x => x.1 = r)) ++ unserved } }
  if unserved = [] then s else s.setErr 0 pgCue 11

/-- This part, called for a rank, is admitted with its staged book (R373): it waits for the encore, or, where the cast was held
after a step that it certified or skipped, for the next step (02 R25). -/
def State.selfAdmitted (s : State) (out : Decision) (pairs : List (Nat × Nat)) : State :=
  let s := { s with
    cue := { s.cue with call := none, lowers := addLowers [] pairs },
    retained := { s.retained with lower := addLowers [] pairs },
    books := { s.books with atVote := s.books.staged },
    step := { decision := some (if out = Decision.stop then .rollBack else out), a1Done := true, a2Done := true, admitted := true } }
  (s.wrF 0 pgStp 0x0A0 0 48 s.cue.step).wrF 0 pgStp 0x0B0 0 3 3

/-- Every part called takes its rank. -/
def State.admitCalled (s : State) (out : Decision) (pairs : List (Nat × Nat)) : State :=
  let cs := s.cue.called
  let s := { s with cue := { s.cue with
    ranks := cs.foldl (fun t c => Tab.put t c.rank c.device) s.cue.ranks,
    pool := s.cue.pool.filter fun d => !(cs.any fun c => c.device = d), called := [], spent := [], poolDigests := [] } }
  if cs.any fun c => c.device = s.ident.1 then s.selfAdmitted out pairs else s

/-- Under NO_SPARE a roster that gives every rank its device in the view adds its pool parts (R375). -/
def State.takeRoster (s : State) : State :=
  if s.cuesDown then s.cuesLater 2
  else
  let s := s.rosterTouch
  match s.roster s.cue.ranks.length with
  | none => s.setErr 0 pgCue 15
  | some r =>
    if (r.filter fun x => x.2 ≠ 0xFFFF).all (fun x => s.rankDev x.2 = some x.1) then
      { s with cue := { s.cue with pool := (r.filter fun x => x.2 = 0xFFFF).map (·.1) } }
    else s.setErr 0 pgCue 15

/-! ### Changing tables (Table 14-10) -/

/-- Step 2: data-class injection is held. -/
def State.holdTables (s : State) : State :=
  let s := { s with fabric := { s.fabric with hold := true } }
  foldNat 4 (fun s d => s.holdEffect d) s

/-- A change of tables is decided: it is pending, and begins once action 4 is done. -/
def State.changeTables (s : State) : State :=
  let s := { s with step := { s.step with change := true }, cue := { s.cue with drained := [] } }
  let s := foldNat 4 (fun s d => s.wrF d pgRtr 0x028 5 1 1) s
  if s.step.buddyOpen then s else s.holdTables

/-! ### Adopting a decision -/

/-- Show and log a decision (LAST_DEC, DEC_TIME). A member cannot see when the last live vote was sent: its figure is
free. -/
def State.showDecision (s : State) (out : Decision) (actions : Nat) : State :=
  let step := s.cue.step
  let s := s.wr 0 pgCue 0x0A0 (step % 2 ^ 48 + out.code * 2 ^ 48 + actions % 128 * 2 ^ 51)
  let ns := if s.leads then s.now 0 - s.cue.last else s.free.toNat
  let s := ((s.took 1).wrF 0 pgCue 0x0A8 0 32 ns).wrF 0 pgCue 0x0A8 32 8 (s.attempt + 1)
  s.logAt 0 srcHw .decision [step, out.code, actions]

/-- A rehearsal is attached: the target plays it in the next step, and every part notes when it was (R376). `view` is
the number of the view that the leader drew it in. -/
def State.noteRehearsal (s : State) (p : PrepBody) (view : Nat) : State :=
  let h := (rhash 0x5245484541525345 s.cue.step 0 view).toNat
  let s := s.wr 0 pgCue 0x0D0 (s.now 0)
  let s := { s with cue := { s.cue with rehStep := p.rehKind, rehDev := p.rehDevice } }
  let r : RehRun := { kind := p.rehKind, pick := bitsOf h 40 8, step := s.cue.step + 1 }
  if p.rehDevice = s.ident.1 then { s with cue := { s.cue with reh := some r } } else s

/-- The cast is held at the curtain, or released. -/
def State.holdOrGo (s : State) (out : Decision) (hold : Bool) : State :=
  let waits := s.cue.noSpare ≠ []
  if out = .stop ∧ waits = false then
    ({ s with cue := { s.cue.clearPrep with held := false, called := [] } }).setPhase 6
      |> fun s => if hold then s.setErr 0 pgCue 12 else s
  else if hold then
    let after := if s.cue.held then s.cue.after else if out = .stop then Decision.rollBack else out
    ({ s with cue := { s.cue.clearPrep with held := true, heldAt := s.now 0, after := after } }).setPhase 4
  else ({ s with cue := { s.cue.clearPrep with held := false, committed := some out } }).setPhase 3

/-- Adopt a committed decision: the prepared body with what COMMIT says, its pairs and fences. A book voted for is activated by
the TABLES of the same decision or not at all (02 R46). -/
def State.adopt (s : State) (p : PrepBody) (pairs : List (Nat × Nat)) (fences : List Nat) : State :=
  let act := p.actions.toNat
  let view := s.viewNum
  let s := if s.cue.noSpare ≠ [] ∧ hasAct act actHold ∧ s.cue.held then s.takeRoster else s
  let (calls, unserved) := s.callsOf p fences
  let s := s.outcome p.outcome pairs (unserved ≠ [])
  let s := s.showDecision p.outcome act
  let s := s.noteCalls calls unserved
  let s := s.wrF 0 pgCue 0x098 0 32 p.view.toNat
  let mine := fences.contains s.ident.1
  let s := s.learnMinority p.outcome mine
  let s := s.fenceDevs fences
  let s := if hasAct act actTables then s else { s with books := { s.books with atVote := none } }
  let s := if hasAct act actAdmit then s.admitCalled p.outcome pairs else s
  let s := { s with cue := { s.cue with fNext := p.fCast } }
  let s := if hasAct act actReh then s.noteRehearsal p view else s
  let s := s.holdOrGo p.outcome (hasAct act actHold)
  let s := if hasAct act actTables ∧ mine = false then s.changeTables else s
  if mine then s.selfFenced else s.showRole

/-! ### Adopting at action 4 (R20) -/

/-- Has the part completed actions 1 and 2 of its curtain, or is it in no step? -/
def State.atVoteNow (s : State) : Bool := s.stepState = 0 || decide (3 ≤ s.stepState)

/-- Adopt a committed decision at action 4: one that comes before the part has completed action 2 waits till then, at the leader
as at a member. -/
def State.adoptIn (s : State) (p : PrepBody) (pairs : List (Nat × Nat)) (fences : List Nat) : State :=
  if s.atVoteNow then s.adopt p pairs fences
  else { s with cue := { s.cue with late := s.cue.late ++ [(p, pairs, fences)] } }

/-- Decisions that waited are adopted. -/
def State.adoptLate (s : State) : State :=
  s.cue.late.foldl (fun s x => s.adopt x.1 x.2.1 x.2.2) { s with cue := { s.cue with late := [] } }

/-! ### The leader's two phases (R366) -/

/-- Whom a plan goes to: the live members and the pool parts it calls or admits, but this part. -/
def State.planTargets (s : State) (p : CuePlan) : List Nat :=
  let called := if hasAct p.body.actions.toNat actAdmit then s.cue.called.map (·.device) else []
  ((s.liveRanks.map (·.2)) ++ (p.calls.map (·.2)) ++ called).filter (· ≠ s.ident.1)

/-- The part learns the writer of its group (17 R380): shown in CKP_WRITER and CKP_STAT.WRITER. -/
def State.noteWriter (s : State) (step w copies : Nat) : State :=
  let s := (s.wr 0 pgStp 0x250 (w + 2 ^ 16)).wrF 0 pgStp 0x238 3 1 (bitAt (w = s.ownRank) 0)
  { s with ckpt := { s.ckpt with writer := some (step, w, copies) } }

/-- WRITER messages of a certified checkpoint step (17 R380): the lowest rank of each group of equal digests writes. -/
def State.writers (s : State) (step : Nat) : State :=
  if s.ckptStep step = false then s
  else
    let dig (r : Nat) : BitVec 256 := Tab.get 0 s.cue.digests (r * 4)
    let live := s.voters
    let groupOf (r : Nat) : List Nat := (live.filter fun x => dig x.1 = dig r).map (·.1)
    let digs : Tab (BitVec 256) := live.foldl (fun t x => Tab.put t x.1 (dig x.1)) []
    let wrs : Tab Nat := live.foldl (fun t x => Tab.put t x.1 ((groupOf x.1).headD 0)) []
    let map : KeptMap := ⟨step, s.viewNum, digs, wrs, (s.books.active.map (·.tilingId)).getD 0,
      (s.books.active.map (·.castDigest)).getD 0⟩
    let s := { s with ckpt := { s.ckpt with kept := some map } }
    live.foldl (fun s x =>
      let w := (groupOf x.1).headD 0
      if x.2 = s.ident.1 then s.noteWriter step w (groupOf x.1).length
      else s.cueSend x.2 0x0E [w, (groupOf x.1).length]) s

/-- COMMIT to every receiver of PREPARE, CALL to the parts called, and the part's own adoption. -/
def State.commitAll (s : State) (p : CuePlan) : State :=
  let b := p.body
  let s := (s.planTargets p).foldl (fun s d => s.cueSend d 0x09 [b.outcome.code, b.actions.toNat, b.view.toNat]) s
  let dev (r : Nat) : Nat := (s.rankDev r).getD 0
  let s := p.calls.foldl (fun s x => s.cueSend x.2 0x0A [x.1, dev (s.buddyHolder x.1), dev (s.buddyFor x.1), dev x.1]) s
  let s := if b.outcome = .certify ∧ s.cue.held = false ∧ s.stepState ≠ 0 then s.writers s.cue.step else s
  s.adoptIn b p.pairs p.fences

/-- COMMIT once every voter has acknowledged. -/
def State.tryCommit (s : State) : State :=
  match s.cue.plan with
  | none => s
  | some p => if s.cue.late = [] ∧ (s.voters.all fun x => s.cue.acks.contains x.1) = true then s.commitAll p else s

/-- A decision is prepared: what came of an earlier buddy stream is no part of the one that may follow (02 R32; entry
110). -/
def State.buddyFresh (s : State) : State :=
  if s.cue.held ∨ s.step.decision.isSome then s else { s with retained := { s.retained with buddyIn := [] } }

/-- PREPARE with its lists to every receiver; the leader acknowledges its own at once. -/
def State.sendPrepare (s : State) (p : CuePlan) : State :=
  let b := p.body
  let s := s.buddyFresh
  let s := { s with cue := { s.cue with plan := some p, acks := [s.ownRank], prep := some (s.attempt, b),
                                        prepPairs := p.pairs, prepFences := p.fences } }
  let s := s.setPhase 2
  let s := (s.planTargets p).foldl (fun s d =>
    let s := s.cueSend d 0x06 [b.outcome.code, b.actions.toNat, b.fCast, b.pairMsgs, b.fenceMsgs, b.rehKind, b.rehDevice,
      b.admitRank, b.admitDev, b.view.toNat]
    let s := (List.range b.pairMsgs).foldl (fun s i => s.cueSend d 0x03 (pairFields p.pairs i)) s
    (List.range b.fenceMsgs).foldl (fun s i =>
      let part := (p.fences.drop (18 * i)).take 18
      s.cueSend d 0x07 (part ++ List.replicate (18 - part.length) 0xFFFF)) s) s
  s.tryCommit

/-- The outcome that some vote reports as committed (R367). -/
def State.reported (s : State) : Option Decision :=
  (s.voters.filterMap fun x => (Tab.find s.cue.votes x.1).bind fun v => v.committed).head?

/-- Decide on the votes that are in: an outcome reported as committed is adopted and committed, with the lists that
this part acknowledged for it; else afresh. -/
def State.decideNow (s : State) : State :=
  match s.reported with
  | some o =>
    let body : PrepBody := match s.cue.prep with
      | some (_, b) => if b.outcome = o then b
        else ⟨o, 0, s.fCast, 0, 0, 0, 0, 0, 0, BitVec.ofNat 32 s.viewNum⟩
      | none => ⟨o, 0, s.fCast, 0, 0, 0, 0, 0, 0, BitVec.ofNat 32 s.viewNum⟩
    s.commitAll ⟨body, s.cue.prepPairs, s.cue.prepFences, (s.callsOf body s.cue.prepFences).1⟩
  | none =>
    if s.cue.held then s
    else
      let r := s.decideVotes
      r.1.sendPrepare r.2

/-- Decide as soon as every live rank's vote is in. At a held curtain, once every absent rank has voted again (R370
case 1), the round lets the encore go. -/
def State.tryDecide (s : State) : State :=
  if s.leads = false ∨ s.cue.plan.isSome ∨ s.absentees ≠ [] ∨ s.cue.committed.isSome ∨ s.cue.late ≠ [] then s
  else if s.cue.held then
    if s.cue.absent = [] ∨ s.cue.called ≠ [] ∨ s.cue.noSpare ≠ [] then s
    else
      let s := { s with cue := { s.cue with absent := [] } }
      s.sendPrepare (s.mkPlan s.cue.after [] [] [] [] s.cue.fNext false false none false)
  else s.decideNow

/-! ### Acknowledging (R366) -/

/-- Acknowledge the prepared decision once its lists are here: at action 3, as part of it. -/
def State.tryAck (s : State) : State :=
  match s.cue.prep with
  | some (a, p) =>
    if a = s.attempt ∧ p.pairMsgs ≤ s.cue.gotPairs ∧ p.fenceMsgs ≤ s.cue.gotFences ∧ s.leads = false ∧ s.atVoteNow = true ∧
        s.cue.committed.isNone = true then
      let s := if s.phase = 4 then s else s.setPhase 2
      s.cueSend s.leader 0x08 [p.outcome.code]
    else s
  | none => s

end Sys2Proof.Machine
end

