-- ==== Sys2Proof/Machine/Checkpoint.lean ====
section
/-! DEFINITION. Checkpoints and restores (17 R382 to R388): the image, the ring, the manifest and CKP_CMD. -/

namespace Sys2Proof.Machine

abbrev GRes := Host.Outcome State Fault Refusal

/-! ### Registers -/

/-- CKP_STAT.STATE and CODE. -/
def State.ckpState (s : State) : Nat := s.rdF 0 pgStp 0x238 0 3
def State.setCkpState (s : State) (v : Nat) : State := s.wrF 0 pgStp 0x238 0 3 v
def State.ckpCode (s : State) (v : Nat) : State := s.wrF 0 pgStp 0x238 8 8 v
/-- CHUNKS_DONE. -/
def State.ckpDone (s : State) (n : Nat) : State := s.wrF 0 pgStp 0x238 16 17 n
/-- Ring length in 4 KiB units (CKP_RING_LEN). -/
def State.ringUnits (s : State) : Nat := 1024 * clampTo 2 1024 (s.rdF 0 pgStp 0x210 0 11)
/-- Address of a ring position. -/
def State.ringAddr (s : State) (pos : Nat) : Nat := s.rdF 0 pgStp 0x208 0 52 + pos % s.ringUnits * 4096
/-- The checkpoint key, slot 16 (21 R450). -/
def State.ckpKey (s : State) : Option (List Byte) := Tab.find s.sec.keys 16

/-! ### The shard image (R382, R384) -/

def CkpRun.chunks (r : CkpRun) : Nat := chunksIn r.len
/-- 4 KiB units of header, list and padding, and of the whole image. -/
def CkpRun.frontUnits (r : CkpRun) : Nat := (128 + 32 * r.chunks + 4095) / 4096
def CkpRun.units (r : CkpRun) : Nat := r.frontUnits + r.len / 4096
/-- The tweak of a chunk unit. -/
def CkpRun.tweak (r : CkpRun) (v : Nat) : Nat := v % 1024 + v / 1024 * 2 ^ 10 + r.writer * 2 ^ 26 + r.step * 2 ^ 35
/-- Chunks whose units are all done. -/
def CkpRun.doneChunks (r : CkpRun) : Nat := if r.units ≤ r.pos then r.chunks else (r.pos - r.frontUnits) / 1024

/-- The shard header (Table 17-2). -/
def shardHeader (r : CkpRun) (b : Book) (tag : Nat) : List Byte :=
  let h := [0x4F, 0x4C, 0x43, 0x53] ++ leBytes 2 1 ++ leBytes 2 128 ++ leBytes 8 r.step ++ leBytes 8 b.jobId ++
    leBytes 2 r.writer ++ leBytes 2 b.shapeId ++ leBytes 2 b.castSize ++ leBytes 2 0 ++ leBytes 8 r.len ++
    leBytes 4 r.chunks ++ leBytes 4 0 ++ leBytes 32 r.digest.toNat ++ leBytes 8 tag ++ leBytes 36 0
  h ++ leBytes 4 (crc32 h)

/-- A 4 KiB unit of the image: of the front in the clear, of a chunk encrypted. -/
def State.imageUnit (s : State) (r : CkpRun) (key : List Byte) : List Byte :=
  if r.pos < r.frontUnits then (r.front.drop (4096 * r.pos)).take 4096
  else
    let v := r.pos - r.frontUnits
    Config.sm4Xts true key (r.tweak v) (s.memRead (addrKey r.base + 4096 * v) 4096)

/-- The export writes units while the ring has room (R385); an uncorrectable range is reported and holds it until it is
restored. -/
def exportUnits : Nat → State → State
  | 0, s => s
  | n + 1, s =>
    match s.ckpt.run, s.ckpKey with
    | some r, some key =>
      let ahead := (r.pos + 2 ^ 32 - s.rdF 0 pgStp 0x220 0 32) % 2 ^ 32
      let k := addrKey r.base + 4096 * (r.pos - r.frontUnits)
      let body := decide (r.frontUnits ≤ r.pos)
      if r.exporting = false ∨ r.units ≤ r.pos ∨ s.ringUnits ≤ ahead ∨ (body && s.knownBad k 4096) = true then s
      else
        let s := if body then s.touch k 4096 else s
        if body && s.rangeBad k 4096 then s
        else
        let s := (s.partWrite (s.ringAddr r.pos) (s.imageUnit r key)).1
        let r := { r with pos := r.pos + 1 }
        let s := { s with ckpt := { s.ckpt with run := some r } }
        exportUnits n ((s.wrF 0 pgStp 0x218 0 32 r.pos).ckpDone r.doneChunks)
    | _, _ => s

/-- The list of the certified digest in force (15 R349): list B where SHARD_B is current. -/
def State.listKey (s : State) : Nat := addrKey (s.inf 0 pgWit 0x088) + if s.retained.curB then 2 ^ 21 else 0

/-- An export with its front begins to write. -/
def State.exportGo (s : State) (r : CkpRun) : State :=
  let s := { s with ckpt := { s.ckpt with run := some r, writer := none } }
  let s := ((s.setCkpState 1).ckpCode 0).ckpDone 0
  let s := (s.wr 0 pgStp 0x240 r.step).wr 0 pgStp 0x218 0
  exportUnits (r.units + 1) s

/-- The front of an image: header and list, filled up to whole units. -/
def CkpRun.withFront (r : CkpRun) (front : List Byte) : CkpRun :=
  { r with front := front ++ List.replicate (4096 * r.frontUnits - front.length) 0 }

/-- The list of an export is read; with one that cannot be read it does not begin (entry 161). -/
def State.exportRead (s : State) (r : CkpRun) (b : Book) (key : List Byte) : State :=
  match s.readOwn s.listKey (32 * r.chunks) with
  | (s, none) => s
  | (s, some list) => s.exportGo (r.withFront (shardHeader r b (keyTag key) ++ list))

/-- The export of the shard that has become current begins (R381, R382), on the writer of a group. -/
def State.exportBegin (s : State) : State :=
  match s.books.active, s.ckpt.writer with
  | some b, some (step, w, _) =>
    if w ≠ s.ownRank ∨ s.rdF 0 pgStp 0x0A8 0 48 ≠ step then s
    else if s.shardLen % 4096 ≠ 0 then s.ckpCode 8
    else match s.ckpKey with
      | none => s.ckpCode 7
      | some key =>
        let r : CkpRun := { exporting := true, step := step, writer := w, digest := s.rdDigest pgWit 0x100,
                            base := s.regionBase 1, len := s.shardLen }
        s.exportRead r b key
  | _, _ => s

/-- EXPORT_COMPLETE: the last unit is written. -/
def execExportComplete (s : State) : GRes :=
  .next <|
    match s.ckpt.run with
    | some r =>
      if r.exporting ∧ r.units ≤ r.pos then
        (({ s with ckpt := { s.ckpt with run := none } }).setCkpState 2).ckpCode 0
      else s
    | none => s

/-! ### The manifest (R386) -/

/-- A manifest entry (Table 17-4) with its OBJECT. -/
def State.manEntry (s : State) (m : KeptMap) (rank : Nat) (object : List Byte) : List Byte :=
  leBytes 2 rank ++ leBytes 2 (Tab.get 0 m.writers rank) ++ leBytes 2 (s.buddyHolder rank) ++ leBytes 2 0 ++
    leBytes 8 s.shardLen ++ leBytes 32 (Tab.get 0 m.digests rank).toNat ++ object

/-- The manifest of a kept map, unsigned. -/
def State.manifest (s : State) (m : KeptMap) (b : Book) : List Byte :=
  let a := addrKey (s.rdF 0 pgStp 0x228 0 52)
  [0x4F, 0x4C, 0x43, 0x4D] ++ leBytes 2 1 ++ leBytes 2 128 ++ leBytes 8 m.step ++ leBytes 8 b.jobId ++
    leBytes 2 b.castSize ++ leBytes 2 b.shapeId ++ leBytes 4 0 ++ leBytes 8 m.tiling ++
    leBytes 32 m.cast.toNat ++ leBytes 2 s.ownRank ++ leBytes 6 0 ++ leBytes 16 s.sec.sensed.serial.toNat ++
    leBytes 32 0 ++
    (List.range b.castSize).flatMap fun r => s.manEntry m r (s.memRead (a + 128 + 64 * r + 0x30) 16)

/-- The buffer of a manifest: its key and length, for a cast of `n`. -/
def State.manSpan (s : State) (n : Nat) : Nat × Nat := (addrKey (s.rdF 0 pgStp 0x228 0 52), 256 + 64 * n)

/-- SIGN. A part without an accepted certificate signs nothing (21 R444), nor one that cannot read the OBJECT fields of its buffer
(entry 161). -/
def State.signManifest (s : State) : State :=
  match s.ckpt.kept, s.books.active with
  | some m, some b =>
    if m.step < s.ckpt.curtain then s.ckpCode 10
    else if m.view ≠ s.viewNum then s.ckpCode 9
    else if s.rdF 0 pgProt 0x880 0 1 = 0 then s.ckpCode 2
    else
      let s := s.touch (s.manSpan b.castSize).1 (s.manSpan b.castSize).2
      if s.rangeBad (s.manSpan b.castSize).1 (s.manSpan b.castSize).2 then s.ckpCode 1
      else
      let body := s.manifest m b
      let key := slice s.sec.cert 0x18 64
      let s := (s.partWrite (s.rdF 0 pgStp 0x228 0 52) (body ++ key ++ Config.sm2Sign (sm3 body))).1
      let s := { s with ckpt := { s.ckpt with kept := none } }
      ((s.setCkpState 3).ckpCode 0).wrF 0 pgStp 0x238 4 1 0
  | _, _ => s.ckpCode 11

/-! ### Restores (R387, R388) -/

/-- Fields of a manifest. -/
def manStep (m : List Byte) : Nat := fieldAt m 8 6
def manCast (m : List Byte) : Nat := fieldAt m 0x18 2
def manEntryOf (m : List Byte) (rank : Nat) : List Byte := slice m (128 + 64 * rank) 64

/-- The manifest in its buffer, its header first; none where it cannot be read (entry 161). -/
def State.manRead (s : State) : State × Option (List Byte) :=
  let k := addrKey (s.rdF 0 pgStp 0x228 0 52)
  match s.readOwn k 128 with
  | (s, none) => (s, none)
  | (s, some h) =>
    match s.readOwn (k + 128) (128 + 64 * min 512 (manCast h)) with
    | (s, none) => (s, none)
    | (s, some xs) => (s, some (h ++ xs))

/-- Checks 1 to 4 of Table 17-5: the code of the first that fails, 0 where all pass. -/
def State.manCheck (s : State) (m : List Byte) (b : Book) : Nat :=
  let n := manCast m
  let signed := m.take (128 + 64 * n)
  let key := slice m (128 + 64 * n) 64
  let own := key = slice s.sec.cert 0x18 64 ∧ s.rdF 0 pgProt 0x880 0 1 = 1
  if m.take 4 ≠ [0x4F, 0x4C, 0x43, 0x4D] ∨ fieldAt m 4 2 ≠ 1 ∨ fieldAt m 6 2 ≠ 128 ∨ n = 0 ∨ 512 < n then 1
  else if Config.sm2Verify key (sm3 signed) (slice m (192 + 64 * n) 64) = false ∨
      ¬ (own ∨ Config.signerTrusted key = true) then 2
  else if n ≠ b.castSize ∨ fieldAt m 0x1A 2 ≠ b.shapeId ∨
      fieldAt (manEntryOf m b.castRank) 8 8 ≠ (b.retain.getD 0 (0, 0)).2 then 3
  else if b.firstStep ≠ manStep m + 1 then 4
  else 0

/-- The manifest is checked; where it passes, SHARD_A becomes current and BUDDY_A the buddy region. -/
def State.acceptManifest (s : State) (b : Book) : State × Bool :=
  let r := s.manRead
  let s := r.1
  let m := r.2.getD []
  let code := if r.2.isNone then 1 else s.manCheck m b
  let s := { s with ckpt := { s.ckpt with begun := true, run := none, ownDone := none, buddyDone := none, manifest := [] } }
  if code ≠ 0 then ((s.setCkpState 0).ckpCode code, false)
  else
    let s := { s with retained := { s.retained with curB := false, buddyB := false } }
    ({ s with ckpt := { s.ckpt with manifest := m } }, true)

/-- A restore of an image begins, into region `i` of the staged book, by the entry of a rank. -/
def State.restoreBegin (s : State) (b : Book) (buddy : Bool) (rank i : Nat) : State :=
  let m := s.ckpt.manifest
  let e := manEntryOf m rank
  let reg := b.retain.getD i (0, 0)
  let r : CkpRun := { exporting := false, buddy := buddy, step := manStep m, writer := fieldAt e 2 2,
                      digest := BitVec.ofNat 256 (leNat (slice e 0x10 32)), base := reg.1, len := fieldAt e 8 8 }
  let s := { s with ckpt := { s.ckpt with run := some r } }
  let s := ((s.setCkpState 4).ckpCode 0).ckpDone 0
  (s.wr 0 pgStp 0x240 r.step).wr 0 pgStp 0x218 0

/-- An image is rejected: nothing of it counts. -/
def State.rejectImage (s : State) (code : Nat) : State :=
  (({ s with ckpt := { s.ckpt with run := none } }).setCkpState 0).ckpCode code

/-- Checks 5 and 6 on a front: the code of the first that fails. Reserved bytes, STEP[63:48] among them, are ignored
(00 R8). -/
def frontCheck (r : CkpRun) (jobId tag : Nat) : Nat :=
  let f := r.front
  if fieldAt f 8 6 ≠ r.step ∨ fieldAt f 0x10 8 ≠ jobId ∨ fieldAt f 0x18 2 ≠ r.writer ∨
      fieldAt f 0x7C 4 ≠ crc32 (f.take 0x7C) then 5
  else if sm3 (leBytes 8 r.step ++ leBytes 8 r.len ++ slice f 128 (32 * r.chunks)) ≠ leBytes 32 r.digest.toNat ∨
      fieldAt f 0x50 8 ≠ tag then 6
  else 0

/-- A restore takes one unit from the ring. -/
def State.restoreUnit (s : State) (r : CkpRun) (key : List Byte) (u : List Byte) : State :=
  let step (r : CkpRun) (s : State) : State :=
    let r := { r with pos := r.pos + 1 }
    (({ s with ckpt := { s.ckpt with run := some r } }).wrF 0 pgStp 0x218 0 32 r.pos).ckpDone r.doneChunks
  if r.pos < r.frontUnits then
    let r := { r with front := r.front ++ u }
    let code := if r.pos + 1 = r.frontUnits then frontCheck r (fieldAt s.ckpt.manifest 0x10 8) (keyTag key) else 0
    if code ≠ 0 then s.rejectImage code else step r s
  else
    let v := r.pos - r.frontUnits
    let c := v / 1024
    let r := { r with chunk := r.chunk ++ Config.sm4Xts false key (r.tweak v) u }
    if v % 1024 = 1023 ∨ r.units ≤ r.pos + 1 then
      if sm3 r.chunk ≠ slice r.front (128 + 32 * c) 32 then s.rejectImage 6
      else step { r with chunk := [] } (s.partWrite (r.base + c * 2 ^ 22) r.chunk).1
    else step r s

/-- A restore takes what software has put into the ring; a unit that cannot be read waits to be written again (entry 161). -/
def restoreUnits : Nat → State → State
  | 0, s => s
  | n + 1, s =>
    match s.ckpt.run, s.ckpKey with
    | some r, some key =>
      let there := (s.rdF 0 pgStp 0x220 0 32 + 2 ^ 32 - r.pos % 2 ^ 32) % 2 ^ 32
      let k := addrKey (s.ringAddr r.pos)
      if r.exporting ∨ r.units ≤ r.pos ∨ there = 0 ∨ s.ringUnits < there ∨ s.knownBad k 4096 = true then s
      else
        let x := s.readOwn k 4096
        match x.2 with
        | some u => restoreUnits n (x.1.restoreUnit r key u)
        | none => x.1
    | _, _ => s

/-- An image is in place: own, with its list as list A, or of the buddy. RESTORED once both are. -/
def State.imageDone (s : State) (buddy : Bool) (step : Nat) (list : List Byte) : State :=
  let s := if buddy then
      let s := s.wr 0 pgStp 0x248 (step % 2 ^ 48 + 2 ^ 48)
      { s with ckpt := { s.ckpt with run := none, buddyDone := some step },
               retained := { s.retained with buddyB := false, buddyValid := true } }
    else
      let s := (s.partWrite (s.rdF 0 pgWit 0x088 0 52) list).1
      { s with ckpt := { s.ckpt with run := none, ownDone := some step } }
  let all := s.ckpt.ownDone = some step ∧ s.ckpt.buddyDone = some step
  ((s.setCkpState (if all then 5 else 0)).ckpCode 0).wr 0 pgStp 0x240 step

/-- RESTORE_COMPLETE: the last chunk of the image is in place. -/
def execRestoreComplete (s : State) : GRes :=
  .next <|
    match s.ckpt.run with
    | some r =>
      if r.exporting = false ∧ r.units ≤ r.pos then s.imageDone r.buddy r.step (slice r.front 128 (32 * r.chunks)) else s
    | none => s

/-- FETCH_OWN: `f` is what the holder answered, the step of its buddy copy and the copy. The copy is hashed as it is
written to SHARD_A, and accepted where the digest is the entry's. -/
def State.fetchImage (s : State) (b : Book) (f : Option (Nat × List Byte)) : State :=
  let m := s.ckpt.manifest
  let e := manEntryOf m b.castRank
  let len := fieldAt e 8 8
  match f with
  | none => s.ckpCode 12
  | some (step, copy) =>
    if step ≠ manStep m then s.ckpCode 12
    else
      let n := chunksIn len
      let list := (List.range n).flatMap fun c => sm3 (slice copy (c * 2 ^ 22) (2 ^ 22))
      let s := (s.partWrite (b.retain.getD 0 (0, 0)).1 (copy.take len)).1
      if copy.length ≠ len ∨ sm3 (leBytes 8 step ++ leBytes 8 len ++ list) ≠ slice e 0x10 32 then s.ckpCode 6
      else s.imageDone false step list

/-! ### CKP_CMD (Table 17-7) -/

/-- What a write of CKP_CMD does. A restore runs only on an IDLE part with a staged book. -/
def State.ckpCommand (s : State) (v : Nat) (f : Option (Nat × List Byte)) : State :=
  let op := bitsOf v 0 4
  let busy := s.ckpState = 1 ∨ s.ckpState = 4
  if op = 0 ∨ 5 < op then s
  else if op = 5 then
    if busy then ({ s with ckpt := { s.ckpt with run := none } }).setCkpState 6 else s
  else if busy then s.ckpCode 13
  else if op = 1 then s.signManifest
  else
    match s.books.staged with
    | none => s
    | some b =>
      if s.stepState ≠ 0 then s
      else if op = 2 ∨ s.ckpt.manifest = [] then
        let r := s.acceptManifest b
        if r.2 = false then r.1
        else if op = 2 then (if s.ckpKey.isNone then (r.1.setCkpState 0).ckpCode 7 else r.1.restoreBegin b false b.castRank 0)
        else if op = 3 then (if s.ckpKey.isNone then (r.1.setCkpState 0).ckpCode 7 else r.1.restoreBegin b true b.buddyOf 2)
        else r.1.fetchImage b f
      else if op = 3 then (if s.ckpKey.isNone then (s.setCkpState 0).ckpCode 7 else s.restoreBegin b true b.buddyOf 2)
      else s.fetchImage b f

/-- A CKP_CMD row. -/
def State.ckpRow (s : State) (w : Writer) (op dev : Nat) (f : Option (Nat × List Byte)) : State :=
  let v := op + dev * 2 ^ 4
  (s.write1 0 pgStp 0x230 w v).then_ fun s => s.ckpCommand v f

def execSign (w : Writer) (s : State) : GRes := .next (s.ckpRow w 1 0 none)
def execRestoreOwn (w : Writer) (s : State) : GRes := .next (s.ckpRow w 2 0 none)
def execRestoreBuddy (w : Writer) (s : State) : GRes := .next (s.ckpRow w 3 0 none)
def execFetchOwn (w : Writer) (dev : DevIx) (f : Option (Nat × List Byte)) (s : State) : GRes :=
  .next (s.ckpRow w 4 dev.val f)
def execAbandon (w : Writer) (s : State) : GRes := .next (s.ckpRow w 5 0 none)

/-- The engine goes on with the ring. -/
def State.ringGo (s : State) : State :=
  match s.ckpt.run with
  | some r => if r.exporting then exportUnits (r.units + 1) s else restoreUnits (r.units + 1) s
  | none => s

/-- RING_SW_WRITE. -/
def execRingSwWrite (w : Writer) (v : BitVec 64) (s : State) : GRes :=
  .next ((s.write1 0 pgStp 0x220 w v.toNat).then_ State.ringGo)

/-- WRITER: a member learns the writer of its group; the export begins at action 5, or at once where that has come. -/
def execWriter (h : CueHdr) (writer copies : Nat) (s : State) : GRes :=
  .next <| s.agentUp fun s =>
    let s := s.noteWriter h.step writer copies
    if s.stepState = 1 then s.exportBegin else s

end Sys2Proof.Machine
end

