-- ==== Sys2Proof/Machine/Activate.lean ====
section
/-! DEFINITION. The end of a curtain: change of tables and activation (02 R46, R47; 14 Table 14-10), action 4, units that
change state (16 R355 to R360; 11 R253, R266), and action 5 (01 R20). -/

namespace Sys2Proof.Machine

abbrev ARes := Host.Outcome State Fault Refusal

/-! ### Bays and logical numbers (06 R122; 15 R339; 16 R355, R356) -/

/-- Give or take a bay's logical number. -/
def State.setLbay (s : State) (d b : Nat) (lb : Option Nat) : State :=
  s.wr d (pgMxe b) 0x080 (match lb with | some n => n % 32 + 32 | none => 0)

/-- At an activation, a logical number that no bay in service holds goes to the first bay in service without one. -/
def State.mapBays (s : State) : State :=
  (List.range 32).foldl (fun s lb =>
    match s.bayOf lb with
    | some _ => s
    | none =>
      match allBays.find? fun x => s.unit 0 x.1 x.2 = .inService && (s.lbayOf x.1 x.2).isNone with
      | some x => s.setLbay x.1 x.2 (some lb)
      | none => s) s

/-- ROLE of a die's duplicate unit (15 Table 15-11): checks stopped where no bay in the wings remains on any die (01 R19). -/
def State.checkRole (s : State) (d : Nat) : Nat :=
  if (s.wingsBay d).isSome then 1 else if (s.checkDie d).isNone then 2 else 0

/-- Set the checker map (R339). That duplicate execution has stopped is reported once (01 R19). -/
def State.checkerMap (s : State) : State :=
  let stops := (s.checkDie 0).isNone && s.rdF 0 pgDup 0x028 0 2 ≠ 2
  let s := foldNat 4 (fun s d =>
    let c := s.checkDie d
    let v := (c.getD 0) * 2 ^ 8 + bitAt (c = some d) 10 + bitAt c.isNone 11
    s.wr d pgDup 0x028 (s.rdF d pgDup 0x028 2 6 * 4 + s.checkRole d + v)) s
  if stops then s.logAt 0 srcHw .dupFallback [] else s

/-- A bay goes DARK: a bay in the wings takes its logical number, on its own die or the first after it in ring order;
duplicate checks fall back to the bays that remain (01 R19). -/
def State.darkBay (s : State) (d b : Nat) : State :=
  let lb := s.lbayOf d b
  let s := (s.setUnit 0 d b .dark).setLbay d b none
  match lb with
  | none => s
  | some n =>
    match ((d :: ringAfter d).filterMap fun x =>
        ((List.range 9).find? fun i => s.unit 0 x i = .wings).map fun i => (x, i)).head? with
    | none => s
    | some x =>
      let s := ((s.setUnit 0 x.1 x.2 .inService).setLbay x.1 x.2 (some n)).setBayCtx x.1 x.2 0
      s.logAt x.1 srcHw .dupFallback [d, b, x.1, x.2, n]

/-! ### Banks and rows (11 R253, R266) -/

/-- Serve a logical bank by a physical bank. -/
def State.setBank (s : State) (d lb b : Nat) : State := s.wrF d pgShc (0x080 + 8 * (lb / 10)) (6 * (lb % 10)) 6 b

/-- Spares left. -/
def State.showSpares (s : State) (d : Nat) : State :=
  s.wrF d pgShc 0x0A8 50 6 ((List.range 50).filter fun i => s.unit 2 d i = .wings).length

/-- The logical banks that a physical bank serves. -/
def State.logicalOf (s : State) (d b : Nat) : List Nat := (List.range 48).filter fun lb => s.physBank d lb = b

/-- One of the remaining banks serves a logical bank too, of those that serve one alone, which one being open (a free value),
and the die is degraded. -/
def State.shareBank (s : State) (d lb : Nat) : State :=
  let rest := (List.range 50).filter fun i => s.unit 2 d i = .inService && decide ((s.logicalOf d i).length < 2)
  let i := rest.getD (s.free.toNat % max 1 rest.length) (s.physBank d lb)
  ((s.took 1).setBank d lb i).wrF d pgShc 0x0A8 56 1 1

/-- A bank goes out: a spare takes its logical number and starts empty; with none left, it is shared. -/
def State.darkBank (s : State) (d b : Nat) : State :=
  let s := s.setUnit 2 d b .dark
  let held := s.logicalOf d b
  let s := held.foldl (fun s lb =>
    let s := s.emptyBank d lb
    match (List.range 50).find? fun i => s.unit 2 d i = .wings with
    | some i => (s.setUnit 2 d i .inService).setBank d lb i
    | none => s.shareBank d lb) s
  s.showSpares d

/-- A row is repaired: whether it has a repair left is open (entry 27). One that has none is an event of its pseudo-channel,
of a rehearsal where it is that's (15 R352). -/
def State.repairRow (s : State) (r : RowDue) : State :=
  let d := r.pc / 192
  let pg := pgApr (r.pc % 192 / 64)
  let left := s.free.toNat % 2 = 0
  let s := s.took 1
  if left then
    let s := (s.incF d pg 0x0B0 0 16 1).incF d pg 0x0B0 16 16 1
    { s with history := { s.history with hard := s.history.hard ++ [r.pc] } }
  else (s.setErr d pg 12).histEvent 4 d (r.pc % 192) 4 fun e => { e with flags := bitAt r.reh 0, address := some r.addr }

/-- Repair the rows that are due. -/
def State.repairRows (s : State) : State :=
  let s := s.mem.rows.foldl State.repairRow s
  { s with mem := { s.mem with rows := [] } }

/-- Unit states change at action 5. A core's changes wait for its cluster's reset (R355). -/
def State.moveUnits (s : State) : State :=
  let due := s.history.due
  let passed := s.history.passed
  let s := passed.foldl (fun s k =>
    if s.unit (k / 1024) (k / 64 % 16) (k % 64) = .audition ∧ due.contains k = false ∧ k / 1024 ≠ 1 then
      s.setUnit (k / 1024) (k / 64 % 16) (k % 64) .wings
    else s) s
  let s := due.foldl (fun s k =>
    let d := k / 64 % 16
    match k / 1024 with
    | 0 => if s.unit 0 d (k % 64) = .dark then s else s.darkBay d (k % 64)
    | 2 => if s.unit 2 d (k % 64) = .dark then s else s.darkBank d (k % 64)
    | _ => s) s
  let s := s.mem.bankDue.foldl (fun s k => if s.unit 2 (k / 64) (k % 64) = .dark then s else s.darkBank (k / 64) (k % 64)) s
  let s := foldNat 4 State.showSpares s
  let core (k : Nat) : Bool := k / 1024 = 1
  let hist := { s.history with due := due.filter core, passed := passed.filter core }
  ({ s with history := hist, mem := { s.mem with bankDue := [] } }).repairRows.checkerMap

/-! ### Activation (R46, R47) and the change of tables (Table 14-10) -/

/-- Registers whose writes take effect at an activation. -/
def enforcedRegs : List (Nat × Nat) :=
  [(pgStp, 0x100), (pgStp, 0x108), (pgStp, 0x110), (pgStp, 0x200), (pgWit, 0x080), (pgWit, 0x088), (pgWit, 0x090),
    (pgCue, 0x080)] ++ (List.range 8).map fun n => (pgPwr, 0x080 + 8 * n)

/-- The sustainable level at an activation (19 R406): the highest point of at most 1,500 MHz. -/
def State.sustainReset (s : State) : State :=
  let ok := (List.range 8).filter fun n => decide (opFreq (s.opNow n) ≤ 1500)
  s.wr 0 pgPwr 0x0F0 (ok.foldl max 0)

/-- The roster comes into the view with view number 0; a device that it lists is fenced no more (R361, R375). -/
def State.activateRoster (s : State) (b : Book) : State :=
  if s.cuesDown then s.cuesLater 1
  else
  let s := s.rosterTouch
  match s.roster b.castSize with
  | none => s
  | some r =>
    let s := r.foldl (fun s x => s.setFence x.1 false) (s.loadRoster r)
    s.wrF 0 pgCue 0x098 0 32 0

/-- Every slot of a bay starts again at the first descriptor of its list (10 R213). Signal units still unused are added to
SIG_LEFT at action 5; at an activation they stay in the count till then (10 R219). -/
def State.restartSlots (s : State) (d b : Nat) (keep : Bool) : State :=
  (List.range 32).foldl (fun s sl =>
    let x := s.slotOf d b sl
    if keep then s.setSlot d b sl { sig := x.sig } else (s.incF d (pgSu b) 0x0B8 0 32 x.sig).setSlot d b sl {}) s

/-- The same in the save set of the book context on a bay where another context runs. -/
def State.restartSaved (s : State) (d b : Nat) (m : Mxe) (v : Vxe) (keep : Bool) : State :=
  let k := s.bookId * 64 + bayKey d b
  let sigs := (List.range 32).map fun i => (((s.bookSaved d b).bind fun x => x.slots[i]?).map (·.sig)).getD 0
  let s := if keep then s else s.incF d (pgSu b) 0x0B8 0 32 sigs.sum
  let set : SaveSet := { mxe := m, vxe := v, slots := sigs.map fun n => { sig := if keep then n else 0 }, begun := true }
  { s with ctx := { s.ctx with saved := Tab.put s.ctx.saved k set } }

/-- The engines and slots of the book context on every bay start afresh, in every save set that it has, too: V and M registers
0, nothing to run, no amax (08 R161; 09 R183; 10 R213). -/
def State.restartBays (s : State) (keep : Bool) : State :=
  allBays.foldl (fun s x =>
    if s.isBook x.1 x.2 then ((s.restartSlots x.1 x.2 keep).setMxe x.1 x.2 { atEnd := true }).setVxe x.1 x.2 { atEnd := true }
    else if (s.lbayOf x.1 x.2).isSome ∨ (s.bookSaved x.1 x.2).isSome then
      s.restartSaved x.1 x.2 { atEnd := true } { atEnd := true } keep
    else s) s

/-- The book context begins a quantum on the bays that it runs without a switch (12 R279). -/
def State.quantaBegin (s : State) : State :=
  allBays.foldl (fun s x =>
    if Tab.get 0 s.ctx.bays (bayKey x.1 x.2) = 0 then
      { s with ctx := { s.ctx with baySince := Tab.set 0 s.ctx.baySince (bayKey x.1 x.2) (s.now x.1) } }
    else s) s

/-- The book becomes active: its flows and slots are loaded, written values come into force. A part that an admission
brings in has its view from the COMMIT. Skips are counted on where the activation comes with one, and at the limit the part stays
stopped (08 R178). DESIGN CHOICE (entry 170): pending lowerings of tensors that the new array does not hold are dropped. -/
def State.activate (s : State) (b : Book) : State :=
  let admitted := s.step.admitted
  let skipped := s.step.decision = some .skip
  let s := enforcedRegs.foldl (fun s x => s.enforce 0 x.1 x.2) s
  let staged := if s.books.staged = some b then none else s.books.staged
  let s := { s with
    books := { s.books with held := s.books.active, active := some b, staged := staged, atVote := none },
    fabric := { s.fabric with flows := b.circuits, sched := b.slots },
    dup := { s.dup with mism := [] },
    ckpt := { s.ckpt with begun := false, manifest := [] } }
  let named := ((b.circuits.filter (·.conf)).map (·.key)).eraseDups
  let s : State := foldNat 4 (fun s d =>
    let s := s.wrF d pgRtr 0x028 16 17 b.circuits.length
    s.wr d pgRtr 0x100 (bitsWhere 16 (fun i => (Tab.find s.sec.keys i).isSome) + bitsWhere 16 (fun i => named.contains i) * 2 ^ 16)) s
  let s := s.wrF 0 pgStp 0x098 10 1 0
  let spec := s.recSpec true
  let s : State := { s with tensors := (s.recordsAt (s.recKey b spec.2) spec.1).map (·.tensor) }
  let lower := s.retained.lower.filter fun x => s.tensors.contains x.1
  let s := { s with retained := { s.retained with lower := lower } }
  let s : State := allBays.foldl (fun s x => s.wr x.1 (pgVxe x.2) 0x0B8 (s.tensors.length + 2 ^ 13)) s
  let s := (if skipped then s else s.wrF 0 pgStp 0x118 0 9 0).sustainReset
  let s := if admitted then s else s.activateRoster b
  let s : State := ({ s with resets := { s.resets with curtain := true } }).mapBays.checkerMap
  let s := (s.restartBays true).quantaBegin.writeLive
  if s.stepState = 0 ∧ skipped = false then { s with step := { decision := some .certify, a1Done := true, a2Done := true } } else s

/-- The blocking table delivered takes effect at a curtain (13 R304). -/
def State.takeTable (s : State) : State :=
  match s.fabric.tableIn with
  | some t => { s with fabric := { s.fabric with table := t, tableIn := none } }
  | none => s

/-- Step 5 of a change of tables: the book voted for is activated, the route banks change, links are admitted, injection
is released. -/
def State.applyTables (s : State) : State :=
  let s := match s.books.atVote with
    | some b => s.activate b
    | none => s
  let s := foldNat 4 (fun s d =>
    let s := s.wrF d pgRtr 0x028 0 1 (1 - s.rdF d pgRtr 0x028 0 1)
    ((s.wrF d pgRtr 0x028 1 1 1).wrF d pgRtr 0x028 3 1 0).wrF d pgRtr 0x028 5 1 0) s
  let s := { s with fabric := { s.fabric with hold := false }, step := { s.step with change := false } }
  let s := foldNat 4 (fun s d => s.holdEffect d) s
  let s := s.cue.back.foldl (fun s x =>
    let s := s.setFence x false
    { s with cue := { s.cue with pool := if s.cue.pool.contains x then s.cue.pool else s.cue.pool ++ [x] } }) s
  let s := { s with cue := { s.cue with back := [] } }
  let s := { s with resets := { s.resets with curtain := true } }
  foldNat 20 (fun s p => s.pump p) s.takeTable.admitLinks.timeTree.showRole

/-! ### Actions 2 to 4 -/

/-- The round of an IDLE part with a staged book (entry 32): the roster comes into the view, where it is good, and the
part votes for the activation. -/
def State.openIdle (s : State) (b : Book) : State :=
  if (s.roster b.castSize).isNone then (s.joins b).1
  else (({ s with step := {} }.activateRoster b).newRound b.firstStep).castVote

/-- May an IDLE part open such a round? -/
def State.idleFree (s : State) : Bool :=
  s.stepState = 0 && s.step.decision ≠ some .certify && !s.cue.held && !s.step.change && s.cue.call.isNone

/-- CURTAIN_ACTION2: once every queued check has ended. The part votes at once. An IDLE part with a staged book votes
for its activation (entry 32). -/
def execCurtainAction2 (s : State) : ARes :=
  .next <|
    if s.stepState = 2 ∧ s.step.a1Done = true ∧ s.step.a2Done = false ∧ s.dup.jobs.isEmpty = true then
      ((s.action2.wrF 0 pgStp 0x0B0 0 3 3).castVote.tryDecide).tryAck.adoptLate
    else match s.books.staged with
      | some b => if s.idleFree then (s.openIdle b).tryDecide else s
      | none => s

/-- CURTAIN_TIMEOUT: no decision within the book's CURTAIN_TIMEOUT after action 2. The part holds the step rolled back,
sets TIMED_OUT, and votes again at the next attempt (R30, R367). -/
def execCurtainTimeout (s : State) : ARes :=
  .next <|
    let limit := ((s.books.active.map (·.curtainTimeout)).getD 2000) * 1000000
    if s.stepState ≠ 3 ∨ s.step.a2Done = false ∨ s.step.decision.isSome ∨ s.cue.committed.isSome ∨ s.cue.held ∨
        s.now 0 < s.step.a2Time + limit then s
    else
      let s := ((s.wrF 0 pgStp 0x0B0 4 4 2).noCert 4).wrF 0 pgCue 0x028 6 1 1
      let s := (s.setRound s.cue.step (s.attempt + 1)).setErr 0 pgCue 10
      let s := { s with cue := s.cue.clearVotes }
      (s.castVote true).tryDecide

/-- BUDDY_STREAM_COMPLETE: the buddy has acknowledged the whole new shard (R29). While an export reads the region that comes
next to be written, action 4 goes on. -/
def execBuddyStreamComplete (s : State) : ARes :=
  .next <|
    let busy : Bool := s.ckpt.run.any (·.exporting)
    if s.step.buddyOpen = false ∨ busy = true ∨ s.buddyDone = false then s
    else
      let s := { s with step := { s.step with buddyOpen := false } }
      if s.step.change then s.holdTables else s

/-! ### Action 5 -/

/-- The sustainable level (19 R406) as the curtain leaves it. -/
def State.sustain (s : State) : State :=
  let level := s.rdF 0 pgPwr 0x0F0 0 3
  let clean := s.rdF 0 pgPwr 0x0F0 3 5
  let span := (s.now 0 - s.power.since) / 1000
  let hard := (List.range 4).foldl (fun m d => max m (s.rdF d pgPwr 0x0D8 32 32)) 0
  let top := ((List.range 8).filter fun n => decide (opFreq (s.opNow n) ≤ s.sec.sensed.fLimit)).foldl max 0
  if span < 16 * hard then s.wr 0 pgPwr 0x0F0 (level - 1)
  else if 0 < hard ∨ s.power.hot then s.wr 0 pgPwr 0x0F0 level
  else if 16 ≤ clean + 1 then s.wr 0 pgPwr 0x0F0 (if level < top then level + 1 else level)
  else s.wr 0 pgPwr 0x0F0 (level + (clean + 1) * 8)

/-- Counters of the step and what a page shows of it, cleared at action 5: offsets of whole registers. -/
def stepRegs (k : PageKind) : List Nat :=
  match k with
  | .mxe => [0x090, 0x098, 0x0A0, 0x0A8, 0x0B0]
  | .vxe => [0x088, 0x090, 0x098, 0x0A0, 0x0A8, 0x0B0]
  | .su => [0x098, 0x0A0, 0x0A8, 0x0B8, 0x0C0]
  | .shc => [0x0B0, 0x0B8, 0x0C0]
  | .cp => [0x0A8, 0x0B8, 0x0C0, 0x0C8]
  | .rtr => [0x0D8, 0x0E0, 0x0E8, 0x0F0, 0x0F8]
  | .wit => [0x098, 0x120]
  | .dup => [0x080, 0x088, 0x090, 0x098, 0x0A0, 0x0A8, 0x0B0, 0x0B8]
  | .stp => [0x120]
  | _ => []

/-- Clear the counters of the step. -/
def State.clearCounters (s : State) : State :=
  let s := foldNat 4 (fun s d => (diePages d).foldl (fun s pg =>
    ((pageKind d pg).map stepRegs |>.getD []).foldl (fun s off => s.wr d pg off 0) s) s) s
  let s := foldNat 4 (fun s d =>
    ((s.wrF d pgPwr 0x0D8 32 32 0).wrF d pgPwr 0x0E0 32 16 0).wrF d pgPwr 0x0E0 48 16 0) s
  let s := foldNat 4 (fun s d => s.wrF d pgRtr 0x028 4 1 0) s
  s.wrF 0 pgRst 0x108 0 36 0

/-- The TILE descriptors of a logical bay, in index order (06 R122). DEDUCED (entry 148): where the PHASE records do not
stand in the order of R27, the descriptors of a phase that comes earlier run earlier, and END last. -/
def Book.bayTiles (b : Book) (lb : Nat) : List TileRef :=
  let mine := (List.range b.tiles.length).filter fun i => (b.tiles[i]?).any fun t => t.lbay = lb
  let ends (i : Nat) : Bool := (b.tiles[i]?).any fun t => t.opcode = 0xFF
  let body := (List.range (b.order.length + 4)).flatMap fun k => mine.filter fun i => !(ends i) && b.tilePlace i = k
  (body ++ mine.filter ends).map fun i => ⟨false, i⟩
def Book.bayProgs (b : Book) (lb : Nat) : List VecProg := b.programs.filter fun p => p.lbay = lb

/-- A bay's engines at the start of a step (06 R122; 09 R183, R203): live, or in the book context's save set where
another context runs. -/
def State.startBay (s : State) (bk : Book) (d b lb : Nat) : State :=
  let tiles := bk.bayTiles lb
  let m : Mxe := { work := tiles, atEnd := tiles.isEmpty }
  let v : Vxe := Vxe.nextProg { queue := bk.bayProgs lb }
  if s.isBook d b then (((s.restartSlots d b false).setMxe d b m).setVxe d b v).progress d b
  else s.restartSaved d b m v false

/-- VALID is cleared in the first `n` entries of a sector of the witness table at address `a`; one that holds uncorrectable
data is written whole, as zeros (15 R336; 11 R468). -/
def State.clearWitSec (s : State) (a n : Nat) : State :=
  match s.readOwn (addrKey a) 64 with
  | (s, none) => (s.partWrite a (List.replicate 64 0)).1
  | (s, some old) =>
    (s.partWrite a (((List.range 64).zip old).map fun x => if x.1 % 16 = 4 ∧ x.1 / 16 < n then x.2 &&& 0xFE else x.2)).1

/-- The witness table's entries are cleared, in memory too (15 R336). -/
def State.clearWit (s : State) (b : Book) : State :=
  let n := b.tiles.length + b.fallback.length
  let s := (List.range ((n + 3) / 4)).foldl (fun s i => s.clearWitSec (s.inf 0 pgWit 0x080 + 64 * i) (n - 4 * i)) s
  { s with wtab := [] }

/-- A rehearsal of kind 2 forces a transmit lane off as its step begins, which one being open (a free value): the
neighbour, which receives it, asks for the retrain (16 Table 16-9; 13 R298). -/
def State.rehLane (s : State) : State :=
  match s.rehOn 2 false with
  | none => s
  | some r =>
    let p := r.pick % 20
    if s.linkSt p = 4 ∧ s.cpF p 0x028 6 1 = 0 then
      (s.took 1).rehInject r (8 * p + s.cpF p 0x080 (3 * (s.free.toNat % 4)) 3)
    else s

/-- Begin step `n`, or its encore. -/
def State.beginStep (s : State) (bk : Book) (n : Nat) (encore : Bool) : State :=
  let s := s.sustain.moveUnits.takeTable.timeTree.clearCounters
  let again := if encore ∧ n = s.cue.step then s.cue.encores else 0
  let s := { s with
    step := {},
    mem := { s.mem with bankUe := [] },
    fabric := { s.fabric with lostLog := [] },
    dup := { s.dup with count := [], first := [], jobs := [] },
    digest := {},
    cue := { s.cue with encores := again, reh := if encore then none else s.cue.reh },
    power := { s.power with phase := [], hot := false, since := s.now 0, shed1 := decide (1 ≤ s.shed) } }
  let s := s.clearWit bk
  let s : State := s.restartBays false
  let s : State := s.mappedBays.foldl (fun s x => s.startBay bk x.1 x.2 ((s.lbayOf x.1 x.2).getD 32)) s
  let s := s.showPend.writeLive
  let s := (s.wrF 0 pgStp 0x0A0 0 48 n).wrF 0 pgStp 0x0B0 0 8 (1 + bitAt encore 3)
  let s := if encore then s.incF 0 pgCue 0x0B0 48 16 1 else s
  let s := if s.cue.fNext = 0 then s else s.wrF 0 pgPwr 0x0C8 22 11 s.cue.fNext
  let s := foldNat 4 State.retarget s
  (s.newRound n).rehLane

/-- The step that action 5 begins: its number, and whether it is an encore. -/
def State.nextStep (s : State) (bk : Book) : Nat × Bool :=
  if s.step.decision = some .rollBack then (s.stepCur, true)
  else if s.stepState = 0 then (bk.firstStep, false)
  else (s.stepCur + 1, false)

/-- May action 5 begin: actions 1 and 2 are done (01 R20), the decision has come, action 4 is complete, no change of tables
pends, the cast is not held at the curtain, skips have not stopped the part (08 R178), and what an encore needs is in
place? -/
def State.beginReady (s : State) : Bool :=
  s.step.decision.isSome && s.step.decision ≠ some .stop && s.step.a1Done && s.step.a2Done && s.rdF 0 pgStp 0x118 8 1 = 0 &&
    !s.step.buddyOpen && !s.step.change && !s.cue.held &&
    !(s.fenced s.ident.1) && !s.power.down &&
    (s.step.decision ≠ some .rollBack ||
      (s.retained.inputsLost.isEmpty && !(s.retained.toRestore.any fun x => x.2.2 = 1 || x.2.2 = 2)))

/-- STEP_BEGIN. -/
def execStepBegin (s : State) : ARes :=
  .next <|
    match s.books.active with
    | none => s
    | some bk =>
      if s.beginReady = false then s
      else
        let x := s.nextStep bk
        if 0xFFFFFFFFFFFF ≤ x.1 then s.wrF 0 pgStp 0x0B0 4 4 1
        else if s.step.decision = some .certify then (s.beginStep bk x.1 x.2).exportBegin
        else s.beginStep bk x.1 x.2

end Sys2Proof.Machine
end

