-- ==== Sys2Proof/Machine/CueRows.lean ====
section
/-! DEFINITION. Cue messages and timers (16 R363 to R375; 14 R326), and unit commands (16 R355 to R360). -/

namespace Sys2Proof.Machine

/-! ### Rounds (R363, R367) -/

/-- Does a message belong to the current round? -/
def State.inRound (s : State) (h : CueHdr) : Bool := h.step = s.cue.step && h.attempt = s.attempt

/-- A message that does not belong to the round is counted and ignored. -/
def State.ignored (s : State) : State := s.incF 0 pgCue 0x0A8 48 16 1

/-- The device of a sender: of its rank in the view. -/
def State.fromLeader (s : State) (h : CueHdr) : Bool := s.rankDev h.rank = some s.leader

/-- A member hears from its leader: the 400 µs of its silence begin again (R367). -/
def State.hears (s : State) (h : CueHdr) : State :=
  if s.fromLeader h && !s.leads then { s with cue := { s.cue with heard := s.now 0 } } else s

/-- Perform `f` for a message of the round. -/
def State.ofRound (s : State) (h : CueHdr) (f : State → State) : State :=
  if s.inRound h then f (s.hears h) else s.ignored

/-- What the part held of the votes of the attempt before is gone. -/
def State.freshVotes (s : State) : State := { s with cue := { s.cue.clearVotes with gotPairs := 0, gotFences := 0 } }

/-- Vote again in the attempt the part is in, saying what it has acknowledged or received. -/
def State.voteAgain (s : State) : State :=
  match s.cue.mine with
  | none => s.castVote
  | some m =>
    let body := { m.body with prepAttempt := (s.cue.prep.map (·.1)).getD 0, prepOutcome := s.cue.prep.map (·.2.outcome),
                              committed := s.cue.committed, view := BitVec.ofNat 32 s.viewNum }
    let m := { m with body := body }
    ((s.ownVote m).setPhase 1).sendVote m

/-- Move to attempt `a` of the round and vote again there. -/
def State.revote (s : State) (a : Nat) : State :=
  ((s.setRound s.cue.step a).setErr 0 pgCue 10).freshVotes.voteAgain

/-- VOTE at the leader. A vote of a higher attempt that this part leads brings it there; a vote for the activation of the
staged book brings an IDLE part into the round (entry 32). -/
def execVote (h : CueHdr) (v : VoteBody) (s : State) : KRes :=
  .next <| s.agentUp fun s =>
    let s := match s.books.staged with
      | some b => if s.idleFree ∧ s.cue.mine.isNone ∧ h.step = b.firstStep then s.openIdle b else s
      | none => s
    let s := if h.step = s.cue.step ∧ s.attempt < h.attempt ∧ s.leaderOf h.step h.attempt = s.ident.1 ∧
        (s.cue.mine.isSome ∨ s.stepState = 3) then s.revote h.attempt else s
    if s.inRound h = false ∨ v.view.toNat ≠ s.viewNum ∨ s.leads = false then s.ignored
    else (s.takeVote h.rank v).tryDecide

/-- DIGEST at the leader. -/
def execDigest (h : CueHdr) (kind : BitVec 8) (value : BitVec 256) (s : State) : KRes :=
  .next <| s.agentUp fun s =>
    s.ofRound h fun s =>
      if s.leads = false then s
      else if h.rank = 0xFFFF ∧ kind.toNat = 2 then
        { s with cue := { s.cue with poolDigests := s.cue.poolDigests ++ [value] } }
      else (s.takeDigest h.rank kind.toNat value).tryDecide

/-! ### Prepared decisions (R366) -/

/-- Pairs as a message carries them, the unused ones dropped where `keep` is false. -/
def pairNats (ps : List (BitVec 32 × Nat)) : List (Nat × Nat) := ps.map fun x => (x.1.toNat, x.2)

/-- PAIRS: of a member at the leader, of the leader at a member. -/
def execPairs (h : CueHdr) (ps : List (BitVec 32 × Nat)) (s : State) : KRes :=
  .next <| s.agentUp fun s => s.ofRound h fun s =>
    if s.leads then (s.takePairs h.rank (pairNats ps)).tryDecide
    else
      let more := (pairNats ps).filter fun x => x.2 ≠ 0
      ({ s with cue := { s.cue with prepPairs := s.cue.prepPairs ++ more, gotPairs := s.cue.gotPairs + 1 } }).tryAck

/-- FENCES at a member. -/
def execFences (h : CueHdr) (ds : List Nat) (s : State) : KRes :=
  .next <| s.agentUp fun s => s.ofRound h fun s =>
    if s.leads then s
    else
      let more := ds.filter (· ≠ 0xFFFF)
      ({ s with cue := { s.cue with prepFences := s.cue.prepFences ++ more, gotFences := s.cue.gotFences + 1 } }).tryAck

/-- A pool part that a decision calls or admits is in no round of its own: it takes the one of the leader's message, and
where it has no view yet, its roster's. -/
def State.poolJoins (s : State) (h : CueHdr) (p : PrepBody) : State :=
  if s.ownRank ≠ 0xFFFF ∨ p.admitDev ≠ s.ident.1 ∧ s.cue.call.isNone = true then s
  else
    let s := s.rosterTouch
    let s := match s.cue.ranks, s.rosterRead with
      | [], some r => s.loadRoster r
      | _, _ => s
    if s.inRound h then s else (s.newRound h.step).setRound h.step h.attempt

/-- May the part acknowledge a decision: no less than it proposed itself, and after TIMED_OUT only ROLL_BACK or STOP? -/
def State.mayAck (s : State) (p : PrepBody) : Bool :=
  (match s.cue.mine with
    | some m => decide (decOrder m.body.proposal ≤ decOrder p.outcome)
    | none => true) &&
  (s.rdF 0 pgCue 0x028 6 1 = 0 || decide (2 ≤ decOrder p.outcome))

/-- PREPARE. The lists that follow it count from here. -/
def execPrepare (h : CueHdr) (p : PrepBody) (s : State) : KRes :=
  .next <| s.agentUp fun s =>
    let s := s.poolJoins h p
    s.ofRound h fun s =>
      if s.fromLeader h = false ∨ s.leads ∨ s.mayAck p = false ∨ s.cue.committed.isSome then s
      else
        let s := s.buddyFresh
        ({ s with cue := { s.cue with prep := some (s.attempt, p), prepPairs := [], prepFences := [], gotPairs := 0,
                                      gotFences := 0 } }).tryAck

/-- ACK at the leader. -/
def execAck (h : CueHdr) (outcome : Decision) (s : State) : KRes :=
  .next <| s.agentUp fun s => s.ofRound h fun s =>
    match s.cue.plan with
    | some p =>
      if s.leads = false ∨ p.body.outcome ≠ outcome then s
      else ({ s with cue := { s.cue with acks := (s.cue.acks ++ [h.rank]).eraseDups } }).tryCommit
    | none => s

/-- COMMIT: the member adopts what it acknowledged. -/
def execCommit (h : CueHdr) (outcome : Decision) (actions : BitVec 8) (view : BitVec 32) (s : State) : KRes :=
  .next <| s.agentUp fun s => s.ofRound h fun s =>
    match s.cue.prep with
    | some (_, p) =>
      if s.fromLeader h = false ∨ s.leads ∨ p.outcome ≠ outcome ∨ s.cue.committed.isSome then s
      else s.adoptIn { p with actions := actions, view := view } s.cue.prepPairs s.cue.prepFences
    | none => s

/-! ### Timers of a round -/

/-- HALT: the part ends its step; the leader relays it (R369). -/
def execHalt (h : CueHdr) (reason : BitVec 8) (s : State) : KRes :=
  .next <| s.agentUp fun s =>
    if h.step ≠ s.stepCur ∨ h.attempt ≠ s.attempt ∨ s.stepState = 0 then s.ignored
    else
      let s := if s.leads then s.sendHalt reason.toNat else (s.hears h).wrF 0 pgCue 0x028 5 1 1
      let s := s.noCert reason.toNat
      if s.stepState = 1 ∧ s.step.ended = none then
        ({ s with step := { s.step with ended := some reason.toNat } }).wrF 0 pgStp 0x0B0 0 3 2
      else s

/-- KEEP: the leader is alive: the 400 µs of R367 begin again (`State.ofRound`). -/
def execKeep (h : CueHdr) (_votes : Nat) (s : State) : KRes := .next (s.agentUp fun s => s.ofRound h id)

/-- KEEP_TIMER: every 200 µs the collecting leader sends KEEP to each member that has voted. -/
def execKeepTimer (s : State) : KRes :=
  .next <| s.agentUp fun s =>
    if s.leads = false ∨ s.phase ≠ 1 ∨ s.cue.plan.isSome ∨ s.now 0 < s.cue.keptAt + 200000 then s
    else
      let n := s.cue.votes.length
      let s := { s with cue := { s.cue with keptAt := s.now 0 } }
      (s.liveRanks.filter fun x => x.2 ≠ s.ident.1 && (Tab.find s.cue.votes x.1).isSome).foldl
        (fun s x => s.cueSend x.2 0x05 [n]) s

/-- The deadline of a round: CURTAIN_TIMEOUT less 5 ms after its first vote; in a later attempt 400 µs (R367). -/
def State.deadline (s : State) : Nat :=
  let limit := ((s.books.active.map (·.curtainTimeout)).getD 2000) * 1000000
  if s.attempt = 0 then limit - 5000000 else 400000

/-- VOTE_DEADLINE: the leader decides with the votes that are in. -/
def execVoteDeadline (s : State) : KRes :=
  .next <| s.agentUp fun s =>
    match s.cue.first with
    | some t =>
      if s.leads = false ∨ s.cue.plan.isSome ∨ s.cue.held ∨ s.cue.committed.isSome ∨ s.cue.late ≠ [] ∨ s.now 0 < t + s.deadline then s
      else s.decideNow
    | none => s

/-- LEADER_SILENCE: a member that has voted and heard nothing for 400 µs moves to the next attempt. -/
def execLeaderSilence (s : State) : KRes :=
  .next <| s.agentUp fun s =>
    if s.leads ∨ (s.phase ≠ 1 ∧ s.phase ≠ 2) ∨ s.now 0 < s.cue.heard + 400000 then s
    else (s.revote (s.attempt + 1)).tryDecide

/-- ADMIT_WINDOW_EXPIRE: ranks still absent are fenced and an understudy is called for each (R370 case 2). -/
def execAdmitWindowExpire (s : State) : KRes :=
  .next <| s.agentUp fun s =>
    let w := clampTo 100 60000 (s.cueCfg 0 16) * 1000000
    if s.leads = false ∨ s.cue.held = false ∨ s.cue.absent = [] ∨ s.cue.plan.isSome ∨ s.now 0 < s.cue.heldAt + w then s
    else
      let gone := s.cue.absent
      let s := { s with cue := { s.cue with absent := [] } }
      s.sendPrepare (s.mkPlan s.cue.after [] gone [] [] s.cue.fNext false false none false)

/-! ### Understudies (R372, R373) -/

/-- Notice 0x8001: the call that holds. -/
def State.callNotice (s : State) : State :=
  match s.cue.call with
  | some (rank, holder, buddyOf, failed, _) =>
    if s.cuesDown then s.cuesLater 0
    else s.notice 0x8001 (leBytes 2 rank ++ leBytes 2 holder ++ leBytes 2 buddyOf ++ leBytes 2 failed)
  | none => s

/-- CUES runs again: what waited for it is done. -/
def State.cuesBack (s : State) : State :=
  let todo := s.fw.cuesDue
  todo.foldl (fun s x =>
    match x, s.books.active with
    | 0, _ => s.callNotice
    | 1, some b => s.activateRoster b
    | 1, none => s
    | _, _ => s.takeRoster) { s with fw := { s.fw with cuesDue := [] } }

/-- CALL at a pool part: software is notified by notice 0x8001. -/
def execCall (h : CueHdr) (rank holder buddyOf failed : Nat) (s : State) : KRes :=
  .next <| s.agentUp fun s =>
    if s.ownRank ≠ 0xFFFF ∨ s.fenced s.ident.1 then s.ignored
    else
      let lead := (s.rankDev h.rank).getD s.leader
      let s := if s.inRound h then s else (s.newRound h.step).setRound h.step h.attempt
      let s := { s with cue := { s.cue with call := some (rank, holder, buddyOf, failed, lead) } }
      ({ s with leader := lead }.setPhase 5).callNotice

/-- POOL_READY_SEND: the rank's book, inputs and shards are in place. The shards come over the fabric, checked chunk by
chunk against the owner's list: their bytes are open here (free values), the lists in force being the owners'. -/
def execPoolReadySend (s : State) : KRes :=
  .next <| s.agentUp fun s =>
    match s.cue.call, s.books.staged with
    | some (rank, _, _, _, lead), some b =>
      if b.castRank ≠ rank ∨ s.offers = false then s
      else
        let s := { s with leader := lead, retained := { s.retained with curB := false, buddyB := false, buddyValid := true } }
        let s := s.cueSend lead 0x02 [2, b.bookDigest.toNat]
        s.cueSend lead 0x0B [rank, 0xF]
    | _, _ => s

/-- Is a BOOK_DIGEST that pool parts reported the one of the rank's failed device? Where the leader holds none of it, that is open:
a free bit (entry 66). -/
def State.poolBookOk (s : State) (failed : Nat) : Bool :=
  match Tab.find s.cue.books failed with
  | some y => s.cue.poolDigests.contains y
  | none => s.free.toNat % 2 = 1

/-- READY at the leader. A BOOK_DIGEST that it used is gone; of one that does not match, none is known to be its own. -/
def execReady (h : CueHdr) (dev rank : Nat) (flags : BitVec 8) (s : State) : KRes :=
  .next <| s.agentUp fun s => s.ofRound h fun s =>
    match s.cue.called.find? fun c => c.rank = rank && c.device = dev with
    | none => s.ignored
    | some c =>
      let ok := s.poolBookOk c.failed && flags.toNat % 16 = 15
      let s := (s.took 1)
      let mark (x : Called) : Called := if x.rank = rank ∧ ok = true then { x with ready := some flags.toNat } else x
      let used := (Tab.find s.cue.books c.failed).getD 0
      { s with cue := { s.cue with called := s.cue.called.map mark, poolDigests := s.cue.poolDigests.erase used } }

/-- CALL_READY_TIMEOUT: no READY within 10 s; the next pool part is called for the rank. -/
def execCallReadyTimeout (rank : Nat) (s : State) : KRes :=
  .next <| s.agentUp fun s =>
    match s.cue.called.find? fun c => c.rank = rank with
    | none => s
    | some c =>
      if c.ready.isSome ∨ s.leads = false ∨ s.cue.plan.isSome ∨ s.now 0 < c.since + 10000000000 then s
      else s.sendPrepare (s.mkPlan s.cue.after [] [] [rank] [] s.cue.fNext false false none true)

/-- HELD_ROUND: every called part is READY and every re-formed link in VCT: ADMIT and TABLES, with the pending lowerings;
under NO_SPARE, a new roster is in force and the ranks are called for again (R375). -/
def execHeldRound (s : State) : KRes :=
  .next <| s.agentUp fun s =>
    if s.leads = false ∨ s.cue.held = false ∨ s.cue.plan.isSome ∨ s.cuesDown = true then s
    else if s.cue.noSpare ≠ [] then
      let ranks := s.cue.noSpare
      let s := s.takeRoster
      if s.poolFree = [] then s
      else s.sendPrepare (s.mkPlan s.cue.after [] [] ranks [] s.cue.fNext false false none true)
    else if s.cue.called = [] ∨ s.cue.called.any (fun c => c.ready.isNone) = true then s
    else
      let pairs := s.cue.lowers
      s.sendPrepare (s.mkPlan s.cue.after [] [] [] pairs s.cue.fNext true true none false)

/-! ### Change of tables (14 Table 14-10) -/

/-- With every live part drained, the leader sends APPLY and applies. -/
def State.tryApply (s : State) : State :=
  if s.leads ∧ s.step.change = true ∧ (s.liveRanks.all fun x => s.cue.drained.contains x.1) = true then
    let s := (s.liveRanks.filter fun x => x.2 ≠ s.ident.1).foldl (fun s x => s.cueSend x.2 0x0D []) s
    s.applyTables
  else s

/-- DRAINED_REPORT: a part that holds injection has no data-class packet or entry left. -/
def execDrainedReport (s : State) : KRes :=
  .next <| s.agentUp fun s =>
    if s.dataGone = false then s
    else
      let s := foldNat 4 (fun s d => if s.rdF d pgRtr 0x028 2 1 = 1 then s.wrF d pgRtr 0x028 3 1 1 else s) s
      if s.fabric.hold = false then s
      else if s.leads then
        ({ s with cue := { s.cue with drained := (s.cue.drained ++ [s.ownRank]).eraseDups } }).tryApply
      else s.cueSend s.leader 0x0C []

/-- DRAINED at the leader. -/
def execDrained (h : CueHdr) (s : State) : KRes :=
  .next <| s.agentUp fun s => s.ofRound h fun s =>
    ({ s with cue := { s.cue with drained := (s.cue.drained ++ [h.rank]).eraseDups } }).tryApply

/-- APPLY. -/
def execApply (h : CueHdr) (s : State) : KRes :=
  .next <| s.agentUp fun s => s.ofRound h fun s => if s.fromLeader h ∧ s.step.change = true then s.applyTables else s

/-! ### Unit commands (R355, R358 to R360, Table 16-13) -/

/-- UNIT_STAT of a command. -/
def State.unitStat (s : State) (result cmd : Nat) : State := s.wr 0 pgCue 0x0C0 (result + cmd % 4096 * 2 ^ 8)

/-- The unit of a command: kind as `unitKey` has it, die, index. -/
def unitOfCmd (v : Nat) : Option (Nat × Nat × Nat) :=
  let k := bitsOf v 0 2
  let ix := bitsOf v 4 6
  if k = 0 then none
  else if (k = 3 ∧ 50 ≤ ix) ∨ (k < 3 ∧ 9 ≤ ix) then some (9, 0, 0)
  else some (k - 1, bitsOf v 2 2, ix)

/-- An audition begins: firmware loads the vectors of HM-OL-TVS, which the spec does not give, into a bay's staging (R358): free
bytes (entry 160). -/
def State.auditionIn (s : State) (k d ix : Nat) : State :=
  if k = 0 then (s.stgPutBytes d ix 0 (s.freeBytes (2 ^ 23))).took (2 ^ 23) else s

/-- What a write of UNIT_CMD does; it resets no cluster by itself (entry 172). -/
def State.unitCmd (s : State) (v : Nat) : State :=
  let op := bitsOf v 10 2
  match unitOfCmd v with
  | none => s
  | some (k, d, ix) =>
    if op = 0 ∨ op = 3 then s
    else if k = 9 then s.unitStat 1 v
    else
      let busy := (List.range 50).any fun i => s.unit k d i = .audition && !(s.history.passed.contains (unitKey k d i))
      if busy then s.unitStat 3 v
      else if op = 1 then
        if s.unit k d ix = .dark then ((s.setUnit k d ix .audition).auditionIn k d ix).unitStat 0 v else s.unitStat 2 v
      else if s.unit k d ix = .inService ∨ s.unit k d ix = .wings then
        let due := if s.history.due.contains (unitKey k d ix) then s.history.due else s.history.due ++ [unitKey k d ix]
        ({ s with history := { s.history with due := due } }).unitStat 0 v
      else s.unitStat 2 v

/-- A UNIT_CMD row. -/
def State.unitRow (s : State) (w : Writer) (k : BitVec 2) (d : Die) (ix : BitVec 6) (op : Nat) : State :=
  let v := k.toNat + d.val * 2 ^ 2 + ix.toNat * 2 ^ 4 + op * 2 ^ 10
  (s.write1 0 pgCue 0x0B8 w v).then_ fun s => s.unitCmd v

def execUnitAudition (w : Writer) (k : BitVec 2) (d : Die) (ix : BitVec 6) (s : State) : KRes := .next (s.unitRow w k d ix 1)
def execUnitDark (w : Writer) (k : BitVec 2) (d : Die) (ix : BitVec 6) (s : State) : KRes := .next (s.unitRow w k d ix 2)

/-- The number of a unit kind in `unitKey`. -/
def UnitKind.ix : UnitKind → Nat
  | .bay => 0 | .core => 1 | .bank => 2

/-- AUDITION_COMPLETE: passed, the unit waits for the next curtain; failed, it is DARK and the failure is an event. In stage 8 of
start-up firmware auditions the units that are not DARK (04 Table 4-5): one that fails has its event, by which it goes DARK. -/
def execAuditionComplete (k : UnitKind) (d : Die) (ix : Nat) (pass : Bool) (s : State) : KRes :=
  .next <|
    let n := UnitKind.ix k
    let cmd := n + 1 + d.val * 2 ^ 2 + ix % 64 * 2 ^ 4 + 2 ^ 10
    if s.resets.stage = 0x80 ∧ (s.unit n d ix = .inService ∨ s.unit n d ix = .wings) then
      if pass then s else s.histEvent (n + 1) d ix 3
    else if s.unit n d ix ≠ .audition ∨ s.history.passed.contains (unitKey n d ix) = true then s
    else if pass then
      ({ s with history := { s.history with passed := s.history.passed ++ [unitKey n d ix] } }).unitStat 4 cmd
    else ((s.setUnit n d ix .dark).histEvent (n + 1) d ix 3).unitStat 5 cmd

/-- Auditions of a die's units end ABANDONED (R360). -/
def State.abandonAuditions (s : State) : State :=
  s.units.foldl (fun s e =>
    if e.2 = .audition ∧ s.history.passed.contains e.1 = false then
      (s.setUnit (e.1 / 1024) (e.1 / 64 % 16) (e.1 % 64) .dark).wrF 0 pgCue 0x0C0 0 8 6
    else s) s

end Sys2Proof.Machine
end

