-- ==== Sys2Proof/Machine/Image.lean ====
section
/-! DEFINITION. The device identity and firmware images (20 R425; 21 R443, R444, R446). -/

namespace Sys2Proof.Machine

/-! ### The device identity (R443, R444) -/

/-- K, the key of the wrapped identity key. -/
def Fuses.wrapKey (f : Fuses) : List Byte := (sm3 ([0x4F, 0x4C, 0x49, 0x44, 0x4B] ++ leBytes 32 f.drs.toNat)).take 16

/-- The identity private key d: IDK_WRAP decrypted as two SM4 blocks under K. -/
def Fuses.identityKey (f : Fuses) : List Byte :=
  let w := leBytes 32 f.idkWrap.toNat
  Config.sm4Decrypt f.wrapKey (w.take 16) ++ Config.sm4Decrypt f.wrapKey (w.drop 16)

/-- The key unit's check at stage 2: SM3 of the public key of d equals IDK_PUB_HASH. -/
def Fuses.identityOk (f : Fuses) : Bool := leNat (sm3 (Config.sm2Public f.identityKey)) = f.idkPubHash.toNat

/-- Does the part accept its identity certificate (R444)? -/
def State.certOk (s : State) : Bool :=
  let c := s.sec.cert
  let f := s.sec.sensed
  c.length = 256 && slice c 0x18 64 = Config.sm2Public f.identityKey &&
    decide (leNat (sm3 (slice c 0x58 64)) = f.vendorHash.toNat) &&
    Config.sm2Verify (slice c 0x58 64) (sm3 (c.take 0xC0)) (slice c 0xC0 64)

/-! ### The image (Tables 20-4, 20-5, 21-3) -/

/-- The component entries of an image. -/
def imageEntries (bs : List Byte) : List (List Byte) :=
  (List.range (fieldAt bs 0x14 2)).map fun i => slice bs (64 + 48 * i) 48

/-- Is a component entry well formed, its bytes within the image, with their DIGEST? -/
def compEntryOk (bs e : List Byte) : Bool :=
  let id := fieldAt e 0 1
  let off := fieldAt e 4 4
  let len := fieldAt e 8 4
  (decide (id ≤ 6) || id = 0x10 || id = 0x11) && decide (off + len + 128 ≤ bs.length) &&
    slice e 0x10 32 = sm3 (slice bs off len)

/-- Is the image's form that of R425? -/
def imageForm (bs : List Byte) : Bool :=
  let n := fieldAt bs 0x14 2
  bs.take 4 = [0x4F, 0x4C, 0x46, 0x57] && fieldAt bs 4 2 = 1 && fieldAt bs 6 2 = 64 &&
    fieldAt bs 0x10 4 = bs.length && decide (bs.length ≤ 2 ^ 25) && decide (1 ≤ n ∧ n ≤ 16) &&
    decide (64 + 48 * n + 128 ≤ bs.length)

/-- Is a key one whose signature the boot ROM accepts (Table 21-3, order 2)? -/
def State.imageSigner (s : State) (key : List Byte) : Bool :=
  let f := s.sec.sensed
  let h := leNat (sm3 key)
  h = f.vendorHash.toNat ||
    (f.ownerFw && (List.range 4).any fun n => f.usable n && h = (Tab.get 0 f.ownerHash n).toNat)

/-- The code with which stage 6 refuses an image (Tables 4-6, 21-3); none where it accepts it. -/
def State.imageFault (s : State) (bs : List Byte) : Option Nat :=
  let n := bs.length - 128
  let key := slice bs n 64
  let r := fieldAt bs 0x0C 4
  if imageForm bs = false ∨ s.imageSigner key = false ∨ Config.sm2Verify key (sm3 (bs.take n)) (slice bs (n + 64) 64) = false then
    some 0xE1
  else if 64 < r then some 0xE1
  else if r < s.sec.sensed.rollback then some 0xE2
  else if (imageEntries bs).all (compEntryOk bs) then none else some 0xE1

end Sys2Proof.Machine
end

