-- ==== Sys2Proof/Machine/PowerRows.lean ====
section
/-! DEFINITION. Supply, phases, trips, the power loop, droop and shedding (03 R53 to R64; 19 R407 to R416). -/

namespace Sys2Proof.Machine

abbrev WRes := Host.Outcome State Fault Refusal

/-- Drive SMB_ALERT_N where the command moved its level (22 R465), and note when EMERGENCY was last 1 (20 R439). -/
def State.alertPin (s old : State) : State :=
  let s := if s.emergency ∨ old.emergency then { s with fw := { s.fw with clean := some (s.now 0) } } else s
  if s.alertLow = old.alertLow then s else s.send (.pin .alertN (!s.alertLow))

/-- The answer of a command that may move SMB_ALERT_N. -/
def powerNext (old s : State) : WRes := .next (s.alertPin old)

/-! ### Supply (R53, R59 to R62) -/

/-- P48_RISE: above 30 V the inrush limit holds for 20 ms. -/
def execP48Rise (mv : Nat) (s : State) : WRes :=
  .next <|
    if 30000 < mv then { s with power := { s.power with inrush := true }, io := { s.io with mv := mv } }
    else { s with io := { s.io with mv := mv } }

/-- INRUSH_LIMIT_EXPIRE. -/
def execInrushLimitExpire (s : State) : WRes := .next { s with power := { s.power with inrush := false } }

/-- The rails in the order in which power-up brings them up (Table 3-5). -/
def railOrder : List Rail := [.vaux, .vpp, .vstk, .vapr, .vshc, .vcpu, .vlink, .varith]

/-- The rails turn off in reverse order (R59, R61): every island loses its state and stands in reset, and the part draws
nothing from its regulators. -/
def State.railsDown (s : State) : State :=
  let e := s.epoch
  let s := (s.domainIn (5, 0, 0)).wr 0 pgRst 0x098 e
  { s with power := { s.power with good := false, off := railOrder.reverse }, resets := { s.resets with runs := [] } }

/-- The orderly power-down (R61), once, whatever follows (R62): compute halts, the stacks go to self-refresh, history
and log are flushed, PWR_GOOD goes low and the rails turn off. -/
def State.orderlyDown (s : State) : State :=
  if s.power.down ∨ s.power.off.isEmpty = false then s
  else
    let s := s.blowCut
    let s := { s with power := { s.power with down := true }, fw := { s.fw with flush := some s.flushed } }
    let s := foldNat 4 (fun s d => s.stackMode d 2) (s.noCert 6)
    (s.send (.pin .pwrGood false)).railsDown

/-- PWR_EN_FALL: PWR_EN is low from here on. -/
def execPwrEnFall (s : State) : WRes :=
  powerNext s <|
    let t := s.orderlyDown
    { t with power := { t.power with enable := false, lowFor := if s.power.enable then 0 else t.power.lowFor } }

/-! ### Phases (R55 to R57) -/

/-- PHASE_SWITCH_OUT. Which phase it is the command does not say: its number is open (a free value). A rail with none left
is out of its limits, so PWR_GOOD goes low; it halts its die, and the step rolls back. -/
def execPhaseSwitchOut (d : Die) (r : Rail) (s : State) : WRes :=
  .next <|
    let k := Rail.ix r
    let n := Tab.get 0 s.power.phases (d.val * 8 + k) + 1
    let phase := s.free.toNat % ((railRow k).n + 2)
    let s := (s.took 1).setErr d pgPwr 11
    let s := (s.logAt d srcHw .phaseOut [d, k, phase]).histEvent 6 d k 6
    let s := { s with power := { s.power with phases := Tab.put s.power.phases (d.val * 8 + k) n } }
    let s : State := if n = 3 then
        let p := s.power
        ({ s with power := { p with degraded := p.degraded ++ [(d.val, k)], report := p.report ++ [(d.val, k)] } }).wrF d pgPwr 0x028 5 1 1
      else s
    if s.phasesLeft d.val k = 0 ∧ s.power.dead.contains d.val = false then
      let s : State := { s with power := { s.power with dead := s.power.dead ++ [d.val], good := false } }.noCert 6
      s.send (.pin .pwrGood false)
    else s

/-! ### Trips (R63, R64) -/

/-- Hardware trip points in °C (Table 3-6). -/
abbrev tripJunction := 110
abbrev tripStack := 95
abbrev tripRegulator := 125

/-- Is a reading above its trip point (R63)? -/
def heatTrips (h : Heat) : Bool :=
  decide (tripJunction < h.junction) || decide (tripStack < h.stack) || decide (tripRegulator < h.regulator)

/-- Is every reading at least 5 °C below its trip point (R64 step 5)? -/
def heatCooled (h : Heat) : Bool :=
  decide (h.junction + 5 ≤ tripJunction) && decide (h.stack + 5 ≤ tripStack) && decide (h.regulator + 5 ≤ tripRegulator)

/-- A die trips where a reading is above its trip point: issue stops on it, its stacks refresh themselves, a frequency
change is abandoned, the step cannot certify. -/
def State.tripOn (s : State) (d : Nat) (h : Heat) : State :=
  if heatTrips h = false ∨ s.power.tripped.contains d ∨ s.power.off.isEmpty = false then s
  else
    let s := { s with power := { s.power with tripped := s.power.tripped ++ [d] } }
    let s := ((s.stackMode d 2).wrF d pgPwr 0x028 0 2 0).noCert 6
    s.send (.pin .thermTripN false)

/-- THERMAL_TRIP: the hardware's comparison of a die's readings with the trip points. -/
def execThermalTrip (x : Trip) (s : State) : WRes := powerNext s (s.tripOn x.die x.heat)

/-- TRIP_PERSIST_TIMEOUT: unless every reading is 5 °C below its trip point, the orderly power-down; else the trip ends,
THERM_TRIP_N staying low. -/
def execTripPersistTimeout (d : Die) (h : Heat) (s : State) : WRes :=
  powerNext s <|
    if s.power.tripped.contains d.val = false then s
    else if heatCooled h then
      { s with power := { s.power with tripped := s.power.tripped.filter (· ≠ d.val) } }.stackWake d
    else s.orderlyDown

/-- STACK_TEMP_READ: above 85 °C the refresh rate is doubled, below 83 °C normal again; a trip acts first, and in self-refresh the change is
dropped (11 R264). A controller in reset reads nothing (05 R97). A reading above 88 °C counts against the step's clean record (19 R406); one above 95 °C trips the
die. -/
def execStackTempRead (d : Die) (t : StackIx) (temp : BitVec 8) (s : State) : WRes :=
  powerNext s <|
    let pg := pgApr t
    if s.inReset d pg then s
    else
      let s := (s.wrF d pg 0x028 3 8 temp.toNat).maxF d pg 0x028 11 8 temp.toNat
      let s := { s with power := { s.power with hot := s.power.hot || decide (88 < temp.toNat) } }
      let s := s.tripOn d ⟨0, temp.toNat, 0⟩
      if s.rdF d pg 0x028 0 2 = 2 then s
      else if 85 < temp.toNat then s.wrF d pg 0x028 2 1 1
      else if temp.toNat < 83 then s.wrF d pg 0x028 2 1 0
      else s

/-! ### Frequency and droop (R407 to R409) -/

/-- FREQUENCY_CHANGE_COMPLETE. -/
def execFrequencyChangeComplete (d : Die) (s : State) : WRes :=
  .next <|
    if s.rdF d pgPwr 0x028 0 1 = 0 ∨ s.rdF d pgPwr 0x028 1 1 = 1 then s
    else
      let f := s.rdF d pgPwr 0x0C8 11 11
      let s := (s.wrF d pgPwr 0x0C8 0 11 f).wrF d pgPwr 0x028 0 1 0
      let v := s.varithAt d f (s.opOf d)
      { s with dieEnv := Tab.upd {} s.dieEnv d fun e => { e with varith := v } }

/-- DROOP_DETECT: the island stretches; on a bay island it pauses a change in progress. -/
def execDroopDetect (d : Die) (i : Island) (s : State) : WRes :=
  .next <|
    let s := if s.rdF d pgPwr 0x0E0 i 1 = 1 then s else (s.wrF d pgPwr 0x0E0 i 1 1).satF d pgPwr 0x0E0 32 16 1
    if i.val < 9 ∧ s.rdF d pgPwr 0x028 0 2 = 1 then (s.wrF d pgPwr 0x028 1 1 1).satF d pgPwr 0x0E0 48 16 1 else s

/-- DROOP_CLEAR: the stretch ends; the last one of a bay island starts the 50 µs of R409. -/
def execDroopClear (d : Die) (i : Island) (s : State) : WRes :=
  .next <|
    let s := s.wrF d pgPwr 0x0E0 i 1 0
    if i.val < 9 then { s with power := { s.power with cleared := Tab.put s.power.cleared d (s.now d) } } else s

/-- DROOP_PAUSE_EXPIRE: with no bay island stretching for 50 µs, the change resumes. -/
def execDroopPauseExpire (d : Die) (s : State) : WRes :=
  .next <|
    if s.droopBays d = 0 ∧ Tab.get 0 s.power.cleared d + 50000 ≤ s.now d then s.wrF d pgPwr 0x028 1 1 0 else s

/-! ### The power loop (R410, R411) -/

/-- Is |E − M| / max(E, M) above (or within) a percentage? -/
def differs (e m pct : Nat) : Bool := decide (pct * max e m < 100 * (max e m - min e m))

/-- One die's figures: E, M, P and the input; a sensor event after 5 ms of disagreement above 12 %, ended by 100 ms within
6 %. While the governor is in control the figures last formed stand (R412). -/
def State.dieTick (s : State) (d : Nat) (r : PowerReading) : State :=
  if s.rdF d pgPwr 0x028 3 1 = 1 then s
  else
    let was := Tab.get 0 s.power.disagree d
    let bad := differs r.e r.m 12
    let near := !(differs r.e r.m 6)
    let agree := if near then Tab.get 0 s.power.agree d + 1 else 0
    let event := 500 < was
    let now := if event then (if 10000 ≤ agree then 0 else was) else if bad then was + 1 else 0
    let s := { s with power := { s.power with
      disagree := Tab.set 0 s.power.disagree d now, agree := Tab.set 0 s.power.agree d (min agree 10000) } }
    let s := if event = false ∧ 500 < now then (s.setErr d pgPwr 9).logAt d srcHw .sensorDisagree [d, r.e, r.m] else s
    let invalid := !r.inRange || decide (500 < now)
    let p := if invalid then 6 * r.e / 5 else max r.e r.m
    let s := s.wrF d pgPwr 0x028 2 1 (bitAt invalid 0)
    s.wr d pgPwr 0x0D0 (r.e % 2 ^ 16 + r.m % 2 ^ 16 * 2 ^ 16 + p % 2 ^ 16 * 2 ^ 32 + r.mv % 2 ^ 16 * 2 ^ 48)

/-- The package power: the sum of P_d. -/
def State.packagePower (s : State) : Nat := foldNat 4 (fun a d => a + s.rdF d pgPwr 0x0D0 32 16) 0

/-- The cap in force: of D0's operating point (entry 87), under the governor's SAFE_CAP, less what degraded rails have lowered it by. -/
def State.capNow (s : State) : Nat :=
  let c := opCap (s.opNow (s.opOf 0))
  let c := if (List.range 4).any fun d => s.rdF d pgPwr 0x028 3 1 = 1 then min c (clampTo 1000 2600 (s.rdF 0 pgPwr 0x0C0 0 12))
    else c
  c - s.power.lowered

/-- While the current of a degraded rail is above its maximum, the loop lowers the part's cap (03 R57). -/
def State.railTick (s : State) (rd : List PowerReading) : State :=
  let above (x : Nat × Nat) : Bool := match rd[x.1]? with
    | some r => decide (s.railMax x.1 x.2 < r.amps.getD x.2 0)
    | none => false
  if s.power.degraded.any above then { s with power := { s.power with lowered := s.power.lowered + Config.capStep } } else s

/-- The package throttle after a tick: rule 3 first, whose lowest sufficient t is open here (a free value), then rules 1 and
2, then rule 4. -/
def State.throttle (s : State) (p : Nat) : State :=
  let t := s.rdF 0 pgPwr 0x0D8 0 4
  let cap := s.capNow
  let recent := s.power.samples.take 100
  let past := recent.length * cap < recent.foldl (· + ·) 0
  let long := 800 < (s.power.samples.filter fun x => decide (2600 < x)).length
  let calm := 100 * p < 97 * cap
  let low := if calm then s.power.low + 1 else 0
  let s := { s with power := { s.power with low := low } }
  let set (s : State) (v : Nat) : State := foldNat 4 (fun s d => s.wrF d pgPwr 0x0D8 0 4 v) s
  if 2900 < p then
    let v := t + s.free.toNat % (16 - t)
    let s := foldNat 4 (fun s d => s.setErr d pgPwr 10) (s.took 1)
    set { s with power := { s.power with hardAt := some (s.now 0) } } v
  else if past ∨ long then set s (min 15 (t + 1))
  else if calm ∧ low % 10 = 0 then set s (t - 1)
  else s

/-- POWER_LOOP_TICK, every 10 µs. -/
def execPowerLoopTick (rd : List PowerReading) (s : State) : WRes :=
  powerNext s <|
    let s : State := foldNat 4 (fun s d => match rd[d]? with | some r => s.dieTick d r | none => s) s
    let mvs := rd.map (·.mv)
    let s := { s with io := { s.io with mv := if mvs.isEmpty then s.io.mv else mvs.foldl min 65535 } }
    let p := s.packagePower
    let s := { s with power := { s.power with samples := (p :: s.power.samples).take 10000 } }
    let s := (s.railTick rd).throttle p
    foldNat 4 (fun s d =>
      if 0 < max (s.rdF 0 pgPwr 0x0D8 0 4) (s.rdF d pgPwr 0x0D8 4 4) then s.satF d pgPwr 0x0D8 32 32 10 else s) s

/-- THERMAL_THROTTLE_TICK, every 100 µs: the throttle follows the die's readings, and a reading above its trip point trips
the die. The refresh rate follows the stack controllers' own reading, STACK_TEMP_READ (R264). -/
def execThermalThrottleTick (d : Die) (junction : Int) (stack : Nat) (s : State) : WRes :=
  powerNext s <|
    let t := s.rdF d pgPwr 0x0D8 4 4
    let t := if 102 ≤ junction ∨ 92 ≤ stack then min 15 (t + 1) else if junction ≤ 99 ∧ stack ≤ 89 then t - 1 else t
    let s := s.wrF d pgPwr 0x0D8 4 4 t
    let s := { s with dieEnv := Tab.upd {} s.dieEnv d fun e => { e with temp := junction },
                      power := { s.power with hot := s.power.hot || decide (100 < junction) || decide (88 < stack) } }
    s.tripOn d ⟨junction, stack, 0⟩

/-! ### Shedding (R414, R415) -/

/-- Threshold of a step in mV (Table 19-3). -/
def shedThreshold : Nat → Nat
  | 1 => 43500 | 2 => 43000 | 3 => 42500 | 4 => 42000 | 5 => 41500 | 6 => 41000 | _ => 40000

/-- The rehearsal of the step is dropped, and due again (R377). -/
def State.rehDrop (s : State) : State :=
  match s.cue.reh with
  | none => s
  | some r =>
    let s := if r.kind = 3 ∧ r.injected.isSome ∧ r.found.isNone then s.clearBad r.place else s
    ({ s with cue := { s.cue with reh := none } }).wr 0 pgCue 0x0D0 0

/-- A step comes into force. -/
def State.shedIn (s : State) (n : Nat) : State :=
  let s := foldNat 4 (fun s d => (s.wr d pgPwr 0x0E8 n).setErr d pgPwr 13) s
  let s := s.logAt 0 srcHw .shed [n]
  match n with
  | 1 => ({ s with power := { s.power with shed1 := true } }).rehDrop.abandonAuditions
  | 2 | 3 => foldNat 4 State.retarget s
  | 5 => foldNat 20 (fun s p =>
      if s.linkSt p = 3 ∨ s.linkSt p = 4 then (s.setLink p { s.link p with three := true }).beginRetrain p else s) s
  | 6 => foldNat 4 (fun s d => s.stackMode d 2) s
  | 7 => s.orderlyDown
  | _ => s

/-- Steps up to `n` come into force in order. -/
def State.shedTo (s : State) (n : Nat) : State :=
  (List.range n).foldl (fun s i => if s.shed < i + 1 then s.shedIn (i + 1) else s) s

/-- SHED_STEP_ENTER. -/
def execShedStepEnter (step : ShedStep) (mv : Nat) (s : State) : WRes :=
  powerNext s <|
    let n := step.val + 1
    let s := { s with io := { s.io with mv := mv } }
    if shedThreshold n ≤ mv ∨ n ≤ s.shed then s else s.shedTo n

/-- SHED_STEP_RELEASE: in reverse order; step 7 is never released. Ports come back to 4 lanes by a retrain (entry 158). -/
def execShedStepRelease (step : ShedStep) (mv : Nat) (s : State) : WRes :=
  powerNext s <|
    let n := step.val + 1
    let s := { s with io := { s.io with mv := mv } }
    if n ≠ s.shed ∨ n = 7 ∨ mv < shedThreshold n + 500 then s
    else
      let s := foldNat 4 (fun s d => s.wr d pgPwr 0x0E8 (n - 1)) s
      match n with
      | 2 | 3 => foldNat 4 State.retarget s
      | 5 => foldNat 20 (fun s p =>
          if (s.link p).three then (s.setLink p { s.link p with three := false }).beginRetrain p else s) s
      | 6 => foldNat 4 (fun s d => s.stackWake d) s
      | _ => s

end Sys2Proof.Machine
end

