-- ==== Sys2Proof/Machine/StartUp.lean ====
section
/-! DEFINITION. Power-up and the stages of start-up (03 R59; 04 R82 to R85; 20 R424, R425; 21 R443), and units that
stand DARK from before. -/

namespace Sys2Proof.Machine

abbrev YRes := Host.Outcome State Fault Refusal

/-! ### Units that are DARK (16 R355 to R357; 22 R457) -/

/-- A core goes DARK at its cluster's reset: its die's spare takes its logical number; without one the cluster runs with 7
cores, reported in the log. -/
def State.darkCore (s : State) (d c : Nat) : State :=
  let s := s.setUnit 1 d c .dark
  match (List.range 8).find? fun n => s.rdF d pgApc 0x080 (4 * n) 4 = c with
  | none => s
  | some n =>
    match (List.range 9).find? fun i => s.unit 1 d i = .wings with
    | some i => (s.setUnit 1 d i .inService).wrF d pgApc 0x080 (4 * n) 4 i
    | none => (s.wrF d pgApc 0x080 (4 * n) 4 0xF).logAt d srcHw (.other 3) [d, c]

/-- Cores that are due to go DARK do so, and cores that passed an audition go to the wings, at their cluster's reset
(R457; 16 R357). -/
def State.coresOut (s : State) (d : Nat) : State :=
  let mine (k : Nat) : Bool := k / 1024 = 1 && k / 64 % 16 = d
  let due := s.history.due.filter mine
  let passed := s.history.passed.filter mine
  let s := due.foldl (fun s k => s.darkCore d (k % 64)) s
  let s := passed.foldl (fun s k => s.setUnit 1 d (k % 64) .wings) s
  { s with history := { s.history with due := s.history.due.filter fun k => !(mine k),
                                       passed := s.history.passed.filter fun k => !(mine k) } }

/-- The logical cores of a die whose core is not in service, as after a whole-device reset, whose registers name the production
map: each goes to a core in service that has no number, or its place stays empty (16 R357). -/
def State.settleCores (s : State) (d : Nat) : State :=
  (List.range 8).foldl (fun s n =>
    let at' (m : Nat) : Nat := s.rdF d pgApc 0x080 (4 * m) 4
    let c := at' n
    if s.unit 1 d c = .inService then s
    else
      match (List.range 9).find? fun i => s.unit 1 d i = .inService && (List.range 8).all fun m => at' m ≠ i with
      | some i => s.wrF d pgApc 0x080 (4 * n) 4 i
      | none => (s.wrF d pgApc 0x080 (4 * n) 4 0xF).logAt d srcHw (.other 3) [d, c]) s

/-- The logical banks of a die whose bank is not in service, likewise: each goes to a bank in service that has no number, or is
shared (11 R253). -/
def State.settleBanks (s : State) (d : Nat) : State :=
  ((List.range 48).foldl (fun s lb =>
    if s.unit 2 d (s.physBank d lb) = .inService then s
    else
      match (List.range 50).find? fun i => s.unit 2 d i = .inService && (s.logicalOf d i).isEmpty with
      | some i => s.setBank d lb i
      | none => s.shareBank d lb) s).showSpares d

/-- After a start from power-on or a whole-device reset, whose maps are the production map, units in service take the places of
those that are not; logical bays are mapped at the activation (06 R122), and cores that are due go DARK. -/
def State.settleUnits (s : State) : State := foldNat 4 (fun s d => ((s.settleCores d).settleBanks d).coresOut d) s

/-! ### Power-up (03 R59) -/

/-- RST.BOOT.STAGE. -/
def State.bootStage (s : State) : Nat := s.rdF 0 pgRst 0x0A0 0 8

/-- Show a code in RST.BOOT.STAGE; a code 0xE0 to 0xEF stays there until the next reset (R85; the first one that stands,
entry 136). -/
def State.showStage (s : State) (v : Nat) : State := if s.bootStage / 16 = 0xE then s else s.wrF 0 pgRst 0x0A0 0 8 v

/-- A stage is in progress. -/
def State.setStage (s : State) (v : Nat) : State := { s with resets := { s.resets with stage := v } }.showStage v

/-- A stage failed with a code of Table 4-6, and start-up goes on as `stage` says. -/
def State.failStage (s : State) (code stage : Nat) : State :=
  { s with resets := { s.resets with stage := stage } }.showStage code

/-- The part after power-on: as a whole-device reset leaves it, every register at its reset value, the fuses sensed, VARITH
at the floor operating point's voltage (Table 3-5, R403). -/
def State.powerOn (s : State) : State :=
  let e := s.epoch
  let flush := s.fw.flush
  let s := s.deviceLost
  let s := { s with
    regs := [], dieEnv := [],
    power := { inrush := s.power.inrush, phases := s.power.phases, degraded := s.power.degraded, report := s.power.report },
    sec := { s.sec with sensed := s.sec.fuses }, fw := { s.fw with flush := flush }, resets := { units := s.resets.units } }
  let s := { s with dieEnv := (List.range 4).filterMap fun d =>
    let v : DieEnv := { varith := s.varithAt d (opFreq (s.opNow 0)) 0 }
    if v = ({ op := 0 } : DieEnv) then none else some (d, v) }
  let s := (List.range 4).foldl (fun s d => (dieUnits d).foldl (fun s u => (s.unitIn u.1 u.2.1 u.2.2).unitOut u.1 u.2.1 u.2.2) s) s
  ((s.wr 0 pgRst 0x098 e).setStage 0x10).settleUnits

/-- A rise of PWR_EN starts the sequence while the rails are off, with the input in 44 to 56 V, and after an orderly
power-down only when PWR_EN has been low for 10 ms (R59, R62). -/
def State.mayPowerUp (s : State) : Bool :=
  !s.power.enable && !s.power.off.isEmpty && decide (44000 ≤ s.io.mv ∧ s.io.mv ≤ 56000) &&
    (!s.power.down || s.power.lowFor = 10000000)

/-- Has a die a rail without a working phase, which cannot come within its limits (R57)? -/
def State.railGone (s : State) : Bool := (List.range 4).any fun d => (List.range 8).any fun k => s.phasesLeft d k = 0

/-- POWER_UP, a rise of PWR_EN. A rail that fails holds PWR_GOOD low: the rails turn off again and the part waits for
PWR_EN to go low. THERM_TRIP_N is released at a power-up. DESIGN CHOICE (entry 166): the rise that follows a failed sequence needs
PWR_EN low, for no least time. -/
def execPowerUp (railsOk : Bool) (s : State) : YRes :=
  .next <|
    if s.mayPowerUp = false then { s with power := { s.power with enable := true } }
    else if railsOk ∧ s.railGone = false then (s.powerOn.send (.pin .thermTripN true)).send (.pin .pwrGood true)
    else { s with power := { s.power with enable := true, down := false, off := railOrder.reverse } }

/-- STRAP_SAMPLE. -/
def execStrapSample (bootMode : BitVec 2) (slotId : BitVec 8) (s : State) : YRes :=
  .next <|
    let v := bootMode.toNat + slotId.toNat * 4
    ({ s with resets := { s.resets with straps := v } }).wrF 0 pgRst 0x0A0 8 10 v

/-! ### Stages (Table 4-5) -/

/-- What runs in stage 2: fuses sensed, the epoch counted, the certificate checked. -/
def State.stage2In (s : State) : State :=
  let s := { s with sec := { s.sec with sensed := s.sec.fuses } }
  let s := s.wr 0 pgRst 0x098 ((s.epoch + 1) % 256)
  let s := { s with resets := { s.resets with counted := true } }
  foldNat 4 (fun s d => s.wrF d pgProt 0x880 0 1 (bitAt (s.sec.sensed.identityOk && s.certOk) 0)) s

/-- Stage 2 is done; reserved straps stop it. -/
def State.stage2 (s : State) : State :=
  let s := s.stage2In
  if 2 ≤ s.resets.straps % 4 then s.failStage 0xE5 0xFF
  else s.setStage 0x30

/-- What firmware does first: stored owner keys that do not match their slot are discarded (21 R447). And what the slot's
image leads to (20 R424, R440): UPDATE_RESULT where the slot was loaded; a slot
that was not marked PENDING holds a staged image. -/
def State.firmwareUp (s : State) : State :=
  let s : State := foldNat 3 (fun s i => s.wr (i + 1) pgMgc 0x028 0x0055) s
  let own (e : Nat × List Byte) : Bool := leNat (sm3 e.2) = (Tab.get 0 s.sec.sensed.ownerHash e.1).toNat
  let s := { s with sec := { s.sec with ownerKeys := s.sec.ownerKeys.filter own } }
  if s.fw.fromSlot then s.notice 0x8004 (leBytes 8 s.updateStat)
  else if s.fw.slotBad then
    let s := s.wrF 0 pgMgc 0x0D0 0 3 5
    if s.fw.slotTried then ({ s with fw := { s.fw with slotTried := false } }).notice 0x8004 (leBytes 8 s.updateStat) else s
  else if s.fw.slot.isSome then s.wrF 0 pgMgc 0x0D0 0 3 2 else s

/-- The image that stage 6 loaded: of the update slot; one fetched from the network is open (free bytes of a header and
its entries). Components run on the dies of Table 20-2; D0's pair leads (R417). -/
def State.loadImage (s : State) : State :=
  let bs := match s.fw.fromSlot, s.fw.slot with
    | true, some b => b.take (64 + 48 * fieldAt b 0x14 2)
    | _, _ => s.freeBytes 832
  let s := s.took 832
  let s := { s with fw := { s.fw with image := bs } }
  let s : State := foldNat 4 (fun s d => s.wr d pgMgc 0x080 (fieldAt bs 8 4 + fieldAt bs 0x16 2 * 2 ^ 32)) s
  (s.wr 0 pgMgc 0x028 (0x1555 + 2 ^ 14)).firmwareUp


/-- The part of stage 7 in progress with the lowest code. -/
def State.showStage7 (s : State) : State :=
  let b := s.resets.boot7
  if bitsOf b 0 1 = 0 then s.setStage 0x70 else if bitsOf b 1 1 = 0 then s.setStage 0x71
  else if bitsOf b 2 1 = 0 then s.setStage 0x72 else s.setStage 0x80

/-- A part of stage 7 is done. -/
def State.done7 (s : State) (i : Nat) : State :=
  let b := s.resets.boot7
  { s with resets := { s.resets with boot7 := if bitsOf b i 1 = 1 then b else b + 2 ^ i } }.showStage7

/-- Is the stage in progress? After State.reset it is stage 1. -/
def State.inStage (s : State) (st : Stage) : Bool :=
  let v := s.resets.stage
  let in7 := decide (0x70 ≤ v ∧ v ≤ 0x72)
  match st with
  | .s1 => v = 0x10 || v = 0
  | .s2 => v = 0x20
  | .s3 => v = 0x30
  | .s4 => v = 0x40
  | .s5 => v = 0x50
  | .s6 => v = 0x60
  | .s7a => in7 && bitsOf s.resets.boot7 0 1 = 0
  | .s7b => in7 && bitsOf s.resets.boot7 1 1 = 0
  | .s7c => in7 && bitsOf s.resets.boot7 1 1 = 1 && bitsOf s.resets.boot7 2 1 = 0
  | .s8 => v = 0x80
  | .s9 => v = 0x90
  | .s10 => v = 0xA0
  | .s11 => v = 0xF0

/-! ### Stack training (11 R262, R263, R266) -/

/-- A lane map with a failing lane on a spare: DQ and CB lanes on SDQ0 and then SDQ1, a CA lane, WCK or RCK on SCA; none
where no spare is left (R262 step 5). A lane that fails again on SDQ0 goes to SDQ1. -/
def spareLane (v lane : Nat) : Option Nat :=
  if lane < 36 then
    if bitsOf v 14 1 = 1 ∧ bitsOf v 8 6 = lane then none
    else if bitsOf v 6 1 = 0 then some (putBits v 0 7 (lane + 64))
    else if bitsOf v 14 1 = 0 then some (putBits v 8 7 (lane + 64)) else none
  else
    if bitsOf v 20 1 = 0 then some (putBits v 16 5 (lane - 36 + 16)) else none

/-- Lanes that a map marks suspect. -/
def suspects (v : Nat) : List Nat := [bitsOf v 24 8, bitsOf v 32 8].filter (· < 48)

/-- The map of a pseudo-channel after training: the recorded one where it is reused, with every suspect lane and every
lane that the test finds failing on a spare. A reused map is tested for suspect lanes alone. -/
def trainedMap (old : Nat) (reuse : Bool) (found : List Nat) : Option Nat :=
  let base := if reuse then putBits (putBits old 24 8 0xFF) 32 8 0xFF else laneDflt.toNat
  (suspects old ++ if reuse then [] else found).eraseDups.foldl (fun v lane => v.bind fun v => spareLane v lane) (some base)

/-- A pseudo-channel that its spares cannot repair: its stack is FAILED, by the history too, start-up stops, and the part does
not offer itself to a cast (R262, Table 4-6). -/
def State.pcFailed (s : State) (d t pc : Nat) : State :=
  let s := { s with resets := { s.resets with barred := true } }
  ((s.wrF d (pgApr t) 0x028 0 2 3).histEvent 4 d (t * 64 + pc) 4).failStage 0xE3 0xFF

/-- One pseudo-channel is trained. -/
def State.trainPc (s : State) (found : List StackLane) (k : Nat) : State :=
  let d := k / 192
  let t := k / 64 % 3
  let pc := k % 64
  let old := (Tab.get laneDflt s.history.lanes k).toNat
  let mine := (found.filter fun l => l.die = d && l.stack = t && l.pc = pc).map fun l => l.lane.val
  match trainedMap old s.resets.warm mine with
  | some v => s.setLaneMap d t pc v
  | none => s.pcFailed d t pc

/-- All stacks are trained: lanes mapped, hard repairs that were due performed, and the home region written with zeros under
valid check bytes. A stack whose training failed stays FAILED. -/
def State.trainStacks (s : State) (found : List StackLane) : State :=
  let s := { s with mem := {}, history := { s.history with hard := [] } }
  let s := foldNat 4 (fun s d => s.stackWake d) s
  foldNat 768 (fun s k => s.trainPc found k) s

/-- Stage 7a ends, unless it stopped start-up. -/
def State.trained7 (s : State) : State := if s.resets.stage = 0xFF then s else s.done7 0

/-- Stage 11: the verdicts of the ports; one other than MATCH gives code 0xE7 (Table 4-6, 13 R305). -/
def State.stage11 (s : State) : State :=
  let s := s.showVerdicts
  if s.mismatched then s.failStage 0xE7 0xF0 else s

/-- A stage is done: the next one starts. A slot marked PENDING skips stages 4 and 5. -/
def State.stageDone (s : State) (st : Stage) (lanes : List StackLane) : State :=
  match st with
  | .s1 => s.setStage 0x20
  | .s2 => s.stage2
  | .s3 =>
    if s.fw.slotDue then ({ s with fw := { s.fw with slotDue := false, fromSlot := true } }).setStage 0x60
    else ({ s with fw := { s.fw with fromSlot := false } }).setStage 0x40
  | .s4 => s.setStage 0x50
  | .s5 => s.setStage 0x60
  | .s6 => ({ s.loadImage with resets := { s.loadImage.resets with boot7 := 0 } }).setStage 0x70
  | .s7a => (s.trainStacks lanes).trained7
  | .s7b => s.done7 1
  | .s7c => s.done7 2
  | .s8 => (foldNat 4 (fun s d => s.coresOut d) s).setStage 0x90
  | .s9 => s.setStage 0xA0
  | .s10 => s.setStage 0xF0
  | .s11 => s.stage11

/-- Training finds a pseudo-channel that its spares cannot repair: one of the lanes found, or, where they name none, an
open one (a free value). -/
def State.stackFailed (s : State) (lanes : List StackLane) : State :=
  let t := s.trainStacks lanes
  if t.resets.stage = 0xFF then t
  else
    let k := s.free.toNat % 768
    (t.took 1).pcFailed (k / 192) (k / 64 % 3) (k % 64)

/-- A failure of Table 4-6 at the stage where it can occur. An image of the update slot that fails falls back to the
network (20 R424). A failed stack stops start-up; a unit kind without a spare keeps the part out of casts, and start-up goes on. -/
def State.stageFailed (s : State) (st : Stage) (res : StageResult) (lanes : List StackLane) : State :=
  let image (code : Nat) : State :=
    if s.fw.fromSlot then
      ({ s with fw := { s.fw with fromSlot := false, slotBad := true, slotTried := true } }).setStage 0x40
    else s.failStage code 0xE1
  match st, res with
  | .s6, .badSignature => image 0xE1
  | .s6, .rolledBack => image 0xE2
  | .s7a, .badPseudoChannel => s.stackFailed lanes
  | .s4, .noAddress | .s5, .noAddress => s.failStage 0xE4 0x40
  | .s2, .badBootMode => s.stage2In.failStage 0xE5 0xFF
  | .s8, .auditionNoSpare =>
    let s := foldNat 4 (fun s d => s.coresOut d) s
    ({ s with resets := { s.resets with barred := true } }).failStage 0xE6 0x90
  | .s11, .neighbourMismatch => s.showVerdicts.failStage 0xE7 0xF0
  | .s2, .identityFail => s.stage2In.failStage 0xE8 0xFF
  | .s2, .noRefClk => s.failStage 0xE9 0xFF
  | _, _ => s

/-- How a stage that ran to its end ended: stage 2 fails where the identity does not hold (21 R443), stage 6 where an image of the
update slot does not (20 R424; 21 R446). -/
def State.stageResult (s : State) (st : Stage) (res : StageResult) : StageResult :=
  match st, res with
  | .s2, .ok => if s.sec.fuses.identityOk then .ok else .identityFail
  | .s6, .ok =>
    if s.fw.fromSlot = false then .ok
    else match s.imageFault (s.fw.slot.getD []) with
      | none => .ok
      | some c => if c = 0xE2 then .rolledBack else .badSignature
  | _, r => r

/-- STARTUP_STAGE_COMPLETE. -/
def execStartupStageComplete (st : Stage) (e : StageEnd) (s : State) : YRes :=
  .next <|
    if s.inStage st = false ∨ s.power.off.isEmpty = false then s
    else
      let r := s.stageResult st e.result
      let t := if r = .ok then s.stageDone st e.lanes else s.stageFailed st r e.lanes
      t.alertPin s

/-- IMAGE_REFETCH_TIMEOUT: the image is fetched again. -/
def execImageRefetchTimeout (s : State) : YRes :=
  .next <| if s.resets.stage = 0xE1 then (s.setStage 0x50).alertPin s else s

/-- BOOT_STAGE_TIMEOUT: no reply in stage 4 or 5; start-up goes on from stage 4 under code 0xE4. -/
def execBootStageTimeout (s : State) : YRes :=
  .next <| if s.resets.stage = 0x40 ∨ s.resets.stage = 0x50 then (s.failStage 0xE4 0x40).alertPin s else s

end Sys2Proof.Machine
end

