-- ==== Sys2Proof/Machine/HangRows.lean ====
section
/-! DEFINITION. Watchdogs, escalations and the replay of suspects (18 R391 to R402). -/

namespace Sys2Proof.Machine

abbrev HRes := Host.Outcome State Fault Refusal

/-! ### Replays (R399) -/

/-- Show the replays: REPLAY_STAT of the last, and HANG_STAT.REPLAYING. -/
def State.showReplay (s : State) : State :=
  let s := foldNat 4 (fun s d => s.wrF 0 pgRst 0x108 (40 + d) 1 (bitAt (s.hang.replays.any fun (r : Replay) => r.die = d) 0)) s
  match s.hang.replays.getLast? with
  | none => ((s.wrF 0 pgRst 0x118 0 12 0).wrF 0 pgRst 0x118 12 7 0).wrF 0 pgRst 0x118 26 1 0
  | some r =>
    let s := (s.wrF 0 pgRst 0x118 0 12 (r.trial.getD 0)).wrF 0 pgRst 0x118 12 7 r.left.length
    (s.wrF 0 pgRst 0x118 19 7 r.all).wrF 0 pgRst 0x118 26 1 1

/-- Change the replay of a bay. -/
def State.setReplay (s : State) (r : Replay) : State :=
  { s with hang := { s.hang with replays := s.hang.replays.map fun (x : Replay) => if x.die = r.die ∧ x.bay = r.bay then r else x } }

/-- The replay of a bay. -/
def State.replayOf (s : State) (d b : Nat) : Option Replay := s.hang.replays.find? fun (r : Replay) => r.die = d && r.bay = b

/-- The next suspect begins its trial, alone on the bay, from its save area; after the last the replay ends, logged
HANG_CLEARED where every suspect is cleared. A suspect that is RUNNABLE and RESIDENT no more has no trial. -/
def State.nextTrial (s : State) (r : Replay) : State :=
  let may (c : Nat) : Bool := (s.ctxOf c).st = 2 && (Tab.get {} s.ctx.resid (r.die * 4096 + c)).res = 2
  match r.left.dropWhile fun c => !(may c) with
  | [] =>
    let s := { s with hang := { s.hang with replays := s.hang.replays.filter fun (x : Replay) => !(x.die = r.die && x.bay = r.bay) } }
    (if r.guilty then s else s.logAt r.die srcHw .hangCleared [r.die, r.bay, r.seq]).showReplay
  | c :: cs =>
    let s := s.setReplay { r with left := cs, trial := some c, since := s.now r.die, hung := false }
    (s.restoreBay r.die r.bay c).showReplay

/-- The bay is out of its reset: a replay that waits for it goes on, with the suspect whose trial was cut off. -/
def State.replayGo (s : State) (d b : Nat) : State :=
  match s.replayOf d b with
  | some r => if r.hung then s.nextTrial { r with left := r.trial.toList ++ r.left, trial := none } else s
  | none => s

/-- A reset of a bay or of its die cuts its replay off until the reset ends (Table 18-4). -/
def State.replayCut (s : State) (d : Nat) (b : Option Nat) : State :=
  let cut (r : Replay) : Replay := if r.die = d ∧ b.all (· = r.bay) = true then { r with hung := true } else r
  { s with hang := { s.hang with replays := s.hang.replays.map cut } }

/-- A bay's suspects are to be replayed after its reset, the book context never on the bay (R398). -/
def State.replayAdd (s : State) (d b seq : Nat) (suspects : List Nat) : State :=
  let ss := suspects.filter fun c => !(s.ctxOf c).book && (s.ctxOf c).st = 2
  if ss = [] then s
  else
    let r : Replay := { die := d, bay := b, left := ss, all := ss.length, hung := true, seq := seq }
    { s with hang := { s.hang with replays := (s.hang.replays.filter fun (x : Replay) => !(x.die = d && x.bay = b)) ++ [r] } }.showReplay

/-- Is the suspect under trial cleared: it has made progress for REPLAY_MS, or is in a state in which it would be switched
out (R399; entry 150)? -/
def State.trialMade (s : State) (d b : Nat) (r : Replay) : Bool :=
  s.switching d b || decide (r.since + s.replayNs ≤ Tab.get 0 s.hang.last (bayKey d b)) || (s.mxeSpare d b && s.vxeSpare d b)

/-- REPLAY_TRIAL_CLEAR: a suspect that is cleared is saved as by a switch (R280), once its SU is at rest, and the next trial
begins. A suspect that was torn down leaves its trial at once (R402). -/
def execReplayTrialClear (d : Die) (b : Bay) (s : State) : HRes :=
  .next <|
    match s.replayOf d b with
    | none => s
    | some r =>
      match r.trial with
      | none => s
      | some c =>
        if r.hung then s
        else if (s.ctxOf c).st ≠ 2 then s.nextTrial { r with trial := none }
        else if s.trialMade d b r = false then s
        else
          let s := (s.setSwitching d b true).settleSwitch d b
          if s.suAtRest d b then
            (((s.saveBay d b false).setSwitching d b false).setBayCtx d b 4097).nextTrial { r with trial := none }
          else s

/-! ### Waiting and counting (R389, R390) -/

/-- Is the MXE idle with nothing queued, or in SYNC_WAIT, a WAIT_MASK wait, a layer gate or before a gather round (R390)?
One that R470 stopped waits, and one of the book context that issues nothing is idle (DEDUCED, entry 150). -/
def State.mxeWaiting (s : State) (d b : Nat) : Bool :=
  let m := s.mxeOf d b
  m.drains.isEmpty && (m.stopped || m.gate.isSome || (s.isBook d b && !s.running) ||
    match m.work.head?.bind s.tileOf with
    | none => true
    | some t => (m.syncing && t.opcode = 0x10) || !(s.waitDone d b t.waitMask) ||
        (t.opcode = 2 && s.gatherWaits d b))

/-- Is the VXE idle with nothing queued, or in SEMWAIT or WAIT? -/
def State.vxeWaiting (s : State) (d b : Nat) : Bool :=
  let v := s.vxeOf d b
  v.faulted || (s.isBook d b && !s.running) || match v.insn with
    | none => v.queue.isEmpty
    | some w => (v.syncing && bitsOf w 23 9 = 0xA * 32 + 0x0A) ||
        (isWait w && !(s.waitDone d b ((v.regs.sreg (bitsOf w 19 4)).toNat % 2 ^ 32)))

/-- Is the slot over, or WAITING with nothing issued, or FAULTED within its FAULT_TIMEOUT? -/
def State.slotWaiting (s : State) (d b sl : Nat) : Bool :=
  let x := s.slotOf d b sl
  match x.st with
  | .idle | .done | .aborted => true
  | .waiting => x.nIss = x.nDone && x.iss = 0 && !x.refetch
  | .faulted => decide (s.now d < x.faultTime + 1000000 * s.faultTimeout d b)
  | .running | .cancelling => false

/-- Is an engine of the bay paused, so that its time is no waiting (R127, R212, R239)? An engine with nothing to do counts
as idle, paused or not. -/
def State.bayPaused (s : State) (d b : Nat) : Bool :=
  let p (pg : Nat) : Bool := s.rdF d pg 0x020 8 1 = 1
  (p (pgMxe b) && !(s.mxeOf d b).work.isEmpty) || (p (pgVxe b) && (s.vxeOf d b).insn.isSome) ||
    (p (pgSu b) && (List.range 32).any fun sl => SlotSt.active (s.slotOf d b sl).st)

/-- Is the bay waiting (R390)? A switch is no waiting; a bay in the wings waits while no check runs on its die. -/
def State.bayWaits (s : State) (d b : Nat) : Bool :=
  if s.wingsBay d = some b then !(s.dup.jobs.any fun j => j.cdie = d && j.running)
  else !(s.switching d b) && !(s.bayPaused d b) && s.mxeWaiting d b && s.vxeWaiting d b &&
    (List.range 32).all (s.slotWaiting d b)

/-- Do watchdogs run on a bay: in service or in the wings, not held by shedding or by a held curtain (R391, R402)? -/
def State.watched (s : State) (d b : Nat) : Bool :=
  (s.unit 0 d b = .inService || s.unit 0 d b = .wings) && decide (s.shed < 6) && !s.power.down && !s.cue.held

/-- Does a bay's watchdog count? -/
def State.wdCounts (s : State) (d b : Nat) : Bool := s.watched d b && !(s.bayWaits d b)

/-- Device time goes on: a watchdog that is held stands at 0, and one that is released counts from now. -/
def State.wdTick (s : State) : State :=
  allBays.foldl (fun s x =>
    let k := bayKey x.1 x.2
    let on := s.wdCounts x.1 x.2
    match Tab.find s.hang.counts k with
    | none => if on then { s with hang := { s.hang with counts := Tab.put s.hang.counts k (s.now x.1) } } else s
    | some _ => if on then s else { s with hang := { s.hang with counts := Tab.del s.hang.counts k } }) s

/-- The count of a bay's watchdog in ns: device time since its last progress, or since it was last held at 0. -/
def State.wdCount (s : State) (d b : Nat) : Nat :=
  match Tab.find s.hang.counts (bayKey d b) with
  | none => 0
  | some t => s.now d - max t (Tab.get 0 s.hang.last (bayKey d b))

/-- Does the watchdog of a bay fire (R391)? -/
def State.wdFires (s : State) (d b : Nat) : Bool := s.wdCounts d b && decide (s.wdLimit d b ≤ s.wdCount d b)

/-! ### Triggers (R391 to R393, R398) -/

/-- A firing of the bay, or of another of its die, within the last 10 ms (trigger 3). -/
def State.firedNear (s : State) (d : Nat) : Bool :=
  (List.range 9).any fun i => match Tab.find s.hang.fired (bayKey d i) with
    | some t => decide (s.now d < t + 10000000)
    | none => false

/-- Count and show a firing. -/
def State.noteFired (s : State) (d b : Nat) : State :=
  let s := { s with hang := { s.hang with fired := Tab.put s.hang.fired (bayKey d b) (s.now d) } }
  (s.wrF 0 pgRst 0x108 (9 * d + b) 1 1).incF 0 pgRst 0x120 0 16 1

/-- A guilty suspect: torn down, logged, and the bay is reset without a capture. -/
def State.guilty (s : State) (r : Replay) (c : Nat) : State :=
  let s := (s.incF 0 pgRst 0x120 16 16 1).wrF 0 pgRst 0x118 27 12 c
  let s := (s.wrF 0 pgRst 0x118 39 1 1).logAt r.die srcHw .hangGuilty [c, s.ctxGen c, r.seq]
  let s := (s.hwTeardown c).setReplay { r with trial := none, hung := true, guilty := true }
  (s.resetReq (1, r.die, r.bay) Origin.hw.code true).showReplay

/-- The forced save of the context that runs on a bay; whether it meets an unreadable word is open (`failed`, a free bit). The
book context has none: it ends the step, and the encore is its replay (R400). -/
def State.forcedSave (s : State) (d b : Nat) (failed : Bool) : State :=
  match s.ctxOn d b with
  | none => s
  | some c =>
    if (s.ctxOf c).book ∨ Tab.get 0 s.ctx.bays (bayKey d b) = 0 then s.endQuiet
    else if failed then (s.hwTeardown c).logAt d srcHw .stateLost [c, s.ctxGen c]
    else s.saveBay d b true

/-- WATCHDOG_FIRE, where the bay's count has reached its limit. -/
def execWatchdogFire (d : Die) (b : Bay) (s : State) : HRes :=
  .next <|
    if s.wdFires d b = false then s
    else
      match s.replayOf d b, (s.replayOf d b).bind (·.trial) with
      | some r, some c => if r.hung then s else (s.noteFired d b).guilty r c
      | _, _ =>
        let three := (s.ctxOn d b).isNone || s.firedNear d
        let s := s.noteFired d b
        let suspects := s.suspects d b
        let seq := Tab.get 0 s.fw.capNext d
        let failed := s.free.toNat % 2 = 1
        let s := s.took 1
        if three then
          let s := (s.capture 3 4 d (some b) [] false).replayAdd d b seq suspects
          (s.incF 0 pgRst 0x120 32 16 1).resetReq (4, d, 0) Origin.hw.code true
        else
          let s := (s.capture 1 1 d (some b) [] (decide failed)).forcedSave d b (decide failed)
          (s.replayAdd d b seq suspects).resetReq (1, d, b) Origin.hw.code true

/-- Has a reset of the domain been in progress for `ns`? -/
def State.resetLate (s : State) (x : DomId) (ns : Nat) : Bool :=
  s.resets.runs.any fun r => r.id = x && decide (r.since + ns ≤ s.now 0)

/-- BAY_RESET_TIMEOUT, 3 ms from the request: the bay's suspects are kept through the partition reset. -/
def execBayResetTimeout (d : Die) (b : Bay) (s : State) : HRes :=
  .next <|
    if s.resetLate (1, d.val, b.val) 3000000 = false then s
    else ((s.capture 2 4 d (some b) [] false).incF 0 pgRst 0x120 32 16 1).resetReq (4, d, 0) Origin.hw.code true

/-- PARTITION_TIMEOUT, 40 ms from the request. -/
def execPartitionTimeout (d : Die) (s : State) : HRes :=
  .next <|
    if s.resetLate (4, d.val, 0) 40000000 = false then s
    else ((s.capture 6 5 d none [] false).incF 0 pgRst 0x120 48 16 1).resetReq (5, 0, 0) Origin.hw.code true

/-- A stalled cache or stack: its dirty sectors are lost, and the die partition is reset, without suspects. -/
def State.stall (s : State) (trigger d : Nat) (stack : Option Nat) : State :=
  let lost := s.lostSectors d stack
  let s := s.capture trigger 4 d none ((runsOf lost).map fun r => (r.1 * 64, r.2)) false
  let s := s.loseSectors lost
  let s := { s with hang := { s.hang with replays := s.hang.replays.filter fun r => r.die ≠ d } }
  ((s.incF 0 pgRst 0x120 32 16 1).resetReq (4, d, 0) Origin.hw.code true).showReplay

/-- SHC_STALL. -/
def execShcStall (d : Die) (s : State) : HRes :=
  .next <| if s.blkIs d pgShc 4 ∨ s.power.down then s else s.stall 4 d none

/-- APR_STALL: a stack in self-refresh does not stall. -/
def execAprStall (d : Die) (t : StackIx) (s : State) : HRes :=
  .next <| if s.blkIs d (pgApr t) 4 ∨ s.power.down ∨ s.rdF d (pgApr t) 0x028 0 2 = 2 then s else s.stall 5 d (some t.val)

end Sys2Proof.Machine
end

