-- ==== Sys2Proof/Machine/Mailbox.lean ====
section
/-! DEFINITION. Firmware components and the mailboxes (20 R420, R421, R426 to R430, R433; 05 R96; 21 R448). -/

namespace Sys2Proof.Machine

abbrev XRes := Host.Outcome State Fault Refusal

/-! ### Replies (R427 to R429) -/

/-- The reply's header and body: RESPONSE set, SIGNED as the request has it, reserved FLAGS 0, STATUS and LENGTH as the
reply has them. -/
def State.replyBytes (s : State) (n : Nat) (m : Msg) (status : Nat) (body : List Byte) : List Byte :=
  (msgBytes (fieldAt m.bytes 1 1 % 4 ||| 1) m.type s.fwApi body.length m.seq status n body).take (16 + body.length)

/-- Return a reply to its sender: into the message's buffer, and for a signed command to its datagram's source. -/
def State.giveReply (s : State) (n : Nat) (m : Msg) (status : Nat) (body : List Byte) : State :=
  let bs := s.replyBytes n m status body
  let s := (s.ownWrite (addrKey m.addr) bs).1
  if m.w.origin = .mgmt then s.send (.datagram bs) else s

/-- The message in mailbox `n` has been processed: its reply is written and the mailbox is DONE. -/
def State.replyMsg (s : State) (n : Nat) (m : Msg) (status : Nat) (body : List Byte) : State :=
  let s := s.giveReply n m status body
  { s with fw := { s.fw with cur := Tab.del s.fw.cur n } }.mboxState n 2

/-! ### Acceptance (R427, R96) -/

/-- The messages that reached a mailbox within the message time of 32 ns that runs, and its start (R96). -/
def State.arrived (s : State) (n : Nat) : Nat × List Msg :=
  ((Tab.find s.fw.arrivals n).filter fun x => decide (s.now 0 < x.1 + 32)).getD (s.now 0, [])

/-- May a later message no longer overtake this one: the message time it came in is over? -/
def State.settledMsg (s : State) (n : Nat) (m : Msg) : Bool := !((s.arrived n).2.contains m)

/-- A message that no row of the catalogue processes is answered, while the mailbox service runs, as soon as its message
time is over. -/
def State.answerOdd (s : State) (n : Nat) : State :=
  match Tab.find s.fw.cur n with
  | some m =>
    if s.comp 0 4 ≠ 1 ∨ s.settledMsg n m = false then s
    else if s.rangeBad (addrKey m.addr) 256 ∧ m.w.origin ≠ .mgmt then s.replyMsg n m 11 []
    else match kindAt n m.type with
      | none => s.replyMsg n m ((s.headerStatus n m).getD 4) []
      | some _ => s
  | none => s

/-- Mailbox `n` accepts a message: its bytes are taken. Mailbox 14 is armed with its buffer. -/
def State.acceptMsg (s : State) (n : Nat) (m : Msg) : State :=
  let s := s.incF 0 pgMbx 0x118 0 32 1
  if n = 14 then { s with fw := { s.fw with armed := some m.addr } }.mboxState 14 3 |>.noticeOut
  else
    let s := if m.w.origin = .mgmt then s else s.touchAll [(m.addr, 256)]
    let m := if m.w.origin = .mgmt then m else { m with bytes := s.memRead (addrKey m.addr) 256 }
    let s := { s with fw := { s.fw with cur := Tab.put s.fw.cur n m } }
    (s.mboxState n 1).answerOdd n

/-- Return a message with status SUPERSEDED (R96). -/
def State.supersede (s : State) (n : Nat) (m : Msg) : State :=
  ((s.logAt 0 4 .superseded [n, m.w.origin.code]).incF 0 pgMbx 0x118 32 16 1).giveReply n m 1 []

/-- The record of the newest applied write of a message becomes that of a superseded one; with it the value that the
register held before. -/
def amendRec (off addr origin : Nat) : List ChangeRec → List ChangeRec × Option Nat
  | [] => ([], none)
  | c :: cs =>
    if c.page = pgMbx ∧ c.offset = off ∧ c.origin = origin ∧ c.written % 2 ^ 52 = addr ∧ c.outcome = .applied then
      ({ c with outcome := .superseded, new := c.old } :: cs, some c.old)
    else ((c :: (amendRec off addr origin cs).1), (amendRec off addr origin cs).2)

/-- The write of a message that a later one of higher rank overtakes within the message time is undone: SLOTn has its
value of before, the record reads SUPERSEDED, ERR_STAT.SUPERSEDED is set, and the write counts no more (R96; entry 135). -/
def State.undoWrite (s : State) (n : Nat) (m : Msg) : State :=
  let off := 0x080 + 8 * n
  let g := s.ringOf 0
  match amendRec off m.addr m.w.origin.code g.recs with
  | (_, none) => s
  | (rs, some v) =>
    let s := { s with chg := Tab.set {} s.chg 0 { g with recs := rs } }
    ((s.wr 0 pgMbx off v).wr 0 pgMbx 0x060 (s.rd 0 pgMbx 0x060 - 1)).setErr 0 pgMbx 2

/-- A message that was accepted or queued is withdrawn. -/
def State.withdraw (s : State) (n : Nat) (m : Msg) : State :=
  let same (x : Msg) : Bool := x.addr = m.addr && x.w = m.w
  let q := Tab.get [] s.fw.queue n
  match Tab.find s.fw.cur n with
  | some x =>
    if same x then { s with fw := { s.fw with cur := Tab.del s.fw.cur n } }.mboxState n 0
    else { s with fw := { s.fw with queue := Tab.set [] s.fw.queue n (q.eraseP same) } }
  | none => { s with fw := { s.fw with queue := Tab.set [] s.fw.queue n (q.eraseP same) } }

/-- Is a message still accepted or queued? -/
def State.holdsMsg (s : State) (n : Nat) (m : Msg) : Bool :=
  let same (x : Msg) : Bool := x.addr = m.addr && x.w = m.w
  (Tab.find s.fw.cur n).any same || (Tab.get [] s.fw.queue n).any same

/-- A message takes the mailbox, or waits behind at most 3 others; a fifth is returned BUSY. -/
def State.takeMsg (s : State) (n : Nat) (m : Msg) : State :=
  if s.rdF 0 pgMbx 0x100 (2 * n) 2 = 0 then s.acceptMsg n m
  else
    let q := Tab.get [] s.fw.queue n
    if 4 ≤ q.length then (s.incF 0 pgMbx 0x118 32 16 1).giveReply n m 2 []
    else { s with fw := { s.fw with queue := Tab.set [] s.fw.queue n (q ++ [m]) } }

/-- Does a message lose to one that came before it within the message time (R96)? -/
def State.loses (s : State) (n : Nat) (w : Writer) : Bool :=
  (s.arrived n).2.any fun x => decide (originRank x.w.origin < originRank w.origin)

/-- A message is noted among those of the message time. -/
def State.noteArrival (s : State) (n : Nat) (m : Msg) : State :=
  { s with fw := { s.fw with arrivals := Tab.put s.fw.arrivals n ((s.arrived n).1, (s.arrived n).2 ++ [m]) } }

/-- The messages of lower rank that this one overtakes are withdrawn and returned SUPERSEDED, their writes undone. -/
def State.overtake (s : State) (n : Nat) (w : Writer) : State :=
  let lost := (s.arrived n).2.filter fun x => decide (originRank w.origin < originRank x.w.origin) && s.holdsMsg n x
  lost.foldl (fun s x => ((s.withdraw n x).undoWrite n x).supersede n x) s

/-- May a buffer address hold a message: 256 B aligned, in D0's STACK home region of this part (R426)? -/
def State.msgAddr (s : State) (a : Nat) : Bool :=
  addrSpace a = 0 && addrDev a = s.device && addrDie a = 0 && a % 256 = 0 && stackPresent a 256 .fw

/-- The message that a write of SLOTn submits. A buffer address outside D0's home region submits nothing (entry 39). -/
def State.slotMsg (s : State) (q : WriteReq) : Option Msg :=
  let a := q.value.toNat % 2 ^ 52
  if s.msgAddr a then some ⟨a, q.w, s.memRead (addrKey a) 256⟩ else none

/-- A write of SLOTn that acts: the register takes it, and the mailbox its message. -/
def State.slotWin (s : State) (n old detail : Nat) (q : WriteReq) (m : Option Msg) : State :=
  let s := s.winOne 0 pgMbx (0x080 + 8 * n) old detail q
  match m with
  | some m => (s.noteArrival n m).takeMsg n m
  | none => s

/-- A write of SLOTn that lost (R95, R96): recorded SUPERSEDED, its message returned with that status. -/
def State.slotLose (s : State) (n old detail : Nat) (q : WriteReq) (m : Option Msg) : State :=
  let s := s.loseAll 0 pgMbx (0x080 + 8 * n) old detail [q]
  match m with
  | some m => (s.noteArrival n m).supersede n m
  | none => s

/-- Submissions of allowed writers, in order of precedence, that reach SLOTn in one cycle (R95, R96, R427). Within one
message time the message of the highest-ranked origin is taken and the others are returned SUPERSEDED; those of one
origin are taken in order of arrival. OLD of each is the value before the cycle. -/
def State.slotCycle (s : State) (n : Nat) (ok : List WriteReq) : State :=
  let off := 0x080 + 8 * n
  match ok with
  | [] => s
  | w :: _ =>
    let isMsg := (s.slotMsg w).isSome
    let lost := isMsg && s.loses n w.w
    let s := if isMsg && !lost then s.overtake n w.w else s
    let old := s.view 0 pgMbx off
    let detail := s.detail 0 pgMbx off
    ok.foldl (fun s q =>
      if lost || decide (wrank w < wrank q) then s.slotLose n old detail q (s.slotMsg q)
      else s.slotWin n old detail q (s.slotMsg q)) s

/-- Writes that reach SLOTn in one cycle. Access faults are reported (R88), refused writes follow the collision's records
with OLD as before the cycle (R92, R95); while MGC is in reset the crossing holds them (R100). -/
def State.slotWrites (s : State) (n : Nat) (reqs : List WriteReq) : State :=
  let off := 0x080 + 8 * n
  let good := reqs.filter (accessOk 0 pgMbx off)
  if good.isEmpty ∨ s.inReset 0 pgMbx = true then (s.commit 0 pgMbx off reqs).s
  else
    let s := (reqs.filter fun r => !(accessOk 0 pgMbx off r)).foldl (fun s r => s.accessFault 0 pgMbx off r) s
    let old := s.view 0 pgMbx off
    let detail := s.detail 0 pgMbx off
    let denied := sortReqs (good.filter fun r => !(s.mayWrite 0 pgMbx off r))
    (s.slotCycle n (sortReqs (good.filter (s.mayWrite 0 pgMbx off)))).denyAll 0 pgMbx off old detail denied

/-- One write of SLOTn. -/
def State.slotWrite (s : State) (n : Nat) (q : WriteReq) : State := s.slotWrites n [q]

/-- MBX_SUBMIT. -/
def execMbxSubmit (w : Writer) (n : Mbox) (addr : BitVec 64) (s : State) : XRes :=
  .next (s.slotWrite n.val ⟨w, addr, 8⟩)

/-- MBX14_ARM. -/
def execMbx14Arm (w : Writer) (addr : BitVec 64) (s : State) : XRes := .next (s.slotWrite 14 ⟨w, addr, 8⟩)

/-- Mailbox `n` is FREE again and accepts the first message in its queue. -/
def State.freeMbox (s : State) (n : Nat) : State :=
  let s := s.mboxState n 0
  match Tab.get [] s.fw.queue n with
  | m :: q => { s with fw := { s.fw with queue := Tab.set [] s.fw.queue n q } }.acceptMsg n m
  | [] => s

/-- What a write of DONE does: mailboxes that are DONE and whose bit is written 1 become FREE. -/
def State.doneWritten (s : State) (v : Nat) : State :=
  (List.range 16).foldl (fun s n =>
    if bitsOf v n 1 = 1 ∧ s.rdF 0 pgMbx 0x100 (2 * n) 2 = 2 ∧ s.rdF 0 pgMbx 0x108 n 1 = 0 then s.freeMbox n else s) s

/-- MBX_DONE_CLEAR. -/
def execMbxDoneClear (w : Writer) (v : BitVec 64) (s : State) : XRes :=
  .next <| (s.write1 0 pgMbx 0x108 w v.toNat).then_ fun s => s.doneWritten v.toNat

/-! ### Signed commands (R429; 21 R446 to R448) -/

/-- The usable owner keys that are stored, in slot order (21 R447). -/
def State.ownerKeys (s : State) : List (Nat × List Byte) :=
  (List.range 4).filterMap fun n => match Tab.find s.sec.ownerKeys n with
    | some k => if s.sec.sensed.usable n ∧ leNat (sm3 k) = (Tab.get 0 s.sec.sensed.ownerHash n).toNat then some (n, k) else none
    | none => none

/-- The keys that a signed command may verify under: the owner's, or the vendor's for the first enrolment. -/
def State.commandKeys (s : State) (msg : List Byte) : List (List Byte) :=
  let own := s.ownerKeys.map (·.2)
  let none' := (List.range 4).all fun n => !(s.sec.sensed.usable n)
  let v := slice s.sec.cert 0x58 64
  if none' ∧ fieldAt msg 2 2 = 0x0105 ∧ leNat (sm3 v) = s.sec.sensed.vendorHash.toNat then [v] else own

/-- Does a signed command verify? -/
def State.verified (s : State) (msg : List Byte) : Bool :=
  msg.length = 256 && bitsOf (fieldAt msg 1 1) 1 1 = 1 &&
    (s.commandKeys msg).any fun k => Config.sm2Verify k (sm3 (msg.take 0xC0)) (slice msg 0xC0 64)

/-- SEC_COUNT on every die: a field counts. -/
def State.secCount (s : State) (lo : Nat) : State := foldNat 4 (fun s d => s.incF d pgProt 0x940 lo 16 1) s

/-- A verified command goes into its buffer, and to mailbox 15 as a write of its slot would. -/
def State.deliverSigned (s : State) (a : Nat) (m : Msg) : State :=
  let s := (s.ownWrite (addrKey a) m.bytes).1
  let q : WriteReq := ⟨m.w, BitVec.ofNat 64 a, 8⟩
  let lost := s.loses 15 m.w
  let s := if lost then s else s.overtake 15 m.w
  let old := s.rd 0 pgMbx 0x0F8
  let detail := s.rd 0 pgMbx 0x100
  if lost then s.slotLose 15 old detail q (some m) else s.slotWin 15 old detail q (some m)

/-- SIGNED_COMMAND_RECEIVE: the command port answers, or delivers to mailbox 15 with origin MGMT, in a buffer of its
own choice in D0's home region. While D0's shared cache is in reset the port waits (R72). -/
def execSignedCommandReceive (msg : List Byte) (buf : Nat) (s : State) : XRes :=
  .next <|
    if s.comp 0 4 = 0 ∨ s.inReset 0 pgShc = true then s
    else
      let a := s.device * 2 ^ 40 + buf % 2 ^ 38 / 256 * 256
      let m : Msg := ⟨a, ⟨.mgmt, BitVec.ofNat 32 (fieldAt msg 8 4), 0, false⟩, msg⟩
      if s.verified msg = false then (s.secCount 0).send (.datagram (s.replyBytes 15 m 12 []))
      else if m.seq ≤ s.fw.lastSeq then (s.secCount 16).send (.datagram (s.replyBytes 15 m 9 []))
      else
        { s with fw := { s.fw with lastSeq := m.seq } }.deliverSigned a m

/-! ### Processing -/

/-- The message of a type that mailbox `n` has accepted, once no other may overtake it (R96), while the mailbox service, and the service that the type needs,
run. -/
def State.msgIn (s : State) (n svc type : Nat) : Option Msg :=
  if s.rdF 0 pgMbx 0x100 (2 * n) 2 = 1 ∧ s.comp 0 4 = 1 ∧ s.comp 0 svc = 1 then
    (Tab.find s.fw.cur n).filter fun m => m.type = type && s.settledMsg n m
  else none

/-- Does firmware leave a message under another minor without effect (R430)? A free bit. -/
def State.leavesMsg (s : State) (m : Msg) : Bool := s.badMinor m && s.free.toNat % 2 = 1

/-- A message under another minor that is left without effect: what its reply says is free. -/
def State.oddReply (s : State) (n : Nat) (m : Msg) : State :=
  let t := s.took 1
  let len := (t.took 1).free.toNat % 241
  ((t.took (2 + len)).replyMsg n m (t.free.toNat % 65536) ((t.took 2).freeBytes len))

/-- A message row: the accepted message of the type is processed by `eff`, which answers status, reply body and state;
then the reply is given. What becomes of a message under another minor is undefined within that message (R430, 00 R4): it
passes every check that any message passes, and is then processed or left, which one being open (entry 152). -/
def State.msgRow (s : State) (n : Mbox) (svc type : Nat) (eff : State → Msg → Nat × List Byte × State) : XRes :=
  match s.msgIn n.val svc type with
  | none => .next s
  | some m =>
    match s.headerStatus n.val m with
    | some st => .next (s.replyMsg n.val m st [])
    | none =>
      if s.leavesMsg m then .next (s.oddReply n.val m)
      else
        let r := eff (if s.badMinor m then s.took 1 else s) m
        .next (r.2.2.replyMsg n.val m r.1 r.2.1)

/-! ### Faults of components (R421) -/

/-- Every message that is being processed is returned FAILED (R428). -/
def State.failMsgs (s : State) (p : Msg → Bool) : State :=
  (List.range 16).foldl (fun s n => match Tab.find s.fw.cur n with
    | some m => if p m then s.replyMsg n m 11 [] else s
    | none => s) s

/-- A fault that firmware cannot answer by a restart: a whole-device reset by HW. -/
def State.escalate (s : State) (d c : Nat) : State :=
  (((s.setErr d pgMgc 9).setErr d pgMgc 10).logAt d 0 .compEscalate [c]).resetReq (5, 0, 0) Origin.hw.code true

/-- What waits on a component, or falls back, as it restarts (Table 20-2). -/
def State.whileRestarting (s : State) (d c : Nat) : State :=
  match c with
  | 1 => s.wrF d pgPwr 0x028 3 1 1
  | 4 => s.failMsgs fun _ => true
  | 6 =>
    if s.updateStat % 8 = 1 then (s.failMsgs fun m => m.type = 0x0020).wrF 0 pgMgc 0x0D0 0 3 5 else s
  | _ => s

/-- A component is stopped: restarted, or, at its fourth fault within 60 s or where it is MON, escalated. -/
def State.compFault (s : State) (d c : Nat) : State :=
  if s.comp d c = 0 then s
  else
    let near := (Tab.get [] s.fw.restarts (8 * d + c)).filter fun t => decide (s.now d < t + 60000000000)
    if c = 0 ∨ 3 ≤ near.length then (s.setComp d c 3).escalate d c
    else
      let s := { s with fw := { s.fw with restarts := Tab.put s.fw.restarts (8 * d + c) (s.now d :: near) } }
      let s := ((s.setErr d pgMgc 9).logAt d 0 .compRestart [c]).satF d pgMgc 0x088 (4 * c) 4 1
      (s.setComp d c 2).whileRestarting d c

/-- COMPONENT_FAULT. -/
def execComponentFault (d : Die) (c : Component) (s : State) : XRes := .next (s.compFault d c)

/-- COMPONENT_LIVENESS_MISS. -/
def execComponentLivenessMiss (d : Die) (c : Component) (s : State) : XRes := .next (s.compFault d c)

/-- COMPONENT_RESTART_COMPLETE: the component runs again; PWRC takes control back from the governor (19 R412). -/
def execComponentRestartComplete (d : Die) (c : Component) (s : State) : XRes :=
  .next <|
    if s.comp d c ≠ 2 then s
    else
      let s := s.setComp d c 1
      if c.val = 1 then (s.wrF d pgPwr 0x028 3 1 0).retarget d
      else if c.val = 2 then s.admitDue d
      else if c.val = 3 ∧ d = 0 then s.cuesBack
      else if c.val = 4 then (foldNat 16 (fun s n => s.answerOdd n) s).noticeOut
      else s

end Sys2Proof.Machine
end

