-- ==== Sys2Proof/Machine/Services.lean ====
section
/-! DEFINITION. The messages of the log service and of management (20 R431 to R436; 13 R302, R304; 15 R354). -/

namespace Sys2Proof.Machine

/-! ### What records look like -/

/-- A log entry (Table 20-9). -/
def LogEntry.bytes (e : LogEntry) : List Byte :=
  let h := leBytes 8 e.time ++ leBytes 8 e.seq ++ leBytes 6 e.step ++ leBytes 2 e.code.num.toNat ++ leBytes 1 e.die ++
    leBytes 1 e.source ++ leBytes 1 (Config.severity e.code.num.toNat).toNat ++ leBytes 1 e.flags ++ leBytes 1 e.tpoint ++
    leBytes 3 0 ++ leBytes 28 (Config.logData e.code.num.toNat e.data).toNat
  h ++ leBytes 4 (crc32 h)

/-- A change record (Table 5-10). -/
def ChangeRec.bytes (c : ChangeRec) : List Byte :=
  let h := leBytes 8 c.time ++ leBytes 8 c.seq ++ leBytes 1 c.die ++ leBytes 1 c.origin ++ leBytes 1 c.outcome.code ++
    leBytes 1 c.flags ++ leBytes 2 c.page ++ leBytes 2 c.offset ++ leBytes 8 c.old ++ leBytes 8 c.new ++
    leBytes 8 c.written ++ leBytes 8 c.detail ++ leBytes 4 c.source
  h ++ leBytes 4 (crc32 h)

/-- A CBOR head in the deterministic encoding: major type and argument (RFC 8949 section 4.2.1). -/
def cborHead (major v : Nat) : List Byte :=
  let b (n : Nat) : List Byte := leBytes 1 (32 * major + n)
  if v < 24 then b v
  else if v < 2 ^ 8 then b 24 ++ leBytes 1 v
  else if v < 2 ^ 16 then b 25 ++ (leBytes 2 v).reverse
  else if v < 2 ^ 32 then b 26 ++ (leBytes 4 v).reverse
  else b 27 ++ (leBytes 8 v).reverse

def cborUint (v : Nat) : List Byte := cborHead 0 v
def cborInt (v : Int) : List Byte := if v < 0 then cborHead 1 (-1 - v).toNat else cborHead 0 v.toNat
def cborBytes (bs : List Byte) : List Byte := cborHead 2 bs.length ++ bs
def cborUints (vs : List Nat) : List Byte := cborHead 4 vs.length ++ vs.flatMap cborUint

/-- The keys and values of a fleet signature record, by rising key (Table 15-7). -/
def HistEvent.items (e : HistEvent) (serial : BitVec 128) : List (Nat × List Byte) :=
  [(0, cborUint 1), (1, cborBytes (leBytes 16 serial.toNat)), (2, cborUint e.seq), (3, cborUint e.histTime),
   (4, cborUint e.devTime), (5, cborUint e.step), (6, cborUint e.kind), (7, cborUints [e.die, e.ix]),
   (8, cborUint e.event), (9, cborUint e.verdict), (10, cborUint e.count), (11, cborUint e.flags)] ++
  (e.tile.toList.map fun t => (12, cborUint t)) ++
  (e.peer.toList.map fun p => (13, cborUints [p.1, p.2])) ++
  (if e.wits.isEmpty then [] else
    [(14, cborHead 4 e.wits.length ++ e.wits.flatMap fun w => cborBytes (leBytes 8 w))]) ++
  (e.diff.toList.map fun x => (15, cborUints [x.1, x.2.1, x.2.2.1, x.2.2.2])) ++
  [(16, cborUint e.op), (17, cborInt e.temp), (18, cborUint e.varith), (19, cborUint e.fw)] ++
  (e.book.toList.map fun b => (20, cborBytes (leBytes 32 b.toNat))) ++
  (e.address.toList.map fun a => (21, cborUint a))

/-- A fleet signature record (R354). -/
def HistEvent.bytes (e : HistEvent) (serial : BitVec 128) : List Byte :=
  let xs := e.items serial
  cborHead 5 xs.length ++ xs.flatMap fun x => cborUint x.1 ++ x.2

/-- The flush area of a die as FLUSH serves it (R423; its layout is entry 34): the epoch, log entries and the die's
change records oldest first, and the header and first 64 KiB of the die's capture. -/
def Flush.bytes (f : Flush) (d : Nat) : List Byte :=
  leBytes 8 f.epoch ++ f.log.reverse.flatMap LogEntry.bytes ++ (Tab.get [] f.chg d).reverse.flatMap ChangeRec.bytes ++
    (match f.captures.find? fun c => c.die = d with
      | some c => c.bytes.take (64 + 65536)
      | none => [])

/-! ### Places in memory -/

/-- Is a range of this part's stack memory present? -/
def State.ownRange (s : State) (a n : Nat) : Bool :=
  addrSpace a = 0 && addrDev a = s.device && decide (addrOff a + n ≤ homeSize)

/-- Copy bytes to a message's DEST: status, and the state, unchanged where the copy fails. -/
def State.copyOut (s : State) (a : Nat) (bs : List Byte) : Nat × State :=
  if s.ownRange a bs.length = false then (6, s)
  else
    let r := s.ownWrite (addrKey a) bs
    if r.2 then (0, r.1) else (11, s)

/-- Copy records that are read from the oldest wanted on; the reply gives the first SEQ and the count. -/
def State.copyRecs (s : State) (a first : Nat) (recs : List (Nat × List Byte)) : Nat × List Byte × State :=
  let r := s.copyOut a (recs.flatMap (·.2))
  (r.1, if r.1 = 0 then leBytes 8 ((recs.head?.map (·.1)).getD first) ++ leBytes 4 recs.length else [], r.2)

/-! ### The rows -/

/-- GET_VERSION. -/
def execGetVersion (n : Mbox) (s : State) : XRes :=
  s.msgRow n 4 0x0001 fun s _ =>
    (0, leBytes 4 (s.rdF 0 pgMgc 0x080 0 32) ++ leBytes 2 (s.rdF 0 pgMgc 0x080 32 16) ++ slice s.fw.image 0x0C 4, s)

/-- SET_IDENTITY. -/
def execSetIdentity (n : Mbox) (s : State) : XRes :=
  s.msgRow n 4 0x0002 fun s m =>
    if 512 ≤ m.arg 0 2 then (6, [], s)
    else if (List.range 20).any fun p => s.linkSt p = 4 then (8, [], s)
    else (0, [], { s with ident := (m.arg 0 2, m.arg 2 4) }.showRole)

/-- A blocking table record (13 Table 13-7). -/
def blockRecOf (bs : List Byte) : BlockRec :=
  let f := fieldAt bs 3 1
  { dev := fieldAt bs 0 2 % 512, port := fieldAt bs 2 1 % 32, used := bitsOf f 0 1 = 1, remap := bitsOf f 1 1 = 1,
    sync := bitsOf f 2 1 = 1, rdev := fieldAt bs 4 2 % 512, rport := fieldAt bs 6 1 % 32, company := fieldAt bs 8 4 }

/-- SET_BLOCKING: the table waits for the next curtain (13 R304). -/
def execSetBlocking (n : Mbox) (s : State) : XRes :=
  s.msgRow n 4 0x0003 fun s m =>
    let a := m.arg 0 8
    let c := m.arg 8 2
    if c = 0 ∨ 10240 < c ∨ s.ownRange a (16 * c) = false then (6, [], s)
    else
      let s := s.touch (addrKey a) (16 * c)
      if s.rangeBad (addrKey a) (16 * c) then (11, [], s)
      else
      let bs := s.memRead (addrKey a) (16 * c)
      let t := (List.range c).map fun i => blockRecOf (slice bs (16 * i) 16)
      let s := { s with fabric := { s.fabric with tableIn := some t } }
      (0, [], if s.resets.curtain then s else s.timeTree)

/-- INPUTS_READY: software has delivered again the micro-batch of the step that a notice INPUTS_LOST named. -/
def execInputsReady (n : Mbox) (s : State) : XRes :=
  s.msgRow n 4 0x0004 fun s m =>
    let mb := m.arg 6 2
    if m.arg 0 6 ≠ s.stepNum ∨ s.retained.inputsLost.contains mb = false then (8, [], s)
    else
      let keep (x : Nat × Nat × Nat) : Bool := x.2.2 ≠ 2 || s.microBatchOf x.1 ≠ some mb
      (0, [], { s with retained := { s.retained with
        inputsLost := s.retained.inputsLost.filter (· ≠ mb), toRestore := s.retained.toRestore.filter keep } })

/-- HB_MS as it acts: 0 off, else 100 to 10,000. -/
def State.hbMs (s : State) : Nat :=
  let v := s.rdF 0 pgMgc 0x0C8 0 14
  if v = 0 then 0 else clampTo 100 10000 v

/-- What a write of HB_CFG does: the times of dies that were not watched begin; with HB_MS 0 none is watched. -/
def State.hbWritten (s : State) : State :=
  let beats := if s.hbMs = 0 then [] else foldNat 4 (fun t d => if (Tab.find t d).isSome then t else Tab.put t d (s.now 0)) s.fw.beats
  { s with fw := { s.fw with beats := beats } }

/-- HEARTBEAT. -/
def execHeartbeat (n : Mbox) (s : State) : XRes :=
  s.msgRow n 4 0x0005 fun s m =>
    if 4 ≤ m.arg 0 1 then (6, [], s)
    else if s.hbMs = 0 then (0, [], s)
    else (0, [], { s with fw := { s.fw with beats := Tab.put s.fw.beats (m.arg 0 1) (s.now 0) } })

/-- HEARTBEAT_TIMEOUT: with HB_MS not 0, and no heartbeat of the die for 3 × HB_MS, its core cluster is reset with origin
FW. -/
def execHeartbeatTimeout (d : Die) (s : State) : XRes :=
  .next <|
    if s.hbMs = 0 ∨ s.now 0 < Tab.get 0 s.fw.beats d.val + 3000000 * s.hbMs then s
    else
      let s := { s with fw := { s.fw with beats := Tab.put s.fw.beats d.val (s.now 0) } }
      ((s.setErr 0 pgMgc 12).logAt d 0 .heartbeatLost [d]).resetReq (3, d, 0) Origin.fw.code false

/-- LOG_READ. -/
def execLogRead (n : Mbox) (s : State) : XRes :=
  s.msgRow n 5 0x0010 fun s m =>
    let first := m.arg 0 8
    if 16384 < m.arg 8 4 then (6, [], s)
    else
      let es := (s.log.ring.reverse.filter fun e => decide (first ≤ e.seq)).take (m.arg 8 4)
      s.copyRecs (m.arg 12 8) first (es.map fun e => (e.seq, e.bytes))

/-- CHG_READ. -/
def execChgRead (n : Mbox) (s : State) : XRes :=
  s.msgRow n 5 0x0011 fun s m =>
    let first := m.arg 1 8
    if 4 ≤ m.arg 0 1 ∨ 8192 < m.arg 9 4 then (6, [], s)
    else
      let rs := ((s.ringOf (m.arg 0 1)).recs.reverse.filter fun c => decide (first ≤ c.seq)).take (m.arg 9 4)
      s.copyRecs (m.arg 13 8) first (rs.map fun c => (c.seq, c.bytes))

/-- The longest start of a list of records that fits. -/
def fitting : Nat → List (Nat × List Byte) → List (Nat × List Byte)
  | _, [] => []
  | room, x :: xs => if x.2.length ≤ room then x :: fitting (room - x.2.length) xs else []

/-- SIG_READ: as many whole records as MAX_BYTES holds; those copied have been read (HIST_STAT). -/
def execSigRead (n : Mbox) (s : State) : XRes :=
  s.msgRow n 5 0x0012 fun s m =>
    let first := m.arg 0 8
    let es := s.history.events.reverse.filter fun e => decide (first ≤ e.seq)
    let rs := fitting (m.arg 8 4) (es.map fun e => (e.seq, e.bytes s.sec.sensed.serial))
    let r := s.copyRecs (m.arg 12 8) first rs
    let read := match rs.getLast? with
      | some x => max s.history.read (x.1 + 1)
      | none => s.history.read
    if r.1 = 0 then (r.1, r.2.1, { r.2.2 with history := { r.2.2.history with read := read } }) else r

/-- CAPTURE_READ: the capture of a die with the SEQ named, or the flush area. -/
def execCaptureRead (n : Mbox) (s : State) : XRes :=
  s.msgRow n 5 0x0013 fun s m =>
    let d := m.arg 0 1
    let q := m.arg 1 4
    let bs : Option (List Byte) :=
      if 4 ≤ d then none
      else if q = 0xFFFFFFFF then s.fw.flush.map fun f => f.bytes d
      else ((Tab.find s.fw.captures (d * 4 + q % 4)).filter fun c => c.seq = q).map Capture.bytes
    match bs with
    | none => (6, [], s)
    | some b =>
      let r := s.copyOut (m.arg 5 8) b
      (r.1, [], r.2)

/-- SENSOR_READ: one reading of every sensor of Table 20-1, as the sensors give them. -/
def execSensorRead (n : Mbox) (readings : List Byte) (s : State) : XRes :=
  s.msgRow n 5 0x0014 fun s m =>
    if 4 ≤ m.arg 0 1 then (6, [], s)
    else
      let r := s.copyOut (m.arg 1 8) readings
      (r.1, [], r.2)

/-- The mailbox service as a writer of registers (R432). -/
def mbxsWriter : Writer := ⟨.fw, 4, 0, false⟩

/-- TRACE_SET: bits of TRACE_EN0 to 3 are set or cleared. -/
def execTraceSet (n : Mbox) (s : State) : XRes :=
  s.msgRow n 5 0x0015 fun s m =>
    if 1 < m.arg 32 1 then (6, [], s)
    else
      let one (s : State) (i : Nat) : State :=
        let old := s.rd 0 pgMgc (0x0A8 + 8 * i)
        let mask := m.arg (8 * i) 8
        (s.write1 0 pgMgc (0x0A8 + 8 * i) mbxsWriter
          (if m.arg 32 1 = 0 then old ||| mask else old &&& (maskN 64 ^^^ mask))).s
      (0, [], foldNat 4 one s)

/-- LOG_SUPPRESSED: the source's rate is within the limit again, and one entry gives the count it lost. -/
def execLogSuppressed (d : Die) (src : BitVec 8) (s : State) : XRes :=
  .next <|
    let key := d.val * 256 + src.toNat
    let lost := Tab.get 0 s.log.lost key
    if lost = 0 ∨ 4096 ≤ (s.recentOf key).length then s
    else
      let s := { s with log := { s.log with lost := Tab.del s.log.lost key } }
      (s.setErr 0 pgMgc 11).logPut d src.toNat .logSuppressed [src.toNat, lost]

end Sys2Proof.Machine
end

