-- ==== Sys2Proof/Machine/Updates.lean ====
section
/-! DEFINITION. Updates of the firmware (20 R438 to R440). -/

namespace Sys2Proof.Machine

/-! ### The rows (R438, R439) -/

/-- UPDATE_STAT's state: 0 NONE, 1 STAGING, 2 STAGED, 3 HELD, 4 ACTIVATING, 5 FAILED. -/
def State.updateState (s : State) : Nat := s.rdF 0 pgMgc 0x0D0 0 3
def State.setUpdate (s : State) (v : Nat) : State := s.wrF 0 pgMgc 0x0D0 0 3 v

/-- UPDATE_STAGE: the image is copied, checked as stage 6 does, and written to the slot. -/
def execUpdateStage (n : Mbox) (s : State) : XRes :=
  s.msgRow n 6 0x0020 fun s m =>
    let a := m.arg 0 8
    let len := m.arg 8 4
    if s.updateState = 3 ∨ s.updateState = 4 then (2, [], s)
    else if 2 ^ 25 < len ∨ s.ownRange a len = false then (6, [], s)
    else
      let s := s.touch (addrKey a) len
      if s.rangeBad (addrKey a) len then (11, [], s.setUpdate 5)
      else
      let bs := s.memRead (addrKey a) len
      match s.imageFault bs with
      | some _ => (11, [], s.setUpdate 5)
      | none =>
        let s := { s with fw := { s.fw with slot := some bs, slotDue := false, slotBad := false } }
        (0, [], (s.setUpdate 2).logAt 0 6 .updateStaged [fieldAt bs 8 4])

/-- Has EMERGENCY been 1 within the last 10 s? Rule 3 of 19 R411 keeps it 1 for 10 ms. -/
def State.recentEmergency (s : State) : Bool :=
  s.emergency ||
  (match s.fw.clean with | some t => decide (s.now 0 < t + 10000000000) | none => false) ||
  (match s.power.hardAt with | some t => decide (s.now 0 < t + 10010000000) | none => false)

/-- An activation begins: the slot is PENDING; a part with an active book asks at the next curtain to be fenced and waits
for that COMMIT, any other is reset with origin FW. -/
def State.beginUpdate (s : State) : State :=
  let s := s.setUpdate 4
  let s := { s with fw := { s.fw with slotDue := true } }
  if s.books.active.isSome then { s with fw := { s.fw with waiting := true } }
  else s.resetReq (5, 0, 0) Origin.fw.code false

/-- UPDATE_ACTIVATE: the reply precedes the reset. -/
def execUpdateActivate (n : Mbox) (s : State) : XRes :=
  let go : Bool := match s.msgIn n.val 6 0x0021 with
    | some m => (s.headerStatus n.val m).isNone && !(s.leavesMsg m) && s.updateState = 2 && !s.recentEmergency
    | none => false
  let r := s.msgRow n 6 0x0021 fun s _ =>
    if s.updateState = 3 ∨ s.updateState = 4 then (10, [], s)
    else if s.updateState ≠ 2 then (8, [], s)
    else if s.recentEmergency then (10, [], (s.setUpdate 3).logAt 0 6 .updateHeld)
    else (0, [], s)
  match r with
  | .next t => .next (if go then t.beginUpdate else t)
  | x => x

/-- UPDATE_CANCEL: a held activation is withdrawn. -/
def execUpdateCancel (n : Mbox) (s : State) : XRes :=
  s.msgRow n 6 0x0022 fun s _ =>
    if s.updateState = 3 then (0, [], s.setUpdate 2) else (8, [], s)

/-- UPDATE_HOLD_EXPIRE: 10 s have passed without EMERGENCY, and the held activation begins, unless the part is down. -/
def execUpdateHoldExpire (s : State) : XRes :=
  .next <| if s.updateState = 3 ∧ s.recentEmergency = false ∧ s.power.down = false ∧ s.power.off.isEmpty = true then s.beginUpdate else s

end Sys2Proof.Machine
end

