-- ==== Sys2Proof/Machine/Trust.lean ====
section
/-! DEFINITION. Owner keys, key slots, rollback, protection fuses and attestation (21 R441 to R453). -/

namespace Sys2Proof.Machine

/-! ### Fuse blows (R441, R442, R451) -/

/-- Blow fuses: the command is counted on every die (SEC_COUNT). -/
def State.blow (s : State) (f : Fuses → Fuses) : State :=
  { s with sec := { s.sec with fuses := f s.sec.fuses } }.secCount 32

/-- A message that blows fuses is answered BAD_STATE in emergency. -/
def State.blowRow (s : State) (m : Msg) (eff : State → Msg → Nat × List Byte × State) : Nat × List Byte × State :=
  if s.emergency then (8, [], s) else eff s m

/-- Store an owner's public key. -/
def State.putOwnerKey (s : State) (i : Nat) (key : List Byte) : State :=
  { s with sec := { s.sec with ownerKeys := Tab.put s.sec.ownerKeys i key } }

/-- OWNER_ENROLL: the hash, then VALID, and the key is stored. -/
def execOwnerEnroll (n : Mbox) (s : State) : XRes :=
  s.msgRow n 4 0x0105 fun s m => s.blowRow m fun s m =>
    let i := m.arg 0 1
    let key := m.part 4 64
    let f := s.sec.fuses
    if 4 ≤ i then (6, [], s)
    else if f.fresh i = false then (8, [], s)
    else
      let s := s.blow fun f => { f with
        ownerHash := Tab.set 0 f.ownerHash i (BitVec.ofNat 256 (leNat (sm3 key))),
        ownerValid := f.ownerValid ||| BitVec.ofNat 4 (2 ^ i) }
      (0, [], s.putOwnerKey i key)

/-- OWNER_REVOKE: not the last usable slot. -/
def execOwnerRevoke (n : Mbox) (s : State) : XRes :=
  s.msgRow n 4 0x0106 fun s m => s.blowRow m fun s m =>
    let i := m.arg 0 1
    let f := s.sec.fuses
    if 4 ≤ i then (6, [], s)
    else if f.lastUsable i then (8, [], s)
    else (0, [], s.blow fun f => { f with ownerRevoke := f.ownerRevoke ||| BitVec.ofNat 4 (2 ^ i) })

/-- ROLLBACK_COMMIT (R449): the counter rises to the running image's ROLLBACK. -/
def execRollbackCommit (n : Mbox) (s : State) : XRes :=
  s.msgRow n 4 0x0107 fun s m => s.blowRow m fun s _ =>
    let r := s.imageRollback
    if r ≤ s.sec.fuses.rollback then (0, [], s)
    else (0, [], s.blow fun f => { f with fwRollback := f.fwRollback ||| BitVec.ofNat 64 (2 ^ r - 1) })

/-- PROT_REMOVE: rights of a page are blown away (05 R93). -/
def execProtRemove (n : Mbox) (s : State) : XRes :=
  s.msgRow n 4 0x0108 fun s m => s.blowRow m fun s m =>
    if 32 ≤ m.arg 1 1 ∨ 32 ≤ m.arg 2 1 then (6, [], s)
    else (0, [], s.blow fun f => { f with protRemove := Tab.upd 0 f.protRemove (m.arg 0 1) (· ||| m.rights) })

/-- OWNER_KEY_PUT: a key whose SM3 equals the slot's hash is stored. -/
def execOwnerKeyPut (n : Mbox) (s : State) : XRes :=
  s.msgRow n 4 0x0109 fun s m =>
    let i := m.arg 0 1
    let key := m.part 4 64
    if 4 ≤ i ∨ leNat (sm3 key) ≠ (Tab.get 0 s.sec.sensed.ownerHash i).toNat then (6, [], s)
    else (0, [], s.putOwnerKey i key)

/-! ### Key slots (R450) -/

/-- Why a key slot may not be changed now: a fabric slot that the active or held book names, slot 16 while a checkpoint
is exported or restored. -/
def State.slotBusy (s : State) (i : Nat) : Option Nat :=
  let names (b : Option Book) : Bool := b.any fun b => b.circuits.any fun c => c.conf && c.key = i
  if i < 16 ∧ (names s.books.active ∨ names s.books.held) then some 8
  else if i = 16 ∧ (s.ckpState = 1 ∨ s.ckpState = 4) then some 2 else none

/-- The packet counters of a slot start again (14 R331). -/
def State.zeroCounters (s : State) (i : Nat) : State :=
  { s with fabric := { s.fabric with
    keyTx := Tab.del s.fabric.keyTx i, keyRx := Tab.keep (fun k => decide (k / 512 ≠ i)) s.fabric.keyRx } }

/-- KEY_LOAD. -/
def execKeyLoad (n : Mbox) (s : State) : XRes :=
  s.msgRow n 4 0x0103 fun s m =>
    let i := m.arg 0 1
    let ct := m.arg 2 2
    if 16 < i ∨ ct ≠ (if i = 16 then 129 else 113) then (6, [], s)
    else if m.len ≠ 4 + ct then (5, [], s)
    else match s.slotBusy i with
      | some st => (st, [], s)
      | none =>
        match (Config.sm2Open (m.part 4 ct)).filter fun k => k.length = (if i = 16 then 32 else 16) with
        | none => (6, [], s)
        | some key =>
          let tag := BitVec.ofNat 64 (keyTag key)
          if s.sec.tags.contains tag then (6, [], s)
          else
            let sec := { s.sec with keys := Tab.put s.sec.keys i key, tags := (tag :: s.sec.tags).take 1024 }
            (0, [], { s with sec := sec }.zeroCounters i)

/-- KEY_CLEAR. -/
def execKeyClear (n : Mbox) (s : State) : XRes :=
  s.msgRow n 4 0x0104 fun s m =>
    let i := m.arg 0 1
    if 16 < i then (6, [], s)
    else match s.slotBusy i with
      | some st => (st, [], s)
      | none => (0, [], { s with sec := { s.sec with keys := Tab.del s.sec.keys i } })

/-! ### Identity and attestation (R444, R452) -/

/-- GET_IDENTITY: the certificate, where the part holds one. -/
def execGetIdentity (n : Mbox) (s : State) : XRes :=
  s.msgRow n 4 0x0102 fun s m =>
    if s.sec.cert.length ≠ 256 then (8, [], s)
    else
      let r := s.copyOut (m.arg 0 8) s.sec.cert
      (r.1, [], r.2)

/-- A measurement record. -/
def measure (kind index : Nat) (v : List Byte) : List Byte :=
  leBytes 1 kind ++ leBytes 1 index ++ leBytes 6 0 ++ (v ++ List.replicate 32 0).take 32

/-- A blocking table record as its bytes. -/
def BlockRec.bytes (r : BlockRec) : List Byte :=
  leBytes 2 r.dev ++ leBytes 1 r.port ++ leBytes 1 (bitAt r.used 0 + bitAt r.remap 1 + bitAt r.sync 2) ++ leBytes 2 r.rdev ++
    leBytes 1 r.rport ++ leBytes 1 0 ++ leBytes 4 r.company ++ leBytes 4 0

/-- The measurement records, in order of kind. -/
def State.measures (s : State) : List (List Byte) :=
  let img := s.fw.image
  let book (k : Nat) (b : Option Book) : List (List Byte) := b.toList.map fun b => measure k 0 (leBytes 32 b.bookDigest.toNat)
  [measure 1 0 (leBytes 32 Config.romDigest.toNat), measure 2 0 (sm3 (img.take (64 + 48 * fieldAt img 0x14 2)))] ++
    ((imageEntries img).map fun e => measure 3 (fieldAt e 0 1) (slice e 0x10 32)) ++
    book 4 s.books.active ++ book 5 s.books.staged ++ book 6 s.books.held ++
    (s.sec.keys.map fun e => measure 7 e.1 (leBytes 8 (keyTag e.2))) ++
    (if s.fabric.table.isEmpty then [] else [measure 8 0 (sm3 (s.fabric.table.flatMap BlockRec.bytes))])

/-- The report: header, records, signature, certificate. -/
def State.report (s : State) (nonce : List Byte) : List Byte :=
  let ms := s.measures
  let f := s.sec.sensed
  let prot := sm3 ((List.range 256).flatMap fun pg => leBytes 8 (s.protEntry 0 pg))
  let h := [0x4F, 0x4C, 0x41, 0x52] ++ leBytes 2 1 ++ leBytes 2 ms.length ++ leBytes 4 (128 + 40 * ms.length + 320) ++
    leBytes 4 0 ++ leBytes 16 f.serial.toNat ++ nonce ++ leBytes 8 (s.now 0) ++
    leBytes 8 (s.stepNum % 2 ^ 48 + s.epoch * 2 ^ 48) ++ leBytes 4 (s.rdF 0 pgMgc 0x080 0 32) ++ slice s.fw.image 0x0C 4 ++
    leBytes 1 f.rollback ++ leBytes 1 (bitsWhere 4 f.usable + bitsWhere 4 f.dead * 16) ++
    leBytes 1 (bitAt f.dbgDisable 0 + bitAt f.ownerFw 1 + bitAt (s.sec.fuses ≠ f) 2) ++ leBytes 5 0 ++ prot
  let body := h ++ ms.flatten
  body ++ Config.sm2Sign (sm3 body) ++ s.sec.cert

/-- ATTEST: a part whose certificate does not hold signs nothing. -/
def execAttest (n : Mbox) (s : State) : XRes :=
  s.msgRow n 4 0x0101 fun s m =>
    if s.certOk = false then (8, [], s)
    else
      let bs := s.report (m.part 0 32)
      let r := s.copyOut (m.arg 32 8) bs
      (r.1, if r.1 = 0 then leBytes 4 bs.length else [], r.2)

end Sys2Proof.Machine
end

