-- ==== Sys2Proof/Machine/IO.lean ====
section
/-! DEFINITION. Machine checks, Ethernet, the PCIe root port and the board controller bus (22 R456 to R466). -/

namespace Sys2Proof.Machine

abbrev ORes := Host.Outcome State Fault Refusal

/-! ### What IO may touch (R461) -/

/-- Do two ranges of keys meet? -/
def overlaps (a n b m : Nat) : Bool := decide (a < b + m ∧ b < a + n)

/-- Does a range touch SHARD_A, SHARD_B, BUDDY_A or BUDDY_B of the active or the held book, or the management store? -/
def State.ioBlocked (s : State) (a n : Nat) : Bool :=
  let k := addrKey a
  let of (b : Option Book) : Bool := b.any fun b => (b.retain.take 4).any fun r => overlaps k n (addrKey r.1) r.2
  of s.books.active || of s.books.held || overlaps k n mgmtStore (homeSize - mgmtStore)

/-- May IO read or write a range: in the part's own STACK space, and nothing of it protected? -/
def State.ioOk (s : State) (a n : Nat) : Bool := s.ownRange a n && !(s.ioBlocked a n)

/-- A refusal: REFUSED of the port's page, and one log entry with the address. -/
def State.ioRefuse (s : State) (d pg a : Nat) : State := (s.setErr d pg 9).logAt d srcHw .accessRefused [a]

/-! ### The checksum that CSUM asks for (UDP or TCP over IPv6 or IPv4) -/

/-- The sum of big-endian 16-bit words. -/
def sum16 : List Byte → Nat
  | a :: b :: r => a.toNat * 256 + b.toNat + sum16 r
  | [a] => a.toNat * 256
  | [] => 0

/-- Ones' complement of the folded sum; 0 is sent as all ones. -/
def checksum (n : Nat) : Nat :=
  let x := n % 65536 + n / 65536
  let c := 65535 - (x % 65536 + x / 65536)
  if c = 0 then 65535 else c

/-- Replace bytes at an offset. -/
def putAt (bs : List Byte) (off : Nat) (xs : List Byte) : List Byte := bs.take off ++ xs ++ bs.drop (off + xs.length)

/-- Insert the checksum of the segment at `l4` of `len` bytes, given the addresses and the protocol. -/
def insertSum (f : List Byte) (addrs : List Byte) (proto l4 len : Nat) : List Byte :=
  if proto ≠ 6 ∧ proto ≠ 17 then f
  else
    let at' := l4 + (if proto = 17 then 6 else 16)
    let z := putAt f at' [0, 0]
    let c := checksum (sum16 addrs + proto + len + sum16 (slice z l4 len))
    putAt z at' (leBytes 2 c).reverse

/-- A frame with its checksum inserted; other frames as they are. -/
def withChecksum (f : List Byte) : List Byte :=
  let ty := beNat (slice f 12 2)
  if ty = 0x86DD then insertSum f (slice f 22 32) (fieldAt f 20 1) 54 (beNat (slice f 18 2))
  else if ty = 0x0800 then
    let ihl := fieldAt f 14 1 % 16 * 4
    insertSum f (slice f 26 8) (fieldAt f 23 1) (14 + ihl) (beNat (slice f 16 2) - ihl)
  else f

/-! ### Ethernet (R459 to R461) -/

def ethDie : EthPort → Nat
  | .eth d => d
  | .mgt => 0
def ethPg : EthPort → Nat
  | .eth _ => pgEth
  | .mgt => pgMgt
def ethQKey (e : EthPort) (dir q : Nat) : Nat :=
  (match e with | .eth d => d.val | .mgt => 4) * 128 + dir * 64 + q

def State.ethQ (s : State) (k : Nat) : EthQ := Tab.get {} s.io.queues k
def State.setHead (s : State) (k h : Nat) : State :=
  { s with io := { s.io with queues := Tab.set {} s.io.queues k { s.ethQ k with head := h } } }
/-- Entries of a ring: 64 to 4,096; values outside act as the nearer end (entry 41). -/
def EthQ.size (q : EthQ) : Nat := clampTo 64 4096 q.entries
def EthQ.desc (q : EthQ) (i : Nat) : Nat := q.base + 32 * i
/-- Is the port up and its block out of reset, and the queue enabled with a descriptor to take? -/
def State.ethReady (s : State) (e : EthPort) (k : Nat) : Bool :=
  let q := s.ethQ k
  s.alive (ethDie e) && s.rdF (ethDie e) (ethPg e) 0x088 0 1 = 1 && !(s.blkIs (ethDie e) (ethPg e) 4) && q.enable &&
    q.head ≠ q.tail

/-- Does the queue belong to firmware: queue 63 of D0's 400GBASE-CR4 port while PTP_ROOT is 1? -/
def State.fwQueue (s : State) (e : EthPort) (q : Nat) : Bool := e = .eth 0 && q = 63 && s.rdF 0 pgTim 0x088 0 1 = 1

/-- Firmware's IEEE 1588 client takes an event message on its queue: on the time root a measured offset, which the protocol
makes (a free value), is steered away (04 R76; R460; entry 151). -/
def State.ptpEvent (s : State) : State :=
  if s.rdF 0 pgTim 0x090 1 1 = 0 then s else (s.took 1).applyOffset (sext 32 (s.free.toNat % 2 ^ 32))

/-- Descriptors of the frame at the head of a transmit ring, up to EOP, all owned by the port. -/
def txChain (s : State) (q : EthQ) : Nat → Nat → Option (List Nat)
  | 0, _ => none
  | n + 1, i =>
    let f := fieldAt (s.memRead (addrKey (q.desc i)) 32) 0x0A 1
    if i = q.tail ∨ f % 2 = 0 then none
    else if bitsOf f 1 1 = 1 then some [i]
    else (txChain s q n ((i + 1) % q.size)).map (i :: ·)

/-- Give a descriptor back (a port whose shared cache is in reset, or behind a seam in reset, waits, 04 R72): OWN 0, STATUS, and its time where one was taken. -/
def State.descDone (s : State) (a flags status : Nat) (time : Option Nat) : State :=
  let s := (s.ownWrite (addrKey a + 0x0A) (leBytes 1 (flags - flags % 2) ++ leBytes 1 status)).1
  match time with
  | some t => (s.ownWrite (addrKey a + 0x10) (leBytes 8 t)).1
  | none => s

/-- Can the port take the descriptor at the head of a ring? A ring in protected or unreadable memory is reported. -/
def State.descOk (s : State) (q : EthQ) : Option Nat :=
  if s.ioOk (q.desc q.head) 32 = false then some 9
  else if s.rangeBad (addrKey (q.desc q.head)) 32 then some 10 else none

/-- The descriptor at the head of a ring is read (11 R265). -/
def State.descRead (s : State) (q : EthQ) : State := if s.ioOk (q.desc q.head) 32 then s.touchAll [(q.desc q.head, 32)] else s

/-- ETH_TX: the frame at the head of the queue, of one or more descriptors. -/
def execEthTx (e : EthPort) (q : Fin 64) (s : State) : ORes :=
  .next <|
    let d := ethDie e
    let pg := ethPg e
    let k := ethQKey e 0 q
    let r := s.ethQ k
    if s.ethReady e k = false ∨ s.fwQueue e q = true ∨ s.reaches d (r.desc r.head) = false then s
    else
    let s := s.descRead r
    match s.descOk r with
      | some 9 => s.ioRefuse d pg (r.desc r.head)
      | some b => s.setErr d pg b
      | none =>
        match txChain s r r.size r.head with
        | none => s
        | some ix =>
          let s := s.touchAll ((ix.drop 1).map fun i => (r.desc i, 32))
          if ix.any fun i => s.rangeBad (addrKey (r.desc i)) 32 then s.setErr d pg 10 else
          let ds := ix.map fun i => (r.desc i, s.memRead (addrKey (r.desc i)) 32)
          let bufs := ds.map fun x => (fieldAt x.2 0 8 % 2 ^ 52, fieldAt x.2 8 2)
          if bufs.any fun b => s.ioOk b.1 b.2 && !(s.reaches d b.1) then s else
          let no := bufs.find? fun b => !(s.ioOk b.1 b.2)
          let s := if no.isSome then s else s.touchAll bufs
          let bad := bufs.any fun b => s.rangeBad (addrKey b.1) b.2
          let status := if no.isSome then 1 else if bad then 2 else 0
          let frame := bufs.flatMap fun b => s.memRead (addrKey b.1) b.2
          let csum := ds.any fun x => bitsOf (fieldAt x.2 0x0A 1) 3 1 = 1
          let now := s.now d
          let s := match no with
            | some b => s.ioRefuse d pg b.1
            | none => if bad then s.setErr d pg 10
              else (s.send (.frame e (if csum then withChecksum frame else frame))).incF d pg 0x0B8 0 32 1
          let s := ds.foldl (fun s x =>
            let f := fieldAt x.2 0x0A 1
            s.descDone x.1 f status (if status = 0 ∧ bitsOf f 2 1 = 1 then some now else none)) s
          s.setHead k (((ix.getLast?).getD r.head + 1) % r.size)

/-- ETH_RX: a frame into the descriptor at the head of the queue; without one it is lost. A command datagram never
reaches a queue of the management port. Whether a frame whose FCS fails reaches its buffer is open (a free bit). -/
def execEthRx (e : EthPort) (q : Fin 64) (f : RxFrame) (s : State) : ORes :=
  .next <|
    let d := ethDie e
    let pg := ethPg e
    let k := ethQKey e 1 q
    let r := s.ethQ k
    if s.fwQueue e q then
      if s.alive d = false ∨ s.rdF d pg 0x088 0 1 = 0 ∨ s.blkIs d pg 4 = true ∨ f.fcsOk = false ∨ 9216 < f.bytes.length then s
      else
        let s := s.incF d pg 0x0B8 32 32 1
        if f.ptp then s.ptpEvent else s
    else if s.ethReady e k = false ∨ (e = .mgt ∧ f.toCmd = true) ∨ 9216 < f.bytes.length ∨
        s.reaches d (r.desc r.head) = false then s
    else
    let s := s.descRead r
    match s.descOk r with
      | some 9 => s.ioRefuse d pg (r.desc r.head)
      | some b => s.setErr d pg b
      | none =>
        let a := r.desc r.head
        let x := s.memRead (addrKey a) 32
        let flags := fieldAt x 0x0A 1
        let buf := fieldAt x 0 8 % 2 ^ 52
        if flags % 2 = 0 ∨ (s.ioOk buf 1 = true ∧ s.reaches d buf = false) then s
        else
          let n := min f.bytes.length (fieldAt x 8 2)
          let keep := f.fcsOk || s.free.toNat % 2 = 1
          let s := if f.fcsOk then s else s.took 1
          let s := s.incF d pg 0x0B8 32 32 1
          let no := s.ioOk buf n = false
          let w := if no ∨ keep = false then (s, true) else s.ownWrite (addrKey buf) (f.bytes.take n)
          let s := if no then s.ioRefuse d pg buf else if w.2 then w.1 else w.1.setErr d pg 10
          let status := if no then 1 else if w.2 = false then 2 else if f.fcsOk = false then 3
            else if n < f.bytes.length then 4 else 0
          let s := s.descDone a (flags ||| 2) status (if f.ptp then some (s.now d) else none)
          (s.ownWrite (addrKey a + 0x0C) (leBytes 2 n)).1.setHead k ((r.head + 1) % r.size)

/-- PPS_PULSE: at a whole second of device time. -/
def execPpsPulse (s : State) : ORes :=
  .next <| if s.power.off.isEmpty ∧ s.now 0 % 1000000000 = 0 then (s.send (.pin .ppsOut true)).send (.pin .ppsOut false) else s

/-- ETH_LINK_DOWN: on the time root, device time runs free. -/
def execEthLinkDown (e : EthPort) (s : State) : ORes :=
  .next <|
    let d := ethDie e
    let pg := ethPg e
    if s.rdF d pg 0x088 0 1 = 0 then s
    else
      let s := (s.wr d pg 0x088 0).setErr d pg 11
      if s.fwQueue e 63 && s.rdF 0 pgTim 0x090 1 1 = 1 then s.steer 0 else s

/-- ETH_LINK_UP. -/
def execEthLinkUp (e : EthPort) (s : State) : ORes :=
  .next <|
    let d := ethDie e
    let pg := ethPg e
    if s.blkIs d pg 4 ∨ s.alive d = false then s else s.wr d pg 0x088 3

/-! ### The PCIe root port (R462, R463) -/

/-- Is the root port's link up, and its block out of reset? -/
def State.pcieUp (s : State) : Bool := s.alive 1 && s.rdF 1 pgPcie 0x080 0 1 = 1 && !(s.blkIs 1 pgPcie 4)

/-- PCIE_LINK_UP. -/
def execPcieLinkUp (rate : BitVec 2) (width : Nat) (flit : Bool) (s : State) : ORes :=
  .next <|
    if s.blkIs 1 pgPcie 4 ∨ s.alive 1 = false then s
    else if flit = false then s.wr 1 pgPcie 0x080 (2 ^ 7)
    else if rate = 0 ∨ width = 0 ∨ 8 < width then s
    else s.wr 1 pgPcie 0x080 (1 + rate.toNat * 2 + width * 2 ^ 3)

/-- PCIE_LINK_DOWN. -/
def execPcieLinkDown (s : State) : ORes := .next (s.wrF 1 pgPcie 0x080 0 7 0)

/-- Does a range lie wholly in a window that is VALID? -/
def State.inWindow (s : State) (a n : Nat) : Bool :=
  (List.range 4).any fun i =>
    let b := s.rd 1 pgPcie (0x0A0 + 16 * i)
    let l := s.rd 1 pgPcie (0x0A8 + 16 * i)
    b % 2 = 1 && decide (bitsOf b 12 40 * 4096 ≤ a ∧ a + n ≤ (bitsOf l 12 40 + 1) * 4096)

/-- An inbound request that is not performed: its ERR_STAT bit, one log entry, and what a read is answered with. -/
def State.pcieRefuse (s : State) (write : Bool) (addr bit code : Nat) : State :=
  let s := (s.setErr 1 pgPcie bit).logAt 1 srcHw .accessRefused [addr]
  let s := if bit = 9 ∨ bit = 10 then s.incF 1 pgPcie 0x0E0 0 32 1 else s
  if write then s else s.send (.tlp false addr [code] [])

/-- A vector is raised, or waits for cores in reset: up to 64, then dropped and counted. Whether a vector is for the
cores in reset is open (a free bit). -/
def State.msiIn (s : State) (v : Nat) : State :=
  if s.resets.runs.any (fun r => r.dom = 3) ∧ s.free.toNat % 2 = 1 then
    let s := s.took 1
    if 64 ≤ s.io.msi.length then s.incF 1 pgPcie 0x0E0 32 32 1
    else { s with io := { s.io with msi := s.io.msi ++ [v] } }
  else (s.took 1).send (.note (.msi v))

/-- PCIE_INBOUND: a write to MSI_ADDR raises a vector. Codes of an answer: 0 a completion with data, 1 Unsupported
Request, 4 Completer Abort. -/
def execPcieInbound (write : Bool) (addr len : Nat) (data : List Byte) (poisoned : Bool) (s : State) : ORes :=
  .next <|
    let n := if write then data.length else len
    if s.pcieUp = false then s
    else if write ∧ poisoned then s.pcieRefuse true addr 12 0
    else if write ∧ addr = Config.msiAddr.toNat then s.msiIn (leNat (data.take 4) % 2048)
    else if s.inWindow addr n = false ∨ s.ownRange addr n = false then s.pcieRefuse write addr 10 1
    else if s.ioBlocked addr n then s.pcieRefuse write addr 9 1
    else if s.reaches 1 addr = false then s
    else if write then
      let r := s.ownWrite (addrKey addr) data
      if r.2 then r.1 else r.1.pcieRefuse true addr 11 0
    else
      let s := s.touch (addrKey addr) n
      if s.rangeBad (addrKey addr) n then s.pcieRefuse false addr 11 4
      else s.send (.tlp false addr [0] (s.memRead (addrKey addr) n))

/-- PCIE_OUTBOUND: an access in the 64 GiB memory window or the 256 MiB ECAM window goes out; fields: 0 memory or 1
configuration, and the length. -/
def execPcieOutbound (addr len : Nat) (write : Bool) (data : List Byte) (s : State) : ORes :=
  .next <|
    let inside (i n : Nat) : Bool := decide (s.pcieWin i ≤ addr ∧ addr + len ≤ s.pcieWin i + n)
    if s.pcieUp = false then s
    else if inside 0 (2 ^ 36) then s.send (.tlp write addr [0, len] data)
    else if inside 1 (2 ^ 28) then s.send (.tlp write addr [1, len] data)
    else s

/-! ### Cores and the board controller bus (R456, R465) -/

/-- CORE_MACHINE_CHECK: an event against the core. -/
def execCoreMachineCheck (d : Die) (c : Fin 9) (s : State) : ORes :=
  .next <|
    let s := (s.setErr d pgApc 9).incF d pgApc 0x098 0 32 1
    (s.histEvent 2 d c 4).send (.note (.machineCheck d c))

/-- The board status record (Table 22-5). -/
def State.boardRecord (s : State) : List Byte :=
  let temp := 4 * foldNat 4 (fun a d => max a (Tab.get ({} : DieEnv) s.dieEnv d).temp) (Tab.get ({} : DieEnv) s.dieEnv 0).temp
  let stack := foldNat 4 (fun a d => foldNat 3 (fun a t => max a (s.rdF d (pgApr t) 0x028 3 8)) a) 0
  let bits := bitAt s.power.good 0 + bitAt s.emergency 1 + bitAt (!s.power.tripped.isEmpty) 2 + s.rdF 0 pgProt 0x880 0 1 * 8 +
    s.shed * 16
  let h := leBytes 1 s.bootStage ++ leBytes 1 bits ++ leBytes 2 (temp % 65536).toNat ++ leBytes 2 stack ++ leBytes 2 (s.io.mv / 10) ++
    leBytes 2 s.packagePower ++ leBytes 1 s.epoch ++ leBytes 1 0 ++ leBytes 16 s.sec.sensed.serial.toNat
  h ++ leBytes 4 (crc32 h)

/-- SMBUS_BLOCK_READ: it runs from VAUX, needs no firmware, and answers from stage 1 of start-up on. -/
def execSmbusBlockRead (s : State) : ORes :=
  .next <| if s.power.off.contains .vaux ∨ s.resets.stage = 0 then s else s.send (.block s.boardRecord)

end Sys2Proof.Machine
end

