-- ==== Sys2Proof/Machine/RegEffects.lean ====
section
/-! DEFINITION. What a write of any register sets off, and the rows that write one; the end of a reset (04 R78, R79; 05
R86 to R101; 11 R251; 18 R399; 20 R432; 22 R457). -/

namespace Sys2Proof.Machine

abbrev ERes := Host.Outcome State Fault Refusal

/-! ### What a write sets off -/

/-- A write of BLK_CTRL: CLR_COUNT, a port's RETRAIN, a router's HOLD_DATA, then ENABLE. -/
def State.ctrlWritten (s : State) (d pg v : Nat) (o : Origin) : State :=
  let s := if bitsOf v 1 1 = 1 then s.wrF d pg 0x040 0 32 0 else s
  let s := match pageKind d pg with
    | some .cp => if bitsOf v 8 1 = 1 then s.retrainWritten (5 * d + (pg - 0x50)) else s
    | some .rtr => s.holdEffect d
    | _ => s
  s.enableEffect d pg o

/-- A write that acted on a register with an effect of its own. -/
def State.onWrite (s : State) (d pg off v : Nat) (w : Writer) : State :=
  if off = 0x020 then s.ctrlWritten d pg v w.origin
  else
    match pageKind d pg with
    | some .stp =>
      if off = 0x090 then s.loadCtrlEffect v
      else if off = 0x220 then s.ringGo
      else if off = 0x230 then s.ckpCommand v none
      else s
    | some .rst => if off = 0x080 then s.reqWritten v w.origin else s
    | some .mxe =>
      if off = 0x0C0 then s.gqCtrlEffect d (pg - 0x10)
      else if off = 0x0C8 then s.gqSlotsEffect d (pg - 0x10)
      else if off = 0x030 ∧ s.rdF d pg 0x030 9 1 = 0 then s.wr d pg 0x0B8 0
      else s
    | some .su =>
      if 0x100 ≤ off ∧ off < 0x900 ∧ off % 64 = 8 then s.slotCtrl d (pg - 0x30) ((off - 0x100) / 64) v else s
    | some .apc =>
      if d = 0 ∧ off = 0x410 then s.ctxCommand v
      else if off = 0x458 then s.faultqTail d
      else s
    | some .cue => if off = 0x0B8 then s.unitCmd v else s
    | some .mgc => if d = 0 ∧ off = 0x0C8 then s.hbWritten else s
    | some .mbx => if off = 0x108 then s.doneWritten v else s
    | _ => s

/-- Is the register a mailbox slot, at which messages collide by R96? -/
def mboxSlot (d pg off : Nat) : Bool := d = 0 && pg = pgMbx && decide (0x080 ≤ off ∧ off < 0x100) && off % 8 = 0

/-- Writes reach a register, and the one that acts has its effect. At a mailbox slot they are messages. -/
def State.writeAll (s : State) (d pg off : Nat) (reqs : List WriteReq) : State :=
  if mboxSlot d pg off then s.slotWrites ((off - 0x080) / 8) reqs
  else
    let c := s.commit d pg off reqs
    match c.win with
    | some r => c.s.onWrite d pg off r.value.toNat r.w
    | none => c.s

/-- REGISTER_WRITE: the writes of one cycle to one register. -/
def execRegisterWrite (a : RegAddr) (reqs : List WriteReq) (s : State) : ERes :=
  .next (s.writeAll a.die (a.offset.toNat / 4096) (a.offset.toNat % 4096) reqs)

/-- The register write of a stream (05 R91): a refusal is answered to its slot (10 R239). -/
def State.streamWrite (s : State) (d b sl a v : Nat) : State :=
  match regPlace a with
  | none => s
  | some (rd, pg, off) =>
    let q : WriteReq := ⟨s.ctxWriter d b, BitVec.ofNat 64 v, 8⟩
    let ok := s.mayWrite rd pg off q
    let s := s.writeAll rd pg off [q]
    if ok then s else s.slotError d b sl .refused false

/-- SU_DELIVERY_COMPLETE. -/
def execSuDeliveryComplete (d : Die) (b : Bay) (sl : Slot) (s : State) : ERes :=
  .next (s.suDelivery d b sl fun s a v => s.streamWrite d b sl a v)

/-- SLOT_PAGE_FAULT. -/
def execSlotPageFault (d : Die) (b : Bay) (sl : Slot) (f : PageFault) (s : State) : ERes :=
  .next (s.slotPageFault d b sl f fun s a v => s.streamWrite d b sl a v)

/-! ### SWR (Table 14-5) -/

/-- A register write that came as a request: refused by R88 and R92; held, without an answer, while the page's island is
in reset (R100). -/
def State.regWriteReq (s : State) (r : Req) (data : List Byte) : State :=
  let a := r.addr.toNat
  let d := addrDie a
  let pg := addrOff a / 4096
  let off := a % 4096
  let q : WriteReq := ⟨reqWriter r, BitVec.ofNat 64 (leNat data), data.length⟩
  let sound := accessOk d pg off q
  let ok := sound && s.mayWrite d pg off q
  let waits := sound && s.inReset d pg
  let s := s.writeAll d pg off [q]
  if waits then s else s.answer r (if ok then .ok else .refused) []

/-- SWR. -/
def execSwr (r : Req) (data : List Byte) (env : EccEnv) (s : State) : ERes :=
  .next <| let r := came r 0x02 none
    s.atHome r false fun s =>
    if data.length = 0 ∨ 256 < data.length then s.badPacket r
    else
      let s := s.countPacket r false
      if addrSpace r.addr.toNat = 6 then s.regWriteReq r data
      else if stackRange r data.length then s.memWriteReq r data env
      else s.spaceRefused r

/-! ### CONFIG_WRITE (20 R432) -/

/-- The registers that CONFIG_WRITE may set: die, page, offset. -/
def configAllowed (d pg off : Nat) : Bool :=
  (d = 0 && pg = pgPwr && decide (0x080 ≤ off ∧ off ≤ 0x0C0) && off % 8 = 0) ||
  (d = 0 && pg = pgCue && (off = 0x080 || off = 0x088 || off = 0x090 || off = 0x0B8)) ||
  (d = 0 && pg = pgWit && (off = 0x080 || off = 0x088 || off = 0x090)) ||
  (decide (d < 4) && pg = pgTim && off = 0x088)

/-- CONFIG_WRITE. -/
def execConfigWrite (n : Mbox) (s : State) : ERes :=
  s.msgRow n 4 0x0016 fun s m =>
    let d := m.arg 0 1
    let pg := m.arg 1 1
    let off := m.arg 4 2
    let q : WriteReq := ⟨mbxsWriter, BitVec.ofNat 64 (m.arg 8 8), 8⟩
    if configAllowed d pg off = false then (6, [], s)
    else if s.mayWrite d pg off q = false then (11, [], s)
    else
      let s := s.logAt d 4 .configWrite [m.w.origin.code, m.seq, d, pg, off, m.arg 8 8]
      (0, [], s.writeAll d pg off [q])

/-! ### The end of a reset -/

/-- MSI vectors that waited are raised, once no cluster is in reset. -/
def State.msiOut (s : State) : State :=
  if s.resets.runs.any fun r => r.dom = 3 then s
  else s.io.msi.foldl (fun s v => s.send (.note (.msi v))) { s with io := { s.io with msi := [] } }

/-- Writes that the crossings into a domain's islands held reach their registers, but those older than 20 ms (R100). -/
def State.heldOut (s : State) (x : DomId) : State :=
  let out (h : Nat × Nat × Nat × List WriteReq × Nat) : Bool :=
    domPage x h.1 h.2.1 || (x.1 = 3 && h.1 = x.2.1 && h.2.1 = pgApc)
  let mine := s.heldW.filter out
  let s := { s with heldW := s.heldW.filter fun h => !(out h) }
  mine.foldl (fun s h =>
    if h.2.2.2.2 + 20000000 < s.now h.1 then s else s.writeAll h.1 h.2.1 h.2.2.1 h.2.2.2.1) s

/-- Replays of a bay, or of every bay of a die, go on, one that the reset cut off with the suspect under trial. -/
def State.replaysOut (s : State) (x : DomId) : State :=
  match x.1 with
  | 1 => (s.replayCut x.2.1 (some x.2.2)).replayGo x.2.1 x.2.2
  | 4 => (List.range 9).foldl (fun s b => s.replayGo x.2.1 b) (s.replayCut x.2.1 none)
  | _ => s

/-- What the end of a reset does for its kind of domain. -/
def State.domainOut (s : State) (x : DomId) : State :=
  let s := (domPages x).foldl (fun s e => s.pageOut e.1 e.2) s
  let s := (domUnits x).foldl (fun s u => s.unitOut u.1 u.2.1 u.2.2) s
  match x.1 with
  | 3 => s.coresOut x.2.1
  | 4 => (((s.coresOut x.2.1).wrF 0 pgRst 0x098 0 8 (s.epoch + 1)).stackWake x.2.1).perst x.2.1 true
  | 5 => s.settleUnits.perst 1 true
  | _ => s

/-- The domain of an operand. -/
def domainId : Domain → DomId
  | .bay d b => (1, d, b)
  | .port p => (2, portDie p, p.val % 5)
  | .cluster d => (3, d, 0)
  | .partition d => (4, d, 0)
  | .device => (5, 0, 0)

/-- RESET_COMPLETE: the blocks are OFF, the cause shown, the epoch counted for a partition, held writes let in. -/
def execResetComplete (dom : Domain) (s : State) : ERes :=
  .next <|
    let x := domainId dom
    match s.resets.runs.find? fun r => r.id = x with
    | none => s
    | some r =>
      if x.1 = 5 ∧ s.resets.counted = false then s else
      let s := { s with resets := { s.resets with runs := s.resets.runs.filter fun y => y.id ≠ x } }
      let s := s.wr 0 pgRst 0x090 (x.1 + (if r.origin = 8 then 1 + 8 else r.origin) * 8)
      (((s.domainOut x).showReset.heldOut x).replaysOut x).msiOut

end Sys2Proof.Machine
end

