-- ==== Sys2Proof/Machine/Dispatch.lean ====
section
/-! DEFINITION. One arm per command: a direct call of its meaning. -/

namespace Sys2Proof.Machine

def exec (i : Instr) (s : State) : Host.Outcome State Fault Refusal :=
  match i with
  | .loadStart w => Sys2Proof.Machine.execLoadStart w s
  | .loadDiscard w => Sys2Proof.Machine.execLoadDiscard w s
  | .validationComplete => Sys2Proof.Machine.execValidationComplete s
  | .curtainAction1Complete => Sys2Proof.Machine.execCurtainAction1Complete s
  | .curtainAction2 => Sys2Proof.Machine.execCurtainAction2 s
  | .curtainTimeout => Sys2Proof.Machine.execCurtainTimeout s
  | .buddyStreamComplete => Sys2Proof.Machine.execBuddyStreamComplete s
  | .stepBegin => Sys2Proof.Machine.execStepBegin s
  | .p48Rise mv => Sys2Proof.Machine.execP48Rise mv s
  | .powerUp railsOk => Sys2Proof.Machine.execPowerUp railsOk s
  | .pwrEnFall => Sys2Proof.Machine.execPwrEnFall s
  | .phaseSwitchOut d r => Sys2Proof.Machine.execPhaseSwitchOut d r s
  | .thermalTrip x => Sys2Proof.Machine.execThermalTrip x s
  | .tripPersistTimeout d h => Sys2Proof.Machine.execTripPersistTimeout d h s
  | .clockLost c => Sys2Proof.Machine.execClockLost c s
  | .timeExchange p => Sys2Proof.Machine.execTimeExchange p s
  | .timeFlit p m => Sys2Proof.Machine.execTimeFlit p m s
  | .bayReset w d b => Sys2Proof.Machine.execBayReset w d b s
  | .fabricPortReset w p => Sys2Proof.Machine.execFabricPortReset w p s
  | .coreClusterReset w d => Sys2Proof.Machine.execCoreClusterReset w d s
  | .diePartitionReset w d => Sys2Proof.Machine.execDiePartitionReset w d s
  | .wholeDeviceReset w => Sys2Proof.Machine.execWholeDeviceReset w s
  | .sysRstNAssert => Sys2Proof.Machine.execSysRstNAssert s
  | .resetComplete dom => Sys2Proof.Machine.execResetComplete dom s
  | .strapSample bootMode slotId => Sys2Proof.Machine.execStrapSample bootMode slotId s
  | .startupStageComplete st e => Sys2Proof.Machine.execStartupStageComplete st e s
  | .imageRefetchTimeout => Sys2Proof.Machine.execImageRefetchTimeout s
  | .bootStageTimeout => Sys2Proof.Machine.execBootStageTimeout s
  | .registerWrite a reqs => Sys2Proof.Machine.execRegisterWrite a reqs s
  | .blockEnable w d pg => Sys2Proof.Machine.execBlockEnable w d pg s
  | .blockDisable w d pg => Sys2Proof.Machine.execBlockDisable w d pg s
  | .openingComplete d pg => Sys2Proof.Machine.execOpeningComplete d pg s
  | .closingComplete d pg => Sys2Proof.Machine.execClosingComplete d pg s
  | .hwHoldClear d pg => Sys2Proof.Machine.execHwHoldClear d pg s
  | .clrCount w d pg => Sys2Proof.Machine.execClrCount w d pg s
  | .mxePause w d b => Sys2Proof.Machine.execMxePause w d b s
  | .mxeUnpause w d b => Sys2Proof.Machine.execMxeUnpause w d b s
  | .vxePause w d b => Sys2Proof.Machine.execVxePause w d b s
  | .vxeUnpause w d b => Sys2Proof.Machine.execVxeUnpause w d b s
  | .suPause w d b => Sys2Proof.Machine.execSuPause w d b s
  | .suUnpause w d b => Sys2Proof.Machine.execSuUnpause w d b s
  | .mma d b => Sys2Proof.Machine.execMma d b s
  | .mmaGather d b => Sys2Proof.Machine.execMmaGather d b s
  | .syncWait d b => Sys2Proof.Machine.execSyncWait d b s
  | .syncAdd d b => Sys2Proof.Machine.execSyncAdd d b s
  | .mxeEnd d b => Sys2Proof.Machine.execMxeEnd d b s
  | .tileDrainComplete d b flips => Sys2Proof.Machine.execTileDrainComplete d b flips s
  | .arrayParityError d b => Sys2Proof.Machine.execArrayParityError d b s
  | .syncErrorResponse d b vxe status remote => Sys2Proof.Machine.execSyncErrorResponse d b vxe status remote s
  | .gatherSubmit d b g => Sys2Proof.Machine.execGatherSubmit d b g s
  | .gatherRoundTimeout d b => Sys2Proof.Machine.execGatherRoundTimeout d b s
  | .gatherQueueDisable w d b => Sys2Proof.Machine.execGatherQueueDisable w d b s
  | .gqSlotsWrite w d b v => Sys2Proof.Machine.execGqSlotsWrite w d b v s
  | .layerGateOpen layer => Sys2Proof.Machine.execLayerGateOpen layer s
  | .vxeAdd u a => Sys2Proof.Machine.execVxeAdd u a s
  | .vxeSub u a => Sys2Proof.Machine.execVxeSub u a s
  | .vxeMul u a => Sys2Proof.Machine.execVxeMul u a s
  | .vxeDiv u a => Sys2Proof.Machine.execVxeDiv u a s
  | .vxeSqrt u a => Sys2Proof.Machine.execVxeSqrt u a s
  | .vxeMin u a => Sys2Proof.Machine.execVxeMin u a s
  | .vxeMax u a => Sys2Proof.Machine.execVxeMax u a s
  | .vxeMini u a => Sys2Proof.Machine.execVxeMini u a s
  | .vxeMaxi u a => Sys2Proof.Machine.execVxeMaxi u a s
  | .vxeNeg u a => Sys2Proof.Machine.execVxeNeg u a s
  | .vxeAbs u a => Sys2Proof.Machine.execVxeAbs u a s
  | .vxeCsgn u a => Sys2Proof.Machine.execVxeCsgn u a s
  | .vxeRti u a => Sys2Proof.Machine.execVxeRti u a s
  | .vxeRece u a => Sys2Proof.Machine.execVxeRece u a s
  | .vxeRsqe u a => Sys2Proof.Machine.execVxeRsqe u a s
  | .vxeMov u a => Sys2Proof.Machine.execVxeMov u a s
  | .vxeAnd u a => Sys2Proof.Machine.execVxeAnd u a s
  | .vxeOr u a => Sys2Proof.Machine.execVxeOr u a s
  | .vxeXor u a => Sys2Proof.Machine.execVxeXor u a s
  | .vxeSll u a => Sys2Proof.Machine.execVxeSll u a s
  | .vxeSrl u a => Sys2Proof.Machine.execVxeSrl u a s
  | .vxeSra u a => Sys2Proof.Machine.execVxeSra u a s
  | .vxeMrg u a => Sys2Proof.Machine.execVxeMrg u a s
  | .vxeIota u a => Sys2Proof.Machine.execVxeIota u a s
  | .vxeFma u a => Sys2Proof.Machine.execVxeFma u a s
  | .vxeFms u a => Sys2Proof.Machine.execVxeFms u a s
  | .vxeFnma u a => Sys2Proof.Machine.execVxeFnma u a s
  | .vxeFnms u a => Sys2Proof.Machine.execVxeFnms u a s
  | .vxeCmpEq u a => Sys2Proof.Machine.execVxeCmpEq u a s
  | .vxeCmpLt u a => Sys2Proof.Machine.execVxeCmpLt u a s
  | .vxeCmpLe u a => Sys2Proof.Machine.execVxeCmpLe u a s
  | .vxeCmpUn u a => Sys2Proof.Machine.execVxeCmpUn u a s
  | .vxeCmpNe u a => Sys2Proof.Machine.execVxeCmpNe u a s
  | .vxeRedSum u a => Sys2Proof.Machine.execVxeRedSum u a s
  | .vxeRedMin u a => Sys2Proof.Machine.execVxeRedMin u a s
  | .vxeRedMax u a => Sys2Proof.Machine.execVxeRedMax u a s
  | .vxeRedAmax u a => Sys2Proof.Machine.execVxeRedAmax u a s
  | .vxeRedSumw u a => Sys2Proof.Machine.execVxeRedSumw u a s
  | .vxeRedRepamax u a => Sys2Proof.Machine.execVxeRedRepamax u a s
  | .vxeCvt u a => Sys2Proof.Machine.execVxeCvt u a s
  | .vxeLoad u a => Sys2Proof.Machine.execVxeLoad u a s
  | .vxeStore u a => Sys2Proof.Machine.execVxeStore u a s
  | .vxeSetvl u a => Sys2Proof.Machine.execVxeSetvl u a s
  | .vxeSettid u a => Sys2Proof.Machine.execVxeSettid u a s
  | .vxeSetidx u a => Sys2Proof.Machine.execVxeSetidx u a s
  | .vxeAddidx u a => Sys2Proof.Machine.execVxeAddidx u a s
  | .vxeSetscl u a => Sys2Proof.Machine.execVxeSetscl u a s
  | .vxeSetblk u a => Sys2Proof.Machine.execVxeSetblk u a s
  | .vxeSetrm u a => Sys2Proof.Machine.execVxeSetrm u a s
  | .vxeRdflg u a => Sys2Proof.Machine.execVxeRdflg u a s
  | .vxeClrflg u a => Sys2Proof.Machine.execVxeClrflg u a s
  | .vxeRdvl u a => Sys2Proof.Machine.execVxeRdvl u a s
  | .vxeVtos u a => Sys2Proof.Machine.execVxeVtos u a s
  | .vxeStov u a => Sys2Proof.Machine.execVxeStov u a s
  | .vxeMskAnd u a => Sys2Proof.Machine.execVxeMskAnd u a s
  | .vxeMskOr u a => Sys2Proof.Machine.execVxeMskOr u a s
  | .vxeMskXor u a => Sys2Proof.Machine.execVxeMskXor u a s
  | .vxeMskAndn u a => Sys2Proof.Machine.execVxeMskAndn u a s
  | .vxeMskNot u a => Sys2Proof.Machine.execVxeMskNot u a s
  | .vxeMskSet u a => Sys2Proof.Machine.execVxeMskSet u a s
  | .vxeMskClr u a => Sys2Proof.Machine.execVxeMskClr u a s
  | .vxeSclAddi u a => Sys2Proof.Machine.execVxeSclAddi u a s
  | .vxeSclAdd u a => Sys2Proof.Machine.execVxeSclAdd u a s
  | .vxeSclSub u a => Sys2Proof.Machine.execVxeSclSub u a s
  | .vxeSclAnd u a => Sys2Proof.Machine.execVxeSclAnd u a s
  | .vxeSclOr u a => Sys2Proof.Machine.execVxeSclOr u a s
  | .vxeSclXor u a => Sys2Proof.Machine.execVxeSclXor u a s
  | .vxeSclSlli u a => Sys2Proof.Machine.execVxeSclSlli u a s
  | .vxeSclSrli u a => Sys2Proof.Machine.execVxeSclSrli u a s
  | .vxeSclSrai u a => Sys2Proof.Machine.execVxeSclSrai u a s
  | .vxeSclLih u a => Sys2Proof.Machine.execVxeSclLih u a s
  | .vxeSclMul u a => Sys2Proof.Machine.execVxeSclMul u a s
  | .vxeBeq u a => Sys2Proof.Machine.execVxeBeq u a s
  | .vxeBne u a => Sys2Proof.Machine.execVxeBne u a s
  | .vxeBlt u a => Sys2Proof.Machine.execVxeBlt u a s
  | .vxeBge u a => Sys2Proof.Machine.execVxeBge u a s
  | .vxeBltu u a => Sys2Proof.Machine.execVxeBltu u a s
  | .vxeJmp u a => Sys2Proof.Machine.execVxeJmp u a s
  | .vxeWait u a => Sys2Proof.Machine.execVxeWait u a s
  | .vxeSignal u a => Sys2Proof.Machine.execVxeSignal u a s
  | .vxeSemwait u a => Sys2Proof.Machine.execVxeSemwait u a s
  | .vxeSemadd u a => Sys2Proof.Machine.execVxeSemadd u a s
  | .vxeEnd u a => Sys2Proof.Machine.execVxeEnd u a s
  | .vxeRegParityError d b => Sys2Proof.Machine.execVxeRegParityError d b s
  | .streamStart d b sl => Sys2Proof.Machine.execStreamStart d b sl s
  | .streamRearm d b sl => Sys2Proof.Machine.execStreamRearm d b sl s
  | .streamArmingDone d b sl => Sys2Proof.Machine.execStreamArmingDone d b sl s
  | .suDeliveryComplete d b sl => Sys2Proof.Machine.execSuDeliveryComplete d b sl s
  | .slotPageFault d b sl f => Sys2Proof.Machine.execSlotPageFault d b sl f s
  | .slotResume w d b sl => Sys2Proof.Machine.execSlotResume w d b sl s
  | .slotAbort w d b sl => Sys2Proof.Machine.execSlotAbort w d b sl s
  | .slotCancel w d b sl => Sys2Proof.Machine.execSlotCancel w d b sl s
  | .slotFaultTimeout d b sl => Sys2Proof.Machine.execSlotFaultTimeout d b sl s
  | .slotCancelComplete d b sl => Sys2Proof.Machine.execSlotCancelComplete d b sl s
  | .shortPathTransfer p t => Sys2Proof.Machine.execShortPathTransfer p t s
  | .shortPathWindow p => Sys2Proof.Machine.execShortPathWindow p s
  | .srd r len env => Sys2Proof.Machine.execSrd r len env s
  | .swr r data env => Sys2Proof.Machine.execSwr r data env s
  | .semwait r value env => Sys2Proof.Machine.execSemwait r value env s
  | .addI32 r size operand env => Sys2Proof.Machine.execAddI32 r size operand env s
  | .addU64 r size operand env => Sys2Proof.Machine.execAddU64 r size operand env s
  | .addF32 r size operand env => Sys2Proof.Machine.execAddF32 r size operand env s
  | .addBf16 r size operand env => Sys2Proof.Machine.execAddBf16 r size operand env s
  | .minI32 r size operand env => Sys2Proof.Machine.execMinI32 r size operand env s
  | .maxI32 r size operand env => Sys2Proof.Machine.execMaxI32 r size operand env s
  | .minF32 r size operand env => Sys2Proof.Machine.execMinF32 r size operand env s
  | .maxF32 r size operand env => Sys2Proof.Machine.execMaxF32 r size operand env s
  | .minU64 r size operand env => Sys2Proof.Machine.execMinU64 r size operand env s
  | .maxU64 r size operand env => Sys2Proof.Machine.execMaxU64 r size operand env s
  | .cas r size compare operand env => Sys2Proof.Machine.execCas r size compare operand env s
  | .swap r size operand env => Sys2Proof.Machine.execSwap r size operand env s
  | .red r red data env => Sys2Proof.Machine.execRed r red data env s
  | .rd r h len env => Sys2Proof.Machine.execRd r h len env s
  | .wr r h data env => Sys2Proof.Machine.execWr r h data env s
  | .mwr r h data env => Sys2Proof.Machine.execMwr r h data env s
  | .bell r data => Sys2Proof.Machine.execBell r data s
  | .lost r leaves echo => Sys2Proof.Machine.execLost r leaves echo s
  | .replyReceive r status ackCount echo data => Sys2Proof.Machine.execReplyReceive r status ackCount echo data s
  | .shcBankFail d bank => Sys2Proof.Machine.execShcBankFail d bank s
  | .stackTempRead d t temp => Sys2Proof.Machine.execStackTempRead d t temp s
  | .scrub d t granules env => Sys2Proof.Machine.execScrub d t granules env s
  | .uncorrectableRestore addr sectors data => Sys2Proof.Machine.execUncorrectableRestore addr sectors data s
  | .define w id => Sys2Proof.Machine.execDefine w id s
  | .run w id => Sys2Proof.Machine.execRun w id s
  | .stop w id => Sys2Proof.Machine.execStop w id s
  | .teardown w id => Sys2Proof.Machine.execTeardown w id s
  | .quiesce w id => Sys2Proof.Machine.execQuiesce w id s
  | .invalAll w id => Sys2Proof.Machine.execInvalAll w id s
  | .invalRange w id => Sys2Proof.Machine.execInvalRange w id s
  | .fenceComplete => Sys2Proof.Machine.execFenceComplete s
  | .fenceTimeout => Sys2Proof.Machine.execFenceTimeout s
  | .schedulerQuantum d => Sys2Proof.Machine.execSchedulerQuantum d s
  | .bayQuantumEnd d b => Sys2Proof.Machine.execBayQuantumEnd d b s
  | .evictionComplete d id => Sys2Proof.Machine.execEvictionComplete d id s
  | .trackingEntryExpire d track => Sys2Proof.Machine.execTrackingEntryExpire d track s
  | .requestAgeDiscard d r issuedNs => Sys2Proof.Machine.execRequestAgeDiscard d r issuedNs s
  | .faultqTailWrite w d v => Sys2Proof.Machine.execFaultqTailWrite w d v s
  | .laneFail p lane => Sys2Proof.Machine.execLaneFail p lane s
  | .retrain p src => Sys2Proof.Machine.execRetrain p src s
  | .retrainComplete p ok lanes durNs => Sys2Proof.Machine.execRetrainComplete p ok lanes durNs s
  | .payloadFlit p f => Sys2Proof.Machine.execPayloadFlit p f s
  | .idleFlit p f => Sys2Proof.Machine.execIdleFlit p f s
  | .flitCrcFail p fec sequenced => Sys2Proof.Machine.execFlitCrcFail p fec sequenced s
  | .nak p seq => Sys2Proof.Machine.execNak p seq s
  | .nakHoldoffExpire p => Sys2Proof.Machine.execNakHoldoffExpire p s
  | .linkSignalDetect p lanes => Sys2Proof.Machine.execLinkSignalDetect p lanes s
  | .linkTrainingComplete p lanes x => Sys2Proof.Machine.execLinkTrainingComplete p lanes x s
  | .linkSignalLost p lanes => Sys2Proof.Machine.execLinkSignalLost p lanes s
  | .helloTimer p => Sys2Proof.Machine.execHelloTimer p s
  | .hello p h => Sys2Proof.Machine.execHello p h s
  | .hold p reason => Sys2Proof.Machine.execHold p reason s
  | .heldTimeout p => Sys2Proof.Machine.execHeldTimeout p s
  | .circuitForward inp pk => Sys2Proof.Machine.execCircuitForward inp pk s
  | .cutThroughForward inp pk flits => Sys2Proof.Machine.execCutThroughForward inp pk flits s
  | .circuitSlotInject pk slot => Sys2Proof.Machine.execCircuitSlotInject pk slot s
  | .windowPeriod p => Sys2Proof.Machine.execWindowPeriod p s
  | .vctDataWrite w d v => Sys2Proof.Machine.execVctDataWrite w d v s
  | .holdDataWrite w d v => Sys2Proof.Machine.execHoldDataWrite w d v s
  | .drainedReport => Sys2Proof.Machine.execDrainedReport s
  | .dupCheck d => Sys2Proof.Machine.execDupCheck d s
  | .dupCheckComplete d flips => Sys2Proof.Machine.execDupCheckComplete d flips s
  | .unitAudition w k d ix => Sys2Proof.Machine.execUnitAudition w k d ix s
  | .unitDark w k d ix => Sys2Proof.Machine.execUnitDark w k d ix s
  | .auditionComplete k d ix pass => Sys2Proof.Machine.execAuditionComplete k d ix pass s
  | .vote h v => Sys2Proof.Machine.execVote h v s
  | .digest h kind value => Sys2Proof.Machine.execDigest h kind value s
  | .pairs h ps => Sys2Proof.Machine.execPairs h ps s
  | .halt h reason => Sys2Proof.Machine.execHalt h reason s
  | .keep h votes => Sys2Proof.Machine.execKeep h votes s
  | .keepTimer => Sys2Proof.Machine.execKeepTimer s
  | .voteDeadline => Sys2Proof.Machine.execVoteDeadline s
  | .prepare h p => Sys2Proof.Machine.execPrepare h p s
  | .fences h ds => Sys2Proof.Machine.execFences h ds s
  | .ack h outcome => Sys2Proof.Machine.execAck h outcome s
  | .commit h outcome actions view => Sys2Proof.Machine.execCommit h outcome actions view s
  | .leaderSilence => Sys2Proof.Machine.execLeaderSilence s
  | .admitWindowExpire => Sys2Proof.Machine.execAdmitWindowExpire s
  | .call h rank holder buddyOf failed => Sys2Proof.Machine.execCall h rank holder buddyOf failed s
  | .poolReadySend => Sys2Proof.Machine.execPoolReadySend s
  | .ready h dev rank flags => Sys2Proof.Machine.execReady h dev rank flags s
  | .callReadyTimeout rank => Sys2Proof.Machine.execCallReadyTimeout rank s
  | .drained h => Sys2Proof.Machine.execDrained h s
  | .apply h => Sys2Proof.Machine.execApply h s
  | .writer h writer copies => Sys2Proof.Machine.execWriter h writer copies s
  | .sign w => Sys2Proof.Machine.execSign w s
  | .restoreOwn w => Sys2Proof.Machine.execRestoreOwn w s
  | .restoreBuddy w => Sys2Proof.Machine.execRestoreBuddy w s
  | .fetchOwn w dev f => Sys2Proof.Machine.execFetchOwn w dev f s
  | .abandon w => Sys2Proof.Machine.execAbandon w s
  | .ringSwWrite w v => Sys2Proof.Machine.execRingSwWrite w v s
  | .exportComplete => Sys2Proof.Machine.execExportComplete s
  | .restoreComplete => Sys2Proof.Machine.execRestoreComplete s
  | .watchdogFire d b => Sys2Proof.Machine.execWatchdogFire d b s
  | .bayResetTimeout d b => Sys2Proof.Machine.execBayResetTimeout d b s
  | .partitionTimeout d => Sys2Proof.Machine.execPartitionTimeout d s
  | .shcStall d => Sys2Proof.Machine.execShcStall d s
  | .aprStall d t => Sys2Proof.Machine.execAprStall d t s
  | .replayTrialClear d b => Sys2Proof.Machine.execReplayTrialClear d b s
  | .frequencyChangeComplete d => Sys2Proof.Machine.execFrequencyChangeComplete d s
  | .droopDetect d isl => Sys2Proof.Machine.execDroopDetect d isl s
  | .droopClear d isl => Sys2Proof.Machine.execDroopClear d isl s
  | .droopPauseExpire d => Sys2Proof.Machine.execDroopPauseExpire d s
  | .powerLoopTick rd => Sys2Proof.Machine.execPowerLoopTick rd s
  | .thermalThrottleTick d junction stack => Sys2Proof.Machine.execThermalThrottleTick d junction stack s
  | .shedStepEnter step mv => Sys2Proof.Machine.execShedStepEnter step mv s
  | .shedStepRelease step mv => Sys2Proof.Machine.execShedStepRelease step mv s
  | .componentFault d c => Sys2Proof.Machine.execComponentFault d c s
  | .componentLivenessMiss d c => Sys2Proof.Machine.execComponentLivenessMiss d c s
  | .componentRestartComplete d c => Sys2Proof.Machine.execComponentRestartComplete d c s
  | .mbxSubmit w n addr => Sys2Proof.Machine.execMbxSubmit w n addr s
  | .mbxDoneClear w v => Sys2Proof.Machine.execMbxDoneClear w v s
  | .mbx14Arm w addr => Sys2Proof.Machine.execMbx14Arm w addr s
  | .signedCommandReceive msg buf => Sys2Proof.Machine.execSignedCommandReceive msg buf s
  | .getVersion n => Sys2Proof.Machine.execGetVersion n s
  | .setIdentity n => Sys2Proof.Machine.execSetIdentity n s
  | .setBlocking n => Sys2Proof.Machine.execSetBlocking n s
  | .inputsReady n => Sys2Proof.Machine.execInputsReady n s
  | .heartbeat n => Sys2Proof.Machine.execHeartbeat n s
  | .heartbeatTimeout d => Sys2Proof.Machine.execHeartbeatTimeout d s
  | .logRead n => Sys2Proof.Machine.execLogRead n s
  | .chgRead n => Sys2Proof.Machine.execChgRead n s
  | .sigRead n => Sys2Proof.Machine.execSigRead n s
  | .captureRead n => Sys2Proof.Machine.execCaptureRead n s
  | .sensorRead n readings => Sys2Proof.Machine.execSensorRead n readings s
  | .traceSet n => Sys2Proof.Machine.execTraceSet n s
  | .configWrite n => Sys2Proof.Machine.execConfigWrite n s
  | .updateStage n => Sys2Proof.Machine.execUpdateStage n s
  | .updateActivate n => Sys2Proof.Machine.execUpdateActivate n s
  | .updateCancel n => Sys2Proof.Machine.execUpdateCancel n s
  | .updateHoldExpire => Sys2Proof.Machine.execUpdateHoldExpire s
  | .logSuppressed d src => Sys2Proof.Machine.execLogSuppressed d src s
  | .attest n => Sys2Proof.Machine.execAttest n s
  | .getIdentity n => Sys2Proof.Machine.execGetIdentity n s
  | .keyLoad n => Sys2Proof.Machine.execKeyLoad n s
  | .keyClear n => Sys2Proof.Machine.execKeyClear n s
  | .ownerEnroll n => Sys2Proof.Machine.execOwnerEnroll n s
  | .ownerRevoke n => Sys2Proof.Machine.execOwnerRevoke n s
  | .rollbackCommit n => Sys2Proof.Machine.execRollbackCommit n s
  | .protRemove n => Sys2Proof.Machine.execProtRemove n s
  | .ownerKeyPut n => Sys2Proof.Machine.execOwnerKeyPut n s
  | .ethTx e q => Sys2Proof.Machine.execEthTx e q s
  | .ethRx e q f => Sys2Proof.Machine.execEthRx e q f s
  | .ppsPulse => Sys2Proof.Machine.execPpsPulse s
  | .pcieInbound write addr len data poisoned => Sys2Proof.Machine.execPcieInbound write addr len data poisoned s
  | .pcieOutbound addr len write data => Sys2Proof.Machine.execPcieOutbound addr len write data s
  | .coreMachineCheck d c => Sys2Proof.Machine.execCoreMachineCheck d c s
  | .smbusBlockRead => Sys2Proof.Machine.execSmbusBlockRead s
  | .inrushLimitExpire => Sys2Proof.Machine.execInrushLimitExpire s
  | .holdRepeat p => Sys2Proof.Machine.execHoldRepeat p s
  | .heldRound => Sys2Proof.Machine.execHeldRound s
  | .sampleCopyComplete d b => Sys2Proof.Machine.execSampleCopyComplete d b s
  | .ethLinkDown e => Sys2Proof.Machine.execEthLinkDown e s
  | .ethLinkUp e => Sys2Proof.Machine.execEthLinkUp e s
  | .pcieLinkUp rate width flit => Sys2Proof.Machine.execPcieLinkUp rate width flit s
  | .pcieLinkDown => Sys2Proof.Machine.execPcieLinkDown s

end Sys2Proof.Machine
end

