-- ==== Sys2Proof/Machine/Tick.lean ====
section
/-! DEFINITION. What a nanosecond brings while no command is waiting (entry 2): device time and its steering (04 R75 to
R77), and what counts by time. -/

namespace Sys2Proof.Machine

/-- A nanosecond on every die's device time, under the steering in force: a part of a nanosecond is gathered until it
makes one more or one less (R76). The steering ends as the offset is gone. -/
def State.tickTime (s : State) : State :=
  let rate := sext 64 (s.rd 0 pgTim 0x0A0)
  let p := s.time.part + rate
  let more : Int := if 1000000000 ≤ p then 1 else if p ≤ -1000000000 then -1 else 0
  let s := foldNat 4 (fun t d => t.wr d pgTim 0x080 (t.now d + (1 + more).toNat)) s
  let s := { s with time := { s.time with part := p - 1000000000 * more } }
  if more = 0 then s
  else
    let left := s.time.left - more
    (if left = 0 then s.steer 0 else { s with time := { s.time with left := left } }).syncLock

/-- How long PWR_EN has been low (03 R62). -/
def State.tickPower (s : State) : State :=
  if s.power.enable then s else { s with power := { s.power with lowFor := min 10000000 (s.power.lowFor + 1) } }

/-- Messages that no row processes are answered as their message time ends (05 R96). -/
def State.oddOut (s : State) : State := foldNat 16 (fun s n => s.answerOdd n) s

/-- What the ports and input buffers may send now: a slot may have started, a credit come back (14 R320, R324, R328), and the
next packet of the buddy stream. -/
def State.fabricGo (s : State) : State := (s.fabric.links.foldl (fun s e => s.pump e.1) s.inputsGo).buddyGo.invalGo

/-- One idle nanosecond. A checkpoint engine that waited for its ring, or for a range to be restored, looks again.
Without its rails the part keeps no time. -/
def State.tick (s : State) : State :=
  let s := s.tickPower
  if s.power.off.isEmpty = false then s
  else
    let t := s.now 0
    let s := s.wdTick.tickTime
    let s := if s.now 0 / 1000000000 ≠ t / 1000000000 then { s with history := { s.history with time := s.history.time + 1 } } else s
    let s := if s.now 0 / 1000000 = t / 1000000 then s else s.fabric.links.foldl (fun s e => s.serWindow e.1) s
    s.pumpAll.ringGo.fabricGo.alertOut.oddOut

end Sys2Proof.Machine
end

