-- ==== Sys2Proof/Safety.lean ====
section
/-! DEFINITION. What counts as safe, in the terms that the statements use. -/

namespace Sys2Proof.Machine

/-- Tables of the memory in their one canonical form: keys strictly rising, and no entry that an unlisted key reads as. -/
def Mem.wf (m : Mem) : Bool :=
  Tab.wf (fun _ => 0) m.bytes && Tab.wf (fun _ => 0) m.err && Tab.wf (fun _ => false) m.bad && Tab.wf (fun _ => false) m.found

/-- The tables of the registers, the values in force, the memory and the staging are in canonical form. -/
def State.canonical (s : State) : Prop :=
  Tab.wf regReset s.regs = true ∧ Tab.wf regReset s.inForce = true ∧ s.mem.wf = true ∧
    Tab.wf (fun _ => (0 : Byte)) s.staging = true

/-- Every fuse that is blown in `f` is blown in `g` too (21 R441), of the fuses that commands blow. -/
def Fuses.keeps (f g : Fuses) : Prop :=
  f.ownerValid &&& g.ownerValid = f.ownerValid ∧ f.ownerRevoke &&& g.ownerRevoke = f.ownerRevoke ∧
    f.fwRollback &&& g.fwRollback = f.fwRollback ∧
    ∀ pg, Tab.get 0 f.protRemove pg &&& Tab.get 0 g.protRemove pg = Tab.get 0 f.protRemove pg

/-- The home of the request takes it (04 R72, 10 R242, 11 R249, 14 R314, R316): the unit it reaches and the seams on its way are out of
reset, no earlier transfer of its port is before it, it is not of the debug path, it is not older than 20 ms, its source is
not fenced, and its address belongs to this part. -/
structure State.takes (s : State) (r : Req) (stream : Bool := false) : Prop where
  unit : s.homeWaits r.addr.toNat = false
  path : s.pathOpen (reqEntry r) (addrDie r.addr.toNat) (if stream then some r.addr.toNat else none) = true
  turn : s.outOfTurn r = false
  dbg : r.src = none → r.w.origin ≠ .dbg
  age : s.ageOf r ≤ 78125
  src : ∀ x, r.src = some x → s.fenced x.val = false
  here : addrDev r.addr.toNat = s.device

/-- The VXE of a bay may issue the command `i`, which the word at PC spells, its registers are `r`, and VFMT names the
format `f`. -/
def State.vxeIn (s : State) (u : Unit36) (i : Instr) (r : VxeRegs) (f : Fmt) : Prop :=
  s.vxeAt u i = true ∧ r = (s.vxeOf u.die u.bay).regs ∧ r.fmt = some f

/-- The instruction `c` completes on the VXE of bay `u`: it leaves the registers that `x` holds, the program goes on
behind it, and the machine answers that next state. -/
def VxeDone (c : Instr) (u : Unit36) (s : State) (x : VRes) : Prop :=
  ∃ r, x = .ok r ∧ exec c s = .next (s.vxeNext u.die u.bay r)

/-- Mailbox `n` processes the message `m` of the type, the service `svc` that answers it runs, and nothing in the header
ends it (20 Table 20-7, R430). -/
def State.msgReady (s : State) (n : Mbox) (svc type : Nat) (m : Msg) : Prop :=
  s.msgIn n.val svc type = some m ∧ s.badMinor m = false ∧ s.headerStatus n.val m = none

end Sys2Proof.Machine
end

