-- ==== Sys2Proof/Certificates/Slice0/Obligations.lean ====
section
/-! DEFINITION. The statements for the provers. A completion statement gives the whole next state, so what it does not
name of the state is unchanged: that is its frame. -/

open Sys2Proof Sys2Proof.Machine

/-- A step runs the command at the front of the queue. A step on a queue that holds a command runs that command, and no
other, on the state with the rest of the queue; on an empty queue the part idles for a nanosecond (the idle step is
the model's choice, log entry 2). (00_scope.md) -/
def Obligations.StepRunsTheFrontCommand : Prop :=
  (∀ (c : Instr) (cs : List Instr) (s : State), step { s with pending := c :: cs } = exec c { s with pending := cs }) ∧
  (∀ s : State, s.pending = [] → step s = .next s.tick)

/-- The values the spec gives after reset. After reset the registers hold the reset values of their tables: the
operating points, the gather timeout, the loop and the droop figures, the time-outs, the ring and curtain figures
and the log-ring figures named here; the vector and mask registers are 0, no device is fenced, and the queue is
empty (an empty queue at reset is the model's choice). (19_power_thermal.md R403; 19_power_thermal.md R404;
06_matrix_engine.md R131; 09_vector_engine.md R183; 12_contexts_translation.md R276; 15_integrity.md R350;
16_replay_spares_cue.md R378; 17_checkpoint.md R385; 08_training_numerics.md R181) -/
def Obligations.ResetValues : Prop :=
  State.reset.pending = [] ∧
  (∀ n < 8, State.reset.rdF 0 pgPwr (0x080 + 8 * n) 0 11 = opFreqReset n ∧
    State.reset.rdF 0 pgPwr (0x080 + 8 * n) 19 12 = opCapReset n) ∧
  (∀ (d : Die) (b : Bay), State.reset.rdF d (pgMxe b) 0x0C0 16 10 = 100 ∧ State.reset.rdF d (pgMxe b) 0x0C0 0 2 = 0) ∧
  State.reset.rdF 0 pgWit 0x090 0 16 = 0xFFFF ∧
  State.reset.rd 0 pgPwr 0x0C0 = 2200 + 40 * 2 ^ 12 ∧
  State.reset.rdF 0 pgApc 0x400 0 17 = 2000 ∧
  State.reset.rdF 0 pgStp 0x210 0 11 = 16 ∧
  (∀ (d : Die) (b : Bay) (n : Fin 32), ((State.reset.vxeOf d b).regs.vreg n) = 0) ∧
  (∀ (d : Die) (b : Bay) (n : Fin 4), ((State.reset.vxeOf d b).regs.mreg n) = 0) ∧
  State.reset.stepState = 0 ∧ State.reset.rdF 0 pgRst 0x120 0 64 = 0 ∧
  (∀ (d : Die) (b : Bay), State.reset.rd d (pgMxe b) 0x030 = 0)

/-- The state after reset is canonical. After reset the register tables, the memory and the staging tables are in their
one canonical form (the form of the tables is the model's own, so this is a statement about the model).
(05_register_pages.md R467; 11_shared_cache_and_stacks.md R246) -/
def Obligations.ResetIsCanonical : Prop :=
  State.reset.canonical

/-- Every step keeps the tables canonical. Whatever command a step runs, from every state whose registers, values in
force, memory and staging are in canonical form, the next state is canonical too: no entry is out of order and none
equals what an unlisted one reads as, so equal contents are equal data. (05_register_pages.md R467;
11_shared_cache_and_stacks.md R246; 06_matrix_engine.md R113) -/
def Obligations.EveryStepKeepsTheTablesCanonical : Prop :=
  ∀ s t : State, s.canonical → step s = .next t → t.canonical

/-- Blown fuses stay blown and accepted sequences never fall. No step of the part, whatever the command, clears an
owner, revocation, rollback or protection fuse that is blown, or takes the last accepted sequence of signed commands
back: a replayed command stays refused and a removed right stays removed. (21_security.md R441; 21_security.md R442;
21_security.md R448; 21_security.md R449; 05_register_pages.md R93) -/
def Obligations.BlownFusesAndAcceptedSequencesStay : Prop :=
  ∀ s t : State, step s = .next t → s.sec.fuses.keeps t.sec.fuses ∧ s.fw.lastSeq ≤ t.fw.lastSeq

/-- A start during a validation is ignored. A write of START that reaches LOAD_CTRL while a validation runs leaves the
validation as it is, and LOAD_STAT.CODE is BUSY. (02_step_and_prompt_book.md R45) -/
def Obligations.StartDuringValidationIsBusy : Prop :=
  ∀ (w : Writer) (b : List Byte) (c : Committed) (s : State), c = s.write1 0 pgStp 0x090 w 1 → c.win.isSome = true →
    c.s.books.loading = some b →
    ∃ t, exec (.loadStart w) s = .next t ∧ t = c.s.wrF 0 pgStp 0x098 0 8 0x0E ∧ t.rdF 0 pgStp 0x098 0 8 = 0x0E ∧
      t.books.loading = some b

/-- VLMAX of every format. VLMAX is 256 for FP64, 512 for FP32 and INT32, 1,024 for FP16, BF16 and INT16, and 2,048 for
every format of 8, 6 or 4 bits, E8M0 and RAW8: 16,384 bits over the width in register. (09_vector_engine.md R185) -/
def Obligations.VlmaxValues : Prop :=
  Fmt.fp64.vlmax = 256 ∧ Fmt.fp32.vlmax = 512 ∧ Fmt.int32.vlmax = 512 ∧ Fmt.fp16.vlmax = 1024 ∧ Fmt.bf16.vlmax = 1024 ∧
  Fmt.int16.vlmax = 1024 ∧
  (∀ f ∈ [Fmt.e4m3, .e5m2, .e3m2, .e2m3, .e2m1, .int8, .e8m0, .raw8], f.vlmax = 2048) ∧
  (∀ f : Fmt, f.vlmax * f.slot = 16384)

/-- A message under another API. GET_VERSION is answered whatever API its header names. Any other message that a mailbox
processes is answered BAD_VERSION where the API major is not the firmware's. One whose major matches and whose minor
differs, which the spec leaves undefined, still passes every check of its header, is answered by the check that ends
it, and otherwise is processed or left with an open reply, as a free bit says: the machine answers a next state
(what becomes of it is the model's choice, log entry 152). (20_firmware_management.md R430; 00_scope.md R4) -/
def Obligations.OtherApiVersions : Prop :=
  (∀ (n : Mbox) (m : Msg) (s : State), s.msgIn n.val 4 0x0001 = some m → fieldAt m.bytes 0 1 = 1 →
    kindAt n.val 0x0001 ≠ none → m.w.origin = .sys ∨ m.w.origin = .mgmt → m.len = 0 →
    exec (.getVersion n) s = .next (s.replyMsg n.val m 0
      (leBytes 4 (s.rdF 0 pgMgc 0x080 0 32) ++ leBytes 2 (s.rdF 0 pgMgc 0x080 32 16) ++ slice s.fw.image 0x0C 4))) ∧
  (∀ (n : Mbox) (m : Msg) (s : State), fieldAt m.bytes 0 1 = 1 → kindAt n.val m.type ≠ none → m.type ≠ 0x0001 →
    m.api / 256 ≠ s.fwApi / 256 → s.headerStatus n.val m = some 3) ∧
  (∀ (n : Mbox) (l : List Byte) (m : Msg) (x : Nat × Nat × Instr) (s : State),
    x ∈ ([(4, 0x0002, .setIdentity n), (4, 0x0003, .setBlocking n), (4, 0x0004, .inputsReady n), (4, 0x0005, .heartbeat n), (5, 0x0010, .logRead n), (5, 0x0011, .chgRead n), (5, 0x0012, .sigRead n), (5, 0x0013, .captureRead n), (5, 0x0015, .traceSet n), (4, 0x0016, .configWrite n), (6, 0x0020, .updateStage n), (6, 0x0021, .updateActivate n), (6, 0x0022, .updateCancel n), (4, 0x0101, .attest n), (4, 0x0102, .getIdentity n), (4, 0x0103, .keyLoad n), (4, 0x0104, .keyClear n), (4, 0x0105, .ownerEnroll n), (4, 0x0106, .ownerRevoke n), (4, 0x0107, .rollbackCommit n), (4, 0x0108, .protRemove n), (4, 0x0109, .ownerKeyPut n), (5, 0x0014, .sensorRead n l)] : List (Nat × Nat × Instr)) →
    m.type ≠ 0x0001 → m.api / 256 = s.fwApi / 256 → m.api ≠ s.fwApi → s.msgIn n.val x.1 x.2.1 = some m →
    (∀ st, s.headerStatus n.val m = some st → exec x.2.2 s = .next (s.replyMsg n.val m st [])) ∧
    (s.headerStatus n.val m = none → s.free.toNat % 2 = 1 → exec x.2.2 s = .next (s.oddReply n.val m)) ∧
    ∃ t, exec x.2.2 s = .next t)

/-- Binding slots to a gather queue. A write of GQ_SLOTS that acts binds every slot it names, but for those that another
queue of the die holds: those bits stay 0 and GQ_REFUSED is set. Then every submission of the open round whose slot
the queue no longer holds is dropped, and DROPPED counts them. (06_matrix_engine.md R134) -/
def Obligations.GatherBinding : Prop :=
  ∀ (w : Writer) (d : Die) (b : Bay) (v : Word) (c : Committed) (s : State),
    c = s.write1 d (pgMxe b) 0x0C8 w v.toNat → c.win.isSome = true →
    (∀ i < 16, c.s.rdF d (pgMxe b) 0x0C8 i 1 =
      if (∃ b' : Bay, b' ≠ b ∧ s.rdF d (pgMxe b') 0x0C8 i 1 = 1) then 0 else bitsOf v.toNat i 1) ∧
    ((∃ i < 16, bitsOf v.toNat i 1 = 1 ∧ ∃ b' : Bay, b' ≠ b ∧ s.rdF d (pgMxe b') 0x0C8 i 1 = 1) →
      c.s.rdF d (pgMxe b) 0x030 12 1 = 1) ∧
    ∃ t q, q = t.gatherOf d b ∧
      q.opened = (c.s.gatherOf d b).opened.filter (fun x => c.s.rdF d (pgMxe b) 0x0C8 x.slot.toNat 1 = 1) ∧
      t = (c.s.setGather d b q).gqDrop d b ((c.s.gatherOf d b).opened.length - q.opened.length) ∧
      exec (.gqSlotsWrite w d b v) s = .next (if t.gqEarly d b q then t.setGather d b q.close else t)

/-- Writes of SLOTs_CTRL by a context. A write of origin CTX to SLOTs_CTRL is denied unless the writing context is the
one that runs the active book: nothing acts, the slot stays as it was, the newest change record says DENIED, and
ERR_STAT.DENIED is set. (10_streams.md R244) -/
def Obligations.ContextWritesOfSlotControl : Prop :=
  ∀ (d : Die) (b : Bay) (k : Nat) (w : Writer) (v : Nat) (c : Committed) (s : State), k < 32 → w.origin = .ctx →
    s.inReset d (pgSu b) = false → s.bookWriter w = false → c = s.write1 d (pgSu b) (0x108 + 64 * k) w v →
    c.win = none ∧ (∀ d' b' k', c.s.slotOf d' b' k' = s.slotOf d' b' k') ∧ c.s.rdF d (pgSu b) 0x030 1 1 = 1 ∧
      ((c.s.ringOf d).recs.head?.map (·.outcome)) = some .denied

/-- What a register write leaves. A write that the protection table and the register allow leaves in a plain register:
the value written in its RW bits, 0 in its W1C bits where the value has a 1, and every other bit as it was. A write
that is not allowed leaves the register as it was. (00_scope.md R8; 00_scope.md R9; 05_register_pages.md R92;
05_register_pages.md R94) -/
def Obligations.RegisterWriteByAccessType : Prop :=
  (∀ (d pg off : Nat) (k : PageKind) (w : Writer) (v : Nat) (c : Committed) (s : State) (j : Nat),
    d < 4 → pg < 256 → off < 4096 → pageKind d pg = some k → k ∉ [PageKind.stp, .mxe, .rtr, .eth, .mgt] →
    off ≠ 0x050 → off ≠ 0x058 → off ≠ 0x060 → c = s.write1 d pg off w v → c.win.isSome = true →
    (c.s.rd d pg off).testBit j =
      if (regInfo d pg off).rw.testBit j then v.testBit j && decide (j < 64)
      else if (regInfo d pg off).w1c.testBit j then (s.rd d pg off).testBit j && !v.testBit j
      else (s.rd d pg off).testBit j) ∧
  (∀ (d pg off : Nat) (w : Writer) (v : Nat) (c : Committed) (s : State),
    d < 4 → pg < 256 → off < 4096 → off ∉ [0x030, 0x040] → accessOk d pg off ⟨w, BitVec.ofNat 64 v, 8⟩ = true →
    s.inReset d pg = false → s.mayWrite d pg off ⟨w, BitVec.ofNat 64 v, 8⟩ = false → c = s.write1 d pg off w v →
    c.win = none ∧ c.s.rd d pg off = s.rd d pg off ∧ c.s.rdF d pg 0x030 1 1 = 1)

/-- A write of ENABLE while a block opens or closes. A write of BLK_CTRL that acts while its block is OPENING or CLOSING
leaves the block in that state and is recorded as HELD, and ENABLE holds its bit 0 at once. (05_register_pages.md
R98) -/
def Obligations.HeldEnable : Prop :=
  ∀ (d pg : Nat) (k : PageKind) (w : Writer) (v : Nat) (c : Committed) (s : State), d < 4 → pg < 256 → pageKind d pg = some k →
    w.origin ≠ .fuse → s.blkIs d pg 1 = true ∨ s.blkIs d pg 3 = true → c = s.write1 d pg 0x020 w v → c.win.isSome = true →
    c.held = true ∧ c.s.rdF d pg 0x018 0 3 = s.rdF d pg 0x018 0 3 ∧ c.s.rdF d pg 0x020 0 1 = v % 2 ∧
      ((c.s.ringOf d).recs.head?.map (·.outcome)) = some .held

/-- What an element-wise vector instruction writes. An element-wise instruction of the VXE gives every active element of
VD the result of its function on the elements of VS1 and of its second operand, leaves every other element of VD,
every other vector register, every mask and scalar register and the configuration as they were, and adds the flags
of the active elements. With n = 0 it has no effect. (09_vector_engine.md R187; 09_vector_engine.md R185;
07_number_formats.md R157) -/
def Obligations.VectorElementsAndFrame : Prop :=
  ∀ (r : VxeRegs) (a : VArgs) (f : Fmt) (g : Nat → Nat → Rounded), (∀ x y, (g x y).enc < 2 ^ f.width) →
    ∃ t, vElementwise r a f g = .ok t ∧
      (∀ i < f.vlmax, vElem f (t.vreg a.vd) i =
        if i < r.vl ∧ r.active a.men a.msel i = true then (g (vElem f (r.vreg a.vs1) i) (r.opB a f i)).enc
        else vElem f (r.vreg a.vd) i) ∧
      (∀ n, n ≠ a.vd.val → t.vreg n = r.vreg n) ∧
      t = { r with v := t.v, vflags := t.vflags } ∧
      (min r.vl f.vlmax = 0 → (∀ n, t.vreg n = r.vreg n) ∧ t.vflags = r.vflags)

/-- A NaN operand gives the canonical NaN. In every arithmetic operation of the vector engine on a floating-point format
a NaN operand gives the canonical NaN of the format, also in a fused one; an addition, a subtraction, a product, a
quotient and a square root raise NV exactly where an operand is a signalling NaN, and no other flag.
(07_number_formats.md R140; 07_number_formats.md R157) -/
def Obligations.NanOperands : Prop :=
  ∀ (g : FpFmt) (m : RMode) (neg : Bool) (a b : Nat), (g.decode a).isNan = true ∨ (g.decode b).isNan = true →
    fpAdd g m neg a b = ⟨g.canonNan, .none, if (g.decode a).isSnan || (g.decode b).isSnan then flNV else 0⟩ ∧
    fpMul g m a b = ⟨g.canonNan, .none, if (g.decode a).isSnan || (g.decode b).isSnan then flNV else 0⟩ ∧
    fpDiv g m a b = ⟨g.canonNan, .none, if (g.decode a).isSnan || (g.decode b).isSnan then flNV else 0⟩ ∧
    ((g.decode a).isNan = true → fpSqrt g m a = ⟨g.canonNan, .none, if (g.decode a).isSnan then flNV else 0⟩) ∧
    (∀ (nv n1 n2 : Bool) (c : Nat), (fpFma g m nv n1 n2 a b c).enc = g.canonNan)

/-- What a write to memory leaves. A write of bytes to a range of memory whose sectors are readable leaves exactly those
bytes there and is OK. Whatever the range, a write leaves every byte outside it as it was, where no error stands in
the byte's sector or the write touches no byte of that sector (a partial write first corrects its sector); but where
the range holds uncorrectable data, an armed mailbox 14 may take the notice of the loss, so that case asks for none.
(11_shared_cache_and_stacks.md R251; 11_shared_cache_and_stacks.md R246; 11_shared_cache_and_stacks.md R267) -/
def Obligations.MemoryWriteThenRead : Prop :=
  ∀ (k : Nat) (xs : List Byte) (s : State) (j : Nat),
    (j < k ∨ k + xs.length ≤ j → j / 64 ∉ sectorsOf k xs.length ∨ Tab.find s.mem.err (j / 64) = none →
      s.rangeBad k xs.length = false ∨ s.fw.armed = none → (s.memWrite k xs).1.memByte j = s.memByte j) ∧
    (∀ i < xs.length, s.rangeBad k xs.length = false → (s.memWrite k xs).1.memByte (k + i) = xs.getD i 0) ∧
    (s.rangeBad k xs.length = false → (s.memWrite k xs).2 = true)

/-- Requests that a home turns away or holds. A request whose home unit is in reset is held and changes nothing. Of
those that reach their home, one of the debug path is refused, one older than 20 ms is counted as aged and not
performed, one of a fenced device is counted as fenced and not performed, and one to another part's address is
answered REFUSED: no byte of memory changes in any of these cases. (14_fabric_routing.md R314; 14_fabric_routing.md
R316; 12_contexts_translation.md R285; 00_scope.md R12; 04_clocks_reset_startup.md R72) -/
def Obligations.RequestsTurnedAway : Prop :=
  ∀ (r q : Req) (data : List Byte) (env : EccEnv) (s : State),
    q = came r 0x02 none →
    (s.homeWaits q.addr.toNat = true → exec (.swr r data env) s = .next s) ∧
    (s.homeWaits q.addr.toNat = false →
      s.pathOpen (reqEntry q) (addrDie q.addr.toNat) none = true → s.outOfTurn q = false →
      (q.src = none → q.w.origin = .dbg → exec (.swr r data env) s = .next ((s.inTurn q).dbgRefused q) ∧
        ((s.inTurn q).dbgRefused q).mem = s.mem) ∧
      ((q.src = none → q.w.origin ≠ .dbg) →
        (78125 < s.ageOf q → exec (.swr r data env) s = .next ((s.inTurn q).discardAged q) ∧
          ((s.inTurn q).discardAged q).mem.bytes = s.mem.bytes) ∧
        (∀ x, s.ageOf q ≤ 78125 → q.src = some x → s.fenced x.val = true →
          exec (.swr r data env) s = .next (s.discardFenced q) ∧ (s.discardFenced q).mem = s.mem) ∧
        (s.ageOf q ≤ 78125 → (∀ x, q.src = some x → s.fenced x.val = false) → addrDev q.addr.toNat ≠ s.device →
          exec (.swr r data env) s =
            .next (((s.inTurn q).setErr (addrDie q.addr.toNat) pgRtr 15).answer q .refused []))))

/-- The log takes 4,096 entries of a source in a second. A source that has written fewer than 4,096 entries in the last
second gets its entry into the ring, and the oldest entry gives way when the ring is full. A further entry is not
written and is counted in LOG_DROPPED. When the rate is within the limit again one LOG_SUPPRESSED entry gives the
count. (20_firmware_management.md R436) -/
def Obligations.LogRateLimit : Prop :=
  ∀ (d : Die) (src : Nat) (code : LogCode) (data : List Nat) (s : State),
    ((s.recentOf (d.val * 256 + src)).length < 4096 →
      (s.logAt d src code data).log.ring =
        (⟨s.now 0, s.log.next, s.stepNum, code, d.val, src, 0, 0, data⟩ :: s.log.ring).take 16384 ∧
      (s.logAt d src code data).rdF 0 pgMgc 0x0A0 0 32 = s.rdF 0 pgMgc 0x0A0 0 32) ∧
    (4096 ≤ (s.recentOf (d.val * 256 + src)).length →
      (s.logAt d src code data).log.ring = s.log.ring ∧
      (s.logAt d src code data).rdF 0 pgMgc 0x0A0 0 32 = (s.rdF 0 pgMgc 0x0A0 0 32 + 1) % 2 ^ 32 ∧
      Tab.get 0 (s.logAt d src code data).log.lost (d.val * 256 + src) = Tab.get 0 s.log.lost (d.val * 256 + src) + 1) ∧
    (∀ b : BitVec 8, b.toNat = src → Tab.get 0 s.log.lost (d.val * 256 + src) ≠ 0 →
      (s.recentOf (d.val * 256 + src)).length < 4096 →
      ∃ t, exec (.logSuppressed d b) s = .next t ∧ Tab.get 0 t.log.lost (d.val * 256 + src) = 0 ∧
        t.log.ring.head? = some ⟨s.now 0, s.log.next, s.stepNum, .logSuppressed, d.val, src, 0, 0,
          [src, Tab.get 0 s.log.lost (d.val * 256 + src)]⟩)

/-- The leader of a step and an attempt. Where the ranks of the cast are held in rank order, the leader of step N,
attempt a, is the device of the live rank before which, counting from rank N mod CAST_SIZE and wrapping, exactly a
live ranks come (a taken modulo the number of live ranks). (16_replay_spares_cue.md R362) -/
def Obligations.LeaderOfAnAttempt : Prop :=
  ∀ (s : State) (step a : Nat) (x : Nat × Nat), (∀ i (h : i < s.cue.ranks.length), (s.cue.ranks[i]).1 = i) →
    x ∈ s.liveRanks →
    (s.liveRanks.filter fun y => decide
      ((y.1 + s.cue.ranks.length - step % s.cue.ranks.length) % s.cue.ranks.length <
        (x.1 + s.cue.ranks.length - step % s.cue.ranks.length) % s.cue.ranks.length)).length =
      a % s.liveRanks.length →
    s.leaderOf step a = x.2

/-- What the shared register operations leave alone. Storing a register changes that register and no other, and none of
the memory, the staging, the engines, the books, the fuses and the queue; setting an error bit and counting into a
field change only their page's registers and what is sent; a vector instruction's advance changes only its own
engine and its counter. (05_register_pages.md R86; 05_register_pages.md R90; 09_vector_engine.md R207) -/
def Obligations.OperationsFrame : Prop :=
  (∀ (d pg off v d' pg' off' : Nat) (s : State),
    (s.wr d pg off v).rd d' pg' off' = if rk d' pg' off' = rk d pg off then v % 2 ^ 64 else s.rd d' pg' off') ∧
  (∀ (d pg off v : Nat) (s : State), { s.wr d pg off v with regs := s.regs } = s) ∧
  (∀ (d pg bit d' pg' off' : Nat) (s : State), rk d' pg' off' ≠ rk d pg 0x030 → rk d' pg' off' ≠ rk d pg 0x040 →
    (s.setErr d pg bit).rd d' pg' off' = s.rd d' pg' off') ∧
  (∀ (d pg bit : Nat) (s : State), bit < 64 → (s.setErr d pg bit).rdF d pg 0x030 bit 1 = 1) ∧
  (∀ (d pg bit : Nat) (s : State), { s.setErr d pg bit with regs := s.regs, sent := s.sent } = s) ∧
  (∀ (d b : Nat) (r : VxeRegs) (s : State), { s.vxeNext d b r with regs := s.regs, vxe := s.vxe, hang := s.hang } = s) ∧
  (∀ (d b d' b' : Nat) (r : VxeRegs) (s : State), bayKey d' b' ≠ bayKey d b →
    (s.vxeNext d b r).vxeOf d' b' = s.vxeOf d' b')

/-- The vector engine's words and commands agree. Where an instruction word is valid and spells a command, the command's
word is that word again, but for MSEL in class 0x8, which masks nothing there; and where the word of a command is
valid, it spells that command: no bit of any layout of Table 9-2 is dropped or read twice, for all operands.
(09_vector_engine.md R188; 09_vector_engine.md R189; 09_vector_engine.md R192; 09_vector_engine.md R196;
09_vector_engine.md R197) -/
def Obligations.VectorWordsRoundTrip : Prop :=
  (∀ (u : Unit36) (w : Nat) (i : Instr), w < 2 ^ 32 → decodeVxe u w = some i →
      encodeVxe i = some (w - if vf w 28 4 = 8 then vf w 5 2 * 2 ^ 5 else 0)) ∧
  (∀ (i : Instr) (w : Nat), encodeVxe i = some w → vwordOk w = true → ∃ u, decodeVxe u w = some i)

/-- A vector command runs the word at PC. Words written out from the layouts and tables of chapter 9 spell the commands
they stand for, one of every class; words with a reserved bit set, with RM 7 or with a FUNC that no table lists
spell none; and a vector command that the word at PC does not spell has no effect. (09_vector_engine.md R188;
09_vector_engine.md R189; 09_vector_engine.md R192; 09_vector_engine.md R196; 09_vector_engine.md R203) -/
def Obligations.AVectorCommandRunsTheWordAtPc : Prop :=
  (∀ u : Unit36,
      decodeVxe u 0x000C2200 = some (.vxeAdd u { vd := 3, vs1 := 1, vs2 := 2 }) ∧
      decodeVxe u 0x110C2200 = some (.vxeMul u { vd := 3, vs1 := 1, vs2 := 2, scalar := true }) ∧
      decodeVxe u 0x208422A4 = some (.vxeFms u { vd := 1, vs1 := 1, vs2 := 2, men := true, msel := 1, rm := 1 }) ∧
      decodeVxe u 0x380C2200 = some (.vxeCmpEq u { vd := 3, vs1 := 1, vs2 := 2, scalar := true }) ∧
      decodeVxe u 0x41802000 = some (.vxeRedAmax u { vd := 0, vs1 := 1, vs2 := 0 }) ∧
      decodeVxe u 0x54218900 = some (.vxeCvt u { dfmt := 4, sfmt := 2, vd := 3, vs1 := 2, dscale := 1, sscale := 0 }) ∧
      decodeVxe u 0x628C8C00 = some (.vxeStore u { mfmt := 2, vd := 3, sbase := 2, sstride := 3 }) ∧
      decodeVxe u 0x70188002 = some (.vxeSetvl u { sx := 3, sy := 1, imm := 2 }) ∧
      decodeVxe u 0x818C4200 = some (.vxeMskAndn u { md := 3, ms1 := 2, ms2 := 2 }) ∧
      decodeVxe u 0x90190001 = some (.vxeSclAddi u { sx := 3, sy := 2, imm := 1 }) ∧
      decodeVxe u 0xAF800000 = some (.vxeEnd u { sx := 0, sy := 0, imm := 0 }) ∧
      decodeVxe u 0x000C2201 = none ∧ decodeVxe u 0x000C221C = none ∧ decodeVxe u 0x0C0C2200 = none) ∧
  (∀ (u : Unit36) (w : Nat) (i : Instr) (s : State), decodeVxe u w = some i → s.vxeAt u i = false → exec i s = .next s)

/-- A whole-sector write replaces uncorrectable data. A write of the 64 bytes of one sector is performed even where the
sector holds uncorrectable data, and leaves a sector that reads as written and passes its check, but while a
rehearsal corrupts a sector; a write of a part of a sector that holds uncorrectable data is not performed and leaves
every byte as it was, but for the notice of the loss that an armed mailbox 14 takes. (11_shared_cache_and_stacks.md
R268; 11_shared_cache_and_stacks.md R265; 11_shared_cache_and_stacks.md R251) -/
def Obligations.AWholeSectorWriteHeals : Prop :=
  (∀ (sec : Nat) (xs : List Byte) (s : State), xs.length = 64 → s.cue.reh = none →
      (s.memWrite (64 * sec) xs).2 = true ∧ (s.memWrite (64 * sec) xs).1.isBad sec = false ∧
        ∀ i < 64, (s.memWrite (64 * sec) xs).1.memByte (64 * sec + i) = xs.getD i 0) ∧
  (∀ (sec off : Nat) (xs : List Byte) (s : State), 0 < xs.length → xs.length < 64 → off + xs.length ≤ 64 → s.isBad sec = true → s.fw.armed = none →
      (s.memWrite (64 * sec + off) xs).2 = false ∧
        ∀ j, (s.memWrite (64 * sec + off) xs).1.memByte j = s.memByte j)

/-- The book and curtain commands complete. LOAD_START, LOAD_DISCARD, VALIDATION_COMPLETE, the curtain actions, the
curtain time-out, the end of the buddy stream and STEP_BEGIN answer a next state under conditions on the state
alone, and the statement gives that state. (01_overview.md R20; 02_step_and_prompt_book.md R28;
02_step_and_prompt_book.md R29; 02_step_and_prompt_book.md R30; 02_step_and_prompt_book.md R43;
02_step_and_prompt_book.md R44; 15_integrity.md R337) -/
def Obligations.CurtainCommandsComplete : Prop :=
  (∀ (w : Writer) (c : Committed) (s : State), c = s.write1 0 pgStp 0x090 w 1 →
        c.win.isSome = true →
        c.s.books.loading = none →
        exec (.loadStart w) s = .next ({ c.s.bookBytes.1 with books := { c.s.books with loading := some c.s.bookBytes.2 } })) ∧
  (∀ (w : Writer) (c : Committed) (s : State), c = s.write1 0 pgStp 0x090 w 2 →
        c.win.isSome = true →
        exec (.loadDiscard w) s = .next (({ c.s with books := { c.s.books with staged := none } }).wrF 0 pgStp 0x098 10 1 0)) ∧
  (∀ (raw : List Byte) (code bad : Nat) (b : Option Book) (u t : State) (s : State), s.books.loading = some raw →
        u = s.recTouch (Book.ofBytes raw (dirOf raw)) false →
        validate (u.checkEnv raw) Config.sm2Verify raw.length raw = (code, bad, b) →
        t = ((({ u with books := { u.books with loading := none } }).wrF 0 pgStp 0x098 0 8 code).wrF 0 pgStp 0x098 16 8 bad).wrF 0 pgStp 0x090 0 1 0 →
        (b = none → exec .validationComplete s = .next t) ∧
      (∀ n, b = some n → t.books.staged = none →
        exec .validationComplete s = .next (({ t with books := { t.books with staged := some n } }).markStep n)) ∧
      (∀ n o, b = some n → t.books.staged = some o → exec .validationComplete s = .next
        (({ t.logAt 0 srcHw .bookSuperseded [o.bookDigest.toNat] with
            books := { (t.logAt 0 srcHw .bookSuperseded [o.bookDigest.toNat]).books with staged := some n } }).markStep n))) ∧
  (∀ (bays saved : List (Nat × Nat)) (t : State) (s : State), s.stepState = 1 →
        (bays = s.mappedBays.filter fun x => s.isBook x.1 x.2) →
        (saved = s.mappedBays.filter fun x => !(s.isBook x.1 x.2)) →
        (t = bays.foldl (fun u x => u.endCancel x.1 x.2) s) →
        t.action1Ready = true →
        exec (.curtainAction1Complete) s = .next (t.action1 bays saved t.step.ended.isSome)) ∧
  (∀ (bays saved : List (Nat × Nat)) (s : State), s.stepState = 2 →
        (bays = s.mappedBays.filter fun x => s.isBook x.1 x.2) →
        (saved = s.mappedBays.filter fun x => !(s.isBook x.1 x.2)) →
        s.action1Ready = true →
        exec (.curtainAction1Complete) s = .next (s.action1 bays saved s.step.ended.isSome)) ∧
  (∀ (s : State), s.stepState = 2 →
        s.step.a1Done = true →
        s.step.a2Done = false →
        s.dup.jobs = [] →
        exec (.curtainAction2) s = .next (((s.action2.wrF 0 pgStp 0x0B0 0 3 3).castVote.tryDecide).tryAck.adoptLate)) ∧
  (∀ (s t u : State), s.stepState = 3 →
        s.step.a2Done = true →
        s.step.decision = none →
        s.cue.committed = none →
        s.cue.held = false →
        s.step.a2Time + ((s.books.active.map (·.curtainTimeout)).getD 2000) * 1000000 ≤ s.now 0 →
        t = ((s.wrF 0 pgStp 0x0B0 4 4 2).noCert 4).wrF 0 pgCue 0x028 6 1 1 →
        u = (t.setRound t.cue.step (t.attempt + 1)).setErr 0 pgCue 10 →
        exec .curtainTimeout s =
      .next (({ u with cue := u.cue.clearVotes }).castVote true).tryDecide) ∧
  (∀ (t : State) (s : State), s.step.buddyOpen = true →
        s.ckpt.run = none →
        s.buddyDone = true →
        t = ({ s with step := { s.step with buddyOpen := false } } : State) →
        exec (.buddyStreamComplete) s = .next (if t.step.change then t.holdTables else t)) ∧
  (∀ (bk : Book) (s : State), s.books.active = some bk →
        s.beginReady = true →
        (s.nextStep bk).1 < 0xFFFFFFFFFFFF →
        exec (.stepBegin) s = .next (if s.step.decision = some .certify then (s.beginStep bk (s.nextStep bk).1 (s.nextStep bk).2).exportBegin
      else s.beginStep bk (s.nextStep bk).1 (s.nextStep bk).2))

/-- The power and temperature events complete. The supply, rail, phase, inrush and temperature-trip events answer a next
state under conditions on the state and operands alone, and the statement gives that state.
(03_package_power_delivery.md R53; 03_package_power_delivery.md R56; 03_package_power_delivery.md R59;
03_package_power_delivery.md R60; 03_package_power_delivery.md R64) -/
def Obligations.PowerCommandsComplete : Prop :=
  (∀ (mv : Nat) (s : State), exec (.p48Rise mv) s = .next (if 30000 < mv then { s with power := { s.power with inrush := true }, io := { s.io with mv := mv } }
      else { s with io := { s.io with mv := mv } })) ∧
  (∀ (ok : Bool) (s : State), s.mayPowerUp = true →
        exec (.powerUp ok) s = .next (if ok = true ∧ s.railGone = false then (s.powerOn.send (.pin .thermTripN true)).send (.pin .pwrGood true)
      else { s with power := { s.power with enable := true, down := false, off := railOrder.reverse } })) ∧
  (∀ (ok : Bool) (s : State), s.mayPowerUp = false →
        exec (.powerUp ok) s = .next ({ s with power := { s.power with enable := true } })) ∧
  (∀ (t : State) (s : State), t = s.orderlyDown →
        exec (.pwrEnFall) s = .next (({ t with power := { t.power with enable := false, lowFor := if s.power.enable then 0 else t.power.lowFor } } : State).alertPin s)) ∧
  (∀ (d : Die) (r : Rail) (k n : Nat) (t u v : State) (s : State), k = Rail.ix r →
        n = Tab.get 0 s.power.phases (d.val * 8 + k) + 1 →
        t = ((((s.took 1).setErr d pgPwr 11).logAt d srcHw .phaseOut [d, k, s.free.toNat % ((railRow k).n + 2)]).histEvent 6 d k 6) →
        u = { t with power := { t.power with phases := Tab.put t.power.phases (d.val * 8 + k) n } } →
        (v = if n = 3 then (({ u with power := { u.power with degraded := u.power.degraded ++ [(d.val, k)], report := u.power.report ++ [(d.val, k)] } } : State).wrF d pgPwr 0x028 5 1 1) else u) →
        exec (.phaseSwitchOut d r) s = .next (if v.phasesLeft d.val k = 0 ∧ v.power.dead.contains d.val = false then
        (({ v with power := { v.power with dead := v.power.dead ++ [d.val], good := false } } : State).noCert 6).send (.pin .pwrGood false)
      else v)) ∧
  (∀ (x : Trip) (t : State) (s : State), heatTrips x.heat = true →
        s.power.tripped.contains x.die.val = false →
        s.power.off = [] →
        t = { s with power := { s.power with tripped := s.power.tripped ++ [x.die.val] } } →
        exec (.thermalTrip x) s = .next (((((t.stackMode x.die 2).wrF x.die pgPwr 0x028 0 2 0).noCert 6).send (.pin .thermTripN false)).alertPin s)) ∧
  (∀ (x : Trip) (s : State), heatTrips x.heat = false →
        exec (.thermalTrip x) s = .next (s.alertPin s)) ∧
  (∀ (d : Die) (h : Heat) (s : State), s.power.tripped.contains d.val = true →
        exec (.tripPersistTimeout d h) s = .next ((if heatCooled h = true then ({ s with power := { s.power with tripped := s.power.tripped.filter (· ≠ d.val) } } : State).stackWake d
        else s.orderlyDown).alertPin s)) ∧
  (∀ (s : State), exec (.inrushLimitExpire) s = .next ({ s with power := { s.power with inrush := false } }))

/-- The clock and time events complete. The loss of a clock and the time exchange answer a next state under conditions
on the state and operands alone, and the statement gives that state. (04_clocks_reset_startup.md R74;
04_clocks_reset_startup.md R76; 13_fabric_links.md R306) -/
def Obligations.ClockCommandsComplete : Prop :=
  (∀ (c : RefClk) (s t : State), (t = (s.timeStat 2 1 1).logAt 0 srcHw .clockLost [match c with | .sys => 0 | .link => 1]) →
        exec (.clockLost c) s = .next ({ t with fenceSelf := true })) ∧
  (∀ (p : Port) (s : State), s.timeLink p = true →
        s.rdF 0 pgTim 0x090 1 1 = 0 →
        s.rdF 0 pgTim 0x090 16 5 = p.val →
        exec (.timeExchange p) s = .next ((s.setLink p { s.link p with asked := some (s.now (portDie p)) }).timeOut p [s.now (portDie p)])) ∧
  (∀ (p : Port) (x : Word) (h : Option Flit) (t : State) (s : State), h = none →
        t = s →
        t.timeLink p = true →
        exec (.timeFlit p ⟨.request x, h⟩) s = .next (t.timeOut p [x.toNat, t.now (portDie p), t.now (portDie p)])) ∧
  (∀ (p : Port) (t1 t2 t3 : Word) (h : Option Flit) (t : State) (s : State), h = none →
        t = s →
        t.timeLink p = true →
        (t.link p).asked = some t1.toNat →
        exec (.timeFlit p ⟨.reply t1 t2 t3, h⟩) s = .next ((t.setLink p { t.link p with asked := none }).applyOffset (timeOffset t1.toNat t2.toNat t3.toNat (t.now (portDie p)) (t.link p).asym))) ∧
  (∀ (p : Port) (x : Word) (h : Option Flit) (f : Flit) (t : State) (s : State), h = some f →
        flitBad f = false →
        t = s.flitIn p { f with ftype := 4 } →
        t.timeLink p = true →
        exec (.timeFlit p ⟨.request x, h⟩) s = .next (t.timeOut p [x.toNat, t.now (portDie p), t.now (portDie p)])) ∧
  (∀ (p : Port) (t1 t2 t3 : Word) (h : Option Flit) (f : Flit) (t : State) (s : State), h = some f →
        flitBad f = false →
        t = s.flitIn p { f with ftype := 4 } →
        t.timeLink p = true →
        (t.link p).asked = some t1.toNat →
        exec (.timeFlit p ⟨.reply t1 t2 t3, h⟩) s = .next ((t.setLink p { t.link p with asked := none }).applyOffset (timeOffset t1.toNat t2.toNat t3.toNat (t.now (portDie p)) (t.link p).asym)))

/-- The reset requests and the end of a reset complete. Each reset request and RESET_COMPLETE answer a next state under
conditions on the state and operands alone, and the statement gives that state: the request register is written, and
the write sets off the reset that it names. (04_clocks_reset_startup.md R78; 04_clocks_reset_startup.md R80;
04_clocks_reset_startup.md R82) -/
def Obligations.ResetCommandsComplete : Prop :=
  (∀ (w : Writer) (d : Die) (b : Bay) (c : Committed) (s : State), c = s.write1 0 pgRst 0x080 w (1 + d * 2 ^ 4 + b * 2 ^ 6) →
        c.win.isSome = true →
        exec (.bayReset w d b) s = .next (c.s.reqWritten (1 + d * 2 ^ 4 + b * 2 ^ 6) w.origin)) ∧
  (∀ (w : Writer) (p : Port) (c : Committed) (s : State), c = s.write1 0 pgRst 0x080 w (2 + (portDie p) * 2 ^ 4 + (p.val % 5) * 2 ^ 6) →
        c.win.isSome = true →
        exec (.fabricPortReset w p) s = .next (c.s.reqWritten (2 + (portDie p) * 2 ^ 4 + (p.val % 5) * 2 ^ 6) w.origin)) ∧
  (∀ (w : Writer) (d : Die) (c : Committed) (s : State), c = s.write1 0 pgRst 0x080 w (3 + d * 2 ^ 4 + 0 * 2 ^ 6) →
        c.win.isSome = true →
        exec (.coreClusterReset w d) s = .next (c.s.reqWritten (3 + d * 2 ^ 4 + 0 * 2 ^ 6) w.origin)) ∧
  (∀ (w : Writer) (d : Die) (c : Committed) (s : State), c = s.write1 0 pgRst 0x080 w (4 + d * 2 ^ 4 + 0 * 2 ^ 6) →
        c.win.isSome = true →
        exec (.diePartitionReset w d) s = .next (c.s.reqWritten (4 + d * 2 ^ 4 + 0 * 2 ^ 6) w.origin)) ∧
  (∀ (w : Writer) (c : Committed) (s : State), c = s.write1 0 pgRst 0x080 w (5 + 0 * 2 ^ 4 + 0 * 2 ^ 6) →
        c.win.isSome = true →
        exec (.wholeDeviceReset w) s = .next (c.s.reqWritten (5 + 0 * 2 ^ 4 + 0 * 2 ^ 6) w.origin)) ∧
  (∀ (s : State), exec (.sysRstNAssert) s = .next (s.resetReq (5, 0, 0) 8 false)) ∧
  (∀ (dom : Domain) (r : ResetRun) (t : State) (s : State), (s.resets.runs.find? (fun r => r.id = domainId dom) = some r) →
        ((domainId dom).1 = 5 → s.resets.counted = true) →
        (t = ({ s with resets := { s.resets with runs := s.resets.runs.filter fun y => y.id ≠ domainId dom } } : State).wr 0 pgRst 0x090 ((domainId dom).1 + (if r.origin = 8 then 1 + 8 else r.origin) * 8)) →
        exec (.resetComplete dom) s = .next (((((t.domainOut (domainId dom)).showReset.heldOut (domainId dom)).replaysOut (domainId dom)).msiOut))) ∧
  (∀ (bm : BitVec 2) (sl : BitVec 8) (s : State), exec (.strapSample bm sl) s = .next (({ s with resets := { s.resets with straps := bm.toNat + sl.toNat * 4 } } : State).wrF 0 pgRst 0x0A0 8 10 (bm.toNat + sl.toNat * 4)))

/-- The start-up events complete. A start-up stage that ends, and the start-up time-outs, answer a next state under
conditions on the state and operands alone, and the statement gives that state. (04_clocks_reset_startup.md R84;
04_clocks_reset_startup.md R85) -/
def Obligations.StartupCommandsComplete : Prop :=
  (∀ (st : Stage) (e : StageEnd) (s : State), s.inStage st = true →
        s.power.off = [] →
        exec (.startupStageComplete st e) s = .next ((if s.stageResult st e.result = .ok then s.stageDone st e.lanes else s.stageFailed st (s.stageResult st e.result) e.lanes).alertPin s)) ∧
  (∀ (s : State), s.resets.stage = 0xE1 →
        exec (.imageRefetchTimeout) s = .next ((s.setStage 0x50).alertPin s)) ∧
  (∀ (s : State), (s.resets.stage = 0x40 ∨ s.resets.stage = 0x50) →
        exec (.bootStageTimeout) s = .next ((s.failStage 0xE4 0x40).alertPin s))

/-- A register write and the block commands complete. REGISTER_WRITE and the commands that enable, disable, pause and
count down a block answer a next state under conditions on the state and operands alone, and the statement gives
that state. (05_register_pages.md R88; 05_register_pages.md R90; 05_register_pages.md R97; 05_register_pages.md R99;
05_register_pages.md R101; 06_matrix_engine.md R127; 09_vector_engine.md R212; 10_streams.md R239) -/
def Obligations.RegisterAndBlockCommandsComplete : Prop :=
  (∀ (a : RegAddr) (reqs : List WriteReq) (r : WriteReq) (pg off : Nat) (c : Committed) (s : State), pg = a.offset.toNat / 4096 →
        off = a.offset.toNat % 4096 →
        mboxSlot a.die pg off = false →
        c = s.commit a.die pg off reqs →
        c.win = some r →
        exec (.registerWrite a reqs) s = .next (c.s.onWrite a.die pg off r.value.toNat r.w)) ∧
  (∀ (a : RegAddr) (reqs : List WriteReq) (pg off : Nat) (s : State), pg = a.offset.toNat / 4096 →
        off = a.offset.toNat % 4096 →
        mboxSlot a.die pg off = true →
        exec (.registerWrite a reqs) s = .next (s.slotWrites ((off - 0x080) / 8) reqs)) ∧
  (∀ (w : Writer) (d : Die) (pg : BitVec 8) (c : Committed) (s : State), c = s.ctrlBit w d pg.toNat 0 1 →
        c.win.isSome = true →
        exec (.blockEnable w d pg) s = .next (c.s.enableEffect d pg.toNat w.origin)) ∧
  (∀ (w : Writer) (d : Die) (pg : BitVec 8) (c : Committed) (s : State), c = s.ctrlBit w d pg.toNat 0 0 →
        c.win.isSome = true →
        exec (.blockDisable w d pg) s = .next (c.s.enableEffect d pg.toNat w.origin)) ∧
  (∀ (w : Writer) (d : Die) (pg : BitVec 8) (c : Committed) (s : State), c = s.ctrlBit w d pg.toNat 1 1 →
        c.win.isSome = true →
        exec (.clrCount w d pg) s = .next ((c.s.wrF d pg.toNat 0x040 0 32 0).enableEffect d pg.toNat w.origin)) ∧
  (∀ (d : Die) (pg : BitVec 8) (s t : State), s.blkSt d pg.toNat = 1 →
        s.openReady d pg.toNat = true →
        t = s.opened d pg.toNat →
        exec (.openingComplete d pg) s = .next (if t.enabled d pg.toNat then (t.setBlkSt d pg.toNat 2).incF d pg.toNat 0x048 0 32 1 else t.beginClose d pg.toNat)) ∧
  (∀ (d : Die) (pg : BitVec 8) (s t : State), s.blkSt d pg.toNat = 3 →
        s.closeReady d pg.toNat = true →
        t = s.closed d pg.toNat →
        exec (.closingComplete d pg) s = .next (if t.enabled d pg.toNat && !(t.hwHold d pg.toNat) then t.beginOpen d pg.toNat else t.setBlkSt d pg.toNat 0)) ∧
  (∀ (d : Die) (pg : BitVec 8) (s t : State), s.hwHold d pg.toNat = true →
        t = s.wrF d pg.toNat 0x018 4 1 0 →
        exec (.hwHoldClear d pg) s = .next (if t.blkSt d pg.toNat = 0 ∧ t.enabled d pg.toNat = true then t.beginOpen d pg.toNat else t.syncPend d pg.toNat)) ∧
  (∀ (w : Writer) (d : Die) (b : Bay) (c : Committed) (s : State), c = s.ctrlBit w d (pgMxe b) 8 1 →
        c.win.isSome = true →
        exec (.mxePause w d b) s = .next (c.s.enableEffect d (pgMxe b) w.origin)) ∧
  (∀ (w : Writer) (d : Die) (b : Bay) (c : Committed) (s : State), c = s.ctrlBit w d (pgMxe b) 8 0 →
        c.win.isSome = true →
        exec (.mxeUnpause w d b) s = .next (c.s.enableEffect d (pgMxe b) w.origin)) ∧
  (∀ (w : Writer) (d : Die) (b : Bay) (c : Committed) (s : State), c = s.ctrlBit w d (pgVxe b) 8 1 →
        c.win.isSome = true →
        exec (.vxePause w d b) s = .next (c.s.enableEffect d (pgVxe b) w.origin)) ∧
  (∀ (w : Writer) (d : Die) (b : Bay) (c : Committed) (s : State), c = s.ctrlBit w d (pgVxe b) 8 0 →
        c.win.isSome = true →
        exec (.vxeUnpause w d b) s = .next (c.s.enableEffect d (pgVxe b) w.origin)) ∧
  (∀ (w : Writer) (d : Die) (b : Bay) (c : Committed) (s : State), c = s.ctrlBit w d (pgSu b) 8 1 →
        c.win.isSome = true →
        exec (.suPause w d b) s = .next (c.s.enableEffect d (pgSu b) w.origin)) ∧
  (∀ (w : Writer) (d : Die) (b : Bay) (c : Committed) (s : State), c = s.ctrlBit w d (pgSu b) 8 0 →
        c.win.isSome = true →
        exec (.suUnpause w d b) s = .next (c.s.enableEffect d (pgSu b) w.origin))

/-- The matrix engine commands complete. Each command of the matrix engine and its gather queue, and the layer gate,
answers a next state under conditions on the state and operands alone (the descriptor is at the head, its waits are
met, an accumulator bank is free, a tracking entry is free), and the statement gives that state.
(06_matrix_engine.md R105; 06_matrix_engine.md R114; 06_matrix_engine.md R120; 06_matrix_engine.md R123;
06_matrix_engine.md R128; 06_matrix_engine.md R130; 06_matrix_engine.md R131; 06_matrix_engine.md R132;
06_matrix_engine.md R134; 08_training_numerics.md R173; 06_matrix_engine.md R470) -/
def Obligations.MatrixCommandsComplete : Prop :=
  (∀ (d : Die) (b : Bay) (r : TileRef) (t : TileDesc) (u : State) (s : State), s.mxeHead d b 0x01 = some (r, t) →
        u = s.waitMarks d b t.waitMask →
        (t.cont = true ∨ (u.mxeOf d b).bankFree (decide (accWidth t = 8)) = true) →
        exec (.mma d b) s = .next (u.mmaStart d b r t)) ∧
  (∀ (d : Die) (b : Bay) (r : TileRef) (t : TileDesc) (g : List GatherSub) (rest : List (List GatherSub)) (run : GatherRun) (u v w : State) (s : State), s.mxeHead d b 0x02 = some (r, t) →
        (s.gatherOf d b).placing = none →
        (s.gatherOf d b).closed = g :: rest →
        (t.cont = true ∨ (s.mxeOf d b).bankFree (decide (accWidth t = 8)) = true) →
        u = s.gatherBegin d b t g rest →
        (u.gatherOf d b).placing = some run →
        run.left = [] →
        run.waits = [] →
        u.running = true →
        v = (u.setPlacing d b none).gqMap d b run.round →
        w = v.setMxe d b { v.mxeOf d b with gatherRows := roundRows run.round } →
        exec (.mmaGather d b) s = .next ((w.waitMarks d b t.waitMask).mmaStart d b r t)) ∧
  (∀ (d : Die) (b : Bay) (r : TileRef) (t : TileDesc) (z : GatherRun) (run : GatherRun) (u v w : State) (s : State), s.mxeHead d b 0x02 = some (r, t) →
        (s.gatherOf d b).placing = some z →
        u = s.gatherIssue d b →
        (u.gatherOf d b).placing = some run →
        run.left = [] →
        run.waits = [] →
        u.running = true →
        v = (u.setPlacing d b none).gqMap d b run.round →
        w = v.setMxe d b { v.mxeOf d b with gatherRows := roundRows run.round } →
        exec (.mmaGather d b) s = .next ((w.waitMarks d b t.waitMask).mmaStart d b r t)) ∧
  (∀ (d : Die) (b : Bay) (r : TileRef) (t : TileDesc) (g : List GatherSub) (rest : List (List GatherSub)) (run : GatherRun) (u : State) (s : State), s.mxeHead d b 0x02 = some (r, t) →
        (s.gatherOf d b).placing = none →
        (s.gatherOf d b).closed = g :: rest →
        (t.cont = true ∨ (s.mxeOf d b).bankFree (decide (accWidth t = 8)) = true) →
        u = s.gatherBegin d b t g rest →
        (u.gatherOf d b).placing = some run →
        (run.left ≠ [] ∨ run.waits ≠ []) →
        exec (.mmaGather d b) s = .next (u)) ∧
  (∀ (d : Die) (b : Bay) (r : TileRef) (t : TileDesc) (s : State), s.mxeHead d b 0x10 = some (r, t) →
        exec (.syncWait d b) s = .next ((s.waitMarks d b t.waitMask).engineSem d b false false (t.semAddr % 2 ^ 52) t.semValue)) ∧
  (∀ (d : Die) (b : Bay) (r : TileRef) (t : TileDesc) (s : State), s.mxeHead d b 0x11 = some (r, t) →
        (s.mxeOf d b).drains = [] →
        (s.mxeOf d b).openBy = none →
        exec (.syncAdd d b) s = .next ((s.waitMarks d b t.waitMask).engineSem d b false true (t.semAddr % 2 ^ 52) t.semValue)) ∧
  (∀ (d : Die) (b : Bay) (r : TileRef) (t : TileDesc) (u : State) (s : State), s.mxeHead d b 0xFF = some (r, t) →
        u = (s.waitMarks d b t.waitMask).mxeNext d b →
        exec (.mxeEnd d b) s = .next ((u.setMxe d b { u.mxeOf d b with atEnd := true, gatherRows := 0 }).endCancel d b)) ∧
  (∀ (d : Die) (b : Bay) (flips : List Flip) (j : DrainJob) (js : List DrainJob) (t : TileDesc) (s : State), (s.mxeOf d b).drains = j :: js →
        s.tileOf j.ref = some t →
        exec (.tileDrainComplete d b flips) s = .next (s.drainChain d b j t flips)) ∧
  (∀ (d : Die) (b : Bay) (u : State) (s : State), u = (s.setErr d (pgMxe b) 10).histEvent 1 d b 2 →
        u.wingsBay d ≠ some b.val →
        exec (.arrayParityError d b) s = .next ((u.setMxe d b (if (u.mxeOf d b).openBy.isSome then { u.mxeOf d b with marked := true }
        else { u.mxeOf d b with drains := (u.mxeOf d b).drains.map fun j => { j with marked := true } })).noCertBay d b 6)) ∧
  (∀ (d : Die) (b : Bay) (vxe : Bool) (st : Status) (remote : Bool) (id : Nat) (s : State), s.syncOwner d b vxe = some id →
        st ≠ .ok →
        exec (.syncErrorResponse d b vxe st remote) s = .next ((s.syncEnded d b id vxe).syncError d b id vxe st remote)) ∧
  (∀ (d : Die) (b : Bay) (g : GatherSub) (s : State), s.inReset d (pgMxe b) = false →
        g.slot.toNat < 16 →
        bitsOf (s.rd d (pgMxe b) 0x0C8) g.slot.toNat 1 = 1 →
        g.rows.toNat ≠ 0 →
        g.rows.toNat ≤ 128 →
        s.rdF d (pgMxe b) 0x0C0 0 1 = 1 →
        exec (.gatherSubmit d b g) s = .next (s.gqAccept d b g)) ∧
  (∀ (d : Die) (b : Bay) (s : State), (s.gatherOf d b).opened ≠ [] →
        (s.gatherOf d b).since + 1000 * s.gqTimeout d b ≤ s.now d →
        exec (.gatherRoundTimeout d b) s = .next ((s.setGather d b (s.gatherOf d b).close).incF d (pgMxe b) 0x0D0 32 16 1)) ∧
  (∀ (w : Writer) (d : Die) (b : Bay) (c : Committed) (s : State), c = s.write1 d (pgMxe b) 0x0C0 w (putBits (s.rd d (pgMxe b) 0x0C0) 0 1 0) →
        c.win.isSome = true →
        c.s.rdF d (pgMxe b) 0x0C0 0 1 = 0 →
        exec (.gatherQueueDisable w d b) s = .next (c.s.gqDropWhere d b fun _ => true)) ∧
  (∀ (w : Writer) (d : Die) (b : Bay) (v : Word) (c : Committed) (u : State) (s : State), c = s.write1 d (pgMxe b) 0x0C8 w v.toNat →
        c.win.isSome = true →
        (u = c.s.gqDropWhere d b fun x => bitsOf (c.s.rd d (pgMxe b) 0x0C8) x.slot.toNat 1 = 0) →
        exec (.gqSlotsWrite w d b v) s = .next (if u.gqEarly d b (u.gatherOf d b) then u.setGather d b (u.gatherOf d b).close else u)) ∧
  (∀ (layer : Nat) (bk : Book) (l : Layer) (u : State) (s : State), s.books.active = some bk →
        bk.layers[layer]? = some l →
        ((allBays.any fun x => (s.bookMxe x.1 x.2).gate = some layer) = true) →
        s.gateDone l layer = true →
        ((Tab.find s.step.layerEv layer).isSome && l.cls = 0 && narrowFmt l.format) = false →
        u = { s with step := { s.step with gates := s.step.gates ++ [layer] } } →
        exec (.layerGateOpen layer) s = .next (allBays.foldl (fun t x => if (t.bookMxe x.1 x.2).gate = some layer then
          t.onBookMxe x.1 x.2 fun m => { m with gate := none, ovfHold := false, work := ([] : List TileRef) ++ m.work } else t) u)) ∧
  (∀ (layer tile kind : Nat) (bk : Book) (l : Layer) (u v : State) (s : State), s.books.active = some bk →
        bk.layers[layer]? = some l →
        ((allBays.any fun x => (s.bookMxe x.1 x.2).gate = some layer) = true) →
        s.gateDone l layer = true →
        Tab.find s.step.layerEv layer = some (tile, kind) →
        l.cls = 0 →
        narrowFmt l.format = true →
        v = ((({ s with step := { s.step with repeated := s.step.repeated ++ [layer] } }).satF 0 pgStp 0x120 0 16 1).wr 0 pgStp 0x128 (l.layerId % 2 ^ 32 + kind % 4 * 2 ^ 32)).logAt 0 srcHw .fallback [State.stepNum (({ s with step := { s.step with repeated := s.step.repeated ++ [layer] } }).satF 0 pgStp 0x120 0 16 1), l.layerId, tile, kind] →
        u = { v with step := { v.step with gates := v.step.gates ++ [layer] } } →
        exec (.layerGateOpen layer) s = .next (allBays.foldl (fun t x => if (t.bookMxe x.1 x.2).gate = some layer then
          t.onBookMxe x.1 x.2 fun m => { m with gate := none, ovfHold := false, work := fallbackOf bk l ((t.lbayOf x.1 x.2).getD 32) ++ m.work } else t) u))

/-- Element-wise vector arithmetic completes with its results. Where the vector engine may issue and VFMT names a format
that the instruction takes, each arithmetic instruction of class 1 completes, and its registers are those of the
element-wise application of the operation that Table 9-3 names to the active elements, in floating-point and in
integer formats. (09_vector_engine.md R185; 09_vector_engine.md R187; 09_vector_engine.md R188; 09_vector_engine.md
R189; 09_vector_engine.md R191) -/
def Obligations.VectorArithmeticCompletes : Prop :=
  (∀ (u : Unit36) (a : VArgs) (r : VxeRegs) (f : Fmt) (g : FpFmt) (s : State), s.vxeIn u (.vxeAdd u a) r f →
        f.isWideFp = true →
        f.fp? = some g →
        VxeDone (.vxeAdd u a) u s (vElementwise r a f fun x y => fpAdd g (r.mode a.rm.toNat) false x y)) ∧
  (∀ (u : Unit36) (a : VArgs) (r : VxeRegs) (f : Fmt) (w : Nat) (s : State), s.vxeIn u (.vxeAdd u a) r f →
        f.isWideFp = false →
        f.int? = some w →
        VxeDone (.vxeAdd u a) u s (vElementwise r a f fun x y => { enc := (x + y) % 2 ^ w })) ∧
  (∀ (u : Unit36) (a : VArgs) (r : VxeRegs) (f : Fmt) (g : FpFmt) (s : State), s.vxeIn u (.vxeSub u a) r f →
        f.isWideFp = true →
        f.fp? = some g →
        VxeDone (.vxeSub u a) u s (vElementwise r a f fun x y => fpAdd g (r.mode a.rm.toNat) true x y)) ∧
  (∀ (u : Unit36) (a : VArgs) (r : VxeRegs) (f : Fmt) (w : Nat) (s : State), s.vxeIn u (.vxeSub u a) r f →
        f.isWideFp = false →
        f.int? = some w →
        VxeDone (.vxeSub u a) u s (vElementwise r a f fun x y => { enc := (x + (2 ^ w - y % 2 ^ w)) % 2 ^ w })) ∧
  (∀ (u : Unit36) (a : VArgs) (r : VxeRegs) (f : Fmt) (g : FpFmt) (s : State), s.vxeIn u (.vxeMul u a) r f →
        f.isWideFp = true →
        f.fp? = some g →
        VxeDone (.vxeMul u a) u s (vElementwise r a f fun x y => fpMul g (r.mode a.rm.toNat) x y)) ∧
  (∀ (u : Unit36) (a : VArgs) (r : VxeRegs) (f : Fmt) (w : Nat) (s : State), s.vxeIn u (.vxeMul u a) r f →
        f.isWideFp = false →
        f.int? = some w →
        VxeDone (.vxeMul u a) u s (vElementwise r a f fun x y => { enc := x * y % 2 ^ w })) ∧
  (∀ (u : Unit36) (a : VArgs) (r : VxeRegs) (f : Fmt) (g : FpFmt) (s : State), s.vxeIn u (.vxeDiv u a) r f →
        f.isWideFp = true →
        f.fp? = some g →
        VxeDone (.vxeDiv u a) u s (vElementwise r a f fun x y => fpDiv g (r.mode a.rm.toNat) x y)) ∧
  (∀ (u : Unit36) (a : VArgs) (r : VxeRegs) (f : Fmt) (g : FpFmt) (s : State), s.vxeIn u (.vxeSqrt u a) r f →
        f.isWideFp = true →
        f.fp? = some g →
        VxeDone (.vxeSqrt u a) u s (vElementwise r a f fun x y => fpSqrt g (r.mode a.rm.toNat) x)) ∧
  (∀ (u : Unit36) (a : VArgs) (r : VxeRegs) (f : Fmt) (g : FpFmt) (s : State), s.vxeIn u (.vxeMin u a) r f →
        f.isWideFp = true →
        f.fp? = some g →
        VxeDone (.vxeMin u a) u s (vElementwise r a f fun x y => fpMinMax g false true x y)) ∧
  (∀ (u : Unit36) (a : VArgs) (r : VxeRegs) (f : Fmt) (w : Nat) (s : State), s.vxeIn u (.vxeMin u a) r f →
        f.isWideFp = false →
        f.int? = some w →
        VxeDone (.vxeMin u a) u s (vElementwise r a f fun x y => { enc := if sLess w y x then y else x })) ∧
  (∀ (u : Unit36) (a : VArgs) (r : VxeRegs) (f : Fmt) (g : FpFmt) (s : State), s.vxeIn u (.vxeMax u a) r f →
        f.isWideFp = true →
        f.fp? = some g →
        VxeDone (.vxeMax u a) u s (vElementwise r a f fun x y => fpMinMax g true true x y)) ∧
  (∀ (u : Unit36) (a : VArgs) (r : VxeRegs) (f : Fmt) (w : Nat) (s : State), s.vxeIn u (.vxeMax u a) r f →
        f.isWideFp = false →
        f.int? = some w →
        VxeDone (.vxeMax u a) u s (vElementwise r a f fun x y => { enc := if sLess w x y then y else x })) ∧
  (∀ (u : Unit36) (a : VArgs) (r : VxeRegs) (f : Fmt) (g : FpFmt) (s : State), s.vxeIn u (.vxeMini u a) r f →
        f.isWideFp = true →
        f.fp? = some g →
        VxeDone (.vxeMini u a) u s (vElementwise r a f fun x y => fpMinMax g false false x y)) ∧
  (∀ (u : Unit36) (a : VArgs) (r : VxeRegs) (f : Fmt) (g : FpFmt) (s : State), s.vxeIn u (.vxeMaxi u a) r f →
        f.isWideFp = true →
        f.fp? = some g →
        VxeDone (.vxeMaxi u a) u s (vElementwise r a f fun x y => fpMinMax g true false x y)) ∧
  (∀ (u : Unit36) (a : VArgs) (r : VxeRegs) (f : Fmt) (g : FpFmt) (s : State), s.vxeIn u (.vxeNeg u a) r f →
        f.isWideFp = true →
        f.fp? = some g →
        VxeDone (.vxeNeg u a) u s (vElementwise r a f fun x y => { enc := x ^^^ fpTop g })) ∧
  (∀ (u : Unit36) (a : VArgs) (r : VxeRegs) (f : Fmt) (w : Nat) (s : State), s.vxeIn u (.vxeNeg u a) r f →
        f.isWideFp = false →
        f.int? = some w →
        VxeDone (.vxeNeg u a) u s (vElementwise r a f fun x y => { enc := (2 ^ w - x % 2 ^ w) % 2 ^ w })) ∧
  (∀ (u : Unit36) (a : VArgs) (r : VxeRegs) (f : Fmt) (g : FpFmt) (s : State), s.vxeIn u (.vxeAbs u a) r f →
        f.isWideFp = true →
        f.fp? = some g →
        VxeDone (.vxeAbs u a) u s (vElementwise r a f fun x y => { enc := x % fpTop g })) ∧
  (∀ (u : Unit36) (a : VArgs) (r : VxeRegs) (f : Fmt) (w : Nat) (s : State), s.vxeIn u (.vxeAbs u a) r f →
        f.isWideFp = false →
        f.int? = some w →
        VxeDone (.vxeAbs u a) u s (vElementwise r a f fun x y => { enc := if sLess w x 0 then (2 ^ w - x % 2 ^ w) % 2 ^ w else x })) ∧
  (∀ (u : Unit36) (a : VArgs) (r : VxeRegs) (f : Fmt) (g : FpFmt) (s : State), s.vxeIn u (.vxeCsgn u a) r f →
        f.isWideFp = true →
        f.fp? = some g →
        VxeDone (.vxeCsgn u a) u s (vElementwise r a f fun x y => { enc := x % fpTop g + y / fpTop g % 2 * fpTop g })) ∧
  (∀ (u : Unit36) (a : VArgs) (r : VxeRegs) (f : Fmt) (g : FpFmt) (s : State), s.vxeIn u (.vxeRti u a) r f →
        f.isWideFp = true →
        f.fp? = some g →
        VxeDone (.vxeRti u a) u s (vElementwise r a f fun x y => fpRti g (r.mode a.rm.toNat) Config.rtiInexact x)) ∧
  (∀ (u : Unit36) (a : VArgs) (r : VxeRegs) (f : Fmt) (g : FpFmt) (s : State), s.vxeIn u (.vxeRece u a) r f →
        f.isWideFp = true →
        f.fp? = some g →
        VxeDone (.vxeRece u a) u s (vElementwise r a f fun x y => fpRece g x)) ∧
  (∀ (u : Unit36) (a : VArgs) (r : VxeRegs) (f : Fmt) (g : FpFmt) (s : State), s.vxeIn u (.vxeRsqe u a) r f →
        f.isWideFp = true →
        f.fp? = some g →
        VxeDone (.vxeRsqe u a) u s (vElementwise r a f fun x y => fpRsqe g x))

/-- Vector moves, logic, shifts, merges and index vectors complete with their results. Where the vector engine may issue
and VFMT names a format that the instruction takes, MOV, the logic and shift instructions, MRG and IOTA complete,
with the results of Table 9-3. (09_vector_engine.md R188; 09_vector_engine.md R189) -/
def Obligations.VectorLogicCompletes : Prop :=
  (∀ (u : Unit36) (a : VArgs) (r : VxeRegs) (f : Fmt) (s : State), s.vxeIn u (.vxeMov u a) r f →
        VxeDone (.vxeMov u a) u s (vElementwise r a f fun x y => { enc := if a.scalar then y else x })) ∧
  (∀ (u : Unit36) (a : VArgs) (r : VxeRegs) (f : Fmt) (w : Nat) (s : State), s.vxeIn u (.vxeAnd u a) r f →
        f.isWideFp = false →
        f.int? = some w →
        VxeDone (.vxeAnd u a) u s (vElementwise r a f fun x y => { enc := x &&& y })) ∧
  (∀ (u : Unit36) (a : VArgs) (r : VxeRegs) (f : Fmt) (s : State), s.vxeIn u (.vxeAnd u a) r f →
        f = .raw8 →
        VxeDone (.vxeAnd u a) u s (vElementwise r a f fun x y => { enc := x &&& y })) ∧
  (∀ (u : Unit36) (a : VArgs) (r : VxeRegs) (f : Fmt) (w : Nat) (s : State), s.vxeIn u (.vxeOr u a) r f →
        f.isWideFp = false →
        f.int? = some w →
        VxeDone (.vxeOr u a) u s (vElementwise r a f fun x y => { enc := x ||| y })) ∧
  (∀ (u : Unit36) (a : VArgs) (r : VxeRegs) (f : Fmt) (s : State), s.vxeIn u (.vxeOr u a) r f →
        f = .raw8 →
        VxeDone (.vxeOr u a) u s (vElementwise r a f fun x y => { enc := x ||| y })) ∧
  (∀ (u : Unit36) (a : VArgs) (r : VxeRegs) (f : Fmt) (w : Nat) (s : State), s.vxeIn u (.vxeXor u a) r f →
        f.isWideFp = false →
        f.int? = some w →
        VxeDone (.vxeXor u a) u s (vElementwise r a f fun x y => { enc := x ^^^ y })) ∧
  (∀ (u : Unit36) (a : VArgs) (r : VxeRegs) (f : Fmt) (s : State), s.vxeIn u (.vxeXor u a) r f →
        f = .raw8 →
        VxeDone (.vxeXor u a) u s (vElementwise r a f fun x y => { enc := x ^^^ y })) ∧
  (∀ (u : Unit36) (a : VArgs) (r : VxeRegs) (f : Fmt) (w : Nat) (s : State), s.vxeIn u (.vxeSll u a) r f →
        f.isWideFp = false →
        f.int? = some w →
        VxeDone (.vxeSll u a) u s (vElementwise r a f fun x y => { enc := x * 2 ^ (y % w) % 2 ^ w })) ∧
  (∀ (u : Unit36) (a : VArgs) (r : VxeRegs) (f : Fmt) (w : Nat) (s : State), s.vxeIn u (.vxeSrl u a) r f →
        f.isWideFp = false →
        f.int? = some w →
        VxeDone (.vxeSrl u a) u s (vElementwise r a f fun x y => { enc := x / 2 ^ (y % w) })) ∧
  (∀ (u : Unit36) (a : VArgs) (r : VxeRegs) (f : Fmt) (w : Nat) (s : State), s.vxeIn u (.vxeSra u a) r f →
        f.isWideFp = false →
        f.int? = some w →
        VxeDone (.vxeSra u a) u s (vElementwise r a f fun x y => { enc := toBits w (sext w x / (2 ^ (y % w) : Nat)) })) ∧
  (∀ (u : Unit36) (a : VArgs) (r : VxeRegs) (f : Fmt) (s : State), s.vxeIn u (.vxeMrg u a) r f →
        VxeDone (.vxeMrg u a) u s (.ok (r.setV a.vd (BitVec.ofNat 16384 (vMap f (fun _ => true)
      (fun i => if (r.mreg a.msel).getLsbD i then vElem f (r.vreg a.vs1) i else vElem f (r.vreg a.vs2) i)
      (min r.vl f.vlmax) 0 (r.vreg a.vd).toNat))))) ∧
  (∀ (u : Unit36) (a : VArgs) (r : VxeRegs) (f : Fmt) (w : Nat) (s : State), s.vxeIn u (.vxeIota u a) r f →
        f.isWideFp = false →
        f.int? = some w →
        VxeDone (.vxeIota u a) u s (.ok (r.setV a.vd (BitVec.ofNat 16384
      (vMap f (r.active a.men a.msel) (fun i => i % 2 ^ w) (min r.vl f.vlmax) 0 (r.vreg a.vd).toNat)))))

/-- Fused multiply-adds and comparisons complete with their results. Where the vector engine may issue and VFMT names a
format that the instruction takes, the fused multiply-adds and the comparisons complete; a fused operation rounds
once, and a comparison writes one bit per active element of mask VD[1:0]. (09_vector_engine.md R192;
09_vector_engine.md R193) -/
def Obligations.VectorFusedAndCompareComplete : Prop :=
  (∀ (u : Unit36) (a : VArgs) (r : VxeRegs) (f : Fmt) (g : FpFmt) (s : State), s.vxeIn u (.vxeFma u a) r f →
        f.isWideFp = true →
        f.fp? = some g →
        VxeDone (.vxeFma u a) u s ((fun res : Nat → Rounded => .ok ((r.setV a.vd (BitVec.ofNat 16384 (vMap f (r.active a.men a.msel) (fun i => (res i).enc)
      (min r.vl f.vlmax) 0 (r.vreg a.vd).toNat))).orFlags (orFlagsOf (r.active a.men a.msel) (fun i => (res i).flags)
      (min r.vl f.vlmax)))) fun i => fpFma g (r.mode a.rm.toNat) Config.fmaNanInvalid false false (vElem f (r.vreg a.vs1) i) (r.opB a f i)
      (vElem f (r.vreg a.vd) i))) ∧
  (∀ (u : Unit36) (a : VArgs) (r : VxeRegs) (f : Fmt) (g : FpFmt) (s : State), s.vxeIn u (.vxeFms u a) r f →
        f.isWideFp = true →
        f.fp? = some g →
        VxeDone (.vxeFms u a) u s ((fun res : Nat → Rounded => .ok ((r.setV a.vd (BitVec.ofNat 16384 (vMap f (r.active a.men a.msel) (fun i => (res i).enc)
      (min r.vl f.vlmax) 0 (r.vreg a.vd).toNat))).orFlags (orFlagsOf (r.active a.men a.msel) (fun i => (res i).flags)
      (min r.vl f.vlmax)))) fun i => fpFma g (r.mode a.rm.toNat) Config.fmaNanInvalid false true (vElem f (r.vreg a.vs1) i) (r.opB a f i)
      (vElem f (r.vreg a.vd) i))) ∧
  (∀ (u : Unit36) (a : VArgs) (r : VxeRegs) (f : Fmt) (g : FpFmt) (s : State), s.vxeIn u (.vxeFnma u a) r f →
        f.isWideFp = true →
        f.fp? = some g →
        VxeDone (.vxeFnma u a) u s ((fun res : Nat → Rounded => .ok ((r.setV a.vd (BitVec.ofNat 16384 (vMap f (r.active a.men a.msel) (fun i => (res i).enc)
      (min r.vl f.vlmax) 0 (r.vreg a.vd).toNat))).orFlags (orFlagsOf (r.active a.men a.msel) (fun i => (res i).flags)
      (min r.vl f.vlmax)))) fun i => fpFma g (r.mode a.rm.toNat) Config.fmaNanInvalid true false (vElem f (r.vreg a.vs1) i) (r.opB a f i)
      (vElem f (r.vreg a.vd) i))) ∧
  (∀ (u : Unit36) (a : VArgs) (r : VxeRegs) (f : Fmt) (g : FpFmt) (s : State), s.vxeIn u (.vxeFnms u a) r f →
        f.isWideFp = true →
        f.fp? = some g →
        VxeDone (.vxeFnms u a) u s ((fun res : Nat → Rounded => .ok ((r.setV a.vd (BitVec.ofNat 16384 (vMap f (r.active a.men a.msel) (fun i => (res i).enc)
      (min r.vl f.vlmax) 0 (r.vreg a.vd).toNat))).orFlags (orFlagsOf (r.active a.men a.msel) (fun i => (res i).flags)
      (min r.vl f.vlmax)))) fun i => fpFma g (r.mode a.rm.toNat) Config.fmaNanInvalid true true (vElem f (r.vreg a.vs1) i) (r.opB a f i)
      (vElem f (r.vreg a.vd) i))) ∧
  (∀ (u : Unit36) (a : VArgs) (r : VxeRegs) (f : Fmt) (g : FpFmt) (s : State), s.vxeIn u (.vxeCmpEq u a) r f →
        f.isWideFp = true →
        f.fp? = some g →
        VxeDone (.vxeCmpEq u a) u s ((fun res : Nat → Bool × Nat => .ok ((r.setM (a.vd.val % 4) (BitVec.ofNat 2048 (mMap (r.active a.men a.msel)
      (fun i => (res i).1) (min r.vl f.vlmax) 0 (r.mreg (a.vd.val % 4)).toNat))).orFlags
      (orFlagsOf (r.active a.men a.msel) (fun i => (res i).2) (min r.vl f.vlmax)))) fun i =>
        fpCmp .eq g (vElem f (r.vreg a.vs1) i) (r.opB a f i))) ∧
  (∀ (u : Unit36) (a : VArgs) (r : VxeRegs) (f : Fmt) (w : Nat) (s : State), s.vxeIn u (.vxeCmpEq u a) r f →
        f.isWideFp = false →
        f.int? = some w →
        VxeDone (.vxeCmpEq u a) u s (.ok ((r.setM (a.vd.val % 4) (BitVec.ofNat 2048 (mMap (r.active a.men a.msel)
      (fun i => intCmp .eq w (vElem f (r.vreg a.vs1) i) (r.opB a f i)) (min r.vl f.vlmax) 0 (r.mreg (a.vd.val % 4)).toNat))).orFlags
      (orFlagsOf (r.active a.men a.msel) (fun _ => 0) (min r.vl f.vlmax))))) ∧
  (∀ (u : Unit36) (a : VArgs) (r : VxeRegs) (f : Fmt) (g : FpFmt) (s : State), s.vxeIn u (.vxeCmpLt u a) r f →
        f.isWideFp = true →
        f.fp? = some g →
        VxeDone (.vxeCmpLt u a) u s ((fun res : Nat → Bool × Nat => .ok ((r.setM (a.vd.val % 4) (BitVec.ofNat 2048 (mMap (r.active a.men a.msel)
      (fun i => (res i).1) (min r.vl f.vlmax) 0 (r.mreg (a.vd.val % 4)).toNat))).orFlags
      (orFlagsOf (r.active a.men a.msel) (fun i => (res i).2) (min r.vl f.vlmax)))) fun i =>
        fpCmp .lt g (vElem f (r.vreg a.vs1) i) (r.opB a f i))) ∧
  (∀ (u : Unit36) (a : VArgs) (r : VxeRegs) (f : Fmt) (w : Nat) (s : State), s.vxeIn u (.vxeCmpLt u a) r f →
        f.isWideFp = false →
        f.int? = some w →
        VxeDone (.vxeCmpLt u a) u s (.ok ((r.setM (a.vd.val % 4) (BitVec.ofNat 2048 (mMap (r.active a.men a.msel)
      (fun i => intCmp .lt w (vElem f (r.vreg a.vs1) i) (r.opB a f i)) (min r.vl f.vlmax) 0 (r.mreg (a.vd.val % 4)).toNat))).orFlags
      (orFlagsOf (r.active a.men a.msel) (fun _ => 0) (min r.vl f.vlmax))))) ∧
  (∀ (u : Unit36) (a : VArgs) (r : VxeRegs) (f : Fmt) (g : FpFmt) (s : State), s.vxeIn u (.vxeCmpLe u a) r f →
        f.isWideFp = true →
        f.fp? = some g →
        VxeDone (.vxeCmpLe u a) u s ((fun res : Nat → Bool × Nat => .ok ((r.setM (a.vd.val % 4) (BitVec.ofNat 2048 (mMap (r.active a.men a.msel)
      (fun i => (res i).1) (min r.vl f.vlmax) 0 (r.mreg (a.vd.val % 4)).toNat))).orFlags
      (orFlagsOf (r.active a.men a.msel) (fun i => (res i).2) (min r.vl f.vlmax)))) fun i =>
        fpCmp .le g (vElem f (r.vreg a.vs1) i) (r.opB a f i))) ∧
  (∀ (u : Unit36) (a : VArgs) (r : VxeRegs) (f : Fmt) (w : Nat) (s : State), s.vxeIn u (.vxeCmpLe u a) r f →
        f.isWideFp = false →
        f.int? = some w →
        VxeDone (.vxeCmpLe u a) u s (.ok ((r.setM (a.vd.val % 4) (BitVec.ofNat 2048 (mMap (r.active a.men a.msel)
      (fun i => intCmp .le w (vElem f (r.vreg a.vs1) i) (r.opB a f i)) (min r.vl f.vlmax) 0 (r.mreg (a.vd.val % 4)).toNat))).orFlags
      (orFlagsOf (r.active a.men a.msel) (fun _ => 0) (min r.vl f.vlmax))))) ∧
  (∀ (u : Unit36) (a : VArgs) (r : VxeRegs) (f : Fmt) (g : FpFmt) (s : State), s.vxeIn u (.vxeCmpUn u a) r f →
        f.isWideFp = true →
        f.fp? = some g →
        VxeDone (.vxeCmpUn u a) u s ((fun res : Nat → Bool × Nat => .ok ((r.setM (a.vd.val % 4) (BitVec.ofNat 2048 (mMap (r.active a.men a.msel)
      (fun i => (res i).1) (min r.vl f.vlmax) 0 (r.mreg (a.vd.val % 4)).toNat))).orFlags
      (orFlagsOf (r.active a.men a.msel) (fun i => (res i).2) (min r.vl f.vlmax)))) fun i =>
        fpCmp .un g (vElem f (r.vreg a.vs1) i) (r.opB a f i))) ∧
  (∀ (u : Unit36) (a : VArgs) (r : VxeRegs) (f : Fmt) (w : Nat) (s : State), s.vxeIn u (.vxeCmpUn u a) r f →
        f.isWideFp = false →
        f.int? = some w →
        VxeDone (.vxeCmpUn u a) u s (.ok ((r.setM (a.vd.val % 4) (BitVec.ofNat 2048 (mMap (r.active a.men a.msel)
      (fun i => intCmp .un w (vElem f (r.vreg a.vs1) i) (r.opB a f i)) (min r.vl f.vlmax) 0 (r.mreg (a.vd.val % 4)).toNat))).orFlags
      (orFlagsOf (r.active a.men a.msel) (fun _ => 0) (min r.vl f.vlmax))))) ∧
  (∀ (u : Unit36) (a : VArgs) (r : VxeRegs) (f : Fmt) (g : FpFmt) (s : State), s.vxeIn u (.vxeCmpNe u a) r f →
        f.isWideFp = true →
        f.fp? = some g →
        VxeDone (.vxeCmpNe u a) u s ((fun res : Nat → Bool × Nat => .ok ((r.setM (a.vd.val % 4) (BitVec.ofNat 2048 (mMap (r.active a.men a.msel)
      (fun i => (res i).1) (min r.vl f.vlmax) 0 (r.mreg (a.vd.val % 4)).toNat))).orFlags
      (orFlagsOf (r.active a.men a.msel) (fun i => (res i).2) (min r.vl f.vlmax)))) fun i =>
        fpCmp .ne g (vElem f (r.vreg a.vs1) i) (r.opB a f i))) ∧
  (∀ (u : Unit36) (a : VArgs) (r : VxeRegs) (f : Fmt) (w : Nat) (s : State), s.vxeIn u (.vxeCmpNe u a) r f →
        f.isWideFp = false →
        f.int? = some w →
        VxeDone (.vxeCmpNe u a) u s (.ok ((r.setM (a.vd.val % 4) (BitVec.ofNat 2048 (mMap (r.active a.men a.msel)
      (fun i => intCmp .ne w (vElem f (r.vreg a.vs1) i) (r.opB a f i)) (min r.vl f.vlmax) 0 (r.mreg (a.vd.val % 4)).toNat))).orFlags
      (orFlagsOf (r.active a.men a.msel) (fun _ => 0) (min r.vl f.vlmax)))))

/-- Vector reductions complete with their results. Where the vector engine may issue, VFMT names a format that the
reduction takes and VL is not 0, each reduction completes: the tree over VLMAX leaves, inactive ones at the
identity, gives element 0 of VD; REPAMAX reports to the amax unit under VTID. (09_vector_engine.md R195;
09_vector_engine.md R200) -/
def Obligations.VectorReductionsComplete : Prop :=
  (∀ (u : Unit36) (a : VArgs) (r : VxeRegs) (f : Fmt) (g : FpFmt) (s : State), s.vxeIn u (.vxeRedSum u a) r f →
        f.isWideFp = true →
        f.fp? = some g →
        min r.vl f.vlmax ≠ 0 →
        VxeDone (.vxeRedSum u a) u s (.ok (redWrite r f a.vd (redTree (fun x y => fpAdd g (r.mode a.rm.toNat) false x y) 12 (redLeaves (r.active a.men a.msel) (min r.vl f.vlmax) f.vlmax
      (fun i => vElem f (r.vreg a.vs1) i) (negZero g)) 0)))) ∧
  (∀ (u : Unit36) (a : VArgs) (r : VxeRegs) (f : Fmt) (w : Nat) (s : State), s.vxeIn u (.vxeRedSum u a) r f →
        f.isWideFp = false →
        f.int? = some w →
        min r.vl f.vlmax ≠ 0 →
        VxeDone (.vxeRedSum u a) u s (.ok (redWrite r f a.vd (redTree (fun x y => { enc := (x + y) % 2 ^ w }) 12 (redLeaves (r.active a.men a.msel) (min r.vl f.vlmax) f.vlmax
      (fun i => vElem f (r.vreg a.vs1) i) (0)) 0)))) ∧
  (∀ (u : Unit36) (a : VArgs) (r : VxeRegs) (f : Fmt) (g : FpFmt) (s : State), s.vxeIn u (.vxeRedMin u a) r f →
        f.isWideFp = true →
        f.fp? = some g →
        min r.vl f.vlmax ≠ 0 →
        VxeDone (.vxeRedMin u a) u s (.ok (redWrite r f a.vd (redTree (fun x y => fpMinMax g false true x y) 12 (redLeaves (r.active a.men a.msel) (min r.vl f.vlmax) f.vlmax
      (fun i => vElem f (r.vreg a.vs1) i) (g.infEnc)) 0)))) ∧
  (∀ (u : Unit36) (a : VArgs) (r : VxeRegs) (f : Fmt) (w : Nat) (s : State), s.vxeIn u (.vxeRedMin u a) r f →
        f.isWideFp = false →
        f.int? = some w →
        min r.vl f.vlmax ≠ 0 →
        VxeDone (.vxeRedMin u a) u s (.ok (redWrite r f a.vd (redTree (fun x y => { enc := if sLess w y x then y else x }) 12 (redLeaves (r.active a.men a.msel) (min r.vl f.vlmax) f.vlmax
      (fun i => vElem f (r.vreg a.vs1) i) (2 ^ (w - 1) - 1)) 0)))) ∧
  (∀ (u : Unit36) (a : VArgs) (r : VxeRegs) (f : Fmt) (g : FpFmt) (s : State), s.vxeIn u (.vxeRedMax u a) r f →
        f.isWideFp = true →
        f.fp? = some g →
        min r.vl f.vlmax ≠ 0 →
        VxeDone (.vxeRedMax u a) u s (.ok (redWrite r f a.vd (redTree (fun x y => fpMinMax g true true x y) 12 (redLeaves (r.active a.men a.msel) (min r.vl f.vlmax) f.vlmax
      (fun i => vElem f (r.vreg a.vs1) i) (g.signBit true + g.infEnc)) 0)))) ∧
  (∀ (u : Unit36) (a : VArgs) (r : VxeRegs) (f : Fmt) (w : Nat) (s : State), s.vxeIn u (.vxeRedMax u a) r f →
        f.isWideFp = false →
        f.int? = some w →
        min r.vl f.vlmax ≠ 0 →
        VxeDone (.vxeRedMax u a) u s (.ok (redWrite r f a.vd (redTree (fun x y => { enc := if sLess w x y then y else x }) 12 (redLeaves (r.active a.men a.msel) (min r.vl f.vlmax) f.vlmax
      (fun i => vElem f (r.vreg a.vs1) i) (2 ^ (w - 1))) 0)))) ∧
  (∀ (u : Unit36) (a : VArgs) (r : VxeRegs) (f : Fmt) (g : FpFmt) (s : State), s.vxeIn u (.vxeRedAmax u a) r f →
        f.isWideFp = true →
        f.fp? = some g →
        min r.vl f.vlmax ≠ 0 →
        VxeDone (.vxeRedAmax u a) u s (.ok (redWrite r f a.vd (redTree (fun x y => fpMinMax g true true x y) 12 (redLeaves (r.active a.men a.msel) (min r.vl f.vlmax) f.vlmax
      (fun i => vElem f (r.vreg a.vs1) i % fpTop g) (0)) 0)))) ∧
  (∀ (u : Unit36) (a : VArgs) (r : VxeRegs) (f : Fmt) (g : FpFmt) (s : State), s.vxeIn u (.vxeRedSumw u a) r f →
        (f = .fp16 ∨ f = .bf16) →
        f.fp? = some g →
        min r.vl (min f.vlmax Fmt.fp32.vlmax) ≠ 0 →
        VxeDone (.vxeRedSumw u a) u s (.ok ((fun (wide : Nat → Rounded) (t : Nat × Nat) =>
      redWrite r .fp32 a.vd (t.1, t.2 ||| orFlagsOf (r.active a.men a.msel) (fun i => (wide i).flags) (min r.vl (min f.vlmax Fmt.fp32.vlmax))))
    (fun i => roundOp fp32L .rne (g.decode (vElem f (r.vreg a.vs1) i)).isSnan (g.decode (vElem f (r.vreg a.vs1) i)))
    (redTree (fun x y => fpAdd fp32L (r.mode a.rm.toNat) false x y) 12 (redLeaves (r.active a.men a.msel)
      (min r.vl (min f.vlmax Fmt.fp32.vlmax)) f.vlmax (fun i => (roundOp fp32L .rne
        (g.decode (vElem f (r.vreg a.vs1) i)).isSnan (g.decode (vElem f (r.vreg a.vs1) i))).enc) (negZero fp32L)) 0)))) ∧
  (∀ (u : Unit36) (a : VArgs) (r : VxeRegs) (f : Fmt) (g : FpFmt) (s : State), s.vxeIn u (.vxeRedRepamax u a) r f →
        f.isWideFp = true →
        f.fp? = some g →
        min r.vl f.vlmax ≠ 0 →
        r.vtid ≠ 0xFFFFFFFF →
        exec (.vxeRedRepamax u a) s = .next ((s.reportAmax u.die u.bay r.vtid (amaxFp32 (g.decode (redTree (fun x y => fpMinMax g true true x y) 12
      (redLeaves (r.active a.men a.msel) (min r.vl f.vlmax) f.vlmax (fun i => (fun x => match g.decode x with
        | .fin _ _ _ => x % fpTop g
        | _ => 0) (vElem f (r.vreg a.vs1) i)) 0) 0).1))).vxeNext u.die u.bay r))

/-- Vector configuration, flag and register moves complete with their results. Where the vector engine may issue, the
configuration and flag instructions and the moves between vector and scalar registers complete with the values that
Table 9-4 gives; a write of S0 leaves the registers as they were. (09_vector_engine.md R186; 09_vector_engine.md
R192; 09_vector_engine.md R194) -/
def Obligations.VectorConfigurationCompletes : Prop :=
  (∀ (u : Unit36) (a : SArgs) (r : VxeRegs) (f : Fmt) (s : State), s.vxeAt u (.vxeSetvl u a) = true →
        r = (s.vxeOf u.die u.bay).regs →
        Fmt.ofCode (a.imm.toNat % 16) = some f →
        exec (.vxeSetvl u a) s = .next (s.vxeNext u.die u.bay ({ r with vfmt := a.imm.toNat % 16, vl := min (r.sreg a.sy).toNat f.vlmax }.setS a.sx
        (BitVec.ofNat 64 (min (r.sreg a.sy).toNat f.vlmax))))) ∧
  (∀ (u : Unit36) (a : SArgs) (r : VxeRegs) (s : State), s.vxeAt u (.vxeSettid u a) = true →
        r = (s.vxeOf u.die u.bay).regs →
        exec (.vxeSettid u a) s = .next (s.vxeNext u.die u.bay ({ r with vtid := (r.sreg a.sy).toNat % 2 ^ 32 }))) ∧
  (∀ (u : Unit36) (a : SArgs) (r : VxeRegs) (s : State), s.vxeAt u (.vxeSetidx u a) = true →
        r = (s.vxeOf u.die u.bay).regs →
        exec (.vxeSetidx u a) s = .next (s.vxeNext u.die u.bay ({ r with vidx := r.sreg a.sy }))) ∧
  (∀ (u : Unit36) (a : SArgs) (r : VxeRegs) (s : State), s.vxeAt u (.vxeAddidx u a) = true →
        r = (s.vxeOf u.die u.bay).regs →
        exec (.vxeAddidx u a) s = .next (s.vxeNext u.die u.bay ({ r with vidx := r.vidx + r.sreg a.sy }))) ∧
  (∀ (u : Unit36) (a : SArgs) (r : VxeRegs) (s : State), s.vxeAt u (.vxeSetscl u a) = true →
        r = (s.vxeOf u.die u.bay).regs →
        exec (.vxeSetscl u a) s = .next (s.vxeNext u.die u.bay ({ r with vscale := (r.sreg a.sy).toNat % 65536 }))) ∧
  (∀ (u : Unit36) (a : SArgs) (r : VxeRegs) (s : State), s.vxeAt u (.vxeSetblk u a) = true →
        r = (s.vxeOf u.die u.bay).regs →
        exec (.vxeSetblk u a) s = .next (s.vxeNext u.die u.bay ({ r with vblk := a.imm.toNat % 4 }))) ∧
  (∀ (u : Unit36) (a : SArgs) (r : VxeRegs) (s : State), s.vxeAt u (.vxeSetrm u a) = true →
        r = (s.vxeOf u.die u.bay).regs →
        a.imm.toNat % 8 ≤ 4 →
        exec (.vxeSetrm u a) s = .next (s.vxeNext u.die u.bay ({ r with vrm := a.imm.toNat % 8 }))) ∧
  (∀ (u : Unit36) (a : SArgs) (r : VxeRegs) (s : State), s.vxeAt u (.vxeRdflg u a) = true →
        r = (s.vxeOf u.die u.bay).regs →
        exec (.vxeRdflg u a) s = .next (s.vxeNext u.die u.bay (r.setS a.sx (BitVec.ofNat 64 r.vflags)))) ∧
  (∀ (u : Unit36) (a : SArgs) (r : VxeRegs) (s : State), s.vxeAt u (.vxeClrflg u a) = true →
        r = (s.vxeOf u.die u.bay).regs →
        exec (.vxeClrflg u a) s = .next (s.vxeNext u.die u.bay ({ r with vflags := 0 }))) ∧
  (∀ (u : Unit36) (a : SArgs) (r : VxeRegs) (s : State), s.vxeAt u (.vxeRdvl u a) = true →
        r = (s.vxeOf u.die u.bay).regs →
        exec (.vxeRdvl u a) s = .next (s.vxeNext u.die u.bay (r.setS a.sx (BitVec.ofNat 64 r.vl)))) ∧
  (∀ (u : Unit36) (a : SArgs) (r : VxeRegs) (f : Fmt) (s : State), s.vxeAt u (.vxeVtos u a) = true →
        r = (s.vxeOf u.die u.bay).regs →
        r.fmt = some f →
        exec (.vxeVtos u a) s = .next (s.vxeNext u.die u.bay (r.setS a.sx (BitVec.ofNat 64 (vElem f (r.vreg (a.imm.toNat % 32)) 0))))) ∧
  (∀ (u : Unit36) (a : SArgs) (r : VxeRegs) (f : Fmt) (s : State), s.vxeAt u (.vxeStov u a) = true →
        r = (s.vxeOf u.die u.bay).regs →
        r.fmt = some f →
        exec (.vxeStov u a) s = .next (s.vxeNext u.die u.bay (r.setV (a.imm.toNat % 32) (BitVec.ofNat 16384 (vPut f (r.vreg (a.imm.toNat % 32)).toNat 0 (r.sreg a.sy).toNat)))))

/-- Mask and scalar instructions complete with their results. Where the vector engine may issue, the mask instructions
of class 8 act on all 2,048 bits and the scalar instructions of class 9 act on 64 bits, wrapping, and both complete.
(09_vector_engine.md R192) -/
def Obligations.VectorScalarCompletes : Prop :=
  (∀ (u : Unit36) (a : MArgs) (r : VxeRegs) (s : State), s.vxeAt u (.vxeMskAnd u a) = true →
        r = (s.vxeOf u.die u.bay).regs →
        exec (.vxeMskAnd u a) s = .next (s.vxeNext u.die u.bay (r.setM a.md (r.mreg a.ms1 &&& r.mreg a.ms2)))) ∧
  (∀ (u : Unit36) (a : MArgs) (r : VxeRegs) (s : State), s.vxeAt u (.vxeMskOr u a) = true →
        r = (s.vxeOf u.die u.bay).regs →
        exec (.vxeMskOr u a) s = .next (s.vxeNext u.die u.bay (r.setM a.md (r.mreg a.ms1 ||| r.mreg a.ms2)))) ∧
  (∀ (u : Unit36) (a : MArgs) (r : VxeRegs) (s : State), s.vxeAt u (.vxeMskXor u a) = true →
        r = (s.vxeOf u.die u.bay).regs →
        exec (.vxeMskXor u a) s = .next (s.vxeNext u.die u.bay (r.setM a.md (r.mreg a.ms1 ^^^ r.mreg a.ms2)))) ∧
  (∀ (u : Unit36) (a : MArgs) (r : VxeRegs) (s : State), s.vxeAt u (.vxeMskAndn u a) = true →
        r = (s.vxeOf u.die u.bay).regs →
        exec (.vxeMskAndn u a) s = .next (s.vxeNext u.die u.bay (r.setM a.md (r.mreg a.ms1 &&& ~~~r.mreg a.ms2)))) ∧
  (∀ (u : Unit36) (a : MArgs) (r : VxeRegs) (s : State), s.vxeAt u (.vxeMskNot u a) = true →
        r = (s.vxeOf u.die u.bay).regs →
        exec (.vxeMskNot u a) s = .next (s.vxeNext u.die u.bay (r.setM a.md (~~~r.mreg a.ms1)))) ∧
  (∀ (u : Unit36) (a : MArgs) (r : VxeRegs) (s : State), s.vxeAt u (.vxeMskSet u a) = true →
        r = (s.vxeOf u.die u.bay).regs →
        exec (.vxeMskSet u a) s = .next (s.vxeNext u.die u.bay (r.setM a.md (BitVec.allOnes 2048)))) ∧
  (∀ (u : Unit36) (a : MArgs) (r : VxeRegs) (s : State), s.vxeAt u (.vxeMskClr u a) = true →
        r = (s.vxeOf u.die u.bay).regs →
        exec (.vxeMskClr u a) s = .next (s.vxeNext u.die u.bay (r.setM a.md (0)))) ∧
  (∀ (u : Unit36) (a : SArgs) (r : VxeRegs) (s : State), s.vxeAt u (.vxeSclAddi u a) = true →
        r = (s.vxeOf u.die u.bay).regs →
        exec (.vxeSclAddi u a) s = .next (s.vxeNext u.die u.bay (r.setS a.sx (r.sreg a.sy + a.imm.signExtend 64)))) ∧
  (∀ (u : Unit36) (a : SArgs) (r : VxeRegs) (s : State), s.vxeAt u (.vxeSclAdd u a) = true →
        r = (s.vxeOf u.die u.bay).regs →
        exec (.vxeSclAdd u a) s = .next (s.vxeNext u.die u.bay (r.setS a.sx (r.sreg a.sy + r.sreg (sArgsZ a))))) ∧
  (∀ (u : Unit36) (a : SArgs) (r : VxeRegs) (s : State), s.vxeAt u (.vxeSclSub u a) = true →
        r = (s.vxeOf u.die u.bay).regs →
        exec (.vxeSclSub u a) s = .next (s.vxeNext u.die u.bay (r.setS a.sx (r.sreg a.sy - r.sreg (sArgsZ a))))) ∧
  (∀ (u : Unit36) (a : SArgs) (r : VxeRegs) (s : State), s.vxeAt u (.vxeSclAnd u a) = true →
        r = (s.vxeOf u.die u.bay).regs →
        exec (.vxeSclAnd u a) s = .next (s.vxeNext u.die u.bay (r.setS a.sx (r.sreg a.sy &&& r.sreg (sArgsZ a))))) ∧
  (∀ (u : Unit36) (a : SArgs) (r : VxeRegs) (s : State), s.vxeAt u (.vxeSclOr u a) = true →
        r = (s.vxeOf u.die u.bay).regs →
        exec (.vxeSclOr u a) s = .next (s.vxeNext u.die u.bay (r.setS a.sx (r.sreg a.sy ||| r.sreg (sArgsZ a))))) ∧
  (∀ (u : Unit36) (a : SArgs) (r : VxeRegs) (s : State), s.vxeAt u (.vxeSclXor u a) = true →
        r = (s.vxeOf u.die u.bay).regs →
        exec (.vxeSclXor u a) s = .next (s.vxeNext u.die u.bay (r.setS a.sx (r.sreg a.sy ^^^ r.sreg (sArgsZ a))))) ∧
  (∀ (u : Unit36) (a : SArgs) (r : VxeRegs) (s : State), s.vxeAt u (.vxeSclMul u a) = true →
        r = (s.vxeOf u.die u.bay).regs →
        exec (.vxeSclMul u a) s = .next (s.vxeNext u.die u.bay (r.setS a.sx (r.sreg a.sy * r.sreg (sArgsZ a))))) ∧
  (∀ (u : Unit36) (a : SArgs) (r : VxeRegs) (s : State), s.vxeAt u (.vxeSclSlli u a) = true →
        r = (s.vxeOf u.die u.bay).regs →
        exec (.vxeSclSlli u a) s = .next (s.vxeNext u.die u.bay (r.setS a.sx (r.sreg a.sy <<< (a.imm.toNat % 64))))) ∧
  (∀ (u : Unit36) (a : SArgs) (r : VxeRegs) (s : State), s.vxeAt u (.vxeSclSrli u a) = true →
        r = (s.vxeOf u.die u.bay).regs →
        exec (.vxeSclSrli u a) s = .next (s.vxeNext u.die u.bay (r.setS a.sx (r.sreg a.sy >>> (a.imm.toNat % 64))))) ∧
  (∀ (u : Unit36) (a : SArgs) (r : VxeRegs) (s : State), s.vxeAt u (.vxeSclSrai u a) = true →
        r = (s.vxeOf u.die u.bay).regs →
        exec (.vxeSclSrai u a) s = .next (s.vxeNext u.die u.bay (r.setS a.sx ((r.sreg a.sy).sshiftRight (a.imm.toNat % 64))))) ∧
  (∀ (u : Unit36) (a : SArgs) (r : VxeRegs) (s : State), s.vxeAt u (.vxeSclLih u a) = true →
        r = (s.vxeOf u.die u.bay).regs →
        exec (.vxeSclLih u a) s = .next (s.vxeNext u.die u.bay (r.setS a.sx ((r.sreg a.sx <<< 15) ||| a.imm.setWidth 64))))

/-- Vector branches complete with the program counter they name. Where the vector engine may issue, a branch that is
taken sets PC to its own index plus IMM sign-extended, in 16 bits, one that is not taken goes on to the next
instruction, and nothing else of the vector registers changes. (09_vector_engine.md R192) -/
def Obligations.VectorBranchesComplete : Prop :=
  (∀ (u : Unit36) (a : SArgs) (v : Vxe) (r : VxeRegs) (s : State), s.vxeAt u (.vxeBeq u a) = true →
        v = s.vxeOf u.die u.bay →
        r = v.regs →
        r.sreg a.sx = r.sreg a.sy →
        exec (.vxeBeq u a) s = .next (((s.setVxe u.die u.bay { v with regs := { r with pc := (((r.pc : Int) + a.imm.toInt) % 65536).toNat } }).incF u.die (pgVxe u.bay) 0x090 0 64 1).progress u.die u.bay)) ∧
  (∀ (u : Unit36) (a : SArgs) (v : Vxe) (r : VxeRegs) (s : State), s.vxeAt u (.vxeBeq u a) = true →
        v = s.vxeOf u.die u.bay →
        r = v.regs →
        r.sreg a.sx ≠ r.sreg a.sy →
        exec (.vxeBeq u a) s = .next (((s.setVxe u.die u.bay { v with regs := { r with pc := (r.pc + 1) % 65536 } }).incF u.die (pgVxe u.bay) 0x090 0 64 1).progress u.die u.bay)) ∧
  (∀ (u : Unit36) (a : SArgs) (v : Vxe) (r : VxeRegs) (s : State), s.vxeAt u (.vxeBne u a) = true →
        v = s.vxeOf u.die u.bay →
        r = v.regs →
        r.sreg a.sx ≠ r.sreg a.sy →
        exec (.vxeBne u a) s = .next (((s.setVxe u.die u.bay { v with regs := { r with pc := (((r.pc : Int) + a.imm.toInt) % 65536).toNat } }).incF u.die (pgVxe u.bay) 0x090 0 64 1).progress u.die u.bay)) ∧
  (∀ (u : Unit36) (a : SArgs) (v : Vxe) (r : VxeRegs) (s : State), s.vxeAt u (.vxeBne u a) = true →
        v = s.vxeOf u.die u.bay →
        r = v.regs →
        r.sreg a.sx = r.sreg a.sy →
        exec (.vxeBne u a) s = .next (((s.setVxe u.die u.bay { v with regs := { r with pc := (r.pc + 1) % 65536 } }).incF u.die (pgVxe u.bay) 0x090 0 64 1).progress u.die u.bay)) ∧
  (∀ (u : Unit36) (a : SArgs) (v : Vxe) (r : VxeRegs) (s : State), s.vxeAt u (.vxeBlt u a) = true →
        v = s.vxeOf u.die u.bay →
        r = v.regs →
        (r.sreg a.sx).toInt < (r.sreg a.sy).toInt →
        exec (.vxeBlt u a) s = .next (((s.setVxe u.die u.bay { v with regs := { r with pc := (((r.pc : Int) + a.imm.toInt) % 65536).toNat } }).incF u.die (pgVxe u.bay) 0x090 0 64 1).progress u.die u.bay)) ∧
  (∀ (u : Unit36) (a : SArgs) (v : Vxe) (r : VxeRegs) (s : State), s.vxeAt u (.vxeBlt u a) = true →
        v = s.vxeOf u.die u.bay →
        r = v.regs →
        (r.sreg a.sy).toInt ≤ (r.sreg a.sx).toInt →
        exec (.vxeBlt u a) s = .next (((s.setVxe u.die u.bay { v with regs := { r with pc := (r.pc + 1) % 65536 } }).incF u.die (pgVxe u.bay) 0x090 0 64 1).progress u.die u.bay)) ∧
  (∀ (u : Unit36) (a : SArgs) (v : Vxe) (r : VxeRegs) (s : State), s.vxeAt u (.vxeBge u a) = true →
        v = s.vxeOf u.die u.bay →
        r = v.regs →
        (r.sreg a.sy).toInt ≤ (r.sreg a.sx).toInt →
        exec (.vxeBge u a) s = .next (((s.setVxe u.die u.bay { v with regs := { r with pc := (((r.pc : Int) + a.imm.toInt) % 65536).toNat } }).incF u.die (pgVxe u.bay) 0x090 0 64 1).progress u.die u.bay)) ∧
  (∀ (u : Unit36) (a : SArgs) (v : Vxe) (r : VxeRegs) (s : State), s.vxeAt u (.vxeBge u a) = true →
        v = s.vxeOf u.die u.bay →
        r = v.regs →
        (r.sreg a.sx).toInt < (r.sreg a.sy).toInt →
        exec (.vxeBge u a) s = .next (((s.setVxe u.die u.bay { v with regs := { r with pc := (r.pc + 1) % 65536 } }).incF u.die (pgVxe u.bay) 0x090 0 64 1).progress u.die u.bay)) ∧
  (∀ (u : Unit36) (a : SArgs) (v : Vxe) (r : VxeRegs) (s : State), s.vxeAt u (.vxeBltu u a) = true →
        v = s.vxeOf u.die u.bay →
        r = v.regs →
        (r.sreg a.sx).toNat < (r.sreg a.sy).toNat →
        exec (.vxeBltu u a) s = .next (((s.setVxe u.die u.bay { v with regs := { r with pc := (((r.pc : Int) + a.imm.toInt) % 65536).toNat } }).incF u.die (pgVxe u.bay) 0x090 0 64 1).progress u.die u.bay)) ∧
  (∀ (u : Unit36) (a : SArgs) (v : Vxe) (r : VxeRegs) (s : State), s.vxeAt u (.vxeBltu u a) = true →
        v = s.vxeOf u.die u.bay →
        r = v.regs →
        (r.sreg a.sy).toNat ≤ (r.sreg a.sx).toNat →
        exec (.vxeBltu u a) s = .next (((s.setVxe u.die u.bay { v with regs := { r with pc := (r.pc + 1) % 65536 } }).incF u.die (pgVxe u.bay) 0x090 0 64 1).progress u.die u.bay)) ∧
  (∀ (u : Unit36) (a : SArgs) (v : Vxe) (r : VxeRegs) (s : State), s.vxeAt u (.vxeJmp u a) = true →
        v = s.vxeOf u.die u.bay →
        r = v.regs →
        exec (.vxeJmp u a) s = .next (((s.setVxe u.die u.bay { v with regs := { r with pc := (((r.pc : Int) + a.imm.toInt) % 65536).toNat } }).incF u.die (pgVxe u.bay) 0x090 0 64 1).progress u.die u.bay))

/-- Conversions, loads, stores, synchronisation and the end of a vector program complete. Where the vector engine may
issue and no fault of R208 applies, CVT, LOAD, STORE, WAIT, SIGNAL, SEMWAIT, SEMADD and END complete and the
statement gives the state that they leave; a parity error of the register file is counted and the program runs on.
(09_vector_engine.md R196; 09_vector_engine.md R200; 09_vector_engine.md R201; 09_vector_engine.md R203;
09_vector_engine.md R205; 09_vector_engine.md R209; 09_vector_engine.md R210) -/
def Obligations.VectorMemoryAndSyncComplete : Prop :=
  (∀ (u : Unit36) (a : CvtArgs) (r : VxeRegs) (d f : Fmt) (s : State), s.vxeAt u (.vxeCvt u a) = true →
        r = (s.vxeOf u.die u.bay).regs →
        Fmt.ofCode a.dfmt.toNat = some d →
        Fmt.ofCode a.sfmt.toNat = some f →
        cvtForm a = true →
        (¬((if a.rm.toNat = 6 then r.vrm else a.rm.toNat) = 5 ∧ f.width ≤ d.width)) →
        ∃ o, vCvt r a s.jobSeed s.stepCur (s.principalOf r.vtid).isSome = .inr o ∧
      exec (.vxeCvt u a) s = .next ((s.reportConv u.die u.bay r.vtid o.evs o.amax).vxeNext u.die u.bay o.regs)) ∧
  (∀ (u : Unit36) (a : LsArgs) (r : VxeRegs) (f : Fmt) (n : Nat) (act : Nat → Bool) (place : Nat → Nat × Nat × Nat) (s : State), s.vxeAt u (.vxeLoad u a) = true →
        r = (s.vxeOf u.die u.bay).regs →
        lsCheck r a = .inr (f, n, act, place) →
        exec (.vxeLoad u a) s = .next (s.vxeNext u.die u.bay (r.setV a.vd (BitVec.ofNat 16384 (vMap f act
        (fun i => elemAt f (fun k => s.stg u.die u.bay k) (place i).1 (place i).2.1) n 0 (r.vreg a.vd).toNat))))) ∧
  (∀ (u : Unit36) (a : LsArgs) (r : VxeRegs) (f : Fmt) (n : Nat) (act : Nat → Bool) (place : Nat → Nat × Nat × Nat) (s : State), s.vxeAt u (.vxeStore u a) = true →
        r = (s.vxeOf u.die u.bay).regs →
        lsCheck r a = .inr (f, n, act, place) →
        exec (.vxeStore u a) s = .next (({ s with staging := (List.range n).foldl (fun t i => if act i then
        stgPut t (bayKey u.die u.bay * 2 ^ 23) f (place i) (vElem f (r.vreg a.vd) i) else t) s.staging } : State).vxeNext u.die u.bay r)) ∧
  (∀ (u : Unit36) (a : SArgs) (r : VxeRegs) (mask : Nat) (s : State), s.vxeAt u (.vxeWait u a) = true →
        r = (s.vxeOf u.die u.bay).regs →
        mask = (r.sreg a.sx).toNat % 2 ^ 32 →
        s.waitDone u.die u.bay mask = true →
        exec (.vxeWait u a) s = .next ((s.waitMarks u.die u.bay mask).vxeNext u.die u.bay r)) ∧
  (∀ (u : Unit36) (a : SArgs) (s : State), s.vxeAt u (.vxeSignal u a) = true →
        exec (.vxeSignal u a) s = .next ((s.signalGo u.die u.bay (a.imm.toNat % 32)).vxeNext u.die u.bay (s.vxeOf u.die u.bay).regs)) ∧
  (∀ (u : Unit36) (a : SArgs) (r : VxeRegs) (s : State), s.vxeAt u (.vxeSemwait u a) = true →
        r = (s.vxeOf u.die u.bay).regs →
        (r.sreg a.sx).toNat % 2 ^ 52 % 8 = 0 →
        exec (.vxeSemwait u a) s = .next (s.engineSem u.die u.bay true false ((r.sreg a.sx).toNat % 2 ^ 52) (r.sreg a.sy).toNat)) ∧
  (∀ (u : Unit36) (a : SArgs) (r : VxeRegs) (s : State), s.vxeAt u (.vxeSemadd u a) = true →
        r = (s.vxeOf u.die u.bay).regs →
        (r.sreg a.sx).toNat % 2 ^ 52 % 8 = 0 →
        exec (.vxeSemadd u a) s = .next (s.engineSem u.die u.bay true true ((r.sreg a.sx).toNat % 2 ^ 52) (r.sreg a.sy).toNat)) ∧
  (∀ (u : Unit36) (a : SArgs) (v : Vxe) (t : State) (s : State), s.vxeAt u (.vxeEnd u a) = true →
        v = s.vxeOf u.die u.bay →
        t = s.wrF u.die (pgVxe u.bay) 0x088 0 5 (s.rdF u.die (pgVxe u.bay) 0x088 0 5 ||| v.regs.vflags % 32) →
        exec (.vxeEnd u a) s = .next ((((((t.wr u.die (pgVxe u.bay) 0x080 (t.vxeProg u.die u.bay)).incF u.die (pgVxe u.bay) 0x090 0 64 1).stalls
        u.die (pgVxe u.bay) [0x098, 0x0A0]).progress u.die u.bay).setVxe u.die u.bay v.nextProg).endCancel
        u.die u.bay)) ∧
  (∀ (d : Die) (b : Bay) (s : State), exec (.vxeRegParityError d b) s = .next ((((s.setErr d (pgVxe b) 10).histEvent 1 d b 2).noCertBay d b 6)))

/-- The stream commands complete. Where the slot of the stream unit stands as the command asks, each stream command
answers the next state that the statement gives: the arming, the delivery that is placed, the fault, the writes of
SLOTs_CTRL, the time-out and the end of a cancel. (10_streams.md R213; 10_streams.md R221; 10_streams.md R230;
10_streams.md R231; 10_streams.md R232; 10_streams.md R233; 10_streams.md R234; 10_streams.md R235) -/
def Obligations.StreamCommandsComplete : Prop :=
  (∀ (d : Die) (b : Bay) (sl : Slot) (ix : Nat) (q : StreamDesc) (u : State) (s : State), s.suReady d b = true →
        s.over d b sl = true →
        (s.slotOf d b sl).ended = false →
        s.nextStream d b sl = some (ix, q) →
        q.companion = false →
        q.isRearm = false →
        q.paired = false →
        u = s.partnerIdle d b sl →
        exec (.streamStart d b sl) s = .next ((u.setSlot d b sl ({ (s.slotOf d b sl).arm1 ix q with ring := q.ring } : SuSlot).takeUnits).pumpSlot d b sl)) ∧
  (∀ (d : Die) (b : Bay) (sl : Slot) (ix jx kx : Nat) (q r z : StreamDesc) (u v : State) (s : State), s.suReady d b = true →
        s.over d b sl = true →
        (s.slotOf d b sl).ended = false →
        s.nextStream d b sl = some (ix, q) →
        q.companion = false →
        q.isRearm = false →
        q.paired = true →
        s.mateReady d b (sl + 1) = true →
        u = s.partnerIdle d b sl →
        u.nextStream d b (sl + 1) = some (kx, z) →
        v = u.setSlot d b sl ({ (s.slotOf d b sl).arm1 ix q with ring := min q.ring z.ring } : SuSlot).takeUnits →
        v.nextStream d b (sl + 1) = some (jx, r) →
        exec (.streamStart d b sl) s = .next ((v.setSlot d b (sl + 1) (((v.slotOf d b (sl + 1)).arm1 jx r).follow (v.slotOf d b sl))).pumpSlot d b sl)) ∧
  (∀ (d : Die) (b : Bay) (sl : Slot) (x : SuSlot) (i j : Nat) (r q : StreamDesc) (s : State), x = s.slotOf d b sl →
        s.nextStream d b sl = some (i, r) →
        x.desc = some (j, q) →
        s.suReady d b = true →
        x.st = .done →
        x.ended = false →
        s.rearmNext d b sl = true →
        q.companion = false →
        q.paired = false →
        exec (.streamRearm d b sl) s = .next ((s.setSlot d b sl (x.rearm r).takeUnits).pumpSlot d b sl)) ∧
  (∀ (d : Die) (b : Bay) (sl : Slot) (x : SuSlot) (i i₂ j : Nat) (r r₂ q : StreamDesc) (v : State) (s : State), x = s.slotOf d b sl →
        s.nextStream d b sl = some (i, r) →
        x.desc = some (j, q) →
        s.suReady d b = true →
        x.st = .done →
        x.ended = false →
        s.rearmNext d b sl = true →
        q.companion = false →
        q.paired = true →
        s.nextStream d b (sl + 1) = some (i₂, r₂) →
        r₂.isRearm = true →
        v = s.setSlot d b sl (x.rearm r).takeUnits →
        exec (.streamRearm d b sl) s = .next ((v.setSlot d b (sl + 1) (((v.slotOf d b (sl + 1)).rearm r₂).follow (v.slotOf d b sl))).pumpSlot d b sl)) ∧
  (∀ (d : Die) (b : Bay) (sl : Slot) (x : SuSlot) (s : State), x = s.slotOf d b sl →
        SlotSt.active x.st = true →
        x.refetch = false →
        x.desc.isSome = true →
        x.last ≤ x.nDone →
        x.isCompanion = false →
        exec (.streamArmingDone d b sl) s = .next ((s.setPair d b sl { x with st := .done }).endSlotTracks d b sl)) ∧
  (∀ (d : Die) (b : Bay) (sl : Slot) (x : SuSlot) (ix : Nat) (q : StreamDesc) (c : Option (SuSlot × StreamDesc)) (ps : List Nat) (pages : List Nat) (tr : State × Tab Nat) (m : Move) (t : State) (s : State), s.blkIs d (pgSu b) 2 = true →
        t = (s.setSlot d b sl { s.slotOf d b sl with stuck := (s.slotOf d b sl).stuck && decide (0 < (s.slotOf d b sl).iss) }).pumpSlot d b sl →
        x = t.slotOf d b sl →
        x.desc = some (ix, q) →
        x.placeable q = true →
        c = t.companionOf d b sl q →
        ps = x.todo q x.nDone →
        pages = (t.spansAt x q c ps).pages q c →
        (tr = if x.nIss = x.nDone ∧ x.iss = 0 then t.translateAll d (t.bayCtx d b) (decide (q.dir = 1)) pages else (t, Tab.get [] x.pages x.nDone)) →
        ((pages.any fun g => (Tab.find tr.2 g).isNone) = false) →
        tr.1.moveOf d b x q c tr.2 ps = some m →
        tr.1.answered d b sl x m = true →
        tr.1.chunkHeld d m.dig = false →
        exec (.suDeliveryComplete d b sl) s = .next ((tr.1.placeMove d b sl x q m (fun u a v => u.streamWrite d b sl a v) fun u => u.deliveryDone d b sl x q m).pumpSlot d b sl)) ∧
  (∀ (d : Die) (b : Bay) (sl : Slot) (f : PageFault) (p cur pos : Nat) (ix jx : Nat) (q r : StreamDesc) (c : Option (SuSlot × StreamDesc)) (ps : List Nat) (map : Tab Nat) (x : SuSlot) (m : Move) (t : State) (s : State), p = s.primaryOf d b sl →
        (s.slotOf d b p).desc = some (ix, q) →
        (s.slotOf d b sl).desc = some (jx, r) →
        (pos = q.faultPos (if sl.val = p then none else some r) f.pos) →
        r.region = 0 →
        SlotSt.active (s.slotOf d b p).st = true →
        (s.slotOf d b p).refetch = false →
        (t = ((s.pumpSlot d b p).completeTo d b p (pos / max q.perDelivery 1 + (s.slotOf d b p).k0) (fun u a v => u.streamWrite d b sl a v)).pumpSlot d b p) →
        x = t.slotOf d b p →
        c = t.companionOf d b p q →
        ps = x.todo q x.nDone →
        map = Tab.get [] x.pages x.nDone →
        t.slotReady d b x = true →
        x.stuck = true →
        x.nIss = x.nDone →
        x.placeable q = true →
        f.write = decide (q.dir = 1) →
        (ps.find? (fun i => !(t.clearAt x q c map i)) = some pos) →
        t.missesAt x q c map pos f.va.toNat (decide (sl.val ≠ p)) = true →
        ((t.awaits d b p x.nDone fun _ => true) = false) →
        (cur = if q.dstScale = 2 then q.blockStart pos else pos) →
        t.moveOf d b x q c map (t.clearTo x q c map ps) = some m →
        exec (.slotPageFault d b sl f) s = .next (t.placeMove d b p x q m (fun u a v => u.streamWrite d b sl a v) fun u => (fun v : State => (if x.writes then v.settleWrites d b p x q cur (x.writeEnd q) else v).slotFaults d b sl p cur f
          ((if x.writes then v.settleWrites d b p x q cur (x.writeEnd q) else v).faultKind d b f))
        (u.setSlot d b p { x with part := ⟨x.part.nan + m.nan, x.part.inf + m.inf, x.part.ovf + m.ovf, max x.part.amax m.amax⟩ }))) ∧
  (∀ (d : Die) (b : Bay) (sl : Slot) (f : PageFault) (p pos n : Nat) (ix jx : Nat) (q r : StreamDesc) (y : SuSlot) (map : Tab Nat) (c : Option (SuSlot × StreamDesc)) (s : State), p = s.primaryOf d b sl →
        (s.slotOf d b p).desc = some (ix, q) →
        (s.slotOf d b sl).desc = some (jx, r) →
        (pos = q.faultPos (if sl.val = p then none else some r) f.pos) →
        r.region = 0 →
        SlotSt.active (s.slotOf d b p).st = true →
        (s.slotOf d b p).refetch = true →
        s.againMiss d b p q = some (n, y, map) →
        (c = (s.companionOf d b p q).map fun z => (z.1.inArming z.2 n, z.2)) →
        ((positions ((n - y.k0) * q.perDelivery) ((n - y.k0 + 1) * q.perDelivery)).find? (fun i => !(s.clearAt y q c map i)) = some pos) →
        s.missesAt y q c map pos f.va.toNat (decide (sl.val ≠ p)) = true →
        exec (.slotPageFault d b sl f) s = .next (s.slotFaults d b sl p (s.slotOf d b p).cursor f (s.faultKind d b f))) ∧
  (∀ (w : Writer) (d : Die) (b : Bay) (sl : Slot) (c : Committed) (s : State), c = s.write1 d (pgSu b) (0x108 + 64 * sl) w 1 →
        c.win.isSome = true →
        (c.s.slotOf d b (c.s.primaryOf d b sl)).st = .faulted →
        exec (.slotResume w d b sl) s = .next ((c.s.onPair d b (c.s.primaryOf d b sl) fun y => { y with st := .running, stuck := false }.settle).pumpSlot d b (c.s.primaryOf d b sl))) ∧
  (∀ (w : Writer) (d : Die) (b : Bay) (sl : Slot) (c : Committed) (s : State), c = s.write1 d (pgSu b) (0x108 + 64 * sl) w 2 →
        c.win.isSome = true →
        (c.s.slotOf d b (c.s.primaryOf d b sl)).st = .faulted →
        exec (.slotAbort w d b sl) s = .next (c.s.abortSlot d b (c.s.primaryOf d b sl) 1)) ∧
  (∀ (w : Writer) (d : Die) (b : Bay) (sl : Slot) (c : Committed) (s : State), c = s.write1 d (pgSu b) (0x108 + 64 * sl) w 4 →
        c.win.isSome = true →
        exec (.slotCancel w d b sl) s = .next (c.s.cancelSlot d b (c.s.primaryOf d b sl))) ∧
  (∀ (d : Die) (b : Bay) (sl : Slot) (p : Nat) (s : State), p = s.primaryOf d b sl →
        (s.slotOf d b p).st = .faulted →
        (s.slotOf d b p).faultTime + 1000000 * s.faultTimeout d b ≤ s.now d →
        exec (.slotFaultTimeout d b sl) s = .next (s.abortSlot d b p 4)) ∧
  (∀ (d : Die) (b : Bay) (sl : Slot) (p : Nat) (s : State), p = s.primaryOf d b sl →
        (s.slotOf d b p).st = .cancelling →
        ((s.ctx.tracks.any fun e => e.2.ofSlot d b p && e.2.remote) = false) →
        exec (.slotCancelComplete d b sl) s = .next (((s.settleSlot d b p).endSlotTracks d b p).onPair d b p fun x => { x with st := .idle, cancelDone := true, ended := true, owes := false, kept := [] }))

/-- The short path commands complete. A short-path transfer is refused, issued or queued as its size, its port and its
window say, and a queued transfer proceeds when the window lets it; each answers the next state that the statement
gives. (10_streams.md R240; 10_streams.md R241; 14_fabric_routing.md R325) -/
def Obligations.ShortPathCommandsComplete : Prop :=
  (∀ (p : SpPort) (t : SpTransfer) (s : State), s.spLive p t = true →
        spOk t = false →
        exec (.shortPathTransfer p t) s = .next (s.spRefused p t)) ∧
  (∀ (p : SpPort) (t : SpTransfer) (s : State), s.spLive p t = true →
        spOk t = true →
        (s.portOf p).waiting = [] →
        t.room = true →
        s.spReady p t = true →
        exec (.shortPathTransfer p t) s = .next (s.spIssue p t)) ∧
  (∀ (p : SpPort) (t : SpTransfer) (s : State), s.spLive p t = true →
        spOk t = true →
        (¬((s.portOf p).waiting = [] ∧ t.room = true ∧ s.spReady p t = true)) →
        (s.portOf p).waiting.length < 64 →
        exec (.shortPathTransfer p t) s = .next ((if t.room then s else s.spCount p 48 16).setPort p { s.portOf p with waiting := (s.portOf p).waiting ++ [t] })) ∧
  (∀ (p : SpPort) (t : SpTransfer) (ts : List SpTransfer) (s : State), (s.portOf p).waiting = t :: ts →
        s.spLive p t = true →
        s.spReady p t = true →
        exec (.shortPathWindow p) s = .next ((s.setPort p { s.portOf p with waiting := ts }).spIssue p t))

/-- Memory requests complete at their home. A request that its home takes completes: a read of stack memory without
uncorrectable data answers its bytes, a write stores its bytes and answers, a read of a register answers its value,
an ordered reduce adds its lines, and an atomic, a wait and a bell act as their rules say; the statement gives each
next state. (11_shared_cache_and_stacks.md R251; 11_shared_cache_and_stacks.md R257; 11_shared_cache_and_stacks.md
R258; 14_fabric_routing.md R314; 14_fabric_routing.md R328; 06_matrix_engine.md R130) -/
def Obligations.MemoryRequestsComplete : Prop :=
  (∀ (r x0 : Req) (len : Nat) (env : EccEnv) (t : State) (s : State), x0 = came r 0x01 none →
        s.takes x0 →
        1 ≤ len →
        len ≤ 256 →
        addrSpace x0.addr.toNat = 0 →
        stackPresent x0.addr.toNat len x0.w.origin = true →
        t = (((s.inTurn x0).countPacket x0 false).arise (addrKey x0.addr.toNat) env).touch (addrKey x0.addr.toNat) len →
        t.rangeBad (addrKey x0.addr.toNat) len = false →
        exec (.srd r len env) s = .next (t.answer x0 .ok (t.memRead (addrKey x0.addr.toNat) len))) ∧
  (∀ (r x0 : Req) (len : Nat) (env : EccEnv) (d pg off : Nat) (t : State) (s : State), x0 = came r 0x01 none →
        s.takes x0 →
        len = 8 →
        addrSpace x0.addr.toNat = 6 →
        t = (s.inTurn x0).countPacket x0 false →
        regPlace x0.addr.toNat = some (d, pg, off) →
        off % 8 = 0 →
        t.protAllows d pg (reqWriter x0).origin false = true →
        t.queueDenied d pg off (reqWriter x0) = false →
        (reqWriter x0).user = false →
        exec (.srd r len env) s = .next (t.answer x0 .ok (leBytes 8 (t.view d pg off)))) ∧
  (∀ (r x0 : Req) (data : List Byte) (env : EccEnv) (w : State × Bool) (s : State), x0 = came r 0x02 none →
        s.takes x0 →
        1 ≤ data.length →
        data.length ≤ 256 →
        addrSpace x0.addr.toNat = 0 →
        stackPresent x0.addr.toNat data.length x0.w.origin = true →
        w = ((s.inTurn x0).countPacket x0 false).memPut x0 data env →
        w.2 = true →
        exec (.swr r data env) s = .next (w.1.answer x0 .ok [])) ∧
  (∀ (r x0 : Req) (data : List Byte) (env : EccEnv) (d pg off : Nat) (q : WriteReq) (t : State) (s : State), x0 = came r 0x02 none →
        s.takes x0 →
        1 ≤ data.length →
        data.length ≤ 256 →
        addrSpace x0.addr.toNat = 6 →
        d = addrDie x0.addr.toNat →
        pg = addrOff x0.addr.toNat / 4096 →
        off = x0.addr.toNat % 4096 →
        q = ⟨reqWriter x0, BitVec.ofNat 64 (leNat data), data.length⟩ →
        t = (s.inTurn x0).countPacket x0 false →
        accessOk d pg off q = true →
        t.inReset d pg = false →
        t.mayWrite d pg off q = true →
        exec (.swr r data env) s = .next ((t.writeAll d pg off [q]).answer x0 .ok [])) ∧
  (∀ (r x0 : Req) (v : Word) (env : EccEnv) (s : State), x0 = came r 0x04 none →
        s.takes x0 →
        addrSpace x0.addr.toNat = 0 →
        stackPresent x0.addr.toNat 8 x0.w.origin = true →
        x0.addr.toNat % 8 = 0 →
        exec (.semwait r v env) s = .next ((((s.inTurn x0).countPacket x0 false).check (addrKey x0.addr.toNat) 8 env).placeWatch (addrDie x0.addr.toNat) ⟨x0, v, false⟩)) ∧
  (∀ (r x0 : Req) (f : RedFields) (data : List Byte) (env : EccEnv) (k : Nat) (t : State) (s : State), x0 = came r 0x12 f.flow →
        s.takes x0 true →
        ((f.flow.bind fun x => (s.inTurn x0).delivering x.toNat).filter (·.conf) = none) →
        dataLen data.length = true →
        k = addrKey x0.addr.toNat →
        k % 256 = 0 →
        f.count ≤ 512 →
        f.etype ≠ 3 →
        addrSpace x0.addr.toNat = 0 →
        stackPresent x0.addr.toNat data.length x0.w.origin = true →
        t = (s.inTurn x0).countPacket x0 f.flow.isSome →
        exec (.red r f data env) s = .next ((t.arise k env).redArrive x0 k f data)) ∧
  (∀ (r x0 : Req) (h : DataHdr) (len : Nat) (env : EccEnv) (t : State) (s : State), x0 = came r 0x10 h.flow →
        s.takes x0 true →
        dataLen len = true →
        addrSpace x0.addr.toNat = 0 →
        stackPresent x0.addr.toNat len x0.w.origin = true →
        t = (((s.inTurn x0).countPacket x0 h.flow.isSome).arise (addrKey x0.addr.toNat) env).touch (addrKey x0.addr.toNat) len →
        t.rangeBad (addrKey x0.addr.toNat) len = false →
        exec (.rd r h len env) s = .next (t.answer x0 .ok (t.memRead (addrKey x0.addr.toNat) len))) ∧
  (∀ (r x0 : Req) (h : DataHdr) (data : List Byte) (env : EccEnv) (w : State × Bool) (s : State), x0 = came r 0x11 h.flow →
        s.takes x0 true →
        dataLen data.length = true →
        addrSpace x0.addr.toNat = 0 →
        stackPresent x0.addr.toNat data.length x0.w.origin = true →
        h.flow = none →
        w = ((s.inTurn x0).countPacket x0 false).memPut x0 data env →
        w.2 = true →
        exec (.wr r h data env) s = .next (w.1.answer x0 .ok [])) ∧
  (∀ (r x0 : Req) (h : DataHdr) (data : List Byte) (env : EccEnv) (t : State) (s : State), x0 = came r 0x11 h.flow →
        s.takes x0 true →
        dataLen data.length = true →
        addrSpace x0.addr.toNat = 0 →
        stackPresent x0.addr.toNat data.length x0.w.origin = true →
        ((h.flow.bind fun x => (s.inTurn x0).delivering x.toNat).filter (·.conf) = none) →
        t = (s.inTurn x0).countPacket x0 h.flow.isSome →
        exec (.wr r h data env) s = .next (t.dataPut x0 h data env)) ∧
  (∀ (r x0 : Req) (h : DataHdr) (data : List Byte) (env : EccEnv) (w : State × Bool) (s : State), x0 = came r 0x13 h.flow →
        s.takes x0 true →
        dataLen data.length = true →
        addrSpace x0.addr.toNat = 0 →
        stackPresent x0.addr.toNat data.length x0.w.origin = true →
        h.flow = none →
        w = ((s.inTurn x0).countPacket x0 false).memPut x0 data env →
        w.2 = true →
        exec (.mwr r h data env) s = .next (w.1.answer x0 .ok [])) ∧
  (∀ (r x0 : Req) (h : DataHdr) (data : List Byte) (env : EccEnv) (t : State) (s : State), x0 = came r 0x13 h.flow →
        s.takes x0 true →
        dataLen data.length = true →
        addrSpace x0.addr.toNat = 0 →
        stackPresent x0.addr.toNat data.length x0.w.origin = true →
        ((h.flow.bind fun x => (s.inTurn x0).delivering x.toNat).filter (·.conf) = none) →
        t = (s.inTurn x0).countPacket x0 h.flow.isSome →
        exec (.mwr r h data env) s = .next (t.dataPut x0 h data env)) ∧
  (∀ (r x0 : Req) (data : List Byte) (s : State), x0 = came r 0x05 none →
        s.takes x0 →
        data.length = 16 →
        addrSpace x0.addr.toNat = 3 →
        addrOff x0.addr.toNat % 4096 = 0 →
        addrOff x0.addr.toNat / 4096 < 9 →
        (reqWriter x0).user = false →
        exec (.bell r data) s = .next ((((s.inTurn x0).countPacket x0 false).gatherSubmit (addrDie x0.addr.toNat) (addrOff x0.addr.toNat / 4096) (gatherOfBytes data)).answer x0 .ok []))

/-- Atomic requests complete at their home. An atomic that its home takes, of a size that Table 11-3 allows and aligned
to it, on stack memory without uncorrectable data, completes: the home stores what the operation makes of the old
contents and the operand, counts the operation, evaluates the watches and answers the old contents.
(11_shared_cache_and_stacks.md R254; 11_shared_cache_and_stacks.md R255) -/
def Obligations.AtomicRequestsComplete : Prop :=
  (∀ (r x0 : Req) (n : Nat) (x : Word) (env : EccEnv) (t : State) (s : State), x0 = came r 0x03 none →
        s.takes x0 →
        addrSpace x0.addr.toNat = 0 →
        stackPresent x0.addr.toNat n x0.w.origin = true →
        (n = 4 ∨ n = 8) →
        x0.addr.toNat % n = 0 →
        t = ((s.inTurn x0).countPacket x0 false).check (addrKey x0.addr.toNat) n env →
        t.rangeBad (addrKey x0.addr.toNat) n = false →
        exec (.addI32 r n x env) s = .next (t.atomDo x0 .addI32 n x.toNat (0 : Word).toNat)) ∧
  (∀ (r x0 : Req) (n : Nat) (x : Word) (env : EccEnv) (t : State) (s : State), x0 = came r 0x03 none →
        s.takes x0 →
        addrSpace x0.addr.toNat = 0 →
        stackPresent x0.addr.toNat n x0.w.origin = true →
        n = 8 →
        x0.addr.toNat % n = 0 →
        t = ((s.inTurn x0).countPacket x0 false).check (addrKey x0.addr.toNat) n env →
        t.rangeBad (addrKey x0.addr.toNat) n = false →
        exec (.addU64 r n x env) s = .next (t.atomDo x0 .addU64 n x.toNat (0 : Word).toNat)) ∧
  (∀ (r x0 : Req) (n : Nat) (x : Word) (env : EccEnv) (t : State) (s : State), x0 = came r 0x03 none →
        s.takes x0 →
        addrSpace x0.addr.toNat = 0 →
        stackPresent x0.addr.toNat n x0.w.origin = true →
        (n = 4 ∨ n = 8) →
        x0.addr.toNat % n = 0 →
        t = ((s.inTurn x0).countPacket x0 false).check (addrKey x0.addr.toNat) n env →
        t.rangeBad (addrKey x0.addr.toNat) n = false →
        exec (.addF32 r n x env) s = .next (t.atomDo x0 .addF32 n x.toNat (0 : Word).toNat)) ∧
  (∀ (r x0 : Req) (n : Nat) (x : Word) (env : EccEnv) (t : State) (s : State), x0 = came r 0x03 none →
        s.takes x0 →
        addrSpace x0.addr.toNat = 0 →
        stackPresent x0.addr.toNat n x0.w.origin = true →
        (n = 4 ∨ n = 8) →
        x0.addr.toNat % n = 0 →
        t = ((s.inTurn x0).countPacket x0 false).check (addrKey x0.addr.toNat) n env →
        t.rangeBad (addrKey x0.addr.toNat) n = false →
        exec (.addBf16 r n x env) s = .next (t.atomDo x0 .addBf16 n x.toNat (0 : Word).toNat)) ∧
  (∀ (r x0 : Req) (n : Nat) (x : Word) (env : EccEnv) (t : State) (s : State), x0 = came r 0x03 none →
        s.takes x0 →
        addrSpace x0.addr.toNat = 0 →
        stackPresent x0.addr.toNat n x0.w.origin = true →
        (n = 4 ∨ n = 8) →
        x0.addr.toNat % n = 0 →
        t = ((s.inTurn x0).countPacket x0 false).check (addrKey x0.addr.toNat) n env →
        t.rangeBad (addrKey x0.addr.toNat) n = false →
        exec (.minI32 r n x env) s = .next (t.atomDo x0 .minI32 n x.toNat (0 : Word).toNat)) ∧
  (∀ (r x0 : Req) (n : Nat) (x : Word) (env : EccEnv) (t : State) (s : State), x0 = came r 0x03 none →
        s.takes x0 →
        addrSpace x0.addr.toNat = 0 →
        stackPresent x0.addr.toNat n x0.w.origin = true →
        (n = 4 ∨ n = 8) →
        x0.addr.toNat % n = 0 →
        t = ((s.inTurn x0).countPacket x0 false).check (addrKey x0.addr.toNat) n env →
        t.rangeBad (addrKey x0.addr.toNat) n = false →
        exec (.maxI32 r n x env) s = .next (t.atomDo x0 .maxI32 n x.toNat (0 : Word).toNat)) ∧
  (∀ (r x0 : Req) (n : Nat) (x : Word) (env : EccEnv) (t : State) (s : State), x0 = came r 0x03 none →
        s.takes x0 →
        addrSpace x0.addr.toNat = 0 →
        stackPresent x0.addr.toNat n x0.w.origin = true →
        (n = 4 ∨ n = 8) →
        x0.addr.toNat % n = 0 →
        t = ((s.inTurn x0).countPacket x0 false).check (addrKey x0.addr.toNat) n env →
        t.rangeBad (addrKey x0.addr.toNat) n = false →
        exec (.minF32 r n x env) s = .next (t.atomDo x0 .minF32 n x.toNat (0 : Word).toNat)) ∧
  (∀ (r x0 : Req) (n : Nat) (x : Word) (env : EccEnv) (t : State) (s : State), x0 = came r 0x03 none →
        s.takes x0 →
        addrSpace x0.addr.toNat = 0 →
        stackPresent x0.addr.toNat n x0.w.origin = true →
        (n = 4 ∨ n = 8) →
        x0.addr.toNat % n = 0 →
        t = ((s.inTurn x0).countPacket x0 false).check (addrKey x0.addr.toNat) n env →
        t.rangeBad (addrKey x0.addr.toNat) n = false →
        exec (.maxF32 r n x env) s = .next (t.atomDo x0 .maxF32 n x.toNat (0 : Word).toNat)) ∧
  (∀ (r x0 : Req) (n : Nat) (x : Word) (env : EccEnv) (t : State) (s : State), x0 = came r 0x03 none →
        s.takes x0 →
        addrSpace x0.addr.toNat = 0 →
        stackPresent x0.addr.toNat n x0.w.origin = true →
        n = 8 →
        x0.addr.toNat % n = 0 →
        t = ((s.inTurn x0).countPacket x0 false).check (addrKey x0.addr.toNat) n env →
        t.rangeBad (addrKey x0.addr.toNat) n = false →
        exec (.minU64 r n x env) s = .next (t.atomDo x0 .minU64 n x.toNat (0 : Word).toNat)) ∧
  (∀ (r x0 : Req) (n : Nat) (x : Word) (env : EccEnv) (t : State) (s : State), x0 = came r 0x03 none →
        s.takes x0 →
        addrSpace x0.addr.toNat = 0 →
        stackPresent x0.addr.toNat n x0.w.origin = true →
        n = 8 →
        x0.addr.toNat % n = 0 →
        t = ((s.inTurn x0).countPacket x0 false).check (addrKey x0.addr.toNat) n env →
        t.rangeBad (addrKey x0.addr.toNat) n = false →
        exec (.maxU64 r n x env) s = .next (t.atomDo x0 .maxU64 n x.toNat (0 : Word).toNat)) ∧
  (∀ (r x0 : Req) (n : Nat) (c x : Word) (env : EccEnv) (t : State) (s : State), x0 = came r 0x03 none →
        s.takes x0 →
        addrSpace x0.addr.toNat = 0 →
        stackPresent x0.addr.toNat n x0.w.origin = true →
        (n = 4 ∨ n = 8) →
        x0.addr.toNat % n = 0 →
        t = ((s.inTurn x0).countPacket x0 false).check (addrKey x0.addr.toNat) n env →
        t.rangeBad (addrKey x0.addr.toNat) n = false →
        exec (.cas r n c x env) s = .next (t.atomDo x0 .cas n x.toNat c.toNat)) ∧
  (∀ (r x0 : Req) (n : Nat) (x : Word) (env : EccEnv) (t : State) (s : State), x0 = came r 0x03 none →
        s.takes x0 →
        addrSpace x0.addr.toNat = 0 →
        stackPresent x0.addr.toNat n x0.w.origin = true →
        (n = 4 ∨ n = 8) →
        x0.addr.toNat % n = 0 →
        t = ((s.inTurn x0).countPacket x0 false).check (addrKey x0.addr.toNat) n env →
        t.rangeBad (addrKey x0.addr.toNat) n = false →
        exec (.swap r n x env) s = .next (t.atomDo x0 .swap n x.toNat (0 : Word).toNat))

/-- Replies and the ends of tracked requests complete. A reply or a LOST for a tracking entry whose tag holds, the
expiry of an entry after 21 ms and the discard of a request older than 20 ms answer the next state that the
statement gives: the entry ends and its result reaches its owner. (12_contexts_translation.md R285;
14_fabric_routing.md R316; 14_fabric_routing.md R329; 14_fabric_routing.md R330) -/
def Obligations.RepliesComplete : Prop :=
  (∀ (r : Req) (n : Nat) (e : Bool) (k : Track) (t u : State) (s : State), s.trackOf r.die r.track.toNat = some k →
        s.tagHolds k r = true →
        t = (s.echoAt r k.owner e).branchLost r.die (s.lostFlow k).1 (s.lostFlow k).2.1 (s.lostFlow k).2.2 →
        u = t.putTrack r.die r.track.toNat { k with lost := true } →
        exec (.lost r n e) s = .next (u.accept r r.track.toNat { k with lost := true } (if k.write then .ok else .branchLost) n [])) ∧
  (∀ (r : Req) (st : Status) (n : Nat) (e : Bool) (data xs : List Byte) (k : Track) (u s : State), s.trackOf r.die r.track.toNat = some k →
        s.tagHolds k r = true →
        s.replyOpen r st n data = (u, some xs) →
        (∀ p, k.owner ≠ .port p) →
        exec (.replyReceive r st n e data) s = .next ((u.echoAt r k.owner e).accept r r.track.toNat k st (max 1 n) xs)) ∧
  (∀ (r : Req) (n : Nat) (e : Bool) (data xs : List Byte) (k : Track) (p : SpPort) (u s : State), s.trackOf r.die r.track.toNat = some k →
        s.tagHolds k r = true →
        s.replyOpen r .ok n data = (u, some xs) →
        k.owner = .port p →
        exec (.replyReceive r .ok n e data) s = .next (((u.echoAt r k.owner e).accept r r.track.toNat k .ok (max 1 n) xs).send
        (.note (.other 2 ([portIx p, k.addr, Status.ok.code] ++ xs.map BitVec.toNat))))) ∧
  (∀ (r : Req) (st : Status) (n : Nat) (e : Bool) (data xs : List Byte) (k : Track) (c : Die) (u s : State), s.trackOf r.die r.track.toNat = some k →
        s.tagHolds k r = true →
        s.replyOpen r st n data = (u, some xs) →
        k.owner = .port (.cores c) →
        st ≠ .ok →
        exec (.replyReceive r st n e data) s = .next ((((u.echoAt r k.owner e).accept r r.track.toNat k st (max 1 n) xs).busErr c k.addr).send
        (.note (.other 2 ([portIx (.cores c), k.addr, st.code] ++ xs.map BitVec.toNat))))) ∧
  (∀ (r : Req) (st : Status) (n : Nat) (e : Bool) (data : List Byte) (k : Track) (s : State), s.trackOf r.die r.track.toNat = some k →
        s.tagHolds k r = false →
        exec (.replyReceive r st n e data) s = .next (((s.endTrack r.die r.track.toNat).unanswered k).dropReply r)) ∧
  (∀ (r : Req) (st : Status) (n : Nat) (e : Bool) (data : List Byte) (k : Track) (u s : State), s.trackOf r.die r.track.toNat = some k →
        s.tagHolds k r = true →
        s.replyOpen r st n data = (u, none) →
        exec (.replyReceive r st n e data) s = .next (u.replyAuth r)) ∧
  (∀ (d : Die) (t : BitVec 16) (k : Track) (u s : State), s.trackOf d t.toNat = some k →
        k.issued + 21000000 < s.now d →
        u = ((s.endTrack d t.toNat).unanswered k).incF d pgApc 0x460 32 32 1 →
        exec (.trackingEntryExpire d t) s = .next (if u.endsStep k then u.endStep 3 else u)) ∧
  (∀ (d : Die) (r : Req) (ns : Nat) (s : State), 78125 < (s.now d / 256 + 2 ^ 32 - r.issue.toNat) % 2 ^ 32 →
        exec (.requestAgeDiscard d r ns) s = .next (((s.incF d pgRtr 0x0F0 0 16 1).setErr d pgRtr 10).dropWatches d fun w => decide (w.req = r)))

/-- The memory and stack events complete. A bank that fails, a temperature reading, the progress of a scrub and the
restoring of an uncorrectable range answer the next state that the statement gives. (11_shared_cache_and_stacks.md
R253; 11_shared_cache_and_stacks.md R264; 11_shared_cache_and_stacks.md R267; 11_shared_cache_and_stacks.md R269) -/
def Obligations.MemoryEventsComplete : Prop :=
  (∀ (d : Die) (b : Fin 50) (t : State) (s : State), s.inReset d pgShc = false →
        s.rdF d pgShc 0x0A8 b 1 = 0 →
        t = ((((s.wrF d pgShc 0x0A8 b 1 1).setErr d pgShc 10).logAt d srcHw .bankFail [d, b]).histEvent 3 d b 8) →
        exec (.shcBankFail d b) s = .next (({ t with mem := { t.mem with bankDue := t.mem.bankDue ++ [d.val * 64 + b.val] } } : State).noCert 1)) ∧
  (∀ (d : Die) (t : StackIx) (x : BitVec 8) (u v z : State) (s : State), s.inReset d (pgApr t) = false →
        u = (s.wrF d (pgApr t) 0x028 3 8 x.toNat).maxF d (pgApr t) 0x028 11 8 x.toNat →
        v = { u with power := { u.power with hot := u.power.hot || decide (88 < x.toNat) } } →
        z = v.tripOn d ⟨0, x.toNat, 0⟩ →
        exec (.stackTempRead d t x) s = .next ((if z.rdF d (pgApr t) 0x028 0 2 = 2 then z else if 85 < x.toNat then z.wrF d (pgApr t) 0x028 2 1 1
        else if x.toNat < 83 then z.wrF d (pgApr t) 0x028 2 1 0 else z).alertPin s)) ∧
  (∀ (d : Die) (t : StackIx) (n p : Nat) (env : EccEnv) (u v : State) (l : List Nat) (s : State), s.inReset d (pgApr t) = false →
        p = s.rdF d (pgApr t) 0x0A8 0 32 + n →
        u = ((((env.errors.foldl State.upset s).satF d (pgApr t) 0x090 32 32 env.onDie).wrF d (pgApr t) 0x0A8 0 32 (p % granulesPerPc)).incF d (pgApr t) 0x0A8 32 16 (p / granulesPerPc)) →
        (l = (u.mem.err.map (·.1) ++ u.mem.bad.map (·.1)).eraseDups.filter fun x => scrubbed d t (s.rdF d (pgApr t) 0x0A8 0 32) n x || scrubbed d t 0 (p - granulesPerPc) x) →
        v = l.foldl State.checkSector u →
        exec (.scrub d t n env) s = .next (v.foundBad (sortBy (fun a b => decide (a ≤ b)) (l.filter v.isBad)) true)) ∧
  (∀ (a n : Nat) (data : List Byte) (k : Nat) (u t : State) (s : State), k = addrKey a / 64 * 64 →
        data.length = 64 * n →
        n ≠ 0 →
        (u = if s.ueRegion k = 1 then s.touch (addrKey (s.inf 0 pgWit 0x088) + if s.retained.curB then 2 ^ 21 else 0) (32 * s.chunkCount) else s) →
        (s.ueRegion k = 1 → u.chunksMatch k data.length data = true) →
        t = (u.ownWrite k data).1 →
        exec (.uncorrectableRestore a n data) s = .next ({ t with retained := { t.retained with toRestore := t.retained.toRestore.filter fun x => !(t.rangeBad x.1 (64 * x.2.1) = false) } }))

/-- The context commands complete. Each command of APC.CTX_CMD, when no command is in progress and its check passes,
acts and answers the next state that the statement gives; so do the ends of a fence, the scheduler quantum, the bay
quantum, the end of an eviction and a write of FAULTQ_TAIL. (12_contexts_translation.md R274;
12_contexts_translation.md R275; 12_contexts_translation.md R278; 12_contexts_translation.md R279;
12_contexts_translation.md R283; 12_contexts_translation.md R284; 12_contexts_translation.md R286;
12_contexts_translation.md R287) -/
def Obligations.ContextCommandsComplete : Prop :=
  (∀ (w : Writer) (id : CtxId) (c : Committed) (u : State) (s : State), c = s.write1 0 pgApc 0x410 w (id.val + 1 * 2 ^ 12) →
        c.win.isSome = true →
        c.s.ctx.cmd = none →
        (u = if c.s.rd 0 pgApc 0x408 ≠ 0 ∧ ctxAllowed 1 (c.s.ctxOf id).st = true then c.s.touch (addrKey (c.s.ctxEntry id)) 64 else c.s) →
        u.ctxCheck 1 id = 0 →
        exec (.define w id) s = .next (u.ctxAct 1 id)) ∧
  (∀ (w : Writer) (id : CtxId) (c : Committed) (s : State), c = s.write1 0 pgApc 0x410 w (id.val + 2 * 2 ^ 12) →
        c.win.isSome = true →
        c.s.ctx.cmd = none →
        c.s.ctxCheck 2 id = 0 →
        exec (.run w id) s = .next (c.s.ctxAct 2 id)) ∧
  (∀ (w : Writer) (id : CtxId) (c : Committed) (s : State), c = s.write1 0 pgApc 0x410 w (id.val + 3 * 2 ^ 12) →
        c.win.isSome = true →
        c.s.ctx.cmd = none →
        c.s.ctxCheck 3 id = 0 →
        exec (.stop w id) s = .next (c.s.ctxAct 3 id)) ∧
  (∀ (w : Writer) (id : CtxId) (c : Committed) (s : State), c = s.write1 0 pgApc 0x410 w (id.val + 4 * 2 ^ 12) →
        c.win.isSome = true →
        c.s.ctx.cmd = none →
        c.s.ctxCheck 4 id = 0 →
        exec (.teardown w id) s = .next (c.s.ctxAct 4 id)) ∧
  (∀ (w : Writer) (id : CtxId) (c : Committed) (s : State), c = s.write1 0 pgApc 0x410 w (id.val + 5 * 2 ^ 12) →
        c.win.isSome = true →
        c.s.ctx.cmd = none →
        c.s.ctxCheck 5 id = 0 →
        exec (.quiesce w id) s = .next (c.s.ctxAct 5 id)) ∧
  (∀ (w : Writer) (id : CtxId) (c : Committed) (s : State), c = s.write1 0 pgApc 0x410 w (id.val + 6 * 2 ^ 12) →
        c.win.isSome = true →
        c.s.ctx.cmd = none →
        c.s.ctxCheck 6 id = 0 →
        exec (.invalAll w id) s = .next (c.s.ctxAct 6 id)) ∧
  (∀ (w : Writer) (id : CtxId) (c : Committed) (s : State), c = s.write1 0 pgApc 0x410 w (id.val + 7 * 2 ^ 12) →
        c.win.isSome = true →
        c.s.ctx.cmd = none →
        c.s.ctxCheck 7 id = 0 →
        exec (.invalRange w id) s = .next (c.s.ctxAct 7 id)) ∧
  (∀ (op id at_ : Nat) (s : State), s.hwFences.ctx.cmd = some (op, id, at_) →
        (op = 4 ∨ op = 5) →
        ((s.hwFences.ctx.tracks.any fun e => e.2.ctx = id && e.2.marked) = false) →
        exec (.fenceComplete) s = .next (s.hwFences.fenceEnd false)) ∧
  (∀ (op id at_ : Nat) (s : State), s.hwFences.ctx.cmd = some (op, id, at_) →
        (op = 4 ∨ op = 5) →
        at_ + 21000000 ≤ s.hwFences.now 0 →
        exec (.fenceTimeout) s = .next (s.hwFences.fenceEnd (s.hwFences.ctx.tracks.any fun e => e.2.ctx = id && e.2.marked))) ∧
  (∀ (d : Die) (t : State) (s : State), s.inReset d pgApc = false →
        (((Tab.find s.ctx.schedAt d.val).any fun a => decide (s.now d < a + 1000 * s.ctxQuantum)) = false) →
        t = ({ s with ctx := { s.ctx with schedAt := Tab.put s.ctx.schedAt d.val (s.now d) } } : State).letIn d →
        exec (.schedulerQuantum d) s = .next ((((t.inRes d 2).filter (t.evictable d)).take ((t.inRes d 1).filter fun x => (t.ctxOf x.1).st = 2).length).foldl (fun u x => u.setResid d x.1 3 x.2.slot) t)) ∧
  (∀ (d : Die) (b : Bay) (id : Nat) (t : State) (s : State), s.nextCtx d b = some id →
        s.runsOn d b ≠ some id →
        s.issues d = true →
        s.switchDue d b = true →
        t = (s.setSwitching d b true).settleSwitch d b →
        t.suAtRest d b = true →
        exec (.bayQuantumEnd d b) s = .next ((t.saveBay d b false).restoreBay d b id)) ∧
  (∀ (d : Die) (b : Bay) (id : Nat) (t : State) (s : State), s.nextCtx d b = some id →
        s.runsOn d b ≠ some id →
        s.issues d = true →
        s.switchDue d b = true →
        t = (s.setSwitching d b true).settleSwitch d b →
        t.suAtRest d b = false →
        exec (.bayQuantumEnd d b) s = .next (t)) ∧
  (∀ (d : Die) (id : CtxId) (t u : State) (s : State), (s.residOf d id).res = 3 →
        (s.ctxOf id).st ≠ 4 →
        s.evictReady d id = true →
        (t = (List.range 9).foldl (fun v b => v.evictBay d b id) s) →
        ((t.ctx.tracks.any fun e => e.1 / 65536 = d && e.2.ctx = id) = false) →
        u = t.setResid d id 0 0 →
        exec (.evictionComplete d id) s = .next ((if (u.ctxOf id).st = 2 then u.setResid d id 1 0 else u).stopCheck id)) ∧
  (∀ (w : Writer) (d : Die) (v : Word) (c : Committed) (s : State), c = s.write1 d pgApc 0x458 w v.toNat →
        c.win.isSome = true →
        exec (.faultqTailWrite w d v) s = .next (c.s.faultqTail d))

/-- The link training and hello events complete. In the link state that the event belongs to, each event of training,
holding and retraining a link answers the next state that the statement gives. (13_fabric_links.md R298;
13_fabric_links.md R299; 13_fabric_links.md R301; 13_fabric_links.md R302; 13_fabric_links.md R303;
13_fabric_links.md R307; 13_fabric_links.md R308) -/
def Obligations.LinkTrainingCompletes : Prop :=
  (∀ (p : Port) (l : Lane) (t : State) (s : State), t = (((s.cpErr p 12).markLane p l).logAt (portDie p) srcHw .laneFail [p, l]).histEvent 5 (portDie p) (5 * p + l) 5 →
        t.linkSt p ≠ 5 →
        exec (.laneFail p l) s = .next ((t.lctrl p 3 l).beginRetrain p)) ∧
  (∀ (p : Port) (l : Lane) (t : State) (s : State), t = (((s.cpErr p 12).markLane p l).logAt (portDie p) srcHw .laneFail [p, l]).histEvent 5 (portDie p) (5 * p + l) 5 →
        t.linkSt p = 5 →
        exec (.laneFail p l) s = .next (if (t.link p).again then (t.cpErr p 15).linkDown p else t.setLink p { t.link p with again := true })) ∧
  (∀ (p : Port) (w : Writer) (c : Committed) (s : State), c = s.write1 (portDie p) (pgCp p) 0x020 w (putBits (s.rd (portDie p) (pgCp p) 0x020) 8 1 1) →
        c.win.isSome = true →
        exec (.retrain p (.register w)) s = .next ((c.s.setCp p 0x020 8 1 0).beginRetrain p)) ∧
  (∀ (p : Port) (l : Lane) (s : State), exec (.retrain p (.message l)) s = .next ((s.markLane p l).beginRetrain p)) ∧
  (∀ (p : Port) (lanes : LaneSet) (ns : Nat) (good : List Nat) (t u : State) (s : State), s.linkSt p = 5 →
        3 ≤ lanes.length →
        good = (s.link p).aims (lanes.map (·.val)) →
        t = (s.setLanes p good).retrained p (lanes.map (·.val)) ns →
        u = t.setLink p { s.link p with again := false, report := (s.link p).report || decide (good.length = 3) } →
        exec (.retrainComplete p true lanes ns) s = .next (((((u.setCp p 0x0D0 0 32 ns).setLinkSt p (s.link p).back).resend p none).retrainEnded p).pump p)) ∧
  (∀ (p : Port) (n : Nat) (s : State), s.linkSt p = 0 →
        3 ≤ n →
        (s.cpF p 0x018 0 3 = 1 ∨ s.cpF p 0x018 0 3 = 2) →
        exec (.linkSignalDetect p n) s = .next (s.setLinkSt p 1)) ∧
  (∀ (p : Port) (lanes : LaneSet) (x : Trained) (bad good : List Nat) (l : Link) (t : State) (s : State), s.linkSt p = 1 →
        3 ≤ lanes.length →
        (bad = if 4 ≤ lanes.length then [] else (List.range 5).filter fun i => !((lanes.map (·.val)).contains i)) →
        good = (s.link p).aims (lanes.map (·.val)) →
        t = (((s.setLanes p good).setCp p 0x080 18 5 x.inv.toNat).setCp p 0x080 12 3 (bad.getD 0 7)).setCp p 0x080 15 3 (bad.getD 1 7) →
        l = t.link p →
        exec (.linkTrainingComplete p lanes x) s = .next (((((((t.setLink p { l with retry := [], txNext := 0, rxNext := 0, nakOut := false, nbr := none, asym := x.asym, heard := false, owe0 := 0, owe1 := 0, pairAt := 0, pairBad := (false, false), chose := false, report := l.report || decide (good.length = 3) }).setCredits
        p 0 64).setCredits p 1 384).syncRetry p).setCp p 0x028 20 4 0).setLinkSt p 2))) ∧
  (∀ (p : Port) (n : Nat) (s : State), 2 < n →
        s.linkSt p ≠ 0 →
        exec (.linkSignalLost p n) s = .next (s.linkDown p)) ∧
  (∀ (p : Port) (s : State), 2 ≤ s.linkSt p →
        s.linkSt p ≤ 4 →
        exec (.helloTimer p) s = .next (s.sendHello p)) ∧
  (∀ (p : Port) (h : Hello) (u : State) (s : State), s.linkSt p = 2 →
        u = s.setLink p { s.link p with hello := some h } →
        u.helloFault p h = none →
        (s.link p).admitted = none →
        exec (.hello p h) s = .next (((u.enterNbr p h).sendHello p).setLinkSt p 3)) ∧
  (∀ (p : Port) (h a : Hello) (v : State) (u : State) (s : State), s.linkSt p = 2 →
        u = s.setLink p { s.link p with hello := some h } →
        u.helloFault p h = none →
        v = (u.enterNbr p h).sendHello p →
        (s.link p).admitted = some a →
        sameNbr a h = true →
        (s.link p).down = true →
        v.cpF p 0x020 9 1 = 0 →
        exec (.hello p h) s = .next (v.setLinkSt p 4)) ∧
  (∀ (p : Port) (x : BitVec 16) (s : State), 2 ≤ s.linkSt p →
        s.linkSt p ≤ 4 →
        exec (.hold p x) s = .next (s.linkHeld p 5)) ∧
  (∀ (p : Port) (s : State), s.linkSt p = 6 →
        exec (.holdRepeat p) s = .next (s.lctrl p 2 (s.cpF p 0x028 20 4))) ∧
  (∀ (p : Port) (s : State), s.linkSt p = 6 →
        exec (.heldTimeout p) s = .next (s.setLinkSt p 1))

/-- The flit events complete. On a link that takes flits, a sequenced flit in order is taken and its credit goes back,
one out of order or failing its check is answered by a NAK, an IDLE flit brings its acknowledgements, and a NAK
resends the flits from the number it names; the statement gives each next state. (13_fabric_links.md R294;
13_fabric_links.md R296; 13_fabric_links.md R297) -/
def Obligations.FlitsComplete : Prop :=
  (∀ (p : Port) (f : Flit) (l : Link) (pay : Bool) (t u : State) (s : State), s.takesFlits p = true →
        flitBad f = false →
        flitSequenced f = true →
        t = (s.fecCount p f.fec).flitHeader p f →
        l = t.link p →
        f.seq.toNat = l.rxNext →
        pay = decide (f.ftype = 1) →
        (u = t.setLink p { l with rxNext := (l.rxNext + 1) % 4096, nakOut := false, heard := true, owe0 := l.owe0 + (if pay && f.vc = 0 then 1 else 0), owe1 := l.owe1 + if pay && f.vc = 1 then 1 else 0 }) →
        exec (.payloadFlit p f) s = .next (((if pay then u.incF (portDie p) (pgCp p) 0x0C8 0 64 1 else u).idleOut p).pairNext p)) ∧
  (∀ (p : Port) (f : Flit) (t : State) (s : State), s.takesFlits p = true →
        flitBad f = false →
        flitSequenced f = true →
        t = (s.fecCount p f.fec).flitHeader p f →
        f.seq.toNat ≠ (t.link p).rxNext →
        exec (.payloadFlit p f) s = .next ((t.sendNak p).pairNext p)) ∧
  (∀ (p : Port) (f : Flit) (t : State) (s : State), s.takesFlits p = true →
        flitBad f = true →
        t = (s.fecCount p f.fec).cpErr p 9 →
        exec (.payloadFlit p f) s = .next ((if flitSequenced f || decide (4 < f.ftype.toNat) then t.sendNak p else t).pairNext p)) ∧
  (∀ (p : Port) (f : Flit) (s : State), s.takesFlits p = true →
        flitBad f = false →
        f.ftype = 0 →
        exec (.idleFlit p f) s = .next (((s.fecCount p f.fec).flitHeader p f).pairNext p)) ∧
  (∀ (p : Port) (fec : Option (List (Fin 544))) (sq : Bool) (t u : State) (s : State), s.takesFlits p = true →
        t = s.cpErr p 9 →
        (u = match fec with | some w => t.badWord p w | none => t) →
        exec (.flitCrcFail p fec sq) s = .next ((if sq then u.sendNak p else u).pairNext p)) ∧
  (∀ (p : Port) (f g : Flit) (l : Link) (again : List TxFlit) (t u v : State) (s : State), s.takesFlits p = true →
        g = { f with ftype := 2 } →
        flitBad g = false →
        t = (s.fecCount p g.fec).flitHeader p g →
        l = t.link p →
        ((l.retry.any fun x => x.seq = g.seq.toNat) = true) →
        (again = (l.retry.dropWhile fun x => x.seq ≠ g.seq.toNat).map fun x => { x with resent := x.resent + 1 }) →
        (u = t.setLink p { l with retry := (l.retry.takeWhile fun x => x.seq ≠ g.seq.toNat) ++ again }) →
        (v = again.foldl (fun x y => x.txOut p y) (u.incF (portDie p) (pgCp p) 0x0B8 32 16 again.length)) →
        exec (.nak p f) s = .next ((if again.any fun x => decide (8 ≤ x.resent) then (v.cpErr p 11).beginRetrain p else v).pairNext p)) ∧
  (∀ (p : Port) (s : State), exec (.nakHoldoffExpire p) s = .next (s.setLink p { s.link p with nakOut := false }))

/-- The routing commands complete. Where a packet is sound and not too old and its table entry holds, each forwarding
command, the window of a short-path port and the register commands of the router answer the next state that the
statement gives. (14_fabric_routing.md R320; 14_fabric_routing.md R321; 14_fabric_routing.md R324;
14_fabric_routing.md R325; 14_fabric_routing.md R326; 14_fabric_routing.md R327) -/
def Obligations.RoutingCompletes : Prop :=
  (∀ (i : InPort) (k : Packet) (d : Nat) (c : CircuitRec) (s : State), d = hopDie i k →
        k.control = false →
        k.ct = false →
        (i = .inject → k.length = 0) →
        s.heldData i k = false →
        s.inReset d pgRtr = false →
        packetOk k = true →
        (¬(packetRequest k = true ∧ 78125 < s.hopAge d k)) →
        s.flowEntry k.flow.toNat (inCode i) = some c →
        exec (.circuitForward i k) s = .next (s.circuitIn d c k)) ∧
  (∀ (i : InPort) (r k : Packet) (n d p : Nat) (s : State), d = hopDie i r →
        (k = if i = .inject then { r with tgen := decide (s.bank = 1) } else r) →
        n ≠ 0 →
        (k.control = true ∨ k.ct = true) →
        s.heldData i k = false →
        s.inReset d pgRtr = false →
        packetOk k = true →
        (¬(packetRequest k = true ∧ 78125 < s.hopAge d k)) →
        s.bankRoute k.tgen (s.packetDest k) = some p →
        p ≠ 20 →
        exec (.cutThroughForward i r n) s = .next ((s.incF d pgRtr 0x0E0 0 64 1).toPort p { pk := k, inp := inCode i })) ∧
  (∀ (i : InPort) (r k : Packet) (n d : Nat) (t : State) (s : State), d = hopDie i r →
        (k = if i = .inject then { r with tgen := decide (s.bank = 1) } else r) →
        n ≠ 0 →
        (k.control = true ∨ k.ct = true) →
        s.heldData i k = false →
        s.inReset d pgRtr = false →
        packetOk k = true →
        (¬(packetRequest k = true ∧ 78125 < s.hopAge d k)) →
        s.bankRoute k.tgen (s.packetDest k) = none →
        t = s.setErr d pgRtr 14 →
        exec (.cutThroughForward i r n) s = .next (if packetRequest k then t.answer { k.req with ptype := k.ptype } .noRoute [] else t)) ∧
  (∀ (k : Packet) (n : Nat) (d : Nat) (c : CircuitRec) (s : State), d = k.req.die →
        k.control = false →
        k.ct = false →
        s.heldData .inject k = false →
        s.alive d = true →
        s.flowEntry k.flow.toNat 20 = some c →
        (k.length = 0 ∨ (s.ownsSlot c.flow ((c.outs.head?.map (·.1)).getD 20) n = true ∧ s.slotStarts d = true ∧ s.slotNow d = n)) →
        (c.conf = false ∨ k.length ≤ 1792) →
        s.inReset d pgRtr = false →
        packetOk k = true →
        (¬(packetRequest k = true ∧ 78125 < s.hopAge d k)) →
        exec (.circuitSlotInject k n) s = .next (s.injectCircuit c k)) ∧
  (∀ (p : SpPort) (x : SpPortSt) (s : State), (((s.portOf p).periodAt.any fun a => decide (s.now (spDie p) < a + s.winPeriod (spDie p))) = false) →
        x = { s.portOf p with periodAt := some (s.now (spDie p)) } →
        x.echoed = false →
        exec (.windowPeriod p) s = .next (s.setPort p { x with win := some (min (s.winMax (spDie p)) (x.win.getD (s.winMax (spDie p)) + 4096)) })) ∧
  (∀ (p : SpPort) (x : SpPortSt) (s : State), (((s.portOf p).periodAt.any fun a => decide (s.now (spDie p) < a + s.winPeriod (spDie p))) = false) →
        x = { s.portOf p with periodAt := some (s.now (spDie p)) } →
        x.echoed = true →
        exec (.windowPeriod p) s = .next (s.setPort p { x with echoed := false })) ∧
  (∀ (w : Writer) (d : Die) (v : Word) (c : Committed) (s : State), c = s.write1 d pgRtr 0x0C8 w v.toNat →
        c.win.isSome = true →
        exec (.vctDataWrite w d v) s = .next (c.s)) ∧
  (∀ (w : Writer) (d : Die) (v : Bool) (c : Committed) (s : State), (c = s.write1 d pgRtr 0x020 w (putBits (s.rd d pgRtr 0x020) 8 1 (if v then 1 else 0))) →
        c.win.isSome = true →
        exec (.holdDataWrite w d v) s = .next (c.s.wrF d pgRtr 0x028 2 1 (if c.s.rdF d pgRtr 0x020 8 1 = 1 ∨ c.s.fabric.hold = true then 1 else 0))) ∧
  (∀ (t : State) (s : State), s.inReset 0 pgCue = false →
        s.alive 0 = true →
        s.dataGone = true →
        (t = foldNat 4 (fun u d => if u.rdF d pgRtr 0x028 2 1 = 1 then u.wrF d pgRtr 0x028 3 1 1 else u) s) →
        t.fabric.hold = true →
        t.leads = false →
        exec (.drainedReport) s = .next (t.cueSend t.leader 0x0C [])) ∧
  (∀ (t : State) (s : State), s.inReset 0 pgCue = false →
        s.alive 0 = true →
        s.dataGone = true →
        (t = foldNat 4 (fun u d => if u.rdF d pgRtr 0x028 2 1 = 1 then u.wrF d pgRtr 0x028 3 1 1 else u) s) →
        t.fabric.hold = true →
        t.leads = true →
        exec (.drainedReport) s = .next (({ t with cue := { t.cue with drained := (t.cue.drained ++ [t.ownRank]).eraseDups } } : State).tryApply))

/-- Duplicate checks and unit commands complete. A duplicate check that may begin begins, one that runs is judged when
it ends, a copied sample counts as copied, and the unit commands and the end of an audition act; each answers the
next state that the statement gives. (15_integrity.md R340; 15_integrity.md R341; 15_integrity.md R342;
15_integrity.md R343; 16_replay_spares_cue.md R355; 16_replay_spares_cue.md R358; 16_replay_spares_cue.md R359) -/
def Obligations.IntegrityCommandsComplete : Prop :=
  (∀ (d : Die) (b : Nat) (t : State) (s : State), s.issues d = true →
        s.inReset d pgDup = false →
        ((s.dup.jobs.any fun j => j.cdie = d.val && j.running) = false) →
        ((s.dup.jobs.any fun j => j.cdie = d.val && j.copied && !j.running) = true) →
        s.wingsBay d = some b →
        t = (s.incF d pgDup 0x080 32 32 1).progress d b →
        exec (.dupCheck d) s = .next ({ t with dup := { t.dup with jobs := updFirst (fun j => j.cdie = d.val && j.copied && !j.running) (fun j => { j with running := true }) t.dup.jobs } })) ∧
  (∀ (d : Die) (flips : List Flip) (j : DupJob) (x : TileDesc) (p c : Drain) (cb : Nat) (t u : State) (s : State), ((s.dup.jobs.find? fun j => j.cdie = d.val && j.running) = some j) →
        s.jobTile j = some x →
        j.prim = some p →
        s.wingsBay d = some cb →
        c = s.checkRun j x flips →
        p.witness = c.witness →
        t = s.progress d cb →
        u = { t with dup := { t.dup with jobs := t.dup.jobs.erase j } } →
        ((u.dup.mism.find? fun m => m.tileId = j.tileId && m.step = u.stepNum) = none) →
        exec (.dupCheckComplete d flips) s = .next ((u.witFlag j.ref 4).incF j.pdie pgDup 0x088 0 32 1)) ∧
  (∀ (d : Die) (flips : List Flip) (j : DupJob) (x : TileDesc) (p c : Drain) (cb : Nat) (t u : State) (s : State), ((s.dup.jobs.find? fun j => j.cdie = d.val && j.running) = some j) →
        s.jobTile j = some x →
        j.prim = some p →
        s.wingsBay d = some cb →
        c = s.checkRun j x flips →
        p.witness ≠ c.witness →
        t = s.progress d cb →
        u = { t with dup := { t.dup with jobs := t.dup.jobs.erase j } } →
        ((u.dup.mism.find? fun m => m.tileId = j.tileId && m.step = u.stepNum) = none) →
        exec (.dupCheckComplete d flips) s = .next (u.mismatch j x p c cb)) ∧
  (∀ (d : Die) (b : Bay) (j : DupJob) (x : TileDesc) (t : State) (s : State), ((s.dup.jobs.find? fun j => j.pdie = d.val && j.pbay = b.val && j.closed && !j.copied) = some j) →
        s.dupQueued j.cdie < 16 →
        (t = { s with dup := { s.dup with jobs := updFirst (fun j => j.pdie = d.val && j.pbay = b.val && j.closed && !j.copied) (fun j => { j with copied := true }) s.dup.jobs } }) →
        t.jobTile j = some x →
        exec (.sampleCopyComplete d b) s = .next (if j.prim.isSome = true ∧ x.signal < 32 ∧ t.dupHolds d b j.tileId = false then t.signalGo d b x.signal else t)) ∧
  (∀ (w : Writer) (k : BitVec 2) (d : Die) (ix : BitVec 6) (c : Committed) (s : State), c = s.write1 0 pgCue 0x0B8 w (k.toNat + d.val * 2 ^ 2 + ix.toNat * 2 ^ 4 + 1 * 2 ^ 10) →
        c.win.isSome = true →
        exec (.unitAudition w k d ix) s = .next (c.s.unitCmd (k.toNat + d.val * 2 ^ 2 + ix.toNat * 2 ^ 4 + 1 * 2 ^ 10))) ∧
  (∀ (w : Writer) (k : BitVec 2) (d : Die) (ix : BitVec 6) (c : Committed) (s : State), c = s.write1 0 pgCue 0x0B8 w (k.toNat + d.val * 2 ^ 2 + ix.toNat * 2 ^ 4 + 2 * 2 ^ 10) →
        c.win.isSome = true →
        exec (.unitDark w k d ix) s = .next (c.s.unitCmd (k.toNat + d.val * 2 ^ 2 + ix.toNat * 2 ^ 4 + 2 * 2 ^ 10))) ∧
  (∀ (k : UnitKind) (d : Die) (ix n : Nat) (s : State), n = UnitKind.ix k →
        s.unit n d ix = .audition →
        s.history.passed.contains (unitKey n d ix) = false →
        exec (.auditionComplete k d ix true) s = .next (({ s with history := { s.history with passed := s.history.passed ++ [unitKey n d ix] } } : State).unitStat 4 (n + 1 + d.val * 2 ^ 2 + ix % 64 * 2 ^ 4 + 2 ^ 10))) ∧
  (∀ (k : UnitKind) (d : Die) (ix n : Nat) (s : State), n = UnitKind.ix k →
        s.unit n d ix = .audition →
        s.history.passed.contains (unitKey n d ix) = false →
        exec (.auditionComplete k d ix false) s = .next (((s.setUnit n d ix .dark).histEvent (n + 1) d ix 3).unitStat 5 (n + 1 + d.val * 2 ^ 2 + ix % 64 * 2 ^ 4 + 2 ^ 10))) ∧
  (∀ (k : UnitKind) (d : Die) (ix n : Nat) (s : State), n = UnitKind.ix k →
        s.resets.stage = 0x80 →
        (s.unit n d ix = .inService ∨ s.unit n d ix = .wings) →
        exec (.auditionComplete k d ix false) s = .next (s.histEvent (n + 1) d ix 3))

/-- The messages and timers of the Cue leader complete. At a part that leads the round, each message of the round and
each timer of the leader answers the next state that the statement gives. (16_replay_spares_cue.md R364;
16_replay_spares_cue.md R365; 16_replay_spares_cue.md R366; 16_replay_spares_cue.md R370; 16_replay_spares_cue.md
R373; 16_replay_spares_cue.md R375; 14_fabric_routing.md R326) -/
def Obligations.CueLeaderMessagesComplete : Prop :=
  (∀ (h : CueHdr) (v : VoteBody) (s : State), s.inReset 0 pgCue = false →
        s.alive 0 = true →
        s.books.staged = none →
        s.inRound h = true →
        v.view.toNat = s.viewNum →
        s.leads = true →
        exec (.vote h v) s = .next ((s.takeVote h.rank v).tryDecide)) ∧
  (∀ (h : CueHdr) (k : BitVec 8) (x : BitVec 256) (s : State), s.inReset 0 pgCue = false →
        s.alive 0 = true →
        h.rank ≠ 0xFFFF →
        s.inRound h = true →
        s.leads = true →
        exec (.digest h k x) s = .next ((s.takeDigest h.rank k.toNat x).tryDecide)) ∧
  (∀ (h : CueHdr) (k : BitVec 8) (x : BitVec 256) (s : State), s.inReset 0 pgCue = false →
        s.alive 0 = true →
        h.rank = 0xFFFF →
        k.toNat = 2 →
        s.inRound h = true →
        s.leads = true →
        exec (.digest h k x) s = .next ({ s with cue := { s.cue with poolDigests := s.cue.poolDigests ++ [x] } })) ∧
  (∀ (h : CueHdr) (ps : List (BitVec 32 × Nat)) (s : State), s.inReset 0 pgCue = false →
        s.alive 0 = true →
        s.inRound h = true →
        s.leads = true →
        exec (.pairs h ps) s = .next ((s.takePairs h.rank (pairNats ps)).tryDecide)) ∧
  (∀ (h : CueHdr) (n : Nat) (s : State), s.inReset 0 pgCue = false →
        s.alive 0 = true →
        s.inRound h = true →
        s.fromLeader h = true →
        s.leads = false →
        exec (.keep h n) s = .next ({ s with cue := { s.cue with heard := s.now 0 } })) ∧
  (∀ (u s : State), s.inReset 0 pgCue = false →
        s.alive 0 = true →
        s.leads = true →
        s.phase = 1 →
        s.cue.plan = none →
        s.cue.keptAt + 200000 ≤ s.now 0 →
        u = { s with cue := { s.cue with keptAt := s.now 0 } } →
        exec (.keepTimer) s = .next ((u.liveRanks.filter fun x => x.2 ≠ u.ident.1 && (Tab.find u.cue.votes x.1).isSome).foldl (fun t x => t.cueSend x.2 0x05 [s.cue.votes.length]) u)) ∧
  (∀ (t : Nat) (s : State), s.inReset 0 pgCue = false →
        s.alive 0 = true →
        s.cue.first = some t →
        s.leads = true →
        s.cue.plan = none →
        s.cue.held = false →
        s.cue.committed = none →
        s.cue.late = [] →
        t + s.deadline ≤ s.now 0 →
        exec (.voteDeadline) s = .next (s.decideNow)) ∧
  (∀ (h : CueHdr) (o : Decision) (p : CuePlan) (s : State), s.inReset 0 pgCue = false →
        s.alive 0 = true →
        s.inRound h = true →
        s.leads = true →
        s.cue.plan = some p →
        p.body.outcome = o →
        exec (.ack h o) s = .next (({ s with cue := { s.cue with acks := (s.cue.acks ++ [h.rank]).eraseDups } } : State).tryCommit)) ∧
  (∀ (t : State) (s : State), s.inReset 0 pgCue = false →
        s.alive 0 = true →
        s.leads = true →
        s.cue.held = true →
        s.cue.absent ≠ [] →
        s.cue.plan = none →
        s.cue.heldAt + clampTo 100 60000 (s.cueCfg 0 16) * 1000000 ≤ s.now 0 →
        t = { s with cue := { s.cue with absent := [] } } →
        exec (.admitWindowExpire) s = .next (t.sendPrepare (t.mkPlan t.cue.after [] s.cue.absent [] [] t.cue.fNext false false none false))) ∧
  (∀ (s : State), s.inReset 0 pgCue = false →
        s.alive 0 = true →
        s.leads = true →
        s.cue.held = true →
        s.cue.plan = none →
        s.cuesDown = false →
        s.cue.noSpare = [] →
        s.cue.called ≠ [] →
        ((s.cue.called.any fun c => c.ready.isNone) = false) →
        exec (.heldRound) s = .next (s.sendPrepare (s.mkPlan s.cue.after [] [] [] s.cue.lowers s.cue.fNext true true none false))) ∧
  (∀ (h : CueHdr) (dev rank : Nat) (f : BitVec 8) (c : Called) (t : State) (s : State), s.inReset 0 pgCue = false →
        s.alive 0 = true →
        s.inRound h = true →
        s.leads = true →
        ((s.cue.called.find? fun c => c.rank = rank && c.device = dev) = some c) →
        (s.poolBookOk c.failed && f.toNat % 16 = 15) = true →
        t = s.took 1 →
        exec (.ready h dev rank f) s = .next ({ t with cue := { t.cue with called := t.cue.called.map (fun x => if x.rank = rank then { x with ready := some f.toNat } else x), poolDigests := t.cue.poolDigests.erase ((Tab.find t.cue.books c.failed).getD 0) } })) ∧
  (∀ (rank : Nat) (c : Called) (s : State), s.inReset 0 pgCue = false →
        s.alive 0 = true →
        ((s.cue.called.find? fun c => c.rank = rank) = some c) →
        c.ready = none →
        s.leads = true →
        s.cue.plan = none →
        c.since + 10000000000 ≤ s.now 0 →
        exec (.callReadyTimeout rank) s = .next (s.sendPrepare (s.mkPlan s.cue.after [] [] [rank] [] s.cue.fNext false false none true))) ∧
  (∀ (h : CueHdr) (t s : State), s.inReset 0 pgCue = false →
        s.alive 0 = true →
        s.inRound h = true →
        t = s.hears h →
        exec (.drained h) s = .next (({ t with cue := { t.cue with drained := (t.cue.drained ++ [h.rank]).eraseDups } } : State).tryApply))

/-- The messages and timers of a Cue member complete. At a member of the round, each message of its leader, the silence
of the leader and the messages of a pool part answer the next state that the statement gives.
(16_replay_spares_cue.md R364; 16_replay_spares_cue.md R366; 16_replay_spares_cue.md R367; 16_replay_spares_cue.md
R369; 16_replay_spares_cue.md R372; 16_replay_spares_cue.md R373; 14_fabric_routing.md R326; 17_checkpoint.md R380) -/
def Obligations.CueMemberMessagesComplete : Prop :=
  (∀ (h : CueHdr) (ps : List (BitVec 32 × Nat)) (t s : State), s.inReset 0 pgCue = false →
        s.alive 0 = true →
        s.inRound h = true →
        t = s.hears h →
        t.leads = false →
        exec (.pairs h ps) s = .next (({ t with cue := { t.cue with prepPairs := t.cue.prepPairs ++ (pairNats ps).filter fun x => x.2 ≠ 0, gotPairs := t.cue.gotPairs + 1 } } : State).tryAck)) ∧
  (∀ (h : CueHdr) (x : BitVec 8) (t : State) (s : State), s.inReset 0 pgCue = false →
        s.alive 0 = true →
        h.step = s.stepCur →
        h.attempt = s.attempt →
        s.stepState = 1 →
        (t = (if s.leads then s.sendHalt x.toNat else (s.hears h).wrF 0 pgCue 0x028 5 1 1).noCert x.toNat) →
        t.stepState = 1 →
        t.step.ended = none →
        exec (.halt h x) s = .next (({ t with step := { t.step with ended := some x.toNat } } : State).wrF 0 pgStp 0x0B0 0 3 2)) ∧
  (∀ (h : CueHdr) (p : PrepBody) (r t u : State) (s : State), s.inReset 0 pgCue = false →
        s.alive 0 = true →
        r = s.poolJoins h p →
        r.inRound h = true →
        t = r.hears h →
        t.fromLeader h = true →
        t.leads = false →
        t.mayAck p = true →
        t.cue.committed = none →
        u = t.buddyFresh →
        exec (.prepare h p) s = .next (({ u with cue := { u.cue with prep := some (u.attempt, p), prepPairs := [], prepFences := [], gotPairs := 0, gotFences := 0 } } : State).tryAck)) ∧
  (∀ (h : CueHdr) (ds : List Nat) (t s : State), s.inReset 0 pgCue = false →
        s.alive 0 = true →
        s.inRound h = true →
        t = s.hears h →
        t.leads = false →
        exec (.fences h ds) s = .next (({ t with cue := { t.cue with prepFences := t.cue.prepFences ++ ds.filter (· ≠ 0xFFFF), gotFences := t.cue.gotFences + 1 } } : State).tryAck)) ∧
  (∀ (h : CueHdr) (o : Decision) (a : BitVec 8) (v : BitVec 32) (n : Nat) (p : PrepBody) (t s : State), s.inReset 0 pgCue = false →
        s.alive 0 = true →
        s.inRound h = true →
        t = s.hears h →
        t.cue.prep = some (n, p) →
        t.fromLeader h = true →
        t.leads = false →
        p.outcome = o →
        t.cue.committed = none →
        t.atVoteNow = true →
        exec (.commit h o a v) s = .next (t.adopt { p with actions := a, view := v } t.cue.prepPairs t.cue.prepFences)) ∧
  (∀ (h : CueHdr) (o : Decision) (a : BitVec 8) (v : BitVec 32) (n : Nat) (p : PrepBody) (t s : State), s.inReset 0 pgCue = false →
        s.alive 0 = true →
        s.inRound h = true →
        t = s.hears h →
        t.cue.prep = some (n, p) →
        t.fromLeader h = true →
        t.leads = false →
        p.outcome = o →
        t.cue.committed = none →
        t.atVoteNow = false →
        exec (.commit h o a v) s = .next ({ t with cue := { t.cue with late := t.cue.late ++ [({ p with actions := a, view := v }, t.cue.prepPairs, t.cue.prepFences)] } })) ∧
  (∀ (s : State), s.inReset 0 pgCue = false →
        s.alive 0 = true →
        s.leads = false →
        (s.phase = 1 ∨ s.phase = 2) →
        s.cue.heard + 400000 ≤ s.now 0 →
        exec (.leaderSilence) s = .next ((s.revote (s.attempt + 1)).tryDecide)) ∧
  (∀ (h : CueHdr) (rank holder buddy failed lead : Nat) (r u : State) (s : State), s.inReset 0 pgCue = false →
        s.alive 0 = true →
        s.ownRank = 0xFFFF →
        s.fenced s.ident.1 = false →
        lead = (s.rankDev h.rank).getD s.leader →
        (r = if s.inRound h then s else (s.newRound h.step).setRound h.step h.attempt) →
        u = ({ r with cue := { r.cue with call := some (rank, holder, buddy, failed, lead) }, leader := lead } : State).setPhase 5 →
        u.cuesDown = false →
        exec (.call h rank holder buddy failed) s = .next (u.notice 0x8001 (leBytes 2 rank ++ leBytes 2 holder ++ leBytes 2 buddy ++ leBytes 2 failed))) ∧
  (∀ (rank x y z lead : Nat) (b : Book) (t : State) (s : State), s.inReset 0 pgCue = false →
        s.alive 0 = true →
        s.cue.call = some (rank, x, y, z, lead) →
        s.books.staged = some b →
        b.castRank = rank →
        s.offers = true →
        t = { s with leader := lead, retained := { s.retained with curB := false, buddyB := false, buddyValid := true } } →
        exec (.poolReadySend) s = .next ((t.cueSend lead 0x02 [2, b.bookDigest.toNat]).cueSend lead 0x0B [rank, 0xF])) ∧
  (∀ (h : CueHdr) (t s : State), s.inReset 0 pgCue = false →
        s.alive 0 = true →
        s.inRound h = true →
        t = s.hears h →
        t.fromLeader h = true →
        t.step.change = true →
        exec (.apply h) s = .next (t.applyTables)) ∧
  (∀ (h : CueHdr) (w n : Nat) (t : State) (s : State), s.inReset 0 pgCue = false →
        s.alive 0 = true →
        t = s.noteWriter h.step w n →
        exec (.writer h w n) s = .next (if t.stepState = 1 then t.exportBegin else t))

/-- The checkpoint commands and the hang events complete. Each checkpoint command is written to STP.CKP_CMD and acts as
its operation says, a write of the ring lets the engine go on, and an export or a restore whose last unit is done
ends; the statement gives each next state. (17_checkpoint.md R381; 17_checkpoint.md R382; 17_checkpoint.md R385;
17_checkpoint.md R386; 17_checkpoint.md R387; 17_checkpoint.md R388) -/
def Obligations.CheckpointCommandsComplete : Prop :=
  (∀ (w : Writer) (c : Committed) (s : State), c = s.write1 0 pgStp 0x230 w (1 + 0 * 2 ^ 4) →
        c.win.isSome = true →
        c.s.ckpState ≠ 1 →
        c.s.ckpState ≠ 4 →
        exec (.sign w) s = .next (c.s.signManifest)) ∧
  (∀ (w : Writer) (c : Committed) (b : Book) (r : State × Bool) (s : State), c = s.write1 0 pgStp 0x230 w (2 + 0 * 2 ^ 4) →
        c.win.isSome = true →
        c.s.ckpState ≠ 1 →
        c.s.ckpState ≠ 4 →
        c.s.books.staged = some b →
        c.s.stepState = 0 →
        r = c.s.acceptManifest b →
        exec (.restoreOwn w) s = .next (if r.2 = false then r.1 else if c.s.ckpKey.isNone then (r.1.setCkpState 0).ckpCode 7 else r.1.restoreBegin b false b.castRank 0)) ∧
  (∀ (w : Writer) (c : Committed) (b : Book) (s : State), c = s.write1 0 pgStp 0x230 w (3 + 0 * 2 ^ 4) →
        c.win.isSome = true →
        c.s.ckpState ≠ 1 →
        c.s.ckpState ≠ 4 →
        c.s.books.staged = some b →
        c.s.stepState = 0 →
        c.s.ckpt.manifest ≠ [] →
        exec (.restoreBuddy w) s = .next (if c.s.ckpKey.isNone then (c.s.setCkpState 0).ckpCode 7 else c.s.restoreBegin b true b.buddyOf 2)) ∧
  (∀ (w : Writer) (dev : DevIx) (f : Option (Nat × List Byte)) (c : Committed) (b : Book) (s : State), c = s.write1 0 pgStp 0x230 w (4 + dev.val * 2 ^ 4) →
        c.win.isSome = true →
        c.s.ckpState ≠ 1 →
        c.s.ckpState ≠ 4 →
        c.s.books.staged = some b →
        c.s.stepState = 0 →
        c.s.ckpt.manifest ≠ [] →
        exec (.fetchOwn w dev f) s = .next (c.s.fetchImage b f)) ∧
  (∀ (w : Writer) (c : Committed) (s : State), c = s.write1 0 pgStp 0x230 w (5 + 0 * 2 ^ 4) →
        c.win.isSome = true →
        (c.s.ckpState = 1 ∨ c.s.ckpState = 4) →
        exec (.abandon w) s = .next (({ c.s with ckpt := { c.s.ckpt with run := none } } : State).setCkpState 6)) ∧
  (∀ (w : Writer) (v : Word) (c : Committed) (s : State), c = s.write1 0 pgStp 0x220 w v.toNat →
        c.win.isSome = true →
        exec (.ringSwWrite w v) s = .next (c.s.ringGo)) ∧
  (∀ (r : CkpRun) (s : State), s.ckpt.run = some r →
        r.exporting = true →
        r.units ≤ r.pos →
        exec (.exportComplete) s = .next ((({ s with ckpt := { s.ckpt with run := none } } : State).setCkpState 2).ckpCode 0)) ∧
  (∀ (r : CkpRun) (s : State), s.ckpt.run = some r →
        r.exporting = false →
        r.units ≤ r.pos →
        exec (.restoreComplete) s = .next (s.imageDone r.buddy r.step (slice r.front 128 (32 * r.chunks))))

/-- The hang events complete. The watchdog, the time-outs and the stalls capture the evidence and request the reset that
their rule names, and a replay trial that clears gives way to the next; the statement gives each next state.
(18_hang_recovery.md R391; 18_hang_recovery.md R392; 18_hang_recovery.md R393; 18_hang_recovery.md R398;
18_hang_recovery.md R399) -/
def Obligations.HangEventsComplete : Prop :=
  (∀ (d : Die) (b : Bay) (t u : State) (s : State), s.wdFires d b = true →
        (((s.replayOf d b).bind fun r => r.trial) = none) →
        ((s.ctxOn d b).isNone = true ∨ s.firedNear d = true) →
        t = s.noteFired d b →
        u = ((t.took 1).capture 3 4 d (some b) [] false).replayAdd d b (Tab.get 0 t.fw.capNext d) (t.suspects d b) →
        exec (.watchdogFire d b) s = .next ((u.incF 0 pgRst 0x120 32 16 1).resetReq (4, d, 0) Origin.hw.code true)) ∧
  (∀ (d : Die) (b : Bay) (x : Bool) (t u : State) (s : State), s.wdFires d b = true →
        (((s.replayOf d b).bind fun r => r.trial) = none) →
        (s.ctxOn d b).isNone = false →
        s.firedNear d = false →
        t = s.noteFired d b →
        x = decide (t.free.toNat % 2 = 1) →
        u = (((t.took 1).capture 1 1 d (some b) [] x).forcedSave d b x).replayAdd d b (Tab.get 0 t.fw.capNext d) (t.suspects d b) →
        exec (.watchdogFire d b) s = .next (u.resetReq (1, d, b) Origin.hw.code true)) ∧
  (∀ (d : Die) (b : Bay) (r : Replay) (c : Nat) (s : State), s.wdFires d b = true →
        s.replayOf d b = some r →
        r.trial = some c →
        r.hung = false →
        exec (.watchdogFire d b) s = .next ((s.noteFired d b).guilty r c)) ∧
  (∀ (d : Die) (b : Bay) (s : State), s.resetLate (1, d.val, b.val) 3000000 = true →
        exec (.bayResetTimeout d b) s = .next (((s.capture 2 4 d (some b) [] false).incF 0 pgRst 0x120 32 16 1).resetReq (4, d, 0) Origin.hw.code true)) ∧
  (∀ (d : Die) (s : State), s.resetLate (4, d.val, 0) 40000000 = true →
        exec (.partitionTimeout d) s = .next (((s.capture 6 5 d none [] false).incF 0 pgRst 0x120 48 16 1).resetReq (5, 0, 0) Origin.hw.code true)) ∧
  (∀ (d : Die) (s : State), s.blkIs d pgShc 4 = false →
        s.power.down = false →
        exec (.shcStall d) s = .next (s.stall 4 d none)) ∧
  (∀ (d : Die) (t : StackIx) (s : State), s.blkIs d (pgApr t) 4 = false →
        s.power.down = false →
        s.rdF d (pgApr t) 0x028 0 2 ≠ 2 →
        exec (.aprStall d t) s = .next (s.stall 5 d (some t.val))) ∧
  (∀ (d : Die) (b : Bay) (r : Replay) (c : Nat) (s : State), s.replayOf d b = some r →
        r.trial = some c →
        r.hung = false →
        (s.ctxOf c).st ≠ 2 →
        exec (.replayTrialClear d b) s = .next (s.nextTrial { r with trial := none })) ∧
  (∀ (d : Die) (b : Bay) (r : Replay) (c : Nat) (t : State) (s : State), s.replayOf d b = some r →
        r.trial = some c →
        r.hung = false →
        (s.ctxOf c).st = 2 →
        s.trialMade d b r = true →
        t = (s.setSwitching d b true).settleSwitch d b →
        t.suAtRest d b = true →
        exec (.replayTrialClear d b) s = .next ((((t.saveBay d b false).setSwitching d b false).setBayCtx d b 4097).nextTrial { r with trial := none }))

/-- The frequency, droop, throttle and shedding events complete. A change of frequency that is not paused takes effect,
a droop stretches its island and on a bay island pauses a change, the power loop and the thermal throttle act on
their readings, and shedding goes to a step and back; the statement gives each next state. (19_power_thermal.md
R407; 19_power_thermal.md R408; 19_power_thermal.md R409; 19_power_thermal.md R410; 19_power_thermal.md R411;
19_power_thermal.md R414) -/
def Obligations.PowerLoopCommandsComplete : Prop :=
  (∀ (d : Die) (f : Nat) (t : State) (s : State), s.rdF d pgPwr 0x028 0 1 ≠ 0 →
        s.rdF d pgPwr 0x028 1 1 ≠ 1 →
        f = s.rdF d pgPwr 0x0C8 11 11 →
        t = (s.wrF d pgPwr 0x0C8 0 11 f).wrF d pgPwr 0x028 0 1 0 →
        exec (.frequencyChangeComplete d) s = .next ({ t with dieEnv := Tab.upd {} t.dieEnv d fun e => { e with varith := t.varithAt d f (t.opOf d) } })) ∧
  (∀ (d : Die) (i : Island) (t : State) (s : State), s.rdF d pgPwr 0x0E0 i 1 ≠ 1 →
        t = (s.wrF d pgPwr 0x0E0 i 1 1).satF d pgPwr 0x0E0 32 16 1 →
        exec (.droopDetect d i) s = .next (if i.val < 9 ∧ t.rdF d pgPwr 0x028 0 2 = 1 then (t.wrF d pgPwr 0x028 1 1 1).satF d pgPwr 0x0E0 48 16 1 else t)) ∧
  (∀ (d : Die) (i : Island) (t : State) (s : State), t = s.wrF d pgPwr 0x0E0 i 1 0 →
        exec (.droopClear d i) s = .next (if i.val < 9 then { t with power := { t.power with cleared := Tab.put t.power.cleared d (t.now d) } } else t)) ∧
  (∀ (d : Die) (s : State), s.droopBays d = 0 →
        Tab.get 0 s.power.cleared d + 50000 ≤ s.now d →
        exec (.droopPauseExpire d) s = .next (s.wrF d pgPwr 0x028 1 1 0)) ∧
  (∀ (rd : List PowerReading) (t u v w : State) (s : State), (t = foldNat 4 (fun s d => match rd[d]? with | some r => s.dieTick d r | none => s) s) →
        (u = { t with io := { t.io with mv := if rd = [] then t.io.mv else (rd.map (·.mv)).foldl min 65535 } }) →
        v = { u with power := { u.power with samples := (u.packagePower :: u.power.samples).take 10000 } } →
        w = (v.railTick rd).throttle u.packagePower →
        exec (.powerLoopTick rd) s = .next ((foldNat 4 (fun s d => if 0 < max (s.rdF 0 pgPwr 0x0D8 0 4) (s.rdF d pgPwr 0x0D8 4 4) then s.satF d pgPwr 0x0D8 32 32 10 else s) w).alertPin s)) ∧
  (∀ (d : Die) (j : Int) (k n : Nat) (t : State) (s : State), (n = (if 102 ≤ j ∨ 92 ≤ k then min 15 (s.rdF d pgPwr 0x0D8 4 4 + 1) else if j ≤ 99 ∧ k ≤ 89 then s.rdF d pgPwr 0x0D8 4 4 - 1 else s.rdF d pgPwr 0x0D8 4 4)) →
        t = s.wrF d pgPwr 0x0D8 4 4 n →
        exec (.thermalThrottleTick d j k) s = .next ((({ t with dieEnv := Tab.upd {} t.dieEnv d (fun e => { e with temp := j }), power := { t.power with hot := t.power.hot || decide (100 < j) || decide (88 < k) } } : State).tripOn d ⟨j, k, 0⟩).alertPin s)) ∧
  (∀ (step : ShedStep) (mv : Nat) (t : State) (s : State), mv < shedThreshold (step.val + 1) →
        s.shed < step.val + 1 →
        t = { s with io := { s.io with mv := mv } } →
        exec (.shedStepEnter step mv) s = .next ((t.shedTo (step.val + 1)).alertPin s)) ∧
  (∀ (step : ShedStep) (mv n : Nat) (t u : State) (s : State), n = step.val + 1 →
        n = s.shed →
        n ≠ 7 →
        shedThreshold n + 500 ≤ mv →
        t = { s with io := { s.io with mv := mv } } →
        (u = foldNat 4 (fun s d => s.wr d pgPwr 0x0E8 (n - 1)) t) →
        exec (.shedStepRelease step mv) s = .next ((if n = 2 ∨ n = 3 then foldNat 4 State.retarget u else if n = 5 then foldNat 20 (fun s p => if (s.link p).three = true then (s.setLink p { s.link p with three := false }).beginRetrain p else s) u else if n = 6 then foldNat 4 (fun s d => s.stackWake d) u else u).alertPin s))

/-- The firmware events and the mailbox commands complete. A fault or a missed liveness deadline restarts a component or
stops it, a component that has restarted runs again, a message is submitted by writing its slot, mailboxes are freed
by MBX_DONE, and a source whose rate fell back has its lost entries told; the statement gives each next state.
(20_firmware_management.md R421; 20_firmware_management.md R427; 20_firmware_management.md R429;
20_firmware_management.md R433; 20_firmware_management.md R434; 20_firmware_management.md R436; 21_security.md R448;
19_power_thermal.md R412) -/
def Obligations.FirmwareComponentsComplete : Prop :=
  (∀ (d : Die) (c : Component) (near : List Nat) (t : State) (s : State), s.comp d c ≠ 0 →
        (near = (Tab.get [] s.fw.restarts (8 * d + c)).filter (fun t => decide (s.now d < t + 60000000000))) →
        c.val ≠ 0 →
        near.length < 3 →
        t = ((({ s with fw := { s.fw with restarts := Tab.put s.fw.restarts (8 * d + c) (s.now d :: near) } } : State).setErr d pgMgc 9).logAt d 0 .compRestart [c]).satF d pgMgc 0x088 (4 * c) 4 1 →
        exec (.componentFault d c) s = .next ((t.setComp d c 2).whileRestarting d c)) ∧
  (∀ (d : Die) (c : Component) (near : List Nat) (t : State) (s : State), s.comp d c ≠ 0 →
        (near = (Tab.get [] s.fw.restarts (8 * d + c)).filter (fun t => decide (s.now d < t + 60000000000))) →
        c.val ≠ 0 →
        near.length < 3 →
        t = ((({ s with fw := { s.fw with restarts := Tab.put s.fw.restarts (8 * d + c) (s.now d :: near) } } : State).setErr d pgMgc 9).logAt d 0 .compRestart [c]).satF d pgMgc 0x088 (4 * c) 4 1 →
        exec (.componentLivenessMiss d c) s = .next ((t.setComp d c 2).whileRestarting d c)) ∧
  (∀ (d : Die) (c : Component) (s : State), s.comp d c ≠ 0 →
        (c.val = 0 ∨ 3 ≤ ((Tab.get [] s.fw.restarts (8 * d + c)).filter (fun t => decide (s.now d < t + 60000000000))).length) →
        exec (.componentFault d c) s = .next ((s.setComp d c 3).escalate d c)) ∧
  (∀ (d : Die) (c : Component) (t : State) (s : State), s.comp d c = 2 →
        t = s.setComp d c 1 →
        exec (.componentRestartComplete d c) s = .next (if c.val = 1 then (t.wrF d pgPwr 0x028 3 1 0).retarget d else if c.val = 2 then t.admitDue d else if c.val = 3 ∧ d.val = 0 then t.cuesBack else if c.val = 4 then (foldNat 16 (fun s n => s.answerOdd n) t).noticeOut else t)) ∧
  (∀ (w : Writer) (n : Mbox) (a : Word) (q : WriteReq) (m : Msg) (u : State) (s : State), q = ⟨w, a, 8⟩ →
        accessOk 0 pgMbx (0x080 + 8 * n.val) q = true →
        s.mayWrite 0 pgMbx (0x080 + 8 * n.val) q = true →
        s.inReset 0 pgMbx = false →
        s.msgAddr (a.toNat % 2 ^ 52) = true →
        s.loses n.val w = false →
        u = s.overtake n.val w →
        u.msgAddr (a.toNat % 2 ^ 52) = true →
        m = ⟨a.toNat % 2 ^ 52, w, u.memRead (addrKey (a.toNat % 2 ^ 52)) 256⟩ →
        exec (.mbxSubmit w n a) s = .next (u.slotWin n.val (u.view 0 pgMbx (0x080 + 8 * n.val)) (u.detail 0 pgMbx (0x080 + 8 * n.val)) q (some m))) ∧
  (∀ (w : Writer) (n : Mbox) (a : Word) (q : WriteReq) (m : Msg) (u : State) (s : State), q = ⟨w, a, 8⟩ →
        accessOk 0 pgMbx (0x080 + 8 * n.val) q = true →
        s.mayWrite 0 pgMbx (0x080 + 8 * n.val) q = true →
        s.inReset 0 pgMbx = false →
        s.msgAddr (a.toNat % 2 ^ 52) = true →
        s.loses n.val w = true →
        u = s →
        u.msgAddr (a.toNat % 2 ^ 52) = true →
        m = ⟨a.toNat % 2 ^ 52, w, u.memRead (addrKey (a.toNat % 2 ^ 52)) 256⟩ →
        exec (.mbxSubmit w n a) s = .next (u.slotLose n.val (u.view 0 pgMbx (0x080 + 8 * n.val)) (u.detail 0 pgMbx (0x080 + 8 * n.val)) q (some m))) ∧
  (∀ (w : Writer) (a : Word) (q : WriteReq) (m : Msg) (u : State) (s : State), q = ⟨w, a, 8⟩ →
        accessOk 0 pgMbx (0x080 + 8 * 14) q = true →
        s.mayWrite 0 pgMbx (0x080 + 8 * 14) q = true →
        s.inReset 0 pgMbx = false →
        s.msgAddr (a.toNat % 2 ^ 52) = true →
        s.loses 14 w = false →
        u = s.overtake 14 w →
        u.msgAddr (a.toNat % 2 ^ 52) = true →
        m = ⟨a.toNat % 2 ^ 52, w, u.memRead (addrKey (a.toNat % 2 ^ 52)) 256⟩ →
        exec (.mbx14Arm w a) s = .next (u.slotWin 14 (u.view 0 pgMbx (0x080 + 8 * 14)) (u.detail 0 pgMbx (0x080 + 8 * 14)) q (some m))) ∧
  (∀ (w : Writer) (a : Word) (q : WriteReq) (m : Msg) (u : State) (s : State), q = ⟨w, a, 8⟩ →
        accessOk 0 pgMbx (0x080 + 8 * 14) q = true →
        s.mayWrite 0 pgMbx (0x080 + 8 * 14) q = true →
        s.inReset 0 pgMbx = false →
        s.msgAddr (a.toNat % 2 ^ 52) = true →
        s.loses 14 w = true →
        u = s →
        u.msgAddr (a.toNat % 2 ^ 52) = true →
        m = ⟨a.toNat % 2 ^ 52, w, u.memRead (addrKey (a.toNat % 2 ^ 52)) 256⟩ →
        exec (.mbx14Arm w a) s = .next (u.slotLose 14 (u.view 0 pgMbx (0x080 + 8 * 14)) (u.detail 0 pgMbx (0x080 + 8 * 14)) q (some m))) ∧
  (∀ (w : Writer) (v : Word) (c : Committed) (s : State), c = s.write1 0 pgMbx 0x108 w v.toNat →
        c.win.isSome = true →
        exec (.mbxDoneClear w v) s = .next (c.s.doneWritten v.toNat)) ∧
  (∀ (msg : List Byte) (buf : Nat) (a : Nat) (q : WriteReq) (m : Msg) (t u v : State) (s : State), s.comp 0 4 ≠ 0 →
        s.inReset 0 pgShc = false →
        a = s.device * 2 ^ 40 + buf % 2 ^ 38 / 256 * 256 →
        m = ⟨a, ⟨.mgmt, BitVec.ofNat 32 (fieldAt msg 8 4), 0, false⟩, msg⟩ →
        q = ⟨m.w, BitVec.ofNat 64 a, 8⟩ →
        t = { s with fw := { s.fw with lastSeq := m.seq } } →
        u = (t.ownWrite (addrKey a) msg).1 →
        v = u.overtake 15 m.w →
        exec (.signedCommandReceive msg buf) s = .next (if s.verified msg = false then (s.secCount 0).send (.datagram (s.replyBytes 15 m 12 []))
      else if m.seq ≤ s.fw.lastSeq then (s.secCount 16).send (.datagram (s.replyBytes 15 m 9 []))
      else if u.loses 15 m.w then u.slotLose 15 (u.rd 0 pgMbx 0x0F8) (u.rd 0 pgMbx 0x100) q (some m)
      else v.slotWin 15 (v.rd 0 pgMbx 0x0F8) (v.rd 0 pgMbx 0x100) q (some m))) ∧
  (∀ (d : Die) (src : BitVec 8) (key lost : Nat) (t : State) (s : State), key = d.val * 256 + src.toNat →
        lost = Tab.get 0 s.log.lost key →
        lost ≠ 0 →
        (s.recentOf key).length < 4096 →
        t = { s with log := { s.log with lost := Tab.del s.log.lost key } } →
        exec (.logSuppressed d src) s = .next ((t.setErr 0 pgMgc 11).logPut d src.toNat .logSuppressed [src.toNat, lost])) ∧
  (∀ (s : State), s.updateState = 3 →
        s.recentEmergency = false →
        s.power.down = false →
        s.power.off.isEmpty = true →
        exec (.updateHoldExpire) s = .next (s.beginUpdate)) ∧
  (∀ (d : Die) (t : State) (s : State), s.hbMs ≠ 0 →
        Tab.get 0 s.fw.beats d.val + 3000000 * s.hbMs ≤ s.now 0 →
        t = { s with fw := { s.fw with beats := Tab.put s.fw.beats d.val (s.now 0) } } →
        exec (.heartbeatTimeout d) s = .next (((t.setErr 0 pgMgc 12).logAt d 0 .heartbeatLost [d]).resetReq (3, d, 0) Origin.fw.code false))

/-- The identity, heartbeat and configuration messages complete. A message whose header is sound is answered OK with the
effect its type names where its fields meet the conditions stated; the statement gives the next state, the status
and the body of the reply. (20_firmware_management.md R428; 20_firmware_management.md R430;
20_firmware_management.md R431; 20_firmware_management.md R432; 20_firmware_management.md R434; 13_fabric_links.md
R304) -/
def Obligations.ServiceMessagesComplete : Prop :=
  (∀ (n : Mbox) (m : Msg) (s : State), s.msgReady n 4 0x0001 m →
        exec (.getVersion n) s = .next ((s).replyMsg n.val m (0) (leBytes 4 (s.rdF 0 pgMgc 0x080 0 32) ++ leBytes 2 (s.rdF 0 pgMgc 0x080 32 16) ++ slice s.fw.image 0x0C 4))) ∧
  (∀ (n : Mbox) (m : Msg) (s : State), s.msgReady n 4 0x0002 m →
        m.arg 0 2 < 512 →
        (∀ p, p < 20 → s.linkSt p ≠ 4) →
        exec (.setIdentity n) s = .next ((({ s with ident := (m.arg 0 2, m.arg 2 4) } : State).showRole).replyMsg n.val m (0) ([]))) ∧
  (∀ (n : Mbox) (m : Msg) (a k : Nat) (t u : State) (s : State), s.msgReady n 4 0x0003 m →
        a = m.arg 0 8 →
        k = m.arg 8 2 →
        0 < k →
        k ≤ 10240 →
        s.ownRange a (16 * k) = true →
        t = s.touch (addrKey a) (16 * k) →
        t.rangeBad (addrKey a) (16 * k) = false →
        (u = { t with fabric := { t.fabric with tableIn := some ((List.range k).map fun i => blockRecOf (slice (t.memRead (addrKey a) (16 * k)) (16 * i) 16)) } }) →
        exec (.setBlocking n) s = .next ((if t.resets.curtain = true then u else u.timeTree).replyMsg n.val m (0) ([]))) ∧
  (∀ (n : Mbox) (m : Msg) (mb : Nat) (s : State), s.msgReady n 4 0x0004 m →
        mb = m.arg 6 2 →
        m.arg 0 6 = s.stepNum →
        s.retained.inputsLost.contains mb = true →
        exec (.inputsReady n) s = .next (({ s with retained := { s.retained with inputsLost := s.retained.inputsLost.filter (· ≠ mb), toRestore := s.retained.toRestore.filter fun x => x.2.2 ≠ 2 || s.microBatchOf x.1 ≠ some mb } }).replyMsg n.val m (0) ([]))) ∧
  (∀ (n : Mbox) (m : Msg) (s : State), s.msgReady n 4 0x0005 m →
        m.arg 0 1 < 4 →
        s.hbMs ≠ 0 →
        exec (.heartbeat n) s = .next (({ s with fw := { s.fw with beats := Tab.put s.fw.beats (m.arg 0 1) (s.now 0) } }).replyMsg n.val m (0) ([]))) ∧
  (∀ (n : Mbox) (m : Msg) (s : State), s.msgReady n 4 0x0005 m →
        m.arg 0 1 < 4 →
        s.hbMs = 0 →
        exec (.heartbeat n) s = .next ((s).replyMsg n.val m (0) ([]))) ∧
  (∀ (n : Mbox) (m : Msg) (s : State), s.msgReady n 5 0x0015 m →
        m.arg 32 1 ≤ 1 →
        exec (.traceSet n) s = .next ((foldNat 4 (fun s i => (s.write1 0 pgMgc (0x0A8 + 8 * i) mbxsWriter (if m.arg 32 1 = 0 then s.rd 0 pgMgc (0x0A8 + 8 * i) ||| m.arg (8 * i) 8 else s.rd 0 pgMgc (0x0A8 + 8 * i) &&& (maskN 64 ^^^ m.arg (8 * i) 8))).s) s).replyMsg n.val m (0) ([]))) ∧
  (∀ (n : Mbox) (m : Msg) (d pg off v : Nat) (q : WriteReq) (s : State), s.msgReady n 4 0x0016 m →
        d = m.arg 0 1 →
        pg = m.arg 1 1 →
        off = m.arg 4 2 →
        v = m.arg 8 8 →
        q = ⟨mbxsWriter, BitVec.ofNat 64 v, 8⟩ →
        configAllowed d pg off = true →
        s.mayWrite d pg off q = true →
        exec (.configWrite n) s = .next (((s.logAt d 4 .configWrite [m.w.origin.code, m.seq, d, pg, off, v]).writeAll d pg off [q]).replyMsg n.val m (0) ([])))

/-- The messages that read records complete. The log, the change records, the history, a capture and the sensors are
read into a buffer of the part, and the reply tells what was copied; the statement gives the next state, the status
and the body of the reply, where the buffer lies in the part (the copy then ends OK, or UNCORRECTABLE where its
memory is unreadable). (20_firmware_management.md R428; 20_firmware_management.md R431; 20_firmware_management.md
R435; 18_hang_recovery.md R395; 15_integrity.md R352) -/
def Obligations.ReadingMessagesComplete : Prop :=
  (∀ (n : Mbox) (m : Msg) (r : Nat × List Byte × State) (s : State), s.msgReady n 5 0x0010 m →
        m.arg 8 4 ≤ 16384 →
        (r = s.copyRecs (m.arg 12 8) (m.arg 0 8) (((s.log.ring.reverse.filter fun e => decide (m.arg 0 8 ≤ e.seq)).take (m.arg 8 4)).map fun e => (e.seq, e.bytes))) →
        exec (.logRead n) s = .next ((r.2.2).replyMsg n.val m (r.1) (r.2.1))) ∧
  (∀ (n : Mbox) (m : Msg) (r : Nat × List Byte × State) (s : State), s.msgReady n 5 0x0011 m →
        m.arg 0 1 < 4 →
        m.arg 9 4 ≤ 8192 →
        (r = s.copyRecs (m.arg 13 8) (m.arg 1 8) ((((s.ringOf (m.arg 0 1)).recs.reverse.filter fun x => decide (m.arg 1 8 ≤ x.seq)).take (m.arg 9 4)).map fun x => (x.seq, x.bytes))) →
        exec (.chgRead n) s = .next ((r.2.2).replyMsg n.val m (r.1) (r.2.1))) ∧
  (∀ (n : Mbox) (m : Msg) (l : List (Nat × List Byte)) (r : Nat × List Byte × State) (s : State), s.msgReady n 5 0x0012 m →
        (l = fitting (m.arg 8 4) ((s.history.events.reverse.filter fun e => decide (m.arg 0 8 ≤ e.seq)).map fun e => (e.seq, e.bytes s.sec.sensed.serial))) →
        r = s.copyRecs (m.arg 12 8) (m.arg 0 8) l →
        exec (.sigRead n) s = .next ((if r.1 = 0 then { r.2.2 with history := { r.2.2.history with read := match l.getLast? with | some x => max s.history.read (x.1 + 1) | none => s.history.read } } else r.2.2).replyMsg n.val m (r.1) (r.2.1))) ∧
  (∀ (n : Mbox) (m : Msg) (b : List Byte) (r : Nat × State) (s : State), s.msgReady n 5 0x0013 m →
        m.arg 0 1 < 4 →
        ((if m.arg 1 4 = 0xFFFFFFFF then s.fw.flush.map (fun f => f.bytes (m.arg 0 1)) else ((Tab.find s.fw.captures (m.arg 0 1 * 4 + m.arg 1 4 % 4)).filter fun x => x.seq = m.arg 1 4).map Capture.bytes) = some b) →
        r = s.copyOut (m.arg 5 8) b →
        exec (.captureRead n) s = .next ((r.2).replyMsg n.val m (r.1) ([]))) ∧
  (∀ (n : Mbox) (m : Msg) (l : List Byte) (r : Nat × State) (s : State), s.msgReady n 5 0x0014 m →
        m.arg 0 1 < 4 →
        r = s.copyOut (m.arg 1 8) l →
        exec (.sensorRead n l) s = .next ((r.2).replyMsg n.val m (r.1) ([])))

/-- The update messages complete. A sound image is staged into the update slot, a staged image is activated by a
whole-device reset after the reply or held while the part is in emergency, and a held activation is withdrawn; the
statement gives each next state. Where the image is not sound, UPDATE_STAT shows the failure and the reply is
FAILED. (20_firmware_management.md R438; 20_firmware_management.md R439; 20_firmware_management.md R440) -/
def Obligations.UpdateMessagesComplete : Prop :=
  (∀ (n : Mbox) (m : Msg) (a len : Nat) (bs : List Byte) (u t : State) (s : State), s.msgReady n 6 0x0020 m →
        a = m.arg 0 8 →
        len = m.arg 8 4 →
        s.updateState ≠ 3 →
        s.updateState ≠ 4 →
        len ≤ 2 ^ 25 →
        s.ownRange a len = true →
        u = s.touch (addrKey a) len →
        u.rangeBad (addrKey a) len = false →
        bs = u.memRead (addrKey a) len →
        t = { u with fw := { u.fw with slot := some bs, slotDue := false, slotBad := false } } →
        exec (.updateStage n) s = .next ((if u.imageFault bs = none then (t.setUpdate 2).logAt 0 6 .updateStaged [fieldAt bs 8 4] else u.setUpdate 5).replyMsg n.val m (if u.imageFault bs = none then 0 else 11) ([]))) ∧
  (∀ (n : Mbox) (m : Msg) (s : State), s.msgReady n 6 0x0021 m →
        s.updateState = 2 →
        s.recentEmergency = false →
        exec (.updateActivate n) s = .next ((s.replyMsg n.val m 0 []).beginUpdate)) ∧
  (∀ (n : Mbox) (m : Msg) (s : State), s.msgReady n 6 0x0021 m →
        s.updateState = 2 →
        s.recentEmergency = true →
        exec (.updateActivate n) s = .next (((s.setUpdate 3).logAt 0 6 .updateHeld).replyMsg n.val m 10 [])) ∧
  (∀ (n : Mbox) (m : Msg) (s : State), s.msgReady n 6 0x0022 m →
        s.updateState = 3 →
        exec (.updateCancel n) s = .next ((s.setUpdate 2).replyMsg n.val m (0) ([])))

/-- The security messages complete. Attestation, identity, key and fuse messages whose fields meet the conditions stated
are answered with the effect of their type; the statement gives the next state, the status and the body of the
reply. What verifies, deciphers and holds as a certificate stays open in the model (log entry 14), so those answers
are named on either side. (21_security.md R442; 21_security.md R447; 21_security.md R449; 21_security.md R450;
21_security.md R451; 21_security.md R452) -/
def Obligations.SecurityMessagesComplete : Prop :=
  (∀ (n : Mbox) (m : Msg) (bs : List Byte) (r : Nat × State) (s : State), s.msgReady n 4 0x0101 m →
        bs = s.report (m.part 0 32) →
        r = s.copyOut (m.arg 32 8) bs →
        exec (.attest n) s = .next ((if s.certOk = false then s else r.2).replyMsg n.val m (if s.certOk = false then 8 else r.1) (if s.certOk = false then [] else if r.1 = 0 then leBytes 4 bs.length else []))) ∧
  (∀ (n : Mbox) (m : Msg) (r : Nat × State) (s : State), s.msgReady n 4 0x0102 m →
        s.sec.cert.length = 256 →
        r = s.copyOut (m.arg 0 8) s.sec.cert →
        exec (.getIdentity n) s = .next ((r.2).replyMsg n.val m (r.1) ([]))) ∧
  (∀ (n : Mbox) (m : Msg) (i ct : Nat) (key : Option (List Byte)) (e : List Byte → State) (s : State), s.msgReady n 4 0x0103 m →
        i = m.arg 0 1 →
        ct = m.arg 2 2 →
        i ≤ 16 →
        (ct = if i = 16 then 129 else 113) →
        m.len = 4 + ct →
        s.slotBusy i = none →
        (key = ((Config.sm2Open (m.part 4 ct)).filter fun k => k.length = (if i = 16 then 32 else 16)).filter fun k => !s.sec.tags.contains (BitVec.ofNat 64 (keyTag k))) →
        (e = fun k => ({ s with sec := { s.sec with keys := Tab.put s.sec.keys i k, tags := (BitVec.ofNat 64 (keyTag k) :: s.sec.tags).take 1024 } } : State).zeroCounters i) →
        exec (.keyLoad n) s = .next ((match key with | none => s | some k => e k).replyMsg n.val m (if key = none then 6 else 0) ([]))) ∧
  (∀ (n : Mbox) (m : Msg) (s : State), s.msgReady n 4 0x0104 m →
        m.arg 0 1 ≤ 16 →
        s.slotBusy (m.arg 0 1) = none →
        exec (.keyClear n) s = .next (({ s with sec := { s.sec with keys := Tab.del s.sec.keys (m.arg 0 1) } }).replyMsg n.val m (0) ([]))) ∧
  (∀ (n : Mbox) (m : Msg) (i : Nat) (f : Fuses) (s : State), s.msgReady n 4 0x0105 m →
        s.emergency = false →
        i = m.arg 0 1 →
        f = s.sec.fuses →
        i < 4 →
        bitsOf f.ownerValid.toNat i 1 = 0 →
        bitsOf f.ownerRevoke.toNat i 1 = 0 →
        Tab.get 0 f.ownerHash i = 0 →
        exec (.ownerEnroll n) s = .next (((s.blow fun f => { f with ownerHash := Tab.set 0 f.ownerHash i (BitVec.ofNat 256 (leNat (sm3 (m.part 4 64)))), ownerValid := f.ownerValid ||| BitVec.ofNat 4 (2 ^ i) }).putOwnerKey i (m.part 4 64)).replyMsg n.val m (0) ([]))) ∧
  (∀ (n : Mbox) (m : Msg) (i : Nat) (s : State), s.msgReady n 4 0x0106 m →
        s.emergency = false →
        i = m.arg 0 1 →
        i < 4 →
        (¬ (s.sec.fuses.usable i ∧ ((List.range 4).filter s.sec.fuses.usable).length = 1)) →
        exec (.ownerRevoke n) s = .next ((s.blow fun f => { f with ownerRevoke := f.ownerRevoke ||| BitVec.ofNat 4 (2 ^ i) }).replyMsg n.val m (0) ([]))) ∧
  (∀ (n : Mbox) (m : Msg) (r : Nat) (s : State), s.msgReady n 4 0x0107 m →
        s.emergency = false →
        r = min 64 (fieldAt s.fw.image 0x0C 4) →
        exec (.rollbackCommit n) s = .next ((if r ≤ s.sec.fuses.rollback then s else s.blow fun f => { f with fwRollback := f.fwRollback ||| BitVec.ofNat 64 (2 ^ r - 1) }).replyMsg n.val m (0) ([]))) ∧
  (∀ (n : Mbox) (m : Msg) (v : BitVec 13) (s : State), s.msgReady n 4 0x0108 m →
        s.emergency = false →
        m.arg 1 1 < 32 →
        m.arg 2 1 < 32 →
        v = BitVec.ofNat 13 (m.arg 1 1 + m.arg 2 1 * 256) →
        exec (.protRemove n) s = .next ((s.blow fun f => { f with protRemove := Tab.upd 0 f.protRemove (m.arg 0 1) (· ||| v) }).replyMsg n.val m (0) ([]))) ∧
  (∀ (n : Mbox) (m : Msg) (i : Nat) (s : State), s.msgReady n 4 0x0109 m →
        i = m.arg 0 1 →
        i < 4 →
        leNat (sm3 (m.part 4 64)) = (Tab.get 0 s.sec.sensed.ownerHash i).toNat →
        exec (.ownerKeyPut n) s = .next ((s.putOwnerKey i (m.part 4 64)).replyMsg n.val m (0) ([])))

/-- The Ethernet events complete. A frame at the head of a transmit queue goes out and its descriptors are given back,
one that touches a protected byte ends REFUSED, a frame received goes into the buffer of the descriptor at the head
of its queue, and a port goes up and down; the statement gives each next state. (22_cores_io.md R459; 22_cores_io.md
R460; 22_cores_io.md R461) -/
def Obligations.EthernetCommandsComplete : Prop :=
  (∀ (e : EthPort) (q : Fin 64) (k : Nat) (r : EthQ) (ix : List Nat) (ds : List (Nat × List Byte)) (bufs : List (Nat × Nat)) (f : List Byte) (u z y t : State) (s : State), k = ethQKey e 0 q →
        r = s.ethQ k →
        (s.ethReady e k = true ∧ s.fwQueue e q = false) →
        s.reaches (ethDie e) (r.desc r.head) = true →
        u = s.descRead r →
        u.descOk r = none →
        txChain u r r.size r.head = some ix →
        (z = u.touchAll ((ix.drop 1).map fun i => (r.desc i, 32))) →
        ((ix.any fun i => z.rangeBad (addrKey (r.desc i)) 32) = false) →
        (ds = ix.map fun i => (r.desc i, z.memRead (addrKey (r.desc i)) 32)) →
        (bufs = ds.map fun x => (fieldAt x.2 0 8 % 2 ^ 52, fieldAt x.2 8 2)) →
        ((bufs.any fun b => z.ioOk b.1 b.2 && !(z.reaches (ethDie e) b.1)) = false) →
        (bufs.find? (fun b => !(z.ioOk b.1 b.2)) = none) →
        y = z.touchAll bufs →
        ((bufs.any fun b => y.rangeBad (addrKey b.1) b.2) = false) →
        (f = bufs.flatMap fun b => y.memRead (addrKey b.1) b.2) →
        (t = (y.send (.frame e (if (ds.any fun x => bitsOf (fieldAt x.2 0x0A 1) 3 1 = 1) = true then withChecksum f else f))).incF (ethDie e) (ethPg e) 0x0B8 0 32 1) →
        exec (.ethTx e q) s = .next ((ds.foldl (fun t x => t.descDone x.1 (fieldAt x.2 0x0A 1) 0 (if bitsOf (fieldAt x.2 0x0A 1) 2 1 = 1 then some (y.now (ethDie e)) else none)) t).setHead k (((ix.getLast?).getD r.head + 1) % r.size))) ∧
  (∀ (e : EthPort) (q : Fin 64) (k : Nat) (r : EthQ) (ix : List Nat) (ds : List (Nat × List Byte)) (bufs : List (Nat × Nat)) (b : Nat × Nat) (u z : State) (s : State), k = ethQKey e 0 q →
        r = s.ethQ k →
        (s.ethReady e k = true ∧ s.fwQueue e q = false) →
        s.reaches (ethDie e) (r.desc r.head) = true →
        u = s.descRead r →
        u.descOk r = none →
        txChain u r r.size r.head = some ix →
        (z = u.touchAll ((ix.drop 1).map fun i => (r.desc i, 32))) →
        ((ix.any fun i => z.rangeBad (addrKey (r.desc i)) 32) = false) →
        (ds = ix.map fun i => (r.desc i, z.memRead (addrKey (r.desc i)) 32)) →
        (bufs = ds.map fun x => (fieldAt x.2 0 8 % 2 ^ 52, fieldAt x.2 8 2)) →
        ((bufs.any fun b => z.ioOk b.1 b.2 && !(z.reaches (ethDie e) b.1)) = false) →
        (bufs.find? (fun b => !(z.ioOk b.1 b.2)) = some b) →
        exec (.ethTx e q) s = .next ((ds.foldl (fun t x => t.descDone x.1 (fieldAt x.2 0x0A 1) 1 none) (z.ioRefuse (ethDie e) (ethPg e) b.1)).setHead k (((ix.getLast?).getD r.head + 1) % r.size))) ∧
  (∀ (e : EthPort) (q : Fin 64) (f : RxFrame) (k a fl buf n : Nat) (r : EthQ) (x : List Byte) (z t u v : State) (s : State), k = ethQKey e 1 q →
        r = s.ethQ k →
        (s.ethReady e k = true ∧ s.fwQueue e q = false) →
        (e ≠ .mgt ∨ f.toCmd = false) →
        f.bytes.length ≤ 9216 →
        s.reaches (ethDie e) (r.desc r.head) = true →
        z = s.descRead r →
        z.descOk r = none →
        a = r.desc r.head →
        x = z.memRead (addrKey a) 32 →
        fl = fieldAt x 0x0A 1 →
        fl % 2 ≠ 0 →
        buf = fieldAt x 0 8 % 2 ^ 52 →
        (z.ioOk buf 1 = false ∨ z.reaches (ethDie e) buf = true) →
        n = min f.bytes.length (fieldAt x 8 2) →
        f.fcsOk = true →
        t = z.incF (ethDie e) (ethPg e) 0x0B8 32 32 1 →
        t.ioOk buf n = true →
        u = (t.ownWrite (addrKey buf) (f.bytes.take n)).1 →
        (t.ownWrite (addrKey buf) (f.bytes.take n)).2 = true →
        (v = u.descDone a (fl ||| 2) (if n < f.bytes.length then 4 else 0) (if f.ptp = true then some (u.now (ethDie e)) else none)) →
        exec (.ethRx e q f) s = .next ((v.ownWrite (addrKey a + 0x0C) (leBytes 2 n)).1.setHead k ((r.head + 1) % r.size))) ∧
  (∀ (e : EthPort) (s : State), s.blkIs (ethDie e) (ethPg e) 4 = false →
        s.alive (ethDie e) = true →
        exec (.ethLinkUp e) s = .next (s.wr (ethDie e) (ethPg e) 0x088 3)) ∧
  (∀ (e : EthPort) (t : State) (s : State), s.rdF (ethDie e) (ethPg e) 0x088 0 1 ≠ 0 →
        t = (s.wr (ethDie e) (ethPg e) 0x088 0).setErr (ethDie e) (ethPg e) 11 →
        exec (.ethLinkDown e) s = .next (if t.fwQueue e 63 = true ∧ t.rdF 0 pgTim 0x090 1 1 = 1 then t.steer 0 else t))

/-- The PCIe, pin and core events complete. A PCIe request in a window that it may use is performed, one that it may not
is refused, a write to the message address raises its vector, an access in an outbound window goes out, and the
link, pulse, machine-check and board-controller events act; the statement gives each next state. (22_cores_io.md
R456; 22_cores_io.md R460; 22_cores_io.md R461; 22_cores_io.md R462; 22_cores_io.md R463; 22_cores_io.md R465) -/
def Obligations.BoardAndPcieCommandsComplete : Prop :=
  (∀ (a l : Nat) (d : List Byte) (s : State), s.pcieUp = true →
        a = Config.msiAddr.toNat →
        exec (.pcieInbound true a l d false) s = .next (s.msiIn (leNat (d.take 4) % 2048))) ∧
  (∀ (a l : Nat) (d : List Byte) (s : State), s.pcieUp = true →
        exec (.pcieInbound true a l d true) s = .next (s.pcieRefuse true a 12 0)) ∧
  (∀ (a l : Nat) (d : List Byte) (r : State × Bool) (s : State), s.pcieUp = true →
        s.inWindow a d.length = true →
        s.ownRange a d.length = true →
        s.ioBlocked a d.length = false →
        s.reaches 1 a = true →
        r = s.ownWrite (addrKey a) d →
        exec (.pcieInbound true a l d false) s = .next (if a = Config.msiAddr.toNat then s.msiIn (leNat (d.take 4) % 2048) else if r.2 = true then r.1 else r.1.pcieRefuse true a 11 0)) ∧
  (∀ (a l : Nat) (d : List Byte) (p : Bool) (t : State) (s : State), s.pcieUp = true →
        s.inWindow a l = true →
        s.ownRange a l = true →
        s.ioBlocked a l = false →
        s.reaches 1 a = true →
        t = s.touch (addrKey a) l →
        exec (.pcieInbound false a l d p) s = .next (if t.rangeBad (addrKey a) l = true then t.pcieRefuse false a 11 4 else t.send (.tlp false a [0] (t.memRead (addrKey a) l)))) ∧
  (∀ (a l : Nat) (d : List Byte) (p : Bool) (s : State), s.pcieUp = true →
        (s.inWindow a l = false ∨ s.ownRange a l = false) →
        exec (.pcieInbound false a l d p) s = .next (s.pcieRefuse false a 10 1)) ∧
  (∀ (a l : Nat) (w : Bool) (d : List Byte) (s : State), s.pcieUp = true →
        s.pcieWin 0 ≤ a →
        a + l ≤ s.pcieWin 0 + 2 ^ 36 →
        exec (.pcieOutbound a l w d) s = .next (s.send (.tlp w a [0, l] d))) ∧
  (∀ (a l : Nat) (w : Bool) (d : List Byte) (s : State), s.pcieUp = true →
        s.pcieWin 1 ≤ a →
        a + l ≤ s.pcieWin 1 + 2 ^ 28 →
        exec (.pcieOutbound a l w d) s = .next (if s.pcieWin 0 ≤ a ∧ a + l ≤ s.pcieWin 0 + 2 ^ 36 then s.send (.tlp w a [0, l] d) else s.send (.tlp w a [1, l] d))) ∧
  (∀ (r : BitVec 2) (w : Nat) (f : Bool) (s : State), (s.blkIs 1 pgPcie 4 = false ∧ s.alive 1 = true) →
        (f = false ∨ r ≠ 0 ∧ 0 < w ∧ w ≤ 8) →
        exec (.pcieLinkUp r w f) s = .next (if f = true then s.wr 1 pgPcie 0x080 (1 + r.toNat * 2 + w * 2 ^ 3) else s.wr 1 pgPcie 0x080 (2 ^ 7))) ∧
  (∀ (s : State), exec (.pcieLinkDown) s = .next (s.wrF 1 pgPcie 0x080 0 7 0)) ∧
  (∀ (s : State), s.power.off.isEmpty = true →
        s.now 0 % 1000000000 = 0 →
        exec (.ppsPulse) s = .next ((s.send (.pin .ppsOut true)).send (.pin .ppsOut false))) ∧
  (∀ (d : Die) (c : Fin 9) (s : State), exec (.coreMachineCheck d c) s = .next ((((s.setErr d pgApc 9).incF d pgApc 0x098 0 32 1).histEvent 2 d c 4).send (.note (.machineCheck d c)))) ∧
  (∀ (s : State), s.power.off.contains .vaux = false →
        s.resets.stage ≠ 0 →
        exec (.smbusBlockRead) s = .next (s.send (.block s.boardRecord)))
end

