-- ==== Sys2Proof/Laws/Requests.lean ====
section
/-! SUPPORT. What the home does with a request, and a mailbox with a message, said once (14 R314, R316; 20 R427, R430). -/

namespace Sys2Proof.Machine

@[simp] theorem inTurn_regs (s : State) (r : Req) : (s.inTurn r).regs = s.regs := by
  unfold State.inTurn
  repeat' split
  all_goals rfl

@[simp] theorem inTurn_ident (s : State) (r : Req) : (s.inTurn r).ident = s.ident := by
  unfold State.inTurn
  repeat' split
  all_goals rfl

@[simp] theorem inTurn_rd (s : State) (r : Req) (d pg off : Nat) : (s.inTurn r).rd d pg off = s.rd d pg off := by
  simp [State.rd]

@[simp] theorem inTurn_ageOf (s : State) (r : Req) : (s.inTurn r).ageOf r = s.ageOf r := by
  simp [State.ageOf, State.now]

@[simp] theorem inTurn_fenced (s : State) (r : Req) (x : Nat) : (s.inTurn r).fenced x = s.fenced x := by
  unfold State.fenced State.rdF
  rw [inTurn_rd]

@[simp] theorem inTurn_device (s : State) (r : Req) : (s.inTurn r).device = s.device := by
  simp [State.device]

/-- A request from another part is in turn: the order of a port's transfers is kept where they issue. -/
theorem inTurn_remote {s : State} {r : Req} {x : DevIx} (h : r.src = some x) : s.inTurn r = s := by
  simp [State.inTurn, h]

/-- A request that its home takes is handled by the rule of its type, a transfer of a port being noted as performed. -/
theorem atHome_takes {s : State} {r : Req} {stream : Bool} (h : s.takes r stream) (c : Bool) (f : State → State) :
    s.atHome r c f stream = f (s.inTurn r) := by
  obtain ⟨h1, h2, h3, h4, ha, hf, hd⟩ := h
  cases hs : r.src with
  | none => simp [State.atHome, h1, h2, h3, h4 hs, hd, hs, Nat.not_lt.2 ha]
  | some x => simp [State.atHome, h1, h2, h3, hd, hs, Nat.not_lt.2 ha, hf x hs]

/-- A request to another part is refused with the routing error (14 R314). -/
theorem atHome_misrouted {s : State} {r : Req} {stream : Bool} (h1 : s.homeWaits r.addr.toNat = false)
    (h2 : s.pathOpen (reqEntry r) (addrDie r.addr.toNat) (if stream then some r.addr.toNat else none) = true) (h3 : s.outOfTurn r = false)
    (h4 : r.src = none → r.w.origin ≠ .dbg) (ha : s.ageOf r ≤ 78125)
    (hf : ∀ x, r.src = some x → s.fenced x.val = false) (hd : addrDev r.addr.toNat ≠ s.device) (c : Bool)
    (f : State → State) :
    s.atHome r c f stream = (if c then ((s.inTurn r).setErr (addrDie r.addr.toNat) pgRtr 15).noCert 6
      else (s.inTurn r).setErr (addrDie r.addr.toNat) pgRtr 15).answer r .refused [] := by
  cases hs : r.src with
  | none => simp [State.atHome, h1, h2, h3, h4 hs, hd, hs, Nat.not_lt.2 ha]
  | some x => simp [State.atHome, h1, h2, h3, hd, hs, Nat.not_lt.2 ha, hf x hs]

/-- A message that nothing in its header ends is answered with the status and the body that its effect gives. -/
theorem msgRow_ok {s : State} {n : Mbox} {svc type : Nat} {m : Msg} (h : s.msgReady n svc type m)
    (eff : State → Msg → Nat × List Byte × State) :
    s.msgRow n svc type eff = .next ((eff s m).2.2.replyMsg n.val m (eff s m).1 (eff s m).2.1) := by
  obtain ⟨h1, h2, h3⟩ := h
  simp [State.msgRow, h1, h2, h3, State.leavesMsg]

/-- A message that its header ends is answered with that status, and nothing else happens. -/
theorem msgRow_header {s : State} {n : Mbox} {svc type : Nat} {m : Msg} (h1 : s.msgIn n.val svc type = some m) {st : Nat}
    (h3 : s.headerStatus n.val m = some st) (eff : State → Msg → Nat × List Byte × State) :
    s.msgRow n svc type eff = .next (s.replyMsg n.val m st []) := by
  simp [State.msgRow, h1, h3]

/-- A message under another minor of the API that no check ends is processed or left, and answered: the machine goes on
(R430, 00 R4). -/
theorem msgRow_minor {s : State} {n : Mbox} {svc type : Nat} {m : Msg} (h1 : s.msgIn n.val svc type = some m)
    (h2 : s.badMinor m = true) (h3 : s.headerStatus n.val m = none) (eff : State → Msg → Nat × List Byte × State) :
    s.msgRow n svc type eff = .next (if s.leavesMsg m then s.oddReply n.val m
      else (eff (s.took 1) m).2.2.replyMsg n.val m (eff (s.took 1) m).1 (eff (s.took 1) m).2.1) := by
  simp only [State.msgRow, h1, h2, h3]
  split <;> rfl

end Sys2Proof.Machine
end

