-- ==== Sys2Proof/Laws/State.lean ====
section
/-! SUPPORT. What each field holds after each plain update of the state: one lemma for a field and an update. -/

namespace Sys2Proof.Machine

/-! ### wr -/

section
variable (s : State) (d pg off v : Nat)
@[simp] theorem State.wr_pending : (s.wr d pg off v).pending = s.pending := (rfl)
@[simp] theorem State.wr_freeIdx : (s.wr d pg off v).freeIdx = s.freeIdx := (rfl)
@[simp] theorem State.wr_sent : (s.wr d pg off v).sent = s.sent := (rfl)
@[simp] theorem State.wr_inForce : (s.wr d pg off v).inForce = s.inForce := (rfl)
@[simp] theorem State.wr_log : (s.wr d pg off v).log = s.log := (rfl)
@[simp] theorem State.wr_chg : (s.wr d pg off v).chg = s.chg := (rfl)
@[simp] theorem State.wr_heldW : (s.wr d pg off v).heldW = s.heldW := (rfl)
@[simp] theorem State.wr_routes : (s.wr d pg off v).routes = s.routes := (rfl)
@[simp] theorem State.wr_books : (s.wr d pg off v).books = s.books := (rfl)
@[simp] theorem State.wr_sec : (s.wr d pg off v).sec = s.sec := (rfl)
@[simp] theorem State.wr_ident : (s.wr d pg off v).ident = s.ident := (rfl)
@[simp] theorem State.wr_units : (s.wr d pg off v).units = s.units := (rfl)
@[simp] theorem State.wr_step : (s.wr d pg off v).step = s.step := (rfl)
@[simp] theorem State.wr_fenceSelf : (s.wr d pg off v).fenceSelf = s.fenceSelf := (rfl)
@[simp] theorem State.wr_retained : (s.wr d pg off v).retained = s.retained := (rfl)
@[simp] theorem State.wr_tensors : (s.wr d pg off v).tensors = s.tensors := (rfl)
@[simp] theorem State.wr_leader : (s.wr d pg off v).leader = s.leader := (rfl)
@[simp] theorem State.wr_mxe : (s.wr d pg off v).mxe = s.mxe := (rfl)
@[simp] theorem State.wr_gather : (s.wr d pg off v).gather = s.gather := (rfl)
@[simp] theorem State.wr_vxe : (s.wr d pg off v).vxe = s.vxe := (rfl)
@[simp] theorem State.wr_slots : (s.wr d pg off v).slots = s.slots := (rfl)
@[simp] theorem State.wr_staging : (s.wr d pg off v).staging = s.staging := (rfl)
@[simp] theorem State.wr_ports : (s.wr d pg off v).ports = s.ports := (rfl)
@[simp] theorem State.wr_mem : (s.wr d pg off v).mem = s.mem := (rfl)
@[simp] theorem State.wr_ctx : (s.wr d pg off v).ctx = s.ctx := (rfl)
@[simp] theorem State.wr_history : (s.wr d pg off v).history = s.history := (rfl)
@[simp] theorem State.wr_dieEnv : (s.wr d pg off v).dieEnv = s.dieEnv := (rfl)
@[simp] theorem State.wr_fabric : (s.wr d pg off v).fabric = s.fabric := (rfl)
@[simp] theorem State.wr_wtab : (s.wr d pg off v).wtab = s.wtab := (rfl)
@[simp] theorem State.wr_dup : (s.wr d pg off v).dup = s.dup := (rfl)
@[simp] theorem State.wr_digest : (s.wr d pg off v).digest = s.digest := (rfl)
@[simp] theorem State.wr_power : (s.wr d pg off v).power = s.power := (rfl)
@[simp] theorem State.wr_time : (s.wr d pg off v).time = s.time := (rfl)
@[simp] theorem State.wr_cue : (s.wr d pg off v).cue = s.cue := (rfl)
@[simp] theorem State.wr_ckpt : (s.wr d pg off v).ckpt = s.ckpt := (rfl)
@[simp] theorem State.wr_resets : (s.wr d pg off v).resets = s.resets := (rfl)
@[simp] theorem State.wr_fw : (s.wr d pg off v).fw = s.fw := (rfl)
@[simp] theorem State.wr_hang : (s.wr d pg off v).hang = s.hang := (rfl)
@[simp] theorem State.wr_io : (s.wr d pg off v).io = s.io := (rfl)
end

/-! ### wrF -/

section
variable (s : State) (d pg off lo n v : Nat)
@[simp] theorem State.wrF_pending : (s.wrF d pg off lo n v).pending = s.pending := (rfl)
@[simp] theorem State.wrF_freeIdx : (s.wrF d pg off lo n v).freeIdx = s.freeIdx := (rfl)
@[simp] theorem State.wrF_sent : (s.wrF d pg off lo n v).sent = s.sent := (rfl)
@[simp] theorem State.wrF_inForce : (s.wrF d pg off lo n v).inForce = s.inForce := (rfl)
@[simp] theorem State.wrF_log : (s.wrF d pg off lo n v).log = s.log := (rfl)
@[simp] theorem State.wrF_chg : (s.wrF d pg off lo n v).chg = s.chg := (rfl)
@[simp] theorem State.wrF_heldW : (s.wrF d pg off lo n v).heldW = s.heldW := (rfl)
@[simp] theorem State.wrF_routes : (s.wrF d pg off lo n v).routes = s.routes := (rfl)
@[simp] theorem State.wrF_books : (s.wrF d pg off lo n v).books = s.books := (rfl)
@[simp] theorem State.wrF_sec : (s.wrF d pg off lo n v).sec = s.sec := (rfl)
@[simp] theorem State.wrF_ident : (s.wrF d pg off lo n v).ident = s.ident := (rfl)
@[simp] theorem State.wrF_units : (s.wrF d pg off lo n v).units = s.units := (rfl)
@[simp] theorem State.wrF_step : (s.wrF d pg off lo n v).step = s.step := (rfl)
@[simp] theorem State.wrF_fenceSelf : (s.wrF d pg off lo n v).fenceSelf = s.fenceSelf := (rfl)
@[simp] theorem State.wrF_retained : (s.wrF d pg off lo n v).retained = s.retained := (rfl)
@[simp] theorem State.wrF_tensors : (s.wrF d pg off lo n v).tensors = s.tensors := (rfl)
@[simp] theorem State.wrF_leader : (s.wrF d pg off lo n v).leader = s.leader := (rfl)
@[simp] theorem State.wrF_mxe : (s.wrF d pg off lo n v).mxe = s.mxe := (rfl)
@[simp] theorem State.wrF_gather : (s.wrF d pg off lo n v).gather = s.gather := (rfl)
@[simp] theorem State.wrF_vxe : (s.wrF d pg off lo n v).vxe = s.vxe := (rfl)
@[simp] theorem State.wrF_slots : (s.wrF d pg off lo n v).slots = s.slots := (rfl)
@[simp] theorem State.wrF_staging : (s.wrF d pg off lo n v).staging = s.staging := (rfl)
@[simp] theorem State.wrF_ports : (s.wrF d pg off lo n v).ports = s.ports := (rfl)
@[simp] theorem State.wrF_mem : (s.wrF d pg off lo n v).mem = s.mem := (rfl)
@[simp] theorem State.wrF_ctx : (s.wrF d pg off lo n v).ctx = s.ctx := (rfl)
@[simp] theorem State.wrF_history : (s.wrF d pg off lo n v).history = s.history := (rfl)
@[simp] theorem State.wrF_dieEnv : (s.wrF d pg off lo n v).dieEnv = s.dieEnv := (rfl)
@[simp] theorem State.wrF_fabric : (s.wrF d pg off lo n v).fabric = s.fabric := (rfl)
@[simp] theorem State.wrF_wtab : (s.wrF d pg off lo n v).wtab = s.wtab := (rfl)
@[simp] theorem State.wrF_dup : (s.wrF d pg off lo n v).dup = s.dup := (rfl)
@[simp] theorem State.wrF_digest : (s.wrF d pg off lo n v).digest = s.digest := (rfl)
@[simp] theorem State.wrF_power : (s.wrF d pg off lo n v).power = s.power := (rfl)
@[simp] theorem State.wrF_time : (s.wrF d pg off lo n v).time = s.time := (rfl)
@[simp] theorem State.wrF_cue : (s.wrF d pg off lo n v).cue = s.cue := (rfl)
@[simp] theorem State.wrF_ckpt : (s.wrF d pg off lo n v).ckpt = s.ckpt := (rfl)
@[simp] theorem State.wrF_resets : (s.wrF d pg off lo n v).resets = s.resets := (rfl)
@[simp] theorem State.wrF_fw : (s.wrF d pg off lo n v).fw = s.fw := (rfl)
@[simp] theorem State.wrF_hang : (s.wrF d pg off lo n v).hang = s.hang := (rfl)
@[simp] theorem State.wrF_io : (s.wrF d pg off lo n v).io = s.io := (rfl)
end

/-! ### incF -/

section
variable (s : State) (d pg off lo n v : Nat)
@[simp] theorem State.incF_pending : (s.incF d pg off lo n v).pending = s.pending := (rfl)
@[simp] theorem State.incF_freeIdx : (s.incF d pg off lo n v).freeIdx = s.freeIdx := (rfl)
@[simp] theorem State.incF_sent : (s.incF d pg off lo n v).sent = s.sent := (rfl)
@[simp] theorem State.incF_inForce : (s.incF d pg off lo n v).inForce = s.inForce := (rfl)
@[simp] theorem State.incF_log : (s.incF d pg off lo n v).log = s.log := (rfl)
@[simp] theorem State.incF_chg : (s.incF d pg off lo n v).chg = s.chg := (rfl)
@[simp] theorem State.incF_heldW : (s.incF d pg off lo n v).heldW = s.heldW := (rfl)
@[simp] theorem State.incF_routes : (s.incF d pg off lo n v).routes = s.routes := (rfl)
@[simp] theorem State.incF_books : (s.incF d pg off lo n v).books = s.books := (rfl)
@[simp] theorem State.incF_sec : (s.incF d pg off lo n v).sec = s.sec := (rfl)
@[simp] theorem State.incF_ident : (s.incF d pg off lo n v).ident = s.ident := (rfl)
@[simp] theorem State.incF_units : (s.incF d pg off lo n v).units = s.units := (rfl)
@[simp] theorem State.incF_step : (s.incF d pg off lo n v).step = s.step := (rfl)
@[simp] theorem State.incF_fenceSelf : (s.incF d pg off lo n v).fenceSelf = s.fenceSelf := (rfl)
@[simp] theorem State.incF_retained : (s.incF d pg off lo n v).retained = s.retained := (rfl)
@[simp] theorem State.incF_tensors : (s.incF d pg off lo n v).tensors = s.tensors := (rfl)
@[simp] theorem State.incF_leader : (s.incF d pg off lo n v).leader = s.leader := (rfl)
@[simp] theorem State.incF_mxe : (s.incF d pg off lo n v).mxe = s.mxe := (rfl)
@[simp] theorem State.incF_gather : (s.incF d pg off lo n v).gather = s.gather := (rfl)
@[simp] theorem State.incF_vxe : (s.incF d pg off lo n v).vxe = s.vxe := (rfl)
@[simp] theorem State.incF_slots : (s.incF d pg off lo n v).slots = s.slots := (rfl)
@[simp] theorem State.incF_staging : (s.incF d pg off lo n v).staging = s.staging := (rfl)
@[simp] theorem State.incF_ports : (s.incF d pg off lo n v).ports = s.ports := (rfl)
@[simp] theorem State.incF_mem : (s.incF d pg off lo n v).mem = s.mem := (rfl)
@[simp] theorem State.incF_ctx : (s.incF d pg off lo n v).ctx = s.ctx := (rfl)
@[simp] theorem State.incF_history : (s.incF d pg off lo n v).history = s.history := (rfl)
@[simp] theorem State.incF_dieEnv : (s.incF d pg off lo n v).dieEnv = s.dieEnv := (rfl)
@[simp] theorem State.incF_fabric : (s.incF d pg off lo n v).fabric = s.fabric := (rfl)
@[simp] theorem State.incF_wtab : (s.incF d pg off lo n v).wtab = s.wtab := (rfl)
@[simp] theorem State.incF_dup : (s.incF d pg off lo n v).dup = s.dup := (rfl)
@[simp] theorem State.incF_digest : (s.incF d pg off lo n v).digest = s.digest := (rfl)
@[simp] theorem State.incF_power : (s.incF d pg off lo n v).power = s.power := (rfl)
@[simp] theorem State.incF_time : (s.incF d pg off lo n v).time = s.time := (rfl)
@[simp] theorem State.incF_cue : (s.incF d pg off lo n v).cue = s.cue := (rfl)
@[simp] theorem State.incF_ckpt : (s.incF d pg off lo n v).ckpt = s.ckpt := (rfl)
@[simp] theorem State.incF_resets : (s.incF d pg off lo n v).resets = s.resets := (rfl)
@[simp] theorem State.incF_fw : (s.incF d pg off lo n v).fw = s.fw := (rfl)
@[simp] theorem State.incF_hang : (s.incF d pg off lo n v).hang = s.hang := (rfl)
@[simp] theorem State.incF_io : (s.incF d pg off lo n v).io = s.io := (rfl)
end

/-! ### satF -/

section
variable (s : State) (d pg off lo n v : Nat)
@[simp] theorem State.satF_pending : (s.satF d pg off lo n v).pending = s.pending := (rfl)
@[simp] theorem State.satF_freeIdx : (s.satF d pg off lo n v).freeIdx = s.freeIdx := (rfl)
@[simp] theorem State.satF_sent : (s.satF d pg off lo n v).sent = s.sent := (rfl)
@[simp] theorem State.satF_inForce : (s.satF d pg off lo n v).inForce = s.inForce := (rfl)
@[simp] theorem State.satF_log : (s.satF d pg off lo n v).log = s.log := (rfl)
@[simp] theorem State.satF_chg : (s.satF d pg off lo n v).chg = s.chg := (rfl)
@[simp] theorem State.satF_heldW : (s.satF d pg off lo n v).heldW = s.heldW := (rfl)
@[simp] theorem State.satF_routes : (s.satF d pg off lo n v).routes = s.routes := (rfl)
@[simp] theorem State.satF_books : (s.satF d pg off lo n v).books = s.books := (rfl)
@[simp] theorem State.satF_sec : (s.satF d pg off lo n v).sec = s.sec := (rfl)
@[simp] theorem State.satF_ident : (s.satF d pg off lo n v).ident = s.ident := (rfl)
@[simp] theorem State.satF_units : (s.satF d pg off lo n v).units = s.units := (rfl)
@[simp] theorem State.satF_step : (s.satF d pg off lo n v).step = s.step := (rfl)
@[simp] theorem State.satF_fenceSelf : (s.satF d pg off lo n v).fenceSelf = s.fenceSelf := (rfl)
@[simp] theorem State.satF_retained : (s.satF d pg off lo n v).retained = s.retained := (rfl)
@[simp] theorem State.satF_tensors : (s.satF d pg off lo n v).tensors = s.tensors := (rfl)
@[simp] theorem State.satF_leader : (s.satF d pg off lo n v).leader = s.leader := (rfl)
@[simp] theorem State.satF_mxe : (s.satF d pg off lo n v).mxe = s.mxe := (rfl)
@[simp] theorem State.satF_gather : (s.satF d pg off lo n v).gather = s.gather := (rfl)
@[simp] theorem State.satF_vxe : (s.satF d pg off lo n v).vxe = s.vxe := (rfl)
@[simp] theorem State.satF_slots : (s.satF d pg off lo n v).slots = s.slots := (rfl)
@[simp] theorem State.satF_staging : (s.satF d pg off lo n v).staging = s.staging := (rfl)
@[simp] theorem State.satF_ports : (s.satF d pg off lo n v).ports = s.ports := (rfl)
@[simp] theorem State.satF_mem : (s.satF d pg off lo n v).mem = s.mem := (rfl)
@[simp] theorem State.satF_ctx : (s.satF d pg off lo n v).ctx = s.ctx := (rfl)
@[simp] theorem State.satF_history : (s.satF d pg off lo n v).history = s.history := (rfl)
@[simp] theorem State.satF_dieEnv : (s.satF d pg off lo n v).dieEnv = s.dieEnv := (rfl)
@[simp] theorem State.satF_fabric : (s.satF d pg off lo n v).fabric = s.fabric := (rfl)
@[simp] theorem State.satF_wtab : (s.satF d pg off lo n v).wtab = s.wtab := (rfl)
@[simp] theorem State.satF_dup : (s.satF d pg off lo n v).dup = s.dup := (rfl)
@[simp] theorem State.satF_digest : (s.satF d pg off lo n v).digest = s.digest := (rfl)
@[simp] theorem State.satF_power : (s.satF d pg off lo n v).power = s.power := (rfl)
@[simp] theorem State.satF_time : (s.satF d pg off lo n v).time = s.time := (rfl)
@[simp] theorem State.satF_cue : (s.satF d pg off lo n v).cue = s.cue := (rfl)
@[simp] theorem State.satF_ckpt : (s.satF d pg off lo n v).ckpt = s.ckpt := (rfl)
@[simp] theorem State.satF_resets : (s.satF d pg off lo n v).resets = s.resets := (rfl)
@[simp] theorem State.satF_fw : (s.satF d pg off lo n v).fw = s.fw := (rfl)
@[simp] theorem State.satF_hang : (s.satF d pg off lo n v).hang = s.hang := (rfl)
@[simp] theorem State.satF_io : (s.satF d pg off lo n v).io = s.io := (rfl)
end

/-! ### maxF -/

section
variable (s : State) (d pg off lo n v : Nat)
@[simp] theorem State.maxF_pending : (s.maxF d pg off lo n v).pending = s.pending := (rfl)
@[simp] theorem State.maxF_freeIdx : (s.maxF d pg off lo n v).freeIdx = s.freeIdx := (rfl)
@[simp] theorem State.maxF_sent : (s.maxF d pg off lo n v).sent = s.sent := (rfl)
@[simp] theorem State.maxF_inForce : (s.maxF d pg off lo n v).inForce = s.inForce := (rfl)
@[simp] theorem State.maxF_log : (s.maxF d pg off lo n v).log = s.log := (rfl)
@[simp] theorem State.maxF_chg : (s.maxF d pg off lo n v).chg = s.chg := (rfl)
@[simp] theorem State.maxF_heldW : (s.maxF d pg off lo n v).heldW = s.heldW := (rfl)
@[simp] theorem State.maxF_routes : (s.maxF d pg off lo n v).routes = s.routes := (rfl)
@[simp] theorem State.maxF_books : (s.maxF d pg off lo n v).books = s.books := (rfl)
@[simp] theorem State.maxF_sec : (s.maxF d pg off lo n v).sec = s.sec := (rfl)
@[simp] theorem State.maxF_ident : (s.maxF d pg off lo n v).ident = s.ident := (rfl)
@[simp] theorem State.maxF_units : (s.maxF d pg off lo n v).units = s.units := (rfl)
@[simp] theorem State.maxF_step : (s.maxF d pg off lo n v).step = s.step := (rfl)
@[simp] theorem State.maxF_fenceSelf : (s.maxF d pg off lo n v).fenceSelf = s.fenceSelf := (rfl)
@[simp] theorem State.maxF_retained : (s.maxF d pg off lo n v).retained = s.retained := (rfl)
@[simp] theorem State.maxF_tensors : (s.maxF d pg off lo n v).tensors = s.tensors := (rfl)
@[simp] theorem State.maxF_leader : (s.maxF d pg off lo n v).leader = s.leader := (rfl)
@[simp] theorem State.maxF_mxe : (s.maxF d pg off lo n v).mxe = s.mxe := (rfl)
@[simp] theorem State.maxF_gather : (s.maxF d pg off lo n v).gather = s.gather := (rfl)
@[simp] theorem State.maxF_vxe : (s.maxF d pg off lo n v).vxe = s.vxe := (rfl)
@[simp] theorem State.maxF_slots : (s.maxF d pg off lo n v).slots = s.slots := (rfl)
@[simp] theorem State.maxF_staging : (s.maxF d pg off lo n v).staging = s.staging := (rfl)
@[simp] theorem State.maxF_ports : (s.maxF d pg off lo n v).ports = s.ports := (rfl)
@[simp] theorem State.maxF_mem : (s.maxF d pg off lo n v).mem = s.mem := (rfl)
@[simp] theorem State.maxF_ctx : (s.maxF d pg off lo n v).ctx = s.ctx := (rfl)
@[simp] theorem State.maxF_history : (s.maxF d pg off lo n v).history = s.history := (rfl)
@[simp] theorem State.maxF_dieEnv : (s.maxF d pg off lo n v).dieEnv = s.dieEnv := (rfl)
@[simp] theorem State.maxF_fabric : (s.maxF d pg off lo n v).fabric = s.fabric := (rfl)
@[simp] theorem State.maxF_wtab : (s.maxF d pg off lo n v).wtab = s.wtab := (rfl)
@[simp] theorem State.maxF_dup : (s.maxF d pg off lo n v).dup = s.dup := (rfl)
@[simp] theorem State.maxF_digest : (s.maxF d pg off lo n v).digest = s.digest := (rfl)
@[simp] theorem State.maxF_power : (s.maxF d pg off lo n v).power = s.power := (rfl)
@[simp] theorem State.maxF_time : (s.maxF d pg off lo n v).time = s.time := (rfl)
@[simp] theorem State.maxF_cue : (s.maxF d pg off lo n v).cue = s.cue := (rfl)
@[simp] theorem State.maxF_ckpt : (s.maxF d pg off lo n v).ckpt = s.ckpt := (rfl)
@[simp] theorem State.maxF_resets : (s.maxF d pg off lo n v).resets = s.resets := (rfl)
@[simp] theorem State.maxF_fw : (s.maxF d pg off lo n v).fw = s.fw := (rfl)
@[simp] theorem State.maxF_hang : (s.maxF d pg off lo n v).hang = s.hang := (rfl)
@[simp] theorem State.maxF_io : (s.maxF d pg off lo n v).io = s.io := (rfl)
end

/-! ### enforce -/

section
variable (s : State) (d pg off : Nat)
@[simp] theorem State.enforce_pending : (s.enforce d pg off).pending = s.pending := (rfl)
@[simp] theorem State.enforce_freeIdx : (s.enforce d pg off).freeIdx = s.freeIdx := (rfl)
@[simp] theorem State.enforce_sent : (s.enforce d pg off).sent = s.sent := (rfl)
@[simp] theorem State.enforce_regs : (s.enforce d pg off).regs = s.regs := (rfl)
@[simp] theorem State.enforce_log : (s.enforce d pg off).log = s.log := (rfl)
@[simp] theorem State.enforce_chg : (s.enforce d pg off).chg = s.chg := (rfl)
@[simp] theorem State.enforce_heldW : (s.enforce d pg off).heldW = s.heldW := (rfl)
@[simp] theorem State.enforce_routes : (s.enforce d pg off).routes = s.routes := (rfl)
@[simp] theorem State.enforce_books : (s.enforce d pg off).books = s.books := (rfl)
@[simp] theorem State.enforce_sec : (s.enforce d pg off).sec = s.sec := (rfl)
@[simp] theorem State.enforce_ident : (s.enforce d pg off).ident = s.ident := (rfl)
@[simp] theorem State.enforce_units : (s.enforce d pg off).units = s.units := (rfl)
@[simp] theorem State.enforce_step : (s.enforce d pg off).step = s.step := (rfl)
@[simp] theorem State.enforce_fenceSelf : (s.enforce d pg off).fenceSelf = s.fenceSelf := (rfl)
@[simp] theorem State.enforce_retained : (s.enforce d pg off).retained = s.retained := (rfl)
@[simp] theorem State.enforce_tensors : (s.enforce d pg off).tensors = s.tensors := (rfl)
@[simp] theorem State.enforce_leader : (s.enforce d pg off).leader = s.leader := (rfl)
@[simp] theorem State.enforce_mxe : (s.enforce d pg off).mxe = s.mxe := (rfl)
@[simp] theorem State.enforce_gather : (s.enforce d pg off).gather = s.gather := (rfl)
@[simp] theorem State.enforce_vxe : (s.enforce d pg off).vxe = s.vxe := (rfl)
@[simp] theorem State.enforce_slots : (s.enforce d pg off).slots = s.slots := (rfl)
@[simp] theorem State.enforce_staging : (s.enforce d pg off).staging = s.staging := (rfl)
@[simp] theorem State.enforce_ports : (s.enforce d pg off).ports = s.ports := (rfl)
@[simp] theorem State.enforce_mem : (s.enforce d pg off).mem = s.mem := (rfl)
@[simp] theorem State.enforce_ctx : (s.enforce d pg off).ctx = s.ctx := (rfl)
@[simp] theorem State.enforce_history : (s.enforce d pg off).history = s.history := (rfl)
@[simp] theorem State.enforce_dieEnv : (s.enforce d pg off).dieEnv = s.dieEnv := (rfl)
@[simp] theorem State.enforce_fabric : (s.enforce d pg off).fabric = s.fabric := (rfl)
@[simp] theorem State.enforce_wtab : (s.enforce d pg off).wtab = s.wtab := (rfl)
@[simp] theorem State.enforce_dup : (s.enforce d pg off).dup = s.dup := (rfl)
@[simp] theorem State.enforce_digest : (s.enforce d pg off).digest = s.digest := (rfl)
@[simp] theorem State.enforce_power : (s.enforce d pg off).power = s.power := (rfl)
@[simp] theorem State.enforce_time : (s.enforce d pg off).time = s.time := (rfl)
@[simp] theorem State.enforce_cue : (s.enforce d pg off).cue = s.cue := (rfl)
@[simp] theorem State.enforce_ckpt : (s.enforce d pg off).ckpt = s.ckpt := (rfl)
@[simp] theorem State.enforce_resets : (s.enforce d pg off).resets = s.resets := (rfl)
@[simp] theorem State.enforce_fw : (s.enforce d pg off).fw = s.fw := (rfl)
@[simp] theorem State.enforce_hang : (s.enforce d pg off).hang = s.hang := (rfl)
@[simp] theorem State.enforce_io : (s.enforce d pg off).io = s.io := (rfl)
end

/-! ### took -/

section
variable (s : State) (n : Nat)
@[simp] theorem State.took_pending : (s.took n).pending = s.pending := (rfl)
@[simp] theorem State.took_sent : (s.took n).sent = s.sent := (rfl)
@[simp] theorem State.took_regs : (s.took n).regs = s.regs := (rfl)
@[simp] theorem State.took_inForce : (s.took n).inForce = s.inForce := (rfl)
@[simp] theorem State.took_log : (s.took n).log = s.log := (rfl)
@[simp] theorem State.took_chg : (s.took n).chg = s.chg := (rfl)
@[simp] theorem State.took_heldW : (s.took n).heldW = s.heldW := (rfl)
@[simp] theorem State.took_routes : (s.took n).routes = s.routes := (rfl)
@[simp] theorem State.took_books : (s.took n).books = s.books := (rfl)
@[simp] theorem State.took_sec : (s.took n).sec = s.sec := (rfl)
@[simp] theorem State.took_ident : (s.took n).ident = s.ident := (rfl)
@[simp] theorem State.took_units : (s.took n).units = s.units := (rfl)
@[simp] theorem State.took_step : (s.took n).step = s.step := (rfl)
@[simp] theorem State.took_fenceSelf : (s.took n).fenceSelf = s.fenceSelf := (rfl)
@[simp] theorem State.took_retained : (s.took n).retained = s.retained := (rfl)
@[simp] theorem State.took_tensors : (s.took n).tensors = s.tensors := (rfl)
@[simp] theorem State.took_leader : (s.took n).leader = s.leader := (rfl)
@[simp] theorem State.took_mxe : (s.took n).mxe = s.mxe := (rfl)
@[simp] theorem State.took_gather : (s.took n).gather = s.gather := (rfl)
@[simp] theorem State.took_vxe : (s.took n).vxe = s.vxe := (rfl)
@[simp] theorem State.took_slots : (s.took n).slots = s.slots := (rfl)
@[simp] theorem State.took_staging : (s.took n).staging = s.staging := (rfl)
@[simp] theorem State.took_ports : (s.took n).ports = s.ports := (rfl)
@[simp] theorem State.took_mem : (s.took n).mem = s.mem := (rfl)
@[simp] theorem State.took_ctx : (s.took n).ctx = s.ctx := (rfl)
@[simp] theorem State.took_history : (s.took n).history = s.history := (rfl)
@[simp] theorem State.took_dieEnv : (s.took n).dieEnv = s.dieEnv := (rfl)
@[simp] theorem State.took_fabric : (s.took n).fabric = s.fabric := (rfl)
@[simp] theorem State.took_wtab : (s.took n).wtab = s.wtab := (rfl)
@[simp] theorem State.took_dup : (s.took n).dup = s.dup := (rfl)
@[simp] theorem State.took_digest : (s.took n).digest = s.digest := (rfl)
@[simp] theorem State.took_power : (s.took n).power = s.power := (rfl)
@[simp] theorem State.took_time : (s.took n).time = s.time := (rfl)
@[simp] theorem State.took_cue : (s.took n).cue = s.cue := (rfl)
@[simp] theorem State.took_ckpt : (s.took n).ckpt = s.ckpt := (rfl)
@[simp] theorem State.took_resets : (s.took n).resets = s.resets := (rfl)
@[simp] theorem State.took_fw : (s.took n).fw = s.fw := (rfl)
@[simp] theorem State.took_hang : (s.took n).hang = s.hang := (rfl)
@[simp] theorem State.took_io : (s.took n).io = s.io := (rfl)
end

/-! ### send -/

section
variable (s : State) (o : Out)
@[simp] theorem State.send_pending : (s.send o).pending = s.pending := (rfl)
@[simp] theorem State.send_freeIdx : (s.send o).freeIdx = s.freeIdx := (rfl)
@[simp] theorem State.send_regs : (s.send o).regs = s.regs := (rfl)
@[simp] theorem State.send_inForce : (s.send o).inForce = s.inForce := (rfl)
@[simp] theorem State.send_log : (s.send o).log = s.log := (rfl)
@[simp] theorem State.send_chg : (s.send o).chg = s.chg := (rfl)
@[simp] theorem State.send_heldW : (s.send o).heldW = s.heldW := (rfl)
@[simp] theorem State.send_routes : (s.send o).routes = s.routes := (rfl)
@[simp] theorem State.send_books : (s.send o).books = s.books := (rfl)
@[simp] theorem State.send_sec : (s.send o).sec = s.sec := (rfl)
@[simp] theorem State.send_ident : (s.send o).ident = s.ident := (rfl)
@[simp] theorem State.send_units : (s.send o).units = s.units := (rfl)
@[simp] theorem State.send_step : (s.send o).step = s.step := (rfl)
@[simp] theorem State.send_fenceSelf : (s.send o).fenceSelf = s.fenceSelf := (rfl)
@[simp] theorem State.send_retained : (s.send o).retained = s.retained := (rfl)
@[simp] theorem State.send_tensors : (s.send o).tensors = s.tensors := (rfl)
@[simp] theorem State.send_leader : (s.send o).leader = s.leader := (rfl)
@[simp] theorem State.send_mxe : (s.send o).mxe = s.mxe := (rfl)
@[simp] theorem State.send_gather : (s.send o).gather = s.gather := (rfl)
@[simp] theorem State.send_vxe : (s.send o).vxe = s.vxe := (rfl)
@[simp] theorem State.send_slots : (s.send o).slots = s.slots := (rfl)
@[simp] theorem State.send_staging : (s.send o).staging = s.staging := (rfl)
@[simp] theorem State.send_ports : (s.send o).ports = s.ports := (rfl)
@[simp] theorem State.send_mem : (s.send o).mem = s.mem := (rfl)
@[simp] theorem State.send_ctx : (s.send o).ctx = s.ctx := (rfl)
@[simp] theorem State.send_history : (s.send o).history = s.history := (rfl)
@[simp] theorem State.send_dieEnv : (s.send o).dieEnv = s.dieEnv := (rfl)
@[simp] theorem State.send_fabric : (s.send o).fabric = s.fabric := (rfl)
@[simp] theorem State.send_wtab : (s.send o).wtab = s.wtab := (rfl)
@[simp] theorem State.send_dup : (s.send o).dup = s.dup := (rfl)
@[simp] theorem State.send_digest : (s.send o).digest = s.digest := (rfl)
@[simp] theorem State.send_power : (s.send o).power = s.power := (rfl)
@[simp] theorem State.send_time : (s.send o).time = s.time := (rfl)
@[simp] theorem State.send_cue : (s.send o).cue = s.cue := (rfl)
@[simp] theorem State.send_ckpt : (s.send o).ckpt = s.ckpt := (rfl)
@[simp] theorem State.send_resets : (s.send o).resets = s.resets := (rfl)
@[simp] theorem State.send_fw : (s.send o).fw = s.fw := (rfl)
@[simp] theorem State.send_hang : (s.send o).hang = s.hang := (rfl)
@[simp] theorem State.send_io : (s.send o).io = s.io := (rfl)
end

/-! ### logPut -/

section
variable (s : State) (d src : Nat) (code : LogCode) (data : List Nat) (flags tp : Nat )
@[simp] theorem State.logPut_pending : (s.logPut d src code data flags tp).pending = s.pending := (rfl)
@[simp] theorem State.logPut_freeIdx : (s.logPut d src code data flags tp).freeIdx = s.freeIdx := (rfl)
@[simp] theorem State.logPut_sent : (s.logPut d src code data flags tp).sent = s.sent := (rfl)
@[simp] theorem State.logPut_regs : (s.logPut d src code data flags tp).regs = s.regs := (rfl)
@[simp] theorem State.logPut_inForce : (s.logPut d src code data flags tp).inForce = s.inForce := (rfl)
@[simp] theorem State.logPut_chg : (s.logPut d src code data flags tp).chg = s.chg := (rfl)
@[simp] theorem State.logPut_heldW : (s.logPut d src code data flags tp).heldW = s.heldW := (rfl)
@[simp] theorem State.logPut_routes : (s.logPut d src code data flags tp).routes = s.routes := (rfl)
@[simp] theorem State.logPut_books : (s.logPut d src code data flags tp).books = s.books := (rfl)
@[simp] theorem State.logPut_sec : (s.logPut d src code data flags tp).sec = s.sec := (rfl)
@[simp] theorem State.logPut_ident : (s.logPut d src code data flags tp).ident = s.ident := (rfl)
@[simp] theorem State.logPut_units : (s.logPut d src code data flags tp).units = s.units := (rfl)
@[simp] theorem State.logPut_step : (s.logPut d src code data flags tp).step = s.step := (rfl)
@[simp] theorem State.logPut_fenceSelf : (s.logPut d src code data flags tp).fenceSelf = s.fenceSelf := (rfl)
@[simp] theorem State.logPut_retained : (s.logPut d src code data flags tp).retained = s.retained := (rfl)
@[simp] theorem State.logPut_tensors : (s.logPut d src code data flags tp).tensors = s.tensors := (rfl)
@[simp] theorem State.logPut_leader : (s.logPut d src code data flags tp).leader = s.leader := (rfl)
@[simp] theorem State.logPut_mxe : (s.logPut d src code data flags tp).mxe = s.mxe := (rfl)
@[simp] theorem State.logPut_gather : (s.logPut d src code data flags tp).gather = s.gather := (rfl)
@[simp] theorem State.logPut_vxe : (s.logPut d src code data flags tp).vxe = s.vxe := (rfl)
@[simp] theorem State.logPut_slots : (s.logPut d src code data flags tp).slots = s.slots := (rfl)
@[simp] theorem State.logPut_staging : (s.logPut d src code data flags tp).staging = s.staging := (rfl)
@[simp] theorem State.logPut_ports : (s.logPut d src code data flags tp).ports = s.ports := (rfl)
@[simp] theorem State.logPut_mem : (s.logPut d src code data flags tp).mem = s.mem := (rfl)
@[simp] theorem State.logPut_ctx : (s.logPut d src code data flags tp).ctx = s.ctx := (rfl)
@[simp] theorem State.logPut_history : (s.logPut d src code data flags tp).history = s.history := (rfl)
@[simp] theorem State.logPut_dieEnv : (s.logPut d src code data flags tp).dieEnv = s.dieEnv := (rfl)
@[simp] theorem State.logPut_fabric : (s.logPut d src code data flags tp).fabric = s.fabric := (rfl)
@[simp] theorem State.logPut_wtab : (s.logPut d src code data flags tp).wtab = s.wtab := (rfl)
@[simp] theorem State.logPut_dup : (s.logPut d src code data flags tp).dup = s.dup := (rfl)
@[simp] theorem State.logPut_digest : (s.logPut d src code data flags tp).digest = s.digest := (rfl)
@[simp] theorem State.logPut_power : (s.logPut d src code data flags tp).power = s.power := (rfl)
@[simp] theorem State.logPut_time : (s.logPut d src code data flags tp).time = s.time := (rfl)
@[simp] theorem State.logPut_cue : (s.logPut d src code data flags tp).cue = s.cue := (rfl)
@[simp] theorem State.logPut_ckpt : (s.logPut d src code data flags tp).ckpt = s.ckpt := (rfl)
@[simp] theorem State.logPut_resets : (s.logPut d src code data flags tp).resets = s.resets := (rfl)
@[simp] theorem State.logPut_fw : (s.logPut d src code data flags tp).fw = s.fw := (rfl)
@[simp] theorem State.logPut_hang : (s.logPut d src code data flags tp).hang = s.hang := (rfl)
@[simp] theorem State.logPut_io : (s.logPut d src code data flags tp).io = s.io := (rfl)
end

/-! ### setUnit -/

section
variable (s : State) (k d ix : Nat) (u : UnitState)
@[simp] theorem State.setUnit_pending : (s.setUnit k d ix u).pending = s.pending := (rfl)
@[simp] theorem State.setUnit_freeIdx : (s.setUnit k d ix u).freeIdx = s.freeIdx := (rfl)
@[simp] theorem State.setUnit_sent : (s.setUnit k d ix u).sent = s.sent := (rfl)
@[simp] theorem State.setUnit_regs : (s.setUnit k d ix u).regs = s.regs := (rfl)
@[simp] theorem State.setUnit_inForce : (s.setUnit k d ix u).inForce = s.inForce := (rfl)
@[simp] theorem State.setUnit_log : (s.setUnit k d ix u).log = s.log := (rfl)
@[simp] theorem State.setUnit_chg : (s.setUnit k d ix u).chg = s.chg := (rfl)
@[simp] theorem State.setUnit_heldW : (s.setUnit k d ix u).heldW = s.heldW := (rfl)
@[simp] theorem State.setUnit_routes : (s.setUnit k d ix u).routes = s.routes := (rfl)
@[simp] theorem State.setUnit_books : (s.setUnit k d ix u).books = s.books := (rfl)
@[simp] theorem State.setUnit_sec : (s.setUnit k d ix u).sec = s.sec := (rfl)
@[simp] theorem State.setUnit_ident : (s.setUnit k d ix u).ident = s.ident := (rfl)
@[simp] theorem State.setUnit_step : (s.setUnit k d ix u).step = s.step := (rfl)
@[simp] theorem State.setUnit_fenceSelf : (s.setUnit k d ix u).fenceSelf = s.fenceSelf := (rfl)
@[simp] theorem State.setUnit_retained : (s.setUnit k d ix u).retained = s.retained := (rfl)
@[simp] theorem State.setUnit_tensors : (s.setUnit k d ix u).tensors = s.tensors := (rfl)
@[simp] theorem State.setUnit_leader : (s.setUnit k d ix u).leader = s.leader := (rfl)
@[simp] theorem State.setUnit_mxe : (s.setUnit k d ix u).mxe = s.mxe := (rfl)
@[simp] theorem State.setUnit_gather : (s.setUnit k d ix u).gather = s.gather := (rfl)
@[simp] theorem State.setUnit_vxe : (s.setUnit k d ix u).vxe = s.vxe := (rfl)
@[simp] theorem State.setUnit_slots : (s.setUnit k d ix u).slots = s.slots := (rfl)
@[simp] theorem State.setUnit_staging : (s.setUnit k d ix u).staging = s.staging := (rfl)
@[simp] theorem State.setUnit_ports : (s.setUnit k d ix u).ports = s.ports := (rfl)
@[simp] theorem State.setUnit_mem : (s.setUnit k d ix u).mem = s.mem := (rfl)
@[simp] theorem State.setUnit_ctx : (s.setUnit k d ix u).ctx = s.ctx := (rfl)
@[simp] theorem State.setUnit_history : (s.setUnit k d ix u).history = s.history := (rfl)
@[simp] theorem State.setUnit_dieEnv : (s.setUnit k d ix u).dieEnv = s.dieEnv := (rfl)
@[simp] theorem State.setUnit_fabric : (s.setUnit k d ix u).fabric = s.fabric := (rfl)
@[simp] theorem State.setUnit_wtab : (s.setUnit k d ix u).wtab = s.wtab := (rfl)
@[simp] theorem State.setUnit_dup : (s.setUnit k d ix u).dup = s.dup := (rfl)
@[simp] theorem State.setUnit_digest : (s.setUnit k d ix u).digest = s.digest := (rfl)
@[simp] theorem State.setUnit_power : (s.setUnit k d ix u).power = s.power := (rfl)
@[simp] theorem State.setUnit_time : (s.setUnit k d ix u).time = s.time := (rfl)
@[simp] theorem State.setUnit_cue : (s.setUnit k d ix u).cue = s.cue := (rfl)
@[simp] theorem State.setUnit_ckpt : (s.setUnit k d ix u).ckpt = s.ckpt := (rfl)
@[simp] theorem State.setUnit_resets : (s.setUnit k d ix u).resets = s.resets := (rfl)
@[simp] theorem State.setUnit_fw : (s.setUnit k d ix u).fw = s.fw := (rfl)
@[simp] theorem State.setUnit_hang : (s.setUnit k d ix u).hang = s.hang := (rfl)
@[simp] theorem State.setUnit_io : (s.setUnit k d ix u).io = s.io := (rfl)
end

/-! ### cueSend -/

section
variable (s : State) (dst mtype : Nat) (body : List Nat)
@[simp] theorem State.cueSend_pending : (s.cueSend dst mtype body).pending = s.pending := (rfl)
@[simp] theorem State.cueSend_freeIdx : (s.cueSend dst mtype body).freeIdx = s.freeIdx := (rfl)
@[simp] theorem State.cueSend_regs : (s.cueSend dst mtype body).regs = s.regs := (rfl)
@[simp] theorem State.cueSend_inForce : (s.cueSend dst mtype body).inForce = s.inForce := (rfl)
@[simp] theorem State.cueSend_log : (s.cueSend dst mtype body).log = s.log := (rfl)
@[simp] theorem State.cueSend_chg : (s.cueSend dst mtype body).chg = s.chg := (rfl)
@[simp] theorem State.cueSend_heldW : (s.cueSend dst mtype body).heldW = s.heldW := (rfl)
@[simp] theorem State.cueSend_routes : (s.cueSend dst mtype body).routes = s.routes := (rfl)
@[simp] theorem State.cueSend_books : (s.cueSend dst mtype body).books = s.books := (rfl)
@[simp] theorem State.cueSend_sec : (s.cueSend dst mtype body).sec = s.sec := (rfl)
@[simp] theorem State.cueSend_ident : (s.cueSend dst mtype body).ident = s.ident := (rfl)
@[simp] theorem State.cueSend_units : (s.cueSend dst mtype body).units = s.units := (rfl)
@[simp] theorem State.cueSend_step : (s.cueSend dst mtype body).step = s.step := (rfl)
@[simp] theorem State.cueSend_fenceSelf : (s.cueSend dst mtype body).fenceSelf = s.fenceSelf := (rfl)
@[simp] theorem State.cueSend_retained : (s.cueSend dst mtype body).retained = s.retained := (rfl)
@[simp] theorem State.cueSend_tensors : (s.cueSend dst mtype body).tensors = s.tensors := (rfl)
@[simp] theorem State.cueSend_leader : (s.cueSend dst mtype body).leader = s.leader := (rfl)
@[simp] theorem State.cueSend_mxe : (s.cueSend dst mtype body).mxe = s.mxe := (rfl)
@[simp] theorem State.cueSend_gather : (s.cueSend dst mtype body).gather = s.gather := (rfl)
@[simp] theorem State.cueSend_vxe : (s.cueSend dst mtype body).vxe = s.vxe := (rfl)
@[simp] theorem State.cueSend_slots : (s.cueSend dst mtype body).slots = s.slots := (rfl)
@[simp] theorem State.cueSend_staging : (s.cueSend dst mtype body).staging = s.staging := (rfl)
@[simp] theorem State.cueSend_ports : (s.cueSend dst mtype body).ports = s.ports := (rfl)
@[simp] theorem State.cueSend_mem : (s.cueSend dst mtype body).mem = s.mem := (rfl)
@[simp] theorem State.cueSend_ctx : (s.cueSend dst mtype body).ctx = s.ctx := (rfl)
@[simp] theorem State.cueSend_history : (s.cueSend dst mtype body).history = s.history := (rfl)
@[simp] theorem State.cueSend_dieEnv : (s.cueSend dst mtype body).dieEnv = s.dieEnv := (rfl)
@[simp] theorem State.cueSend_fabric : (s.cueSend dst mtype body).fabric = s.fabric := (rfl)
@[simp] theorem State.cueSend_wtab : (s.cueSend dst mtype body).wtab = s.wtab := (rfl)
@[simp] theorem State.cueSend_dup : (s.cueSend dst mtype body).dup = s.dup := (rfl)
@[simp] theorem State.cueSend_digest : (s.cueSend dst mtype body).digest = s.digest := (rfl)
@[simp] theorem State.cueSend_power : (s.cueSend dst mtype body).power = s.power := (rfl)
@[simp] theorem State.cueSend_time : (s.cueSend dst mtype body).time = s.time := (rfl)
@[simp] theorem State.cueSend_cue : (s.cueSend dst mtype body).cue = s.cue := (rfl)
@[simp] theorem State.cueSend_ckpt : (s.cueSend dst mtype body).ckpt = s.ckpt := (rfl)
@[simp] theorem State.cueSend_resets : (s.cueSend dst mtype body).resets = s.resets := (rfl)
@[simp] theorem State.cueSend_fw : (s.cueSend dst mtype body).fw = s.fw := (rfl)
@[simp] theorem State.cueSend_hang : (s.cueSend dst mtype body).hang = s.hang := (rfl)
@[simp] theorem State.cueSend_io : (s.cueSend dst mtype body).io = s.io := (rfl)
end

/-! ### setMxe -/

section
variable (s : State) (d b : Nat) (m : Mxe)
@[simp] theorem State.setMxe_pending : (s.setMxe d b m).pending = s.pending := (rfl)
@[simp] theorem State.setMxe_freeIdx : (s.setMxe d b m).freeIdx = s.freeIdx := (rfl)
@[simp] theorem State.setMxe_sent : (s.setMxe d b m).sent = s.sent := (rfl)
@[simp] theorem State.setMxe_regs : (s.setMxe d b m).regs = s.regs := (rfl)
@[simp] theorem State.setMxe_inForce : (s.setMxe d b m).inForce = s.inForce := (rfl)
@[simp] theorem State.setMxe_log : (s.setMxe d b m).log = s.log := (rfl)
@[simp] theorem State.setMxe_chg : (s.setMxe d b m).chg = s.chg := (rfl)
@[simp] theorem State.setMxe_heldW : (s.setMxe d b m).heldW = s.heldW := (rfl)
@[simp] theorem State.setMxe_routes : (s.setMxe d b m).routes = s.routes := (rfl)
@[simp] theorem State.setMxe_books : (s.setMxe d b m).books = s.books := (rfl)
@[simp] theorem State.setMxe_sec : (s.setMxe d b m).sec = s.sec := (rfl)
@[simp] theorem State.setMxe_ident : (s.setMxe d b m).ident = s.ident := (rfl)
@[simp] theorem State.setMxe_units : (s.setMxe d b m).units = s.units := (rfl)
@[simp] theorem State.setMxe_step : (s.setMxe d b m).step = s.step := (rfl)
@[simp] theorem State.setMxe_fenceSelf : (s.setMxe d b m).fenceSelf = s.fenceSelf := (rfl)
@[simp] theorem State.setMxe_retained : (s.setMxe d b m).retained = s.retained := (rfl)
@[simp] theorem State.setMxe_tensors : (s.setMxe d b m).tensors = s.tensors := (rfl)
@[simp] theorem State.setMxe_leader : (s.setMxe d b m).leader = s.leader := (rfl)
@[simp] theorem State.setMxe_gather : (s.setMxe d b m).gather = s.gather := (rfl)
@[simp] theorem State.setMxe_vxe : (s.setMxe d b m).vxe = s.vxe := (rfl)
@[simp] theorem State.setMxe_slots : (s.setMxe d b m).slots = s.slots := (rfl)
@[simp] theorem State.setMxe_staging : (s.setMxe d b m).staging = s.staging := (rfl)
@[simp] theorem State.setMxe_ports : (s.setMxe d b m).ports = s.ports := (rfl)
@[simp] theorem State.setMxe_mem : (s.setMxe d b m).mem = s.mem := (rfl)
@[simp] theorem State.setMxe_ctx : (s.setMxe d b m).ctx = s.ctx := (rfl)
@[simp] theorem State.setMxe_history : (s.setMxe d b m).history = s.history := (rfl)
@[simp] theorem State.setMxe_dieEnv : (s.setMxe d b m).dieEnv = s.dieEnv := (rfl)
@[simp] theorem State.setMxe_fabric : (s.setMxe d b m).fabric = s.fabric := (rfl)
@[simp] theorem State.setMxe_wtab : (s.setMxe d b m).wtab = s.wtab := (rfl)
@[simp] theorem State.setMxe_dup : (s.setMxe d b m).dup = s.dup := (rfl)
@[simp] theorem State.setMxe_digest : (s.setMxe d b m).digest = s.digest := (rfl)
@[simp] theorem State.setMxe_power : (s.setMxe d b m).power = s.power := (rfl)
@[simp] theorem State.setMxe_time : (s.setMxe d b m).time = s.time := (rfl)
@[simp] theorem State.setMxe_cue : (s.setMxe d b m).cue = s.cue := (rfl)
@[simp] theorem State.setMxe_ckpt : (s.setMxe d b m).ckpt = s.ckpt := (rfl)
@[simp] theorem State.setMxe_resets : (s.setMxe d b m).resets = s.resets := (rfl)
@[simp] theorem State.setMxe_fw : (s.setMxe d b m).fw = s.fw := (rfl)
@[simp] theorem State.setMxe_hang : (s.setMxe d b m).hang = s.hang := (rfl)
@[simp] theorem State.setMxe_io : (s.setMxe d b m).io = s.io := (rfl)
end

/-! ### setVxe -/

section
variable (s : State) (d b : Nat) (v : Vxe)
@[simp] theorem State.setVxe_pending : (s.setVxe d b v).pending = s.pending := (rfl)
@[simp] theorem State.setVxe_freeIdx : (s.setVxe d b v).freeIdx = s.freeIdx := (rfl)
@[simp] theorem State.setVxe_sent : (s.setVxe d b v).sent = s.sent := (rfl)
@[simp] theorem State.setVxe_regs : (s.setVxe d b v).regs = s.regs := (rfl)
@[simp] theorem State.setVxe_inForce : (s.setVxe d b v).inForce = s.inForce := (rfl)
@[simp] theorem State.setVxe_log : (s.setVxe d b v).log = s.log := (rfl)
@[simp] theorem State.setVxe_chg : (s.setVxe d b v).chg = s.chg := (rfl)
@[simp] theorem State.setVxe_heldW : (s.setVxe d b v).heldW = s.heldW := (rfl)
@[simp] theorem State.setVxe_routes : (s.setVxe d b v).routes = s.routes := (rfl)
@[simp] theorem State.setVxe_books : (s.setVxe d b v).books = s.books := (rfl)
@[simp] theorem State.setVxe_sec : (s.setVxe d b v).sec = s.sec := (rfl)
@[simp] theorem State.setVxe_ident : (s.setVxe d b v).ident = s.ident := (rfl)
@[simp] theorem State.setVxe_units : (s.setVxe d b v).units = s.units := (rfl)
@[simp] theorem State.setVxe_step : (s.setVxe d b v).step = s.step := (rfl)
@[simp] theorem State.setVxe_fenceSelf : (s.setVxe d b v).fenceSelf = s.fenceSelf := (rfl)
@[simp] theorem State.setVxe_retained : (s.setVxe d b v).retained = s.retained := (rfl)
@[simp] theorem State.setVxe_tensors : (s.setVxe d b v).tensors = s.tensors := (rfl)
@[simp] theorem State.setVxe_leader : (s.setVxe d b v).leader = s.leader := (rfl)
@[simp] theorem State.setVxe_mxe : (s.setVxe d b v).mxe = s.mxe := (rfl)
@[simp] theorem State.setVxe_gather : (s.setVxe d b v).gather = s.gather := (rfl)
@[simp] theorem State.setVxe_slots : (s.setVxe d b v).slots = s.slots := (rfl)
@[simp] theorem State.setVxe_staging : (s.setVxe d b v).staging = s.staging := (rfl)
@[simp] theorem State.setVxe_ports : (s.setVxe d b v).ports = s.ports := (rfl)
@[simp] theorem State.setVxe_mem : (s.setVxe d b v).mem = s.mem := (rfl)
@[simp] theorem State.setVxe_ctx : (s.setVxe d b v).ctx = s.ctx := (rfl)
@[simp] theorem State.setVxe_history : (s.setVxe d b v).history = s.history := (rfl)
@[simp] theorem State.setVxe_dieEnv : (s.setVxe d b v).dieEnv = s.dieEnv := (rfl)
@[simp] theorem State.setVxe_fabric : (s.setVxe d b v).fabric = s.fabric := (rfl)
@[simp] theorem State.setVxe_wtab : (s.setVxe d b v).wtab = s.wtab := (rfl)
@[simp] theorem State.setVxe_dup : (s.setVxe d b v).dup = s.dup := (rfl)
@[simp] theorem State.setVxe_digest : (s.setVxe d b v).digest = s.digest := (rfl)
@[simp] theorem State.setVxe_power : (s.setVxe d b v).power = s.power := (rfl)
@[simp] theorem State.setVxe_time : (s.setVxe d b v).time = s.time := (rfl)
@[simp] theorem State.setVxe_cue : (s.setVxe d b v).cue = s.cue := (rfl)
@[simp] theorem State.setVxe_ckpt : (s.setVxe d b v).ckpt = s.ckpt := (rfl)
@[simp] theorem State.setVxe_resets : (s.setVxe d b v).resets = s.resets := (rfl)
@[simp] theorem State.setVxe_fw : (s.setVxe d b v).fw = s.fw := (rfl)
@[simp] theorem State.setVxe_hang : (s.setVxe d b v).hang = s.hang := (rfl)
@[simp] theorem State.setVxe_io : (s.setVxe d b v).io = s.io := (rfl)
end

/-! ### setGather -/

section
variable (s : State) (d b : Nat) (g : GatherQ)
@[simp] theorem State.setGather_pending : (s.setGather d b g).pending = s.pending := (rfl)
@[simp] theorem State.setGather_freeIdx : (s.setGather d b g).freeIdx = s.freeIdx := (rfl)
@[simp] theorem State.setGather_sent : (s.setGather d b g).sent = s.sent := (rfl)
@[simp] theorem State.setGather_regs : (s.setGather d b g).regs = s.regs := (rfl)
@[simp] theorem State.setGather_inForce : (s.setGather d b g).inForce = s.inForce := (rfl)
@[simp] theorem State.setGather_log : (s.setGather d b g).log = s.log := (rfl)
@[simp] theorem State.setGather_chg : (s.setGather d b g).chg = s.chg := (rfl)
@[simp] theorem State.setGather_heldW : (s.setGather d b g).heldW = s.heldW := (rfl)
@[simp] theorem State.setGather_routes : (s.setGather d b g).routes = s.routes := (rfl)
@[simp] theorem State.setGather_books : (s.setGather d b g).books = s.books := (rfl)
@[simp] theorem State.setGather_sec : (s.setGather d b g).sec = s.sec := (rfl)
@[simp] theorem State.setGather_ident : (s.setGather d b g).ident = s.ident := (rfl)
@[simp] theorem State.setGather_units : (s.setGather d b g).units = s.units := (rfl)
@[simp] theorem State.setGather_step : (s.setGather d b g).step = s.step := (rfl)
@[simp] theorem State.setGather_fenceSelf : (s.setGather d b g).fenceSelf = s.fenceSelf := (rfl)
@[simp] theorem State.setGather_retained : (s.setGather d b g).retained = s.retained := (rfl)
@[simp] theorem State.setGather_tensors : (s.setGather d b g).tensors = s.tensors := (rfl)
@[simp] theorem State.setGather_leader : (s.setGather d b g).leader = s.leader := (rfl)
@[simp] theorem State.setGather_mxe : (s.setGather d b g).mxe = s.mxe := (rfl)
@[simp] theorem State.setGather_vxe : (s.setGather d b g).vxe = s.vxe := (rfl)
@[simp] theorem State.setGather_slots : (s.setGather d b g).slots = s.slots := (rfl)
@[simp] theorem State.setGather_staging : (s.setGather d b g).staging = s.staging := (rfl)
@[simp] theorem State.setGather_ports : (s.setGather d b g).ports = s.ports := (rfl)
@[simp] theorem State.setGather_mem : (s.setGather d b g).mem = s.mem := (rfl)
@[simp] theorem State.setGather_ctx : (s.setGather d b g).ctx = s.ctx := (rfl)
@[simp] theorem State.setGather_history : (s.setGather d b g).history = s.history := (rfl)
@[simp] theorem State.setGather_dieEnv : (s.setGather d b g).dieEnv = s.dieEnv := (rfl)
@[simp] theorem State.setGather_fabric : (s.setGather d b g).fabric = s.fabric := (rfl)
@[simp] theorem State.setGather_wtab : (s.setGather d b g).wtab = s.wtab := (rfl)
@[simp] theorem State.setGather_dup : (s.setGather d b g).dup = s.dup := (rfl)
@[simp] theorem State.setGather_digest : (s.setGather d b g).digest = s.digest := (rfl)
@[simp] theorem State.setGather_power : (s.setGather d b g).power = s.power := (rfl)
@[simp] theorem State.setGather_time : (s.setGather d b g).time = s.time := (rfl)
@[simp] theorem State.setGather_cue : (s.setGather d b g).cue = s.cue := (rfl)
@[simp] theorem State.setGather_ckpt : (s.setGather d b g).ckpt = s.ckpt := (rfl)
@[simp] theorem State.setGather_resets : (s.setGather d b g).resets = s.resets := (rfl)
@[simp] theorem State.setGather_fw : (s.setGather d b g).fw = s.fw := (rfl)
@[simp] theorem State.setGather_hang : (s.setGather d b g).hang = s.hang := (rfl)
@[simp] theorem State.setGather_io : (s.setGather d b g).io = s.io := (rfl)
end

/-! ### setSlot -/

section
variable (s : State) (d b sl : Nat) (x : SuSlot)
@[simp] theorem State.setSlot_pending : (s.setSlot d b sl x).pending = s.pending := (rfl)
@[simp] theorem State.setSlot_freeIdx : (s.setSlot d b sl x).freeIdx = s.freeIdx := (rfl)
@[simp] theorem State.setSlot_sent : (s.setSlot d b sl x).sent = s.sent := (rfl)
@[simp] theorem State.setSlot_regs : (s.setSlot d b sl x).regs = s.regs := (rfl)
@[simp] theorem State.setSlot_inForce : (s.setSlot d b sl x).inForce = s.inForce := (rfl)
@[simp] theorem State.setSlot_log : (s.setSlot d b sl x).log = s.log := (rfl)
@[simp] theorem State.setSlot_chg : (s.setSlot d b sl x).chg = s.chg := (rfl)
@[simp] theorem State.setSlot_heldW : (s.setSlot d b sl x).heldW = s.heldW := (rfl)
@[simp] theorem State.setSlot_routes : (s.setSlot d b sl x).routes = s.routes := (rfl)
@[simp] theorem State.setSlot_books : (s.setSlot d b sl x).books = s.books := (rfl)
@[simp] theorem State.setSlot_sec : (s.setSlot d b sl x).sec = s.sec := (rfl)
@[simp] theorem State.setSlot_ident : (s.setSlot d b sl x).ident = s.ident := (rfl)
@[simp] theorem State.setSlot_units : (s.setSlot d b sl x).units = s.units := (rfl)
@[simp] theorem State.setSlot_step : (s.setSlot d b sl x).step = s.step := (rfl)
@[simp] theorem State.setSlot_fenceSelf : (s.setSlot d b sl x).fenceSelf = s.fenceSelf := (rfl)
@[simp] theorem State.setSlot_retained : (s.setSlot d b sl x).retained = s.retained := (rfl)
@[simp] theorem State.setSlot_tensors : (s.setSlot d b sl x).tensors = s.tensors := (rfl)
@[simp] theorem State.setSlot_leader : (s.setSlot d b sl x).leader = s.leader := (rfl)
@[simp] theorem State.setSlot_mxe : (s.setSlot d b sl x).mxe = s.mxe := (rfl)
@[simp] theorem State.setSlot_gather : (s.setSlot d b sl x).gather = s.gather := (rfl)
@[simp] theorem State.setSlot_vxe : (s.setSlot d b sl x).vxe = s.vxe := (rfl)
@[simp] theorem State.setSlot_staging : (s.setSlot d b sl x).staging = s.staging := (rfl)
@[simp] theorem State.setSlot_ports : (s.setSlot d b sl x).ports = s.ports := (rfl)
@[simp] theorem State.setSlot_mem : (s.setSlot d b sl x).mem = s.mem := (rfl)
@[simp] theorem State.setSlot_ctx : (s.setSlot d b sl x).ctx = s.ctx := (rfl)
@[simp] theorem State.setSlot_history : (s.setSlot d b sl x).history = s.history := (rfl)
@[simp] theorem State.setSlot_dieEnv : (s.setSlot d b sl x).dieEnv = s.dieEnv := (rfl)
@[simp] theorem State.setSlot_fabric : (s.setSlot d b sl x).fabric = s.fabric := (rfl)
@[simp] theorem State.setSlot_wtab : (s.setSlot d b sl x).wtab = s.wtab := (rfl)
@[simp] theorem State.setSlot_dup : (s.setSlot d b sl x).dup = s.dup := (rfl)
@[simp] theorem State.setSlot_digest : (s.setSlot d b sl x).digest = s.digest := (rfl)
@[simp] theorem State.setSlot_power : (s.setSlot d b sl x).power = s.power := (rfl)
@[simp] theorem State.setSlot_time : (s.setSlot d b sl x).time = s.time := (rfl)
@[simp] theorem State.setSlot_cue : (s.setSlot d b sl x).cue = s.cue := (rfl)
@[simp] theorem State.setSlot_ckpt : (s.setSlot d b sl x).ckpt = s.ckpt := (rfl)
@[simp] theorem State.setSlot_resets : (s.setSlot d b sl x).resets = s.resets := (rfl)
@[simp] theorem State.setSlot_fw : (s.setSlot d b sl x).fw = s.fw := (rfl)
@[simp] theorem State.setSlot_hang : (s.setSlot d b sl x).hang = s.hang := (rfl)
@[simp] theorem State.setSlot_io : (s.setSlot d b sl x).io = s.io := (rfl)
end

/-! ### setPort -/

section
variable (s : State) (p : SpPort) (x : SpPortSt)
@[simp] theorem State.setPort_pending : (s.setPort p x).pending = s.pending := (rfl)
@[simp] theorem State.setPort_freeIdx : (s.setPort p x).freeIdx = s.freeIdx := (rfl)
@[simp] theorem State.setPort_sent : (s.setPort p x).sent = s.sent := (rfl)
@[simp] theorem State.setPort_regs : (s.setPort p x).regs = s.regs := (rfl)
@[simp] theorem State.setPort_inForce : (s.setPort p x).inForce = s.inForce := (rfl)
@[simp] theorem State.setPort_log : (s.setPort p x).log = s.log := (rfl)
@[simp] theorem State.setPort_chg : (s.setPort p x).chg = s.chg := (rfl)
@[simp] theorem State.setPort_heldW : (s.setPort p x).heldW = s.heldW := (rfl)
@[simp] theorem State.setPort_routes : (s.setPort p x).routes = s.routes := (rfl)
@[simp] theorem State.setPort_books : (s.setPort p x).books = s.books := (rfl)
@[simp] theorem State.setPort_sec : (s.setPort p x).sec = s.sec := (rfl)
@[simp] theorem State.setPort_ident : (s.setPort p x).ident = s.ident := (rfl)
@[simp] theorem State.setPort_units : (s.setPort p x).units = s.units := (rfl)
@[simp] theorem State.setPort_step : (s.setPort p x).step = s.step := (rfl)
@[simp] theorem State.setPort_fenceSelf : (s.setPort p x).fenceSelf = s.fenceSelf := (rfl)
@[simp] theorem State.setPort_retained : (s.setPort p x).retained = s.retained := (rfl)
@[simp] theorem State.setPort_tensors : (s.setPort p x).tensors = s.tensors := (rfl)
@[simp] theorem State.setPort_leader : (s.setPort p x).leader = s.leader := (rfl)
@[simp] theorem State.setPort_mxe : (s.setPort p x).mxe = s.mxe := (rfl)
@[simp] theorem State.setPort_gather : (s.setPort p x).gather = s.gather := (rfl)
@[simp] theorem State.setPort_vxe : (s.setPort p x).vxe = s.vxe := (rfl)
@[simp] theorem State.setPort_slots : (s.setPort p x).slots = s.slots := (rfl)
@[simp] theorem State.setPort_staging : (s.setPort p x).staging = s.staging := (rfl)
@[simp] theorem State.setPort_mem : (s.setPort p x).mem = s.mem := (rfl)
@[simp] theorem State.setPort_ctx : (s.setPort p x).ctx = s.ctx := (rfl)
@[simp] theorem State.setPort_history : (s.setPort p x).history = s.history := (rfl)
@[simp] theorem State.setPort_dieEnv : (s.setPort p x).dieEnv = s.dieEnv := (rfl)
@[simp] theorem State.setPort_fabric : (s.setPort p x).fabric = s.fabric := (rfl)
@[simp] theorem State.setPort_wtab : (s.setPort p x).wtab = s.wtab := (rfl)
@[simp] theorem State.setPort_dup : (s.setPort p x).dup = s.dup := (rfl)
@[simp] theorem State.setPort_digest : (s.setPort p x).digest = s.digest := (rfl)
@[simp] theorem State.setPort_power : (s.setPort p x).power = s.power := (rfl)
@[simp] theorem State.setPort_time : (s.setPort p x).time = s.time := (rfl)
@[simp] theorem State.setPort_cue : (s.setPort p x).cue = s.cue := (rfl)
@[simp] theorem State.setPort_ckpt : (s.setPort p x).ckpt = s.ckpt := (rfl)
@[simp] theorem State.setPort_resets : (s.setPort p x).resets = s.resets := (rfl)
@[simp] theorem State.setPort_fw : (s.setPort p x).fw = s.fw := (rfl)
@[simp] theorem State.setPort_hang : (s.setPort p x).hang = s.hang := (rfl)
@[simp] theorem State.setPort_io : (s.setPort p x).io = s.io := (rfl)
end

/-! ### setLink -/

section
variable (s : State) (p : Nat) (l : Link)
@[simp] theorem State.setLink_pending : (s.setLink p l).pending = s.pending := (rfl)
@[simp] theorem State.setLink_freeIdx : (s.setLink p l).freeIdx = s.freeIdx := (rfl)
@[simp] theorem State.setLink_sent : (s.setLink p l).sent = s.sent := (rfl)
@[simp] theorem State.setLink_regs : (s.setLink p l).regs = s.regs := (rfl)
@[simp] theorem State.setLink_inForce : (s.setLink p l).inForce = s.inForce := (rfl)
@[simp] theorem State.setLink_log : (s.setLink p l).log = s.log := (rfl)
@[simp] theorem State.setLink_chg : (s.setLink p l).chg = s.chg := (rfl)
@[simp] theorem State.setLink_heldW : (s.setLink p l).heldW = s.heldW := (rfl)
@[simp] theorem State.setLink_routes : (s.setLink p l).routes = s.routes := (rfl)
@[simp] theorem State.setLink_books : (s.setLink p l).books = s.books := (rfl)
@[simp] theorem State.setLink_sec : (s.setLink p l).sec = s.sec := (rfl)
@[simp] theorem State.setLink_ident : (s.setLink p l).ident = s.ident := (rfl)
@[simp] theorem State.setLink_units : (s.setLink p l).units = s.units := (rfl)
@[simp] theorem State.setLink_step : (s.setLink p l).step = s.step := (rfl)
@[simp] theorem State.setLink_fenceSelf : (s.setLink p l).fenceSelf = s.fenceSelf := (rfl)
@[simp] theorem State.setLink_retained : (s.setLink p l).retained = s.retained := (rfl)
@[simp] theorem State.setLink_tensors : (s.setLink p l).tensors = s.tensors := (rfl)
@[simp] theorem State.setLink_leader : (s.setLink p l).leader = s.leader := (rfl)
@[simp] theorem State.setLink_mxe : (s.setLink p l).mxe = s.mxe := (rfl)
@[simp] theorem State.setLink_gather : (s.setLink p l).gather = s.gather := (rfl)
@[simp] theorem State.setLink_vxe : (s.setLink p l).vxe = s.vxe := (rfl)
@[simp] theorem State.setLink_slots : (s.setLink p l).slots = s.slots := (rfl)
@[simp] theorem State.setLink_staging : (s.setLink p l).staging = s.staging := (rfl)
@[simp] theorem State.setLink_ports : (s.setLink p l).ports = s.ports := (rfl)
@[simp] theorem State.setLink_mem : (s.setLink p l).mem = s.mem := (rfl)
@[simp] theorem State.setLink_ctx : (s.setLink p l).ctx = s.ctx := (rfl)
@[simp] theorem State.setLink_history : (s.setLink p l).history = s.history := (rfl)
@[simp] theorem State.setLink_dieEnv : (s.setLink p l).dieEnv = s.dieEnv := (rfl)
@[simp] theorem State.setLink_wtab : (s.setLink p l).wtab = s.wtab := (rfl)
@[simp] theorem State.setLink_dup : (s.setLink p l).dup = s.dup := (rfl)
@[simp] theorem State.setLink_digest : (s.setLink p l).digest = s.digest := (rfl)
@[simp] theorem State.setLink_power : (s.setLink p l).power = s.power := (rfl)
@[simp] theorem State.setLink_time : (s.setLink p l).time = s.time := (rfl)
@[simp] theorem State.setLink_cue : (s.setLink p l).cue = s.cue := (rfl)
@[simp] theorem State.setLink_ckpt : (s.setLink p l).ckpt = s.ckpt := (rfl)
@[simp] theorem State.setLink_resets : (s.setLink p l).resets = s.resets := (rfl)
@[simp] theorem State.setLink_fw : (s.setLink p l).fw = s.fw := (rfl)
@[simp] theorem State.setLink_hang : (s.setLink p l).hang = s.hang := (rfl)
@[simp] theorem State.setLink_io : (s.setLink p l).io = s.io := (rfl)
end

/-! ### stgPutBytes -/

section
variable (s : State) (d b off : Nat) (xs : List Byte)
@[simp] theorem State.stgPutBytes_pending : (s.stgPutBytes d b off xs).pending = s.pending := (rfl)
@[simp] theorem State.stgPutBytes_freeIdx : (s.stgPutBytes d b off xs).freeIdx = s.freeIdx := (rfl)
@[simp] theorem State.stgPutBytes_sent : (s.stgPutBytes d b off xs).sent = s.sent := (rfl)
@[simp] theorem State.stgPutBytes_regs : (s.stgPutBytes d b off xs).regs = s.regs := (rfl)
@[simp] theorem State.stgPutBytes_inForce : (s.stgPutBytes d b off xs).inForce = s.inForce := (rfl)
@[simp] theorem State.stgPutBytes_log : (s.stgPutBytes d b off xs).log = s.log := (rfl)
@[simp] theorem State.stgPutBytes_chg : (s.stgPutBytes d b off xs).chg = s.chg := (rfl)
@[simp] theorem State.stgPutBytes_heldW : (s.stgPutBytes d b off xs).heldW = s.heldW := (rfl)
@[simp] theorem State.stgPutBytes_routes : (s.stgPutBytes d b off xs).routes = s.routes := (rfl)
@[simp] theorem State.stgPutBytes_books : (s.stgPutBytes d b off xs).books = s.books := (rfl)
@[simp] theorem State.stgPutBytes_sec : (s.stgPutBytes d b off xs).sec = s.sec := (rfl)
@[simp] theorem State.stgPutBytes_ident : (s.stgPutBytes d b off xs).ident = s.ident := (rfl)
@[simp] theorem State.stgPutBytes_units : (s.stgPutBytes d b off xs).units = s.units := (rfl)
@[simp] theorem State.stgPutBytes_step : (s.stgPutBytes d b off xs).step = s.step := (rfl)
@[simp] theorem State.stgPutBytes_fenceSelf : (s.stgPutBytes d b off xs).fenceSelf = s.fenceSelf := (rfl)
@[simp] theorem State.stgPutBytes_retained : (s.stgPutBytes d b off xs).retained = s.retained := (rfl)
@[simp] theorem State.stgPutBytes_tensors : (s.stgPutBytes d b off xs).tensors = s.tensors := (rfl)
@[simp] theorem State.stgPutBytes_leader : (s.stgPutBytes d b off xs).leader = s.leader := (rfl)
@[simp] theorem State.stgPutBytes_mxe : (s.stgPutBytes d b off xs).mxe = s.mxe := (rfl)
@[simp] theorem State.stgPutBytes_gather : (s.stgPutBytes d b off xs).gather = s.gather := (rfl)
@[simp] theorem State.stgPutBytes_vxe : (s.stgPutBytes d b off xs).vxe = s.vxe := (rfl)
@[simp] theorem State.stgPutBytes_slots : (s.stgPutBytes d b off xs).slots = s.slots := (rfl)
@[simp] theorem State.stgPutBytes_ports : (s.stgPutBytes d b off xs).ports = s.ports := (rfl)
@[simp] theorem State.stgPutBytes_mem : (s.stgPutBytes d b off xs).mem = s.mem := (rfl)
@[simp] theorem State.stgPutBytes_ctx : (s.stgPutBytes d b off xs).ctx = s.ctx := (rfl)
@[simp] theorem State.stgPutBytes_history : (s.stgPutBytes d b off xs).history = s.history := (rfl)
@[simp] theorem State.stgPutBytes_dieEnv : (s.stgPutBytes d b off xs).dieEnv = s.dieEnv := (rfl)
@[simp] theorem State.stgPutBytes_fabric : (s.stgPutBytes d b off xs).fabric = s.fabric := (rfl)
@[simp] theorem State.stgPutBytes_wtab : (s.stgPutBytes d b off xs).wtab = s.wtab := (rfl)
@[simp] theorem State.stgPutBytes_dup : (s.stgPutBytes d b off xs).dup = s.dup := (rfl)
@[simp] theorem State.stgPutBytes_digest : (s.stgPutBytes d b off xs).digest = s.digest := (rfl)
@[simp] theorem State.stgPutBytes_power : (s.stgPutBytes d b off xs).power = s.power := (rfl)
@[simp] theorem State.stgPutBytes_time : (s.stgPutBytes d b off xs).time = s.time := (rfl)
@[simp] theorem State.stgPutBytes_cue : (s.stgPutBytes d b off xs).cue = s.cue := (rfl)
@[simp] theorem State.stgPutBytes_ckpt : (s.stgPutBytes d b off xs).ckpt = s.ckpt := (rfl)
@[simp] theorem State.stgPutBytes_resets : (s.stgPutBytes d b off xs).resets = s.resets := (rfl)
@[simp] theorem State.stgPutBytes_fw : (s.stgPutBytes d b off xs).fw = s.fw := (rfl)
@[simp] theorem State.stgPutBytes_hang : (s.stgPutBytes d b off xs).hang = s.hang := (rfl)
@[simp] theorem State.stgPutBytes_io : (s.stgPutBytes d b off xs).io = s.io := (rfl)
end

/-! ### markBad -/

section
variable (s : State) (sec : Nat)
@[simp] theorem State.markBad_pending : (s.markBad sec).pending = s.pending := (rfl)
@[simp] theorem State.markBad_freeIdx : (s.markBad sec).freeIdx = s.freeIdx := (rfl)
@[simp] theorem State.markBad_sent : (s.markBad sec).sent = s.sent := (rfl)
@[simp] theorem State.markBad_regs : (s.markBad sec).regs = s.regs := (rfl)
@[simp] theorem State.markBad_inForce : (s.markBad sec).inForce = s.inForce := (rfl)
@[simp] theorem State.markBad_log : (s.markBad sec).log = s.log := (rfl)
@[simp] theorem State.markBad_chg : (s.markBad sec).chg = s.chg := (rfl)
@[simp] theorem State.markBad_heldW : (s.markBad sec).heldW = s.heldW := (rfl)
@[simp] theorem State.markBad_routes : (s.markBad sec).routes = s.routes := (rfl)
@[simp] theorem State.markBad_books : (s.markBad sec).books = s.books := (rfl)
@[simp] theorem State.markBad_sec : (s.markBad sec).sec = s.sec := (rfl)
@[simp] theorem State.markBad_ident : (s.markBad sec).ident = s.ident := (rfl)
@[simp] theorem State.markBad_units : (s.markBad sec).units = s.units := (rfl)
@[simp] theorem State.markBad_step : (s.markBad sec).step = s.step := (rfl)
@[simp] theorem State.markBad_fenceSelf : (s.markBad sec).fenceSelf = s.fenceSelf := (rfl)
@[simp] theorem State.markBad_retained : (s.markBad sec).retained = s.retained := (rfl)
@[simp] theorem State.markBad_tensors : (s.markBad sec).tensors = s.tensors := (rfl)
@[simp] theorem State.markBad_leader : (s.markBad sec).leader = s.leader := (rfl)
@[simp] theorem State.markBad_mxe : (s.markBad sec).mxe = s.mxe := (rfl)
@[simp] theorem State.markBad_gather : (s.markBad sec).gather = s.gather := (rfl)
@[simp] theorem State.markBad_vxe : (s.markBad sec).vxe = s.vxe := (rfl)
@[simp] theorem State.markBad_slots : (s.markBad sec).slots = s.slots := (rfl)
@[simp] theorem State.markBad_staging : (s.markBad sec).staging = s.staging := (rfl)
@[simp] theorem State.markBad_ports : (s.markBad sec).ports = s.ports := (rfl)
@[simp] theorem State.markBad_ctx : (s.markBad sec).ctx = s.ctx := (rfl)
@[simp] theorem State.markBad_history : (s.markBad sec).history = s.history := (rfl)
@[simp] theorem State.markBad_dieEnv : (s.markBad sec).dieEnv = s.dieEnv := (rfl)
@[simp] theorem State.markBad_fabric : (s.markBad sec).fabric = s.fabric := (rfl)
@[simp] theorem State.markBad_wtab : (s.markBad sec).wtab = s.wtab := (rfl)
@[simp] theorem State.markBad_dup : (s.markBad sec).dup = s.dup := (rfl)
@[simp] theorem State.markBad_digest : (s.markBad sec).digest = s.digest := (rfl)
@[simp] theorem State.markBad_power : (s.markBad sec).power = s.power := (rfl)
@[simp] theorem State.markBad_time : (s.markBad sec).time = s.time := (rfl)
@[simp] theorem State.markBad_cue : (s.markBad sec).cue = s.cue := (rfl)
@[simp] theorem State.markBad_ckpt : (s.markBad sec).ckpt = s.ckpt := (rfl)
@[simp] theorem State.markBad_resets : (s.markBad sec).resets = s.resets := (rfl)
@[simp] theorem State.markBad_fw : (s.markBad sec).fw = s.fw := (rfl)
@[simp] theorem State.markBad_hang : (s.markBad sec).hang = s.hang := (rfl)
@[simp] theorem State.markBad_io : (s.markBad sec).io = s.io := (rfl)
end

/-! ### clearBad -/

section
variable (s : State) (sec : Nat)
@[simp] theorem State.clearBad_pending : (s.clearBad sec).pending = s.pending := (rfl)
@[simp] theorem State.clearBad_freeIdx : (s.clearBad sec).freeIdx = s.freeIdx := (rfl)
@[simp] theorem State.clearBad_sent : (s.clearBad sec).sent = s.sent := (rfl)
@[simp] theorem State.clearBad_regs : (s.clearBad sec).regs = s.regs := (rfl)
@[simp] theorem State.clearBad_inForce : (s.clearBad sec).inForce = s.inForce := (rfl)
@[simp] theorem State.clearBad_log : (s.clearBad sec).log = s.log := (rfl)
@[simp] theorem State.clearBad_chg : (s.clearBad sec).chg = s.chg := (rfl)
@[simp] theorem State.clearBad_heldW : (s.clearBad sec).heldW = s.heldW := (rfl)
@[simp] theorem State.clearBad_routes : (s.clearBad sec).routes = s.routes := (rfl)
@[simp] theorem State.clearBad_books : (s.clearBad sec).books = s.books := (rfl)
@[simp] theorem State.clearBad_sec : (s.clearBad sec).sec = s.sec := (rfl)
@[simp] theorem State.clearBad_ident : (s.clearBad sec).ident = s.ident := (rfl)
@[simp] theorem State.clearBad_units : (s.clearBad sec).units = s.units := (rfl)
@[simp] theorem State.clearBad_step : (s.clearBad sec).step = s.step := (rfl)
@[simp] theorem State.clearBad_fenceSelf : (s.clearBad sec).fenceSelf = s.fenceSelf := (rfl)
@[simp] theorem State.clearBad_retained : (s.clearBad sec).retained = s.retained := (rfl)
@[simp] theorem State.clearBad_tensors : (s.clearBad sec).tensors = s.tensors := (rfl)
@[simp] theorem State.clearBad_leader : (s.clearBad sec).leader = s.leader := (rfl)
@[simp] theorem State.clearBad_mxe : (s.clearBad sec).mxe = s.mxe := (rfl)
@[simp] theorem State.clearBad_gather : (s.clearBad sec).gather = s.gather := (rfl)
@[simp] theorem State.clearBad_vxe : (s.clearBad sec).vxe = s.vxe := (rfl)
@[simp] theorem State.clearBad_slots : (s.clearBad sec).slots = s.slots := (rfl)
@[simp] theorem State.clearBad_staging : (s.clearBad sec).staging = s.staging := (rfl)
@[simp] theorem State.clearBad_ports : (s.clearBad sec).ports = s.ports := (rfl)
@[simp] theorem State.clearBad_ctx : (s.clearBad sec).ctx = s.ctx := (rfl)
@[simp] theorem State.clearBad_history : (s.clearBad sec).history = s.history := (rfl)
@[simp] theorem State.clearBad_dieEnv : (s.clearBad sec).dieEnv = s.dieEnv := (rfl)
@[simp] theorem State.clearBad_fabric : (s.clearBad sec).fabric = s.fabric := (rfl)
@[simp] theorem State.clearBad_wtab : (s.clearBad sec).wtab = s.wtab := (rfl)
@[simp] theorem State.clearBad_dup : (s.clearBad sec).dup = s.dup := (rfl)
@[simp] theorem State.clearBad_digest : (s.clearBad sec).digest = s.digest := (rfl)
@[simp] theorem State.clearBad_power : (s.clearBad sec).power = s.power := (rfl)
@[simp] theorem State.clearBad_time : (s.clearBad sec).time = s.time := (rfl)
@[simp] theorem State.clearBad_cue : (s.clearBad sec).cue = s.cue := (rfl)
@[simp] theorem State.clearBad_ckpt : (s.clearBad sec).ckpt = s.ckpt := (rfl)
@[simp] theorem State.clearBad_resets : (s.clearBad sec).resets = s.resets := (rfl)
@[simp] theorem State.clearBad_fw : (s.clearBad sec).fw = s.fw := (rfl)
@[simp] theorem State.clearBad_hang : (s.clearBad sec).hang = s.hang := (rfl)
@[simp] theorem State.clearBad_io : (s.clearBad sec).io = s.io := (rfl)
end

/-! ### setWatches -/

section
variable (s : State) (d : Nat) (ws : List Watch)
@[simp] theorem State.setWatches_pending : (s.setWatches d ws).pending = s.pending := (rfl)
@[simp] theorem State.setWatches_freeIdx : (s.setWatches d ws).freeIdx = s.freeIdx := (rfl)
@[simp] theorem State.setWatches_sent : (s.setWatches d ws).sent = s.sent := (rfl)
@[simp] theorem State.setWatches_regs : (s.setWatches d ws).regs = s.regs := (rfl)
@[simp] theorem State.setWatches_inForce : (s.setWatches d ws).inForce = s.inForce := (rfl)
@[simp] theorem State.setWatches_log : (s.setWatches d ws).log = s.log := (rfl)
@[simp] theorem State.setWatches_chg : (s.setWatches d ws).chg = s.chg := (rfl)
@[simp] theorem State.setWatches_heldW : (s.setWatches d ws).heldW = s.heldW := (rfl)
@[simp] theorem State.setWatches_routes : (s.setWatches d ws).routes = s.routes := (rfl)
@[simp] theorem State.setWatches_books : (s.setWatches d ws).books = s.books := (rfl)
@[simp] theorem State.setWatches_sec : (s.setWatches d ws).sec = s.sec := (rfl)
@[simp] theorem State.setWatches_ident : (s.setWatches d ws).ident = s.ident := (rfl)
@[simp] theorem State.setWatches_units : (s.setWatches d ws).units = s.units := (rfl)
@[simp] theorem State.setWatches_step : (s.setWatches d ws).step = s.step := (rfl)
@[simp] theorem State.setWatches_fenceSelf : (s.setWatches d ws).fenceSelf = s.fenceSelf := (rfl)
@[simp] theorem State.setWatches_retained : (s.setWatches d ws).retained = s.retained := (rfl)
@[simp] theorem State.setWatches_tensors : (s.setWatches d ws).tensors = s.tensors := (rfl)
@[simp] theorem State.setWatches_leader : (s.setWatches d ws).leader = s.leader := (rfl)
@[simp] theorem State.setWatches_mxe : (s.setWatches d ws).mxe = s.mxe := (rfl)
@[simp] theorem State.setWatches_gather : (s.setWatches d ws).gather = s.gather := (rfl)
@[simp] theorem State.setWatches_vxe : (s.setWatches d ws).vxe = s.vxe := (rfl)
@[simp] theorem State.setWatches_slots : (s.setWatches d ws).slots = s.slots := (rfl)
@[simp] theorem State.setWatches_staging : (s.setWatches d ws).staging = s.staging := (rfl)
@[simp] theorem State.setWatches_ports : (s.setWatches d ws).ports = s.ports := (rfl)
@[simp] theorem State.setWatches_ctx : (s.setWatches d ws).ctx = s.ctx := (rfl)
@[simp] theorem State.setWatches_history : (s.setWatches d ws).history = s.history := (rfl)
@[simp] theorem State.setWatches_dieEnv : (s.setWatches d ws).dieEnv = s.dieEnv := (rfl)
@[simp] theorem State.setWatches_fabric : (s.setWatches d ws).fabric = s.fabric := (rfl)
@[simp] theorem State.setWatches_wtab : (s.setWatches d ws).wtab = s.wtab := (rfl)
@[simp] theorem State.setWatches_dup : (s.setWatches d ws).dup = s.dup := (rfl)
@[simp] theorem State.setWatches_digest : (s.setWatches d ws).digest = s.digest := (rfl)
@[simp] theorem State.setWatches_power : (s.setWatches d ws).power = s.power := (rfl)
@[simp] theorem State.setWatches_time : (s.setWatches d ws).time = s.time := (rfl)
@[simp] theorem State.setWatches_cue : (s.setWatches d ws).cue = s.cue := (rfl)
@[simp] theorem State.setWatches_ckpt : (s.setWatches d ws).ckpt = s.ckpt := (rfl)
@[simp] theorem State.setWatches_resets : (s.setWatches d ws).resets = s.resets := (rfl)
@[simp] theorem State.setWatches_fw : (s.setWatches d ws).fw = s.fw := (rfl)
@[simp] theorem State.setWatches_hang : (s.setWatches d ws).hang = s.hang := (rfl)
@[simp] theorem State.setWatches_io : (s.setWatches d ws).io = s.io := (rfl)
end

/-! ### putTrack -/

section
variable (s : State) (d t : Nat) (e : Track)
@[simp] theorem State.putTrack_pending : (s.putTrack d t e).pending = s.pending := (rfl)
@[simp] theorem State.putTrack_freeIdx : (s.putTrack d t e).freeIdx = s.freeIdx := (rfl)
@[simp] theorem State.putTrack_sent : (s.putTrack d t e).sent = s.sent := (rfl)
@[simp] theorem State.putTrack_regs : (s.putTrack d t e).regs = s.regs := (rfl)
@[simp] theorem State.putTrack_inForce : (s.putTrack d t e).inForce = s.inForce := (rfl)
@[simp] theorem State.putTrack_log : (s.putTrack d t e).log = s.log := (rfl)
@[simp] theorem State.putTrack_chg : (s.putTrack d t e).chg = s.chg := (rfl)
@[simp] theorem State.putTrack_heldW : (s.putTrack d t e).heldW = s.heldW := (rfl)
@[simp] theorem State.putTrack_routes : (s.putTrack d t e).routes = s.routes := (rfl)
@[simp] theorem State.putTrack_books : (s.putTrack d t e).books = s.books := (rfl)
@[simp] theorem State.putTrack_sec : (s.putTrack d t e).sec = s.sec := (rfl)
@[simp] theorem State.putTrack_ident : (s.putTrack d t e).ident = s.ident := (rfl)
@[simp] theorem State.putTrack_units : (s.putTrack d t e).units = s.units := (rfl)
@[simp] theorem State.putTrack_step : (s.putTrack d t e).step = s.step := (rfl)
@[simp] theorem State.putTrack_fenceSelf : (s.putTrack d t e).fenceSelf = s.fenceSelf := (rfl)
@[simp] theorem State.putTrack_retained : (s.putTrack d t e).retained = s.retained := (rfl)
@[simp] theorem State.putTrack_tensors : (s.putTrack d t e).tensors = s.tensors := (rfl)
@[simp] theorem State.putTrack_leader : (s.putTrack d t e).leader = s.leader := (rfl)
@[simp] theorem State.putTrack_mxe : (s.putTrack d t e).mxe = s.mxe := (rfl)
@[simp] theorem State.putTrack_gather : (s.putTrack d t e).gather = s.gather := (rfl)
@[simp] theorem State.putTrack_vxe : (s.putTrack d t e).vxe = s.vxe := (rfl)
@[simp] theorem State.putTrack_slots : (s.putTrack d t e).slots = s.slots := (rfl)
@[simp] theorem State.putTrack_staging : (s.putTrack d t e).staging = s.staging := (rfl)
@[simp] theorem State.putTrack_ports : (s.putTrack d t e).ports = s.ports := (rfl)
@[simp] theorem State.putTrack_mem : (s.putTrack d t e).mem = s.mem := (rfl)
@[simp] theorem State.putTrack_history : (s.putTrack d t e).history = s.history := (rfl)
@[simp] theorem State.putTrack_dieEnv : (s.putTrack d t e).dieEnv = s.dieEnv := (rfl)
@[simp] theorem State.putTrack_fabric : (s.putTrack d t e).fabric = s.fabric := (rfl)
@[simp] theorem State.putTrack_wtab : (s.putTrack d t e).wtab = s.wtab := (rfl)
@[simp] theorem State.putTrack_dup : (s.putTrack d t e).dup = s.dup := (rfl)
@[simp] theorem State.putTrack_digest : (s.putTrack d t e).digest = s.digest := (rfl)
@[simp] theorem State.putTrack_power : (s.putTrack d t e).power = s.power := (rfl)
@[simp] theorem State.putTrack_time : (s.putTrack d t e).time = s.time := (rfl)
@[simp] theorem State.putTrack_cue : (s.putTrack d t e).cue = s.cue := (rfl)
@[simp] theorem State.putTrack_ckpt : (s.putTrack d t e).ckpt = s.ckpt := (rfl)
@[simp] theorem State.putTrack_resets : (s.putTrack d t e).resets = s.resets := (rfl)
@[simp] theorem State.putTrack_fw : (s.putTrack d t e).fw = s.fw := (rfl)
@[simp] theorem State.putTrack_hang : (s.putTrack d t e).hang = s.hang := (rfl)
@[simp] theorem State.putTrack_io : (s.putTrack d t e).io = s.io := (rfl)
end

/-! ### endTrack -/

section
variable (s : State) (d t : Nat)
@[simp] theorem State.endTrack_pending : (s.endTrack d t).pending = s.pending := (rfl)
@[simp] theorem State.endTrack_freeIdx : (s.endTrack d t).freeIdx = s.freeIdx := (rfl)
@[simp] theorem State.endTrack_sent : (s.endTrack d t).sent = s.sent := (rfl)
@[simp] theorem State.endTrack_regs : (s.endTrack d t).regs = s.regs := (rfl)
@[simp] theorem State.endTrack_inForce : (s.endTrack d t).inForce = s.inForce := (rfl)
@[simp] theorem State.endTrack_log : (s.endTrack d t).log = s.log := (rfl)
@[simp] theorem State.endTrack_chg : (s.endTrack d t).chg = s.chg := (rfl)
@[simp] theorem State.endTrack_heldW : (s.endTrack d t).heldW = s.heldW := (rfl)
@[simp] theorem State.endTrack_routes : (s.endTrack d t).routes = s.routes := (rfl)
@[simp] theorem State.endTrack_books : (s.endTrack d t).books = s.books := (rfl)
@[simp] theorem State.endTrack_sec : (s.endTrack d t).sec = s.sec := (rfl)
@[simp] theorem State.endTrack_ident : (s.endTrack d t).ident = s.ident := (rfl)
@[simp] theorem State.endTrack_units : (s.endTrack d t).units = s.units := (rfl)
@[simp] theorem State.endTrack_step : (s.endTrack d t).step = s.step := (rfl)
@[simp] theorem State.endTrack_fenceSelf : (s.endTrack d t).fenceSelf = s.fenceSelf := (rfl)
@[simp] theorem State.endTrack_retained : (s.endTrack d t).retained = s.retained := (rfl)
@[simp] theorem State.endTrack_tensors : (s.endTrack d t).tensors = s.tensors := (rfl)
@[simp] theorem State.endTrack_leader : (s.endTrack d t).leader = s.leader := (rfl)
@[simp] theorem State.endTrack_mxe : (s.endTrack d t).mxe = s.mxe := (rfl)
@[simp] theorem State.endTrack_gather : (s.endTrack d t).gather = s.gather := (rfl)
@[simp] theorem State.endTrack_vxe : (s.endTrack d t).vxe = s.vxe := (rfl)
@[simp] theorem State.endTrack_slots : (s.endTrack d t).slots = s.slots := (rfl)
@[simp] theorem State.endTrack_staging : (s.endTrack d t).staging = s.staging := (rfl)
@[simp] theorem State.endTrack_ports : (s.endTrack d t).ports = s.ports := (rfl)
@[simp] theorem State.endTrack_mem : (s.endTrack d t).mem = s.mem := (rfl)
@[simp] theorem State.endTrack_history : (s.endTrack d t).history = s.history := (rfl)
@[simp] theorem State.endTrack_dieEnv : (s.endTrack d t).dieEnv = s.dieEnv := (rfl)
@[simp] theorem State.endTrack_fabric : (s.endTrack d t).fabric = s.fabric := (rfl)
@[simp] theorem State.endTrack_wtab : (s.endTrack d t).wtab = s.wtab := (rfl)
@[simp] theorem State.endTrack_dup : (s.endTrack d t).dup = s.dup := (rfl)
@[simp] theorem State.endTrack_digest : (s.endTrack d t).digest = s.digest := (rfl)
@[simp] theorem State.endTrack_power : (s.endTrack d t).power = s.power := (rfl)
@[simp] theorem State.endTrack_time : (s.endTrack d t).time = s.time := (rfl)
@[simp] theorem State.endTrack_cue : (s.endTrack d t).cue = s.cue := (rfl)
@[simp] theorem State.endTrack_ckpt : (s.endTrack d t).ckpt = s.ckpt := (rfl)
@[simp] theorem State.endTrack_resets : (s.endTrack d t).resets = s.resets := (rfl)
@[simp] theorem State.endTrack_fw : (s.endTrack d t).fw = s.fw := (rfl)
@[simp] theorem State.endTrack_hang : (s.endTrack d t).hang = s.hang := (rfl)
@[simp] theorem State.endTrack_io : (s.endTrack d t).io = s.io := (rfl)
end

/-! ### rehInject -/

section
variable (s : State) (r : RehRun) (place : Nat)
@[simp] theorem State.rehInject_pending : (s.rehInject r place).pending = s.pending := (rfl)
@[simp] theorem State.rehInject_freeIdx : (s.rehInject r place).freeIdx = s.freeIdx := (rfl)
@[simp] theorem State.rehInject_sent : (s.rehInject r place).sent = s.sent := (rfl)
@[simp] theorem State.rehInject_regs : (s.rehInject r place).regs = s.regs := (rfl)
@[simp] theorem State.rehInject_inForce : (s.rehInject r place).inForce = s.inForce := (rfl)
@[simp] theorem State.rehInject_log : (s.rehInject r place).log = s.log := (rfl)
@[simp] theorem State.rehInject_chg : (s.rehInject r place).chg = s.chg := (rfl)
@[simp] theorem State.rehInject_heldW : (s.rehInject r place).heldW = s.heldW := (rfl)
@[simp] theorem State.rehInject_routes : (s.rehInject r place).routes = s.routes := (rfl)
@[simp] theorem State.rehInject_books : (s.rehInject r place).books = s.books := (rfl)
@[simp] theorem State.rehInject_sec : (s.rehInject r place).sec = s.sec := (rfl)
@[simp] theorem State.rehInject_ident : (s.rehInject r place).ident = s.ident := (rfl)
@[simp] theorem State.rehInject_units : (s.rehInject r place).units = s.units := (rfl)
@[simp] theorem State.rehInject_step : (s.rehInject r place).step = s.step := (rfl)
@[simp] theorem State.rehInject_fenceSelf : (s.rehInject r place).fenceSelf = s.fenceSelf := (rfl)
@[simp] theorem State.rehInject_retained : (s.rehInject r place).retained = s.retained := (rfl)
@[simp] theorem State.rehInject_tensors : (s.rehInject r place).tensors = s.tensors := (rfl)
@[simp] theorem State.rehInject_leader : (s.rehInject r place).leader = s.leader := (rfl)
@[simp] theorem State.rehInject_mxe : (s.rehInject r place).mxe = s.mxe := (rfl)
@[simp] theorem State.rehInject_gather : (s.rehInject r place).gather = s.gather := (rfl)
@[simp] theorem State.rehInject_vxe : (s.rehInject r place).vxe = s.vxe := (rfl)
@[simp] theorem State.rehInject_slots : (s.rehInject r place).slots = s.slots := (rfl)
@[simp] theorem State.rehInject_staging : (s.rehInject r place).staging = s.staging := (rfl)
@[simp] theorem State.rehInject_ports : (s.rehInject r place).ports = s.ports := (rfl)
@[simp] theorem State.rehInject_mem : (s.rehInject r place).mem = s.mem := (rfl)
@[simp] theorem State.rehInject_ctx : (s.rehInject r place).ctx = s.ctx := (rfl)
@[simp] theorem State.rehInject_history : (s.rehInject r place).history = s.history := (rfl)
@[simp] theorem State.rehInject_dieEnv : (s.rehInject r place).dieEnv = s.dieEnv := (rfl)
@[simp] theorem State.rehInject_fabric : (s.rehInject r place).fabric = s.fabric := (rfl)
@[simp] theorem State.rehInject_wtab : (s.rehInject r place).wtab = s.wtab := (rfl)
@[simp] theorem State.rehInject_dup : (s.rehInject r place).dup = s.dup := (rfl)
@[simp] theorem State.rehInject_digest : (s.rehInject r place).digest = s.digest := (rfl)
@[simp] theorem State.rehInject_power : (s.rehInject r place).power = s.power := (rfl)
@[simp] theorem State.rehInject_time : (s.rehInject r place).time = s.time := (rfl)
@[simp] theorem State.rehInject_ckpt : (s.rehInject r place).ckpt = s.ckpt := (rfl)
@[simp] theorem State.rehInject_resets : (s.rehInject r place).resets = s.resets := (rfl)
@[simp] theorem State.rehInject_fw : (s.rehInject r place).fw = s.fw := (rfl)
@[simp] theorem State.rehInject_hang : (s.rehInject r place).hang = s.hang := (rfl)
@[simp] theorem State.rehInject_io : (s.rehInject r place).io = s.io := (rfl)
end

/-! ### setErr -/

section
variable (s : State) (d pg bit : Nat)
@[simp] theorem State.setErr_pending : (s.setErr d pg bit).pending = s.pending := by
  simp only [State.setErr]
  split <;> simp
@[simp] theorem State.setErr_freeIdx : (s.setErr d pg bit).freeIdx = s.freeIdx := by
  simp only [State.setErr]
  split <;> simp
@[simp] theorem State.setErr_inForce : (s.setErr d pg bit).inForce = s.inForce := by
  simp only [State.setErr]
  split <;> simp
@[simp] theorem State.setErr_log : (s.setErr d pg bit).log = s.log := by
  simp only [State.setErr]
  split <;> simp
@[simp] theorem State.setErr_chg : (s.setErr d pg bit).chg = s.chg := by
  simp only [State.setErr]
  split <;> simp
@[simp] theorem State.setErr_heldW : (s.setErr d pg bit).heldW = s.heldW := by
  simp only [State.setErr]
  split <;> simp
@[simp] theorem State.setErr_routes : (s.setErr d pg bit).routes = s.routes := by
  simp only [State.setErr]
  split <;> simp
@[simp] theorem State.setErr_books : (s.setErr d pg bit).books = s.books := by
  simp only [State.setErr]
  split <;> simp
@[simp] theorem State.setErr_sec : (s.setErr d pg bit).sec = s.sec := by
  simp only [State.setErr]
  split <;> simp
@[simp] theorem State.setErr_ident : (s.setErr d pg bit).ident = s.ident := by
  simp only [State.setErr]
  split <;> simp
@[simp] theorem State.setErr_units : (s.setErr d pg bit).units = s.units := by
  simp only [State.setErr]
  split <;> simp
@[simp] theorem State.setErr_step : (s.setErr d pg bit).step = s.step := by
  simp only [State.setErr]
  split <;> simp
@[simp] theorem State.setErr_fenceSelf : (s.setErr d pg bit).fenceSelf = s.fenceSelf := by
  simp only [State.setErr]
  split <;> simp
@[simp] theorem State.setErr_retained : (s.setErr d pg bit).retained = s.retained := by
  simp only [State.setErr]
  split <;> simp
@[simp] theorem State.setErr_tensors : (s.setErr d pg bit).tensors = s.tensors := by
  simp only [State.setErr]
  split <;> simp
@[simp] theorem State.setErr_leader : (s.setErr d pg bit).leader = s.leader := by
  simp only [State.setErr]
  split <;> simp
@[simp] theorem State.setErr_mxe : (s.setErr d pg bit).mxe = s.mxe := by
  simp only [State.setErr]
  split <;> simp
@[simp] theorem State.setErr_gather : (s.setErr d pg bit).gather = s.gather := by
  simp only [State.setErr]
  split <;> simp
@[simp] theorem State.setErr_vxe : (s.setErr d pg bit).vxe = s.vxe := by
  simp only [State.setErr]
  split <;> simp
@[simp] theorem State.setErr_slots : (s.setErr d pg bit).slots = s.slots := by
  simp only [State.setErr]
  split <;> simp
@[simp] theorem State.setErr_staging : (s.setErr d pg bit).staging = s.staging := by
  simp only [State.setErr]
  split <;> simp
@[simp] theorem State.setErr_ports : (s.setErr d pg bit).ports = s.ports := by
  simp only [State.setErr]
  split <;> simp
@[simp] theorem State.setErr_mem : (s.setErr d pg bit).mem = s.mem := by
  simp only [State.setErr]
  split <;> simp
@[simp] theorem State.setErr_ctx : (s.setErr d pg bit).ctx = s.ctx := by
  simp only [State.setErr]
  split <;> simp
@[simp] theorem State.setErr_history : (s.setErr d pg bit).history = s.history := by
  simp only [State.setErr]
  split <;> simp
@[simp] theorem State.setErr_dieEnv : (s.setErr d pg bit).dieEnv = s.dieEnv := by
  simp only [State.setErr]
  split <;> simp
@[simp] theorem State.setErr_fabric : (s.setErr d pg bit).fabric = s.fabric := by
  simp only [State.setErr]
  split <;> simp
@[simp] theorem State.setErr_wtab : (s.setErr d pg bit).wtab = s.wtab := by
  simp only [State.setErr]
  split <;> simp
@[simp] theorem State.setErr_dup : (s.setErr d pg bit).dup = s.dup := by
  simp only [State.setErr]
  split <;> simp
@[simp] theorem State.setErr_digest : (s.setErr d pg bit).digest = s.digest := by
  simp only [State.setErr]
  split <;> simp
@[simp] theorem State.setErr_power : (s.setErr d pg bit).power = s.power := by
  simp only [State.setErr]
  split <;> simp
@[simp] theorem State.setErr_time : (s.setErr d pg bit).time = s.time := by
  simp only [State.setErr]
  split <;> simp
@[simp] theorem State.setErr_cue : (s.setErr d pg bit).cue = s.cue := by
  simp only [State.setErr]
  split <;> simp
@[simp] theorem State.setErr_ckpt : (s.setErr d pg bit).ckpt = s.ckpt := by
  simp only [State.setErr]
  split <;> simp
@[simp] theorem State.setErr_resets : (s.setErr d pg bit).resets = s.resets := by
  simp only [State.setErr]
  split <;> simp
@[simp] theorem State.setErr_fw : (s.setErr d pg bit).fw = s.fw := by
  simp only [State.setErr]
  split <;> simp
@[simp] theorem State.setErr_hang : (s.setErr d pg bit).hang = s.hang := by
  simp only [State.setErr]
  split <;> simp
@[simp] theorem State.setErr_io : (s.setErr d pg bit).io = s.io := by
  simp only [State.setErr]
  split <;> simp
end

/-! ### noCert -/

section
variable (s : State) (reason : Nat)
@[simp] theorem State.noCert_pending : (s.noCert reason).pending = s.pending := by
  simp only [State.noCert]
  split <;> simp
@[simp] theorem State.noCert_freeIdx : (s.noCert reason).freeIdx = s.freeIdx := by
  simp only [State.noCert]
  split <;> simp
@[simp] theorem State.noCert_sent : (s.noCert reason).sent = s.sent := by
  simp only [State.noCert]
  split <;> simp
@[simp] theorem State.noCert_regs : (s.noCert reason).regs = s.regs := by
  simp only [State.noCert]
  split <;> simp
@[simp] theorem State.noCert_inForce : (s.noCert reason).inForce = s.inForce := by
  simp only [State.noCert]
  split <;> simp
@[simp] theorem State.noCert_log : (s.noCert reason).log = s.log := by
  simp only [State.noCert]
  split <;> simp
@[simp] theorem State.noCert_chg : (s.noCert reason).chg = s.chg := by
  simp only [State.noCert]
  split <;> simp
@[simp] theorem State.noCert_heldW : (s.noCert reason).heldW = s.heldW := by
  simp only [State.noCert]
  split <;> simp
@[simp] theorem State.noCert_routes : (s.noCert reason).routes = s.routes := by
  simp only [State.noCert]
  split <;> simp
@[simp] theorem State.noCert_books : (s.noCert reason).books = s.books := by
  simp only [State.noCert]
  split <;> simp
@[simp] theorem State.noCert_sec : (s.noCert reason).sec = s.sec := by
  simp only [State.noCert]
  split <;> simp
@[simp] theorem State.noCert_ident : (s.noCert reason).ident = s.ident := by
  simp only [State.noCert]
  split <;> simp
@[simp] theorem State.noCert_units : (s.noCert reason).units = s.units := by
  simp only [State.noCert]
  split <;> simp
@[simp] theorem State.noCert_fenceSelf : (s.noCert reason).fenceSelf = s.fenceSelf := by
  simp only [State.noCert]
  split <;> simp
@[simp] theorem State.noCert_retained : (s.noCert reason).retained = s.retained := by
  simp only [State.noCert]
  split <;> simp
@[simp] theorem State.noCert_tensors : (s.noCert reason).tensors = s.tensors := by
  simp only [State.noCert]
  split <;> simp
@[simp] theorem State.noCert_leader : (s.noCert reason).leader = s.leader := by
  simp only [State.noCert]
  split <;> simp
@[simp] theorem State.noCert_mxe : (s.noCert reason).mxe = s.mxe := by
  simp only [State.noCert]
  split <;> simp
@[simp] theorem State.noCert_gather : (s.noCert reason).gather = s.gather := by
  simp only [State.noCert]
  split <;> simp
@[simp] theorem State.noCert_vxe : (s.noCert reason).vxe = s.vxe := by
  simp only [State.noCert]
  split <;> simp
@[simp] theorem State.noCert_slots : (s.noCert reason).slots = s.slots := by
  simp only [State.noCert]
  split <;> simp
@[simp] theorem State.noCert_staging : (s.noCert reason).staging = s.staging := by
  simp only [State.noCert]
  split <;> simp
@[simp] theorem State.noCert_ports : (s.noCert reason).ports = s.ports := by
  simp only [State.noCert]
  split <;> simp
@[simp] theorem State.noCert_mem : (s.noCert reason).mem = s.mem := by
  simp only [State.noCert]
  split <;> simp
@[simp] theorem State.noCert_ctx : (s.noCert reason).ctx = s.ctx := by
  simp only [State.noCert]
  split <;> simp
@[simp] theorem State.noCert_history : (s.noCert reason).history = s.history := by
  simp only [State.noCert]
  split <;> simp
@[simp] theorem State.noCert_dieEnv : (s.noCert reason).dieEnv = s.dieEnv := by
  simp only [State.noCert]
  split <;> simp
@[simp] theorem State.noCert_fabric : (s.noCert reason).fabric = s.fabric := by
  simp only [State.noCert]
  split <;> simp
@[simp] theorem State.noCert_wtab : (s.noCert reason).wtab = s.wtab := by
  simp only [State.noCert]
  split <;> simp
@[simp] theorem State.noCert_dup : (s.noCert reason).dup = s.dup := by
  simp only [State.noCert]
  split <;> simp
@[simp] theorem State.noCert_digest : (s.noCert reason).digest = s.digest := by
  simp only [State.noCert]
  split <;> simp
@[simp] theorem State.noCert_power : (s.noCert reason).power = s.power := by
  simp only [State.noCert]
  split <;> simp
@[simp] theorem State.noCert_time : (s.noCert reason).time = s.time := by
  simp only [State.noCert]
  split <;> simp
@[simp] theorem State.noCert_cue : (s.noCert reason).cue = s.cue := by
  simp only [State.noCert]
  split <;> simp
@[simp] theorem State.noCert_ckpt : (s.noCert reason).ckpt = s.ckpt := by
  simp only [State.noCert]
  split <;> simp
@[simp] theorem State.noCert_resets : (s.noCert reason).resets = s.resets := by
  simp only [State.noCert]
  split <;> simp
@[simp] theorem State.noCert_fw : (s.noCert reason).fw = s.fw := by
  simp only [State.noCert]
  split <;> simp
@[simp] theorem State.noCert_hang : (s.noCert reason).hang = s.hang := by
  simp only [State.noCert]
  split <;> simp
@[simp] theorem State.noCert_io : (s.noCert reason).io = s.io := by
  simp only [State.noCert]
  split <;> simp
end

/-! ### logAt -/

section
variable (s : State) (d src : Nat) (code : LogCode) (data : List Nat) (flags : Nat)
@[simp] theorem State.logAt_pending : (s.logAt d src code data flags).pending = s.pending := by
  simp only [State.logAt]
  split <;> simp
@[simp] theorem State.logAt_freeIdx : (s.logAt d src code data flags).freeIdx = s.freeIdx := by
  simp only [State.logAt]
  split <;> simp
@[simp] theorem State.logAt_sent : (s.logAt d src code data flags).sent = s.sent := by
  simp only [State.logAt]
  split <;> simp
@[simp] theorem State.logAt_inForce : (s.logAt d src code data flags).inForce = s.inForce := by
  simp only [State.logAt]
  split <;> simp
@[simp] theorem State.logAt_chg : (s.logAt d src code data flags).chg = s.chg := by
  simp only [State.logAt]
  split <;> simp
@[simp] theorem State.logAt_heldW : (s.logAt d src code data flags).heldW = s.heldW := by
  simp only [State.logAt]
  split <;> simp
@[simp] theorem State.logAt_routes : (s.logAt d src code data flags).routes = s.routes := by
  simp only [State.logAt]
  split <;> simp
@[simp] theorem State.logAt_books : (s.logAt d src code data flags).books = s.books := by
  simp only [State.logAt]
  split <;> simp
@[simp] theorem State.logAt_sec : (s.logAt d src code data flags).sec = s.sec := by
  simp only [State.logAt]
  split <;> simp
@[simp] theorem State.logAt_ident : (s.logAt d src code data flags).ident = s.ident := by
  simp only [State.logAt]
  split <;> simp
@[simp] theorem State.logAt_units : (s.logAt d src code data flags).units = s.units := by
  simp only [State.logAt]
  split <;> simp
@[simp] theorem State.logAt_step : (s.logAt d src code data flags).step = s.step := by
  simp only [State.logAt]
  split <;> simp
@[simp] theorem State.logAt_fenceSelf : (s.logAt d src code data flags).fenceSelf = s.fenceSelf := by
  simp only [State.logAt]
  split <;> simp
@[simp] theorem State.logAt_retained : (s.logAt d src code data flags).retained = s.retained := by
  simp only [State.logAt]
  split <;> simp
@[simp] theorem State.logAt_tensors : (s.logAt d src code data flags).tensors = s.tensors := by
  simp only [State.logAt]
  split <;> simp
@[simp] theorem State.logAt_leader : (s.logAt d src code data flags).leader = s.leader := by
  simp only [State.logAt]
  split <;> simp
@[simp] theorem State.logAt_mxe : (s.logAt d src code data flags).mxe = s.mxe := by
  simp only [State.logAt]
  split <;> simp
@[simp] theorem State.logAt_gather : (s.logAt d src code data flags).gather = s.gather := by
  simp only [State.logAt]
  split <;> simp
@[simp] theorem State.logAt_vxe : (s.logAt d src code data flags).vxe = s.vxe := by
  simp only [State.logAt]
  split <;> simp
@[simp] theorem State.logAt_slots : (s.logAt d src code data flags).slots = s.slots := by
  simp only [State.logAt]
  split <;> simp
@[simp] theorem State.logAt_staging : (s.logAt d src code data flags).staging = s.staging := by
  simp only [State.logAt]
  split <;> simp
@[simp] theorem State.logAt_ports : (s.logAt d src code data flags).ports = s.ports := by
  simp only [State.logAt]
  split <;> simp
@[simp] theorem State.logAt_mem : (s.logAt d src code data flags).mem = s.mem := by
  simp only [State.logAt]
  split <;> simp
@[simp] theorem State.logAt_ctx : (s.logAt d src code data flags).ctx = s.ctx := by
  simp only [State.logAt]
  split <;> simp
@[simp] theorem State.logAt_history : (s.logAt d src code data flags).history = s.history := by
  simp only [State.logAt]
  split <;> simp
@[simp] theorem State.logAt_dieEnv : (s.logAt d src code data flags).dieEnv = s.dieEnv := by
  simp only [State.logAt]
  split <;> simp
@[simp] theorem State.logAt_fabric : (s.logAt d src code data flags).fabric = s.fabric := by
  simp only [State.logAt]
  split <;> simp
@[simp] theorem State.logAt_wtab : (s.logAt d src code data flags).wtab = s.wtab := by
  simp only [State.logAt]
  split <;> simp
@[simp] theorem State.logAt_dup : (s.logAt d src code data flags).dup = s.dup := by
  simp only [State.logAt]
  split <;> simp
@[simp] theorem State.logAt_digest : (s.logAt d src code data flags).digest = s.digest := by
  simp only [State.logAt]
  split <;> simp
@[simp] theorem State.logAt_power : (s.logAt d src code data flags).power = s.power := by
  simp only [State.logAt]
  split <;> simp
@[simp] theorem State.logAt_time : (s.logAt d src code data flags).time = s.time := by
  simp only [State.logAt]
  split <;> simp
@[simp] theorem State.logAt_cue : (s.logAt d src code data flags).cue = s.cue := by
  simp only [State.logAt]
  split <;> simp
@[simp] theorem State.logAt_ckpt : (s.logAt d src code data flags).ckpt = s.ckpt := by
  simp only [State.logAt]
  split <;> simp
@[simp] theorem State.logAt_resets : (s.logAt d src code data flags).resets = s.resets := by
  simp only [State.logAt]
  split <;> simp
@[simp] theorem State.logAt_fw : (s.logAt d src code data flags).fw = s.fw := by
  simp only [State.logAt]
  split <;> simp
@[simp] theorem State.logAt_hang : (s.logAt d src code data flags).hang = s.hang := by
  simp only [State.logAt]
  split <;> simp
@[simp] theorem State.logAt_io : (s.logAt d src code data flags).io = s.io := by
  simp only [State.logAt]
  split <;> simp
end

/-! ### The field that changes -/

@[simp] theorem State.send_sent (s : State) (o : Out) : (s.send o).sent = o :: s.sent := (rfl)
@[simp] theorem State.took_freeIdx (s : State) (n : Nat) : (s.took n).freeIdx = s.freeIdx + n := (rfl)

end Sys2Proof.Machine
end

