-- ==== Sys2Proof/Laws/Answers.lean ====
section
/-! SUPPORT. An answer, to this part or to another one, and the end of an aged request change no memory (14 R314 to R316). -/

namespace Sys2Proof.Machine

/-- What a fold's every step leaves, the fold leaves. -/
theorem foldl_mem_eq {α : Type} {f : State → α → State} (hf : ∀ s x, (f s x).mem = s.mem) (l : List α) (s : State) :
    (l.foldl f s).mem = s.mem := by
  induction l generalizing s with
  | nil => rfl
  | cons x xs ih => rw [List.foldl_cons, ih, hf]

theorem foldNat_mem_eq {f : State → Nat → State} (hf : ∀ s x, (f s x).mem = s.mem) (n : Nat) (s : State) :
    (foldNat n f s).mem = s.mem := by
  simpa [foldNat] using foldl_mem_eq hf (List.range n) s

/-! ### Packets -/

@[simp] theorem enqueue_mem (s : State) (p : Nat) (q : QPk) : (s.enqueue p q).mem = s.mem := by
  have h : (s.markPacket p q.pk).1.mem = s.mem := by
    simp only [State.markPacket]
    split <;> simp
  simpa [State.enqueue] using h

@[simp] theorem sendCt_mem (s : State) (d dev : Nat) (k : Packet) : (s.sendCt d dev k).mem = s.mem := by
  simp only [State.sendCt]
  split
  · rfl
  · split <;> simp

@[simp] theorem branchLost_mem (s : State) (d flow port nbr : Nat) : (s.branchLost d flow port nbr).mem = s.mem := by
  have h : (foldNat 4 (fun s x => s.wrF x pgRtr 0x028 4 1 1) s).mem = s.mem := foldNat_mem_eq (fun s _ => State.wrF_mem s _ _ _ _ _ _) 4 s
  simp only [State.branchLost]
  split <;> simp [h]

@[simp] theorem answerLost_mem (s : State) (p : Nat) (k : Packet) (n : Nat) : (s.answerLost p k n).mem = s.mem := by
  simp only [State.answerLost]
  repeat' split
  all_goals simp

@[simp] theorem dropBranch_mem (s : State) (p : Nat) (k : Packet) (n : Nat) : (s.dropBranch p k n).mem = s.mem := by
  simp only [State.dropBranch]
  split <;> simp

@[simp] theorem fenceDrop_mem (s : State) (p : Nat) : (s.fenceDrop p).mem = s.mem := by
  simp only [State.fenceDrop]
  repeat' split
  · exact (foldl_mem_eq (fun s (x : QPk) => dropBranch_mem s p x.pk x.leaves) _ _).trans (by simp)
  all_goals rfl

@[simp] theorem flitOut_mem (s : State) (p t st q vc : Nat) (bs : List Byte) : (s.flitOut p t st q vc bs).mem = s.mem := by
  simp [State.flitOut]

@[simp] theorem syncRetry_mem (s : State) (p : Nat) : (s.syncRetry p).mem = s.mem := by
  simp [State.syncRetry, State.setCp]

@[simp] theorem sendFlit_mem (s : State) (p : Nat) (f : TxFlit) : (s.sendFlit p f).mem = s.mem := by
  simp [State.sendFlit, State.txOut]

@[simp] theorem setCredits_mem (s : State) (p vc n : Nat) : (s.setCredits p vc n).mem = s.mem := by
  simp only [State.setCredits, State.setCp]
  split <;> simp

@[simp] theorem emitFlit_mem (s : State) (p vc : Nat) : (s.emitFlit p vc).mem = s.mem := by
  simp [State.emitFlit]

@[simp] theorem startPk_mem (s : State) (p : Nat) (q : QPk) : (s.startPk p q).mem = s.mem := by
  have h (t : State) : (if t.inFreeSlot p q.pk then t.incF (portDie p) pgRtr 0x0F8 32 32 1 else t).mem = t.mem := by
    split <;> simp
  simp [State.startPk, h]

@[simp] theorem pumpLink_mem (n : Nat) (s : State) (p : Nat) : (pumpLink n s p).mem = s.mem := by
  induction n generalizing s with
  | zero => rfl
  | succ n ih =>
    unfold pumpLink
    repeat' split
    all_goals simp [ih]

@[simp] theorem toPort_mem (s : State) (p : Nat) (q : QPk) : (s.toPort p q).mem = s.mem := by
  simp [State.toPort, State.pump]

@[simp] theorem onto_mem (s : State) (d p label : Nat) (q : QPk) : (s.onto d p label q).mem = s.mem := by
  simp only [State.onto]
  repeat' split
  all_goals simp

@[simp] theorem forwardCircuit_mem (s : State) (d inp : Nat) (c : CircuitRec) (k : Packet) (g : Option Nat) :
    (s.forwardCircuit d inp c k g).mem = s.mem := by
  simp only [State.forwardCircuit]
  rw [foldl_mem_eq (fun s o => by split <;> simp)]
  split <;> simp

@[simp] theorem circuitIn_mem (s : State) (d : Nat) (c : CircuitRec) (k : Packet) : (s.circuitIn d c k).mem = s.mem := by
  simp only [State.circuitIn]
  split <;> simp

@[simp] theorem injectCircuit_mem (s : State) (c : CircuitRec) (k : Packet) : (s.injectCircuit c k).mem = s.mem := by
  simp only [State.injectCircuit, State.sealPacket, circuitIn_mem]
  split <;> simp

@[simp] theorem answerPacket_mem (s : State) (d : Nat) (r : Req) (st : Status) (data : List Byte) :
    (s.answerPacket d r st data).mem = s.mem := by
  simp only [State.answerPacket]
  repeat' split
  · exact foldl_mem_eq (fun s k => sendCt_mem s d _ k) _ _
  all_goals simp

/-! ### Engines -/

@[simp] theorem onSaved_mem (s : State) (d b id : Nat) (f : SaveSet → SaveSet) : (s.onSaved d b id f).mem = s.mem := by
  unfold State.onSaved
  split <;> rfl

@[simp] theorem onMxe_mem (s : State) (d b id : Nat) (f : Mxe → Mxe) : (s.onMxe d b id f).mem = s.mem := by
  unfold State.onMxe
  split <;> simp

@[simp] theorem onVxe_mem (s : State) (d b id : Nat) (f : Vxe → Vxe) : (s.onVxe d b id f).mem = s.mem := by
  unfold State.onVxe
  split <;> simp

@[simp] theorem vxeStop_mem (s : State) (d b id cause : Nat) : (s.vxeStop d b id cause).mem = s.mem := by
  simp [State.vxeStop]

@[simp] theorem sendHalt_mem (s : State) (reason : Nat) : (s.sendHalt reason).mem = s.mem := by
  simp only [State.sendHalt]
  split
  · rw [foldl_mem_eq (fun s x => by simp)]; simp
  · simp

@[simp] theorem endStep_mem (s : State) (reason : Nat) : (s.endStep reason).mem = s.mem := by
  simp only [State.endStep]
  split <;> simp

@[simp] theorem syncError_mem (s : State) (d b id : Nat) (v : Bool) (st : Status) (r : Bool) :
    (s.syncError d b id v st r).mem = s.mem := by
  simp only [State.syncError]
  repeat' split
  all_goals simp

@[simp] theorem syncDone_mem (s : State) (d b id : Nat) (v : Bool) : (s.syncDone d b id v).mem = s.mem := by
  simp only [State.syncDone, State.progress]
  repeat' split
  all_goals simp

@[simp] theorem onPair_mem (s : State) (d b sl : Nat) (f : SuSlot → SuSlot) : (s.onPair d b sl f).mem = s.mem := by
  simp only [State.onPair]
  split <;> simp

@[simp] theorem undefStaging_mem (s : State) (d b : Nat) (x : SuSlot) : (s.undefStaging d b x).mem = s.mem := by
  simp only [State.undefStaging]
  exact foldl_mem_eq (fun s n => by split <;> simp) _ _

@[simp] theorem keepStaging_mem (s : State) (d b sl : Nat) : (s.keepStaging d b sl).mem = s.mem := by
  simp only [State.keepStaging]
  split <;> simp

@[simp] theorem endOwnTracks_mem (s : State) (d b sl : Nat) : (s.endOwnTracks d b sl).mem = s.mem := rfl

@[simp] theorem abortSlot_mem (s : State) (d b sl cause : Nat) : (s.abortSlot d b sl cause).mem = s.mem := by
  simp only [State.abortSlot]
  repeat' split
  all_goals simp

@[simp] theorem slotError_mem (s : State) (d b sl : Nat) (st : Status) (r : Bool) : (s.slotError d b sl st r).mem = s.mem := by
  simp only [State.slotError]
  repeat' split
  all_goals simp

/-! ### Answers -/

@[simp] theorem deliver_mem (s : State) (o : Owner) (id : Nat) (st : Status) (r : Bool) : (s.deliver o id st r).mem = s.mem := by
  unfold State.deliver
  repeat' split
  all_goals simp

@[simp] theorem reply_mem (s : State) (d t e c g : Nat) (st : Status) (r : Bool) : (s.reply d t e c g st r).mem = s.mem := by
  simp only [State.reply]
  repeat' split
  all_goals simp

/-- An answer changes no memory. -/
@[simp] theorem answer_mem (s : State) (r : Req) (st : Status) (data : List Byte) : (s.answer r st data).mem = s.mem := by
  simp only [State.answer, State.busErr]
  repeat' split
  all_goals simp

@[simp] theorem runWatches_bytes (n : Nat) (s : State) (d k m : Nat) : (runWatches n s d k m).mem.bytes = s.mem.bytes := by
  induction n generalizing s with
  | zero => rfl
  | succ n ih =>
    unfold runWatches
    simp only
    repeat' split
    all_goals simp [ih, State.setWatches]

/-- A request that is discarded by age leaves every byte of memory. -/
@[simp] theorem discardAged_bytes (s : State) (r : Req) : (s.discardAged r).mem.bytes = s.mem.bytes := by
  simp only [State.discardAged, State.dropWatches, State.evalWatches]
  split <;> simp [State.setWatches]

@[simp] theorem inTurn_mem (s : State) (r : Req) : (s.inTurn r).mem = s.mem := by
  unfold State.inTurn
  repeat' split
  all_goals rfl

end Sys2Proof.Machine
end

