-- ==== Sys2Proof/Laws/Cache.lean ====
section
/-! SUPPORT. What a lookup of the shared cache leaves alone (11 R250): what memory holds, its errors and what a check of it
finds. -/

namespace Sys2Proof.Machine

/-- Two states whose stored bytes, errors and uncorrectable sectors agree. -/
def SameData (s t : State) : Prop := t.mem.bytes = s.mem.bytes ∧ t.mem.err = s.mem.err ∧ t.mem.bad = s.mem.bad

theorem SameData.rangeBad {s t : State} (h : SameData s t) (k n : Nat) : t.rangeBad k n = s.rangeBad k n := by
  obtain ⟨h1, h2, h3⟩ := h
  have h : t.isBad = s.isBad := funext fun sec => by
    simp [State.isBad, State.sectorOutcome, State.received, State.memRead, State.memByte, h1, h2, h3]
  rw [State.rangeBad, h, State.rangeBad]

theorem SameData.memRead {s t : State} (h : SameData s t) (k n : Nat) : t.memRead k n = s.memRead k n := by
  simp [State.memRead, State.memByte, h.1]

theorem lookSector_same (s : State) (sec : Nat) : SameData s (s.lookSector sec) := by
  simp only [SameData, State.lookSector, State.useSector, State.incF_mem]
  split <;> exact ⟨rfl, rfl, rfl⟩

theorem lookRange_same (s : State) (k n : Nat) : SameData s (s.lookRange k n) := by
  suffices h : ∀ (l : List Nat) (t : State), SameData s t → SameData s (l.foldl State.lookSector t) from
    h _ s ⟨rfl, rfl, rfl⟩
  intro l
  induction l with
  | nil => exact fun _ h => h
  | cons x l ih =>
    intro t h
    obtain ⟨a, b, c⟩ := lookSector_same t x
    exact ih _ ⟨a.trans h.1, b.trans h.2.1, c.trans h.2.2⟩

/-- A lookup changes nothing that a check finds, and nothing that a read answers. -/
@[simp] theorem rangeBad_lookRange (s : State) (k n k' n' : Nat) : (s.lookRange k n).rangeBad k' n' = s.rangeBad k' n' :=
  (lookRange_same s k n).rangeBad k' n'
@[simp] theorem memRead_lookRange (s : State) (k n k' n' : Nat) : (s.lookRange k n).memRead k' n' = s.memRead k' n' :=
  (lookRange_same s k n).memRead k' n'

/-- A check of sectors that are clean changes nothing. -/
theorem checkSecs_clean {s : State} {l : List Nat} (d : Nat) (h : ∀ x ∈ l, s.sectorOutcome x = .clean) :
    s.checkSecs d l = s := by
  have h1 : l.foldl State.checkSector s = s := by
    induction l with
    | nil => rfl
    | cons x l ih =>
      have e : s.checkSector x = s := by simp [State.checkSector, h x (by simp)]
      rw [List.foldl_cons, e]
      exact ih fun y hy => h y (by simp [hy])
  have h2 : l.filter s.isBad = [] := by
    simp only [List.filter_eq_nil_iff]
    intro x hx
    simp [State.isBad, h x hx]
  simp [State.checkSecs, h1, h2]

/-- A read of a clean range is a lookup of the cache and no more (R250, R265). -/
theorem touch_clean {s : State} {k n : Nat} (h : ∀ x ∈ sectorsOf k n, s.sectorOutcome x = .clean) :
    s.touch k n = s.lookRange k n := by
  refine checkSecs_clean _ fun x hx => ?_
  obtain ⟨h1, h2, h3⟩ := lookRange_same s k n
  rw [← h x hx]
  simp [State.sectorOutcome, State.received, State.memRead, State.memByte, h1, h2, h3]

end Sys2Proof.Machine
end

