-- ==== Sys2Proof/Laws/Tables.lean ====
section
/-! SUPPORT. Reading a table after a write, said once. -/

namespace Sys2Proof.Machine

theorem Tab.get_put {α : Type} (dflt : α) (t : Tab α) (k k' : Nat) (v : α) :
    Tab.get dflt (Tab.put t k v) k' = if k' = k then v else Tab.get dflt t k' := by
  induction t with
  | nil => simp only [Tab.put, Tab.get]
  | cons e t ih =>
    obtain ⟨j, w⟩ := e
    simp only [Tab.put]
    split
    · simp only [Tab.get]
    · split
      · next h => subst h; simp only [Tab.get]; split <;> simp_all
      · next h h' =>
        simp only [Tab.get, ih]
        split
        · next e => subst e; simp [Ne.symm h']
        · rfl

theorem Tab.get_del {α : Type} (dflt : α) (t : Tab α) (k k' : Nat) :
    Tab.get dflt (Tab.del t k) k' = if k' = k then dflt else Tab.get dflt t k' := by
  induction t with
  | nil => simp [Tab.del, Tab.get]
  | cons e t ih =>
    obtain ⟨j, w⟩ := e
    simp only [Tab.del]
    split
    · next h => subst h; rw [ih]; simp only [Tab.get]; split <;> simp_all
    · next h =>
      simp only [Tab.get, ih]
      split
      · next e => subst e; simp [Ne.symm h]
      · rfl

/-- A table that is written at `k` reads the value there and as before elsewhere. -/
theorem Tab.get_set {α : Type} [DecidableEq α] (dflt dflt' : α) (t : Tab α) (k k' : Nat) (v : α)
    (h : k' = k → dflt = dflt') :
    Tab.get dflt (Tab.set dflt' t k v) k' = if k' = k then v else Tab.get dflt t k' := by
  simp only [Tab.set]
  split
  · next e =>
    rw [Tab.get_del]
    split
    · next f => rw [h f, e]
    · rfl
  · exact Tab.get_put _ _ _ _ _

end Sys2Proof.Machine
end

