-- ==== Sys2Proof/Laws/Keeps.lean ====
section
/-! SUPPORT. Tables stay canonical. -/

namespace Sys2Proof.Machine

/-! ### Tables stay canonical -/

theorem Tab.wfFrom_mono {α : Type} [DecidableEq α] {d : Nat → α} {t : Tab α} {lo hi : Nat} (h : lo ≤ hi)
    (w : Tab.wfFrom d hi t = true) : Tab.wfFrom d lo t = true := by
  cases t with
  | nil => rfl
  | cons e t =>
    obtain ⟨k, v⟩ := e
    simp only [Tab.wfFrom, Bool.and_eq_true, decide_eq_true_eq] at w ⊢
    exact ⟨⟨Nat.le_trans h w.1.1, w.1.2⟩, w.2⟩

theorem Tab.wfFrom_put {α : Type} [DecidableEq α] {d : Nat → α} {t : Tab α} {lo k : Nat} {v : α} (h : lo ≤ k)
    (hv : v ≠ d k) (w : Tab.wfFrom d lo t = true) : Tab.wfFrom d lo (Tab.put t k v) = true := by
  induction t generalizing lo with
  | nil => simp [Tab.put, Tab.wfFrom, h, hv]
  | cons e t ih =>
    obtain ⟨k', v'⟩ := e
    simp only [Tab.wfFrom, Bool.and_eq_true, decide_eq_true_eq] at w
    simp only [Tab.put]
    split
    · next lt => simp [Tab.wfFrom, h, hv, w.1.2, w.2, Nat.succ_le_of_lt lt]
    · split
      · next eq => subst eq; simp [Tab.wfFrom, h, hv, w.2]
      · next nlt ne =>
        simp only [Tab.wfFrom, Bool.and_eq_true, decide_eq_true_eq]
        exact ⟨w.1, ih (by omega) w.2⟩

theorem Tab.wfFrom_del {α : Type} [DecidableEq α] {d : Nat → α} {t : Tab α} {lo k : Nat}
    (w : Tab.wfFrom d lo t = true) : Tab.wfFrom d lo (Tab.del t k) = true := by
  induction t generalizing lo with
  | nil => rfl
  | cons e t ih =>
    obtain ⟨k', v'⟩ := e
    simp only [Tab.wfFrom, Bool.and_eq_true, decide_eq_true_eq] at w
    simp only [Tab.del]
    split
    · exact ih (Tab.wfFrom_mono (by omega) w.2)
    · simp only [Tab.wfFrom, Bool.and_eq_true, decide_eq_true_eq]
      exact ⟨w.1, ih w.2⟩

theorem Tab.wf_set {α : Type} [DecidableEq α] {d : Nat → α} {t : Tab α} (k : Nat) (v : α)
    (w : Tab.wf d t = true) : Tab.wf d (Tab.set (d k) t k v) = true := by
  simp only [Tab.set]
  split
  · exact Tab.wfFrom_del w
  · next h => exact Tab.wfFrom_put (Nat.zero_le _) h w

theorem Tab.wfFrom_filter {α : Type} [DecidableEq α] {d : Nat → α} {t : Tab α} {lo : Nat} (p : Nat × α → Bool)
    (w : Tab.wfFrom d lo t = true) : Tab.wfFrom d lo (t.filter p) = true := by
  induction t generalizing lo with
  | nil => rfl
  | cons e t ih =>
    obtain ⟨k', v'⟩ := e
    simp only [Tab.wfFrom, Bool.and_eq_true, decide_eq_true_eq] at w
    by_cases hp : p (k', v')
    · simp only [List.filter_cons_of_pos hp, Tab.wfFrom, Bool.and_eq_true, decide_eq_true_eq]
      exact ⟨w.1, ih w.2⟩
    · rw [List.filter_cons_of_neg hp]
      exact ih (Tab.wfFrom_mono (by omega) w.2)

theorem Tab.wf_filter {α : Type} [DecidableEq α] {d : Nat → α} {t : Tab α} (p : Nat × α → Bool)
    (w : Tab.wf d t = true) : Tab.wf d (t.filter p) = true := Tab.wfFrom_filter p w

theorem Tab.wf_keep {α : Type} [DecidableEq α] {d : Nat → α} {t : Tab α} (p : Nat → Bool)
    (w : Tab.wf d t = true) : Tab.wf d (Tab.keep p t) = true := Tab.wfFrom_filter _ w

theorem Tab.wf_foldl_set {α β : Type} [DecidableEq α] {v : α} {t : Tab α} (l : List β) (g : β → Nat) (h : β → α)
    (w : Tab.wf (fun _ => v) t = true) : Tab.wf (fun _ => v) (l.foldl (fun t x => Tab.set v t (g x) (h x)) t) = true := by
  induction l generalizing t with
  | nil => exact w
  | cons x xs ih => exact ih (Tab.wf_set (d := fun _ => v) _ _ w)

theorem putBytes_wf {t : Tab Byte} (k : Nat) (xs : List Byte) (w : Tab.wf (fun _ => (0 : Byte)) t = true) :
    Tab.wf (fun _ => (0 : Byte)) (putBytes t k xs) = true := by
  induction xs generalizing t k with
  | nil => exact w
  | cons x xs ih => exact ih _ (Tab.wf_set (d := fun _ => (0 : Byte)) k x w)

theorem Tab.wf_foldl_step {α β : Type} [DecidableEq α] {d : Nat → α} {t : Tab α} (l : List β) (f : Tab α → β → Tab α)
    (hf : ∀ t x, Tab.wf d t = true → Tab.wf d (f t x) = true) (w : Tab.wf d t = true) : Tab.wf d (l.foldl f t) = true := by
  induction l generalizing t with
  | nil => exact w
  | cons x xs ih => exact ih (hf _ _ w)

theorem Fuses.keeps_refl (f : Fuses) : f.keeps f := by
  simp [Fuses.keeps]

theorem and_keeps_trans {w : Nat} {x y z : BitVec w} (h : x &&& y = x) (k : y &&& z = y) : x &&& z = x := by
  rw [← h, BitVec.and_assoc, k]

theorem Fuses.keeps_trans {f g k : Fuses} (h : f.keeps g) (j : g.keeps k) : f.keeps k :=
  ⟨and_keeps_trans h.1 j.1, and_keeps_trans h.2.1 j.2.1, and_keeps_trans h.2.2.1 j.2.2.1,
    fun pg => and_keeps_trans (h.2.2.2 pg) (j.2.2.2 pg)⟩

/-- What every command but a few leaves: the canonical form of the tables, blown fuses and the last accepted sequence. -/
structure Keeps (s t : State) : Prop where
  regs : Tab.wf regReset s.regs = true → Tab.wf regReset t.regs = true
  inForce : Tab.wf regReset s.inForce = true → Tab.wf regReset t.inForce = true
  mem : s.mem.wf = true → t.mem.wf = true
  staging : Tab.wf (fun _ => (0 : Byte)) s.staging = true → Tab.wf (fun _ => (0 : Byte)) t.staging = true
  fuses : s.sec.fuses.keeps t.sec.fuses
  seq : t.fw.lastSeq = s.fw.lastSeq

theorem Keeps.refl (s : State) : Keeps s s := ⟨id, id, id, id, Fuses.keeps_refl _, rfl⟩

theorem Keeps.trans {a b c : State} (h : Keeps a b) (k : Keeps b c) : Keeps a c :=
  ⟨k.regs ∘ h.regs, k.inForce ∘ h.inForce, k.mem ∘ h.mem, k.staging ∘ h.staging, Fuses.keeps_trans h.fuses k.fuses, k.seq.trans h.seq⟩

theorem keeps_ite {s a b : State} {c : Prop} [Decidable c] (h : Keeps s a) (k : Keeps s b) : Keeps s (if c then a else b) := by
  split <;> assumption

theorem keeps_foldl {α : Type} {s a : State} {l : List α} {f : State → α → State} (h : Keeps s a)
    (hf : ∀ b x, Keeps s b → Keeps s (f b x)) : Keeps s (l.foldl f a) := by
  induction l generalizing a with
  | nil => exact h
  | cons x xs ih => exact ih (hf _ _ h)

theorem keeps_foldNat {s a : State} {n : Nat} {f : State → Nat → State} (h : Keeps s a)
    (hf : ∀ b x, Keeps s b → Keeps s (f b x)) : Keeps s (foldNat n f a) := keeps_foldl h hf

theorem keeps_ite1 {α : Type} {s : State} {a b : State × α} {c : Prop} [Decidable c] (h : Keeps s a.1) (k : Keeps s b.1) :
    Keeps s (if c then a else b).1 := by split <;> assumption

theorem keeps_ite2 {α : Type} {s : State} {a b : α × State} {c : Prop} [Decidable c] (h : Keeps s a.2) (k : Keeps s b.2) :
    Keeps s (if c then a else b).2 := by split <;> assumption

theorem keeps_ite22 {α β : Type} {s : State} {a b : α × β × State} {c : Prop} [Decidable c] (h : Keeps s a.2.2)
    (k : Keeps s b.2.2) : Keeps s (if c then a else b).2.2 := by split <;> assumption

theorem keeps_foldl1 {α β : Type} {s : State} {a : State × β} {l : List α} {f : State × β → α → State × β}
    (h : Keeps s a.1) (hf : ∀ b x, Keeps s b.1 → Keeps s (f b x).1) : Keeps s (l.foldl f a).1 := by
  induction l generalizing a with
  | nil => exact h
  | cons x xs ih => exact ih (hf _ _ h)

theorem keeps_foldl2 {α β : Type} {s : State} {a : β × State} {l : List α} {f : β × State → α → β × State}
    (h : Keeps s a.2) (hf : ∀ b x, Keeps s b.2 → Keeps s (f b x).2) : Keeps s (l.foldl f a).2 := by
  induction l generalizing a with
  | nil => exact h
  | cons x xs ih => exact ih (hf _ _ h)

theorem keeps_iteC {s : State} {a b : Committed} {c : Prop} [Decidable c] (h : Keeps s a.s) (k : Keeps s b.s) :
    Keeps s (if c then a else b).s := by split <;> assumption

theorem keeps_then {s : State} {c : Committed} {f : State → State} (h : Keeps s c.s) (hf : ∀ x, Keeps s x → Keeps s (f x)) :
    Keeps s (c.then_ f) := by
  unfold Committed.then_
  split
  · exact hf _ h
  · exact h

theorem Keeps.upd {s t : State} {pending : List Instr} {freeIdx : Nat} {sent : List Out} {log : LogState} {chg : Tab ChgRing} {heldW : List (Nat × Nat × Nat × List WriteReq × Nat)} {routes : Tab Nat} {books : Books} {sec : Security} {ident : Nat × Nat} {units : Tab UnitState} {step : StepRun} {fenceSelf : Bool} {retained : Retained} {tensors : List Nat} {leader : Nat} {mxe : Tab Mxe} {gather : Tab GatherQ} {vxe : Tab Vxe} {slots : Tab SuSlot} {ports : Tab SpPortSt} {mem : Mem} {ctx : CtxState} {history : History} {dieEnv : Tab DieEnv} {fabric : Fabric} {wtab : Tab WitEntry} {dup : DupState} {digest : Digest} {power : Power} {time : TimeSync} {cue : Cue} {ckpt : Ckpt} {resets : ResetState} {fw : Firmware} {hang : Hang} {io : Io}
    (h : Keeps s t) (hb : mem.bytes = t.mem.bytes) (hd : mem.bad = t.mem.bad)
    (he : mem.err = t.mem.err) (hn : mem.found = t.mem.found)
    (hf : sec.fuses = t.sec.fuses) (hq : fw.lastSeq = t.fw.lastSeq) :
    Keeps s ⟨pending, freeIdx, sent, t.regs, t.inForce, log, chg, heldW, routes, books, sec, ident, units, step, fenceSelf, retained, tensors, leader, mxe, gather, vxe, slots, t.staging, ports, mem, ctx, history, dieEnv, fabric, wtab, dup, digest, power, time, cue, ckpt, resets, fw, hang, io⟩ :=
  ⟨h.regs, h.inForce, by simpa only [Mem.wf, hb, hd, he, hn] using h.mem, h.staging, hf ▸ h.fuses, hq.trans h.seq⟩
theorem Keeps.upd_iff {s t : State} {pending : List Instr} {freeIdx : Nat} {sent : List Out} {log : LogState} {chg : Tab ChgRing} {heldW : List (Nat × Nat × Nat × List WriteReq × Nat)} {routes : Tab Nat} {books : Books} {sec : Security} {ident : Nat × Nat} {units : Tab UnitState} {step : StepRun} {fenceSelf : Bool} {retained : Retained} {tensors : List Nat} {leader : Nat} {mxe : Tab Mxe} {gather : Tab GatherQ} {vxe : Tab Vxe} {slots : Tab SuSlot} {ports : Tab SpPortSt} {mem : Mem} {ctx : CtxState} {history : History} {dieEnv : Tab DieEnv} {fabric : Fabric} {wtab : Tab WitEntry} {dup : DupState} {digest : Digest} {power : Power} {time : TimeSync} {cue : Cue} {ckpt : Ckpt} {resets : ResetState} {fw : Firmware} {hang : Hang} {io : Io}
    (hb : mem.bytes = t.mem.bytes) (hd : mem.bad = t.mem.bad)
    (he : mem.err = t.mem.err) (hn : mem.found = t.mem.found)
    (hf : sec.fuses = t.sec.fuses) (hq : fw.lastSeq = t.fw.lastSeq) :
    Keeps s ⟨pending, freeIdx, sent, t.regs, t.inForce, log, chg, heldW, routes, books, sec, ident, units, step, fenceSelf, retained, tensors, leader, mxe, gather, vxe, slots, t.staging, ports, mem, ctx, history, dieEnv, fabric, wtab, dup, digest, power, time, cue, ckpt, resets, fw, hang, io⟩ ↔ Keeps s t :=
  ⟨fun h => ⟨h.regs, h.inForce, by simpa only [Mem.wf, hb, hd, he, hn] using h.mem, h.staging, hf ▸ h.fuses, hq.symm.trans h.seq⟩,
   fun h => Keeps.upd h hb hd he hn hf hq⟩

end Sys2Proof.Machine
end

