-- ==== Sys2Proof/Laws/KeepsOps.lean ====
section
/-! SUPPORT. What each operation of the machine keeps: canonical tables, the fuses, the last accepted command
sequence. One lemma per operation, in the order of the files. -/

namespace Sys2Proof.Machine

/-! ### Ops -/

theorem keeps_wr {s₀ s₁ : State} (h₀ : Keeps s₀ s₁) (d pg off v : Nat) : Keeps s₀ (s₁.wr d pg off v) :=
  ⟨fun w => Tab.wf_set (d := regReset) _ _ (h₀.regs w), h₀.inForce, h₀.mem, h₀.staging, h₀.fuses, h₀.seq⟩

theorem keeps_wrF {s₀ s₁ : State} (h₀ : Keeps s₀ s₁) (d : Nat) (pg : Nat) (off : Nat) (lo : Nat) (n : Nat) (v : Nat) :
    Keeps s₀ (State.wrF s₁ d pg off lo n v) := by
  unfold State.wrF
  try dsimp only
  repeat' with_reducible first
    | intro _ | simp only [↓Keeps.upd_iff] | assumption | apply keeps_ite | apply keeps_wr | split

theorem keeps_setUnit {s₀ s₁ : State} (h₀ : Keeps s₀ s₁) (k : Nat) (d : Nat) (ix : Nat) (u : Sys2Proof.Machine.UnitState) :
    Keeps s₀ (State.setUnit s₁ k d ix u) := by
  unfold State.setUnit
  try dsimp only
  repeat' with_reducible first
    | intro _ | simp only [↓Keeps.upd_iff] | assumption | apply keeps_ite | split

theorem keeps_took {s₀ s₁ : State} (h₀ : Keeps s₀ s₁) (n : Nat) :
    Keeps s₀ (State.took s₁ n) := by
  unfold State.took
  try dsimp only
  repeat' with_reducible first
    | intro _ | simp only [↓Keeps.upd_iff] | assumption | apply keeps_ite | split

theorem keeps_satF {s₀ s₁ : State} (h₀ : Keeps s₀ s₁) (d : Nat) (pg : Nat) (off : Nat) (lo : Nat) (n : Nat) (v : Nat) :
    Keeps s₀ (State.satF s₁ d pg off lo n v) := by
  unfold State.satF
  try dsimp only
  repeat' with_reducible first
    | intro _ | simp only [↓Keeps.upd_iff] | assumption | apply keeps_ite | apply keeps_wrF | split

theorem keeps_send {s₀ s₁ : State} (h₀ : Keeps s₀ s₁) (o : Sys2Proof.Machine.Out) :
    Keeps s₀ (State.send s₁ o) := by
  unfold State.send
  try dsimp only
  repeat' with_reducible first
    | intro _ | simp only [↓Keeps.upd_iff] | assumption | apply keeps_ite | split

theorem keeps_setErr {s₀ s₁ : State} (h₀ : Keeps s₀ s₁) (d : Nat) (pg : Nat) (bit : Nat) :
    Keeps s₀ (State.setErr s₁ d pg bit) := by
  unfold State.setErr
  try dsimp only
  repeat' with_reducible first
    | intro _ | simp only [↓Keeps.upd_iff] | assumption | apply keeps_ite | apply keeps_wrF | apply keeps_satF
    | apply keeps_send | split

theorem keeps_incF {s₀ s₁ : State} (h₀ : Keeps s₀ s₁) (d : Nat) (pg : Nat) (off : Nat) (lo : Nat) (n : Nat) (v : Nat) :
    Keeps s₀ (State.incF s₁ d pg off lo n v) := by
  unfold State.incF
  try dsimp only
  repeat' with_reducible first
    | intro _ | simp only [↓Keeps.upd_iff] | assumption | apply keeps_ite | apply keeps_wrF | split

theorem keeps_cueSend {s₀ s₁ : State} (h₀ : Keeps s₀ s₁) (dst : Nat) (mtype : Nat) (body : List Nat) :
    Keeps s₀ (State.cueSend s₁ dst mtype body) := by
  unfold State.cueSend
  try dsimp only
  repeat' with_reducible first
    | intro _ | simp only [↓Keeps.upd_iff] | assumption | apply keeps_ite | apply keeps_send | split

theorem keeps_logPut {s₀ s₁ : State} (h₀ : Keeps s₀ s₁) (d : Nat) (src : Nat) (code : Sys2Proof.Machine.LogCode) (data : List Nat) (flags : Nat) (tp : Nat) :
    Keeps s₀ (State.logPut s₁ d src code data flags tp) := by
  unfold State.logPut
  try dsimp only
  repeat' with_reducible first
    | intro _ | simp only [↓Keeps.upd_iff] | assumption | apply keeps_ite | split

theorem keeps_logAt {s₀ s₁ : State} (h₀ : Keeps s₀ s₁) (d : Nat) (src : Nat) (code : Sys2Proof.Machine.LogCode) (data : List Nat) (flags : Nat) :
    Keeps s₀ (State.logAt s₁ d src code data flags) := by
  unfold State.logAt
  try dsimp only
  repeat' with_reducible first
    | intro _ | simp only [↓Keeps.upd_iff] | assumption | apply keeps_ite | apply keeps_logPut | apply keeps_incF
    | split

theorem keeps_histEvent {s₀ s₁ : State} (h₀ : Keeps s₀ s₁) (kind : Nat) (d : Nat) (ix : Nat) (event : Nat) (e : Sys2Proof.Machine.HistEvent → Sys2Proof.Machine.HistEvent) :
    Keeps s₀ (State.histEvent s₁ kind d ix event e) := by
  unfold State.histEvent
  try dsimp only
  repeat' with_reducible first
    | intro _ | simp only [↓Keeps.upd_iff] | assumption | apply keeps_ite | apply keeps_satF | split

theorem keeps_rehFound {s₀ s₁ : State} (h₀ : Keeps s₀ s₁)  :
    Keeps s₀ (State.rehFound s₁) := by
  unfold State.rehFound
  try dsimp only
  repeat' with_reducible first
    | intro _ | simp only [↓Keeps.upd_iff] | assumption | apply keeps_ite | split

theorem keeps_logRefused {s₀ s₁ : State} (h₀ : Keeps s₀ s₁) (d : Nat) (pg : Nat) (off : Nat) (o : Sys2Proof.Origin) :
    Keeps s₀ (State.logRefused s₁ d pg off o) := by
  unfold State.logRefused
  try dsimp only
  repeat' with_reducible first
    | intro _ | simp only [↓Keeps.upd_iff] | assumption | apply keeps_ite | apply keeps_logAt | split

theorem keeps_rehInject {s₀ s₁ : State} (h₀ : Keeps s₀ s₁) (r : Sys2Proof.Machine.RehRun) (place : Nat) :
    Keeps s₀ (State.rehInject s₁ r place) := by
  unfold State.rehInject
  try dsimp only
  repeat' with_reducible first
    | intro _ | simp only [↓Keeps.upd_iff] | assumption | apply keeps_ite | split

theorem keeps_enforce {s₀ s₁ : State} (h₀ : Keeps s₀ s₁) (d pg off : Nat) : Keeps s₀ (s₁.enforce d pg off) :=
  ⟨h₀.regs, fun w => Tab.wf_set (d := regReset) _ _ (h₀.inForce w), h₀.mem, h₀.staging, h₀.fuses, h₀.seq⟩

theorem keeps_setComp {s₀ s₁ : State} (h₀ : Keeps s₀ s₁) (d : Nat) (c : Nat) (v : Nat) :
    Keeps s₀ (State.setComp s₁ d c v) := by
  unfold State.setComp
  try dsimp only
  repeat' with_reducible first
    | intro _ | simp only [↓Keeps.upd_iff] | assumption | apply keeps_ite | apply keeps_wrF | split

theorem keeps_maxF {s₀ s₁ : State} (h₀ : Keeps s₀ s₁) (d : Nat) (pg : Nat) (off : Nat) (lo : Nat) (n : Nat) (v : Nat) :
    Keeps s₀ (State.maxF s₁ d pg off lo n v) := by
  unfold State.maxF
  try dsimp only
  repeat' with_reducible first
    | intro _ | simp only [↓Keeps.upd_iff] | assumption | apply keeps_ite | apply keeps_wrF | split

/-! ### Engines -/

theorem stgWrite_wf {t : Tab Byte} (k0 off : Nat) (xs : List Byte) (w : Tab.wf (fun _ => (0 : Byte)) t = true) :
    Tab.wf (fun _ => (0 : Byte)) (stgWrite t k0 off xs) = true := by
  induction xs generalizing t off with
  | nil => exact w
  | cons x xs ih =>
    refine ih _ ?_
    split
    · exact Tab.wf_set (d := fun _ => (0 : Byte)) _ _ w
    · exact w

theorem keeps_stgPutBytes {s₀ s₁ : State} (h₀ : Keeps s₀ s₁) (d b off : Nat) (xs : List Byte) :
    Keeps s₀ (s₁.stgPutBytes d b off xs) :=
  ⟨h₀.regs, h₀.inForce, h₀.mem, fun w => stgWrite_wf _ _ _ (h₀.staging w), h₀.fuses, h₀.seq⟩

theorem keeps_undefStaging {s₀ s₁ : State} (h₀ : Keeps s₀ s₁) (d : Nat) (b : Nat) (x : Sys2Proof.Machine.SuSlot) :
    Keeps s₀ (State.undefStaging s₁ d b x) := by
  unfold State.undefStaging
  try dsimp only
  repeat' with_reducible first
    | intro _ | simp only [↓Keeps.upd_iff] | assumption | apply keeps_ite | apply keeps_foldl | apply keeps_took
    | apply keeps_stgPutBytes | split

theorem keeps_setSlot {s₀ s₁ : State} (h₀ : Keeps s₀ s₁) (d : Nat) (b : Nat) (sl : Nat) (x : Sys2Proof.Machine.SuSlot) :
    Keeps s₀ (State.setSlot s₁ d b sl x) := by
  unfold State.setSlot
  try dsimp only
  repeat' with_reducible first
    | intro _ | simp only [↓Keeps.upd_iff] | assumption | apply keeps_ite | split

theorem keeps_keepStaging {s₀ s₁ : State} (h₀ : Keeps s₀ s₁) (d : Nat) (b : Nat) (sl : Nat) :
    Keeps s₀ (State.keepStaging s₁ d b sl) := by
  unfold State.keepStaging
  try dsimp only
  repeat' with_reducible first
    | intro _ | simp only [↓Keeps.upd_iff] | assumption | apply keeps_ite | apply keeps_ite1 | apply keeps_ite2
    | apply keeps_ite22 | apply keeps_foldl | apply keeps_foldl1 | apply keeps_foldl2 | apply keeps_foldNat
    | apply keeps_then | apply keeps_iteC | simp only [id_eq] | apply keeps_setSlot | dsimp only | split

theorem keeps_onPair {s₀ s₁ : State} (h₀ : Keeps s₀ s₁) (d : Nat) (b : Nat) (sl : Nat) (f : Sys2Proof.Machine.SuSlot → Sys2Proof.Machine.SuSlot) :
    Keeps s₀ (State.onPair s₁ d b sl f) := by
  unfold State.onPair
  try dsimp only
  repeat' with_reducible first
    | intro _ | simp only [↓Keeps.upd_iff] | assumption | apply keeps_ite | apply keeps_setSlot | split

theorem keeps_endOwnTracks {s₀ s₁ : State} (h₀ : Keeps s₀ s₁) (d : Nat) (b : Nat) (sl : Nat) :
    Keeps s₀ (State.endOwnTracks s₁ d b sl) := by
  unfold State.endOwnTracks
  try dsimp only
  repeat' with_reducible first
    | intro _ | simp only [↓Keeps.upd_iff] | assumption | apply keeps_ite | split

theorem keeps_noCert {s₀ s₁ : State} (h₀ : Keeps s₀ s₁) (reason : Nat) :
    Keeps s₀ (State.noCert s₁ reason) := by
  unfold State.noCert
  try dsimp only
  repeat' with_reducible first
    | intro _ | simp only [↓Keeps.upd_iff] | assumption | apply keeps_ite | split

theorem keeps_abortSlot {s₀ s₁ : State} (h₀ : Keeps s₀ s₁) (d : Nat) (b : Nat) (sl : Nat) (cause : Nat) :
    Keeps s₀ (State.abortSlot s₁ d b sl cause) := by
  unfold State.abortSlot
  try dsimp only
  repeat' with_reducible first
    | intro _ | simp only [↓Keeps.upd_iff] | assumption | apply keeps_ite | apply keeps_undefStaging
    | apply keeps_keepStaging | apply keeps_onPair | apply keeps_setErr | apply keeps_endOwnTracks
    | apply keeps_noCert | split

theorem keeps_putTrack {s₀ s₁ : State} (h₀ : Keeps s₀ s₁) (d : Nat) (t : Nat) (e : Sys2Proof.Machine.Track) :
    Keeps s₀ (State.putTrack s₁ d t e) := by
  unfold State.putTrack
  try dsimp only
  repeat' with_reducible first
    | intro _ | simp only [↓Keeps.upd_iff] | assumption | apply keeps_ite | split

theorem keeps_setVxe {s₀ s₁ : State} (h₀ : Keeps s₀ s₁) (d : Nat) (b : Nat) (v : Sys2Proof.Machine.Vxe) :
    Keeps s₀ (State.setVxe s₁ d b v) := by
  unfold State.setVxe
  try dsimp only
  repeat' with_reducible first
    | intro _ | simp only [↓Keeps.upd_iff] | assumption | apply keeps_ite | split

theorem keeps_onSaved {s₀ s₁ : State} (h₀ : Keeps s₀ s₁) (d : Nat) (b : Nat) (id : Nat) (f : Sys2Proof.Machine.SaveSet → Sys2Proof.Machine.SaveSet) :
    Keeps s₀ (State.onSaved s₁ d b id f) := by
  unfold State.onSaved
  try dsimp only
  repeat' with_reducible first
    | intro _ | simp only [↓Keeps.upd_iff] | assumption | apply keeps_ite | split

theorem keeps_onVxe {s₀ s₁ : State} (h₀ : Keeps s₀ s₁) (d : Nat) (b : Nat) (id : Nat) (f : Sys2Proof.Machine.Vxe → Sys2Proof.Machine.Vxe) :
    Keeps s₀ (State.onVxe s₁ d b id f) := by
  unfold State.onVxe
  try dsimp only
  repeat' with_reducible first
    | intro _ | simp only [↓Keeps.upd_iff] | assumption | apply keeps_ite | apply keeps_setVxe
    | apply keeps_onSaved | split

theorem keeps_progress {s₀ s₁ : State} (h₀ : Keeps s₀ s₁) (d : Nat) (b : Nat) :
    Keeps s₀ (State.progress s₁ d b) := by
  unfold State.progress
  try dsimp only
  repeat' with_reducible first
    | intro _ | simp only [↓Keeps.upd_iff] | assumption | apply keeps_ite | split

theorem keeps_setMxe {s₀ s₁ : State} (h₀ : Keeps s₀ s₁) (d : Nat) (b : Nat) (m : Sys2Proof.Machine.Mxe) :
    Keeps s₀ (State.setMxe s₁ d b m) := by
  unfold State.setMxe
  try dsimp only
  repeat' with_reducible first
    | intro _ | simp only [↓Keeps.upd_iff] | assumption | apply keeps_ite | split

theorem keeps_onMxe {s₀ s₁ : State} (h₀ : Keeps s₀ s₁) (d : Nat) (b : Nat) (id : Nat) (f : Sys2Proof.Machine.Mxe → Sys2Proof.Machine.Mxe) :
    Keeps s₀ (State.onMxe s₁ d b id f) := by
  unfold State.onMxe
  try dsimp only
  repeat' with_reducible first
    | intro _ | simp only [↓Keeps.upd_iff] | assumption | apply keeps_ite | apply keeps_setMxe
    | apply keeps_onSaved | split

theorem keeps_syncDone {s₀ s₁ : State} (h₀ : Keeps s₀ s₁) (d : Nat) (b : Nat) (id : Nat) (vxe : Bool) :
    Keeps s₀ (State.syncDone s₁ d b id vxe) := by
  unfold State.syncDone
  try dsimp only
  repeat' with_reducible first
    | intro _ | simp only [↓Keeps.upd_iff] | assumption | apply keeps_ite | apply keeps_onVxe | apply keeps_onSaved
    | apply keeps_progress | apply keeps_incF | apply keeps_onMxe | split

theorem keeps_sendHalt {s₀ s₁ : State} (h₀ : Keeps s₀ s₁) (reason : Nat) :
    Keeps s₀ (State.sendHalt s₁ reason) := by
  unfold State.sendHalt
  try dsimp only
  repeat' with_reducible first
    | intro _ | simp only [↓Keeps.upd_iff] | assumption | apply keeps_ite | apply keeps_foldl | apply keeps_wrF
    | apply keeps_cueSend | split

theorem keeps_endStep {s₀ s₁ : State} (h₀ : Keeps s₀ s₁) (reason : Nat) :
    Keeps s₀ (State.endStep s₁ reason) := by
  unfold State.endStep
  try dsimp only
  repeat' with_reducible first
    | intro _ | simp only [↓Keeps.upd_iff] | assumption | apply keeps_ite | apply keeps_noCert
    | apply keeps_sendHalt | apply keeps_wrF | split

theorem keeps_vxeStop {s₀ s₁ : State} (h₀ : Keeps s₀ s₁) (d : Nat) (b : Nat) (id : Nat) (cause : Nat) :
    Keeps s₀ (State.vxeStop s₁ d b id cause) := by
  unfold State.vxeStop
  try dsimp only
  repeat' with_reducible first
    | intro _ | simp only [↓Keeps.upd_iff] | assumption | apply keeps_ite | apply keeps_onVxe | apply keeps_wr
    | apply keeps_setErr | split

theorem keeps_syncError {s₀ s₁ : State} (h₀ : Keeps s₀ s₁) (d : Nat) (b : Nat) (id : Nat) (vxe : Bool) (st : Sys2Proof.Status) (remote : Bool) :
    Keeps s₀ (State.syncError s₁ d b id vxe st remote) := by
  unfold State.syncError
  try dsimp only
  repeat' with_reducible first
    | intro _ | simp only [↓Keeps.upd_iff] | assumption | apply keeps_ite | apply keeps_endStep
    | apply keeps_vxeStop | apply keeps_setErr | apply keeps_onMxe | apply keeps_noCert | split

theorem keeps_slotError {s₀ s₁ : State} (h₀ : Keeps s₀ s₁) (d : Nat) (b : Nat) (sl : Nat) (st : Sys2Proof.Status) (remote : Bool) :
    Keeps s₀ (State.slotError s₁ d b sl st remote) := by
  unfold State.slotError
  try dsimp only
  repeat' with_reducible first
    | intro _ | simp only [↓Keeps.upd_iff] | assumption | apply keeps_ite | apply keeps_abortSlot
    | apply keeps_endStep | split

theorem keeps_deliver {s₀ s₁ : State} (h₀ : Keeps s₀ s₁) (o : Sys2Proof.Machine.Owner) (id : Nat) (st : Sys2Proof.Status) (remote : Bool) :
    Keeps s₀ (State.deliver s₁ o id st remote) := by
  unfold State.deliver
  try dsimp only
  repeat' with_reducible first
    | intro _ | simp only [↓Keeps.upd_iff] | assumption | apply keeps_ite | apply keeps_syncDone
    | apply keeps_syncError | apply keeps_slotError | apply keeps_endStep | split

theorem keeps_endTrack {s₀ s₁ : State} (h₀ : Keeps s₀ s₁) (d : Nat) (t : Nat) :
    Keeps s₀ (State.endTrack s₁ d t) := by
  unfold State.endTrack
  try dsimp only
  repeat' with_reducible first
    | intro _ | simp only [↓Keeps.upd_iff] | assumption | apply keeps_ite | split

theorem keeps_openTrack {s₀ s₁ : State} (h₀ : Keeps s₀ s₁) (d : Nat) (id : Nat) (addr : Nat) (o : Sys2Proof.Machine.Owner) (remote : Bool) (data : Bool) (f : Sys2Proof.Machine.Track → Sys2Proof.Machine.Track) :
    Keeps s₀ (State.openTrack s₁ d id addr o remote data f) := by
  unfold State.openTrack
  try dsimp only
  repeat' with_reducible first
    | intro _ | simp only [↓Keeps.upd_iff] | assumption | apply keeps_ite | apply keeps_putTrack | split

theorem keeps_setPair {s₀ s₁ : State} (h₀ : Keeps s₀ s₁) (d : Nat) (b : Nat) (sl : Nat) (x : Sys2Proof.Machine.SuSlot) :
    Keeps s₀ (State.setPair s₁ d b sl x) := by
  unfold State.setPair
  try dsimp only
  repeat' with_reducible first
    | intro _ | simp only [↓Keeps.upd_iff] | assumption | apply keeps_ite | apply keeps_setSlot | split

theorem keeps_setGather {s₀ s₁ : State} (h₀ : Keeps s₀ s₁) (d : Nat) (b : Nat) (g : Sys2Proof.Machine.GatherQ) :
    Keeps s₀ (State.setGather s₁ d b g) := by
  unfold State.setGather
  try dsimp only
  repeat' with_reducible first
    | intro _ | simp only [↓Keeps.upd_iff] | assumption | apply keeps_ite | split

theorem keeps_noCertBay {s₀ s₁ : State} (h₀ : Keeps s₀ s₁) (d : Nat) (b : Nat) (reason : Nat) :
    Keeps s₀ (State.noCertBay s₁ d b reason) := by
  unfold State.noCertBay
  try dsimp only
  repeat' with_reducible first
    | intro _ | simp only [↓Keeps.upd_iff] | assumption | apply keeps_ite | apply keeps_noCert | split

theorem keeps_setSwitching {s₀ s₁ : State} (h₀ : Keeps s₀ s₁) (d : Nat) (b : Nat) (on : Bool) :
    Keeps s₀ (State.setSwitching s₁ d b on) := by
  unfold State.setSwitching
  try dsimp only
  repeat' with_reducible first
    | intro _ | simp only [↓Keeps.upd_iff] | assumption | apply keeps_ite | apply keeps_wrF | split

theorem keeps_stalls {s₀ s₁ : State} (h₀ : Keeps s₀ s₁) (d : Nat) (pg : Nat) (offs : List Nat) :
    Keeps s₀ (State.stalls s₁ d pg offs) := by
  unfold State.stalls
  try dsimp only
  repeat' with_reducible first
    | intro _ | simp only [↓Keeps.upd_iff] | assumption | apply keeps_ite | apply keeps_foldl | apply keeps_took
    | apply keeps_incF | split

theorem keeps_signal {s₀ s₁ : State} (h₀ : Keeps s₀ s₁) (d : Nat) (b : Nat) (sl : Nat) :
    Keeps s₀ (State.signal s₁ d b sl) := by
  unfold State.signal
  try dsimp only
  repeat' with_reducible first
    | intro _ | simp only [↓Keeps.upd_iff] | assumption | apply keeps_ite | apply keeps_incF | apply keeps_setPair
    | split

theorem keeps_mxeNext {s₀ s₁ : State} (h₀ : Keeps s₀ s₁) (d : Nat) (b : Nat) :
    Keeps s₀ (State.mxeNext s₁ d b) := by
  unfold State.mxeNext
  try dsimp only
  repeat' with_reducible first
    | intro _ | simp only [↓Keeps.upd_iff] | assumption | apply keeps_ite | apply keeps_setMxe | split

theorem keeps_waitMarks {s₀ s₁ : State} (h₀ : Keeps s₀ s₁) (d : Nat) (b : Nat) (mask : Nat) :
    Keeps s₀ (State.waitMarks s₁ d b mask) := by
  unfold State.waitMarks
  try dsimp only
  repeat' with_reducible first
    | intro _ | simp only [↓Keeps.upd_iff] | assumption | apply keeps_ite | apply keeps_noCertBay | split

theorem keeps_onBookMxe {s₀ s₁ : State} (h₀ : Keeps s₀ s₁) (d : Nat) (b : Nat) (f : Sys2Proof.Machine.Mxe → Sys2Proof.Machine.Mxe) :
    Keeps s₀ (State.onBookMxe s₁ d b f) := by
  unfold State.onBookMxe
  try dsimp only
  repeat' with_reducible first
    | intro _ | simp only [↓Keeps.upd_iff] | assumption | apply keeps_ite | apply keeps_setMxe
    | apply keeps_onSaved | split

theorem keeps_vxeFault {s₀ s₁ : State} (h₀ : Keeps s₀ s₁) (d : Nat) (b : Nat) (cause : Nat) :
    Keeps s₀ (State.vxeFault s₁ d b cause) := by
  unfold State.vxeFault
  try dsimp only
  repeat' with_reducible first
    | intro _ | simp only [↓Keeps.upd_iff] | assumption | apply keeps_ite | apply keeps_noCertBay
    | apply keeps_vxeStop | split

theorem keeps_vxeNext {s₀ s₁ : State} (h₀ : Keeps s₀ s₁) (d : Nat) (b : Nat) (r : Sys2Proof.Machine.VxeRegs) :
    Keeps s₀ (State.vxeNext s₁ d b r) := by
  unfold State.vxeNext
  try dsimp only
  repeat' with_reducible first
    | intro _ | simp only [↓Keeps.upd_iff] | assumption | apply keeps_ite | apply keeps_setVxe
    | apply keeps_progress | apply keeps_incF | split

/-! ### Ports -/

theorem keeps_setPort {s₀ s₁ : State} (h₀ : Keeps s₀ s₁) (p : Sys2Proof.SpPort) (x : Sys2Proof.Machine.SpPortSt) :
    Keeps s₀ (State.setPort s₁ p x) := by
  unfold State.setPort
  try dsimp only
  repeat' with_reducible first
    | intro _ | simp only [↓Keeps.upd_iff] | assumption | apply keeps_ite | split

/-! ### Fabric -/

theorem keeps_markPacket {s₀ s₁ : State} (h₀ : Keeps s₀ s₁) (p : Nat) (k : Sys2Proof.Packet) :
    Keeps s₀ (State.markPacket s₁ p k).1 := by
  unfold State.markPacket
  try dsimp only
  repeat' with_reducible first
    | intro _ | simp only [↓Keeps.upd_iff] | assumption | apply keeps_ite | apply keeps_incF | split
theorem keeps_markPacket_eq {s₀ s₁ : State} (h₀ : Keeps s₀ s₁) (p : Nat) (k : Sys2Proof.Packet) {x₀ y₀}
    (e₀ : (State.markPacket s₁ p k) = (x₀, y₀)) : Keeps s₀ x₀ := by
  have k := keeps_markPacket h₀ p k; rw [e₀] at k; exact k

theorem keeps_setLink {s₀ s₁ : State} (h₀ : Keeps s₀ s₁) (p : Nat) (l : Sys2Proof.Machine.Link) :
    Keeps s₀ (State.setLink s₁ p l) := by
  unfold State.setLink
  try dsimp only
  repeat' with_reducible first
    | intro _ | simp only [↓Keeps.upd_iff] | assumption | apply keeps_ite | split

theorem keeps_enqueue {s₀ s₁ : State} (h₀ : Keeps s₀ s₁) (p : Nat) (q : Sys2Proof.Machine.QPk) :
    Keeps s₀ (State.enqueue s₁ p q) := by
  unfold State.enqueue
  try dsimp only
  repeat' with_reducible first
    | intro _ | simp only [↓Keeps.upd_iff] | assumption | apply keeps_ite | apply keeps_ite1 | apply keeps_ite2
    | apply keeps_ite22 | apply keeps_foldl | apply keeps_foldl1 | apply keeps_foldl2 | apply keeps_foldNat
    | apply keeps_then | apply keeps_iteC | simp only [id_eq] | refine keeps_markPacket_eq ?_ _ _ (by assumption)
    | apply keeps_markPacket | apply keeps_setLink | dsimp only | split

theorem keeps_sendCt {s₀ s₁ : State} (h₀ : Keeps s₀ s₁) (d : Nat) (dev : Nat) (k : Sys2Proof.Packet) :
    Keeps s₀ (State.sendCt s₁ d dev k) := by
  unfold State.sendCt
  try dsimp only
  repeat' with_reducible first
    | intro _ | simp only [↓Keeps.upd_iff] | assumption | apply keeps_ite | apply keeps_ite1 | apply keeps_ite2
    | apply keeps_ite22 | apply keeps_foldl | apply keeps_foldl1 | apply keeps_foldl2 | apply keeps_foldNat
    | apply keeps_then | apply keeps_iteC | simp only [id_eq] | apply keeps_send | apply keeps_setErr
    | apply keeps_enqueue | dsimp only | split

theorem keeps_sealPacket {s₀ s₁ : State} (h₀ : Keeps s₀ s₁) (c : Sys2Proof.Machine.CircuitRec) (k : Sys2Proof.Packet) :
    Keeps s₀ (State.sealPacket s₁ c k).1 := by
  unfold State.sealPacket
  try dsimp only
  repeat' with_reducible first
    | intro _ | simp only [↓Keeps.upd_iff] | assumption | apply keeps_ite | split
theorem keeps_sealPacket_eq {s₀ s₁ : State} (h₀ : Keeps s₀ s₁) (c : Sys2Proof.Machine.CircuitRec) (k : Sys2Proof.Packet) {x₀ y₀}
    (e₀ : (State.sealPacket s₁ c k) = (x₀, y₀)) : Keeps s₀ x₀ := by
  have k := keeps_sealPacket h₀ c k; rw [e₀] at k; exact k

theorem keeps_branchLost {s₀ s₁ : State} (h₀ : Keeps s₀ s₁) (d : Nat) (flow : Nat) (port : Nat) (nbr : Nat) :
    Keeps s₀ (State.branchLost s₁ d flow port nbr) := by
  unfold State.branchLost
  try dsimp only
  repeat' with_reducible first
    | intro _ | simp only [↓Keeps.upd_iff] | assumption | apply keeps_ite | apply keeps_foldNat | apply keeps_wrF
    | apply keeps_noCert | apply keeps_wr | apply keeps_logAt | split

theorem keeps_answerLost {s₀ s₁ : State} (h₀ : Keeps s₀ s₁) (p : Nat) (k : Sys2Proof.Packet) (leaves : Nat) :
    Keeps s₀ (State.answerLost s₁ p k leaves) := by
  unfold State.answerLost
  try dsimp only
  repeat' with_reducible first
    | intro _ | simp only [↓Keeps.upd_iff] | assumption | apply keeps_ite | apply keeps_setErr | apply keeps_incF
    | apply keeps_branchLost | apply keeps_sendCt | split

theorem keeps_dropBranch {s₀ s₁ : State} (h₀ : Keeps s₀ s₁) (p : Nat) (k : Sys2Proof.Packet) (leaves : Nat) :
    Keeps s₀ (State.dropBranch s₁ p k leaves) := by
  unfold State.dropBranch
  try dsimp only
  repeat' with_reducible first
    | intro _ | simp only [↓Keeps.upd_iff] | assumption | apply keeps_ite | apply keeps_answerLost
    | apply keeps_incF | apply keeps_branchLost | apply keeps_setErr | split

theorem keeps_fenceDrop {s₀ s₁ : State} (h₀ : Keeps s₀ s₁) (p : Nat) :
    Keeps s₀ (State.fenceDrop s₁ p) := by
  unfold State.fenceDrop
  try dsimp only
  repeat' with_reducible first
    | intro _ | simp only [↓Keeps.upd_iff] | assumption | apply keeps_ite | apply keeps_foldl | apply keeps_setLink
    | apply keeps_dropBranch | split

theorem keeps_startPk {s₀ s₁ : State} (h₀ : Keeps s₀ s₁) (p : Nat) (q : Sys2Proof.Machine.QPk) :
    Keeps s₀ (State.startPk s₁ p q) := by
  unfold State.startPk
  try dsimp only
  repeat' with_reducible first
    | intro _ | simp only [↓Keeps.upd_iff] | assumption | apply keeps_ite | apply keeps_ite1 | apply keeps_ite2
    | apply keeps_ite22 | apply keeps_foldl | apply keeps_foldl1 | apply keeps_foldl2 | apply keeps_foldNat
    | apply keeps_then | apply keeps_iteC | simp only [id_eq] | apply keeps_setLink | apply keeps_incF
    | apply keeps_send | dsimp only | split

theorem keeps_setCp {s₀ s₁ : State} (h₀ : Keeps s₀ s₁) (p : Nat) (off : Nat) (lo : Nat) (n : Nat) (v : Nat) :
    Keeps s₀ (State.setCp s₁ p off lo n v) := by
  unfold State.setCp
  try dsimp only
  repeat' with_reducible first
    | intro _ | simp only [↓Keeps.upd_iff] | assumption | apply keeps_ite | apply keeps_wrF | split

theorem keeps_setCredits {s₀ s₁ : State} (h₀ : Keeps s₀ s₁) (p : Nat) (vc : Nat) (n : Nat) :
    Keeps s₀ (State.setCredits s₁ p vc n) := by
  unfold State.setCredits
  try dsimp only
  repeat' with_reducible first
    | intro _ | simp only [↓Keeps.upd_iff] | assumption | apply keeps_ite | apply keeps_setCp | split

theorem keeps_flitOut {s₀ s₁ : State} (h₀ : Keeps s₀ s₁) (p : Nat) (ftype : Nat) (start : Nat) (seq : Nat) (vc : Nat) (payload : List Sys2Proof.Byte) :
    Keeps s₀ (State.flitOut s₁ p ftype start seq vc payload) := by
  unfold State.flitOut
  try dsimp only
  repeat' with_reducible first
    | intro _ | simp only [↓Keeps.upd_iff] | assumption | apply keeps_ite | apply keeps_ite1 | apply keeps_ite2
    | apply keeps_ite22 | apply keeps_foldl | apply keeps_foldl1 | apply keeps_foldl2 | apply keeps_foldNat
    | apply keeps_then | apply keeps_iteC | simp only [id_eq] | apply keeps_send | apply keeps_setLink | dsimp only
    | split

theorem keeps_txOut {s₀ s₁ : State} (h₀ : Keeps s₀ s₁) (p : Nat) (f : Sys2Proof.Machine.TxFlit) :
    Keeps s₀ (State.txOut s₁ p f) := by
  unfold State.txOut
  try dsimp only
  repeat' with_reducible first
    | intro _ | simp only [↓Keeps.upd_iff] | assumption | apply keeps_ite | apply keeps_ite1 | apply keeps_ite2
    | apply keeps_ite22 | apply keeps_foldl | apply keeps_foldl1 | apply keeps_foldl2 | apply keeps_foldNat
    | apply keeps_then | apply keeps_iteC | simp only [id_eq] | apply keeps_flitOut | dsimp only | split

theorem keeps_syncRetry {s₀ s₁ : State} (h₀ : Keeps s₀ s₁) (p : Nat) :
    Keeps s₀ (State.syncRetry s₁ p) := by
  unfold State.syncRetry
  try dsimp only
  repeat' with_reducible first
    | intro _ | simp only [↓Keeps.upd_iff] | assumption | apply keeps_ite | apply keeps_setCp | split

theorem keeps_sendFlit {s₀ s₁ : State} (h₀ : Keeps s₀ s₁) (p : Nat) (f : Sys2Proof.Machine.TxFlit) :
    Keeps s₀ (State.sendFlit s₁ p f) := by
  unfold State.sendFlit
  try dsimp only
  repeat' with_reducible first
    | intro _ | simp only [↓Keeps.upd_iff] | assumption | apply keeps_ite | apply keeps_ite1 | apply keeps_ite2
    | apply keeps_ite22 | apply keeps_foldl | apply keeps_foldl1 | apply keeps_foldl2 | apply keeps_foldNat
    | apply keeps_then | apply keeps_iteC | simp only [id_eq] | apply keeps_txOut | apply keeps_syncRetry
    | apply keeps_setLink | dsimp only | split

theorem keeps_emitFlit {s₀ s₁ : State} (h₀ : Keeps s₀ s₁) (p : Nat) (vc : Nat) :
    Keeps s₀ (State.emitFlit s₁ p vc) := by
  unfold State.emitFlit
  try dsimp only
  repeat' with_reducible first
    | intro _ | simp only [↓Keeps.upd_iff] | assumption | apply keeps_ite | apply keeps_ite1 | apply keeps_ite2
    | apply keeps_ite22 | apply keeps_foldl | apply keeps_foldl1 | apply keeps_foldl2 | apply keeps_foldNat
    | apply keeps_then | apply keeps_iteC | simp only [id_eq] | apply keeps_setLink | apply keeps_setCredits
    | apply keeps_incF | apply keeps_sendFlit | dsimp only | split

theorem keeps_pumpLink {s₀ s₁ : State} (h₀ : Keeps s₀ s₁) (a0 : Nat) (a2 : Nat) :
    Keeps s₀ (pumpLink a0 s₁ a2) := by
  induction a0 generalizing s₁ a2 with
  | zero => exact h₀
  | succ n ih =>
    unfold pumpLink
    try dsimp only
    repeat' with_reducible first
      | intro _ | simp only [↓Keeps.upd_iff] | assumption | apply ih | apply keeps_ite | apply keeps_startPk
      | apply keeps_emitFlit | split

theorem keeps_pump {s₀ s₁ : State} (h₀ : Keeps s₀ s₁) (p : Nat) :
    Keeps s₀ (State.pump s₁ p) := by
  unfold State.pump
  try dsimp only
  repeat' with_reducible first
    | intro _ | simp only [↓Keeps.upd_iff] | assumption | apply keeps_ite | apply keeps_fenceDrop
    | apply keeps_pumpLink | split

theorem keeps_toPort {s₀ s₁ : State} (h₀ : Keeps s₀ s₁) (p : Nat) (q : Sys2Proof.Machine.QPk) :
    Keeps s₀ (State.toPort s₁ p q) := by
  unfold State.toPort
  try dsimp only
  repeat' with_reducible first
    | intro _ | simp only [↓Keeps.upd_iff] | assumption | apply keeps_ite | apply keeps_pump | apply keeps_enqueue
    | split

theorem keeps_onto {s₀ s₁ : State} (h₀ : Keeps s₀ s₁) (d : Nat) (p : Nat) (label : Nat) (q : Sys2Proof.Machine.QPk) :
    Keeps s₀ (State.onto s₁ d p label q) := by
  unfold State.onto
  try dsimp only
  repeat' with_reducible first
    | intro _ | simp only [↓Keeps.upd_iff] | assumption | apply keeps_ite | apply keeps_dropBranch
    | apply keeps_incF | apply keeps_toPort | split

theorem keeps_forwardCircuit {s₀ s₁ : State} (h₀ : Keeps s₀ s₁) (d : Nat) (inp : Nat) (c : Sys2Proof.Machine.CircuitRec) (k : Sys2Proof.Packet) (gate : Option Nat) :
    Keeps s₀ (State.forwardCircuit s₁ d inp c k gate) := by
  unfold State.forwardCircuit
  try dsimp only
  repeat' with_reducible first
    | intro _ | simp only [↓Keeps.upd_iff] | assumption | apply keeps_ite | apply keeps_foldl | apply keeps_incF
    | apply keeps_onto | split

theorem keeps_circuitIn {s₀ s₁ : State} (h₀ : Keeps s₀ s₁) (d : Nat) (c : Sys2Proof.Machine.CircuitRec) (k : Sys2Proof.Packet) :
    Keeps s₀ (State.circuitIn s₁ d c k) := by
  unfold State.circuitIn
  try dsimp only
  repeat' with_reducible first
    | intro _ | simp only [↓Keeps.upd_iff] | assumption | apply keeps_ite | apply keeps_ite1 | apply keeps_ite2
    | apply keeps_ite22 | apply keeps_foldl | apply keeps_foldl1 | apply keeps_foldl2 | apply keeps_foldNat
    | apply keeps_then | apply keeps_iteC | simp only [id_eq] | apply keeps_forwardCircuit | dsimp only | split

theorem keeps_injectCircuit {s₀ s₁ : State} (h₀ : Keeps s₀ s₁) (c : Sys2Proof.Machine.CircuitRec) (k : Sys2Proof.Packet) :
    Keeps s₀ (State.injectCircuit s₁ c k) := by
  unfold State.injectCircuit
  try dsimp only
  repeat' with_reducible first
    | intro _ | simp only [↓Keeps.upd_iff] | assumption | apply keeps_ite | apply keeps_ite1 | apply keeps_ite2
    | apply keeps_ite22 | apply keeps_foldl | apply keeps_foldl1 | apply keeps_foldl2 | apply keeps_foldNat
    | apply keeps_then | apply keeps_iteC | simp only [id_eq] | refine keeps_sealPacket_eq ?_ _ _ (by assumption)
    | apply keeps_sealPacket | apply keeps_circuitIn | dsimp only | split

theorem keeps_answerPacket {s₀ s₁ : State} (h₀ : Keeps s₀ s₁) (d : Nat) (r : Sys2Proof.Req) (st : Sys2Proof.Status) (data : List Sys2Proof.Byte) :
    Keeps s₀ (State.answerPacket s₁ d r st data) := by
  unfold State.answerPacket
  try dsimp only
  repeat' with_reducible first
    | intro _ | simp only [↓Keeps.upd_iff] | assumption | apply keeps_ite | apply keeps_ite1 | apply keeps_ite2
    | apply keeps_ite22 | apply keeps_foldl | apply keeps_foldl1 | apply keeps_foldl2 | apply keeps_foldNat
    | apply keeps_then | apply keeps_iteC | simp only [id_eq] | apply keeps_sendCt | apply keeps_injectCircuit
    | dsimp only | split

theorem keeps_setLinkSt {s₀ s₁ : State} (h₀ : Keeps s₀ s₁) (p : Nat) (v : Nat) :
    Keeps s₀ (State.setLinkSt s₁ p v) := by
  unfold State.setLinkSt
  try dsimp only
  repeat' with_reducible first
    | intro _ | simp only [↓Keeps.upd_iff] | assumption | apply keeps_ite | apply keeps_setCp | split

theorem keeps_cpErr {s₀ s₁ : State} (h₀ : Keeps s₀ s₁) (p : Nat) (bit : Nat) :
    Keeps s₀ (State.cpErr s₁ p bit) := by
  unfold State.cpErr
  try dsimp only
  repeat' with_reducible first
    | intro _ | simp only [↓Keeps.upd_iff] | assumption | apply keeps_ite | apply keeps_setErr | split

theorem keeps_inputsGo {s₀ s₁ : State} (h₀ : Keeps s₀ s₁)  :
    Keeps s₀ (State.inputsGo s₁) := by
  unfold State.inputsGo
  try dsimp only
  repeat' with_reducible first
    | intro _ | simp only [↓Keeps.upd_iff] | assumption | apply keeps_ite | apply keeps_ite1 | apply keeps_ite2
    | apply keeps_ite22 | apply keeps_foldl | apply keeps_foldl1 | apply keeps_foldl2 | apply keeps_foldNat
    | apply keeps_then | apply keeps_iteC | simp only [id_eq] | apply keeps_forwardCircuit | dsimp only | split

theorem keeps_idleOut {s₀ s₁ : State} (h₀ : Keeps s₀ s₁) (p : Nat) :
    Keeps s₀ (State.idleOut s₁ p) := by
  unfold State.idleOut
  try dsimp only
  repeat' with_reducible first
    | intro _ | simp only [↓Keeps.upd_iff] | assumption | apply keeps_ite | apply keeps_ite1 | apply keeps_ite2
    | apply keeps_ite22 | apply keeps_foldl | apply keeps_foldl1 | apply keeps_foldl2 | apply keeps_foldNat
    | apply keeps_then | apply keeps_iteC | simp only [id_eq] | apply keeps_flitOut | dsimp only | split

/-! ### Mem -/

theorem Mem.wf_iff {m : Mem} : m.wf = true ↔
    ((Tab.wf (fun _ => (0 : Byte)) m.bytes = true ∧ Tab.wf (fun _ => 0) m.err = true) ∧ Tab.wf (fun _ => false) m.bad = true) ∧
      Tab.wf (fun _ => false) m.found = true := by
  simp only [Mem.wf, Bool.and_eq_true]

/-- A change of the memory's bytes, errors and marks that keeps them canonical. -/
theorem Keeps.setMem {s₀ s₁ : State} (h₀ : Keeps s₀ s₁) (m : Mem)
    (hb : Tab.wf (fun _ => (0 : Byte)) s₁.mem.bytes = true → Tab.wf (fun _ => (0 : Byte)) m.bytes = true)
    (he : Tab.wf (fun _ => 0) s₁.mem.err = true → Tab.wf (fun _ => 0) m.err = true)
    (hd : Tab.wf (fun _ => false) s₁.mem.bad = true → Tab.wf (fun _ => false) m.bad = true)
    (hn : Tab.wf (fun _ => false) s₁.mem.found = true → Tab.wf (fun _ => false) m.found = true) :
    Keeps s₀ { s₁ with mem := m } :=
  ⟨h₀.regs, h₀.inForce, fun w => by
    obtain ⟨⟨⟨w₁, w₂⟩, w₃⟩, w₄⟩ := Mem.wf_iff.1 (h₀.mem w)
    exact Mem.wf_iff.2 ⟨⟨⟨hb w₁, he w₂⟩, hd w₃⟩, hn w₄⟩, h₀.staging, h₀.fuses, h₀.seq⟩

theorem keeps_clearBad {s₀ s₁ : State} (h₀ : Keeps s₀ s₁) (sec : Nat) : Keeps s₀ (s₁.clearBad sec) :=
  h₀.setMem _ id Tab.wfFrom_del (Tab.wf_set (d := fun _ => false) sec false) (Tab.wf_set (d := fun _ => false) sec false)

theorem keeps_heal {s₀ s₁ : State} (h₀ : Keeps s₀ s₁) (sec : Nat) (fixes : List (Nat × Nat)) :
    Keeps s₀ (State.heal s₁ sec fixes) := by
  exact (keeps_clearBad h₀ sec).setMem _ (putBytes_wf _ _) id id id

theorem keeps_noteCe {s₀ s₁ : State} (h₀ : Keeps s₀ s₁) (key : Nat) (ts : List Nat) :
    Keeps s₀ (State.noteCe s₁ key ts) := by
  unfold State.noteCe
  try dsimp only
  repeat' with_reducible first
    | intro _ | simp only [↓Keeps.upd_iff] | assumption | apply keeps_ite | split

theorem keeps_setLaneMap {s₀ s₁ : State} (h₀ : Keeps s₀ s₁) (d : Nat) (t : Nat) (pc : Nat) (v : Nat) :
    Keeps s₀ (State.setLaneMap s₁ d t pc v) := by
  unfold State.setLaneMap
  try dsimp only
  repeat' with_reducible first
    | intro _ | simp only [↓Keeps.upd_iff] | assumption | apply keeps_ite | split

theorem keeps_laneSuspect {s₀ s₁ : State} (h₀ : Keeps s₀ s₁) (d : Nat) (t : Nat) (pc : Nat) (lane : Nat) :
    Keeps s₀ (State.laneSuspect s₁ d t pc lane) := by
  unfold State.laneSuspect
  try dsimp only
  repeat' with_reducible first
    | intro _ | simp only [↓Keeps.upd_iff] | assumption | apply keeps_ite | apply keeps_setLaneMap
    | apply keeps_setErr | apply keeps_logAt | apply keeps_histEvent | split

theorem keeps_laneCe {s₀ s₁ : State} (h₀ : Keeps s₀ s₁) (k : Nat) (lane : Nat) :
    Keeps s₀ (State.laneCe s₁ k lane) := by
  unfold State.laneCe
  try dsimp only
  repeat' with_reducible first
    | intro _ | simp only [↓Keeps.upd_iff] | assumption | apply keeps_ite | apply keeps_noteCe
    | apply keeps_laneSuspect | split

theorem keeps_corrected {s₀ s₁ : State} (h₀ : Keeps s₀ s₁) (sec : Nat) (fixes : List (Nat × Nat)) :
    Keeps s₀ (State.corrected s₁ sec fixes) := by
  unfold State.corrected
  try dsimp only
  repeat' with_reducible first
    | intro _ | simp only [↓Keeps.upd_iff] | assumption | apply keeps_ite | apply keeps_foldl | apply keeps_setErr
    | apply keeps_satF | apply keeps_heal | apply keeps_laneCe | split

theorem keeps_checkSector {s₀ s₁ : State} (h₀ : Keeps s₀ s₁) (sec : Nat) :
    Keeps s₀ (State.checkSector s₁ sec) := by
  unfold State.checkSector
  try dsimp only
  repeat' with_reducible first
    | intro _ | simp only [↓Keeps.upd_iff] | assumption | apply keeps_ite | apply keeps_corrected | split

theorem keeps_bankFail {s₀ s₁ : State} (h₀ : Keeps s₀ s₁) (d : Nat) (b : Nat) :
    Keeps s₀ (State.bankFail s₁ d b) := by
  unfold State.bankFail
  try dsimp only
  repeat' with_reducible first
    | intro _ | simp only [↓Keeps.upd_iff] | assumption | apply keeps_ite | apply keeps_setErr | apply keeps_wrF
    | apply keeps_histEvent | apply keeps_logAt | apply keeps_noCert | split

theorem keeps_bankCheck {s₀ s₁ : State} (h₀ : Keeps s₀ s₁) (d : Nat) :
    Keeps s₀ (State.bankCheck s₁ d) := by
  unfold State.bankCheck
  try dsimp only
  repeat' with_reducible first
    | intro _ | simp only [↓Keeps.upd_iff] | assumption | apply keeps_ite | apply keeps_foldl
    | apply keeps_bankFail | split

theorem keeps_rehSeen {s₀ s₁ : State} (h₀ : Keeps s₀ s₁) (secs : List Nat) :
    Keeps s₀ (State.rehSeen s₁ secs) := by
  unfold State.rehSeen
  try dsimp only
  repeat' with_reducible first
    | intro _ | simp only [↓Keeps.upd_iff] | assumption | apply keeps_ite | apply keeps_rehFound | split

theorem keeps_reportUe {s₀ s₁ : State} (h₀ : Keeps s₀ s₁) (k : Nat) (n : Nat) (scrub : Bool) :
    Keeps s₀ (State.reportUe s₁ k n scrub) := by
  unfold State.reportUe
  try dsimp only
  repeat' with_reducible first
    | intro _ | simp only [↓Keeps.upd_iff] | assumption | apply keeps_ite | apply keeps_wr | apply keeps_setErr
    | apply keeps_logAt | split

theorem keeps_mboxState {s₀ s₁ : State} (h₀ : Keeps s₀ s₁) (n : Nat) (v : Nat) :
    Keeps s₀ (State.mboxState s₁ n v) := by
  unfold State.mboxState
  try dsimp only
  repeat' with_reducible first
    | intro _ | simp only [↓Keeps.upd_iff] | assumption | apply keeps_ite | apply keeps_wrF | apply keeps_send
    | split

theorem keeps_setWatches {s₀ s₁ : State} (h₀ : Keeps s₀ s₁) (d : Nat) (ws : List Sys2Proof.Machine.Watch) :
    Keeps s₀ (State.setWatches s₁ d ws) := by
  unfold State.setWatches
  try dsimp only
  repeat' with_reducible first
    | intro _ | simp only [↓Keeps.upd_iff] | assumption | apply keeps_ite | split

theorem keeps_busErr {s₀ s₁ : State} (h₀ : Keeps s₀ s₁) (d : Nat) (addr : Nat) :
    Keeps s₀ (State.busErr s₁ d addr) := by
  unfold State.busErr
  try dsimp only
  repeat' with_reducible first
    | intro _ | simp only [↓Keeps.upd_iff] | assumption | apply keeps_ite | apply keeps_send | apply keeps_setErr
    | apply keeps_wr | split

theorem keeps_reply {s₀ s₁ : State} (h₀ : Keeps s₀ s₁) (d : Nat) (track : Nat) (epoch : Nat) (ctx : Nat) (gen : Nat) (st : Sys2Proof.Status) (remote : Bool) :
    Keeps s₀ (State.reply s₁ d track epoch ctx gen st remote) := by
  unfold State.reply
  try dsimp only
  repeat' with_reducible first
    | intro _ | simp only [↓Keeps.upd_iff] | assumption | apply keeps_ite | apply keeps_incF | apply keeps_endTrack
    | apply keeps_deliver | split

theorem keeps_answer {s₀ s₁ : State} (h₀ : Keeps s₀ s₁) (r : Sys2Proof.Req) (st : Sys2Proof.Status) (data : List Sys2Proof.Byte) :
    Keeps s₀ (State.answer s₁ r st data) := by
  unfold State.answer
  try dsimp only
  repeat' with_reducible first
    | intro _ | simp only [↓Keeps.upd_iff] | assumption | apply keeps_ite | apply keeps_send | apply keeps_busErr
    | apply keeps_reply | apply keeps_answerPacket | split

theorem keeps_runWatches {s₀ s₁ : State} (h₀ : Keeps s₀ s₁) (a0 : Nat) (a2 : Nat) (a3 : Nat) (a4 : Nat) :
    Keeps s₀ (runWatches a0 s₁ a2 a3 a4) := by
  induction a0 generalizing s₁ a2 a3 a4 with
  | zero => exact h₀
  | succ n ih =>
    unfold runWatches
    try dsimp only
    repeat' with_reducible first
      | intro _ | simp only [↓Keeps.upd_iff] | assumption | apply ih | apply keeps_ite | apply keeps_setWatches
      | apply keeps_answer | split

theorem keeps_evalWatches {s₀ s₁ : State} (h₀ : Keeps s₀ s₁) (k : Nat) (n : Nat) :
    Keeps s₀ (State.evalWatches s₁ k n) := by
  unfold State.evalWatches
  try dsimp only
  repeat' with_reducible first
    | intro _ | simp only [↓Keeps.upd_iff] | assumption | apply keeps_ite | apply keeps_runWatches | split

theorem keeps_dirtySector {s₀ s₁ : State} (h₀ : Keeps s₀ s₁) (sec : Nat) :
    Keeps s₀ (State.dirtySector s₁ sec) := by
  unfold State.dirtySector
  try dsimp only
  repeat' with_reducible first
    | intro _ | simp only [↓Keeps.upd_iff] | assumption | apply keeps_ite | split

theorem keeps_evict {s₀ s₁ : State} (h₀ : Keeps s₀ s₁) (line : Nat) :
    Keeps s₀ (State.evict s₁ line) := by
  unfold State.evict
  try dsimp only
  repeat' with_reducible first
    | intro _ | simp only [↓Keeps.upd_iff] | assumption | apply keeps_ite | split

theorem keeps_useSector {s₀ s₁ : State} (h₀ : Keeps s₀ s₁) (sec : Nat) :
    Keeps s₀ (State.useSector s₁ sec) := by
  unfold State.useSector
  try dsimp only
  repeat' with_reducible first
    | intro _ | simp only [↓Keeps.upd_iff] | assumption | apply keeps_ite | apply keeps_evict | split

theorem keeps_memStore {s₀ s₁ : State} (h₀ : Keeps s₀ s₁) (k : Nat) (xs : List Sys2Proof.Byte) :
    Keeps s₀ (State.memStore s₁ k xs) := by
  exact Keeps.setMem (keeps_foldl h₀ fun _ _ h => keeps_dirtySector (keeps_useSector h _) _) _ (putBytes_wf _ _) id id id

theorem keeps_lookSector {s₀ s₁ : State} (h₀ : Keeps s₀ s₁) (sec : Nat) :
    Keeps s₀ (State.lookSector s₁ sec) := by
  unfold State.lookSector
  try dsimp only
  repeat' with_reducible first
    | intro _ | simp only [↓Keeps.upd_iff] | assumption | apply keeps_ite | apply keeps_useSector
    | apply keeps_incF | split

theorem keeps_lookRange {s₀ s₁ : State} (h₀ : Keeps s₀ s₁) (k : Nat) (n : Nat) :
    Keeps s₀ (State.lookRange s₁ k n) := by
  unfold State.lookRange
  try dsimp only
  repeat' with_reducible first
    | intro _ | simp only [↓Keeps.upd_iff] | assumption | apply keeps_ite | apply keeps_foldl
    | apply keeps_lookSector | split

theorem keeps_msgWrite {s₀ s₁ : State} (h₀ : Keeps s₀ s₁) (addr : Nat) (bs : List Sys2Proof.Byte) :
    Keeps s₀ (State.msgWrite s₁ addr bs) := by
  unfold State.msgWrite
  try dsimp only
  repeat' with_reducible first
    | intro _ | simp only [↓Keeps.upd_iff] | assumption | apply keeps_ite | apply keeps_foldl
    | apply keeps_evalWatches | apply keeps_memStore | apply keeps_lookRange | apply keeps_clearBad | split

theorem keeps_noticeOut {s₀ s₁ : State} (h₀ : Keeps s₀ s₁)  :
    Keeps s₀ (State.noticeOut s₁) := by
  unfold State.noticeOut
  try dsimp only
  repeat' with_reducible first
    | intro _ | simp only [↓Keeps.upd_iff] | assumption | apply keeps_ite | apply keeps_mboxState
    | apply keeps_msgWrite | split

theorem keeps_notice {s₀ s₁ : State} (h₀ : Keeps s₀ s₁) (ty : Nat) (body : List Sys2Proof.Byte) :
    Keeps s₀ (State.notice s₁ ty body) := by
  unfold State.notice
  try dsimp only
  repeat' with_reducible first
    | intro _ | simp only [↓Keeps.upd_iff] | assumption | apply keeps_ite | apply keeps_incF
    | apply keeps_noticeOut | split

theorem keeps_regionLost {s₀ s₁ : State} (h₀ : Keeps s₀ s₁) (k : Nat) :
    Keeps s₀ (State.regionLost s₁ k) := by
  unfold State.regionLost
  try dsimp only
  repeat' with_reducible first
    | intro _ | simp only [↓Keeps.upd_iff] | assumption | apply keeps_ite | apply keeps_notice | split

theorem keeps_rowDue {s₀ s₁ : State} (h₀ : Keeps s₀ s₁) (sec : Nat) :
    Keeps s₀ (State.rowDue s₁ sec) := by
  unfold State.rowDue
  try dsimp only
  repeat' with_reducible first
    | intro _ | simp only [↓Keeps.upd_iff] | assumption | apply keeps_ite | apply keeps_took | split

theorem keeps_newBad {s₀ s₁ : State} (h₀ : Keeps s₀ s₁) (sec : Nat) :
    Keeps s₀ (State.newBad s₁ sec) := by
  unfold State.newBad
  have h₁ := h₀.setMem { s₁.mem with found := Tab.set false s₁.mem.found sec true } id id id
    (Tab.wf_set (d := fun _ => false) sec true)
  try dsimp only
  repeat' with_reducible first
    | intro _ | simp only [↓Keeps.upd_iff] | assumption | apply keeps_ite | apply keeps_satF
    | apply keeps_regionLost | apply keeps_rowDue | split

theorem keeps_foundBad {s₀ s₁ : State} (h₀ : Keeps s₀ s₁) (secs : List Nat) (scrub : Bool) :
    Keeps s₀ (State.foundBad s₁ secs scrub) := by
  unfold State.foundBad
  try dsimp only
  repeat' with_reducible first
    | intro _ | simp only [↓Keeps.upd_iff] | assumption | apply keeps_ite | apply keeps_foldl
    | apply keeps_reportUe | apply keeps_newBad | split

theorem keeps_countUe {s₀ s₁ : State} (h₀ : Keeps s₀ s₁) (key : Nat) :
    Keeps s₀ (State.countUe s₁ key) := by
  unfold State.countUe
  try dsimp only
  repeat' with_reducible first
    | intro _ | simp only [↓Keeps.upd_iff] | assumption | apply keeps_ite | split

theorem keeps_meetBad {s₀ s₁ : State} (h₀ : Keeps s₀ s₁) (sec : Nat) :
    Keeps s₀ (State.meetBad s₁ sec) := by
  unfold State.meetBad
  try dsimp only
  repeat' with_reducible first
    | intro _ | simp only [↓Keeps.upd_iff] | assumption | apply keeps_ite | apply keeps_countUe
    | apply keeps_setErr | split

theorem keeps_checkSecs {s₀ s₁ : State} (h₀ : Keeps s₀ s₁) (d : Nat) (secs : List Nat) :
    Keeps s₀ (State.checkSecs s₁ d secs) := by
  unfold State.checkSecs
  try dsimp only
  repeat' with_reducible first
    | intro _ | simp only [↓Keeps.upd_iff] | assumption | apply keeps_ite | apply keeps_ite1 | apply keeps_ite2
    | apply keeps_ite22 | apply keeps_foldl | apply keeps_foldl1 | apply keeps_foldl2 | apply keeps_foldNat
    | apply keeps_then | apply keeps_iteC | simp only [id_eq] | apply keeps_checkSector | apply keeps_bankCheck
    | apply keeps_rehSeen | apply keeps_foundBad | apply keeps_meetBad | dsimp only | split

theorem keeps_checkRange {s₀ s₁ : State} (h₀ : Keeps s₀ s₁) (k : Nat) (n : Nat) :
    Keeps s₀ (State.checkRange s₁ k n) := by
  unfold State.checkRange
  try dsimp only
  repeat' with_reducible first
    | intro _ | simp only [↓Keeps.upd_iff] | assumption | apply keeps_ite | apply keeps_foldl
    | apply keeps_checkSecs | split

theorem keeps_touch {s₀ s₁ : State} (h₀ : Keeps s₀ s₁) (k : Nat) (n : Nat) :
    Keeps s₀ (State.touch s₁ k n) := by
  unfold State.touch
  try dsimp only
  repeat' with_reducible first
    | intro _ | simp only [↓Keeps.upd_iff] | assumption | apply keeps_ite | apply keeps_ite1 | apply keeps_ite2
    | apply keeps_ite22 | apply keeps_foldl | apply keeps_foldl1 | apply keeps_foldl2 | apply keeps_foldNat
    | apply keeps_then | apply keeps_iteC | simp only [id_eq] | apply keeps_checkRange | apply keeps_lookRange
    | dsimp only | split

theorem keeps_readOwn {s₀ s₁ : State} (h₀ : Keeps s₀ s₁) (k : Nat) (n : Nat) :
    Keeps s₀ (State.readOwn s₁ k n).1 := by
  unfold State.readOwn
  try dsimp only
  repeat' with_reducible first
    | intro _ | simp only [↓Keeps.upd_iff] | assumption | apply keeps_ite | apply keeps_ite1 | apply keeps_ite2
    | apply keeps_ite22 | apply keeps_foldl | apply keeps_foldl1 | apply keeps_foldl2 | apply keeps_foldNat
    | apply keeps_then | apply keeps_iteC | simp only [id_eq] | apply keeps_touch | dsimp only | split
theorem keeps_readOwn_eq {s₀ s₁ : State} (h₀ : Keeps s₀ s₁) (k : Nat) (n : Nat) {x₀ y₀}
    (e₀ : (State.readOwn s₁ k n) = (x₀, y₀)) : Keeps s₀ x₀ := by
  have k := keeps_readOwn h₀ k n; rw [e₀] at k; exact k

theorem keeps_touchAll {s₀ s₁ : State} (h₀ : Keeps s₀ s₁) (xs : List (Nat × Nat)) :
    Keeps s₀ (State.touchAll s₁ xs) := by
  unfold State.touchAll
  try dsimp only
  repeat' with_reducible first
    | intro _ | simp only [↓Keeps.upd_iff] | assumption | apply keeps_ite | apply keeps_ite1 | apply keeps_ite2
    | apply keeps_ite22 | apply keeps_foldl | apply keeps_foldl1 | apply keeps_foldl2 | apply keeps_foldNat
    | apply keeps_then | apply keeps_iteC | simp only [id_eq] | apply keeps_touch | dsimp only | split

theorem keeps_markBad {s₀ s₁ : State} (h₀ : Keeps s₀ s₁) (sec : Nat) :
    Keeps s₀ (State.markBad s₁ sec) := by
  exact h₀.setMem _ id id (Tab.wf_set (d := fun _ => false) sec true) id

theorem keeps_rehCorrupt {s₀ s₁ : State} (h₀ : Keeps s₀ s₁) (sec : Nat) :
    Keeps s₀ (State.rehCorrupt s₁ sec) := by
  unfold State.rehCorrupt
  try dsimp only
  repeat' with_reducible first
    | intro _ | simp only [↓Keeps.upd_iff] | assumption | apply keeps_ite | apply keeps_rehInject
    | apply keeps_markBad | split

theorem keeps_memWriteSec {s₀ s₁ : State} (h₀ : Keeps s₀ s₁) (k : Nat) (xs : List Sys2Proof.Byte) (sec : Nat) :
    Keeps s₀ (State.memWriteSec s₁ k xs sec).1 := by
  unfold State.memWriteSec
  try dsimp only
  repeat' with_reducible first
    | intro _ | simp only [↓Keeps.upd_iff] | assumption | apply keeps_ite | apply keeps_rehCorrupt
    | apply keeps_memStore | apply keeps_clearBad | apply keeps_checkRange | split
theorem keeps_memWriteSec_eq {s₀ s₁ : State} (h₀ : Keeps s₀ s₁) (k : Nat) (xs : List Sys2Proof.Byte) (sec : Nat) {x₀ y₀}
    (e₀ : (State.memWriteSec s₁ k xs sec) = (x₀, y₀)) : Keeps s₀ x₀ := by
  have k := keeps_memWriteSec h₀ k xs sec; rw [e₀] at k; exact k

theorem keeps_memWrite {s₀ s₁ : State} (h₀ : Keeps s₀ s₁) (k : Nat) (xs : List Byte) :
    Keeps s₀ (s₁.memWrite k xs).1 := by
  have key : ∀ (l : List Nat) (a : State × Bool), Keeps s₀ a.1 → Keeps s₀ (l.foldl (fun a sec =>
      let r := a.1.memWriteSec k xs sec
      (r.1, a.2 && r.2)) a).1 := by
    intro l
    induction l with
    | nil => exact fun _ h => h
    | cons x l ih => exact fun a h => ih _ (keeps_memWriteSec h _ _ _)
  exact key _ (s₁, true) h₀
theorem keeps_memWrite_eq {s₀ s₁ : State} (h₀ : Keeps s₀ s₁) (k : Nat) (xs : List Byte) {x y}
    (e₀ : s₁.memWrite k xs = (x, y)) : Keeps s₀ x := by
  have k := keeps_memWrite h₀ k xs; rw [e₀] at k; exact k

theorem keeps_ownWrite {s₀ s₁ : State} (h₀ : Keeps s₀ s₁) (k : Nat) (xs : List Sys2Proof.Byte) :
    Keeps s₀ (State.ownWrite s₁ k xs).1 := by
  unfold State.ownWrite
  try dsimp only
  repeat' with_reducible first
    | intro _ | simp only [↓Keeps.upd_iff] | assumption | apply keeps_ite
    | refine keeps_memWrite_eq ?_ _ _ (by assumption) | apply keeps_memWrite | apply keeps_lookRange
    | apply keeps_evalWatches | split
theorem keeps_ownWrite_eq {s₀ s₁ : State} (h₀ : Keeps s₀ s₁) (k : Nat) (xs : List Sys2Proof.Byte) {x₀ y₀}
    (e₀ : (State.ownWrite s₁ k xs) = (x₀, y₀)) : Keeps s₀ x₀ := by
  have k := keeps_ownWrite h₀ k xs; rw [e₀] at k; exact k

theorem keeps_dropWatches {s₀ s₁ : State} (h₀ : Keeps s₀ s₁) (d : Nat) (p : Sys2Proof.Machine.Watch → Bool) :
    Keeps s₀ (State.dropWatches s₁ d p) := by
  unfold State.dropWatches
  try dsimp only
  repeat' with_reducible first
    | intro _ | simp only [↓Keeps.upd_iff] | assumption | apply keeps_ite | apply keeps_evalWatches
    | apply keeps_setWatches | split

theorem keeps_alertOut {s₀ s₁ : State} (h₀ : Keeps s₀ s₁)  :
    Keeps s₀ (State.alertOut s₁) := by
  unfold State.alertOut
  try dsimp only
  repeat' with_reducible first
    | intro _ | simp only [↓Keeps.upd_iff] | assumption | apply keeps_ite | apply keeps_notice | split

theorem keeps_upset {s₀ s₁ : State} (h₀ : Keeps s₀ s₁) (x : Sys2Proof.LaneError) :
    Keeps s₀ (State.upset s₁ x) := by
  unfold State.upset
  have h₁ := h₀.setMem { s₁.mem with err := Tab.set 0 s₁.mem.err (addrKey x.addr / 64) (Tab.get 0 s₁.mem.err (addrKey x.addr / 64) ^^^ laneError x.lane x.beats) }
    id (Tab.wf_set (d := fun _ => 0) (addrKey x.addr / 64) _) id id
  dsimp only
  split
  · exact keeps_heal h₁ _ _
  · exact h₁

theorem keeps_arise {s₀ s₁ : State} (h₀ : Keeps s₀ s₁) (k : Nat) (env : Sys2Proof.EccEnv) :
    Keeps s₀ (State.arise s₁ k env) := by
  unfold State.arise
  try dsimp only
  repeat' with_reducible first
    | intro _ | simp only [↓Keeps.upd_iff] | assumption | apply keeps_ite | apply keeps_foldl | apply keeps_upset
    | apply keeps_satF | split

theorem keeps_check {s₀ s₁ : State} (h₀ : Keeps s₀ s₁) (k : Nat) (n : Nat) (env : Sys2Proof.EccEnv) :
    Keeps s₀ (State.check s₁ k n env) := by
  unfold State.check
  try dsimp only
  repeat' with_reducible first
    | intro _ | simp only [↓Keeps.upd_iff] | assumption | apply keeps_ite | apply keeps_checkRange
    | apply keeps_arise | split

theorem keeps_emptyBank {s₀ s₁ : State} (h₀ : Keeps s₀ s₁) (d : Nat) (lb : Nat) :
    Keeps s₀ (State.emptyBank s₁ d lb) := by
  unfold State.emptyBank
  try dsimp only
  repeat' with_reducible first
    | intro _ | simp only [↓Keeps.upd_iff] | assumption | apply keeps_ite | split

theorem keeps_placeWatch {s₀ s₁ : State} (h₀ : Keeps s₀ s₁) (d : Nat) (w : Sys2Proof.Machine.Watch) :
    Keeps s₀ (State.placeWatch s₁ d w) := by
  unfold State.placeWatch
  try dsimp only
  repeat' with_reducible first
    | intro _ | simp only [↓Keeps.upd_iff] | assumption | apply keeps_ite | apply keeps_evalWatches
    | apply keeps_setWatches | split

/-! ### Atomics -/

theorem keeps_redFail {s₀ s₁ : State} (h₀ : Keeps s₀ s₁) (line : Nat) :
    Keeps s₀ (State.redFail s₁ line) := by
  unfold State.redFail
  try dsimp only
  repeat' with_reducible first
    | intro _ | simp only [↓Keeps.upd_iff] | assumption | apply keeps_ite | apply keeps_setErr | apply keeps_logAt
    | apply keeps_noCert | split

theorem keeps_redStat {s₀ s₁ : State} (h₀ : Keeps s₀ s₁) (d : Nat) :
    Keeps s₀ (State.redStat s₁ d) := by
  unfold State.redStat
  try dsimp only
  repeat' with_reducible first
    | intro _ | simp only [↓Keeps.upd_iff] | assumption | apply keeps_ite | apply keeps_wrF | split

theorem keeps_redEnd {s₀ s₁ : State} (h₀ : Keeps s₀ s₁)  :
    Keeps s₀ (State.redEnd s₁) := by
  unfold State.redEnd
  try dsimp only
  repeat' with_reducible first
    | intro _ | simp only [↓Keeps.upd_iff] | assumption | apply keeps_ite | apply keeps_foldl | apply keeps_redFail
    | apply keeps_redStat | split

theorem keeps_atomDo {s₀ s₁ : State} (h₀ : Keeps s₀ s₁) (r : Sys2Proof.Req) (op : Sys2Proof.Machine.AtomOp) (size : Nat) (operand : Nat) (compare : Nat) :
    Keeps s₀ (State.atomDo s₁ r op size operand compare) := by
  unfold State.atomDo
  try dsimp only
  repeat' with_reducible first
    | intro _ | simp only [↓Keeps.upd_iff] | assumption | apply keeps_ite | apply keeps_memStore
    | apply keeps_lookRange | apply keeps_incF | apply keeps_evalWatches | apply keeps_answer | split

theorem keeps_atomRefused {s₀ s₁ : State} (h₀ : Keeps s₀ s₁) (r : Sys2Proof.Req) (st : Sys2Proof.Status) :
    Keeps s₀ (State.atomRefused s₁ r st) := by
  unfold State.atomRefused
  try dsimp only
  repeat' with_reducible first
    | intro _ | simp only [↓Keeps.upd_iff] | assumption | apply keeps_ite | apply keeps_answer | apply keeps_setErr
    | split

theorem keeps_redApply {s₀ s₁ : State} (h₀ : Keeps s₀ s₁) (line : Nat) (c : Sys2Proof.Machine.ParkedLine) :
    Keeps s₀ (State.redApply s₁ line c) := by
  unfold State.redApply
  try dsimp only
  repeat' with_reducible first
    | intro _ | simp only [↓Keeps.upd_iff] | assumption | apply keeps_ite | apply keeps_foldl
    | apply keeps_memStore | apply keeps_lookRange | apply keeps_clearBad | apply keeps_evalWatches | split

theorem keeps_redMeet {s₀ s₁ : State} (h₀ : Keeps s₀ s₁) (line : Nat) (c : Sys2Proof.Machine.ParkedLine) :
    Keeps s₀ (State.redMeet s₁ line c).1 := by
  unfold State.redMeet
  try dsimp only
  repeat' with_reducible first
    | intro _ | simp only [↓Keeps.upd_iff] | assumption | apply keeps_ite | apply keeps_ite1 | apply keeps_ite2
    | apply keeps_ite22 | apply keeps_foldl | apply keeps_foldl1 | apply keeps_foldl2 | apply keeps_foldNat
    | apply keeps_then | apply keeps_iteC | simp only [id_eq] | apply keeps_checkRange | apply keeps_redApply
    | dsimp only | split
theorem keeps_redMeet_eq {s₀ s₁ : State} (h₀ : Keeps s₀ s₁) (line : Nat) (c : Sys2Proof.Machine.ParkedLine) {x₀ y₀}
    (e₀ : (State.redMeet s₁ line c) = (x₀, y₀)) : Keeps s₀ x₀ := by
  have k := keeps_redMeet h₀ line c; rw [e₀] at k; exact k

theorem keeps_redDrain {s₀ s₁ : State} (h₀ : Keeps s₀ s₁) (a0 : Nat) (a2 : Nat) :
    Keeps s₀ (redDrain a0 s₁ a2) := by
  induction a0 generalizing s₁ a2 with
  | zero => exact h₀
  | succ n ih =>
    unfold redDrain
    try dsimp only
    repeat' with_reducible first
      | intro _ | simp only [↓Keeps.upd_iff] | assumption | apply ih | apply keeps_ite
      | refine keeps_redMeet_eq ?_ _ _ (by assumption) | apply keeps_redMeet | split

theorem keeps_redLine {s₀ s₁ : State} (h₀ : Keeps s₀ s₁) (c : Sys2Proof.Machine.ParkedLine) :
    Keeps s₀ (State.redLine s₁ c).1 := by
  unfold State.redLine
  try dsimp only
  repeat' with_reducible first
    | intro _ | simp only [↓Keeps.upd_iff] | assumption | apply keeps_ite | apply keeps_redFail
    | refine keeps_redMeet_eq ?_ _ _ (by assumption) | apply keeps_redMeet | apply keeps_redDrain | split
theorem keeps_redLine_eq {s₀ s₁ : State} (h₀ : Keeps s₀ s₁) (c : Sys2Proof.Machine.ParkedLine) {x₀ y₀}
    (e₀ : (State.redLine s₁ c) = (x₀, y₀)) : Keeps s₀ x₀ := by
  have k := keeps_redLine h₀ c; rw [e₀] at k; exact k

theorem keeps_redLines {s₀ s₁ : State} (h₀ : Keeps s₀ s₁) (a0 : Nat) (a2 : Sys2Proof.Machine.RedHeld) :
    Keeps s₀ (redLines a0 s₁ a2).1 := by
  induction a0 generalizing s₁ a2 with
  | zero => exact h₀
  | succ n ih =>
    unfold redLines
    try dsimp only
    repeat' with_reducible first
      | intro _ | simp only [↓Keeps.upd_iff] | assumption | apply ih | apply keeps_ite
      | refine keeps_redLine_eq ?_ _ (by assumption) | apply keeps_redLine | split
theorem keeps_redLines_eq {s₀ s₁ : State} (h₀ : Keeps s₀ s₁) (a0 : Nat) (a2 : Sys2Proof.Machine.RedHeld) {x₀ y₀}
    (e₀ : (redLines a0 s₁ a2) = (x₀, y₀)) : Keeps s₀ x₀ := by
  have k := keeps_redLines h₀ a0 a2; rw [e₀] at k; exact k

theorem keeps_redRun {s₀ s₁ : State} (h₀ : Keeps s₀ s₁) (i : Nat) (h : Sys2Proof.Machine.RedHeld) :
    Keeps s₀ (State.redRun s₁ i h) := by
  unfold State.redRun
  try dsimp only
  repeat' with_reducible first
    | intro _ | simp only [↓Keeps.upd_iff] | assumption | apply keeps_ite
    | refine keeps_redLines_eq ?_ _ _ (by assumption) | apply keeps_redLines | apply keeps_redStat
    | apply keeps_answer | split

theorem keeps_redRetry {s₀ s₁ : State} (h₀ : Keeps s₀ s₁) (a0 : Nat) :
    Keeps s₀ (redRetry a0 s₁) := by
  induction a0 generalizing s₁  with
  | zero => exact h₀
  | succ n ih =>
    unfold redRetry
    try dsimp only
    repeat' with_reducible first
      | intro _ | simp only [↓Keeps.upd_iff] | assumption | apply ih | apply keeps_ite | apply keeps_redRun | split

theorem keeps_redArrive {s₀ s₁ : State} (h₀ : Keeps s₀ s₁) (r : Sys2Proof.Req) (k : Nat) (f : Sys2Proof.RedFields) (data : List Sys2Proof.Byte) :
    Keeps s₀ (State.redArrive s₁ r k f data) := by
  unfold State.redArrive
  try dsimp only
  repeat' with_reducible first
    | intro _ | simp only [↓Keeps.upd_iff] | assumption | apply keeps_ite | apply keeps_redRun | apply keeps_incF
    | apply keeps_redRetry | split

/-! ### PowerOps -/

theorem keeps_setTarget {s₀ s₁ : State} (h₀ : Keeps s₀ s₁) (d : Nat) (f : Nat) :
    Keeps s₀ (State.setTarget s₁ d f) := by
  unfold State.setTarget
  try dsimp only
  repeat' with_reducible first
    | intro _ | simp only [↓Keeps.upd_iff] | assumption | apply keeps_ite | apply keeps_wrF | apply keeps_satF
    | split

theorem keeps_retarget {s₀ s₁ : State} (h₀ : Keeps s₀ s₁) (d : Nat) :
    Keeps s₀ (State.retarget s₁ d) := by
  unfold State.retarget
  try dsimp only
  repeat' with_reducible first
    | intro _ | simp only [↓Keeps.upd_iff] | assumption | apply keeps_ite | apply keeps_setTarget | split

theorem keeps_phaseEnter {s₀ s₁ : State} (h₀ : Keeps s₀ s₁) (d : Nat) (ix : Nat) :
    Keeps s₀ (State.phaseEnter s₁ d ix) := by
  unfold State.phaseEnter
  try dsimp only
  repeat' with_reducible first
    | intro _ | simp only [↓Keeps.upd_iff] | assumption | apply keeps_ite | apply keeps_wrF | apply keeps_retarget
    | split

/-! ### Home -/

theorem keeps_partWrite {s₀ s₁ : State} (h₀ : Keeps s₀ s₁) (a : Nat) (xs : List Sys2Proof.Byte) :
    Keeps s₀ (State.partWrite s₁ a xs).1 := by
  unfold State.partWrite
  try dsimp only
  repeat' with_reducible first
    | intro _ | simp only [↓Keeps.upd_iff] | assumption | apply keeps_ite
    | refine keeps_ownWrite_eq ?_ _ _ (by assumption) | apply keeps_ownWrite | split
theorem keeps_partWrite_eq {s₀ s₁ : State} (h₀ : Keeps s₀ s₁) (a : Nat) (xs : List Sys2Proof.Byte) {x₀ y₀}
    (e₀ : (State.partWrite s₁ a xs) = (x₀, y₀)) : Keeps s₀ x₀ := by
  have k := keeps_partWrite h₀ a xs; rw [e₀] at k; exact k

theorem keeps_partPublish {s₀ s₁ : State} (h₀ : Keeps s₀ s₁) (a : Nat) (xs : List Sys2Proof.Byte) :
    Keeps s₀ (State.partPublish s₁ a xs).1 := by
  unfold State.partPublish
  try dsimp only
  repeat' with_reducible first
    | intro _ | simp only [↓Keeps.upd_iff] | assumption | apply keeps_ite
    | refine keeps_partWrite_eq ?_ _ _ (by assumption) | apply keeps_partWrite | apply keeps_reportUe | split
theorem keeps_partPublish_eq {s₀ s₁ : State} (h₀ : Keeps s₀ s₁) (a : Nat) (xs : List Sys2Proof.Byte) {x₀ y₀}
    (e₀ : (State.partPublish s₁ a xs) = (x₀, y₀)) : Keeps s₀ x₀ := by
  have k := keeps_partPublish h₀ a xs; rw [e₀] at k; exact k

theorem keeps_inTurn {s₀ s₁ : State} (h₀ : Keeps s₀ s₁) (r : Sys2Proof.Req) :
    Keeps s₀ (State.inTurn s₁ r) := by
  unfold State.inTurn
  try dsimp only
  repeat' with_reducible first
    | intro _ | simp only [↓Keeps.upd_iff] | assumption | apply keeps_ite | apply keeps_putTrack | split

theorem keeps_dbgRefused {s₀ s₁ : State} (h₀ : Keeps s₀ s₁) (r : Sys2Proof.Req) :
    Keeps s₀ (State.dbgRefused s₁ r) := by
  unfold State.dbgRefused
  try dsimp only
  repeat' with_reducible first
    | intro _ | simp only [↓Keeps.upd_iff] | assumption | apply keeps_ite | apply keeps_answer | apply keeps_logAt
    | split

theorem keeps_discardAged {s₀ s₁ : State} (h₀ : Keeps s₀ s₁) (r : Sys2Proof.Req) :
    Keeps s₀ (State.discardAged s₁ r) := by
  unfold State.discardAged
  try dsimp only
  repeat' with_reducible first
    | intro _ | simp only [↓Keeps.upd_iff] | assumption | apply keeps_ite | apply keeps_incF | apply keeps_setErr
    | apply keeps_dropWatches | split

theorem keeps_discardFenced {s₀ s₁ : State} (h₀ : Keeps s₀ s₁) (r : Sys2Proof.Req) :
    Keeps s₀ (State.discardFenced s₁ r) := by
  unfold State.discardFenced
  try dsimp only
  repeat' with_reducible first
    | intro _ | simp only [↓Keeps.upd_iff] | assumption | apply keeps_ite | apply keeps_setErr | apply keeps_incF
    | split

theorem keeps_atHome {s₀ s₁ : State} (h₀ : Keeps s₀ s₁) (r : Sys2Proof.Req) (circuit : Bool) (f : Sys2Proof.Machine.State → Sys2Proof.Machine.State) (stream : Bool) (h_f : ∀ x , Keeps s₀ x → Keeps s₀ (f x )) :
    Keeps s₀ (State.atHome s₁ r circuit f stream) := by
  unfold State.atHome
  try dsimp only
  repeat' with_reducible first
    | intro _ | simp only [↓Keeps.upd_iff] | assumption | apply h_f | apply keeps_ite | apply keeps_inTurn
    | apply keeps_dbgRefused | apply keeps_discardAged | apply keeps_discardFenced | apply keeps_setErr
    | apply keeps_answer | apply keeps_noCert | split

theorem keeps_spaceRefused {s₀ s₁ : State} (h₀ : Keeps s₀ s₁) (r : Sys2Proof.Req) :
    Keeps s₀ (State.spaceRefused s₁ r) := by
  unfold State.spaceRefused
  try dsimp only
  repeat' with_reducible first
    | intro _ | simp only [↓Keeps.upd_iff] | assumption | apply keeps_ite | apply keeps_setErr | apply keeps_logAt
    | apply keeps_answer | split

theorem keeps_homeAtom {s₀ s₁ : State} (h₀ : Keeps s₀ s₁) (r : Sys2Proof.Req) (op : Sys2Proof.Machine.AtomOp) (size : Nat) (operand : Nat) (compare : Nat) (env : Sys2Proof.EccEnv) :
    Keeps s₀ (State.homeAtom s₁ r op size operand compare env) := by
  unfold State.homeAtom
  try dsimp only
  repeat' with_reducible first
    | intro _ | simp only [↓Keeps.upd_iff] | assumption | apply keeps_ite | apply keeps_spaceRefused
    | apply keeps_atomRefused | apply keeps_check | apply keeps_atomDo | split

theorem keeps_homeSemwait {s₀ s₁ : State} (h₀ : Keeps s₀ s₁) (r : Sys2Proof.Req) (value : BitVec 64) (env : Sys2Proof.EccEnv) :
    Keeps s₀ (State.homeSemwait s₁ r value env) := by
  unfold State.homeSemwait
  try dsimp only
  repeat' with_reducible first
    | intro _ | simp only [↓Keeps.upd_iff] | assumption | apply keeps_ite | apply keeps_spaceRefused
    | apply keeps_atomRefused | apply keeps_placeWatch | apply keeps_check | split

theorem keeps_engineSem {s₀ s₁ : State} (h₀ : Keeps s₀ s₁) (d : Nat) (b : Nat) (vxe : Bool) (add : Bool) (a : Nat) (v : Nat) :
    Keeps s₀ (State.engineSem s₁ d b vxe add a v) := by
  unfold State.engineSem
  try dsimp only
  repeat' with_reducible first
    | intro _ | simp only [↓Keeps.upd_iff] | assumption | apply keeps_ite | apply keeps_openTrack
    | apply keeps_incF | apply keeps_setVxe | apply keeps_setMxe | apply keeps_syncError | apply keeps_setErr
    | apply keeps_sendCt | apply keeps_homeAtom | apply keeps_homeSemwait | split

/-! ### Translate -/

theorem keeps_walkChecked {s₀ s₁ : State} (h₀ : Keeps s₀ s₁) (d : Nat) (id : Nat) (va : Nat) (use : Nat → Bool) :
    Keeps s₀ (State.walkChecked s₁ d id va use) := by
  unfold State.walkChecked
  try dsimp only
  repeat' with_reducible first
    | intro _ | simp only [↓Keeps.upd_iff] | assumption | apply keeps_ite | apply keeps_foldl | apply keeps_touch
    | split

theorem keeps_putXlat {s₀ s₁ : State} (h₀ : Keeps s₀ s₁) (x : Sys2Proof.Machine.Xlat) (va : Nat) (path : List (Nat × Nat)) :
    Keeps s₀ (State.putXlat s₁ x va path) := by
  unfold State.putXlat
  try dsimp only
  repeat' with_reducible first
    | intro _ | simp only [↓Keeps.upd_iff] | assumption | apply keeps_ite | split

theorem keeps_translate {s₀ s₁ : State} (h₀ : Keeps s₀ s₁) (d : Nat) (id : Nat) (va : Nat) (write : Bool) :
    Keeps s₀ (State.translate s₁ d id va write).1 := by
  unfold State.translate
  try dsimp only
  repeat' with_reducible first
    | intro _ | simp only [↓Keeps.upd_iff] | assumption | apply keeps_ite | apply keeps_took | apply keeps_incF
    | apply keeps_walkChecked | apply keeps_putXlat | split
theorem keeps_translate_eq {s₀ s₁ : State} (h₀ : Keeps s₀ s₁) (d : Nat) (id : Nat) (va : Nat) (write : Bool) {x₀ y₀}
    (e₀ : (State.translate s₁ d id va write) = (x₀, y₀)) : Keeps s₀ x₀ := by
  have k := keeps_translate h₀ d id va write; rw [e₀] at k; exact k

theorem keeps_translateAll {s₀ s₁ : State} (h₀ : Keeps s₀ s₁) (d : Nat) (id : Nat) (write : Bool) (pages : List Nat) :
    Keeps s₀ (State.translateAll s₁ d id write pages).1 := by
  unfold State.translateAll
  try dsimp only
  repeat' with_reducible first
    | intro _ | simp only [↓Keeps.upd_iff] | assumption | apply keeps_ite | apply keeps_foldl1
    | refine keeps_translate_eq ?_ _ _ _ _ (by assumption) | apply keeps_translate | split
theorem keeps_translateAll_eq {s₀ s₁ : State} (h₀ : Keeps s₀ s₁) (d : Nat) (id : Nat) (write : Bool) (pages : List Nat) {x₀ y₀}
    (e₀ : (State.translateAll s₁ d id write pages) = (x₀, y₀)) : Keeps s₀ x₀ := by
  have k := keeps_translateAll h₀ d id write pages; rw [e₀] at k; exact k

/-! ### RegWrite -/

theorem keeps_accessFault {s₀ s₁ : State} (h₀ : Keeps s₀ s₁) (d : Nat) (pg : Nat) (off : Nat) (r : Sys2Proof.WriteReq) :
    Keeps s₀ (State.accessFault s₁ d pg off r) := by
  unfold State.accessFault
  try dsimp only
  repeat' with_reducible first
    | intro _ | simp only [↓Keeps.upd_iff] | assumption | apply keeps_ite | apply keeps_setErr
    | apply keeps_logRefused | split

theorem keeps_record {s₀ s₁ : State} (h₀ : Keeps s₀ s₁) (d : Nat) (pg : Nat) (off : Nat) (r : Sys2Proof.WriteReq) (o : Sys2Proof.Machine.WOutcome) (old : Nat) (new : Nat) (detail : Nat) :
    Keeps s₀ (State.record s₁ d pg off r o old new detail) := by
  unfold State.record
  try dsimp only
  repeat' with_reducible first
    | intro _ | simp only [↓Keeps.upd_iff] | assumption | apply keeps_ite | split

theorem keeps_denyAll {s₀ s₁ : State} (h₀ : Keeps s₀ s₁) (d : Nat) (pg : Nat) (off : Nat) (old : Nat) (detail : Nat) (rs : List Sys2Proof.WriteReq) :
    Keeps s₀ (State.denyAll s₁ d pg off old detail rs) := by
  unfold State.denyAll
  try dsimp only
  repeat' with_reducible first
    | intro _ | simp only [↓Keeps.upd_iff] | assumption | apply keeps_ite | apply keeps_foldl | apply keeps_record
    | apply keeps_setErr | split

theorem keeps_storeQueue {s₀ s₁ : State} (h₀ : Keeps s₀ s₁) (d : Nat) (pg : Nat) (off : Nat) (v : Nat) :
    Keeps s₀ (State.storeQueue s₁ d pg off v) := by
  unfold State.storeQueue
  try dsimp only
  repeat' with_reducible first
    | intro _ | simp only [↓Keeps.upd_iff] | assumption | apply keeps_ite | split

theorem keeps_store {s₀ s₁ : State} (h₀ : Keeps s₀ s₁) (d : Nat) (pg : Nat) (off : Nat) (v : Nat) :
    Keeps s₀ (State.store s₁ d pg off v) := by
  unfold State.store
  try dsimp only
  repeat' with_reducible first
    | intro _ | simp only [↓Keeps.upd_iff] | assumption | apply keeps_ite | apply keeps_foldNat
    | apply keeps_storeQueue | apply keeps_wr | apply keeps_setErr | split

theorem keeps_lastWrite {s₀ s₁ : State} (h₀ : Keeps s₀ s₁) (d : Nat) (pg : Nat) (off : Nat) (o : Sys2Proof.Origin) :
    Keeps s₀ (State.lastWrite s₁ d pg off o) := by
  unfold State.lastWrite
  try dsimp only
  repeat' with_reducible first
    | intro _ | simp only [↓Keeps.upd_iff] | assumption | apply keeps_ite | apply keeps_incF | apply keeps_wr
    | split

theorem keeps_winOne {s₀ s₁ : State} (h₀ : Keeps s₀ s₁) (d : Nat) (pg : Nat) (off : Nat) (old : Nat) (detail : Nat) (r : Sys2Proof.WriteReq) :
    Keeps s₀ (State.winOne s₁ d pg off old detail r) := by
  unfold State.winOne
  try dsimp only
  repeat' with_reducible first
    | intro _ | simp only [↓Keeps.upd_iff] | assumption | apply keeps_ite | apply keeps_store
    | apply keeps_lastWrite | apply keeps_record | split

theorem keeps_loseAll {s₀ s₁ : State} (h₀ : Keeps s₀ s₁) (d : Nat) (pg : Nat) (off : Nat) (old : Nat) (detail : Nat) (rs : List Sys2Proof.WriteReq) :
    Keeps s₀ (State.loseAll s₁ d pg off old detail rs) := by
  unfold State.loseAll
  try dsimp only
  repeat' with_reducible first
    | intro _ | simp only [↓Keeps.upd_iff] | assumption | apply keeps_ite | apply keeps_foldl | apply keeps_record
    | apply keeps_setErr | split

theorem keeps_commit {s₀ s₁ : State} (h₀ : Keeps s₀ s₁) (d : Nat) (pg : Nat) (off : Nat) (reqs : List Sys2Proof.WriteReq) :
    Keeps s₀ (State.commit s₁ d pg off reqs).s := by
  unfold State.commit
  try dsimp only
  repeat' with_reducible first
    | intro _ | simp only [↓Keeps.upd_iff] | assumption | apply keeps_ite | apply keeps_foldl
    | apply keeps_accessFault | apply keeps_denyAll | apply keeps_winOne | apply keeps_loseAll | split

theorem keeps_write1 {s₀ s₁ : State} (h₀ : Keeps s₀ s₁) (d : Nat) (pg : Nat) (off : Nat) (w : Sys2Proof.Writer) (v : Nat) :
    Keeps s₀ (State.write1 s₁ d pg off w v).s := by
  unfold State.write1
  try dsimp only
  repeat' with_reducible first
    | intro _ | simp only [↓Keeps.upd_iff] | assumption | apply keeps_ite | apply keeps_commit | split

/-! ### Reports -/

theorem keeps_addPair {s₀ s₁ : State} (h₀ : Keeps s₀ s₁) (tensor : Nat) (k : Nat) :
    Keeps s₀ (State.addPair s₁ tensor k) := by
  unfold State.addPair
  try dsimp only
  repeat' with_reducible first
    | intro _ | simp only [↓Keeps.upd_iff] | assumption | apply keeps_ite | split

theorem keeps_lateEvent {s₀ s₁ : State} (h₀ : Keeps s₀ s₁) (tensor : Nat) :
    Keeps s₀ (State.lateEvent s₁ tensor) := by
  unfold State.lateEvent
  try dsimp only
  repeat' with_reducible first
    | intro _ | simp only [↓Keeps.upd_iff] | assumption | apply keeps_ite | apply keeps_satF | apply keeps_addPair
    | split

theorem keeps_markEv {s₀ s₁ : State} (h₀ : Keeps s₀ s₁) (tensor : Nat) :
    Keeps s₀ (State.markEv s₁ tensor) := by
  unfold State.markEv
  try dsimp only
  repeat' with_reducible first
    | intro _ | simp only [↓Keeps.upd_iff] | assumption | apply keeps_ite | split

theorem keeps_convEvents {s₀ s₁ : State} (h₀ : Keeps s₀ s₁) (d : Nat) (pg : Nat) (tensor : Nat) (nan : Nat) (inf : Nat) (ovf : Nat) :
    Keeps s₀ (State.convEvents s₁ d pg tensor nan inf ovf) := by
  unfold State.convEvents
  try dsimp only
  repeat' with_reducible first
    | intro _ | simp only [↓Keeps.upd_iff] | assumption | apply keeps_ite | apply keeps_satF
    | apply keeps_lateEvent | apply keeps_markEv | split

theorem keeps_reportAmax {s₀ s₁ : State} (h₀ : Keeps s₀ s₁) (d : Nat) (b : Nat) (tensor : Nat) (amax : Nat) :
    Keeps s₀ (State.reportAmax s₁ d b tensor amax) := by
  unfold State.reportAmax
  try dsimp only
  repeat' with_reducible first
    | intro _ | simp only [↓Keeps.upd_iff] | assumption | apply keeps_ite | apply keeps_setVxe | split

theorem keeps_reportConv {s₀ s₁ : State} (h₀ : Keeps s₀ s₁) (d : Nat) (b : Nat) (tensor : Nat) (evs : List Sys2Proof.Machine.Ev) (amax : Nat) :
    Keeps s₀ (State.reportConv s₁ d b tensor evs amax) := by
  unfold State.reportConv
  try dsimp only
  repeat' with_reducible first
    | intro _ | simp only [↓Keeps.upd_iff] | assumption | apply keeps_ite | apply keeps_convEvents
    | apply keeps_reportAmax | split

/-! ### StreamMove -/

theorem keeps_streamPacket {s₀ s₁ : State} (h₀ : Keeps s₀ s₁) (d : Nat) (b : Nat) (sl : Nat) (t : Nat) (x : Nat × Nat × Bool) (mem : Sys2Proof.Machine.Tab Sys2Proof.Byte) :
    Keeps s₀ (State.streamPacket s₁ d b sl t x mem) := by
  unfold State.streamPacket
  try dsimp only
  repeat' with_reducible first
    | intro _ | simp only [↓Keeps.upd_iff] | assumption | apply keeps_ite | apply keeps_ite1 | apply keeps_ite2
    | apply keeps_ite22 | apply keeps_foldl | apply keeps_foldl1 | apply keeps_foldl2 | apply keeps_foldNat
    | apply keeps_then | apply keeps_iteC | simp only [id_eq] | apply keeps_injectCircuit | apply keeps_sendCt
    | dsimp only | split

theorem keeps_stgScatter {s₀ s₁ : State} (h₀ : Keeps s₀ s₁) (d : Nat) (b : Nat) (t : Sys2Proof.Machine.Tab Sys2Proof.Byte) :
    Keeps s₀ (State.stgScatter s₁ d b t) := by
  exact ⟨h₀.regs, h₀.inForce, h₀.mem, fun w => Tab.wf_foldl_set t (fun y => bayKey d b * 2 ^ 23 + y.1) (fun y => y.2) (h₀.staging w),
    h₀.fuses, h₀.seq⟩

theorem keeps_scatterSec {s₀ s₁ : State} (h₀ : Keeps s₀ s₁) (t : Sys2Proof.Machine.Tab Sys2Proof.Byte) (sec : Nat) :
    Keeps s₀ (State.scatterSec s₁ t sec).1 := by
  unfold State.scatterSec
  dsimp only
  have h₁ := keeps_lookSector h₀ sec
  apply keeps_ite1
  · exact keeps_ite h₁ (keeps_checkRange h₁ _ _)
  · exact Keeps.setMem (keeps_dirtySector (keeps_clearBad (keeps_ite h₁ (keeps_checkRange h₁ _ _)) _) _) _
      (Tab.wf_foldl_set _ _ _) id id id
theorem keeps_scatterSec_eq {s₀ s₁ : State} (h₀ : Keeps s₀ s₁) (t : Sys2Proof.Machine.Tab Sys2Proof.Byte) (sec : Nat) {x₀ y₀}
    (e₀ : (State.scatterSec s₁ t sec) = (x₀, y₀)) : Keeps s₀ x₀ := by
  have k := keeps_scatterSec h₀ t sec; rw [e₀] at k; exact k

theorem keeps_scatter {s₀ s₁ : State} (h₀ : Keeps s₀ s₁) (t : Sys2Proof.Machine.Tab Sys2Proof.Byte) :
    Keeps s₀ (State.scatter s₁ t).1 := by
  unfold State.scatter
  try dsimp only
  repeat' with_reducible first
    | intro _ | simp only [↓Keeps.upd_iff] | assumption | apply keeps_ite | apply keeps_foldl | apply keeps_foldl1
    | refine keeps_scatterSec_eq ?_ _ _ (by assumption) | apply keeps_scatterSec | apply keeps_evalWatches | split
theorem keeps_scatter_eq {s₀ s₁ : State} (h₀ : Keeps s₀ s₁) (t : Sys2Proof.Machine.Tab Sys2Proof.Byte) {x₀ y₀}
    (e₀ : (State.scatter s₁ t) = (x₀, y₀)) : Keeps s₀ x₀ := by
  have k := keeps_scatter h₀ t; rw [e₀] at k; exact k

/-! ### Slots -/

theorem keeps_fqWithdraw {s₀ s₁ : State} (h₀ : Keeps s₀ s₁) (d : Nat) (seq : Nat) :
    Keeps s₀ (State.fqWithdraw s₁ d seq) := by
  unfold State.fqWithdraw
  try dsimp only
  repeat' with_reducible first
    | intro _ | simp only [↓Keeps.upd_iff] | assumption | apply keeps_ite
    | refine keeps_partWrite_eq ?_ _ _ (by assumption) | apply keeps_partWrite | split

theorem keeps_cancelOne {s₀ s₁ : State} (h₀ : Keeps s₀ s₁) (d : Nat) (b : Nat) (sl : Nat) :
    Keeps s₀ (State.cancelOne s₁ d b sl) := by
  unfold State.cancelOne
  try dsimp only
  repeat' with_reducible first
    | intro _ | simp only [↓Keeps.upd_iff] | assumption | apply keeps_ite | apply keeps_fqWithdraw
    | apply keeps_undefStaging | apply keeps_keepStaging | apply keeps_endOwnTracks | apply keeps_setSlot | split

theorem keeps_cancelSlot {s₀ s₁ : State} (h₀ : Keeps s₀ s₁) (d : Nat) (b : Nat) (sl : Nat) :
    Keeps s₀ (State.cancelSlot s₁ d b sl) := by
  unfold State.cancelSlot
  try dsimp only
  repeat' with_reducible first
    | intro _ | simp only [↓Keeps.upd_iff] | assumption | apply keeps_ite | apply keeps_cancelOne | split

theorem keeps_cancelBay {s₀ s₁ : State} (h₀ : Keeps s₀ s₁) (d : Nat) (b : Nat) :
    Keeps s₀ (State.cancelBay s₁ d b) := by
  unfold State.cancelBay
  try dsimp only
  repeat' with_reducible first
    | intro _ | simp only [↓Keeps.upd_iff] | assumption | apply keeps_ite | apply keeps_foldl
    | apply keeps_cancelSlot | split

theorem keeps_fqWrite {s₀ s₁ : State} (h₀ : Keeps s₀ s₁) (r : Sys2Proof.Machine.FaultRec) :
    Keeps s₀ (State.fqWrite s₁ r) := by
  unfold State.fqWrite
  try dsimp only
  repeat' with_reducible first
    | intro _ | simp only [↓Keeps.upd_iff] | assumption | apply keeps_ite
    | refine keeps_partWrite_eq ?_ _ _ (by assumption) | apply keeps_partWrite | apply keeps_wrF | apply keeps_send
    | split

theorem keeps_fqDrain {s₀ s₁ : State} (h₀ : Keeps s₀ s₁) (a0 : Nat) (a2 : Nat) :
    Keeps s₀ (fqDrain a0 s₁ a2) := by
  induction a0 generalizing s₁ a2 with
  | zero => exact h₀
  | succ n ih =>
    unfold fqDrain
    try dsimp only
    repeat' with_reducible first
      | intro _ | simp only [↓Keeps.upd_iff] | assumption | apply ih | apply keeps_ite | apply keeps_fqWrite | split

theorem keeps_fqPost {s₀ s₁ : State} (h₀ : Keeps s₀ s₁) (r : Sys2Proof.Machine.FaultRec) :
    Keeps s₀ (State.fqPost s₁ r) := by
  unfold State.fqPost
  try dsimp only
  repeat' with_reducible first
    | intro _ | simp only [↓Keeps.upd_iff] | assumption | apply keeps_ite | apply keeps_fqDrain | split

theorem keeps_endCancel {s₀ s₁ : State} (h₀ : Keeps s₀ s₁) (d : Nat) (b : Nat) :
    Keeps s₀ (State.endCancel s₁ d b) := by
  unfold State.endCancel
  try dsimp only
  repeat' with_reducible first
    | intro _ | simp only [↓Keeps.upd_iff] | assumption | apply keeps_ite | apply keeps_foldl
    | apply keeps_cancelSlot | apply keeps_noCertBay | apply keeps_setErr | split

/-! ### StreamIssue -/

theorem keeps_refetchMove {s₀ s₁ : State} (h₀ : Keeps s₀ s₁) (d : Nat) (b : Nat) (sl : Nat) (q : Sys2Proof.Machine.StreamDesc) (n : Nat) :
    Keeps s₀ (State.refetchMove s₁ d b sl q n).1 := by
  unfold State.refetchMove
  try dsimp only
  repeat' with_reducible first
    | intro _ | simp only [↓Keeps.upd_iff] | assumption | apply keeps_ite
    | refine keeps_translateAll_eq ?_ _ _ _ _ (by assumption) | apply keeps_translateAll | split
theorem keeps_refetchMove_eq {s₀ s₁ : State} (h₀ : Keeps s₀ s₁) (d : Nat) (b : Nat) (sl : Nat) (q : Sys2Proof.Machine.StreamDesc) (n : Nat) {x₀ y₀}
    (e₀ : (State.refetchMove s₁ d b sl q n) = (x₀, y₀)) : Keeps s₀ x₀ := by
  have k := keeps_refetchMove h₀ d b sl q n; rw [e₀] at k; exact k

theorem keeps_refetchMoves {s₀ s₁ : State} (h₀ : Keeps s₀ s₁) (d : Nat) (b : Nat) (sl : Nat) (q : Sys2Proof.Machine.StreamDesc) :
    Keeps s₀ (State.refetchMoves s₁ d b sl q).1 := by
  unfold State.refetchMoves
  try dsimp only
  repeat' with_reducible first
    | intro _ | simp only [↓Keeps.upd_iff] | assumption | apply keeps_ite | apply keeps_foldl1
    | refine keeps_refetchMove_eq ?_ _ _ _ _ _ (by assumption) | apply keeps_refetchMove | split
theorem keeps_refetchMoves_eq {s₀ s₁ : State} (h₀ : Keeps s₀ s₁) (d : Nat) (b : Nat) (sl : Nat) (q : Sys2Proof.Machine.StreamDesc) {x₀ y₀}
    (e₀ : (State.refetchMoves s₁ d b sl q) = (x₀, y₀)) : Keeps s₀ x₀ := by
  have k := keeps_refetchMoves h₀ d b sl q; rw [e₀] at k; exact k

theorem keeps_noteReq {s₀ s₁ : State} (h₀ : Keeps s₀ s₁) (d : Nat) (b : Nat) (sl : Nat) (k : Nat) :
    Keeps s₀ (State.noteReq s₁ d b sl k) := by
  unfold State.noteReq
  try dsimp only
  repeat' with_reducible first
    | intro _ | simp only [↓Keeps.upd_iff] | assumption | apply keeps_ite | apply keeps_ite1 | apply keeps_ite2
    | apply keeps_ite22 | apply keeps_foldl | apply keeps_foldl1 | apply keeps_foldl2 | apply keeps_foldNat
    | apply keeps_then | apply keeps_iteC | simp only [id_eq] | apply keeps_setSlot | dsimp only | split

theorem keeps_issueReq {s₀ s₁ : State} (h₀ : Keeps s₀ s₁) (d : Nat) (b : Nat) (sl : Nat) (n : Nat) (mem : Sys2Proof.Machine.Tab Sys2Proof.Byte) (r : Nat × Nat × Bool) :
    Keeps s₀ (State.issueReq s₁ d b sl n mem r).1 := by
  unfold State.issueReq
  try dsimp only
  repeat' with_reducible first
    | intro _ | simp only [↓Keeps.upd_iff] | assumption | apply keeps_ite | apply keeps_openTrack
    | apply keeps_slotError | apply keeps_setErr | apply keeps_streamPacket | split
theorem keeps_issueReq_eq {s₀ s₁ : State} (h₀ : Keeps s₀ s₁) (d : Nat) (b : Nat) (sl : Nat) (n : Nat) (mem : Sys2Proof.Machine.Tab Sys2Proof.Byte) (r : Nat × Nat × Bool) {x₀ y₀}
    (e₀ : (State.issueReq s₁ d b sl n mem r) = (x₀, y₀)) : Keeps s₀ x₀ := by
  have k := keeps_issueReq h₀ d b sl n mem r; rw [e₀] at k; exact k

theorem keeps_countReq {s₀ s₁ : State} (h₀ : Keeps s₀ s₁) (d : Nat) (b : Nat) (sl : Nat) :
    Keeps s₀ (State.countReq s₁ d b sl) := by
  unfold State.countReq
  try dsimp only
  repeat' with_reducible first
    | intro _ | simp only [↓Keeps.upd_iff] | assumption | apply keeps_ite | apply keeps_setSlot | split

theorem keeps_issueList {s₀ s₁ : State} (h₀ : Keeps s₀ s₁) (d : Nat) (b : Nat) (sl : Nat) (n : Nat) (q : Sys2Proof.Machine.StreamDesc) (mem : Sys2Proof.Machine.Tab Sys2Proof.Byte) (a6 : Nat) (a7 : List (Nat × Nat × Bool)) :
    Keeps s₀ (issueList d b sl n q mem a6 a7 s₁).1 := by
  induction a7 generalizing s₁ a6 with
  | nil => exact h₀
  | cons r rs ih =>
    unfold issueList
    dsimp only
    have h₁ := keeps_noteReq h₀ d b sl (a6 + readBytes [r])
    apply keeps_ite1 h₁
    apply keeps_ite1
    · exact ih (keeps_countReq (keeps_issueReq h₁ _ _ _ _ _ _) _ _ _) _
    · exact keeps_issueReq h₁ _ _ _ _ _ _
theorem keeps_issueList_eq {s₀ s₁ : State} (h₀ : Keeps s₀ s₁) (d : Nat) (b : Nat) (sl : Nat) (n : Nat) (q : Sys2Proof.Machine.StreamDesc) (mem : Sys2Proof.Machine.Tab Sys2Proof.Byte) (a6 : Nat) (a7 : List (Nat × Nat × Bool)) {x₀ y₀}
    (e₀ : (issueList d b sl n q mem a6 a7 s₁) = (x₀, y₀)) : Keeps s₀ x₀ := by
  have k := keeps_issueList h₀ d b sl n q mem a6 a7; rw [e₀] at k; exact k

theorem keeps_reportReq {s₀ s₁ : State} (h₀ : Keeps s₀ s₁) (d : Nat) (b : Nat) (r : Nat × Nat × Bool) :
    Keeps s₀ (State.reportReq s₁ d b r) := by
  unfold State.reportReq
  try dsimp only
  repeat' with_reducible first
    | intro _ | simp only [↓Keeps.upd_iff] | assumption | apply keeps_ite | apply keeps_ite1 | apply keeps_ite2
    | apply keeps_ite22 | apply keeps_foldl | apply keeps_foldl1 | apply keeps_foldl2 | apply keeps_foldNat
    | apply keeps_then | apply keeps_iteC | simp only [id_eq] | apply keeps_logAt | apply keeps_setErr
    | apply keeps_logRefused | apply keeps_accessFault | dsimp only | split

theorem keeps_refuseReq {s₀ s₁ : State} (h₀ : Keeps s₀ s₁) (d : Nat) (b : Nat) (sl : Nat) (r : Nat × Nat × Bool) :
    Keeps s₀ (State.refuseReq s₁ d b sl r) := by
  unfold State.refuseReq
  try dsimp only
  repeat' with_reducible first
    | intro _ | simp only [↓Keeps.upd_iff] | assumption | apply keeps_ite | apply keeps_slotError
    | apply keeps_reportReq | split

theorem keeps_moveGate {s₀ s₁ : State} (h₀ : Keeps s₀ s₁) (d : Nat) (b : Nat) (sl : Nat) (q : Sys2Proof.Machine.StreamDesc) (m : Sys2Proof.Machine.Move) :
    Keeps s₀ (State.moveGate s₁ d b sl q m).1 := by
  unfold State.moveGate
  try dsimp only
  repeat' with_reducible first
    | intro _ | simp only [↓Keeps.upd_iff] | assumption | apply keeps_ite | apply keeps_ite1 | apply keeps_ite2
    | apply keeps_ite22 | apply keeps_foldl | apply keeps_foldl1 | apply keeps_foldl2 | apply keeps_foldNat
    | apply keeps_then | apply keeps_iteC | simp only [id_eq] | apply keeps_abortSlot | apply keeps_refuseReq
    | apply keeps_checkRange | apply keeps_lookRange | apply keeps_slotError | dsimp only | split
theorem keeps_moveGate_eq {s₀ s₁ : State} (h₀ : Keeps s₀ s₁) (d : Nat) (b : Nat) (sl : Nat) (q : Sys2Proof.Machine.StreamDesc) (m : Sys2Proof.Machine.Move) {x₀ y₀}
    (e₀ : (State.moveGate s₁ d b sl q m) = (x₀, y₀)) : Keeps s₀ x₀ := by
  have k := keeps_moveGate h₀ d b sl q m; rw [e₀] at k; exact k

theorem keeps_placeAgain {s₀ s₁ : State} (h₀ : Keeps s₀ s₁) (d : Nat) (b : Nat) (sl : Nat) (q : Sys2Proof.Machine.StreamDesc) (ms : List Sys2Proof.Machine.Move) :
    Keeps s₀ (State.placeAgain s₁ d b sl q ms).1 := by
  unfold State.placeAgain
  try dsimp only
  repeat' with_reducible first
    | intro _ | simp only [↓Keeps.upd_iff] | assumption | apply keeps_ite | apply keeps_ite1 | apply keeps_ite2
    | apply keeps_ite22 | apply keeps_foldl | apply keeps_foldl1 | apply keeps_foldl2 | apply keeps_foldNat
    | apply keeps_then | apply keeps_iteC | simp only [id_eq]
    | refine keeps_moveGate_eq ?_ _ _ _ _ _ (by assumption) | apply keeps_moveGate | apply keeps_stgScatter
    | dsimp only | split
theorem keeps_placeAgain_eq {s₀ s₁ : State} (h₀ : Keeps s₀ s₁) (d : Nat) (b : Nat) (sl : Nat) (q : Sys2Proof.Machine.StreamDesc) (ms : List Sys2Proof.Machine.Move) {x₀ y₀}
    (e₀ : (State.placeAgain s₁ d b sl q ms) = (x₀, y₀)) : Keeps s₀ x₀ := by
  have k := keeps_placeAgain h₀ d b sl q ms; rw [e₀] at k; exact k

theorem keeps_refetchSlot {s₀ s₁ : State} (h₀ : Keeps s₀ s₁) (d : Nat) (b : Nat) (sl : Nat) :
    Keeps s₀ (State.refetchSlot s₁ d b sl) := by
  unfold State.refetchSlot
  try dsimp only
  repeat' with_reducible first
    | intro _ | simp only [↓Keeps.upd_iff] | assumption | apply keeps_ite | apply keeps_foldl
    | refine keeps_refetchMoves_eq ?_ _ _ _ _ (by assumption) | apply keeps_refetchMoves | apply keeps_setSlot
    | refine keeps_issueList_eq ?_ _ _ _ _ _ _ _ _ (by assumption) | apply keeps_issueList
    | refine keeps_placeAgain_eq ?_ _ _ _ _ _ (by assumption) | apply keeps_placeAgain | apply keeps_setPair
    | split

theorem keeps_fillDeliv {s₀ s₁ : State} (h₀ : Keeps s₀ s₁) (d : Nat) (b : Nat) (sl : Nat) :
    Keeps s₀ (State.fillDeliv s₁ d b sl).1 := by
  unfold State.fillDeliv
  try dsimp only
  repeat' with_reducible first
    | intro _ | simp only [↓Keeps.upd_iff] | assumption | apply keeps_ite | apply keeps_foldl
    | refine keeps_translateAll_eq ?_ _ _ _ _ (by assumption) | apply keeps_translateAll | apply keeps_setSlot
    | apply keeps_lookRange | split
theorem keeps_fillDeliv_eq {s₀ s₁ : State} (h₀ : Keeps s₀ s₁) (d : Nat) (b : Nat) (sl : Nat) {x₀ y₀}
    (e₀ : (State.fillDeliv s₁ d b sl) = (x₀, y₀)) : Keeps s₀ x₀ := by
  have k := keeps_fillDeliv h₀ d b sl; rw [e₀] at k; exact k

theorem keeps_fillAll {s₀ s₁ : State} (h₀ : Keeps s₀ s₁) (a0 : Nat) (a2 : Nat) (a3 : Nat) (a4 : Nat) :
    Keeps s₀ (fillAll a0 s₁ a2 a3 a4) := by
  induction a0 generalizing s₁ a2 a3 a4 with
  | zero => exact h₀
  | succ n ih =>
    unfold fillAll
    try dsimp only
    repeat' with_reducible first
      | intro _ | simp only [↓Keeps.upd_iff] | assumption | apply ih | apply keeps_ite
      | refine keeps_fillDeliv_eq ?_ _ _ _ (by assumption) | apply keeps_fillDeliv | split

theorem keeps_issueDeliv {s₀ s₁ : State} (h₀ : Keeps s₀ s₁) (d : Nat) (b : Nat) (sl : Nat) :
    Keeps s₀ (State.issueDeliv s₁ d b sl).1 := by
  unfold State.issueDeliv
  try dsimp only
  repeat' with_reducible first
    | intro _ | simp only [↓Keeps.upd_iff] | assumption | apply keeps_ite
    | refine keeps_translateAll_eq ?_ _ _ _ _ (by assumption) | apply keeps_translateAll | apply keeps_setSlot
    | refine keeps_issueList_eq ?_ _ _ _ _ _ _ _ _ (by assumption) | apply keeps_issueList | split
theorem keeps_issueDeliv_eq {s₀ s₁ : State} (h₀ : Keeps s₀ s₁) (d : Nat) (b : Nat) (sl : Nat) {x₀ y₀}
    (e₀ : (State.issueDeliv s₁ d b sl) = (x₀, y₀)) : Keeps s₀ x₀ := by
  have k := keeps_issueDeliv h₀ d b sl; rw [e₀] at k; exact k

theorem keeps_issueAll {s₀ s₁ : State} (h₀ : Keeps s₀ s₁) (a0 : Nat) (a2 : Nat) (a3 : Nat) (a4 : Nat) :
    Keeps s₀ (issueAll a0 s₁ a2 a3 a4) := by
  induction a0 generalizing s₁ a2 a3 a4 with
  | zero => exact h₀
  | succ n ih =>
    unfold issueAll
    try dsimp only
    repeat' with_reducible first
      | intro _ | simp only [↓Keeps.upd_iff] | assumption | apply ih | apply keeps_ite
      | refine keeps_issueDeliv_eq ?_ _ _ _ (by assumption) | apply keeps_issueDeliv | split

theorem keeps_pumpSlot {s₀ s₁ : State} (h₀ : Keeps s₀ s₁) (d : Nat) (b : Nat) (sl : Nat) :
    Keeps s₀ (State.pumpSlot s₁ d b sl) := by
  unfold State.pumpSlot
  try dsimp only
  repeat' with_reducible first
    | intro _ | simp only [↓Keeps.upd_iff] | assumption | apply keeps_ite | apply keeps_refetchSlot
    | apply keeps_fillAll | apply keeps_issueAll | apply keeps_setPair | split

theorem keeps_signalGo {s₀ s₁ : State} (h₀ : Keeps s₀ s₁) (d : Nat) (b : Nat) (sl : Nat) :
    Keeps s₀ (State.signalGo s₁ d b sl) := by
  unfold State.signalGo
  try dsimp only
  repeat' with_reducible first
    | intro _ | simp only [↓Keeps.upd_iff] | assumption | apply keeps_ite | apply keeps_pumpSlot
    | apply keeps_signal | split

theorem keeps_pumpAll {s₀ s₁ : State} (h₀ : Keeps s₀ s₁)  :
    Keeps s₀ (State.pumpAll s₁) := by
  unfold State.pumpAll
  try dsimp only
  repeat' with_reducible first
    | intro _ | simp only [↓Keeps.upd_iff] | assumption | apply keeps_ite | apply keeps_foldl
    | apply keeps_pumpSlot | split

/-! ### Chunks -/

theorem keeps_chunkClose {s₀ s₁ : State} (h₀ : Keeps s₀ s₁) (d : Nat) (c : Nat) :
    Keeps s₀ (State.chunkClose s₁ d c) := by
  unfold State.chunkClose
  split
  · exact h₀
  · exact keeps_incF (h₀.upd rfl rfl rfl rfl rfl rfl) _ _ _ _ _ _

theorem keeps_digestCommit {s₀ s₁ : State} (h₀ : Keeps s₀ s₁) (d : Nat) (t : Sys2Proof.Machine.Tab Sys2Proof.Byte) :
    Keeps s₀ (State.digestCommit s₁ d t) := by
  unfold State.digestCommit
  try dsimp only
  repeat' with_reducible first
    | intro _ | simp only [↓Keeps.upd_iff] | assumption | apply keeps_ite | apply keeps_ite1 | apply keeps_ite2
    | apply keeps_ite22 | apply keeps_foldl | apply keeps_foldl1 | apply keeps_foldl2 | apply keeps_foldNat
    | apply keeps_then | apply keeps_iteC | simp only [id_eq] | apply keeps_chunkClose | dsimp only | split

/-! ### Stream -/

theorem keeps_withKept {s₀ s₁ : State} (h₀ : Keeps s₀ s₁) (d : Nat) (b : Nat) (x : Sys2Proof.Machine.SuSlot) :
    Keeps s₀ (State.withKept s₁ d b x) := by
  unfold State.withKept
  try dsimp only
  repeat' with_reducible first
    | intro _ | simp only [↓Keeps.upd_iff] | assumption | apply keeps_ite | apply keeps_ite1 | apply keeps_ite2
    | apply keeps_ite22 | apply keeps_foldl | apply keeps_foldl1 | apply keeps_foldl2 | apply keeps_foldNat
    | apply keeps_then | apply keeps_iteC | simp only [id_eq] | apply keeps_stgPutBytes | dsimp only | split

theorem keeps_settleWrites {s₀ s₁ : State} (h₀ : Keeps s₀ s₁) (d : Nat) (b : Nat) (sl : Nat) (x : Sys2Proof.Machine.SuSlot) (q : Sys2Proof.Machine.StreamDesc) (lo : Nat) (hi : Nat) :
    Keeps s₀ (State.settleWrites s₁ d b sl x q lo hi) := by
  unfold State.settleWrites
  try dsimp only
  repeat' with_reducible first
    | intro _ | simp only [↓Keeps.upd_iff] | assumption | apply keeps_ite
    | refine keeps_translateAll_eq ?_ _ _ _ _ (by assumption) | apply keeps_translateAll | apply keeps_withKept
    | refine keeps_scatter_eq ?_ _ (by assumption) | apply keeps_scatter | apply keeps_took | apply keeps_incF
    | split

theorem keeps_settleSlot {s₀ s₁ : State} (h₀ : Keeps s₀ s₁) (d : Nat) (b : Nat) (sl : Nat) :
    Keeps s₀ (State.settleSlot s₁ d b sl) := by
  unfold State.settleSlot
  try dsimp only
  repeat' with_reducible first
    | intro _ | simp only [↓Keeps.upd_iff] | assumption | apply keeps_ite | apply keeps_setSlot
    | apply keeps_settleWrites | split

theorem keeps_settleBay {s₀ s₁ : State} (h₀ : Keeps s₀ s₁) (d : Nat) (b : Nat) :
    Keeps s₀ (State.settleBay s₁ d b) := by
  unfold State.settleBay
  try dsimp only
  repeat' with_reducible first
    | intro _ | simp only [↓Keeps.upd_iff] | assumption | apply keeps_ite | apply keeps_foldl
    | apply keeps_settleSlot | split

theorem keeps_endSlotTracks {s₀ s₁ : State} (h₀ : Keeps s₀ s₁) (d : Nat) (b : Nat) (sl : Nat) :
    Keeps s₀ (State.endSlotTracks s₁ d b sl) := by
  unfold State.endSlotTracks
  try dsimp only
  repeat' with_reducible first
    | intro _ | simp only [↓Keeps.upd_iff] | assumption | apply keeps_ite | split

theorem keeps_slotFaults {s₀ s₁ : State} (h₀ : Keeps s₀ s₁) (d : Nat) (b : Nat) (sl : Nat) (p : Nat) (cur : Nat) (f : Sys2Proof.PageFault) (k : Nat × Nat) :
    Keeps s₀ (State.slotFaults s₁ d b sl p cur f k) := by
  unfold State.slotFaults
  try dsimp only
  repeat' with_reducible first
    | intro _ | simp only [↓Keeps.upd_iff] | assumption | apply keeps_ite | apply keeps_onPair
    | apply keeps_endOwnTracks | apply keeps_setSlot | apply keeps_incF | apply keeps_fqPost | split

theorem keeps_againFault {s₀ s₁ : State} (h₀ : Keeps s₀ s₁) (d : Nat) (b : Nat) (sl : Nat) (p : Nat) (q : Sys2Proof.Machine.StreamDesc) (pos : Nat) (f : Sys2Proof.PageFault) :
    Keeps s₀ (State.againFault s₁ d b sl p q pos f) := by
  unfold State.againFault
  try dsimp only
  repeat' with_reducible first
    | intro _ | simp only [↓Keeps.upd_iff] | assumption | apply keeps_ite | apply keeps_ite1 | apply keeps_ite2
    | apply keeps_ite22 | apply keeps_foldl | apply keeps_foldl1 | apply keeps_foldl2 | apply keeps_foldNat
    | apply keeps_then | apply keeps_iteC | simp only [id_eq] | apply keeps_slotFaults | dsimp only | split

theorem keeps_placeMove {s₀ s₁ : State} (h₀ : Keeps s₀ s₁) (d : Nat) (b : Nat) (sl : Nat) (x : Sys2Proof.Machine.SuSlot) (q : Sys2Proof.Machine.StreamDesc) (m : Sys2Proof.Machine.Move) (put : Sys2Proof.Machine.State → Nat → Nat → Sys2Proof.Machine.State) (go : Sys2Proof.Machine.State → Sys2Proof.Machine.State) (h_put : ∀ x (y0 : Nat) (y1 : Nat), Keeps s₀ x → Keeps s₀ (put x y0 y1)) (h_go : ∀ x , Keeps s₀ x → Keeps s₀ (go x )) :
    Keeps s₀ (State.placeMove s₁ d b sl x q m put go) := by
  unfold State.placeMove
  try dsimp only
  repeat' with_reducible first
    | intro _ | simp only [↓Keeps.upd_iff] | assumption | apply h_put | apply h_go | apply keeps_ite
    | apply keeps_foldl | refine keeps_moveGate_eq ?_ _ _ _ _ _ (by assumption) | apply keeps_moveGate
    | apply keeps_stgScatter | refine keeps_scatter_eq ?_ _ (by assumption) | apply keeps_scatter
    | apply keeps_slotError | apply keeps_took | apply keeps_incF | apply keeps_digestCommit | split

theorem keeps_deliveryDone {s₀ s₁ : State} (h₀ : Keeps s₀ s₁) (d : Nat) (b : Nat) (sl : Nat) (x : Sys2Proof.Machine.SuSlot) (q : Sys2Proof.Machine.StreamDesc) (m : Sys2Proof.Machine.Move) :
    Keeps s₀ (State.deliveryDone s₁ d b sl x q m) := by
  unfold State.deliveryDone
  try dsimp only
  repeat' with_reducible first
    | intro _ | simp only [↓Keeps.upd_iff] | assumption | apply keeps_ite | apply keeps_progress
    | apply keeps_setPair | apply keeps_convEvents | apply keeps_reportAmax | split

theorem keeps_completeOne {s₀ s₁ : State} (h₀ : Keeps s₀ s₁) (d : Nat) (b : Nat) (sl : Nat) (put : Option (Sys2Proof.Machine.State → Nat → Nat → Sys2Proof.Machine.State)) (h_put : ∀ x y z, Keeps s₀ x → Keeps s₀ ((put.getD fun s _ _ => s) x y z)) :
    Keeps s₀ (State.completeOne s₁ d b sl put) := by
  unfold State.completeOne
  try dsimp only
  repeat' with_reducible first
    | intro _ | simp only [↓Keeps.upd_iff] | assumption | apply h_put | apply keeps_ite
    | refine keeps_translateAll_eq ?_ _ _ _ _ (by assumption) | apply keeps_translateAll | apply keeps_placeMove
    | apply keeps_deliveryDone | split

theorem keeps_completeTo {s₀ s₁ : State} (h₀ : Keeps s₀ s₁) (d : Nat) (b : Nat) (sl : Nat) (n : Nat) (put : Sys2Proof.Machine.State → Nat → Nat → Sys2Proof.Machine.State) (h_put : ∀ x (y0 : Nat) (y1 : Nat), Keeps s₀ x → Keeps s₀ (put x y0 y1)) :
    Keeps s₀ (State.completeTo s₁ d b sl n put) := by
  unfold State.completeTo
  try dsimp only
  repeat' with_reducible first
    | intro _ | simp only [↓Keeps.upd_iff] | assumption | apply h_put | apply keeps_ite | apply keeps_foldNat
    | apply keeps_completeOne | dsimp only [Option.getD] | split

theorem keeps_slotCtrl {s₀ s₁ : State} (h₀ : Keeps s₀ s₁) (d : Nat) (b : Nat) (sl : Nat) (v : Nat) :
    Keeps s₀ (State.slotCtrl s₁ d b sl v) := by
  unfold State.slotCtrl
  try dsimp only
  repeat' with_reducible first
    | intro _ | simp only [↓Keeps.upd_iff] | assumption | apply keeps_ite | apply keeps_cancelSlot
    | apply keeps_abortSlot | apply keeps_pumpSlot | apply keeps_onPair | split

theorem keeps_partnerIdle {s₀ s₁ : State} (h₀ : Keeps s₀ s₁) (d : Nat) (b : Nat) (sl : Nat) :
    Keeps s₀ (State.partnerIdle s₁ d b sl) := by
  unfold State.partnerIdle
  try dsimp only
  repeat' with_reducible first
    | intro _ | simp only [↓Keeps.upd_iff] | assumption | apply keeps_ite | apply keeps_ite1 | apply keeps_ite2
    | apply keeps_ite22 | apply keeps_foldl | apply keeps_foldl1 | apply keeps_foldl2 | apply keeps_foldNat
    | apply keeps_then | apply keeps_iteC | simp only [id_eq] | apply keeps_setSlot | dsimp only | split

theorem keeps_slotCtrlWrite {s₀ s₁ : State} (h₀ : Keeps s₀ s₁) (w : Sys2Proof.Writer) (d : Nat) (b : Nat) (sl : Nat) (v : Nat) :
    Keeps s₀ (State.slotCtrlWrite s₁ w d b sl v) := by
  unfold State.slotCtrlWrite
  try dsimp only
  repeat' with_reducible first
    | intro _ | simp only [↓Keeps.upd_iff] | assumption | apply keeps_ite | apply keeps_then | apply keeps_write1
    | apply keeps_slotCtrl | split

theorem keeps_slotStops {s₀ s₁ : State} (h₀ : Keeps s₀ s₁) (d : Nat) (b : Nat) (sl : Nat) (p : Nat) (q : Sys2Proof.Machine.StreamDesc) (pos : Nat) (f : Sys2Proof.PageFault) (put : Sys2Proof.Machine.State → Nat → Nat → Sys2Proof.Machine.State) (h_put : ∀ x (y0 : Nat) (y1 : Nat), Keeps s₀ x → Keeps s₀ (put x y0 y1)) :
    Keeps s₀ (State.slotStops s₁ d b sl p q pos f put) := by
  unfold State.slotStops
  try dsimp only
  repeat' with_reducible first
    | intro _ | simp only [↓Keeps.upd_iff] | assumption | apply h_put | apply keeps_ite | apply keeps_ite1
    | apply keeps_ite2 | apply keeps_ite22 | apply keeps_foldl | apply keeps_foldl1 | apply keeps_foldl2
    | apply keeps_foldNat | apply keeps_then | apply keeps_iteC | simp only [id_eq] | apply keeps_pumpSlot
    | apply keeps_completeTo | apply keeps_placeMove | apply keeps_setSlot | apply keeps_settleWrites
    | apply keeps_slotFaults | dsimp only | split

theorem keeps_slotPageFault {s₀ s₁ : State} (h₀ : Keeps s₀ s₁) (d : Nat) (b : Nat) (sl : Nat) (f : Sys2Proof.PageFault) (put : Sys2Proof.Machine.State → Nat → Nat → Sys2Proof.Machine.State) (h_put : ∀ x (y0 : Nat) (y1 : Nat), Keeps s₀ x → Keeps s₀ (put x y0 y1)) :
    Keeps s₀ (State.slotPageFault s₁ d b sl f put) := by
  unfold State.slotPageFault
  try dsimp only
  repeat' with_reducible first
    | intro _ | simp only [↓Keeps.upd_iff] | assumption | apply h_put | apply keeps_ite | apply keeps_ite1
    | apply keeps_ite2 | apply keeps_ite22 | apply keeps_foldl | apply keeps_foldl1 | apply keeps_foldl2
    | apply keeps_foldNat | apply keeps_then | apply keeps_iteC | simp only [id_eq] | apply keeps_againFault
    | apply keeps_slotStops | dsimp only | split

theorem keeps_startSlot {s₀ s₁ : State} (h₀ : Keeps s₀ s₁) (d : Nat) (b : Nat) (sl : Nat) :
    Keeps s₀ (State.startSlot s₁ d b sl) := by
  unfold State.startSlot
  try dsimp only
  repeat' with_reducible first
    | intro _ | simp only [↓Keeps.upd_iff] | assumption | apply keeps_ite | apply keeps_setSlot
    | apply keeps_partnerIdle | apply keeps_pumpSlot | split

theorem keeps_suDelivery {s₀ s₁ : State} (h₀ : Keeps s₀ s₁) (d : Nat) (b : Nat) (sl : Nat) (put : Sys2Proof.Machine.State → Nat → Nat → Sys2Proof.Machine.State) (h_put : ∀ x (y0 : Nat) (y1 : Nat), Keeps s₀ x → Keeps s₀ (put x y0 y1)) :
    Keeps s₀ (State.suDelivery s₁ d b sl put) := by
  unfold State.suDelivery
  try dsimp only
  repeat' with_reducible first
    | intro _ | simp only [↓Keeps.upd_iff] | assumption | apply h_put | apply keeps_ite | apply keeps_setSlot
    | apply keeps_pumpSlot | apply keeps_completeOne | dsimp only [Option.getD] | split

/-! ### Witness -/

theorem keeps_unchecked {s₀ s₁ : State} (h₀ : Keeps s₀ s₁) (d : Nat) :
    Keeps s₀ (State.unchecked s₁ d) := by
  unfold State.unchecked
  try dsimp only
  repeat' with_reducible first
    | intro _ | simp only [↓Keeps.upd_iff] | assumption | apply keeps_ite | apply keeps_setErr | apply keeps_incF
    | split

theorem keeps_dupAbandon {s₀ s₁ : State} (h₀ : Keeps s₀ s₁) (p : Sys2Proof.Machine.DupJob → Bool) :
    Keeps s₀ (State.dupAbandon s₁ p) := by
  unfold State.dupAbandon
  try dsimp only
  repeat' with_reducible first
    | intro _ | simp only [↓Keeps.upd_iff] | assumption | apply keeps_ite | apply keeps_foldl
    | apply keeps_unchecked | split

theorem keeps_copyStaging {s₀ s₁ : State} (h₀ : Keeps s₀ s₁) (d : Nat) (b : Nat) (cd : Nat) (cb : Nat) (r : Nat × Nat) :
    Keeps s₀ (State.copyStaging s₁ d b cd cb r) := by
  unfold State.copyStaging
  try dsimp only
  repeat' with_reducible first
    | intro _ | simp only [↓Keeps.upd_iff] | assumption | apply keeps_ite | apply keeps_ite1 | apply keeps_ite2
    | apply keeps_ite22 | apply keeps_foldl | apply keeps_foldl1 | apply keeps_foldl2 | apply keeps_foldNat
    | apply keeps_then | apply keeps_iteC | simp only [id_eq] | apply keeps_stgPutBytes | dsimp only | split

theorem keeps_copyChecker {s₀ s₁ : State} (h₀ : Keeps s₀ s₁) (d : Nat) (b : Nat) (t : Sys2Proof.Machine.TileDesc) (rows : Nat) (cols : Nat) :
    Keeps s₀ (State.copyChecker s₁ d b t rows cols) := by
  unfold State.copyChecker
  try dsimp only
  repeat' with_reducible first
    | intro _ | simp only [↓Keeps.upd_iff] | assumption | apply keeps_ite | apply keeps_ite1 | apply keeps_ite2
    | apply keeps_ite22 | apply keeps_foldl | apply keeps_foldl1 | apply keeps_foldl2 | apply keeps_foldNat
    | apply keeps_then | apply keeps_iteC | simp only [id_eq] | apply keeps_copyStaging | dsimp only | split

theorem keeps_putWit {s₀ s₁ : State} (h₀ : Keeps s₀ s₁) (x : Nat) (e : Sys2Proof.Machine.WitEntry) :
    Keeps s₀ (State.putWit s₁ x e) := by
  unfold State.putWit
  try dsimp only
  repeat' with_reducible first
    | intro _ | simp only [↓Keeps.upd_iff] | assumption | apply keeps_ite
    | refine keeps_partPublish_eq ?_ _ _ (by assumption) | apply keeps_partPublish | apply keeps_noCert
    | apply keeps_setErr | split

theorem keeps_dupPrim {s₀ s₁ : State} (h₀ : Keeps s₀ s₁) (d : Nat) (b : Nat) (tileId : Nat) (x : Sys2Proof.Machine.Drain) :
    Keeps s₀ (State.dupPrim s₁ d b tileId x) := by
  unfold State.dupPrim
  try dsimp only
  repeat' with_reducible first
    | intro _ | simp only [↓Keeps.upd_iff] | assumption | apply keeps_ite | split

theorem keeps_dupQueue {s₀ s₁ : State} (h₀ : Keeps s₀ s₁) (d : Nat) (b : Nat) (cd : Nat) (lbay : Nat) (r : Sys2Proof.Machine.TileRef) (t : Sys2Proof.Machine.TileDesc) (arb : Bool) (same : Bool) (sameArb : Bool) :
    Keeps s₀ (State.dupQueue s₁ d b cd lbay r t arb same sameArb) := by
  unfold State.dupQueue
  try dsimp only
  repeat' with_reducible first
    | intro _ | simp only [↓Keeps.upd_iff] | assumption | apply keeps_ite | split

theorem keeps_dupBegin {s₀ s₁ : State} (h₀ : Keeps s₀ s₁) (d : Nat) (b : Nat) (chain : List (Sys2Proof.Machine.TileRef × Sys2Proof.Machine.TileDesc)) :
    Keeps s₀ (State.dupBegin s₁ d b chain) := by
  unfold State.dupBegin
  try dsimp only
  repeat' with_reducible first
    | intro _ | simp only [↓Keeps.upd_iff] | assumption | apply keeps_ite | apply keeps_incF | apply keeps_setMxe
    | apply keeps_unchecked | apply keeps_dupQueue | split

theorem keeps_dupCopy {s₀ s₁ : State} (h₀ : Keeps s₀ s₁) (d : Nat) (b : Nat) (t : Sys2Proof.Machine.TileDesc) (rows : Nat) (cols : Nat) :
    Keeps s₀ (State.dupCopy s₁ d b t rows cols) := by
  unfold State.dupCopy
  try dsimp only
  repeat' with_reducible first
    | intro _ | simp only [↓Keeps.upd_iff] | assumption | apply keeps_ite | apply keeps_copyChecker | split

/-! ### Switch -/

theorem keeps_setBayCtx {s₀ s₁ : State} (h₀ : Keeps s₀ s₁) (d : Nat) (b : Nat) (v : Nat) :
    Keeps s₀ (State.setBayCtx s₁ d b v) := by
  unfold State.setBayCtx
  try dsimp only
  repeat' with_reducible first
    | intro _ | simp only [↓Keeps.upd_iff] | assumption | apply keeps_ite | split

theorem keeps_freshBay {s₀ s₁ : State} (h₀ : Keeps s₀ s₁) (d : Nat) (b : Nat) :
    Keeps s₀ (State.freshBay s₁ d b) := by
  unfold State.freshBay
  try dsimp only
  repeat' with_reducible first
    | intro _ | simp only [↓Keeps.upd_iff] | assumption | apply keeps_ite | split

theorem keeps_saveBad {s₀ s₁ : State} (h₀ : Keeps s₀ s₁) (id : Nat) (bad : List Nat) :
    Keeps s₀ (State.saveBad s₁ id bad) := by
  unfold State.saveBad
  try dsimp only
  repeat' with_reducible first
    | intro _ | simp only [↓Keeps.upd_iff] | assumption | apply keeps_ite | apply keeps_ite1 | apply keeps_ite2
    | apply keeps_ite22 | apply keeps_foldl | apply keeps_foldl1 | apply keeps_foldl2 | apply keeps_foldNat
    | apply keeps_then | apply keeps_iteC | simp only [id_eq] | apply keeps_endStep | dsimp only | split

theorem putAcc_wf {t : Tab Byte} (k : Nat) (wide : Bool) (acc : List (List Nat)) (w : Tab.wf (fun _ => (0 : Byte)) t = true) :
    Tab.wf (fun _ => (0 : Byte)) (putAcc t k wide acc) = true :=
  Tab.wf_foldl_step _ _ (fun _ _ w => putBytes_wf _ _ w) w

theorem putBanks_wf (s : State) {t : Tab Byte} (k : Nat) (m : Mxe) (w : Tab.wf (fun _ => (0 : Byte)) t = true) :
    Tab.wf (fun _ => (0 : Byte)) (s.putBanks t k m) = true :=
  putAcc_wf _ _ _ (Tab.wf_foldl_step _ _ (fun _ _ w => putAcc_wf _ _ _ w) w)
theorem savePut_wf {t : Tab Byte} (s : State) (l : Tab Byte) (p : Nat → Bool) (a b c e : Nat) (xs ys zs : List Byte)
    (m : Mxe) (w : Tab.wf (fun _ => (0 : Byte)) t = true) : Tab.wf (fun _ => (0 : Byte)) (putBytes (putBytes (s.putBanks (putBytes (l.foldl (fun (t : Tab Byte) (e : Nat × Byte) => Tab.set 0 t e.1 e.2) (Tab.keep p t)) a xs) b m) c ys) e zs) = true :=
  putBytes_wf _ _ (putBytes_wf _ _ (putBanks_wf _ _ _ (putBytes_wf _ _ (Tab.wf_foldl_set _ _ _ (Tab.wf_keep _ w)))))
theorem keeps_saveBytes {s₀ s₁ : State} (h₀ : Keeps s₀ s₁) (d b id k : Nat) (forced : Bool) : Keeps s₀ (s₁.saveBytes d b id k forced) := by
  have key : ∀ (s : State) (l : Tab Byte) (p : Nat → Bool) (a b c e n n₁ : Nat) (xs ys zs : List Byte) (m : Mxe), Keeps s₀ s → 
     Keeps s₀ (({ s with mem := { s.mem with bytes := putBytes (putBytes (s.putBanks (putBytes (l.foldl (fun (t : Tab Byte) (e : Nat × Byte) => Tab.set 0 t e.1 e.2) (Tab.keep p s.mem.bytes)) a xs) b m) c ys) e zs } }.evalWatches k n).took n₁) := by
    intro s l p a b c e n n₁ xs ys zs m h
    refine keeps_took (keeps_evalWatches ?_ _ _) _
    exact Keeps.setMem h _ (fun w => savePut_wf _ _ _ _ _ _ _ _ _ _ _ w) (fun w => w) (fun w => w) (fun w => w)
  unfold State.saveBytes
  apply key
  refine keeps_foldl (keeps_foldl (keeps_saveBad (keeps_checkSecs (keeps_foldl h₀ fun _ _ h => keeps_lookSector h _) _ _) _ _)
    fun _ _ h => keeps_clearBad h _) fun _ _ h => keeps_rehCorrupt (keeps_dirtySector h _) _

theorem keeps_saveBay {s₀ s₁ : State} (h₀ : Keeps s₀ s₁) (d : Nat) (b : Nat) (forced : Bool) :
    Keeps s₀ (State.saveBay s₁ d b forced) := by
  unfold State.saveBay
  try dsimp only
  repeat' with_reducible first
    | intro _ | simp only [↓Keeps.upd_iff] | assumption | apply keeps_ite | apply keeps_foldl
    | apply keeps_endSlotTracks | apply keeps_setSlot | apply keeps_saveBytes | apply keeps_progress | split

theorem keeps_settleSwitch {s₀ s₁ : State} (h₀ : Keeps s₀ s₁) (d : Nat) (b : Nat) :
    Keeps s₀ (State.settleSwitch s₁ d b) := by
  unfold State.settleSwitch
  try dsimp only
  repeat' with_reducible first
    | intro _ | simp only [↓Keeps.upd_iff] | assumption | apply keeps_ite | apply keeps_foldl | apply keeps_foldNat
    | apply keeps_settleBay | apply keeps_pumpSlot | apply keeps_completeOne | dsimp only [Option.getD] | split

theorem keeps_loadStaging {s₀ s₁ : State} (h₀ : Keeps s₀ s₁) (d : Nat) (b : Nat) (k : Nat) :
    Keeps s₀ (State.loadStaging s₁ d b k) := by
  unfold State.loadStaging
  refine ⟨h₀.regs, h₀.inForce, h₀.mem, fun w => ?_, h₀.fuses, h₀.seq⟩
  refine Tab.wf_foldl_step _ _ (fun t x wt => Tab.wf_foldl_set _ _ _ wt) ?_
  exact Tab.wf_foldl_set _ _ _ (Tab.wf_keep _ (h₀.staging w))

theorem keeps_readSaved {s₀ s₁ : State} (h₀ : Keeps s₀ s₁) (id : Nat) (k : Nat) (spare : List (Nat × Nat)) :
    Keeps s₀ (State.readSaved s₁ id k spare) := by
  unfold State.readSaved
  try dsimp only
  repeat' with_reducible first
    | intro _ | simp only [↓Keeps.upd_iff] | assumption | apply keeps_ite | apply keeps_ite1 | apply keeps_ite2
    | apply keeps_ite22 | apply keeps_foldl | apply keeps_foldl1 | apply keeps_foldl2 | apply keeps_foldNat
    | apply keeps_then | apply keeps_iteC | simp only [id_eq] | apply keeps_checkSecs | apply keeps_lookSector
    | apply keeps_saveBad | dsimp only | split

theorem keeps_resumeSlot {s₀ s₁ : State} (h₀ : Keeps s₀ s₁) (d : Nat) (b : Nat) (sl : Nat) :
    Keeps s₀ (State.resumeSlot s₁ d b sl) := by
  unfold State.resumeSlot
  try dsimp only
  repeat' with_reducible first
    | intro _ | simp only [↓Keeps.upd_iff] | assumption | apply keeps_ite | apply keeps_foldl | apply keeps_took
    | apply keeps_stgPutBytes | apply keeps_setPair | split

theorem keeps_restoreBay {s₀ s₁ : State} (h₀ : Keeps s₀ s₁) (d : Nat) (b : Nat) (id : Nat) :
    Keeps s₀ (State.restoreBay s₁ d b id) := by
  unfold State.restoreBay
  try dsimp only
  repeat' with_reducible first
    | intro _ | simp only [↓Keeps.upd_iff] | assumption | apply keeps_ite | apply keeps_foldl
    | apply keeps_freshBay | apply keeps_readSaved | apply keeps_setVxe | apply keeps_setMxe | apply keeps_setSlot
    | apply keeps_took | apply keeps_loadStaging | apply keeps_setBayCtx | apply keeps_progress
    | apply keeps_setSwitching | apply keeps_resumeSlot | apply keeps_incF | apply keeps_pumpSlot | split

/-! ### Contexts -/

theorem keeps_dropOwnReads {s₀ s₁ : State} (h₀ : Keeps s₀ s₁) (id : Nat) :
    Keeps s₀ (State.dropOwnReads s₁ id) := by
  unfold State.dropOwnReads
  try dsimp only
  repeat' with_reducible first
    | intro _ | simp only [↓Keeps.upd_iff] | assumption | apply keeps_ite | apply keeps_ite1 | apply keeps_ite2
    | apply keeps_ite22 | apply keeps_foldl | apply keeps_foldl1 | apply keeps_foldl2 | apply keeps_foldNat
    | apply keeps_then | apply keeps_iteC | simp only [id_eq] | apply keeps_incF | dsimp only | split

theorem keeps_savedWithdraw {s₀ s₁ : State} (h₀ : Keeps s₀ s₁) (id : Nat) :
    Keeps s₀ (State.savedWithdraw s₁ id) := by
  unfold State.savedWithdraw
  try dsimp only
  repeat' with_reducible first
    | intro _ | simp only [↓Keeps.upd_iff] | assumption | apply keeps_ite | apply keeps_foldl
    | apply keeps_fqWithdraw | split

theorem keeps_markTracks {s₀ s₁ : State} (h₀ : Keeps s₀ s₁) (id : Nat) :
    Keeps s₀ (State.markTracks s₁ id) := by
  unfold State.markTracks
  try dsimp only
  repeat' with_reducible first
    | intro _ | simp only [↓Keeps.upd_iff] | assumption | apply keeps_ite | split

theorem keeps_vxeDiscard {s₀ s₁ : State} (h₀ : Keeps s₀ s₁) (d : Nat) (b : Nat) :
    Keeps s₀ (State.vxeDiscard s₁ d b) := by
  unfold State.vxeDiscard
  try dsimp only
  repeat' with_reducible first
    | intro _ | simp only [↓Keeps.upd_iff] | assumption | apply keeps_ite | apply keeps_setErr
    | apply keeps_noCertBay | apply keeps_setVxe | split

theorem keeps_mxeDiscard {s₀ s₁ : State} (h₀ : Keeps s₀ s₁) (d : Nat) (b : Nat) :
    Keeps s₀ (State.mxeDiscard s₁ d b) := by
  unfold State.mxeDiscard
  try dsimp only
  repeat' with_reducible first
    | intro _ | simp only [↓Keeps.upd_iff] | assumption | apply keeps_ite | apply keeps_setErr
    | apply keeps_noCertBay | apply keeps_dupAbandon | apply keeps_setGather | apply keeps_setMxe | split

theorem keeps_setCtx {s₀ s₁ : State} (h₀ : Keeps s₀ s₁) (id : Nat) (c : Sys2Proof.Machine.Ctx) :
    Keeps s₀ (State.setCtx s₁ id c) := by
  unfold State.setCtx
  try dsimp only
  repeat' with_reducible first
    | intro _ | simp only [↓Keeps.upd_iff] | assumption | apply keeps_ite
    | refine keeps_partPublish_eq ?_ _ _ (by assumption) | apply keeps_partPublish | split

theorem keeps_inval {s₀ s₁ : State} (h₀ : Keeps s₀ s₁) (id : Nat) (first : Nat) (hi : Nat) :
    Keeps s₀ (State.inval s₁ id first hi) := by
  unfold State.inval
  try dsimp only
  repeat' with_reducible first
    | intro _ | simp only [↓Keeps.upd_iff] | assumption | apply keeps_ite | split

theorem keeps_invalAll {s₀ s₁ : State} (h₀ : Keeps s₀ s₁) (id : Nat) :
    Keeps s₀ (State.invalAll s₁ id) := by
  unfold State.invalAll
  try dsimp only
  repeat' with_reducible first
    | intro _ | simp only [↓Keeps.upd_iff] | assumption | apply keeps_ite | apply keeps_inval | split

theorem keeps_teardown {s₀ s₁ : State} (h₀ : Keeps s₀ s₁) (id : Nat) :
    Keeps s₀ (State.teardown s₁ id) := by
  unfold State.teardown
  try dsimp only
  repeat' with_reducible first
    | intro _ | simp only [↓Keeps.upd_iff] | assumption | apply keeps_ite | apply keeps_foldl
    | apply keeps_dropOwnReads | apply keeps_savedWithdraw | apply keeps_markTracks | apply keeps_settleBay
    | apply keeps_cancelBay | apply keeps_vxeDiscard | apply keeps_mxeDiscard | apply keeps_setSwitching
    | apply keeps_setBayCtx | apply keeps_setCtx | apply keeps_dropWatches | apply keeps_invalAll | split

theorem keeps_hwTeardown {s₀ s₁ : State} (h₀ : Keeps s₀ s₁) (id : Nat) :
    Keeps s₀ (State.hwTeardown s₁ id) := by
  unfold State.hwTeardown
  try dsimp only
  repeat' with_reducible first
    | intro _ | simp only [↓Keeps.upd_iff] | assumption | apply keeps_ite | apply keeps_teardown | split

theorem keeps_dropXlat {s₀ s₁ : State} (h₀ : Keeps s₀ s₁) (d : Nat) (id : Nat) :
    Keeps s₀ (State.dropXlat s₁ d id) := by
  unfold State.dropXlat
  try dsimp only
  repeat' with_reducible first
    | intro _ | simp only [↓Keeps.upd_iff] | assumption | apply keeps_ite | split

theorem keeps_setResid {s₀ s₁ : State} (h₀ : Keeps s₀ s₁) (d : Nat) (id : Nat) (res : Nat) (slot : Nat) :
    Keeps s₀ (State.setResid s₁ d id res slot) := by
  unfold State.setResid
  try dsimp only
  repeat' with_reducible first
    | intro _ | simp only [↓Keeps.upd_iff] | assumption | apply keeps_ite | apply keeps_incF | apply keeps_dropXlat
    | split

theorem keeps_ctxStat {s₀ s₁ : State} (h₀ : Keeps s₀ s₁) (busy : Bool) (op : Nat) (res : Nat) (id : Nat) :
    Keeps s₀ (State.ctxStat s₁ busy op res id) := by
  unfold State.ctxStat
  try dsimp only
  repeat' with_reducible first
    | intro _ | simp only [↓Keeps.upd_iff] | assumption | apply keeps_ite | apply keeps_wr | split

theorem keeps_ctxDone {s₀ s₁ : State} (h₀ : Keeps s₀ s₁)  :
    Keeps s₀ (State.ctxDone s₁) := by
  unfold State.ctxDone
  try dsimp only
  repeat' with_reducible first
    | intro _ | simp only [↓Keeps.upd_iff] | assumption | apply keeps_ite | apply keeps_ctxStat | split

theorem keeps_stopCheck {s₀ s₁ : State} (h₀ : Keeps s₀ s₁) (id : Nat) :
    Keeps s₀ (State.stopCheck s₁ id) := by
  unfold State.stopCheck
  try dsimp only
  repeat' with_reducible first
    | intro _ | simp only [↓Keeps.upd_iff] | assumption | apply keeps_ite | apply keeps_setCtx
    | apply keeps_ctxDone | split

theorem keeps_ctxBusy {s₀ s₁ : State} (h₀ : Keeps s₀ s₁) (op : Nat) (id : Nat) :
    Keeps s₀ (State.ctxBusy s₁ op id) := by
  unfold State.ctxBusy
  try dsimp only
  repeat' with_reducible first
    | intro _ | simp only [↓Keeps.upd_iff] | assumption | apply keeps_ite | apply keeps_ctxStat | split

theorem keeps_invalGo {s₀ s₁ : State} (h₀ : Keeps s₀ s₁)  :
    Keeps s₀ (State.invalGo s₁) := by
  unfold State.invalGo
  try dsimp only
  repeat' with_reducible first
    | intro _ | simp only [↓Keeps.upd_iff] | assumption | apply keeps_ite | apply keeps_ite1 | apply keeps_ite2
    | apply keeps_ite22 | apply keeps_foldl | apply keeps_foldl1 | apply keeps_foldl2 | apply keeps_foldNat
    | apply keeps_then | apply keeps_iteC | simp only [id_eq] | apply keeps_ctxDone | dsimp only | split

theorem keeps_invalRange {s₀ s₁ : State} (h₀ : Keeps s₀ s₁) (id : Nat) :
    Keeps s₀ (State.invalRange s₁ id) := by
  unfold State.invalRange
  try dsimp only
  repeat' with_reducible first
    | intro _ | simp only [↓Keeps.upd_iff] | assumption | apply keeps_ite | apply keeps_inval | split

theorem keeps_ctxAct {s₀ s₁ : State} (h₀ : Keeps s₀ s₁) (op : Nat) (id : Nat) :
    Keeps s₀ (State.ctxAct s₁ op id) := by
  unfold State.ctxAct
  try dsimp only
  repeat' with_reducible first
    | intro _ | simp only [↓Keeps.upd_iff] | assumption | apply keeps_ite | apply keeps_foldl | apply keeps_ctxStat
    | apply keeps_setCtx | apply keeps_setResid | apply keeps_stopCheck | apply keeps_ctxBusy
    | apply keeps_teardown | apply keeps_markTracks | apply keeps_invalGo | apply keeps_invalAll
    | apply keeps_invalRange | split

theorem keeps_ctxCommand {s₀ s₁ : State} (h₀ : Keeps s₀ s₁) (v : Nat) :
    Keeps s₀ (State.ctxCommand s₁ v) := by
  unfold State.ctxCommand
  try dsimp only
  repeat' with_reducible first
    | intro _ | simp only [↓Keeps.upd_iff] | assumption | apply keeps_ite | apply keeps_wrF | apply keeps_touch
    | apply keeps_ctxAct | apply keeps_ctxStat | split

theorem keeps_ctxCmdWrite {s₀ s₁ : State} (h₀ : Keeps s₀ s₁) (w : Sys2Proof.Writer) (op : Nat) (id : Nat) :
    Keeps s₀ (State.ctxCmdWrite s₁ w op id) := by
  unfold State.ctxCmdWrite
  try dsimp only
  repeat' with_reducible first
    | intro _ | simp only [↓Keeps.upd_iff] | assumption | apply keeps_ite | apply keeps_then | apply keeps_write1
    | apply keeps_ctxCommand | split

theorem keeps_ctxFree {s₀ s₁ : State} (h₀ : Keeps s₀ s₁) (id : Nat) :
    Keeps s₀ (State.ctxFree s₁ id) := by
  unfold State.ctxFree
  try dsimp only
  repeat' with_reducible first
    | intro _ | simp only [↓Keeps.upd_iff] | assumption | apply keeps_ite | apply keeps_foldl
    | apply keeps_setResid | apply keeps_setCtx | split

theorem keeps_evictBay {s₀ s₁ : State} (h₀ : Keeps s₀ s₁) (d : Nat) (b : Nat) (id : Nat) :
    Keeps s₀ (State.evictBay s₁ d b id) := by
  unfold State.evictBay
  try dsimp only
  repeat' with_reducible first
    | intro _ | simp only [↓Keeps.upd_iff] | assumption | apply keeps_ite | apply keeps_setSwitching
    | apply keeps_setBayCtx | apply keeps_freshBay | apply keeps_saveBay | apply keeps_settleSwitch | split

theorem keeps_faultqTail {s₀ s₁ : State} (h₀ : Keeps s₀ s₁) (d : Nat) :
    Keeps s₀ (State.faultqTail s₁ d) := by
  unfold State.faultqTail
  try dsimp only
  repeat' with_reducible first
    | intro _ | simp only [↓Keeps.upd_iff] | assumption | apply keeps_ite | apply keeps_fqDrain | split

theorem keeps_fenceEnd {s₀ s₁ : State} (h₀ : Keeps s₀ s₁) (byTime : Bool) :
    Keeps s₀ (State.fenceEnd s₁ byTime) := by
  unfold State.fenceEnd
  try dsimp only
  repeat' with_reducible first
    | intro _ | simp only [↓Keeps.upd_iff] | assumption | apply keeps_ite | apply keeps_ctxDone | apply keeps_wrF
    | apply keeps_ctxFree | split

theorem keeps_hwFences {s₀ s₁ : State} (h₀ : Keeps s₀ s₁)  :
    Keeps s₀ (State.hwFences s₁) := by
  unfold State.hwFences
  try dsimp only
  repeat' with_reducible first
    | intro _ | simp only [↓Keeps.upd_iff] | assumption | apply keeps_ite | apply keeps_foldl | apply keeps_ctxFree
    | apply keeps_ctxDone | split

theorem keeps_letIn {s₀ s₁ : State} (h₀ : Keeps s₀ s₁) (d : Nat) :
    Keeps s₀ (State.letIn s₁ d) := by
  unfold State.letIn
  try dsimp only
  repeat' with_reducible first
    | intro _ | simp only [↓Keeps.upd_iff] | assumption | apply keeps_ite | apply keeps_foldl
    | apply keeps_setResid | split

/-! ### ShortPath -/

theorem keeps_echo {s₀ s₁ : State} (h₀ : Keeps s₀ s₁) (p : Sys2Proof.SpPort) :
    Keeps s₀ (State.echo s₁ p) := by
  unfold State.echo
  try dsimp only
  repeat' with_reducible first
    | intro _ | simp only [↓Keeps.upd_iff] | assumption | apply keeps_ite | apply keeps_setPort | split

theorem keeps_spCount {s₀ s₁ : State} (h₀ : Keeps s₀ s₁) (p : Sys2Proof.SpPort) (lo : Nat) (n : Nat) :
    Keeps s₀ (State.spCount s₁ p lo n) := by
  unfold State.spCount
  try dsimp only
  repeat' with_reducible first
    | intro _ | simp only [↓Keeps.upd_iff] | assumption | apply keeps_ite | apply keeps_incF | split

theorem keeps_spIssue {s₀ s₁ : State} (h₀ : Keeps s₀ s₁) (p : Sys2Proof.SpPort) (t : Sys2Proof.SpTransfer) :
    Keeps s₀ (State.spIssue s₁ p t) := by
  unfold State.spIssue
  try dsimp only
  repeat' with_reducible first
    | intro _ | simp only [↓Keeps.upd_iff] | assumption | apply keeps_ite | apply keeps_ite1 | apply keeps_ite2
    | apply keeps_ite22 | apply keeps_foldl | apply keeps_foldl1 | apply keeps_foldl2 | apply keeps_foldNat
    | apply keeps_then | apply keeps_iteC | simp only [id_eq] | apply keeps_spCount | apply keeps_openTrack
    | apply keeps_send | apply keeps_setErr | apply keeps_endStep | apply keeps_sendCt | dsimp only | split

theorem keeps_spRefused {s₀ s₁ : State} (h₀ : Keeps s₀ s₁) (p : Sys2Proof.SpPort) (t : Sys2Proof.SpTransfer) :
    Keeps s₀ (State.spRefused s₁ p t) := by
  unfold State.spRefused
  try dsimp only
  repeat' with_reducible first
    | intro _ | simp only [↓Keeps.upd_iff] | assumption | apply keeps_ite | apply keeps_setErr
    | apply keeps_spCount | apply keeps_send | split

/-! ### Matrix -/

theorem keeps_gatherOwn {s₀ s₁ : State} (h₀ : Keeps s₀ s₁) (d : Nat) (b : Nat) (x : Nat × Nat × Nat) :
    Keeps s₀ (State.gatherOwn s₁ d b x) := by
  unfold State.gatherOwn
  try dsimp only
  repeat' with_reducible first
    | intro _ | simp only [↓Keeps.upd_iff] | assumption | apply keeps_ite | apply keeps_ite1 | apply keeps_ite2
    | apply keeps_ite22 | apply keeps_foldl | apply keeps_foldl1 | apply keeps_foldl2 | apply keeps_foldNat
    | apply keeps_then | apply keeps_iteC | simp only [id_eq] | apply keeps_endStep | apply keeps_reportReq
    | apply keeps_touch | apply keeps_took | apply keeps_stgPutBytes | dsimp only | split

theorem keeps_setPlacing {s₀ s₁ : State} (h₀ : Keeps s₀ s₁) (d : Nat) (b : Nat) (g : Option Sys2Proof.Machine.GatherRun) :
    Keeps s₀ (State.setPlacing s₁ d b g) := by
  unfold State.setPlacing
  try dsimp only
  repeat' with_reducible first
    | intro _ | simp only [↓Keeps.upd_iff] | assumption | apply keeps_ite | apply keeps_ite1 | apply keeps_ite2
    | apply keeps_ite22 | apply keeps_foldl | apply keeps_foldl1 | apply keeps_foldl2 | apply keeps_foldNat
    | apply keeps_then | apply keeps_iteC | simp only [id_eq] | apply keeps_setGather | dsimp only | split

theorem keeps_gatherRemote {s₀ s₁ : State} (h₀ : Keeps s₀ s₁) (d : Nat) (b : Nat) (t : Nat) (run : Sys2Proof.Machine.GatherRun) (x : Nat × Nat × Nat) :
    Keeps s₀ (State.gatherRemote s₁ d b t run x) := by
  unfold State.gatherRemote
  try dsimp only
  repeat' with_reducible first
    | intro _ | simp only [↓Keeps.upd_iff] | assumption | apply keeps_ite | apply keeps_ite1 | apply keeps_ite2
    | apply keeps_ite22 | apply keeps_foldl | apply keeps_foldl1 | apply keeps_foldl2 | apply keeps_foldNat
    | apply keeps_then | apply keeps_iteC | simp only [id_eq] | apply keeps_openTrack | apply keeps_setPlacing
    | apply keeps_sendCt | dsimp only | split

theorem keeps_gatherOne {s₀ s₁ : State} (h₀ : Keeps s₀ s₁) (d : Nat) (b : Nat) :
    Keeps s₀ (State.gatherOne s₁ d b) := by
  unfold State.gatherOne
  try dsimp only
  repeat' with_reducible first
    | intro _ | simp only [↓Keeps.upd_iff] | assumption | apply keeps_ite | apply keeps_ite1 | apply keeps_ite2
    | apply keeps_ite22 | apply keeps_foldl | apply keeps_foldl1 | apply keeps_foldl2 | apply keeps_foldNat
    | apply keeps_then | apply keeps_iteC | simp only [id_eq] | apply keeps_gatherOwn | apply keeps_setPlacing
    | apply keeps_endStep | apply keeps_setErr | apply keeps_gatherRemote | dsimp only | split

theorem keeps_gatherIssue {s₀ s₁ : State} (h₀ : Keeps s₀ s₁) (d : Nat) (b : Nat) :
    Keeps s₀ (State.gatherIssue s₁ d b) := by
  unfold State.gatherIssue
  try dsimp only
  repeat' with_reducible first
    | intro _ | simp only [↓Keeps.upd_iff] | assumption | apply keeps_ite | apply keeps_ite1 | apply keeps_ite2
    | apply keeps_ite22 | apply keeps_foldl | apply keeps_foldl1 | apply keeps_foldl2 | apply keeps_foldNat
    | apply keeps_then | apply keeps_iteC | simp only [id_eq] | apply keeps_gatherOne | dsimp only | split

theorem keeps_gatherReply {s₀ s₁ : State} (h₀ : Keeps s₀ s₁) (d : Nat) (b : Nat) (t : Nat) (data : List Sys2Proof.Byte) :
    Keeps s₀ (State.gatherReply s₁ d b t data) := by
  unfold State.gatherReply
  try dsimp only
  repeat' with_reducible first
    | intro _ | simp only [↓Keeps.upd_iff] | assumption | apply keeps_ite | apply keeps_ite1 | apply keeps_ite2
    | apply keeps_ite22 | apply keeps_foldl | apply keeps_foldl1 | apply keeps_foldl2 | apply keeps_foldNat
    | apply keeps_then | apply keeps_iteC | simp only [id_eq] | apply keeps_took | apply keeps_stgPutBytes
    | apply keeps_gatherIssue | apply keeps_setPlacing | dsimp only | split

theorem keeps_rehFlip {s₀ s₁ : State} (h₀ : Keeps s₀ s₁) (d : Nat) (b : Nat) (t : Sys2Proof.Machine.TileDesc) (rows : Nat) (sampled : Bool) :
    Keeps s₀ (State.rehFlip s₁ d b t rows sampled).1 := by
  unfold State.rehFlip
  try dsimp only
  repeat' with_reducible first
    | intro _ | simp only [↓Keeps.upd_iff] | assumption | apply keeps_ite | apply keeps_rehInject
    | apply keeps_took | split
theorem keeps_rehFlip_eq {s₀ s₁ : State} (h₀ : Keeps s₀ s₁) (d : Nat) (b : Nat) (t : Sys2Proof.Machine.TileDesc) (rows : Nat) (sampled : Bool) {x₀ y₀}
    (e₀ : (State.rehFlip s₁ d b t rows sampled) = (x₀, y₀)) : Keeps s₀ x₀ := by
  have k := keeps_rehFlip h₀ d b t rows sampled; rw [e₀] at k; exact k

theorem keeps_drainWrite {s₀ s₁ : State} (h₀ : Keeps s₀ s₁) (d : Nat) (b : Nat) (t : Sys2Proof.Machine.TileDesc) (rows : List (List Sys2Proof.Byte)) (scales : List (List Sys2Proof.Byte)) :
    Keeps s₀ (State.drainWrite s₁ d b t rows scales) := by
  unfold State.drainWrite
  try dsimp only
  repeat' with_reducible first
    | intro _ | simp only [↓Keeps.upd_iff] | assumption | apply keeps_ite | apply keeps_foldl
    | apply keeps_stgPutBytes | split

theorem keeps_drainEvent {s₀ s₁ : State} (h₀ : Keeps s₀ s₁) (d : Nat) (b : Nat) (r : Sys2Proof.Machine.TileRef) (t : Sys2Proof.Machine.TileDesc) (e : Sys2Proof.Machine.Ev) :
    Keeps s₀ (State.drainEvent s₁ d b r t e) := by
  unfold State.drainEvent
  try dsimp only
  repeat' with_reducible first
    | intro _ | simp only [↓Keeps.upd_iff] | assumption | apply keeps_ite | apply keeps_wr | apply keeps_setErr
    | apply keeps_markEv | apply keeps_setMxe | apply keeps_lateEvent | split

theorem keeps_drainChain {s₀ s₁ : State} (h₀ : Keeps s₀ s₁) (d : Nat) (b : Nat) (j : Sys2Proof.Machine.DrainJob) (t : Sys2Proof.Machine.TileDesc) (flips : List Sys2Proof.Flip) :
    Keeps s₀ (State.drainChain s₁ d b j t flips) := by
  unfold State.drainChain
  try dsimp only
  repeat' with_reducible first
    | intro _ | simp only [↓Keeps.upd_iff] | assumption | apply keeps_ite
    | refine keeps_rehFlip_eq ?_ _ _ _ _ _ (by assumption) | apply keeps_rehFlip | apply keeps_progress
    | apply keeps_setMxe | apply keeps_drainWrite | apply keeps_stalls | apply keeps_incF | apply keeps_putWit
    | apply keeps_drainEvent | apply keeps_reportAmax | apply keeps_dupPrim | apply keeps_signalGo
    | apply keeps_endCancel | split

theorem keeps_gatherBegin {s₀ s₁ : State} (h₀ : Keeps s₀ s₁) (d : Nat) (b : Nat) (t : Sys2Proof.Machine.TileDesc) (g : List Sys2Proof.GatherSub) (rest : List (List Sys2Proof.GatherSub)) :
    Keeps s₀ (State.gatherBegin s₁ d b t g rest) := by
  unfold State.gatherBegin
  try dsimp only
  repeat' with_reducible first
    | intro _ | simp only [↓Keeps.upd_iff] | assumption | apply keeps_ite | apply keeps_ite1 | apply keeps_ite2
    | apply keeps_ite22 | apply keeps_foldl | apply keeps_foldl1 | apply keeps_foldl2 | apply keeps_foldNat
    | apply keeps_then | apply keeps_iteC | simp only [id_eq] | apply keeps_gatherIssue | apply keeps_setGather
    | dsimp only | split

theorem keeps_gqMap {s₀ s₁ : State} (h₀ : Keeps s₀ s₁) (d : Nat) (b : Nat) (g : List Sys2Proof.GatherSub) :
    Keeps s₀ (State.gqMap s₁ d b g) := by
  unfold State.gqMap
  try dsimp only
  repeat' with_reducible first
    | intro _ | simp only [↓Keeps.upd_iff] | assumption | apply keeps_ite | apply keeps_foldNat | apply keeps_wr
    | split

theorem keeps_mmaTile {s₀ s₁ : State} (h₀ : Keeps s₀ s₁) (d : Nat) (b : Nat) (r : Sys2Proof.Machine.TileRef) (t : Sys2Proof.Machine.TileDesc) (rows : Nat) (held : Nat) (cols : Nat) :
    Keeps s₀ (State.mmaTile s₁ d b r t rows held cols) := by
  unfold State.mmaTile
  try dsimp only
  repeat' with_reducible first
    | intro _ | simp only [↓Keeps.upd_iff] | assumption | apply keeps_ite | apply keeps_noCertBay
    | apply keeps_setErr | apply keeps_took | apply keeps_progress | apply keeps_mxeNext | apply keeps_setMxe
    | split

theorem keeps_mmaStart {s₀ s₁ : State} (h₀ : Keeps s₀ s₁) (d : Nat) (b : Nat) (r : Sys2Proof.Machine.TileRef) (t : Sys2Proof.Machine.TileDesc) :
    Keeps s₀ (State.mmaStart s₁ d b r t) := by
  unfold State.mmaStart
  try dsimp only
  repeat' with_reducible first
    | intro _ | simp only [↓Keeps.upd_iff] | assumption | apply keeps_ite | apply keeps_phaseEnter
    | apply keeps_dupCopy | apply keeps_mmaTile | apply keeps_dupBegin | split

theorem keeps_gatherRun {s₀ s₁ : State} (h₀ : Keeps s₀ s₁) (d : Nat) (b : Nat) (r : Sys2Proof.Machine.TileRef) (t : Sys2Proof.Machine.TileDesc) :
    Keeps s₀ (State.gatherRun s₁ d b r t) := by
  unfold State.gatherRun
  try dsimp only
  repeat' with_reducible first
    | intro _ | simp only [↓Keeps.upd_iff] | assumption | apply keeps_ite | apply keeps_ite1 | apply keeps_ite2
    | apply keeps_ite22 | apply keeps_foldl | apply keeps_foldl1 | apply keeps_foldl2 | apply keeps_foldNat
    | apply keeps_then | apply keeps_iteC | simp only [id_eq] | apply keeps_gqMap | apply keeps_setPlacing
    | apply keeps_setMxe | apply keeps_mmaStart | apply keeps_waitMarks | dsimp only | split

theorem keeps_gqDrop {s₀ s₁ : State} (h₀ : Keeps s₀ s₁) (d : Nat) (b : Nat) (n : Nat) :
    Keeps s₀ (State.gqDrop s₁ d b n) := by
  unfold State.gqDrop
  try dsimp only
  repeat' with_reducible first
    | intro _ | simp only [↓Keeps.upd_iff] | assumption | apply keeps_ite | apply keeps_incF | split

theorem keeps_gqAccept {s₀ s₁ : State} (h₀ : Keeps s₀ s₁) (d : Nat) (b : Nat) (g : Sys2Proof.GatherSub) :
    Keeps s₀ (State.gqAccept s₁ d b g) := by
  unfold State.gqAccept
  try dsimp only
  repeat' with_reducible first
    | intro _ | simp only [↓Keeps.upd_iff] | assumption | apply keeps_ite | apply keeps_setGather | split

theorem keeps_gatherSubmit {s₀ s₁ : State} (h₀ : Keeps s₀ s₁) (d : Nat) (b : Nat) (g : Sys2Proof.GatherSub) :
    Keeps s₀ (State.gatherSubmit s₁ d b g) := by
  unfold State.gatherSubmit
  try dsimp only
  repeat' with_reducible first
    | intro _ | simp only [↓Keeps.upd_iff] | assumption | apply keeps_ite | apply keeps_setErr | apply keeps_gqDrop
    | apply keeps_gqAccept | split

theorem keeps_gqDropWhere {s₀ s₁ : State} (h₀ : Keeps s₀ s₁) (d : Nat) (b : Nat) (p : Sys2Proof.GatherSub → Bool) :
    Keeps s₀ (State.gqDropWhere s₁ d b p) := by
  unfold State.gqDropWhere
  try dsimp only
  repeat' with_reducible first
    | intro _ | simp only [↓Keeps.upd_iff] | assumption | apply keeps_ite | apply keeps_gqDrop
    | apply keeps_setGather | split

theorem keeps_gqCtrlEffect {s₀ s₁ : State} (h₀ : Keeps s₀ s₁) (d : Nat) (b : Nat) :
    Keeps s₀ (State.gqCtrlEffect s₁ d b) := by
  unfold State.gqCtrlEffect
  try dsimp only
  repeat' with_reducible first
    | intro _ | simp only [↓Keeps.upd_iff] | assumption | apply keeps_ite | apply keeps_gqDropWhere
    | apply keeps_setGather | split

theorem keeps_gqSlotsEffect {s₀ s₁ : State} (h₀ : Keeps s₀ s₁) (d : Nat) (b : Nat) :
    Keeps s₀ (State.gqSlotsEffect s₁ d b) := by
  unfold State.gqSlotsEffect
  try dsimp only
  repeat' with_reducible first
    | intro _ | simp only [↓Keeps.upd_iff] | assumption | apply keeps_ite | apply keeps_gqDropWhere
    | apply keeps_setGather | split

theorem keeps_syncEnded {s₀ s₁ : State} (h₀ : Keeps s₀ s₁) (d : Nat) (b : Nat) (id : Nat) (vxe : Bool) :
    Keeps s₀ (State.syncEnded s₁ d b id vxe) := by
  unfold State.syncEnded
  try dsimp only
  repeat' with_reducible first
    | intro _ | simp only [↓Keeps.upd_iff] | assumption | apply keeps_ite | apply keeps_ite1 | apply keeps_ite2
    | apply keeps_ite22 | apply keeps_foldl | apply keeps_foldl1 | apply keeps_foldl2 | apply keeps_foldNat
    | apply keeps_then | apply keeps_iteC | simp only [id_eq] | apply keeps_dropWatches | dsimp only | split

/-! ### Requests -/

theorem keeps_slotReply {s₀ s₁ : State} (h₀ : Keeps s₀ s₁) (d : Nat) (b : Nat) (sl : Nat) (e : Sys2Proof.Machine.Track) (data : List Sys2Proof.Byte) :
    Keeps s₀ (State.slotReply s₁ d b sl e data) := by
  unfold State.slotReply
  try dsimp only
  repeat' with_reducible first
    | intro _ | simp only [↓Keeps.upd_iff] | assumption | apply keeps_ite | apply keeps_pumpSlot
    | apply keeps_progress | apply keeps_setSlot | split

theorem keeps_buddyAgain {s₀ s₁ : State} (h₀ : Keeps s₀ s₁) (e : Sys2Proof.Machine.Track) :
    Keeps s₀ (State.buddyAgain s₁ e) := by
  unfold State.buddyAgain
  try dsimp only
  repeat' with_reducible first
    | intro _ | simp only [↓Keeps.upd_iff] | assumption | apply keeps_ite | apply keeps_ite1 | apply keeps_ite2
    | apply keeps_ite22 | apply keeps_foldl | apply keeps_foldl1 | apply keeps_foldl2 | apply keeps_foldNat
    | apply keeps_then | apply keeps_iteC | simp only [id_eq] | dsimp only | split

theorem keeps_accept {s₀ s₁ : State} (h₀ : Keeps s₀ s₁) (r : Sys2Proof.Req) (t : Nat) (e : Sys2Proof.Machine.Track) (st : Sys2Proof.Status) (n : Nat) (data : List Sys2Proof.Byte) :
    Keeps s₀ (State.accept s₁ r t e st n data) := by
  unfold State.accept
  try dsimp only
  repeat' with_reducible first
    | intro _ | simp only [↓Keeps.upd_iff] | assumption | apply keeps_ite | apply keeps_putTrack
    | apply keeps_deliver | apply keeps_endTrack | apply keeps_slotReply | apply keeps_gatherReply
    | apply keeps_buddyAgain | apply keeps_endStep | split

theorem keeps_countPacket {s₀ s₁ : State} (h₀ : Keeps s₀ s₁) (r : Sys2Proof.Req) (circuit : Bool) :
    Keeps s₀ (State.countPacket s₁ r circuit) := by
  unfold State.countPacket
  try dsimp only
  repeat' with_reducible first
    | intro _ | simp only [↓Keeps.upd_iff] | assumption | apply keeps_ite | apply keeps_incF | split

theorem keeps_atomReq {s₀ s₁ : State} (h₀ : Keeps s₀ s₁) (r : Sys2Proof.Req) (op : Sys2Proof.Machine.AtomOp) (size : Nat) (operand : BitVec 64) (compare : BitVec 64) (env : Sys2Proof.EccEnv) :
    Keeps s₀ (State.atomReq s₁ r op size operand compare env) := by
  unfold State.atomReq
  try dsimp only
  repeat' with_reducible first
    | intro _ | simp only [↓Keeps.upd_iff] | assumption | apply keeps_ite | apply keeps_atHome
    | apply keeps_homeAtom | apply keeps_countPacket | split

theorem keeps_authFail {s₀ s₁ : State} (h₀ : Keeps s₀ s₁) (r : Sys2Proof.Req) (c : Sys2Proof.Machine.CircuitRec) :
    Keeps s₀ (State.authFail s₁ r c) := by
  unfold State.authFail
  try dsimp only
  repeat' with_reducible first
    | intro _ | simp only [↓Keeps.upd_iff] | assumption | apply keeps_ite | apply keeps_setErr | apply keeps_incF
    | apply keeps_answer | apply keeps_noCert | apply keeps_logAt | split

theorem keeps_badPacket {s₀ s₁ : State} (h₀ : Keeps s₀ s₁) (r : Sys2Proof.Req) :
    Keeps s₀ (State.badPacket s₁ r) := by
  unfold State.badPacket
  try dsimp only
  repeat' with_reducible first
    | intro _ | simp only [↓Keeps.upd_iff] | assumption | apply keeps_ite | apply keeps_setErr | split

theorem keeps_buddyGot {s₀ s₁ : State} (h₀ : Keeps s₀ s₁) (k : Nat) (n : Nat) :
    Keeps s₀ (State.buddyGot s₁ k n) := by
  unfold State.buddyGot
  try dsimp only
  repeat' with_reducible first
    | intro _ | simp only [↓Keeps.upd_iff] | assumption | apply keeps_ite | apply keeps_wr | split

theorem keeps_memPut {s₀ s₁ : State} (h₀ : Keeps s₀ s₁) (r : Sys2Proof.Req) (data : List Sys2Proof.Byte) (env : Sys2Proof.EccEnv) :
    Keeps s₀ (State.memPut s₁ r data env).1 := by
  unfold State.memPut
  try dsimp only
  repeat' with_reducible first
    | intro _ | simp only [↓Keeps.upd_iff] | assumption | apply keeps_ite
    | refine keeps_ownWrite_eq ?_ _ _ (by assumption) | apply keeps_ownWrite | apply keeps_arise | split
theorem keeps_memPut_eq {s₀ s₁ : State} (h₀ : Keeps s₀ s₁) (r : Sys2Proof.Req) (data : List Sys2Proof.Byte) (env : Sys2Proof.EccEnv) {x₀ y₀}
    (e₀ : (State.memPut s₁ r data env) = (x₀, y₀)) : Keeps s₀ x₀ := by
  have k := keeps_memPut h₀ r data env; rw [e₀] at k; exact k

theorem keeps_dataPut {s₀ s₁ : State} (h₀ : Keeps s₀ s₁) (r : Sys2Proof.Req) (h : Sys2Proof.DataHdr) (data : List Sys2Proof.Byte) (env : Sys2Proof.EccEnv) :
    Keeps s₀ (State.dataPut s₁ r h data env) := by
  unfold State.dataPut
  try dsimp only
  repeat' with_reducible first
    | intro _ | simp only [↓Keeps.upd_iff] | assumption | apply keeps_ite
    | refine keeps_memPut_eq ?_ _ _ _ (by assumption) | apply keeps_memPut | apply keeps_buddyGot
    | apply keeps_answer | split

theorem keeps_payload {s₀ s₁ : State} (h₀ : Keeps s₀ s₁) (r : Sys2Proof.Req) (h : Sys2Proof.DataHdr) (ptype : Nat) (aux : Nat) (p : List Sys2Proof.Byte) (f : Sys2Proof.Machine.State → List Sys2Proof.Byte → Sys2Proof.Machine.State) (h_f : ∀ x (y0 : List Sys2Proof.Byte), Keeps s₀ x → Keeps s₀ (f x y0)) :
    Keeps s₀ (State.payload s₁ r h ptype aux p f) := by
  unfold State.payload
  try dsimp only
  repeat' with_reducible first
    | intro _ | simp only [↓Keeps.upd_iff] | assumption | apply h_f | apply keeps_ite | apply keeps_countPacket
    | apply keeps_badPacket | apply keeps_authFail | split

theorem keeps_regDataWrite {s₀ s₁ : State} (h₀ : Keeps s₀ s₁) (r : Sys2Proof.Req) (data : List Sys2Proof.Byte) :
    Keeps s₀ (State.regDataWrite s₁ r data) := by
  unfold State.regDataWrite
  try dsimp only
  repeat' with_reducible first
    | intro _ | simp only [↓Keeps.upd_iff] | assumption | apply keeps_ite | apply keeps_answer
    | apply keeps_accessFault | split

theorem keeps_dataWrite {s₀ s₁ : State} (h₀ : Keeps s₀ s₁) (r : Sys2Proof.Req) (h : Sys2Proof.DataHdr) (ptype : Nat) (p : List Sys2Proof.Byte) (env : Sys2Proof.EccEnv) :
    Keeps s₀ (State.dataWrite s₁ r h ptype p env) := by
  unfold State.dataWrite
  try dsimp only
  repeat' with_reducible first
    | intro _ | simp only [↓Keeps.upd_iff] | assumption | apply keeps_ite | apply keeps_atHome
    | apply keeps_payload | apply keeps_regDataWrite | apply keeps_dataPut | apply keeps_spaceRefused | split

theorem keeps_dropReply {s₀ s₁ : State} (h₀ : Keeps s₀ s₁) (r : Sys2Proof.Req) :
    Keeps s₀ (State.dropReply s₁ r) := by
  unfold State.dropReply
  try dsimp only
  repeat' with_reducible first
    | intro _ | simp only [↓Keeps.upd_iff] | assumption | apply keeps_ite | apply keeps_incF | split

theorem keeps_echoAt {s₀ s₁ : State} (h₀ : Keeps s₀ s₁) (r : Sys2Proof.Req) (o : Sys2Proof.Machine.Owner) (echo : Bool) :
    Keeps s₀ (State.echoAt s₁ r o echo) := by
  unfold State.echoAt
  try dsimp only
  repeat' with_reducible first
    | intro _ | simp only [↓Keeps.upd_iff] | assumption | apply keeps_ite | apply keeps_incF | apply keeps_echo
    | split

theorem keeps_memAnswer {s₀ s₁ : State} (h₀ : Keeps s₀ s₁) (r : Sys2Proof.Req) (len : Nat) (env : Sys2Proof.EccEnv) :
    Keeps s₀ (State.memAnswer s₁ r len env) := by
  unfold State.memAnswer
  try dsimp only
  repeat' with_reducible first
    | intro _ | simp only [↓Keeps.upd_iff] | assumption | apply keeps_ite | apply keeps_touch | apply keeps_arise
    | apply keeps_answer | split

theorem keeps_memWriteReq {s₀ s₁ : State} (h₀ : Keeps s₀ s₁) (r : Sys2Proof.Req) (data : List Sys2Proof.Byte) (env : Sys2Proof.EccEnv) :
    Keeps s₀ (State.memWriteReq s₁ r data env) := by
  unfold State.memWriteReq
  try dsimp only
  repeat' with_reducible first
    | intro _ | simp only [↓Keeps.upd_iff] | assumption | apply keeps_ite
    | refine keeps_memPut_eq ?_ _ _ _ (by assumption) | apply keeps_memPut | apply keeps_answer | split

theorem keeps_regRead {s₀ s₁ : State} (h₀ : Keeps s₀ s₁) (r : Sys2Proof.Req) (len : Nat) :
    Keeps s₀ (State.regRead s₁ r len) := by
  unfold State.regRead
  try dsimp only
  repeat' with_reducible first
    | intro _ | simp only [↓Keeps.upd_iff] | assumption | apply keeps_ite | apply keeps_logRefused
    | apply keeps_setErr | apply keeps_answer | split

theorem keeps_replyAuth {s₀ s₁ : State} (h₀ : Keeps s₀ s₁) (r : Sys2Proof.Req) :
    Keeps s₀ (State.replyAuth s₁ r) := by
  unfold State.replyAuth
  try dsimp only
  repeat' with_reducible first
    | intro _ | simp only [↓Keeps.upd_iff] | assumption | apply keeps_ite | apply keeps_ite1 | apply keeps_ite2
    | apply keeps_ite22 | apply keeps_foldl | apply keeps_foldl1 | apply keeps_foldl2 | apply keeps_foldNat
    | apply keeps_then | apply keeps_iteC | simp only [id_eq] | apply keeps_setErr | apply keeps_incF
    | apply keeps_noCert | apply keeps_logAt | dsimp only | split

theorem keeps_replyOpen {s₀ s₁ : State} (h₀ : Keeps s₀ s₁) (r : Sys2Proof.Req) (st : Sys2Proof.Status) (n : Nat) (data : List Sys2Proof.Byte) :
    Keeps s₀ (State.replyOpen s₁ r st n data).1 := by
  unfold State.replyOpen
  try dsimp only
  repeat' with_reducible first
    | intro _ | simp only [↓Keeps.upd_iff] | assumption | apply keeps_ite | apply keeps_ite1 | apply keeps_ite2
    | apply keeps_ite22 | apply keeps_foldl | apply keeps_foldl1 | apply keeps_foldl2 | apply keeps_foldNat
    | apply keeps_then | apply keeps_iteC | simp only [id_eq] | dsimp only | split
theorem keeps_replyOpen_eq {s₀ s₁ : State} (h₀ : Keeps s₀ s₁) (r : Sys2Proof.Req) (st : Sys2Proof.Status) (n : Nat) (data : List Sys2Proof.Byte) {x₀ y₀}
    (e₀ : (State.replyOpen s₁ r st n data) = (x₀, y₀)) : Keeps s₀ x₀ := by
  have k := keeps_replyOpen h₀ r st n data; rw [e₀] at k; exact k

theorem keeps_unanswered {s₀ s₁ : State} (h₀ : Keeps s₀ s₁) (e : Sys2Proof.Machine.Track) :
    Keeps s₀ (State.unanswered s₁ e) := by
  unfold State.unanswered
  try dsimp only
  repeat' with_reducible first
    | intro _ | simp only [↓Keeps.upd_iff] | assumption | apply keeps_ite | apply keeps_setSlot | split

/-! ### Links -/

theorem keeps_ackTo {s₀ s₁ : State} (h₀ : Keeps s₀ s₁) (p : Nat) (seq : Nat) :
    Keeps s₀ (State.ackTo s₁ p seq) := by
  unfold State.ackTo
  try dsimp only
  repeat' with_reducible first
    | intro _ | simp only [↓Keeps.upd_iff] | assumption | apply keeps_ite | apply keeps_syncRetry
    | apply keeps_setLink | split

theorem keeps_admitLink {s₀ s₁ : State} (h₀ : Keeps s₀ s₁) (p : Nat) :
    Keeps s₀ (State.admitLink s₁ p) := by
  unfold State.admitLink
  try dsimp only
  repeat' with_reducible first
    | intro _ | simp only [↓Keeps.upd_iff] | assumption | apply keeps_ite | apply keeps_setLink | apply keeps_setCp
    | apply keeps_setLinkSt | split

theorem keeps_admitDue {s₀ s₁ : State} (h₀ : Keeps s₀ s₁) (d : Nat) :
    Keeps s₀ (State.admitDue s₁ d) := by
  unfold State.admitDue
  try dsimp only
  repeat' with_reducible first
    | intro _ | simp only [↓Keeps.upd_iff] | assumption | apply keeps_ite | apply keeps_foldNat
    | apply keeps_admitLink | split

theorem keeps_admitLinks {s₀ s₁ : State} (h₀ : Keeps s₀ s₁)  :
    Keeps s₀ (State.admitLinks s₁) := by
  unfold State.admitLinks
  try dsimp only
  repeat' with_reducible first
    | intro _ | simp only [↓Keeps.upd_iff] | assumption | apply keeps_ite | apply keeps_foldNat
    | apply keeps_admitLink | split

theorem keeps_timeStat {s₀ s₁ : State} (h₀ : Keeps s₀ s₁) (lo : Nat) (n : Nat) (v : Nat) :
    Keeps s₀ (State.timeStat s₁ lo n v) := by
  unfold State.timeStat
  try dsimp only
  repeat' with_reducible first
    | intro _ | simp only [↓Keeps.upd_iff] | assumption | apply keeps_ite | apply keeps_foldNat | apply keeps_wrF
    | split

theorem keeps_syncLock {s₀ s₁ : State} (h₀ : Keeps s₀ s₁)  :
    Keeps s₀ (State.syncLock s₁) := by
  unfold State.syncLock
  try dsimp only
  repeat' with_reducible first
    | intro _ | simp only [↓Keeps.upd_iff] | assumption | apply keeps_ite | apply keeps_timeStat | split

theorem keeps_steer {s₀ s₁ : State} (h₀ : Keeps s₀ s₁) (left : Int) :
    Keeps s₀ (State.steer s₁ left) := by
  unfold State.steer
  try dsimp only
  repeat' with_reducible first
    | intro _ | simp only [↓Keeps.upd_iff] | assumption | apply keeps_ite | apply keeps_foldNat | apply keeps_wr
    | split

theorem keeps_timeTree {s₀ s₁ : State} (h₀ : Keeps s₀ s₁)  :
    Keeps s₀ (State.timeTree s₁) := by
  unfold State.timeTree
  try dsimp only
  repeat' with_reducible first
    | intro _ | simp only [↓Keeps.upd_iff] | assumption | apply keeps_ite | apply keeps_timeStat
    | apply keeps_syncLock | apply keeps_steer | split

theorem keeps_retrainEnded {s₀ s₁ : State} (h₀ : Keeps s₀ s₁) (p : Nat) :
    Keeps s₀ (State.retrainEnded s₁ p) := by
  unfold State.retrainEnded
  try dsimp only
  repeat' with_reducible first
    | intro _ | simp only [↓Keeps.upd_iff] | assumption | apply keeps_ite | apply keeps_setCp | split

theorem keeps_dropLink {s₀ s₁ : State} (h₀ : Keeps s₀ s₁) (p : Nat) :
    Keeps s₀ (State.dropLink s₁ p) := by
  unfold State.dropLink
  try dsimp only
  repeat' with_reducible first
    | intro _ | simp only [↓Keeps.upd_iff] | assumption | apply keeps_ite | apply keeps_foldl | apply keeps_setLink
    | apply keeps_answerLost | apply keeps_syncRetry | split

theorem keeps_linkDown {s₀ s₁ : State} (h₀ : Keeps s₀ s₁) (p : Nat) :
    Keeps s₀ (State.linkDown s₁ p) := by
  unfold State.linkDown
  try dsimp only
  repeat' with_reducible first
    | intro _ | simp only [↓Keeps.upd_iff] | assumption | apply keeps_ite | apply keeps_setCp
    | apply keeps_setLinkSt | apply keeps_setLink | apply keeps_retrainEnded | apply keeps_dropLink | split

theorem keeps_applyOffset {s₀ s₁ : State} (h₀ : Keeps s₀ s₁) (o : Int) :
    Keeps s₀ (State.applyOffset s₁ o) := by
  unfold State.applyOffset
  try dsimp only
  repeat' with_reducible first
    | intro _ | simp only [↓Keeps.upd_iff] | assumption | apply keeps_ite | apply keeps_foldNat | apply keeps_wr
    | apply keeps_steer | apply keeps_syncLock | split

theorem keeps_badWord {s₀ s₁ : State} (h₀ : Keeps s₀ s₁) (p : Nat) (w : List (Fin 544)) :
    Keeps s₀ (State.badWord s₁ p w) := by
  unfold State.badWord
  try dsimp only
  repeat' with_reducible first
    | intro _ | simp only [↓Keeps.upd_iff] | assumption | apply keeps_ite | apply keeps_ite1 | apply keeps_ite2
    | apply keeps_ite22 | apply keeps_foldl | apply keeps_foldl1 | apply keeps_foldl2 | apply keeps_foldNat
    | apply keeps_then | apply keeps_iteC | simp only [id_eq] | apply keeps_satF | apply keeps_cpErr
    | apply keeps_setLink | dsimp only | split

theorem keeps_linkHeld {s₀ s₁ : State} (h₀ : Keeps s₀ s₁) (p : Nat) (reason : Nat) :
    Keeps s₀ (State.linkHeld s₁ p reason) := by
  unfold State.linkHeld
  try dsimp only
  repeat' with_reducible first
    | intro _ | simp only [↓Keeps.upd_iff] | assumption | apply keeps_ite | apply keeps_cpErr | apply keeps_setCp
    | apply keeps_setLinkSt | apply keeps_logAt | apply keeps_dropLink | apply keeps_setLink | split

theorem keeps_beginRetrain {s₀ s₁ : State} (h₀ : Keeps s₀ s₁) (p : Nat) :
    Keeps s₀ (State.beginRetrain s₁ p) := by
  unfold State.beginRetrain
  try dsimp only
  repeat' with_reducible first
    | intro _ | simp only [↓Keeps.upd_iff] | assumption | apply keeps_ite | apply keeps_incF | apply keeps_setLink
    | apply keeps_linkHeld | apply keeps_setLinkSt | split

theorem keeps_resend {s₀ s₁ : State} (h₀ : Keeps s₀ s₁) (p : Nat) (seq : Option Nat) :
    Keeps s₀ (State.resend s₁ p seq) := by
  unfold State.resend
  try dsimp only
  repeat' with_reducible first
    | intro _ | simp only [↓Keeps.upd_iff] | assumption | apply keeps_ite | apply keeps_ite1 | apply keeps_ite2
    | apply keeps_ite22 | apply keeps_foldl | apply keeps_foldl1 | apply keeps_foldl2 | apply keeps_foldNat
    | apply keeps_then | apply keeps_iteC | simp only [id_eq] | apply keeps_setLink | apply keeps_txOut
    | apply keeps_incF | apply keeps_beginRetrain | apply keeps_cpErr | dsimp only | split

theorem keeps_lctrl {s₀ s₁ : State} (h₀ : Keeps s₀ s₁) (p : Nat) (kind : Nat) (reason : Nat) :
    Keeps s₀ (State.lctrl s₁ p kind reason) := by
  unfold State.lctrl
  try dsimp only
  repeat' with_reducible first
    | intro _ | simp only [↓Keeps.upd_iff] | assumption | apply keeps_ite | apply keeps_sendFlit | split

theorem keeps_comeUp {s₀ s₁ : State} (h₀ : Keeps s₀ s₁) (p : Nat) (h : Sys2Proof.Hello) (l : Sys2Proof.Machine.Link) :
    Keeps s₀ (State.comeUp s₁ p h l) := by
  unfold State.comeUp
  try dsimp only
  repeat' with_reducible first
    | intro _ | simp only [↓Keeps.upd_iff] | assumption | apply keeps_ite | apply keeps_ite1 | apply keeps_ite2
    | apply keeps_ite22 | apply keeps_foldl | apply keeps_foldl1 | apply keeps_foldl2 | apply keeps_foldNat
    | apply keeps_then | apply keeps_iteC | simp only [id_eq] | apply keeps_cpErr | apply keeps_setLinkSt
    | dsimp only | split

theorem keeps_creditIn {s₀ s₁ : State} (h₀ : Keeps s₀ s₁) (p : Nat) (vc : Nat) (n : Nat) :
    Keeps s₀ (State.creditIn s₁ p vc n) := by
  unfold State.creditIn
  try dsimp only
  repeat' with_reducible first
    | intro _ | simp only [↓Keeps.upd_iff] | assumption | apply keeps_ite | apply keeps_beginRetrain
    | apply keeps_cpErr | apply keeps_setCredits | split

theorem keeps_retrainWritten {s₀ s₁ : State} (h₀ : Keeps s₀ s₁) (p : Nat) :
    Keeps s₀ (State.retrainWritten s₁ p) := by
  unfold State.retrainWritten
  try dsimp only
  repeat' with_reducible first
    | intro _ | simp only [↓Keeps.upd_iff] | assumption | apply keeps_ite | apply keeps_beginRetrain
    | apply keeps_setCp | split

theorem keeps_enterNbr {s₀ s₁ : State} (h₀ : Keeps s₀ s₁) (p : Nat) (h : Sys2Proof.Hello) :
    Keeps s₀ (State.enterNbr s₁ p h) := by
  unfold State.enterNbr
  try dsimp only
  repeat' with_reducible first
    | intro _ | simp only [↓Keeps.upd_iff] | assumption | apply keeps_ite | apply keeps_wr | apply keeps_setCp
    | apply keeps_setLink | split

theorem keeps_fecCount {s₀ s₁ : State} (h₀ : Keeps s₀ s₁) (p : Nat) (words : List (List (Fin 544))) :
    Keeps s₀ (State.fecCount s₁ p words) := by
  unfold State.fecCount
  try dsimp only
  repeat' with_reducible first
    | intro _ | simp only [↓Keeps.upd_iff] | assumption | apply keeps_ite | apply keeps_foldl | apply keeps_badWord
    | apply keeps_satF | apply keeps_setLink | split

theorem keeps_flitHeader {s₀ s₁ : State} (h₀ : Keeps s₀ s₁) (p : Nat) (f : Sys2Proof.Flit) :
    Keeps s₀ (State.flitHeader s₁ p f) := by
  unfold State.flitHeader
  try dsimp only
  repeat' with_reducible first
    | intro _ | simp only [↓Keeps.upd_iff] | assumption | apply keeps_ite | apply keeps_ackTo
    | apply keeps_creditIn | apply keeps_pump | split

theorem keeps_sendNak {s₀ s₁ : State} (h₀ : Keeps s₀ s₁) (p : Nat) :
    Keeps s₀ (State.sendNak s₁ p) := by
  unfold State.sendNak
  try dsimp only
  repeat' with_reducible first
    | intro _ | simp only [↓Keeps.upd_iff] | assumption | apply keeps_ite | apply keeps_incF | apply keeps_flitOut
    | apply keeps_setLink | split

theorem keeps_takeFlit {s₀ s₁ : State} (h₀ : Keeps s₀ s₁) (p : Nat) (f : Sys2Proof.Flit) :
    Keeps s₀ (State.takeFlit s₁ p f) := by
  unfold State.takeFlit
  try dsimp only
  repeat' with_reducible first
    | intro _ | simp only [↓Keeps.upd_iff] | assumption | apply keeps_ite | apply keeps_ite1 | apply keeps_ite2
    | apply keeps_ite22 | apply keeps_foldl | apply keeps_foldl1 | apply keeps_foldl2 | apply keeps_foldNat
    | apply keeps_then | apply keeps_iteC | simp only [id_eq] | apply keeps_setLink | apply keeps_incF
    | apply keeps_idleOut | apply keeps_sendNak | dsimp only | split

theorem keeps_nakIn {s₀ s₁ : State} (h₀ : Keeps s₀ s₁) (p : Nat) (seq : Nat) :
    Keeps s₀ (State.nakIn s₁ p seq) := by
  unfold State.nakIn
  try dsimp only
  repeat' with_reducible first
    | intro _ | simp only [↓Keeps.upd_iff] | assumption | apply keeps_ite | apply keeps_ite1 | apply keeps_ite2
    | apply keeps_ite22 | apply keeps_foldl | apply keeps_foldl1 | apply keeps_foldl2 | apply keeps_foldNat
    | apply keeps_then | apply keeps_iteC | simp only [id_eq] | apply keeps_resend | dsimp only | split

theorem keeps_pairNext {s₀ s₁ : State} (h₀ : Keeps s₀ s₁) (p : Nat) :
    Keeps s₀ (State.pairNext s₁ p) := by
  unfold State.pairNext
  try dsimp only
  repeat' with_reducible first
    | intro _ | simp only [↓Keeps.upd_iff] | assumption | apply keeps_ite | apply keeps_ite1 | apply keeps_ite2
    | apply keeps_ite22 | apply keeps_foldl | apply keeps_foldl1 | apply keeps_foldl2 | apply keeps_foldNat
    | apply keeps_then | apply keeps_iteC | simp only [id_eq] | apply keeps_setLink | dsimp only | split

theorem keeps_flitIn {s₀ s₁ : State} (h₀ : Keeps s₀ s₁) (p : Nat) (f : Sys2Proof.Flit) :
    Keeps s₀ (State.flitIn s₁ p f) := by
  unfold State.flitIn
  try dsimp only
  repeat' with_reducible first
    | intro _ | simp only [↓Keeps.upd_iff] | assumption | apply keeps_ite | apply keeps_ite1 | apply keeps_ite2
    | apply keeps_ite22 | apply keeps_foldl | apply keeps_foldl1 | apply keeps_foldl2 | apply keeps_foldNat
    | apply keeps_then | apply keeps_iteC | simp only [id_eq] | apply keeps_fecCount | apply keeps_cpErr
    | apply keeps_sendNak | apply keeps_flitHeader | apply keeps_takeFlit | apply keeps_nakIn
    | apply keeps_pairNext | dsimp only | split

theorem keeps_markLane {s₀ s₁ : State} (h₀ : Keeps s₀ s₁) (p : Nat) (lane : Nat) :
    Keeps s₀ (State.markLane s₁ p lane) := by
  unfold State.markLane
  try dsimp only
  repeat' with_reducible first
    | intro _ | simp only [↓Keeps.upd_iff] | assumption | apply keeps_ite | apply keeps_setCp | split

theorem keeps_laneFail {s₀ s₁ : State} (h₀ : Keeps s₀ s₁) (p : Nat) (lane : Nat) :
    Keeps s₀ (State.laneFail s₁ p lane) := by
  unfold State.laneFail
  try dsimp only
  repeat' with_reducible first
    | intro _ | simp only [↓Keeps.upd_iff] | assumption | apply keeps_ite | apply keeps_ite1 | apply keeps_ite2
    | apply keeps_ite22 | apply keeps_foldl | apply keeps_foldl1 | apply keeps_foldl2 | apply keeps_foldNat
    | apply keeps_then | apply keeps_iteC | simp only [id_eq] | apply keeps_markLane | apply keeps_cpErr
    | apply keeps_logAt | apply keeps_histEvent | apply keeps_linkDown | apply keeps_setLink
    | apply keeps_beginRetrain | apply keeps_lctrl | dsimp only | split

theorem keeps_retrained {s₀ s₁ : State} (h₀ : Keeps s₀ s₁) (p : Nat) (lanes : List Nat) (ns : Nat) :
    Keeps s₀ (State.retrained s₁ p lanes ns) := by
  unfold State.retrained
  try dsimp only
  repeat' with_reducible first
    | intro _ | simp only [↓Keeps.upd_iff] | assumption | apply keeps_ite | apply keeps_setCp
    | apply keeps_rehFound | split

theorem keeps_sendHello {s₀ s₁ : State} (h₀ : Keeps s₀ s₁) (p : Nat) :
    Keeps s₀ (State.sendHello s₁ p) := by
  unfold State.sendHello
  try dsimp only
  repeat' with_reducible first
    | intro _ | simp only [↓Keeps.upd_iff] | assumption | apply keeps_ite | apply keeps_lctrl | split

theorem keeps_serWindow {s₀ s₁ : State} (h₀ : Keeps s₀ s₁) (p : Nat) :
    Keeps s₀ (State.serWindow s₁ p) := by
  unfold State.serWindow
  try dsimp only
  repeat' with_reducible first
    | intro _ | simp only [↓Keeps.upd_iff] | assumption | apply keeps_ite | apply keeps_ite1 | apply keeps_ite2
    | apply keeps_ite22 | apply keeps_foldl | apply keeps_foldl1 | apply keeps_foldl2 | apply keeps_foldNat
    | apply keeps_then | apply keeps_iteC | simp only [id_eq] | apply keeps_setLink | apply keeps_setCp
    | apply keeps_laneFail | dsimp only | split

theorem keeps_setLanes {s₀ s₁ : State} (h₀ : Keeps s₀ s₁) (p : Nat) (lanes : List Nat) :
    Keeps s₀ (State.setLanes s₁ p lanes) := by
  unfold State.setLanes
  try dsimp only
  repeat' with_reducible first
    | intro _ | simp only [↓Keeps.upd_iff] | assumption | apply keeps_ite | apply keeps_foldNat | apply keeps_setCp
    | split

theorem keeps_showVerdicts {s₀ s₁ : State} (h₀ : Keeps s₀ s₁)  :
    Keeps s₀ (State.showVerdicts s₁) := by
  unfold State.showVerdicts
  try dsimp only
  repeat' with_reducible first
    | intro _ | simp only [↓Keeps.upd_iff] | assumption | apply keeps_ite | apply keeps_ite1 | apply keeps_ite2
    | apply keeps_ite22 | apply keeps_foldl | apply keeps_foldl1 | apply keeps_foldl2 | apply keeps_foldNat
    | apply keeps_then | apply keeps_iteC | simp only [id_eq] | apply keeps_setCp | dsimp only | split

theorem keeps_timeOut {s₀ s₁ : State} (h₀ : Keeps s₀ s₁) (p : Nat) (ts : List Nat) :
    Keeps s₀ (State.timeOut s₁ p ts) := by
  unfold State.timeOut
  try dsimp only
  repeat' with_reducible first
    | intro _ | simp only [↓Keeps.upd_iff] | assumption | apply keeps_ite | apply keeps_ite1 | apply keeps_ite2
    | apply keeps_ite22 | apply keeps_foldl | apply keeps_foldl1 | apply keeps_foldl2 | apply keeps_foldNat
    | apply keeps_then | apply keeps_iteC | simp only [id_eq] | apply keeps_flitOut | dsimp only | split

/-! ### Router -/

theorem keeps_holdEffect {s₀ s₁ : State} (h₀ : Keeps s₀ s₁) (d : Nat) :
    Keeps s₀ (State.holdEffect s₁ d) := by
  unfold State.holdEffect
  try dsimp only
  repeat' with_reducible first
    | intro _ | simp only [↓Keeps.upd_iff] | assumption | apply keeps_ite | apply keeps_wrF | split

theorem keeps_atHop {s₀ s₁ : State} (h₀ : Keeps s₀ s₁) (d : Nat) (k : Sys2Proof.Packet) (f : Sys2Proof.Machine.State → Sys2Proof.Machine.State) (h_f : ∀ x , Keeps s₀ x → Keeps s₀ (f x )) :
    Keeps s₀ (State.atHop s₁ d k f) := by
  unfold State.atHop
  try dsimp only
  repeat' with_reducible first
    | intro _ | simp only [↓Keeps.upd_iff] | assumption | apply h_f | apply keeps_ite | apply keeps_setErr
    | apply keeps_incF | split

/-! ### Dup -/

theorem keeps_witFlag {s₀ s₁ : State} (h₀ : Keeps s₀ s₁) (r : Sys2Proof.Machine.TileRef) (bit : Nat) :
    Keeps s₀ (State.witFlag s₁ r bit) := by
  unfold State.witFlag
  try dsimp only
  repeat' with_reducible first
    | intro _ | simp only [↓Keeps.upd_iff] | assumption | apply keeps_ite | apply keeps_putWit | split

theorem keeps_mismatch {s₀ s₁ : State} (h₀ : Keeps s₀ s₁) (j : Sys2Proof.Machine.DupJob) (t : Sys2Proof.Machine.TileDesc) (p : Sys2Proof.Machine.Drain) (c : Sys2Proof.Machine.Drain) (cbay : Nat) :
    Keeps s₀ (State.mismatch s₁ j t p c cbay) := by
  unfold State.mismatch
  try dsimp only
  repeat' with_reducible first
    | intro _ | simp only [↓Keeps.upd_iff] | assumption | apply keeps_ite | apply keeps_setErr
    | apply keeps_witFlag | apply keeps_wr | apply keeps_rehFound | apply keeps_logAt | apply keeps_endStep | split

theorem keeps_verdictEvent {s₀ s₁ : State} (h₀ : Keeps s₀ s₁) (m : Sys2Proof.Machine.Mismatch) (v : Nat) (wits : List Nat) (sameArb : Bool) (d : Nat) (b : Nat) (pd : Nat) (pb : Nat) :
    Keeps s₀ (State.verdictEvent s₁ m v wits sameArb d b pd pb) := by
  unfold State.verdictEvent
  try dsimp only
  repeat' with_reducible first
    | intro _ | simp only [↓Keeps.upd_iff] | assumption | apply keeps_ite | apply keeps_histEvent | split

theorem keeps_verdictOf {s₀ s₁ : State} (h₀ : Keeps s₀ s₁) (m : Sys2Proof.Machine.Mismatch) (p2 : Nat) (a : Nat) (adie : Nat) (abay : Nat) (sameArb : Bool) :
    Keeps s₀ (State.verdictOf s₁ m p2 a adie abay sameArb) := by
  unfold State.verdictOf
  try dsimp only
  repeat' with_reducible first
    | intro _ | simp only [↓Keeps.upd_iff] | assumption | apply keeps_ite | apply keeps_verdictEvent
    | apply keeps_wrF | apply keeps_setErr | split

/-! ### Curtain -/

theorem keeps_endSaved {s₀ s₁ : State} (h₀ : Keeps s₀ s₁) (d : Nat) (b : Nat) (early : Bool) :
    Keeps s₀ (State.endSaved s₁ d b early) := by
  unfold State.endSaved
  try dsimp only
  repeat' with_reducible first
    | intro _ | simp only [↓Keeps.upd_iff] | assumption | apply keeps_ite | apply keeps_ite1 | apply keeps_ite2
    | apply keeps_ite22 | apply keeps_foldl | apply keeps_foldl1 | apply keeps_foldl2 | apply keeps_foldNat
    | apply keeps_then | apply keeps_iteC | simp only [id_eq] | apply keeps_fqWithdraw | apply keeps_noCert
    | apply keeps_setErr | dsimp only | split

theorem keeps_dropWaiting {s₀ s₁ : State} (h₀ : Keeps s₀ s₁)  :
    Keeps s₀ (State.dropWaiting s₁) := by
  unfold State.dropWaiting
  try dsimp only
  repeat' with_reducible first
    | intro _ | simp only [↓Keeps.upd_iff] | assumption | apply keeps_ite | apply keeps_ite1 | apply keeps_ite2
    | apply keeps_ite22 | apply keeps_foldl | apply keeps_foldl1 | apply keeps_foldl2 | apply keeps_foldNat
    | apply keeps_then | apply keeps_iteC | simp only [id_eq] | dsimp only | split

theorem keeps_bayDiscard {s₀ s₁ : State} (h₀ : Keeps s₀ s₁) (d : Nat) (b : Nat) :
    Keeps s₀ (State.bayDiscard s₁ d b) := by
  unfold State.bayDiscard
  try dsimp only
  repeat' with_reducible first
    | intro _ | simp only [↓Keeps.upd_iff] | assumption | apply keeps_ite | apply keeps_dupAbandon
    | apply keeps_setMxe | apply keeps_setVxe | apply keeps_cancelBay | split

theorem keeps_bayClose {s₀ s₁ : State} (h₀ : Keeps s₀ s₁) (d : Nat) (b : Nat) :
    Keeps s₀ (State.bayClose s₁ d b) := by
  unfold State.bayClose
  try dsimp only
  repeat' with_reducible first
    | intro _ | simp only [↓Keeps.upd_iff] | assumption | apply keeps_ite | apply keeps_foldl
    | apply keeps_settleBay | apply keeps_endSlotTracks | apply keeps_setSlot | split

theorem keeps_rehReport {s₀ s₁ : State} (h₀ : Keeps s₀ s₁) (r : Sys2Proof.Machine.RehRun) (result : Nat) :
    Keeps s₀ (State.rehReport s₁ r result) := by
  unfold State.rehReport
  try dsimp only
  repeat' with_reducible first
    | intro _ | simp only [↓Keeps.upd_iff] | assumption | apply keeps_ite | apply keeps_wr | apply keeps_logAt
    | apply keeps_setErr | split

theorem keeps_rehUndo {s₀ s₁ : State} (h₀ : Keeps s₀ s₁)  :
    Keeps s₀ (State.rehUndo s₁) := by
  unfold State.rehUndo
  try dsimp only
  repeat' with_reducible first
    | intro _ | simp only [↓Keeps.upd_iff] | assumption | apply keeps_ite | apply keeps_rehReport
    | apply keeps_clearBad | split

theorem keeps_updateRecords {s₀ s₁ : State} (h₀ : Keeps s₀ s₁)  :
    Keeps s₀ (State.updateRecords s₁) := by
  unfold State.updateRecords
  try dsimp only
  repeat' with_reducible first
    | intro _ | simp only [↓Keeps.upd_iff] | assumption | apply keeps_ite | apply keeps_touch | apply keeps_noCert
    | refine keeps_ownWrite_eq ?_ _ _ (by assumption) | apply keeps_ownWrite | split

theorem keeps_writeBack {s₀ s₁ : State} (h₀ : Keeps s₀ s₁) (d : Nat) :
    Keeps s₀ (State.writeBack s₁ d) := by
  unfold State.writeBack
  try dsimp only
  repeat' with_reducible first
    | intro _ | simp only [↓Keeps.upd_iff] | assumption | apply keeps_ite | apply keeps_wr | apply keeps_took
    | split

theorem keeps_action1 {s₀ s₁ : State} (h₀ : Keeps s₀ s₁) (bays : List (Nat × Nat)) (saved : List (Nat × Nat)) (early : Bool) :
    Keeps s₀ (State.action1 s₁ bays saved early) := by
  unfold State.action1
  try dsimp only
  repeat' with_reducible first
    | intro _ | simp only [↓Keeps.upd_iff] | assumption | apply keeps_ite | apply keeps_ite1 | apply keeps_ite2
    | apply keeps_ite22 | apply keeps_foldl | apply keeps_foldl1 | apply keeps_foldl2 | apply keeps_foldNat
    | apply keeps_then | apply keeps_iteC | simp only [id_eq] | apply keeps_endSaved | apply keeps_onSaved
    | apply keeps_dropWaiting | apply keeps_bayDiscard | apply keeps_bayClose | apply keeps_rehUndo
    | apply keeps_updateRecords | apply keeps_redEnd | apply keeps_wrF | apply keeps_writeBack | dsimp only | split

theorem keeps_recHash {s₀ s₁ : State} (h₀ : Keeps s₀ s₁) (c : Nat) :
    Keeps s₀ (State.recHash s₁ c) := by
  unfold State.recHash
  try dsimp only
  repeat' with_reducible first
    | intro _ | simp only [↓Keeps.upd_iff] | assumption | apply keeps_ite | apply keeps_ite1 | apply keeps_ite2
    | apply keeps_ite22 | apply keeps_foldl | apply keeps_foldl1 | apply keeps_foldl2 | apply keeps_foldNat
    | apply keeps_then | apply keeps_iteC | simp only [id_eq] | refine keeps_readOwn_eq ?_ _ _ (by assumption)
    | apply keeps_readOwn | apply keeps_incF | dsimp only | split

theorem keeps_wrDigest {s₀ s₁ : State} (h₀ : Keeps s₀ s₁) (pg : Nat) (off : Nat) (x : BitVec 256) :
    Keeps s₀ (State.wrDigest s₁ pg off x) := by
  unfold State.wrDigest
  try dsimp only
  repeat' with_reducible first
    | intro _ | simp only [↓Keeps.upd_iff] | assumption | apply keeps_ite | apply keeps_foldNat | apply keeps_wr
    | split

theorem keeps_putDigest {s₀ s₁ : State} (h₀ : Keeps s₀ s₁) (hs : List (BitVec 256)) :
    Keeps s₀ (State.putDigest s₁ hs) := by
  unfold State.putDigest
  try dsimp only
  repeat' with_reducible first
    | intro _ | simp only [↓Keeps.upd_iff] | assumption | apply keeps_ite | apply keeps_ite1 | apply keeps_ite2
    | apply keeps_ite22 | apply keeps_foldl | apply keeps_foldl1 | apply keeps_foldl2 | apply keeps_foldNat
    | apply keeps_then | apply keeps_iteC | simp only [id_eq] | refine keeps_partWrite_eq ?_ _ _ (by assumption)
    | apply keeps_partWrite | apply keeps_wrDigest | dsimp only | split

theorem keeps_formDigest {s₀ s₁ : State} (h₀ : Keeps s₀ s₁)  :
    Keeps s₀ (State.formDigest s₁) := by
  unfold State.formDigest
  try dsimp only
  repeat' with_reducible first
    | intro _ | simp only [↓Keeps.upd_iff] | assumption | apply keeps_ite | apply keeps_ite1 | apply keeps_ite2
    | apply keeps_ite22 | apply keeps_foldl | apply keeps_foldl1 | apply keeps_foldl2 | apply keeps_foldNat
    | apply keeps_then | apply keeps_iteC | simp only [id_eq] | apply keeps_recHash | apply keeps_took
    | apply keeps_satF | apply keeps_noCert | apply keeps_setErr | apply keeps_putDigest | dsimp only | split

theorem keeps_curtainReports {s₀ s₁ : State} (h₀ : Keeps s₀ s₁)  :
    Keeps s₀ (State.curtainReports s₁) := by
  unfold State.curtainReports
  try dsimp only
  repeat' with_reducible first
    | intro _ | simp only [↓Keeps.upd_iff] | assumption | apply keeps_ite | apply keeps_foldl | apply keeps_foldNat
    | apply keeps_logAt | apply keeps_setLink | split

theorem keeps_rehEnd {s₀ s₁ : State} (h₀ : Keeps s₀ s₁)  :
    Keeps s₀ (State.rehEnd s₁) := by
  unfold State.rehEnd
  try dsimp only
  repeat' with_reducible first
    | intro _ | simp only [↓Keeps.upd_iff] | assumption | apply keeps_ite | apply keeps_rehReport | split

theorem keeps_action2 {s₀ s₁ : State} (h₀ : Keeps s₀ s₁)  :
    Keeps s₀ (State.action2 s₁) := by
  unfold State.action2
  try dsimp only
  repeat' with_reducible first
    | intro _ | simp only [↓Keeps.upd_iff] | assumption | apply keeps_ite | apply keeps_formDigest
    | apply keeps_wrDigest | apply keeps_curtainReports | apply keeps_rehEnd | split

theorem keeps_recTouch {s₀ s₁ : State} (h₀ : Keeps s₀ s₁) (b : Sys2Proof.Machine.Book) (inForce : Bool) :
    Keeps s₀ (State.recTouch s₁ b inForce) := by
  unfold State.recTouch
  try dsimp only
  repeat' with_reducible first
    | intro _ | simp only [↓Keeps.upd_iff] | assumption | apply keeps_ite | apply keeps_ite1 | apply keeps_ite2
    | apply keeps_ite22 | apply keeps_foldl | apply keeps_foldl1 | apply keeps_foldl2 | apply keeps_foldNat
    | apply keeps_then | apply keeps_iteC | simp only [id_eq] | apply keeps_touch | dsimp only | split

theorem keeps_writeLive {s₀ s₁ : State} (h₀ : Keeps s₀ s₁)  :
    Keeps s₀ (State.writeLive s₁) := by
  unfold State.writeLive
  try dsimp only
  repeat' with_reducible first
    | intro _ | simp only [↓Keeps.upd_iff] | assumption | apply keeps_ite | apply keeps_recTouch
    | apply keeps_noCert | apply keeps_took | refine keeps_partWrite_eq ?_ _ _ (by assumption)
    | apply keeps_partWrite | apply keeps_wrF | split

theorem keeps_showPend {s₀ s₁ : State} (h₀ : Keeps s₀ s₁)  :
    Keeps s₀ (State.showPend s₁) := by
  unfold State.showPend
  try dsimp only
  repeat' with_reducible first
    | intro _ | simp only [↓Keeps.upd_iff] | assumption | apply keeps_ite | apply keeps_foldl | apply keeps_wr
    | apply keeps_wrF | split

theorem keeps_bookBytes {s₀ s₁ : State} (h₀ : Keeps s₀ s₁)  :
    Keeps s₀ (State.bookBytes s₁).1 := by
  unfold State.bookBytes
  try dsimp only
  repeat' with_reducible first
    | intro _ | simp only [↓Keeps.upd_iff] | assumption | apply keeps_ite | apply keeps_ite1 | apply keeps_ite2
    | apply keeps_ite22 | apply keeps_foldl | apply keeps_foldl1 | apply keeps_foldl2 | apply keeps_foldNat
    | apply keeps_then | apply keeps_iteC | simp only [id_eq] | refine keeps_readOwn_eq ?_ _ _ (by assumption)
    | apply keeps_readOwn | dsimp only | split
theorem keeps_bookBytes_eq {s₀ s₁ : State} (h₀ : Keeps s₀ s₁)  {x₀ y₀}
    (e₀ : (State.bookBytes s₁) = (x₀, y₀)) : Keeps s₀ x₀ := by
  have k := keeps_bookBytes h₀ ; rw [e₀] at k; exact k

theorem keeps_reportRecs {s₀ s₁ : State} (h₀ : Keeps s₀ s₁) (b : Sys2Proof.Machine.Book) :
    Keeps s₀ (State.reportRecs s₁ b) := by
  unfold State.reportRecs
  try dsimp only
  repeat' with_reducible first
    | intro _ | simp only [↓Keeps.upd_iff] | assumption | apply keeps_ite | apply keeps_wrF | split

theorem keeps_markStep {s₀ s₁ : State} (h₀ : Keeps s₀ s₁) (b : Sys2Proof.Machine.Book) :
    Keeps s₀ (State.markStep s₁ b) := by
  unfold State.markStep
  try dsimp only
  repeat' with_reducible first
    | intro _ | simp only [↓Keeps.upd_iff] | assumption | apply keeps_ite | apply keeps_logAt | apply keeps_wrF
    | split

theorem keeps_loadCtrlEffect {s₀ s₁ : State} (h₀ : Keeps s₀ s₁) (v : Nat) :
    Keeps s₀ (State.loadCtrlEffect s₁ v) := by
  unfold State.loadCtrlEffect
  try dsimp only
  repeat' with_reducible first
    | intro _ | simp only [↓Keeps.upd_iff] | assumption | apply keeps_ite | apply keeps_wrF
    | refine keeps_bookBytes_eq ?_  (by assumption) | apply keeps_bookBytes | split

/-! ### Vector -/

theorem keeps_vxeBranch {s₀ s₁ : State} (h₀ : Keeps s₀ s₁) (u : Sys2Proof.Unit36) (i : Sys2Proof.Instr) (a : Sys2Proof.SArgs) (taken : Sys2Proof.Word → Sys2Proof.Word → Bool) :
    Keeps s₀ (vxeBranch u i a taken s₁) := by
  unfold vxeBranch
  try dsimp only
  repeat' with_reducible first
    | intro _ | simp only [↓Keeps.upd_iff] | assumption | apply keeps_ite | apply keeps_setVxe
    | apply keeps_progress | apply keeps_incF | split

theorem keeps_vxeRun {s₀ s₁ : State} (h₀ : Keeps s₀ s₁) (u : Sys2Proof.Unit36) (i : Sys2Proof.Instr) (f : Sys2Proof.Machine.VxeRegs → Sys2Proof.Machine.VRes) :
    Keeps s₀ (vxeRun u i f s₁) := by
  unfold vxeRun
  try dsimp only
  repeat' with_reducible first
    | intro _ | simp only [↓Keeps.upd_iff] | assumption | apply keeps_ite | apply keeps_vxeFault
    | apply keeps_vxeNext | split

theorem keeps_vxeSet {s₀ s₁ : State} (h₀ : Keeps s₀ s₁) (u : Sys2Proof.Unit36) (i : Sys2Proof.Instr) (f : Sys2Proof.Machine.VxeRegs → Sys2Proof.Machine.VxeRegs) :
    Keeps s₀ (vxeSet u i f s₁) := by
  unfold vxeSet
  try dsimp only
  repeat' with_reducible first
    | intro _ | simp only [↓Keeps.upd_iff] | assumption | apply keeps_ite | apply keeps_vxeRun | split

/-! ### VectorSync -/

theorem keeps_vxeSem {s₀ s₁ : State} (h₀ : Keeps s₀ s₁) (u : Sys2Proof.Unit36) (i : Sys2Proof.Instr) (a : Sys2Proof.SArgs) (add : Bool) :
    Keeps s₀ (vxeSem u i a add s₁) := by
  unfold vxeSem
  try dsimp only
  repeat' with_reducible first
    | intro _ | simp only [↓Keeps.upd_iff] | assumption | apply keeps_ite | apply keeps_vxeFault
    | apply keeps_engineSem | split

/-! ### Blocks -/

theorem keeps_syncPend {s₀ s₁ : State} (h₀ : Keeps s₀ s₁) (d : Nat) (pg : Nat) :
    Keeps s₀ (State.syncPend s₁ d pg) := by
  unfold State.syncPend
  try dsimp only
  repeat' with_reducible first
    | intro _ | simp only [↓Keeps.upd_iff] | assumption | apply keeps_ite | apply keeps_wrF | split

theorem keeps_setBlkSt {s₀ s₁ : State} (h₀ : Keeps s₀ s₁) (d : Nat) (pg : Nat) (v : Nat) :
    Keeps s₀ (State.setBlkSt s₁ d pg v) := by
  unfold State.setBlkSt
  try dsimp only
  repeat' with_reducible first
    | intro _ | simp only [↓Keeps.upd_iff] | assumption | apply keeps_ite | apply keeps_syncPend | apply keeps_wrF
    | split

theorem keeps_beginClose {s₀ s₁ : State} (h₀ : Keeps s₀ s₁) (d : Nat) (pg : Nat) :
    Keeps s₀ (State.beginClose s₁ d pg) := by
  unfold State.beginClose
  try dsimp only
  repeat' with_reducible first
    | intro _ | simp only [↓Keeps.upd_iff] | assumption | apply keeps_ite | apply keeps_setBlkSt
    | apply keeps_setErr | apply keeps_cancelBay | apply keeps_resend | split

theorem keeps_beginOpen {s₀ s₁ : State} (h₀ : Keeps s₀ s₁) (d : Nat) (pg : Nat) :
    Keeps s₀ (State.beginOpen s₁ d pg) := by
  unfold State.beginOpen
  try dsimp only
  repeat' with_reducible first
    | intro _ | simp only [↓Keeps.upd_iff] | assumption | apply keeps_ite | apply keeps_setBlkSt | split

theorem keeps_closed {s₀ s₁ : State} (h₀ : Keeps s₀ s₁) (d : Nat) (pg : Nat) :
    Keeps s₀ (State.closed s₁ d pg) := by
  unfold State.closed
  try dsimp only
  repeat' with_reducible first
    | intro _ | simp only [↓Keeps.upd_iff] | assumption | apply keeps_ite | apply keeps_mxeDiscard
    | apply keeps_vxeDiscard | apply keeps_lctrl | apply keeps_linkDown | split

theorem keeps_ctrlBit {s₀ s₁ : State} (h₀ : Keeps s₀ s₁) (w : Sys2Proof.Writer) (d : Nat) (pg : Nat) (bit : Nat) (v : Nat) :
    Keeps s₀ (State.ctrlBit s₁ w d pg bit v).s := by
  unfold State.ctrlBit
  try dsimp only
  repeat' with_reducible first
    | intro _ | simp only [↓Keeps.upd_iff] | assumption | apply keeps_ite | apply keeps_write1 | split

theorem keeps_enableEffect {s₀ s₁ : State} (h₀ : Keeps s₀ s₁) (d : Nat) (pg : Nat) (o : Sys2Proof.Origin) :
    Keeps s₀ (State.enableEffect s₁ d pg o) := by
  unfold State.enableEffect
  try dsimp only
  repeat' with_reducible first
    | intro _ | simp only [↓Keeps.upd_iff] | assumption | apply keeps_ite | apply keeps_wrF | apply keeps_beginOpen
    | apply keeps_beginClose | apply keeps_syncPend | split

theorem keeps_opened {s₀ s₁ : State} (h₀ : Keeps s₀ s₁) (d : Nat) (pg : Nat) :
    Keeps s₀ (State.opened s₁ d pg) := by
  unfold State.opened
  try dsimp only
  repeat' with_reducible first
    | intro _ | simp only [↓Keeps.upd_iff] | assumption | apply keeps_ite | apply keeps_foldl | apply keeps_setMxe
    | apply keeps_setVxe | apply keeps_setSlot | split

theorem keeps_pauseBit {s₀ s₁ : State} (h₀ : Keeps s₀ s₁) (w : Sys2Proof.Writer) (d : Nat) (pg : Nat) (v : Nat) :
    Keeps s₀ (State.pauseBit s₁ w d pg v) := by
  unfold State.pauseBit
  try dsimp only
  repeat' with_reducible first
    | intro _ | simp only [↓Keeps.upd_iff] | assumption | apply keeps_ite | apply keeps_then | apply keeps_ctrlBit
    | apply keeps_enableEffect | split

/-! ### HangOps -/

theorem keeps_baySections {s₀ s₁ : State} (h₀ : Keeps s₀ s₁) (d : Nat) (b : Nat) :
    Keeps s₀ (State.baySections s₁ d b).2 := by
  unfold State.baySections
  try dsimp only
  repeat' with_reducible first
    | intro _ | simp only [↓Keeps.upd_iff] | assumption | apply keeps_ite | apply keeps_took | split
theorem keeps_baySections_eq {s₀ s₁ : State} (h₀ : Keeps s₀ s₁) (d : Nat) (b : Nat) {x₀ y₀}
    (e₀ : (State.baySections s₁ d b) = (x₀, y₀)) : Keeps s₀ y₀ := by
  have k := keeps_baySections h₀ d b; rw [e₀] at k; exact k

theorem keeps_capture {s₀ s₁ : State} (h₀ : Keeps s₀ s₁) (trigger : Nat) (dom : Nat) (d : Nat) (bay : Option Nat) (lost : List (Nat × Nat)) (failed : Bool) :
    Keeps s₀ (State.capture s₁ trigger dom d bay lost failed) := by
  unfold State.capture
  apply keeps_wr
  have h₁ : ∀ l : List Nat, Keeps s₀ (l.foldl (fun (a : List (Nat × List Byte) × State) b =>
      (a.1 ++ (a.2.baySections d b).1, (a.2.baySections d b).2)) ([], s₁)).2 := fun l =>
    keeps_foldl2 h₀ fun _ _ h => keeps_baySections h _ _
  exact (keeps_took (h₁ _) 2).upd rfl rfl rfl rfl rfl rfl

theorem keeps_loseSectors {s₀ s₁ : State} (h₀ : Keeps s₀ s₁) (secs : List Nat) :
    Keeps s₀ (State.loseSectors s₁ secs) := by
  unfold State.loseSectors
  try dsimp only
  repeat' with_reducible first
    | intro _ | simp only [↓Keeps.upd_iff] | assumption | apply keeps_ite | apply keeps_foldl | apply keeps_markBad
    | apply keeps_foundBad | split

/-! ### Messages -/

theorem and_or_self {w : Nat} (x y : BitVec w) : x &&& (x ||| y) = x := by
  ext i
  simp only [BitVec.getElem_and, BitVec.getElem_or]
  cases x[i] <;> simp

theorem keepsF_ite {f a b : Fuses} {c : Prop} [Decidable c] (h : f.keeps a) (k : f.keeps b) : f.keeps (if c then a else b) := by
  split <;> assumption

/-- A blow that is cut short leaves fuses that are blown blown. -/
theorem Fuses.keeps_cut (f : Fuses) (m : Msg) (r j : Nat) : f.keeps (f.cut m r j) := by
  have hb : ∀ h : Tab (BitVec 256), f.keeps { f with ownerHash := h } := fun h => by simp [Fuses.keeps]
  have hr : ∀ x, f.keeps { f with ownerRevoke := f.ownerRevoke ||| x } := fun x => by simp [Fuses.keeps, and_or_self]
  have hk : ∀ x, f.keeps { f with fwRollback := f.fwRollback ||| x } := fun x => by simp [Fuses.keeps, and_or_self]
  have hp : ∀ n x, f.keeps { f with protRemove := Tab.upd 0 f.protRemove n (· ||| x) } := fun n x => by
    refine ⟨by simp, by simp, by simp, fun pg => ?_⟩
    simp only [Tab.upd, Tab.get_set _ _ _ _ _ _ (fun _ => rfl)]
    split
    · next e => subst e; exact and_or_self _ _
    · simp
  unfold Fuses.cut
  with_reducible split
  · with_reducible exact keepsF_ite (Fuses.keeps_refl f) (hb _)
  · with_reducible exact keepsF_ite (Fuses.keeps_refl f) (hr _)
  · exact hk _
  · with_reducible exact keepsF_ite (Fuses.keeps_refl f) (hp _ _)
  · exact Fuses.keeps_refl f
theorem keeps_blowCut {s₀ s₁ : State} (h₀ : Keeps s₀ s₁) : Keeps s₀ s₁.blowCut := by
  unfold State.blowCut
  split
  · exact keeps_took (⟨h₀.regs, h₀.inForce, h₀.mem, h₀.staging, Fuses.keeps_trans h₀.fuses (Fuses.keeps_cut _ _ _ _), h₀.seq⟩ :
      Keeps s₀ { s₁ with sec := { s₁.sec with fuses := s₁.sec.fuses.cut _ s₁.imageRollback s₁.free.toNat } }) 1
  · exact h₀

/-! ### Resets -/

theorem keeps_ckptAbandon {s₀ s₁ : State} (h₀ : Keeps s₀ s₁)  :
    Keeps s₀ (State.ckptAbandon s₁) := by
  unfold State.ckptAbandon
  try dsimp only
  repeat' with_reducible first
    | intro _ | simp only [↓Keeps.upd_iff] | assumption | apply keeps_ite | apply keeps_wrF | split

theorem keeps_endQuiet {s₀ s₁ : State} (h₀ : Keeps s₀ s₁)  :
    Keeps s₀ (State.endQuiet s₁) := by
  unfold State.endQuiet
  try dsimp only
  repeat' with_reducible first
    | intro _ | simp only [↓Keeps.upd_iff] | assumption | apply keeps_ite | apply keeps_noCert | apply keeps_wrF
    | split

theorem keeps_ctxLost {s₀ s₁ : State} (h₀ : Keeps s₀ s₁) (d : Nat) (b : Nat) (keep : List Nat) :
    Keeps s₀ (State.ctxLost s₁ d b keep) := by
  unfold State.ctxLost
  try dsimp only
  repeat' with_reducible first
    | intro _ | simp only [↓Keeps.upd_iff] | assumption | apply keeps_ite | apply keeps_logAt
    | apply keeps_hwTeardown | split

theorem keeps_dropTracks {s₀ s₁ : State} (h₀ : Keeps s₀ s₁) (p : Nat → Sys2Proof.Machine.Track → Bool) :
    Keeps s₀ (State.dropTracks s₁ p) := by
  unfold State.dropTracks
  try dsimp only
  repeat' with_reducible first
    | intro _ | simp only [↓Keeps.upd_iff] | assumption | apply keeps_ite | split

theorem keeps_bayLost {s₀ s₁ : State} (h₀ : Keeps s₀ s₁) (d : Nat) (b : Nat) :
    Keeps s₀ (State.bayLost s₁ d b) := by
  unfold State.bayLost
  have key : ∀ x : State, Keeps s₀ x → Keeps s₀ { x with
      mxe := Tab.set {} x.mxe (bayKey d b) { atEnd := true }, vxe := Tab.set {} x.vxe (bayKey d b) { atEnd := true },
      gather := Tab.del x.gather (bayKey d b), slots := Tab.keep (fun k => decide (k / 32 ≠ bayKey d b)) x.slots,
      staging := Tab.keep (fun k => decide (k / 2 ^ 23 ≠ bayKey d b)) x.staging } := fun x h =>
    ⟨h.regs, h.inForce, h.mem, fun w => Tab.wf_keep (fun k => decide (k / 2 ^ 23 ≠ bayKey d b)) (h.staging w), h.fuses, h.seq⟩
  apply key
  apply keeps_dropTracks
  apply keeps_ite
  · exact keeps_dupAbandon (keeps_dupAbandon h₀ _) _
  · exact keeps_dupAbandon h₀ _

theorem keeps_portLost {s₀ s₁ : State} (h₀ : Keeps s₀ s₁) (p : Nat) :
    Keeps s₀ (State.portLost s₁ p) := by
  unfold State.portLost
  try dsimp only
  repeat' with_reducible first
    | intro _ | simp only [↓Keeps.upd_iff] | assumption | apply keeps_ite | apply keeps_setLink
    | apply keeps_linkDown | split

theorem keeps_queuesOff {s₀ s₁ : State} (h₀ : Keeps s₀ s₁) (d : Nat) (heads : Bool) :
    Keeps s₀ (State.queuesOff s₁ d heads) := by
  unfold State.queuesOff
  try dsimp only
  repeat' with_reducible first
    | intro _ | simp only [↓Keeps.upd_iff] | assumption | apply keeps_ite | split

theorem keeps_residLost {s₀ s₁ : State} (h₀ : Keeps s₀ s₁) (d : Nat) :
    Keeps s₀ (State.residLost s₁ d) := by
  unfold State.residLost
  try dsimp only
  repeat' with_reducible first
    | intro _ | simp only [↓Keeps.upd_iff] | assumption | apply keeps_ite | apply keeps_foldl
    | apply keeps_setBayCtx | apply keeps_setResid | apply keeps_stopCheck | split

theorem keeps_stackMode {s₀ s₁ : State} (h₀ : Keeps s₀ s₁) (d : Nat) (v : Nat) :
    Keeps s₀ (State.stackMode s₁ d v) := by
  unfold State.stackMode
  try dsimp only
  repeat' with_reducible first
    | intro _ | simp only [↓Keeps.upd_iff] | assumption | apply keeps_ite | apply keeps_foldNat | apply keeps_wrF
    | split

theorem keeps_perst {s₀ s₁ : State} (h₀ : Keeps s₀ s₁) (d : Nat) (level : Bool) :
    Keeps s₀ (State.perst s₁ d level) := by
  unfold State.perst
  try dsimp only
  repeat' with_reducible first
    | intro _ | simp only [↓Keeps.upd_iff] | assumption | apply keeps_ite | apply keeps_send | split

theorem keeps_agentLost {s₀ s₁ : State} (h₀ : Keeps s₀ s₁) (d : Nat) :
    Keeps s₀ (State.agentLost s₁ d) := by
  unfold State.agentLost
  try dsimp only
  repeat' with_reducible first
    | intro _ | simp only [↓Keeps.upd_iff] | assumption | apply keeps_ite | split

theorem keeps_cacheLost {s₀ s₁ : State} (h₀ : Keeps s₀ s₁) (d : Nat) :
    Keeps s₀ (State.cacheLost s₁ d) := by
  unfold State.cacheLost
  try dsimp only
  repeat' with_reducible first
    | intro _ | simp only [↓Keeps.upd_iff] | assumption | apply keeps_ite | split

theorem keeps_partitionLost {s₀ s₁ : State} (h₀ : Keeps s₀ s₁) (d : Nat) :
    Keeps s₀ (State.partitionLost s₁ d) := by
  unfold State.partitionLost
  try dsimp only
  repeat' with_reducible first
    | intro _ | simp only [↓Keeps.upd_iff] | assumption | apply keeps_ite | apply keeps_foldl | apply keeps_foldNat
    | apply keeps_ckptAbandon | apply keeps_endQuiet | apply keeps_ctxLost | apply keeps_residLost
    | apply keeps_bayLost | apply keeps_portLost | apply keeps_dropTracks | apply keeps_stackMode
    | apply keeps_perst | apply keeps_queuesOff | apply keeps_agentLost | apply keeps_cacheLost | split

theorem keeps_deviceLost {s₀ s₁ : State} (h₀ : Keeps s₀ s₁)  :
    Keeps s₀ (State.deviceLost s₁) := by
  exact ⟨fun _ => rfl, fun _ => rfl, fun _ => rfl, fun _ => rfl, h₀.fuses, h₀.seq⟩

theorem keeps_resetPage {s₀ s₁ : State} (h₀ : Keeps s₀ s₁) (d : Nat) (pg : Nat) :
    Keeps s₀ (State.resetPage s₁ d pg) := by
  unfold State.resetPage
  try dsimp only
  repeat' with_reducible first
    | intro _ | simp only [↓Keeps.upd_iff] | assumption | apply keeps_ite | apply keeps_foldl | apply keeps_wr
    | split

theorem keeps_pageIn {s₀ s₁ : State} (h₀ : Keeps s₀ s₁) (d : Nat) (pg : Nat) :
    Keeps s₀ (State.pageIn s₁ d pg) := by
  unfold State.pageIn
  try dsimp only
  repeat' with_reducible first
    | intro _ | simp only [↓Keeps.upd_iff] | assumption | apply keeps_ite | apply keeps_incF | apply keeps_wrF
    | apply keeps_resetPage | split

theorem keeps_unitIn {s₀ s₁ : State} (h₀ : Keeps s₀ s₁) (k : Nat) (d : Nat) (ix : Nat) :
    Keeps s₀ (State.unitIn s₁ k d ix) := by
  unfold State.unitIn
  try dsimp only
  repeat' with_reducible first
    | intro _ | simp only [↓Keeps.upd_iff] | assumption | apply keeps_ite | apply keeps_setUnit | split

theorem keeps_domainIn {s₀ s₁ : State} (h₀ : Keeps s₀ s₁) (x : Sys2Proof.Machine.DomId) :
    Keeps s₀ (State.domainIn s₁ x) := by
  unfold State.domainIn
  try dsimp only
  repeat' with_reducible first
    | intro _ | simp only [↓Keeps.upd_iff] | assumption | apply keeps_ite | apply keeps_foldl
    | apply keeps_endQuiet | apply keeps_setBayCtx | apply keeps_ctxLost | apply keeps_bayLost
    | apply keeps_dropTracks | apply keeps_portLost | apply keeps_queuesOff | apply keeps_partitionLost
    | apply keeps_perst | apply keeps_deviceLost | apply keeps_pageIn | apply keeps_unitIn | split

theorem keeps_showReset {s₀ s₁ : State} (h₀ : Keeps s₀ s₁)  :
    Keeps s₀ (State.showReset s₁) := by
  unfold State.showReset
  try dsimp only
  repeat' with_reducible first
    | intro _ | simp only [↓Keeps.upd_iff] | assumption | apply keeps_ite | apply keeps_wrF | split

theorem keeps_beginReset {s₀ s₁ : State} (h₀ : Keeps s₀ s₁) (x : Sys2Proof.Machine.DomId) (origin : Nat) (hang : Bool) :
    Keeps s₀ (State.beginReset s₁ x origin hang) := by
  unfold State.beginReset
  try dsimp only
  repeat' with_reducible first
    | intro _ | simp only [↓Keeps.upd_iff] | assumption | apply keeps_ite | apply keeps_writeBack
    | apply keeps_logAt | apply keeps_blowCut | apply keeps_domainIn | apply keeps_took | apply keeps_wr
    | apply keeps_incF | apply keeps_showReset | split

theorem keeps_resetReq {s₀ s₁ : State} (h₀ : Keeps s₀ s₁) (x : Sys2Proof.Machine.DomId) (origin : Nat) (hang : Bool) :
    Keeps s₀ (State.resetReq s₁ x origin hang) := by
  unfold State.resetReq
  try dsimp only
  repeat' with_reducible first
    | intro _ | simp only [↓Keeps.upd_iff] | assumption | apply keeps_ite | apply keeps_incF
    | apply keeps_beginReset | apply keeps_capture | split

theorem keeps_pageOut {s₀ s₁ : State} (h₀ : Keeps s₀ s₁) (d : Nat) (pg : Nat) :
    Keeps s₀ (State.pageOut s₁ d pg) := by
  unfold State.pageOut
  try dsimp only
  repeat' with_reducible first
    | intro _ | simp only [↓Keeps.upd_iff] | assumption | apply keeps_ite | apply keeps_wrF | split

theorem keeps_unitOut {s₀ s₁ : State} (h₀ : Keeps s₀ s₁) (k : Nat) (d : Nat) (ix : Nat) :
    Keeps s₀ (State.unitOut s₁ k d ix) := by
  unfold State.unitOut
  try dsimp only
  repeat' with_reducible first
    | intro _ | simp only [↓Keeps.upd_iff] | assumption | apply keeps_ite | apply keeps_setUnit | split

theorem keeps_stackWake {s₀ s₁ : State} (h₀ : Keeps s₀ s₁) (d : Nat) :
    Keeps s₀ (State.stackWake s₁ d) := by
  unfold State.stackWake
  try dsimp only
  repeat' with_reducible first
    | intro _ | simp only [↓Keeps.upd_iff] | assumption | apply keeps_ite | apply keeps_stackMode | split

theorem keeps_reqWritten {s₀ s₁ : State} (h₀ : Keeps s₀ s₁) (v : Nat) (o : Sys2Proof.Origin) :
    Keeps s₀ (State.reqWritten s₁ v o) := by
  unfold State.reqWritten
  try dsimp only
  repeat' with_reducible first
    | intro _ | simp only [↓Keeps.upd_iff] | assumption | apply keeps_ite | apply keeps_resetReq | split

theorem keeps_reqRow {s₀ s₁ : State} (h₀ : Keeps s₀ s₁) (w : Sys2Proof.Writer) (dom : Nat) (d : Nat) (u : Nat) :
    Keeps s₀ (State.reqRow s₁ w dom d u) := by
  unfold State.reqRow
  try dsimp only
  repeat' with_reducible first
    | intro _ | simp only [↓Keeps.upd_iff] | assumption | apply keeps_ite | apply keeps_then | apply keeps_write1
    | apply keeps_reqWritten | split

/-! ### Cue -/

theorem keeps_cuesLater {s₀ s₁ : State} (h₀ : Keeps s₀ s₁) (x : Nat) :
    Keeps s₀ (State.cuesLater s₁ x) := by
  unfold State.cuesLater
  try dsimp only
  repeat' with_reducible first
    | intro _ | simp only [↓Keeps.upd_iff] | assumption | apply keeps_ite | split

theorem keeps_rosterTouch {s₀ s₁ : State} (h₀ : Keeps s₀ s₁)  :
    Keeps s₀ (State.rosterTouch s₁) := by
  unfold State.rosterTouch
  try dsimp only
  repeat' with_reducible first
    | intro _ | simp only [↓Keeps.upd_iff] | assumption | apply keeps_ite | apply keeps_ite1 | apply keeps_ite2
    | apply keeps_ite22 | apply keeps_foldl | apply keeps_foldl1 | apply keeps_foldl2 | apply keeps_foldNat
    | apply keeps_then | apply keeps_iteC | simp only [id_eq] | apply keeps_touch | dsimp only | split

theorem keeps_setFence {s₀ s₁ : State} (h₀ : Keeps s₀ s₁) (dev : Nat) (on : Bool) :
    Keeps s₀ (State.setFence s₁ dev on) := by
  unfold State.setFence
  try dsimp only
  repeat' with_reducible first
    | intro _ | simp only [↓Keeps.upd_iff] | assumption | apply keeps_ite | apply keeps_foldNat | apply keeps_wrF
    | split

theorem keeps_loadRoster {s₀ s₁ : State} (h₀ : Keeps s₀ s₁) (r : List (Nat × Nat)) :
    Keeps s₀ (State.loadRoster s₁ r) := by
  unfold State.loadRoster
  try dsimp only
  repeat' with_reducible first
    | intro _ | simp only [↓Keeps.upd_iff] | assumption | apply keeps_ite | split

theorem keeps_diverged {s₀ s₁ : State} (h₀ : Keeps s₀ s₁)  :
    Keeps s₀ (State.diverged s₁) := by
  unfold State.diverged
  try dsimp only
  repeat' with_reducible first
    | intro _ | simp only [↓Keeps.upd_iff] | assumption | apply keeps_ite | apply keeps_ite1 | apply keeps_ite2
    | apply keeps_ite22 | apply keeps_foldl | apply keeps_foldl1 | apply keeps_foldl2 | apply keeps_foldNat
    | apply keeps_then | apply keeps_iteC | simp only [id_eq] | apply keeps_histEvent | apply keeps_logAt
    | apply keeps_setErr | dsimp only | split

theorem keeps_showRole {s₀ s₁ : State} (h₀ : Keeps s₀ s₁)  :
    Keeps s₀ (State.showRole s₁) := by
  unfold State.showRole
  try dsimp only
  repeat' with_reducible first
    | intro _ | simp only [↓Keeps.upd_iff] | assumption | apply keeps_ite | apply keeps_wrF | split

theorem keeps_setPhase {s₀ s₁ : State} (h₀ : Keeps s₀ s₁) (v : Nat) :
    Keeps s₀ (State.setPhase s₁ v) := by
  unfold State.setPhase
  try dsimp only
  repeat' with_reducible first
    | intro _ | simp only [↓Keeps.upd_iff] | assumption | apply keeps_ite | apply keeps_wrF | split

theorem keeps_setRound {s₀ s₁ : State} (h₀ : Keeps s₀ s₁) (step : Nat) (a : Nat) :
    Keeps s₀ (State.setRound s₁ step a) := by
  unfold State.setRound
  try dsimp only
  repeat' with_reducible first
    | intro _ | simp only [↓Keeps.upd_iff] | assumption | apply keeps_ite | apply keeps_wrF | apply keeps_showRole
    | split

theorem keeps_newRound {s₀ s₁ : State} (h₀ : Keeps s₀ s₁) (step : Nat) :
    Keeps s₀ (State.newRound s₁ step) := by
  unfold State.newRound
  try dsimp only
  repeat' with_reducible first
    | intro _ | simp only [↓Keeps.upd_iff] | assumption | apply keeps_ite | apply keeps_setPhase | apply keeps_wrF
    | apply keeps_setRound | split

theorem keeps_joins {s₀ s₁ : State} (h₀ : Keeps s₀ s₁) (b : Sys2Proof.Machine.Book) :
    Keeps s₀ (State.joins s₁ b).1 := by
  unfold State.joins
  try dsimp only
  repeat' with_reducible first
    | intro _ | simp only [↓Keeps.upd_iff] | assumption | apply keeps_ite | apply keeps_reportRecs
    | apply keeps_rosterTouch | apply keeps_recTouch | apply keeps_markStep | apply keeps_logAt
    | apply keeps_setErr | split
theorem keeps_joins_eq {s₀ s₁ : State} (h₀ : Keeps s₀ s₁) (b : Sys2Proof.Machine.Book) {x₀ y₀}
    (e₀ : (State.joins s₁ b) = (x₀, y₀)) : Keeps s₀ x₀ := by
  have k := keeps_joins h₀ b; rw [e₀] at k; exact k

theorem keeps_takeVote {s₀ s₁ : State} (h₀ : Keeps s₀ s₁) (rank : Nat) (v : Sys2Proof.VoteBody) :
    Keeps s₀ (State.takeVote s₁ rank v) := by
  unfold State.takeVote
  try dsimp only
  repeat' with_reducible first
    | intro _ | simp only [↓Keeps.upd_iff] | assumption | apply keeps_ite | split

theorem keeps_takeDigest {s₀ s₁ : State} (h₀ : Keeps s₀ s₁) (rank : Nat) (kind : Nat) (x : BitVec 256) :
    Keeps s₀ (State.takeDigest s₁ rank kind x) := by
  unfold State.takeDigest
  try dsimp only
  repeat' with_reducible first
    | intro _ | simp only [↓Keeps.upd_iff] | assumption | apply keeps_ite | split

theorem keeps_takePairs {s₀ s₁ : State} (h₀ : Keeps s₀ s₁) (rank : Nat) (ps : List (Nat × Nat)) :
    Keeps s₀ (State.takePairs s₁ rank ps) := by
  unfold State.takePairs
  try dsimp only
  repeat' with_reducible first
    | intro _ | simp only [↓Keeps.upd_iff] | assumption | apply keeps_ite | split

theorem keeps_sendVote {s₀ s₁ : State} (h₀ : Keeps s₀ s₁) (m : Sys2Proof.Machine.OwnVote) :
    Keeps s₀ (State.sendVote s₁ m) := by
  unfold State.sendVote
  try dsimp only
  repeat' with_reducible first
    | intro _ | simp only [↓Keeps.upd_iff] | assumption | apply keeps_ite | apply keeps_foldl
    | apply keeps_takeVote | apply keeps_takeDigest | apply keeps_takePairs | apply keeps_cueSend | split

theorem keeps_ownVote {s₀ s₁ : State} (h₀ : Keeps s₀ s₁) (m : Sys2Proof.Machine.OwnVote) :
    Keeps s₀ (State.ownVote s₁ m) := by
  unfold State.ownVote
  try dsimp only
  repeat' with_reducible first
    | intro _ | simp only [↓Keeps.upd_iff] | assumption | apply keeps_ite | split

theorem keeps_castVote {s₀ s₁ : State} (h₀ : Keeps s₀ s₁) (timedOut : Bool) :
    Keeps s₀ (State.castVote s₁ timedOut) := by
  unfold State.castVote
  try dsimp only
  repeat' with_reducible first
    | intro _ | simp only [↓Keeps.upd_iff] | assumption | apply keeps_ite
    | refine keeps_joins_eq ?_ _ (by assumption) | apply keeps_joins | apply keeps_sendVote | apply keeps_setPhase
    | apply keeps_wrF | apply keeps_ownVote | split

theorem keeps_decideVotes {s₀ s₁ : State} (h₀ : Keeps s₀ s₁)  :
    Keeps s₀ (State.decideVotes s₁).1 := by
  unfold State.decideVotes
  try dsimp only
  repeat' with_reducible first
    | intro _ | simp only [↓Keeps.upd_iff] | assumption | apply keeps_ite | apply keeps_setErr
    | apply keeps_diverged | apply keeps_took | split
theorem keeps_decideVotes_eq {s₀ s₁ : State} (h₀ : Keeps s₀ s₁)  {x₀ y₀}
    (e₀ : (State.decideVotes s₁) = (x₀, y₀)) : Keeps s₀ x₀ := by
  have k := keeps_decideVotes h₀ ; rw [e₀] at k; exact k

/-! ### CueAct -/

theorem keeps_selfAdmitted {s₀ s₁ : State} (h₀ : Keeps s₀ s₁) (out : Sys2Proof.Decision) (pairs : List (Nat × Nat)) :
    Keeps s₀ (State.selfAdmitted s₁ out pairs) := by
  unfold State.selfAdmitted
  try dsimp only
  repeat' with_reducible first
    | intro _ | simp only [↓Keeps.upd_iff] | assumption | apply keeps_ite | apply keeps_wrF | split

theorem keeps_admitCalled {s₀ s₁ : State} (h₀ : Keeps s₀ s₁) (out : Sys2Proof.Decision) (pairs : List (Nat × Nat)) :
    Keeps s₀ (State.admitCalled s₁ out pairs) := by
  unfold State.admitCalled
  try dsimp only
  repeat' with_reducible first
    | intro _ | simp only [↓Keeps.upd_iff] | assumption | apply keeps_ite | apply keeps_selfAdmitted | split

theorem keeps_takeRoster {s₀ s₁ : State} (h₀ : Keeps s₀ s₁)  :
    Keeps s₀ (State.takeRoster s₁) := by
  unfold State.takeRoster
  try dsimp only
  repeat' with_reducible first
    | intro _ | simp only [↓Keeps.upd_iff] | assumption | apply keeps_ite | apply keeps_cuesLater
    | apply keeps_rosterTouch | apply keeps_setErr | split

theorem keeps_certifyStep {s₀ s₁ : State} (h₀ : Keeps s₀ s₁)  :
    Keeps s₀ (State.certifyStep s₁) := by
  unfold State.certifyStep
  try dsimp only
  repeat' with_reducible first
    | intro _ | simp only [↓Keeps.upd_iff] | assumption | apply keeps_ite | apply keeps_wrF | apply keeps_incF
    | apply keeps_wrDigest | apply keeps_showPend | split

theorem keeps_skipStep {s₀ s₁ : State} (h₀ : Keeps s₀ s₁) (pairs : List (Nat × Nat)) :
    Keeps s₀ (State.skipStep s₁ pairs) := by
  unfold State.skipStep
  try dsimp only
  repeat' with_reducible first
    | intro _ | simp only [↓Keeps.upd_iff] | assumption | apply keeps_ite | apply keeps_showPend | apply keeps_incF
    | apply keeps_wrF | apply keeps_logAt | split

theorem keeps_rollBackStep {s₀ s₁ : State} (h₀ : Keeps s₀ s₁)  :
    Keeps s₀ (State.rollBackStep s₁) := by
  unfold State.rollBackStep
  try dsimp only
  repeat' with_reducible first
    | intro _ | simp only [↓Keeps.upd_iff] | assumption | apply keeps_ite | apply keeps_wrDigest | apply keeps_incF
    | split

theorem keeps_stopStep {s₀ s₁ : State} (h₀ : Keeps s₀ s₁)  :
    Keeps s₀ (State.stopStep s₁) := by
  unfold State.stopStep
  try dsimp only
  repeat' with_reducible first
    | intro _ | simp only [↓Keeps.upd_iff] | assumption | apply keeps_ite | apply keeps_setErr | apply keeps_wrF
    | split

theorem keeps_outcome {s₀ s₁ : State} (h₀ : Keeps s₀ s₁) (out : Sys2Proof.Decision) (pairs : List (Nat × Nat)) (waits : Bool) :
    Keeps s₀ (State.outcome s₁ out pairs waits) := by
  unfold State.outcome
  try dsimp only
  repeat' with_reducible first
    | intro _ | simp only [↓Keeps.upd_iff] | assumption | apply keeps_ite | apply keeps_certifyStep
    | apply keeps_skipStep | apply keeps_rollBackStep | apply keeps_stopStep | split

theorem keeps_showDecision {s₀ s₁ : State} (h₀ : Keeps s₀ s₁) (out : Sys2Proof.Decision) (actions : Nat) :
    Keeps s₀ (State.showDecision s₁ out actions) := by
  unfold State.showDecision
  try dsimp only
  repeat' with_reducible first
    | intro _ | simp only [↓Keeps.upd_iff] | assumption | apply keeps_ite | apply keeps_wr | apply keeps_wrF
    | apply keeps_took | apply keeps_logAt | split

theorem keeps_noteCalls {s₀ s₁ : State} (h₀ : Keeps s₀ s₁) (calls : List (Nat × Nat)) (unserved : List Nat) :
    Keeps s₀ (State.noteCalls s₁ calls unserved) := by
  unfold State.noteCalls
  try dsimp only
  repeat' with_reducible first
    | intro _ | simp only [↓Keeps.upd_iff] | assumption | apply keeps_ite | apply keeps_setErr | split

theorem keeps_learnMinority {s₀ s₁ : State} (h₀ : Keeps s₀ s₁) (out : Sys2Proof.Decision) (mine : Bool) :
    Keeps s₀ (State.learnMinority s₁ out mine) := by
  unfold State.learnMinority
  try dsimp only
  repeat' with_reducible first
    | intro _ | simp only [↓Keeps.upd_iff] | assumption | apply keeps_ite | apply keeps_ite1 | apply keeps_ite2
    | apply keeps_ite22 | apply keeps_foldl | apply keeps_foldl1 | apply keeps_foldl2 | apply keeps_foldNat
    | apply keeps_then | apply keeps_iteC | simp only [id_eq] | apply keeps_diverged | apply keeps_took
    | dsimp only | split

theorem keeps_fenceDevs {s₀ s₁ : State} (h₀ : Keeps s₀ s₁) (devs : List Nat) :
    Keeps s₀ (State.fenceDevs s₁ devs) := by
  unfold State.fenceDevs
  try dsimp only
  repeat' with_reducible first
    | intro _ | simp only [↓Keeps.upd_iff] | assumption | apply keeps_ite | apply keeps_foldl | apply keeps_foldNat
    | apply keeps_setFence | apply keeps_showRole | apply keeps_timeTree | apply keeps_fenceDrop | split

theorem keeps_noteRehearsal {s₀ s₁ : State} (h₀ : Keeps s₀ s₁) (p : Sys2Proof.PrepBody) (view : Nat) :
    Keeps s₀ (State.noteRehearsal s₁ p view) := by
  unfold State.noteRehearsal
  try dsimp only
  repeat' with_reducible first
    | intro _ | simp only [↓Keeps.upd_iff] | assumption | apply keeps_ite | apply keeps_wr | split

theorem keeps_holdOrGo {s₀ s₁ : State} (h₀ : Keeps s₀ s₁) (out : Sys2Proof.Decision) (hold : Bool) :
    Keeps s₀ (State.holdOrGo s₁ out hold) := by
  unfold State.holdOrGo
  try dsimp only
  repeat' with_reducible first
    | intro _ | simp only [↓Keeps.upd_iff] | assumption | apply keeps_ite | apply keeps_setErr
    | apply keeps_setPhase | split

theorem keeps_holdTables {s₀ s₁ : State} (h₀ : Keeps s₀ s₁)  :
    Keeps s₀ (State.holdTables s₁) := by
  unfold State.holdTables
  try dsimp only
  repeat' with_reducible first
    | intro _ | simp only [↓Keeps.upd_iff] | assumption | apply keeps_ite | apply keeps_foldNat
    | apply keeps_holdEffect | split

theorem keeps_changeTables {s₀ s₁ : State} (h₀ : Keeps s₀ s₁)  :
    Keeps s₀ (State.changeTables s₁) := by
  unfold State.changeTables
  try dsimp only
  repeat' with_reducible first
    | intro _ | simp only [↓Keeps.upd_iff] | assumption | apply keeps_ite | apply keeps_foldNat | apply keeps_wrF
    | apply keeps_holdTables | split

theorem keeps_selfFenced {s₀ s₁ : State} (h₀ : Keeps s₀ s₁)  :
    Keeps s₀ (State.selfFenced s₁) := by
  unfold State.selfFenced
  try dsimp only
  repeat' with_reducible first
    | intro _ | simp only [↓Keeps.upd_iff] | assumption | apply keeps_ite | apply keeps_showRole | apply keeps_wrF
    | apply keeps_rehReport | apply keeps_ckptAbandon | apply keeps_resetReq | split

theorem keeps_adopt {s₀ s₁ : State} (h₀ : Keeps s₀ s₁) (p : Sys2Proof.PrepBody) (pairs : List (Nat × Nat)) (fences : List Nat) :
    Keeps s₀ (State.adopt s₁ p pairs fences) := by
  unfold State.adopt
  try dsimp only
  repeat' with_reducible first
    | intro _ | simp only [↓Keeps.upd_iff] | assumption | apply keeps_ite | apply keeps_takeRoster
    | apply keeps_outcome | apply keeps_showDecision | apply keeps_noteCalls | apply keeps_wrF
    | apply keeps_learnMinority | apply keeps_fenceDevs | apply keeps_admitCalled | apply keeps_noteRehearsal
    | apply keeps_holdOrGo | apply keeps_changeTables | apply keeps_selfFenced | apply keeps_showRole | split

theorem keeps_adoptIn {s₀ s₁ : State} (h₀ : Keeps s₀ s₁) (p : Sys2Proof.PrepBody) (pairs : List (Nat × Nat)) (fences : List Nat) :
    Keeps s₀ (State.adoptIn s₁ p pairs fences) := by
  unfold State.adoptIn
  try dsimp only
  repeat' with_reducible first
    | intro _ | simp only [↓Keeps.upd_iff] | assumption | apply keeps_ite | apply keeps_ite1 | apply keeps_ite2
    | apply keeps_ite22 | apply keeps_foldl | apply keeps_foldl1 | apply keeps_foldl2 | apply keeps_foldNat
    | apply keeps_then | apply keeps_iteC | simp only [id_eq] | apply keeps_adopt | dsimp only | split

theorem keeps_adoptLate {s₀ s₁ : State} (h₀ : Keeps s₀ s₁)  :
    Keeps s₀ (State.adoptLate s₁) := by
  unfold State.adoptLate
  try dsimp only
  repeat' with_reducible first
    | intro _ | simp only [↓Keeps.upd_iff] | assumption | apply keeps_ite | apply keeps_foldl | apply keeps_adopt
    | split

theorem keeps_agentUp {s₀ s₁ : State} (h₀ : Keeps s₀ s₁) (f : Sys2Proof.Machine.State → Sys2Proof.Machine.State) (h_f : ∀ x , Keeps s₀ x → Keeps s₀ (f x )) :
    Keeps s₀ (State.agentUp s₁ f) := by
  unfold State.agentUp
  try dsimp only
  repeat' with_reducible first
    | intro _ | simp only [↓Keeps.upd_iff] | assumption | apply h_f | apply keeps_ite | split

theorem keeps_buddyFresh {s₀ s₁ : State} (h₀ : Keeps s₀ s₁)  :
    Keeps s₀ (State.buddyFresh s₁) := by
  unfold State.buddyFresh
  try dsimp only
  repeat' with_reducible first
    | intro _ | simp only [↓Keeps.upd_iff] | assumption | apply keeps_ite | split

theorem keeps_buddyGo {s₀ s₁ : State} (h₀ : Keeps s₀ s₁)  :
    Keeps s₀ (State.buddyGo s₁) := by
  unfold State.buddyGo
  try dsimp only
  repeat' with_reducible first
    | intro _ | simp only [↓Keeps.upd_iff] | assumption | apply keeps_ite | apply keeps_ite1 | apply keeps_ite2
    | apply keeps_ite22 | apply keeps_foldl | apply keeps_foldl1 | apply keeps_foldl2 | apply keeps_foldNat
    | apply keeps_then | apply keeps_iteC | simp only [id_eq] | refine keeps_readOwn_eq ?_ _ _ (by assumption)
    | apply keeps_readOwn | apply keeps_openTrack | apply keeps_injectCircuit | dsimp only | split

theorem keeps_noteWriter {s₀ s₁ : State} (h₀ : Keeps s₀ s₁) (step : Nat) (w : Nat) (copies : Nat) :
    Keeps s₀ (State.noteWriter s₁ step w copies) := by
  unfold State.noteWriter
  try dsimp only
  repeat' with_reducible first
    | intro _ | simp only [↓Keeps.upd_iff] | assumption | apply keeps_ite | apply keeps_wrF | apply keeps_wr
    | split

theorem keeps_writers {s₀ s₁ : State} (h₀ : Keeps s₀ s₁) (step : Nat) :
    Keeps s₀ (State.writers s₁ step) := by
  unfold State.writers
  try dsimp only
  repeat' with_reducible first
    | intro _ | simp only [↓Keeps.upd_iff] | assumption | apply keeps_ite | apply keeps_foldl
    | apply keeps_noteWriter | apply keeps_cueSend | split

theorem keeps_commitAll {s₀ s₁ : State} (h₀ : Keeps s₀ s₁) (p : Sys2Proof.Machine.CuePlan) :
    Keeps s₀ (State.commitAll s₁ p) := by
  unfold State.commitAll
  try dsimp only
  repeat' with_reducible first
    | intro _ | simp only [↓Keeps.upd_iff] | assumption | apply keeps_ite | apply keeps_foldl | apply keeps_cueSend
    | apply keeps_writers | apply keeps_adoptIn | split

theorem keeps_tryCommit {s₀ s₁ : State} (h₀ : Keeps s₀ s₁)  :
    Keeps s₀ (State.tryCommit s₁) := by
  unfold State.tryCommit
  try dsimp only
  repeat' with_reducible first
    | intro _ | simp only [↓Keeps.upd_iff] | assumption | apply keeps_ite | apply keeps_commitAll | split

theorem keeps_sendPrepare {s₀ s₁ : State} (h₀ : Keeps s₀ s₁) (p : Sys2Proof.Machine.CuePlan) :
    Keeps s₀ (State.sendPrepare s₁ p) := by
  unfold State.sendPrepare
  try dsimp only
  repeat' with_reducible first
    | intro _ | simp only [↓Keeps.upd_iff] | assumption | apply keeps_ite | apply keeps_foldl
    | apply keeps_buddyFresh | apply keeps_setPhase | apply keeps_cueSend | apply keeps_tryCommit | split

theorem keeps_decideNow {s₀ s₁ : State} (h₀ : Keeps s₀ s₁)  :
    Keeps s₀ (State.decideNow s₁) := by
  unfold State.decideNow
  try dsimp only
  repeat' with_reducible first
    | intro _ | simp only [↓Keeps.upd_iff] | assumption | apply keeps_ite | apply keeps_commitAll
    | refine keeps_decideVotes_eq ?_  (by assumption) | apply keeps_decideVotes | apply keeps_sendPrepare | split

theorem keeps_tryAck {s₀ s₁ : State} (h₀ : Keeps s₀ s₁)  :
    Keeps s₀ (State.tryAck s₁) := by
  unfold State.tryAck
  try dsimp only
  repeat' with_reducible first
    | intro _ | simp only [↓Keeps.upd_iff] | assumption | apply keeps_ite | apply keeps_setPhase
    | apply keeps_cueSend | split

theorem keeps_tryDecide {s₀ s₁ : State} (h₀ : Keeps s₀ s₁)  :
    Keeps s₀ (State.tryDecide s₁) := by
  unfold State.tryDecide
  try dsimp only
  repeat' with_reducible first
    | intro _ | simp only [↓Keeps.upd_iff] | assumption | apply keeps_ite | apply keeps_sendPrepare
    | apply keeps_decideNow | split

/-! ### Checkpoint -/

theorem keeps_manRead {s₀ s₁ : State} (h₀ : Keeps s₀ s₁)  :
    Keeps s₀ (State.manRead s₁).1 := by
  unfold State.manRead
  try dsimp only
  repeat' with_reducible first
    | intro _ | simp only [↓Keeps.upd_iff] | assumption | apply keeps_ite | apply keeps_ite1 | apply keeps_ite2
    | apply keeps_ite22 | apply keeps_foldl | apply keeps_foldl1 | apply keeps_foldl2 | apply keeps_foldNat
    | apply keeps_then | apply keeps_iteC | simp only [id_eq] | refine keeps_readOwn_eq ?_ _ _ (by assumption)
    | apply keeps_readOwn | dsimp only | split
theorem keeps_manRead_eq {s₀ s₁ : State} (h₀ : Keeps s₀ s₁)  {x₀ y₀}
    (e₀ : (State.manRead s₁) = (x₀, y₀)) : Keeps s₀ x₀ := by
  have k := keeps_manRead h₀ ; rw [e₀] at k; exact k

theorem keeps_ckpCode {s₀ s₁ : State} (h₀ : Keeps s₀ s₁) (v : Nat) :
    Keeps s₀ (State.ckpCode s₁ v) := by
  unfold State.ckpCode
  try dsimp only
  repeat' with_reducible first
    | intro _ | simp only [↓Keeps.upd_iff] | assumption | apply keeps_ite | apply keeps_wrF | split

theorem keeps_setCkpState {s₀ s₁ : State} (h₀ : Keeps s₀ s₁) (v : Nat) :
    Keeps s₀ (State.setCkpState s₁ v) := by
  unfold State.setCkpState
  try dsimp only
  repeat' with_reducible first
    | intro _ | simp only [↓Keeps.upd_iff] | assumption | apply keeps_ite | apply keeps_wrF | split

theorem keeps_acceptManifest {s₀ s₁ : State} (h₀ : Keeps s₀ s₁) (b : Sys2Proof.Machine.Book) :
    Keeps s₀ (State.acceptManifest s₁ b).1 := by
  unfold State.acceptManifest
  try dsimp only
  repeat' with_reducible first
    | intro _ | simp only [↓Keeps.upd_iff] | assumption | apply keeps_ite
    | refine keeps_manRead_eq ?_  (by assumption) | apply keeps_manRead | apply keeps_ckpCode
    | apply keeps_setCkpState | split
theorem keeps_acceptManifest_eq {s₀ s₁ : State} (h₀ : Keeps s₀ s₁) (b : Sys2Proof.Machine.Book) {x₀ y₀}
    (e₀ : (State.acceptManifest s₁ b) = (x₀, y₀)) : Keeps s₀ x₀ := by
  have k := keeps_acceptManifest h₀ b; rw [e₀] at k; exact k

theorem keeps_signManifest {s₀ s₁ : State} (h₀ : Keeps s₀ s₁)  :
    Keeps s₀ (State.signManifest s₁) := by
  unfold State.signManifest
  try dsimp only
  repeat' with_reducible first
    | intro _ | simp only [↓Keeps.upd_iff] | assumption | apply keeps_ite | apply keeps_ckpCode | apply keeps_touch
    | refine keeps_partWrite_eq ?_ _ _ (by assumption) | apply keeps_partWrite | apply keeps_wrF
    | apply keeps_setCkpState | split

theorem keeps_ckpDone {s₀ s₁ : State} (h₀ : Keeps s₀ s₁) (n : Nat) :
    Keeps s₀ (State.ckpDone s₁ n) := by
  unfold State.ckpDone
  try dsimp only
  repeat' with_reducible first
    | intro _ | simp only [↓Keeps.upd_iff] | assumption | apply keeps_ite | apply keeps_wrF | split

theorem keeps_restoreBegin {s₀ s₁ : State} (h₀ : Keeps s₀ s₁) (b : Sys2Proof.Machine.Book) (buddy : Bool) (rank : Nat) (i : Nat) :
    Keeps s₀ (State.restoreBegin s₁ b buddy rank i) := by
  unfold State.restoreBegin
  try dsimp only
  repeat' with_reducible first
    | intro _ | simp only [↓Keeps.upd_iff] | assumption | apply keeps_ite | apply keeps_ckpDone
    | apply keeps_ckpCode | apply keeps_setCkpState | apply keeps_wr | split

theorem keeps_imageDone {s₀ s₁ : State} (h₀ : Keeps s₀ s₁) (buddy : Bool) (step : Nat) (list : List Sys2Proof.Byte) :
    Keeps s₀ (State.imageDone s₁ buddy step list) := by
  unfold State.imageDone
  try dsimp only
  repeat' with_reducible first
    | intro _ | simp only [↓Keeps.upd_iff] | assumption | apply keeps_ite | apply keeps_wr
    | refine keeps_partWrite_eq ?_ _ _ (by assumption) | apply keeps_partWrite | apply keeps_ckpCode
    | apply keeps_setCkpState | split

theorem keeps_fetchImage {s₀ s₁ : State} (h₀ : Keeps s₀ s₁) (b : Sys2Proof.Machine.Book) (f : Option (Nat × List Sys2Proof.Byte)) :
    Keeps s₀ (State.fetchImage s₁ b f) := by
  unfold State.fetchImage
  try dsimp only
  repeat' with_reducible first
    | intro _ | simp only [↓Keeps.upd_iff] | assumption | apply keeps_ite | apply keeps_ckpCode
    | refine keeps_partWrite_eq ?_ _ _ (by assumption) | apply keeps_partWrite | apply keeps_imageDone | split

theorem keeps_ckpCommand {s₀ s₁ : State} (h₀ : Keeps s₀ s₁) (v : Nat) (f : Option (Nat × List Sys2Proof.Byte)) :
    Keeps s₀ (State.ckpCommand s₁ v f) := by
  unfold State.ckpCommand
  try dsimp only
  repeat' with_reducible first
    | intro _ | simp only [↓Keeps.upd_iff] | assumption | apply keeps_ite | apply keeps_setCkpState
    | apply keeps_ckpCode | apply keeps_signManifest | refine keeps_acceptManifest_eq ?_ _ (by assumption)
    | apply keeps_acceptManifest | apply keeps_restoreBegin | apply keeps_fetchImage | split

theorem keeps_ckpRow {s₀ s₁ : State} (h₀ : Keeps s₀ s₁) (w : Sys2Proof.Writer) (op : Nat) (dev : Nat) (f : Option (Nat × List Sys2Proof.Byte)) :
    Keeps s₀ (State.ckpRow s₁ w op dev f) := by
  unfold State.ckpRow
  try dsimp only
  repeat' with_reducible first
    | intro _ | simp only [↓Keeps.upd_iff] | assumption | apply keeps_ite | apply keeps_then | apply keeps_write1
    | apply keeps_ckpCommand | split

theorem keeps_exportUnits {s₀ s₁ : State} (h₀ : Keeps s₀ s₁) (a0 : Nat) :
    Keeps s₀ (exportUnits a0 s₁) := by
  induction a0 generalizing s₁  with
  | zero => exact h₀
  | succ n ih =>
    unfold exportUnits
    try dsimp only
    repeat' with_reducible first
      | intro _ | simp only [↓Keeps.upd_iff] | assumption | apply ih | apply keeps_ite | apply keeps_touch
      | refine keeps_partWrite_eq ?_ _ _ (by assumption) | apply keeps_partWrite | apply keeps_ckpDone
      | apply keeps_wrF | split

theorem keeps_exportGo {s₀ s₁ : State} (h₀ : Keeps s₀ s₁) (r : Sys2Proof.Machine.CkpRun) :
    Keeps s₀ (State.exportGo s₁ r) := by
  unfold State.exportGo
  try dsimp only
  repeat' with_reducible first
    | intro _ | simp only [↓Keeps.upd_iff] | assumption | apply keeps_ite | apply keeps_ite1 | apply keeps_ite2
    | apply keeps_ite22 | apply keeps_foldl | apply keeps_foldl1 | apply keeps_foldl2 | apply keeps_foldNat
    | apply keeps_then | apply keeps_iteC | simp only [id_eq] | apply keeps_ckpDone | apply keeps_ckpCode
    | apply keeps_setCkpState | apply keeps_wr | apply keeps_exportUnits | dsimp only | split

theorem keeps_exportRead {s₀ s₁ : State} (h₀ : Keeps s₀ s₁) (r : Sys2Proof.Machine.CkpRun) (b : Sys2Proof.Machine.Book) (key : List Sys2Proof.Byte) :
    Keeps s₀ (State.exportRead s₁ r b key) := by
  unfold State.exportRead
  try dsimp only
  repeat' with_reducible first
    | intro _ | simp only [↓Keeps.upd_iff] | assumption | apply keeps_ite | apply keeps_ite1 | apply keeps_ite2
    | apply keeps_ite22 | apply keeps_foldl | apply keeps_foldl1 | apply keeps_foldl2 | apply keeps_foldNat
    | apply keeps_then | apply keeps_iteC | simp only [id_eq] | refine keeps_readOwn_eq ?_ _ _ (by assumption)
    | apply keeps_readOwn | apply keeps_exportGo | dsimp only | split

theorem keeps_exportBegin {s₀ s₁ : State} (h₀ : Keeps s₀ s₁)  :
    Keeps s₀ (State.exportBegin s₁) := by
  unfold State.exportBegin
  try dsimp only
  repeat' with_reducible first
    | intro _ | simp only [↓Keeps.upd_iff] | assumption | apply keeps_ite | apply keeps_ite1 | apply keeps_ite2
    | apply keeps_ite22 | apply keeps_foldl | apply keeps_foldl1 | apply keeps_foldl2 | apply keeps_foldNat
    | apply keeps_then | apply keeps_iteC | simp only [id_eq] | apply keeps_ckpCode | apply keeps_exportRead
    | dsimp only | split

theorem keeps_rejectImage {s₀ s₁ : State} (h₀ : Keeps s₀ s₁) (code : Nat) :
    Keeps s₀ (State.rejectImage s₁ code) := by
  unfold State.rejectImage
  try dsimp only
  repeat' with_reducible first
    | intro _ | simp only [↓Keeps.upd_iff] | assumption | apply keeps_ite | apply keeps_ckpCode
    | apply keeps_setCkpState | split

theorem keeps_restoreUnit {s₀ s₁ : State} (h₀ : Keeps s₀ s₁) (r : Sys2Proof.Machine.CkpRun) (key : List Sys2Proof.Byte) (u : List Sys2Proof.Byte) :
    Keeps s₀ (State.restoreUnit s₁ r key u) := by
  unfold State.restoreUnit
  try dsimp only
  repeat' with_reducible first
    | intro _ | simp only [↓Keeps.upd_iff] | assumption | apply keeps_ite | apply keeps_ckpDone | apply keeps_wrF
    | apply keeps_rejectImage | refine keeps_partWrite_eq ?_ _ _ (by assumption) | apply keeps_partWrite | split

theorem keeps_restoreUnits {s₀ s₁ : State} (h₀ : Keeps s₀ s₁) (a0 : Nat) :
    Keeps s₀ (restoreUnits a0 s₁) := by
  induction a0 generalizing s₁  with
  | zero => exact h₀
  | succ n ih =>
    unfold restoreUnits
    try dsimp only
    repeat' with_reducible first
      | intro _ | simp only [↓Keeps.upd_iff] | assumption | apply ih | apply keeps_ite
      | refine keeps_readOwn_eq ?_ _ _ (by assumption) | apply keeps_readOwn | apply keeps_restoreUnit | split

theorem keeps_ringGo {s₀ s₁ : State} (h₀ : Keeps s₀ s₁)  :
    Keeps s₀ (State.ringGo s₁) := by
  unfold State.ringGo
  try dsimp only
  repeat' with_reducible first
    | intro _ | simp only [↓Keeps.upd_iff] | assumption | apply keeps_ite | apply keeps_exportUnits
    | apply keeps_restoreUnits | split

/-! ### Activate -/

theorem keeps_sustainReset {s₀ s₁ : State} (h₀ : Keeps s₀ s₁)  :
    Keeps s₀ (State.sustainReset s₁) := by
  unfold State.sustainReset
  try dsimp only
  repeat' with_reducible first
    | intro _ | simp only [↓Keeps.upd_iff] | assumption | apply keeps_ite | apply keeps_wr | split

theorem keeps_activateRoster {s₀ s₁ : State} (h₀ : Keeps s₀ s₁) (b : Sys2Proof.Machine.Book) :
    Keeps s₀ (State.activateRoster s₁ b) := by
  unfold State.activateRoster
  try dsimp only
  repeat' with_reducible first
    | intro _ | simp only [↓Keeps.upd_iff] | assumption | apply keeps_ite | apply keeps_foldl
    | apply keeps_cuesLater | apply keeps_rosterTouch | apply keeps_setFence | apply keeps_loadRoster
    | apply keeps_wrF | split

theorem keeps_checkerMap {s₀ s₁ : State} (h₀ : Keeps s₀ s₁)  :
    Keeps s₀ (State.checkerMap s₁) := by
  unfold State.checkerMap
  try dsimp only
  repeat' with_reducible first
    | intro _ | simp only [↓Keeps.upd_iff] | assumption | apply keeps_ite | apply keeps_foldNat | apply keeps_wr
    | apply keeps_logAt | split

theorem keeps_setLbay {s₀ s₁ : State} (h₀ : Keeps s₀ s₁) (d : Nat) (b : Nat) (lb : Option Nat) :
    Keeps s₀ (State.setLbay s₁ d b lb) := by
  unfold State.setLbay
  try dsimp only
  repeat' with_reducible first
    | intro _ | simp only [↓Keeps.upd_iff] | assumption | apply keeps_ite | apply keeps_wr | split

theorem keeps_mapBays {s₀ s₁ : State} (h₀ : Keeps s₀ s₁)  :
    Keeps s₀ (State.mapBays s₁) := by
  unfold State.mapBays
  try dsimp only
  repeat' with_reducible first
    | intro _ | simp only [↓Keeps.upd_iff] | assumption | apply keeps_ite | apply keeps_foldl | apply keeps_setLbay
    | split

theorem keeps_quantaBegin {s₀ s₁ : State} (h₀ : Keeps s₀ s₁)  :
    Keeps s₀ (State.quantaBegin s₁) := by
  unfold State.quantaBegin
  try dsimp only
  repeat' with_reducible first
    | intro _ | simp only [↓Keeps.upd_iff] | assumption | apply keeps_ite | apply keeps_ite1 | apply keeps_ite2
    | apply keeps_ite22 | apply keeps_foldl | apply keeps_foldl1 | apply keeps_foldl2 | apply keeps_foldNat
    | apply keeps_then | apply keeps_iteC | simp only [id_eq] | dsimp only | split

theorem keeps_restartSlots {s₀ s₁ : State} (h₀ : Keeps s₀ s₁) (d : Nat) (b : Nat) (keep : Bool) :
    Keeps s₀ (State.restartSlots s₁ d b keep) := by
  unfold State.restartSlots
  try dsimp only
  repeat' with_reducible first
    | intro _ | simp only [↓Keeps.upd_iff] | assumption | apply keeps_ite | apply keeps_foldl | apply keeps_setSlot
    | apply keeps_incF | split

theorem keeps_restartSaved {s₀ s₁ : State} (h₀ : Keeps s₀ s₁) (d : Nat) (b : Nat) (m : Sys2Proof.Machine.Mxe) (v : Sys2Proof.Machine.Vxe) (keep : Bool) :
    Keeps s₀ (State.restartSaved s₁ d b m v keep) := by
  unfold State.restartSaved
  try dsimp only
  repeat' with_reducible first
    | intro _ | simp only [↓Keeps.upd_iff] | assumption | apply keeps_ite | apply keeps_incF | split

theorem keeps_restartBays {s₀ s₁ : State} (h₀ : Keeps s₀ s₁) (keep : Bool) :
    Keeps s₀ (State.restartBays s₁ keep) := by
  unfold State.restartBays
  try dsimp only
  repeat' with_reducible first
    | intro _ | simp only [↓Keeps.upd_iff] | assumption | apply keeps_ite | apply keeps_foldl | apply keeps_setVxe
    | apply keeps_setMxe | apply keeps_restartSlots | apply keeps_restartSaved | split

theorem keeps_activate {s₀ s₁ : State} (h₀ : Keeps s₀ s₁) (b : Sys2Proof.Machine.Book) :
    Keeps s₀ (State.activate s₁ b) := by
  unfold State.activate
  try dsimp only
  repeat' with_reducible first
    | intro _ | simp only [↓Keeps.upd_iff] | assumption | apply keeps_ite | apply keeps_foldl | apply keeps_foldNat
    | apply keeps_enforce | apply keeps_wrF | apply keeps_wr | apply keeps_sustainReset
    | apply keeps_activateRoster | apply keeps_checkerMap | apply keeps_mapBays | apply keeps_writeLive
    | apply keeps_quantaBegin | apply keeps_restartBays | split

theorem keeps_takeTable {s₀ s₁ : State} (h₀ : Keeps s₀ s₁)  :
    Keeps s₀ (State.takeTable s₁) := by
  unfold State.takeTable
  try dsimp only
  repeat' with_reducible first
    | intro _ | simp only [↓Keeps.upd_iff] | assumption | apply keeps_ite | split

theorem keeps_applyTables {s₀ s₁ : State} (h₀ : Keeps s₀ s₁)  :
    Keeps s₀ (State.applyTables s₁) := by
  unfold State.applyTables
  try dsimp only
  repeat' with_reducible first
    | intro _ | simp only [↓Keeps.upd_iff] | assumption | apply keeps_ite | apply keeps_foldl | apply keeps_foldNat
    | apply keeps_activate | apply keeps_wrF | apply keeps_holdEffect | apply keeps_setFence | apply keeps_pump
    | apply keeps_showRole | apply keeps_timeTree | apply keeps_admitLinks | apply keeps_takeTable | split

theorem keeps_clearCounters {s₀ s₁ : State} (h₀ : Keeps s₀ s₁)  :
    Keeps s₀ (State.clearCounters s₁) := by
  unfold State.clearCounters
  try dsimp only
  repeat' with_reducible first
    | intro _ | simp only [↓Keeps.upd_iff] | assumption | apply keeps_ite | apply keeps_foldl | apply keeps_foldNat
    | apply keeps_wr | apply keeps_wrF | split

theorem keeps_darkBay {s₀ s₁ : State} (h₀ : Keeps s₀ s₁) (d : Nat) (b : Nat) :
    Keeps s₀ (State.darkBay s₁ d b) := by
  unfold State.darkBay
  try dsimp only
  repeat' with_reducible first
    | intro _ | simp only [↓Keeps.upd_iff] | assumption | apply keeps_ite | apply keeps_setLbay
    | apply keeps_setUnit | apply keeps_setBayCtx | apply keeps_logAt | split

theorem keeps_setBank {s₀ s₁ : State} (h₀ : Keeps s₀ s₁) (d : Nat) (lb : Nat) (b : Nat) :
    Keeps s₀ (State.setBank s₁ d lb b) := by
  unfold State.setBank
  try dsimp only
  repeat' with_reducible first
    | intro _ | simp only [↓Keeps.upd_iff] | assumption | apply keeps_ite | apply keeps_wrF | split

theorem keeps_shareBank {s₀ s₁ : State} (h₀ : Keeps s₀ s₁) (d : Nat) (lb : Nat) :
    Keeps s₀ (State.shareBank s₁ d lb) := by
  unfold State.shareBank
  try dsimp only
  repeat' with_reducible first
    | intro _ | simp only [↓Keeps.upd_iff] | assumption | apply keeps_ite | apply keeps_ite1 | apply keeps_ite2
    | apply keeps_ite22 | apply keeps_foldl | apply keeps_foldl1 | apply keeps_foldl2 | apply keeps_foldNat
    | apply keeps_then | apply keeps_iteC | simp only [id_eq] | apply keeps_wrF | apply keeps_setBank
    | apply keeps_took | dsimp only | split

theorem keeps_showSpares {s₀ s₁ : State} (h₀ : Keeps s₀ s₁) (d : Nat) :
    Keeps s₀ (State.showSpares s₁ d) := by
  unfold State.showSpares
  try dsimp only
  repeat' with_reducible first
    | intro _ | simp only [↓Keeps.upd_iff] | assumption | apply keeps_ite | apply keeps_wrF | split

theorem keeps_darkBank {s₀ s₁ : State} (h₀ : Keeps s₀ s₁) (d : Nat) (b : Nat) :
    Keeps s₀ (State.darkBank s₁ d b) := by
  unfold State.darkBank
  try dsimp only
  repeat' with_reducible first
    | intro _ | simp only [↓Keeps.upd_iff] | assumption | apply keeps_ite | apply keeps_foldl | apply keeps_setUnit
    | apply keeps_emptyBank | apply keeps_setBank | apply keeps_shareBank | apply keeps_showSpares | split

theorem keeps_repairRow {s₀ s₁ : State} (h₀ : Keeps s₀ s₁) (r : Sys2Proof.Machine.RowDue) :
    Keeps s₀ (State.repairRow s₁ r) := by
  unfold State.repairRow
  try dsimp only
  repeat' with_reducible first
    | intro _ | simp only [↓Keeps.upd_iff] | assumption | apply keeps_ite | apply keeps_ite1 | apply keeps_ite2
    | apply keeps_ite22 | apply keeps_foldl | apply keeps_foldl1 | apply keeps_foldl2 | apply keeps_foldNat
    | apply keeps_then | apply keeps_iteC | simp only [id_eq] | apply keeps_took | apply keeps_incF
    | apply keeps_histEvent | apply keeps_setErr | dsimp only | split

theorem keeps_repairRows {s₀ s₁ : State} (h₀ : Keeps s₀ s₁)  :
    Keeps s₀ (State.repairRows s₁) := by
  unfold State.repairRows
  try dsimp only
  repeat' with_reducible first
    | intro _ | simp only [↓Keeps.upd_iff] | assumption | apply keeps_ite | apply keeps_foldl
    | apply keeps_repairRow | split

theorem keeps_moveUnits {s₀ s₁ : State} (h₀ : Keeps s₀ s₁)  :
    Keeps s₀ (State.moveUnits s₁) := by
  unfold State.moveUnits
  try dsimp only
  repeat' with_reducible first
    | intro _ | simp only [↓Keeps.upd_iff] | assumption | apply keeps_ite | apply keeps_foldl | apply keeps_foldNat
    | apply keeps_setUnit | apply keeps_darkBay | apply keeps_darkBank | apply keeps_showSpares
    | apply keeps_checkerMap | apply keeps_repairRows | split

theorem keeps_sustain {s₀ s₁ : State} (h₀ : Keeps s₀ s₁)  :
    Keeps s₀ (State.sustain s₁) := by
  unfold State.sustain
  try dsimp only
  repeat' with_reducible first
    | intro _ | simp only [↓Keeps.upd_iff] | assumption | apply keeps_ite | apply keeps_wr | split

theorem keeps_clearWitSec {s₀ s₁ : State} (h₀ : Keeps s₀ s₁) (a : Nat) (n : Nat) :
    Keeps s₀ (State.clearWitSec s₁ a n) := by
  unfold State.clearWitSec
  try dsimp only
  repeat' with_reducible first
    | intro _ | simp only [↓Keeps.upd_iff] | assumption | apply keeps_ite | apply keeps_ite1 | apply keeps_ite2
    | apply keeps_ite22 | apply keeps_foldl | apply keeps_foldl1 | apply keeps_foldl2 | apply keeps_foldNat
    | apply keeps_then | apply keeps_iteC | simp only [id_eq] | refine keeps_readOwn_eq ?_ _ _ (by assumption)
    | apply keeps_readOwn | refine keeps_partWrite_eq ?_ _ _ (by assumption) | apply keeps_partWrite | dsimp only
    | split

theorem keeps_clearWit {s₀ s₁ : State} (h₀ : Keeps s₀ s₁) (b : Sys2Proof.Machine.Book) :
    Keeps s₀ (State.clearWit s₁ b) := by
  unfold State.clearWit
  try dsimp only
  repeat' with_reducible first
    | intro _ | simp only [↓Keeps.upd_iff] | assumption | apply keeps_ite | apply keeps_ite1 | apply keeps_ite2
    | apply keeps_ite22 | apply keeps_foldl | apply keeps_foldl1 | apply keeps_foldl2 | apply keeps_foldNat
    | apply keeps_then | apply keeps_iteC | simp only [id_eq] | apply keeps_clearWitSec | dsimp only | split

theorem keeps_startBay {s₀ s₁ : State} (h₀ : Keeps s₀ s₁) (bk : Sys2Proof.Machine.Book) (d : Nat) (b : Nat) (lb : Nat) :
    Keeps s₀ (State.startBay s₁ bk d b lb) := by
  unfold State.startBay
  try dsimp only
  repeat' with_reducible first
    | intro _ | simp only [↓Keeps.upd_iff] | assumption | apply keeps_ite | apply keeps_progress
    | apply keeps_setVxe | apply keeps_setMxe | apply keeps_restartSlots | apply keeps_restartSaved | split

theorem keeps_rehLane {s₀ s₁ : State} (h₀ : Keeps s₀ s₁)  :
    Keeps s₀ (State.rehLane s₁) := by
  unfold State.rehLane
  try dsimp only
  repeat' with_reducible first
    | intro _ | simp only [↓Keeps.upd_iff] | assumption | apply keeps_ite | apply keeps_rehInject
    | apply keeps_took | split

theorem keeps_beginStep {s₀ s₁ : State} (h₀ : Keeps s₀ s₁) (bk : Sys2Proof.Machine.Book) (n : Nat) (encore : Bool) :
    Keeps s₀ (State.beginStep s₁ bk n encore) := by
  unfold State.beginStep
  try dsimp only
  repeat' with_reducible first
    | intro _ | simp only [↓Keeps.upd_iff] | assumption | apply keeps_ite | apply keeps_foldl | apply keeps_foldNat
    | apply keeps_clearCounters | apply keeps_timeTree | apply keeps_takeTable | apply keeps_moveUnits
    | apply keeps_sustain | apply keeps_clearWit | apply keeps_restartBays | apply keeps_startBay
    | apply keeps_writeLive | apply keeps_showPend | apply keeps_wrF | apply keeps_incF | apply keeps_retarget
    | apply keeps_rehLane | apply keeps_newRound | split

theorem keeps_openIdle {s₀ s₁ : State} (h₀ : Keeps s₀ s₁) (b : Sys2Proof.Machine.Book) :
    Keeps s₀ (State.openIdle s₁ b) := by
  unfold State.openIdle
  try dsimp only
  repeat' with_reducible first
    | intro _ | simp only [↓Keeps.upd_iff] | assumption | apply keeps_ite
    | refine keeps_joins_eq ?_ _ (by assumption) | apply keeps_joins | apply keeps_castVote | apply keeps_newRound
    | apply keeps_activateRoster | split

/-! ### CueRows -/

theorem keeps_abandonAuditions {s₀ s₁ : State} (h₀ : Keeps s₀ s₁)  :
    Keeps s₀ (State.abandonAuditions s₁) := by
  unfold State.abandonAuditions
  try dsimp only
  repeat' with_reducible first
    | intro _ | simp only [↓Keeps.upd_iff] | assumption | apply keeps_ite | apply keeps_foldl | apply keeps_wrF
    | apply keeps_setUnit | split

theorem keeps_auditionIn {s₀ s₁ : State} (h₀ : Keeps s₀ s₁) (k : Nat) (d : Nat) (ix : Nat) :
    Keeps s₀ (State.auditionIn s₁ k d ix) := by
  unfold State.auditionIn
  try dsimp only
  repeat' with_reducible first
    | intro _ | simp only [↓Keeps.upd_iff] | assumption | apply keeps_ite | apply keeps_ite1 | apply keeps_ite2
    | apply keeps_ite22 | apply keeps_foldl | apply keeps_foldl1 | apply keeps_foldl2 | apply keeps_foldNat
    | apply keeps_then | apply keeps_iteC | simp only [id_eq] | apply keeps_took | apply keeps_stgPutBytes
    | dsimp only | split

theorem keeps_callNotice {s₀ s₁ : State} (h₀ : Keeps s₀ s₁)  :
    Keeps s₀ (State.callNotice s₁) := by
  unfold State.callNotice
  try dsimp only
  repeat' with_reducible first
    | intro _ | simp only [↓Keeps.upd_iff] | assumption | apply keeps_ite | apply keeps_cuesLater
    | apply keeps_notice | split

theorem keeps_cuesBack {s₀ s₁ : State} (h₀ : Keeps s₀ s₁)  :
    Keeps s₀ (State.cuesBack s₁) := by
  unfold State.cuesBack
  try dsimp only
  repeat' with_reducible first
    | intro _ | simp only [↓Keeps.upd_iff] | assumption | apply keeps_ite | apply keeps_foldl
    | apply keeps_callNotice | apply keeps_activateRoster | apply keeps_takeRoster | split

theorem keeps_freshVotes {s₀ s₁ : State} (h₀ : Keeps s₀ s₁)  :
    Keeps s₀ (State.freshVotes s₁) := by
  unfold State.freshVotes
  try dsimp only
  repeat' with_reducible first
    | intro _ | simp only [↓Keeps.upd_iff] | assumption | apply keeps_ite | split

theorem keeps_hears {s₀ s₁ : State} (h₀ : Keeps s₀ s₁) (h : Sys2Proof.CueHdr) :
    Keeps s₀ (State.hears s₁ h) := by
  unfold State.hears
  try dsimp only
  repeat' with_reducible first
    | intro _ | simp only [↓Keeps.upd_iff] | assumption | apply keeps_ite | apply keeps_ite1 | apply keeps_ite2
    | apply keeps_ite22 | apply keeps_foldl | apply keeps_foldl1 | apply keeps_foldl2 | apply keeps_foldNat
    | apply keeps_then | apply keeps_iteC | simp only [id_eq] | dsimp only | split

theorem keeps_unitStat {s₀ s₁ : State} (h₀ : Keeps s₀ s₁) (result : Nat) (cmd : Nat) :
    Keeps s₀ (State.unitStat s₁ result cmd) := by
  unfold State.unitStat
  try dsimp only
  repeat' with_reducible first
    | intro _ | simp only [↓Keeps.upd_iff] | assumption | apply keeps_ite | apply keeps_wr | split

theorem keeps_unitCmd {s₀ s₁ : State} (h₀ : Keeps s₀ s₁) (v : Nat) :
    Keeps s₀ (State.unitCmd s₁ v) := by
  unfold State.unitCmd
  try dsimp only
  repeat' with_reducible first
    | intro _ | simp only [↓Keeps.upd_iff] | assumption | apply keeps_ite | apply keeps_unitStat
    | apply keeps_auditionIn | apply keeps_setUnit | split

theorem keeps_ignored {s₀ s₁ : State} (h₀ : Keeps s₀ s₁)  :
    Keeps s₀ (State.ignored s₁) := by
  unfold State.ignored
  try dsimp only
  repeat' with_reducible first
    | intro _ | simp only [↓Keeps.upd_iff] | assumption | apply keeps_ite | apply keeps_incF | split

theorem keeps_ofRound {s₀ s₁ : State} (h₀ : Keeps s₀ s₁) (h : Sys2Proof.CueHdr) (f : Sys2Proof.Machine.State → Sys2Proof.Machine.State) (h_f : ∀ x , Keeps s₀ x → Keeps s₀ (f x )) :
    Keeps s₀ (State.ofRound s₁ h f) := by
  unfold State.ofRound
  try dsimp only
  repeat' with_reducible first
    | intro _ | simp only [↓Keeps.upd_iff] | assumption | apply h_f | apply keeps_ite | apply keeps_hears
    | apply keeps_ignored | split

theorem keeps_poolJoins {s₀ s₁ : State} (h₀ : Keeps s₀ s₁) (h : Sys2Proof.CueHdr) (p : Sys2Proof.PrepBody) :
    Keeps s₀ (State.poolJoins s₁ h p) := by
  unfold State.poolJoins
  try dsimp only
  repeat' with_reducible first
    | intro _ | simp only [↓Keeps.upd_iff] | assumption | apply keeps_ite | apply keeps_rosterTouch
    | apply keeps_loadRoster | apply keeps_setRound | apply keeps_newRound | split

theorem keeps_voteAgain {s₀ s₁ : State} (h₀ : Keeps s₀ s₁)  :
    Keeps s₀ (State.voteAgain s₁) := by
  unfold State.voteAgain
  try dsimp only
  repeat' with_reducible first
    | intro _ | simp only [↓Keeps.upd_iff] | assumption | apply keeps_ite | apply keeps_castVote
    | apply keeps_sendVote | apply keeps_setPhase | apply keeps_ownVote | split

theorem keeps_revote {s₀ s₁ : State} (h₀ : Keeps s₀ s₁) (a : Nat) :
    Keeps s₀ (State.revote s₁ a) := by
  unfold State.revote
  try dsimp only
  repeat' with_reducible first
    | intro _ | simp only [↓Keeps.upd_iff] | assumption | apply keeps_ite | apply keeps_voteAgain
    | apply keeps_freshVotes | apply keeps_setErr | apply keeps_setRound | split

theorem keeps_tryApply {s₀ s₁ : State} (h₀ : Keeps s₀ s₁)  :
    Keeps s₀ (State.tryApply s₁) := by
  unfold State.tryApply
  try dsimp only
  repeat' with_reducible first
    | intro _ | simp only [↓Keeps.upd_iff] | assumption | apply keeps_ite | apply keeps_foldl | apply keeps_cueSend
    | apply keeps_applyTables | split

theorem keeps_unitRow {s₀ s₁ : State} (h₀ : Keeps s₀ s₁) (w : Sys2Proof.Writer) (k : BitVec 2) (d : Sys2Proof.Die) (ix : BitVec 6) (op : Nat) :
    Keeps s₀ (State.unitRow s₁ w k d ix op) := by
  unfold State.unitRow
  try dsimp only
  repeat' with_reducible first
    | intro _ | simp only [↓Keeps.upd_iff] | assumption | apply keeps_ite | apply keeps_then | apply keeps_write1
    | apply keeps_unitCmd | split

/-! ### PowerRows -/

theorem keeps_alertPin {s₀ s₁ : State} (h₀ : Keeps s₀ s₁) (old : State) : Keeps s₀ (s₁.alertPin old) := by
  unfold State.alertPin
  repeat' first
    | intro _
    | simp only [↓Keeps.upd_iff]
    | with_reducible assumption
    | with_reducible apply keeps_ite
    | with_reducible apply keeps_send
    | dsimp only

theorem keeps_dieTick {s₀ s₁ : State} (h₀ : Keeps s₀ s₁) (d : Nat) (r : Sys2Proof.PowerReading) :
    Keeps s₀ (State.dieTick s₁ d r) := by
  unfold State.dieTick
  try dsimp only
  repeat' with_reducible first
    | intro _ | simp only [↓Keeps.upd_iff] | assumption | apply keeps_ite | apply keeps_logAt | apply keeps_setErr
    | apply keeps_wrF | apply keeps_wr | split

theorem keeps_railsDown {s₀ s₁ : State} (h₀ : Keeps s₀ s₁)  :
    Keeps s₀ (State.railsDown s₁) := by
  unfold State.railsDown
  try dsimp only
  repeat' with_reducible first
    | intro _ | simp only [↓Keeps.upd_iff] | assumption | apply keeps_ite | apply keeps_wr | apply keeps_domainIn
    | split

theorem keeps_orderlyDown {s₀ s₁ : State} (h₀ : Keeps s₀ s₁)  :
    Keeps s₀ (State.orderlyDown s₁) := by
  unfold State.orderlyDown
  try dsimp only
  repeat' with_reducible first
    | intro _ | simp only [↓Keeps.upd_iff] | assumption | apply keeps_ite | apply keeps_foldNat
    | apply keeps_blowCut | apply keeps_stackMode | apply keeps_noCert | apply keeps_railsDown | apply keeps_send
    | split

theorem keeps_railTick {s₀ s₁ : State} (h₀ : Keeps s₀ s₁) (rd : List Sys2Proof.PowerReading) :
    Keeps s₀ (State.railTick s₁ rd) := by
  unfold State.railTick
  try dsimp only
  repeat' with_reducible first
    | intro _ | simp only [↓Keeps.upd_iff] | assumption | apply keeps_ite | split

theorem keeps_rehDrop {s₀ s₁ : State} (h₀ : Keeps s₀ s₁)  :
    Keeps s₀ (State.rehDrop s₁) := by
  unfold State.rehDrop
  try dsimp only
  repeat' with_reducible first
    | intro _ | simp only [↓Keeps.upd_iff] | assumption | apply keeps_ite | apply keeps_clearBad | apply keeps_wr
    | split

theorem keeps_shedIn {s₀ s₁ : State} (h₀ : Keeps s₀ s₁) (n : Nat) :
    Keeps s₀ (State.shedIn s₁ n) := by
  unfold State.shedIn
  try dsimp only
  repeat' with_reducible first
    | intro _ | simp only [↓Keeps.upd_iff] | assumption | apply keeps_ite | apply keeps_foldNat
    | apply keeps_setErr | apply keeps_wr | apply keeps_logAt | apply keeps_abandonAuditions | apply keeps_rehDrop
    | apply keeps_retarget | apply keeps_beginRetrain | apply keeps_setLink | apply keeps_stackMode
    | apply keeps_orderlyDown | split

theorem keeps_shedTo {s₀ s₁ : State} (h₀ : Keeps s₀ s₁) (n : Nat) :
    Keeps s₀ (State.shedTo s₁ n) := by
  unfold State.shedTo
  try dsimp only
  repeat' with_reducible first
    | intro _ | simp only [↓Keeps.upd_iff] | assumption | apply keeps_ite | apply keeps_foldl | apply keeps_shedIn
    | split

theorem keeps_throttle {s₀ s₁ : State} (h₀ : Keeps s₀ s₁) (p : Nat) :
    Keeps s₀ (State.throttle s₁ p) := by
  unfold State.throttle
  try dsimp only
  repeat' with_reducible first
    | intro _ | simp only [↓Keeps.upd_iff] | assumption | apply keeps_ite | apply keeps_foldNat | apply keeps_wrF
    | apply keeps_setErr | apply keeps_took | split

theorem keeps_tripOn {s₀ s₁ : State} (h₀ : Keeps s₀ s₁) (d : Nat) (h : Sys2Proof.Heat) :
    Keeps s₀ (State.tripOn s₁ d h) := by
  unfold State.tripOn
  try dsimp only
  repeat' with_reducible first
    | intro _ | simp only [↓Keeps.upd_iff] | assumption | apply keeps_ite | apply keeps_noCert | apply keeps_wrF
    | apply keeps_stackMode | apply keeps_send | split

/-! ### StartUp -/

theorem keeps_darkCore {s₀ s₁ : State} (h₀ : Keeps s₀ s₁) (d : Nat) (c : Nat) :
    Keeps s₀ (State.darkCore s₁ d c) := by
  unfold State.darkCore
  try dsimp only
  repeat' with_reducible first
    | intro _ | simp only [↓Keeps.upd_iff] | assumption | apply keeps_ite | apply keeps_setUnit | apply keeps_wrF
    | apply keeps_logAt | split

theorem keeps_coresOut {s₀ s₁ : State} (h₀ : Keeps s₀ s₁) (d : Nat) :
    Keeps s₀ (State.coresOut s₁ d) := by
  unfold State.coresOut
  try dsimp only
  repeat' with_reducible first
    | intro _ | simp only [↓Keeps.upd_iff] | assumption | apply keeps_ite | apply keeps_foldl
    | apply keeps_darkCore | apply keeps_setUnit | split

theorem keeps_settleBanks {s₀ s₁ : State} (h₀ : Keeps s₀ s₁) (d : Nat) :
    Keeps s₀ (State.settleBanks s₁ d) := by
  unfold State.settleBanks
  try dsimp only
  repeat' with_reducible first
    | intro _ | simp only [↓Keeps.upd_iff] | assumption | apply keeps_ite | apply keeps_ite1 | apply keeps_ite2
    | apply keeps_ite22 | apply keeps_foldl | apply keeps_foldl1 | apply keeps_foldl2 | apply keeps_foldNat
    | apply keeps_then | apply keeps_iteC | simp only [id_eq] | apply keeps_showSpares | apply keeps_setBank
    | apply keeps_shareBank | dsimp only | split

theorem keeps_settleCores {s₀ s₁ : State} (h₀ : Keeps s₀ s₁) (d : Nat) :
    Keeps s₀ (State.settleCores s₁ d) := by
  unfold State.settleCores
  try dsimp only
  repeat' with_reducible first
    | intro _ | simp only [↓Keeps.upd_iff] | assumption | apply keeps_ite | apply keeps_ite1 | apply keeps_ite2
    | apply keeps_ite22 | apply keeps_foldl | apply keeps_foldl1 | apply keeps_foldl2 | apply keeps_foldNat
    | apply keeps_then | apply keeps_iteC | simp only [id_eq] | apply keeps_wrF | apply keeps_logAt | dsimp only
    | split

theorem keeps_settleUnits {s₀ s₁ : State} (h₀ : Keeps s₀ s₁)  :
    Keeps s₀ (State.settleUnits s₁) := by
  unfold State.settleUnits
  try dsimp only
  repeat' with_reducible first
    | intro _ | simp only [↓Keeps.upd_iff] | assumption | apply keeps_ite | apply keeps_ite1 | apply keeps_ite2
    | apply keeps_ite22 | apply keeps_foldl | apply keeps_foldl1 | apply keeps_foldl2 | apply keeps_foldNat
    | apply keeps_then | apply keeps_iteC | simp only [id_eq] | apply keeps_coresOut | apply keeps_settleBanks
    | apply keeps_settleCores | dsimp only | split

theorem keeps_showStage {s₀ s₁ : State} (h₀ : Keeps s₀ s₁) (v : Nat) :
    Keeps s₀ (State.showStage s₁ v) := by
  unfold State.showStage
  try dsimp only
  repeat' with_reducible first
    | intro _ | simp only [↓Keeps.upd_iff] | assumption | apply keeps_ite | apply keeps_wrF | split

theorem keeps_setStage {s₀ s₁ : State} (h₀ : Keeps s₀ s₁) (v : Nat) :
    Keeps s₀ (State.setStage s₁ v) := by
  unfold State.setStage
  try dsimp only
  repeat' with_reducible first
    | intro _ | simp only [↓Keeps.upd_iff] | assumption | apply keeps_ite | apply keeps_showStage | split

theorem keeps_showStage7 {s₀ s₁ : State} (h₀ : Keeps s₀ s₁)  :
    Keeps s₀ (State.showStage7 s₁) := by
  unfold State.showStage7
  try dsimp only
  repeat' with_reducible first
    | intro _ | simp only [↓Keeps.upd_iff] | assumption | apply keeps_ite | apply keeps_setStage | split

theorem keeps_done7 {s₀ s₁ : State} (h₀ : Keeps s₀ s₁) (i : Nat) :
    Keeps s₀ (State.done7 s₁ i) := by
  unfold State.done7
  try dsimp only
  repeat' with_reducible first
    | intro _ | simp only [↓Keeps.upd_iff] | assumption | apply keeps_ite | apply keeps_showStage7 | split

theorem keeps_failStage {s₀ s₁ : State} (h₀ : Keeps s₀ s₁) (code : Nat) (stage : Nat) :
    Keeps s₀ (State.failStage s₁ code stage) := by
  unfold State.failStage
  try dsimp only
  repeat' with_reducible first
    | intro _ | simp only [↓Keeps.upd_iff] | assumption | apply keeps_ite | apply keeps_showStage | split

theorem keeps_firmwareUp {s₀ s₁ : State} (h₀ : Keeps s₀ s₁)  :
    Keeps s₀ (State.firmwareUp s₁) := by
  unfold State.firmwareUp
  try dsimp only
  repeat' with_reducible first
    | intro _ | simp only [↓Keeps.upd_iff] | assumption | apply keeps_ite | apply keeps_foldNat | apply keeps_wr
    | apply keeps_notice | apply keeps_wrF | split

theorem keeps_loadImage {s₀ s₁ : State} (h₀ : Keeps s₀ s₁)  :
    Keeps s₀ (State.loadImage s₁) := by
  unfold State.loadImage
  try dsimp only
  repeat' with_reducible first
    | intro _ | simp only [↓Keeps.upd_iff] | assumption | apply keeps_ite | apply keeps_foldNat | apply keeps_took
    | apply keeps_wr | apply keeps_firmwareUp | split

theorem keeps_pcFailed {s₀ s₁ : State} (h₀ : Keeps s₀ s₁) (d : Nat) (t : Nat) (pc : Nat) :
    Keeps s₀ (State.pcFailed s₁ d t pc) := by
  unfold State.pcFailed
  try dsimp only
  repeat' with_reducible first
    | intro _ | simp only [↓Keeps.upd_iff] | assumption | apply keeps_ite | apply keeps_failStage
    | apply keeps_histEvent | apply keeps_wrF | split

theorem keeps_powerOn {s₀ s₁ : State} (h₀ : Keeps s₀ s₁)  :
    Keeps s₀ (State.powerOn s₁) := by
  unfold State.powerOn
  apply keeps_settleUnits
  apply keeps_setStage
  apply keeps_wr
  refine keeps_foldl ?_ fun _ _ h => keeps_foldl h fun _ _ h => keeps_unitOut (keeps_unitIn h _ _ _) _ _ _
  have h₁ := keeps_deviceLost h₀
  exact ⟨fun _ => rfl, h₁.inForce, h₁.mem, h₁.staging, h₁.fuses, h₁.seq⟩

theorem keeps_trainPc {s₀ s₁ : State} (h₀ : Keeps s₀ s₁) (found : List Sys2Proof.StackLane) (k : Nat) :
    Keeps s₀ (State.trainPc s₁ found k) := by
  unfold State.trainPc
  try dsimp only
  repeat' with_reducible first
    | intro _ | simp only [↓Keeps.upd_iff] | assumption | apply keeps_ite | apply keeps_setLaneMap
    | apply keeps_pcFailed | split

theorem keeps_trainStacks {s₀ s₁ : State} (h₀ : Keeps s₀ s₁) (found : List Sys2Proof.StackLane) :
    Keeps s₀ (State.trainStacks s₁ found) := by
  unfold State.trainStacks
  refine keeps_foldNat (keeps_foldNat ?_ fun _ _ h => keeps_stackWake h _) fun _ _ h => keeps_trainPc h _ _
  exact ⟨h₀.regs, h₀.inForce, fun _ => rfl, h₀.staging, h₀.fuses, h₀.seq⟩

theorem keeps_stackFailed {s₀ s₁ : State} (h₀ : Keeps s₀ s₁) (lanes : List Sys2Proof.StackLane) :
    Keeps s₀ (State.stackFailed s₁ lanes) := by
  unfold State.stackFailed
  try dsimp only
  repeat' with_reducible first
    | intro _ | simp only [↓Keeps.upd_iff] | assumption | apply keeps_ite | apply keeps_trainStacks
    | apply keeps_pcFailed | apply keeps_took | split

theorem keeps_stage11 {s₀ s₁ : State} (h₀ : Keeps s₀ s₁)  :
    Keeps s₀ (State.stage11 s₁) := by
  unfold State.stage11
  try dsimp only
  repeat' with_reducible first
    | intro _ | simp only [↓Keeps.upd_iff] | assumption | apply keeps_ite | apply keeps_ite1 | apply keeps_ite2
    | apply keeps_ite22 | apply keeps_foldl | apply keeps_foldl1 | apply keeps_foldl2 | apply keeps_foldNat
    | apply keeps_then | apply keeps_iteC | simp only [id_eq] | apply keeps_showVerdicts | apply keeps_failStage
    | dsimp only | split

theorem keeps_stage2In {s₀ s₁ : State} (h₀ : Keeps s₀ s₁)  :
    Keeps s₀ (State.stage2In s₁) := by
  unfold State.stage2In
  try dsimp only
  repeat' with_reducible first
    | intro _ | simp only [↓Keeps.upd_iff] | assumption | apply keeps_ite | apply keeps_ite1 | apply keeps_ite2
    | apply keeps_ite22 | apply keeps_foldl | apply keeps_foldl1 | apply keeps_foldl2 | apply keeps_foldNat
    | apply keeps_then | apply keeps_iteC | simp only [id_eq] | apply keeps_wr | apply keeps_wrF | dsimp only
    | split

theorem keeps_stage2 {s₀ s₁ : State} (h₀ : Keeps s₀ s₁)  :
    Keeps s₀ (State.stage2 s₁) := by
  unfold State.stage2
  try dsimp only
  repeat' with_reducible first
    | intro _ | simp only [↓Keeps.upd_iff] | assumption | apply keeps_ite | apply keeps_foldNat
    | apply keeps_stage2In | apply keeps_failStage | apply keeps_setStage | split

theorem keeps_trained7 {s₀ s₁ : State} (h₀ : Keeps s₀ s₁)  :
    Keeps s₀ (State.trained7 s₁) := by
  unfold State.trained7
  try dsimp only
  repeat' with_reducible first
    | intro _ | simp only [↓Keeps.upd_iff] | assumption | apply keeps_ite | apply keeps_ite1 | apply keeps_ite2
    | apply keeps_ite22 | apply keeps_foldl | apply keeps_foldl1 | apply keeps_foldl2 | apply keeps_foldNat
    | apply keeps_then | apply keeps_iteC | simp only [id_eq] | apply keeps_done7 | dsimp only | split

theorem keeps_stageDone {s₀ s₁ : State} (h₀ : Keeps s₀ s₁) (st : Sys2Proof.Stage) (lanes : List Sys2Proof.StackLane) :
    Keeps s₀ (State.stageDone s₁ st lanes) := by
  unfold State.stageDone
  try dsimp only
  repeat' with_reducible first
    | intro _ | simp only [↓Keeps.upd_iff] | assumption | apply keeps_ite | apply keeps_ite1 | apply keeps_ite2
    | apply keeps_ite22 | apply keeps_foldl | apply keeps_foldl1 | apply keeps_foldl2 | apply keeps_foldNat
    | apply keeps_then | apply keeps_iteC | simp only [id_eq] | apply keeps_setStage | apply keeps_stage2
    | apply keeps_loadImage | apply keeps_trained7 | apply keeps_trainStacks | apply keeps_done7
    | apply keeps_coresOut | apply keeps_stage11 | dsimp only | split

theorem keeps_stageFailed {s₀ s₁ : State} (h₀ : Keeps s₀ s₁) (st : Sys2Proof.Stage) (res : Sys2Proof.StageResult) (lanes : List Sys2Proof.StackLane) :
    Keeps s₀ (State.stageFailed s₁ st res lanes) := by
  unfold State.stageFailed
  try dsimp only
  repeat' with_reducible first
    | intro _ | simp only [↓Keeps.upd_iff] | assumption | apply keeps_ite | apply keeps_ite1 | apply keeps_ite2
    | apply keeps_ite22 | apply keeps_foldl | apply keeps_foldl1 | apply keeps_foldl2 | apply keeps_foldNat
    | apply keeps_then | apply keeps_iteC | simp only [id_eq] | apply keeps_setStage | apply keeps_failStage
    | apply keeps_stackFailed | apply keeps_stage2In | apply keeps_coresOut | apply keeps_showVerdicts | dsimp only
    | split

/-! ### HangRows -/

theorem keeps_forcedSave {s₀ s₁ : State} (h₀ : Keeps s₀ s₁) (d : Nat) (b : Nat) (failed : Bool) :
    Keeps s₀ (State.forcedSave s₁ d b failed) := by
  unfold State.forcedSave
  try dsimp only
  repeat' with_reducible first
    | intro _ | simp only [↓Keeps.upd_iff] | assumption | apply keeps_ite | apply keeps_endQuiet
    | apply keeps_logAt | apply keeps_hwTeardown | apply keeps_saveBay | split

theorem keeps_setReplay {s₀ s₁ : State} (h₀ : Keeps s₀ s₁) (r : Sys2Proof.Machine.Replay) :
    Keeps s₀ (State.setReplay s₁ r) := by
  unfold State.setReplay
  try dsimp only
  repeat' with_reducible first
    | intro _ | simp only [↓Keeps.upd_iff] | assumption | apply keeps_ite | split

theorem keeps_showReplay {s₀ s₁ : State} (h₀ : Keeps s₀ s₁)  :
    Keeps s₀ (State.showReplay s₁) := by
  unfold State.showReplay
  try dsimp only
  repeat' with_reducible first
    | intro _ | simp only [↓Keeps.upd_iff] | assumption | apply keeps_ite | apply keeps_foldNat | apply keeps_wrF
    | split

theorem keeps_guilty {s₀ s₁ : State} (h₀ : Keeps s₀ s₁) (r : Sys2Proof.Machine.Replay) (c : Nat) :
    Keeps s₀ (State.guilty s₁ r c) := by
  unfold State.guilty
  try dsimp only
  repeat' with_reducible first
    | intro _ | simp only [↓Keeps.upd_iff] | assumption | apply keeps_ite | apply keeps_wrF | apply keeps_incF
    | apply keeps_logAt | apply keeps_setReplay | apply keeps_hwTeardown | apply keeps_showReplay
    | apply keeps_resetReq | split

theorem keeps_nextTrial {s₀ s₁ : State} (h₀ : Keeps s₀ s₁) (r : Sys2Proof.Machine.Replay) :
    Keeps s₀ (State.nextTrial s₁ r) := by
  unfold State.nextTrial
  try dsimp only
  repeat' with_reducible first
    | intro _ | simp only [↓Keeps.upd_iff] | assumption | apply keeps_ite | apply keeps_showReplay
    | apply keeps_logAt | apply keeps_setReplay | apply keeps_restoreBay | split

theorem keeps_noteFired {s₀ s₁ : State} (h₀ : Keeps s₀ s₁) (d : Nat) (b : Nat) :
    Keeps s₀ (State.noteFired s₁ d b) := by
  unfold State.noteFired
  try dsimp only
  repeat' with_reducible first
    | intro _ | simp only [↓Keeps.upd_iff] | assumption | apply keeps_ite | apply keeps_incF | apply keeps_wrF
    | split

theorem keeps_replayAdd {s₀ s₁ : State} (h₀ : Keeps s₀ s₁) (d : Nat) (b : Nat) (seq : Nat) (suspects : List Nat) :
    Keeps s₀ (State.replayAdd s₁ d b seq suspects) := by
  unfold State.replayAdd
  try dsimp only
  repeat' with_reducible first
    | intro _ | simp only [↓Keeps.upd_iff] | assumption | apply keeps_ite | apply keeps_showReplay | split

theorem keeps_replayCut {s₀ s₁ : State} (h₀ : Keeps s₀ s₁) (d : Nat) (b : Option Nat) :
    Keeps s₀ (State.replayCut s₁ d b) := by
  unfold State.replayCut
  try dsimp only
  repeat' with_reducible first
    | intro _ | simp only [↓Keeps.upd_iff] | assumption | apply keeps_ite | split

theorem keeps_replayGo {s₀ s₁ : State} (h₀ : Keeps s₀ s₁) (d : Nat) (b : Nat) :
    Keeps s₀ (State.replayGo s₁ d b) := by
  unfold State.replayGo
  try dsimp only
  repeat' with_reducible first
    | intro _ | simp only [↓Keeps.upd_iff] | assumption | apply keeps_ite | apply keeps_nextTrial | split

theorem keeps_stall {s₀ s₁ : State} (h₀ : Keeps s₀ s₁) (trigger : Nat) (d : Nat) (stack : Option Nat) :
    Keeps s₀ (State.stall s₁ trigger d stack) := by
  unfold State.stall
  try dsimp only
  repeat' with_reducible first
    | intro _ | simp only [↓Keeps.upd_iff] | assumption | apply keeps_ite | apply keeps_capture
    | apply keeps_loseSectors | apply keeps_showReplay | apply keeps_resetReq | apply keeps_incF | split

theorem keeps_wdTick {s₀ s₁ : State} (h₀ : Keeps s₀ s₁)  :
    Keeps s₀ (State.wdTick s₁) := by
  unfold State.wdTick
  try dsimp only
  repeat' with_reducible first
    | intro _ | simp only [↓Keeps.upd_iff] | assumption | apply keeps_ite | apply keeps_foldl | split

/-! ### Mailbox -/

theorem keeps_giveReply {s₀ s₁ : State} (h₀ : Keeps s₀ s₁) (n : Nat) (m : Sys2Proof.Machine.Msg) (status : Nat) (body : List Sys2Proof.Byte) :
    Keeps s₀ (State.giveReply s₁ n m status body) := by
  unfold State.giveReply
  try dsimp only
  repeat' with_reducible first
    | intro _ | simp only [↓Keeps.upd_iff] | assumption | apply keeps_ite
    | refine keeps_ownWrite_eq ?_ _ _ (by assumption) | apply keeps_ownWrite | apply keeps_send | split

theorem keeps_replyMsg {s₀ s₁ : State} (h₀ : Keeps s₀ s₁) (n : Nat) (m : Sys2Proof.Machine.Msg) (status : Nat) (body : List Sys2Proof.Byte) :
    Keeps s₀ (State.replyMsg s₁ n m status body) := by
  unfold State.replyMsg
  try dsimp only
  repeat' with_reducible first
    | intro _ | simp only [↓Keeps.upd_iff] | assumption | apply keeps_ite | apply keeps_giveReply
    | apply keeps_mboxState | split

theorem keeps_answerOdd {s₀ s₁ : State} (h₀ : Keeps s₀ s₁) (n : Nat) :
    Keeps s₀ (State.answerOdd s₁ n) := by
  unfold State.answerOdd
  try dsimp only
  repeat' with_reducible first
    | intro _ | simp only [↓Keeps.upd_iff] | assumption | apply keeps_ite | apply keeps_replyMsg | split

theorem keeps_acceptMsg {s₀ s₁ : State} (h₀ : Keeps s₀ s₁) (n : Nat) (m : Sys2Proof.Machine.Msg) :
    Keeps s₀ (State.acceptMsg s₁ n m) := by
  unfold State.acceptMsg
  try dsimp only
  repeat' with_reducible first
    | intro _ | simp only [↓Keeps.upd_iff] | assumption | apply keeps_ite | apply keeps_incF
    | apply keeps_noticeOut | apply keeps_mboxState | apply keeps_touchAll | apply keeps_answerOdd | split

theorem keeps_escalate {s₀ s₁ : State} (h₀ : Keeps s₀ s₁) (d : Nat) (c : Nat) :
    Keeps s₀ (State.escalate s₁ d c) := by
  unfold State.escalate
  try dsimp only
  repeat' with_reducible first
    | intro _ | simp only [↓Keeps.upd_iff] | assumption | apply keeps_ite | apply keeps_resetReq
    | apply keeps_logAt | apply keeps_setErr | split

theorem keeps_failMsgs {s₀ s₁ : State} (h₀ : Keeps s₀ s₁) (p : Sys2Proof.Machine.Msg → Bool) :
    Keeps s₀ (State.failMsgs s₁ p) := by
  unfold State.failMsgs
  try dsimp only
  repeat' with_reducible first
    | intro _ | simp only [↓Keeps.upd_iff] | assumption | apply keeps_ite | apply keeps_foldl
    | apply keeps_replyMsg | split

theorem keeps_whileRestarting {s₀ s₁ : State} (h₀ : Keeps s₀ s₁) (d : Nat) (c : Nat) :
    Keeps s₀ (State.whileRestarting s₁ d c) := by
  unfold State.whileRestarting
  try dsimp only
  repeat' with_reducible first
    | intro _ | simp only [↓Keeps.upd_iff] | assumption | apply keeps_ite | apply keeps_wrF | apply keeps_failMsgs
    | split

theorem keeps_compFault {s₀ s₁ : State} (h₀ : Keeps s₀ s₁) (d : Nat) (c : Nat) :
    Keeps s₀ (State.compFault s₁ d c) := by
  unfold State.compFault
  try dsimp only
  repeat' with_reducible first
    | intro _ | simp only [↓Keeps.upd_iff] | assumption | apply keeps_ite | apply keeps_escalate
    | apply keeps_setComp | apply keeps_satF | apply keeps_logAt | apply keeps_setErr | apply keeps_whileRestarting
    | split

theorem keeps_supersede {s₀ s₁ : State} (h₀ : Keeps s₀ s₁) (n : Nat) (m : Sys2Proof.Machine.Msg) :
    Keeps s₀ (State.supersede s₁ n m) := by
  unfold State.supersede
  try dsimp only
  repeat' with_reducible first
    | intro _ | simp only [↓Keeps.upd_iff] | assumption | apply keeps_ite | apply keeps_giveReply
    | apply keeps_incF | apply keeps_logAt | split

theorem keeps_undoWrite {s₀ s₁ : State} (h₀ : Keeps s₀ s₁) (n : Nat) (m : Sys2Proof.Machine.Msg) :
    Keeps s₀ (State.undoWrite s₁ n m) := by
  unfold State.undoWrite
  try dsimp only
  repeat' with_reducible first
    | intro _ | simp only [↓Keeps.upd_iff] | assumption | apply keeps_ite | apply keeps_setErr | apply keeps_wr
    | split

theorem keeps_withdraw {s₀ s₁ : State} (h₀ : Keeps s₀ s₁) (n : Nat) (m : Sys2Proof.Machine.Msg) :
    Keeps s₀ (State.withdraw s₁ n m) := by
  unfold State.withdraw
  try dsimp only
  repeat' with_reducible first
    | intro _ | simp only [↓Keeps.upd_iff] | assumption | apply keeps_ite | apply keeps_mboxState | split

theorem keeps_overtake {s₀ s₁ : State} (h₀ : Keeps s₀ s₁) (n : Nat) (w : Sys2Proof.Writer) :
    Keeps s₀ (State.overtake s₁ n w) := by
  unfold State.overtake
  try dsimp only
  repeat' with_reducible first
    | intro _ | simp only [↓Keeps.upd_iff] | assumption | apply keeps_ite | apply keeps_foldl
    | apply keeps_supersede | apply keeps_undoWrite | apply keeps_withdraw | split

theorem keeps_noteArrival {s₀ s₁ : State} (h₀ : Keeps s₀ s₁) (n : Nat) (m : Sys2Proof.Machine.Msg) :
    Keeps s₀ (State.noteArrival s₁ n m) := by
  unfold State.noteArrival
  try dsimp only
  repeat' with_reducible first
    | intro _ | simp only [↓Keeps.upd_iff] | assumption | apply keeps_ite | split

theorem keeps_slotLose {s₀ s₁ : State} (h₀ : Keeps s₀ s₁) (n : Nat) (old : Nat) (detail : Nat) (q : Sys2Proof.WriteReq) (m : Option Sys2Proof.Machine.Msg) :
    Keeps s₀ (State.slotLose s₁ n old detail q m) := by
  unfold State.slotLose
  try dsimp only
  repeat' with_reducible first
    | intro _ | simp only [↓Keeps.upd_iff] | assumption | apply keeps_ite | apply keeps_ite1 | apply keeps_ite2
    | apply keeps_ite22 | apply keeps_foldl | apply keeps_foldl1 | apply keeps_foldl2 | apply keeps_foldNat
    | apply keeps_then | apply keeps_iteC | simp only [id_eq] | apply keeps_loseAll | apply keeps_supersede
    | apply keeps_noteArrival | dsimp only | split

theorem keeps_takeMsg {s₀ s₁ : State} (h₀ : Keeps s₀ s₁) (n : Nat) (m : Sys2Proof.Machine.Msg) :
    Keeps s₀ (State.takeMsg s₁ n m) := by
  unfold State.takeMsg
  try dsimp only
  repeat' with_reducible first
    | intro _ | simp only [↓Keeps.upd_iff] | assumption | apply keeps_ite | apply keeps_acceptMsg
    | apply keeps_giveReply | apply keeps_incF | split

theorem keeps_slotWin {s₀ s₁ : State} (h₀ : Keeps s₀ s₁) (n : Nat) (old : Nat) (detail : Nat) (q : Sys2Proof.WriteReq) (m : Option Sys2Proof.Machine.Msg) :
    Keeps s₀ (State.slotWin s₁ n old detail q m) := by
  unfold State.slotWin
  try dsimp only
  repeat' with_reducible first
    | intro _ | simp only [↓Keeps.upd_iff] | assumption | apply keeps_ite | apply keeps_ite1 | apply keeps_ite2
    | apply keeps_ite22 | apply keeps_foldl | apply keeps_foldl1 | apply keeps_foldl2 | apply keeps_foldNat
    | apply keeps_then | apply keeps_iteC | simp only [id_eq] | apply keeps_winOne | apply keeps_takeMsg
    | apply keeps_noteArrival | dsimp only | split

theorem keeps_deliverSigned {s₀ s₁ : State} (h₀ : Keeps s₀ s₁) (a : Nat) (m : Sys2Proof.Machine.Msg) :
    Keeps s₀ (State.deliverSigned s₁ a m) := by
  unfold State.deliverSigned
  try dsimp only
  repeat' with_reducible first
    | intro _ | simp only [↓Keeps.upd_iff] | assumption | apply keeps_ite | apply keeps_ite1 | apply keeps_ite2
    | apply keeps_ite22 | apply keeps_foldl | apply keeps_foldl1 | apply keeps_foldl2 | apply keeps_foldNat
    | apply keeps_then | apply keeps_iteC | simp only [id_eq] | refine keeps_ownWrite_eq ?_ _ _ (by assumption)
    | apply keeps_ownWrite | apply keeps_overtake | apply keeps_slotLose | apply keeps_slotWin | dsimp only | split

theorem keeps_freeMbox {s₀ s₁ : State} (h₀ : Keeps s₀ s₁) (n : Nat) :
    Keeps s₀ (State.freeMbox s₁ n) := by
  unfold State.freeMbox
  try dsimp only
  repeat' with_reducible first
    | intro _ | simp only [↓Keeps.upd_iff] | assumption | apply keeps_ite | apply keeps_mboxState
    | apply keeps_acceptMsg | split

theorem keeps_doneWritten {s₀ s₁ : State} (h₀ : Keeps s₀ s₁) (v : Nat) :
    Keeps s₀ (State.doneWritten s₁ v) := by
  unfold State.doneWritten
  try dsimp only
  repeat' with_reducible first
    | intro _ | simp only [↓Keeps.upd_iff] | assumption | apply keeps_ite | apply keeps_foldl
    | apply keeps_freeMbox | split

theorem keeps_slotCycle {s₀ s₁ : State} (h₀ : Keeps s₀ s₁) (n : Nat) (ok : List Sys2Proof.WriteReq) :
    Keeps s₀ (State.slotCycle s₁ n ok) := by
  unfold State.slotCycle
  try dsimp only
  repeat' with_reducible first
    | intro _ | simp only [↓Keeps.upd_iff] | assumption | apply keeps_ite | apply keeps_ite1 | apply keeps_ite2
    | apply keeps_ite22 | apply keeps_foldl | apply keeps_foldl1 | apply keeps_foldl2 | apply keeps_foldNat
    | apply keeps_then | apply keeps_iteC | simp only [id_eq] | apply keeps_overtake | apply keeps_slotLose
    | apply keeps_slotWin | dsimp only | split

theorem keeps_slotWrites {s₀ s₁ : State} (h₀ : Keeps s₀ s₁) (n : Nat) (reqs : List Sys2Proof.WriteReq) :
    Keeps s₀ (State.slotWrites s₁ n reqs) := by
  unfold State.slotWrites
  try dsimp only
  repeat' with_reducible first
    | intro _ | simp only [↓Keeps.upd_iff] | assumption | apply keeps_ite | apply keeps_ite1 | apply keeps_ite2
    | apply keeps_ite22 | apply keeps_foldl | apply keeps_foldl1 | apply keeps_foldl2 | apply keeps_foldNat
    | apply keeps_then | apply keeps_iteC | simp only [id_eq] | apply keeps_commit | apply keeps_accessFault
    | apply keeps_denyAll | apply keeps_slotCycle | dsimp only | split

theorem keeps_oddReply {s₀ s₁ : State} (h₀ : Keeps s₀ s₁) (n : Nat) (m : Sys2Proof.Machine.Msg) :
    Keeps s₀ (State.oddReply s₁ n m) := by
  unfold State.oddReply
  try dsimp only
  repeat' with_reducible first
    | intro _ | simp only [↓Keeps.upd_iff] | assumption | apply keeps_ite | apply keeps_took | apply keeps_replyMsg
    | split

theorem keeps_secCount {s₀ s₁ : State} (h₀ : Keeps s₀ s₁) (lo : Nat) :
    Keeps s₀ (State.secCount s₁ lo) := by
  unfold State.secCount
  try dsimp only
  repeat' with_reducible first
    | intro _ | simp only [↓Keeps.upd_iff] | assumption | apply keeps_ite | apply keeps_foldNat | apply keeps_incF
    | split

theorem keeps_slotWrite {s₀ s₁ : State} (h₀ : Keeps s₀ s₁) (n : Nat) (q : Sys2Proof.WriteReq) :
    Keeps s₀ (State.slotWrite s₁ n q) := by
  unfold State.slotWrite
  try dsimp only
  repeat' with_reducible first
    | intro _ | simp only [↓Keeps.upd_iff] | assumption | apply keeps_ite | apply keeps_slotWrites | split

/-! ### Services -/

theorem keeps_copyOut {s₀ s₁ : State} (h₀ : Keeps s₀ s₁) (a : Nat) (bs : List Sys2Proof.Byte) :
    Keeps s₀ (State.copyOut s₁ a bs).2 := by
  unfold State.copyOut
  try dsimp only
  repeat' with_reducible first
    | intro _ | simp only [↓Keeps.upd_iff] | assumption | apply keeps_ite
    | refine keeps_ownWrite_eq ?_ _ _ (by assumption) | apply keeps_ownWrite | split
theorem keeps_copyOut_eq {s₀ s₁ : State} (h₀ : Keeps s₀ s₁) (a : Nat) (bs : List Sys2Proof.Byte) {x₀ y₀}
    (e₀ : (State.copyOut s₁ a bs) = (x₀, y₀)) : Keeps s₀ y₀ := by
  have k := keeps_copyOut h₀ a bs; rw [e₀] at k; exact k

theorem keeps_copyRecs {s₀ s₁ : State} (h₀ : Keeps s₀ s₁) (a : Nat) (first : Nat) (recs : List (Nat × List Sys2Proof.Byte)) :
    Keeps s₀ (State.copyRecs s₁ a first recs).2.2 := by
  unfold State.copyRecs
  try dsimp only
  repeat' with_reducible first
    | intro _ | simp only [↓Keeps.upd_iff] | assumption | apply keeps_ite
    | refine keeps_copyOut_eq ?_ _ _ (by assumption) | apply keeps_copyOut | split
theorem keeps_copyRecs_eq {s₀ s₁ : State} (h₀ : Keeps s₀ s₁) (a : Nat) (first : Nat) (recs : List (Nat × List Sys2Proof.Byte)) {x₀ y₀ z₀}
    (e₀ : (State.copyRecs s₁ a first recs) = (x₀, y₀, z₀)) : Keeps s₀ z₀ := by
  have k := keeps_copyRecs h₀ a first recs; rw [e₀] at k; exact k

theorem keeps_hbWritten {s₀ s₁ : State} (h₀ : Keeps s₀ s₁)  :
    Keeps s₀ (State.hbWritten s₁) := by
  unfold State.hbWritten
  try dsimp only
  repeat' with_reducible first
    | intro _ | simp only [↓Keeps.upd_iff] | assumption | apply keeps_ite | split

/-! ### Updates -/

theorem keeps_setUpdate {s₀ s₁ : State} (h₀ : Keeps s₀ s₁) (v : Nat) :
    Keeps s₀ (State.setUpdate s₁ v) := by
  unfold State.setUpdate
  try dsimp only
  repeat' with_reducible first
    | intro _ | simp only [↓Keeps.upd_iff] | assumption | apply keeps_ite | apply keeps_wrF | split

theorem keeps_beginUpdate {s₀ s₁ : State} (h₀ : Keeps s₀ s₁)  :
    Keeps s₀ (State.beginUpdate s₁) := by
  unfold State.beginUpdate
  try dsimp only
  repeat' with_reducible first
    | intro _ | simp only [↓Keeps.upd_iff] | assumption | apply keeps_ite | apply keeps_setUpdate
    | apply keeps_resetReq | split

/-! ### Trust -/

theorem keeps_putOwnerKey {s₀ s₁ : State} (h₀ : Keeps s₀ s₁) (i : Nat) (key : List Sys2Proof.Byte) :
    Keeps s₀ (State.putOwnerKey s₁ i key) := by
  unfold State.putOwnerKey
  try dsimp only
  repeat' with_reducible first
    | intro _ | simp only [↓Keeps.upd_iff] | assumption | apply keeps_ite | split

theorem keeps_zeroCounters {s₀ s₁ : State} (h₀ : Keeps s₀ s₁) (i : Nat) :
    Keeps s₀ (State.zeroCounters s₁ i) := by
  unfold State.zeroCounters
  try dsimp only
  repeat' with_reducible first
    | intro _ | simp only [↓Keeps.upd_iff] | assumption | apply keeps_ite | split

/-! ### IO -/

theorem keeps_descDone {s₀ s₁ : State} (h₀ : Keeps s₀ s₁) (a : Nat) (flags : Nat) (status : Nat) (time : Option Nat) :
    Keeps s₀ (State.descDone s₁ a flags status time) := by
  unfold State.descDone
  try dsimp only
  repeat' with_reducible first
    | intro _ | simp only [↓Keeps.upd_iff] | assumption | apply keeps_ite
    | refine keeps_ownWrite_eq ?_ _ _ (by assumption) | apply keeps_ownWrite | split

theorem keeps_descRead {s₀ s₁ : State} (h₀ : Keeps s₀ s₁) (q : Sys2Proof.Machine.EthQ) :
    Keeps s₀ (State.descRead s₁ q) := by
  unfold State.descRead
  try dsimp only
  repeat' with_reducible first
    | intro _ | simp only [↓Keeps.upd_iff] | assumption | apply keeps_ite | apply keeps_ite1 | apply keeps_ite2
    | apply keeps_ite22 | apply keeps_foldl | apply keeps_foldl1 | apply keeps_foldl2 | apply keeps_foldNat
    | apply keeps_then | apply keeps_iteC | simp only [id_eq] | apply keeps_touchAll | dsimp only | split

theorem keeps_ioRefuse {s₀ s₁ : State} (h₀ : Keeps s₀ s₁) (d : Nat) (pg : Nat) (a : Nat) :
    Keeps s₀ (State.ioRefuse s₁ d pg a) := by
  unfold State.ioRefuse
  try dsimp only
  repeat' with_reducible first
    | intro _ | simp only [↓Keeps.upd_iff] | assumption | apply keeps_ite | apply keeps_logAt | apply keeps_setErr
    | split

theorem keeps_msiIn {s₀ s₁ : State} (h₀ : Keeps s₀ s₁) (v : Nat) :
    Keeps s₀ (State.msiIn s₁ v) := by
  unfold State.msiIn
  try dsimp only
  repeat' with_reducible first
    | intro _ | simp only [↓Keeps.upd_iff] | assumption | apply keeps_ite | apply keeps_took | apply keeps_incF
    | apply keeps_send | split

theorem keeps_pcieRefuse {s₀ s₁ : State} (h₀ : Keeps s₀ s₁) (write : Bool) (addr : Nat) (bit : Nat) (code : Nat) :
    Keeps s₀ (State.pcieRefuse s₁ write addr bit code) := by
  unfold State.pcieRefuse
  try dsimp only
  repeat' with_reducible first
    | intro _ | simp only [↓Keeps.upd_iff] | assumption | apply keeps_ite | apply keeps_logAt | apply keeps_setErr
    | apply keeps_incF | apply keeps_send | split

theorem keeps_ptpEvent {s₀ s₁ : State} (h₀ : Keeps s₀ s₁)  :
    Keeps s₀ (State.ptpEvent s₁) := by
  unfold State.ptpEvent
  try dsimp only
  repeat' with_reducible first
    | intro _ | simp only [↓Keeps.upd_iff] | assumption | apply keeps_ite | apply keeps_applyOffset
    | apply keeps_took | split

theorem keeps_setHead {s₀ s₁ : State} (h₀ : Keeps s₀ s₁) (k : Nat) (h : Nat) :
    Keeps s₀ (State.setHead s₁ k h) := by
  unfold State.setHead
  try dsimp only
  repeat' with_reducible first
    | intro _ | simp only [↓Keeps.upd_iff] | assumption | apply keeps_ite | split

/-! ### RegEffects -/

theorem keeps_ctrlWritten {s₀ s₁ : State} (h₀ : Keeps s₀ s₁) (d : Nat) (pg : Nat) (v : Nat) (o : Sys2Proof.Origin) :
    Keeps s₀ (State.ctrlWritten s₁ d pg v o) := by
  unfold State.ctrlWritten
  try dsimp only
  repeat' with_reducible first
    | intro _ | simp only [↓Keeps.upd_iff] | assumption | apply keeps_ite | apply keeps_wrF
    | apply keeps_retrainWritten | apply keeps_holdEffect | apply keeps_enableEffect | split

theorem keeps_domainOut {s₀ s₁ : State} (h₀ : Keeps s₀ s₁) (x : Sys2Proof.Machine.DomId) :
    Keeps s₀ (State.domainOut s₁ x) := by
  unfold State.domainOut
  try dsimp only
  repeat' with_reducible first
    | intro _ | simp only [↓Keeps.upd_iff] | assumption | apply keeps_ite | apply keeps_foldl | apply keeps_foldNat
    | apply keeps_pageOut | apply keeps_unitOut | apply keeps_coresOut | apply keeps_perst | apply keeps_stackWake
    | apply keeps_wrF | apply keeps_settleUnits | split

theorem keeps_onWrite {s₀ s₁ : State} (h₀ : Keeps s₀ s₁) (d : Nat) (pg : Nat) (off : Nat) (v : Nat) (w : Sys2Proof.Writer) :
    Keeps s₀ (State.onWrite s₁ d pg off v w) := by
  unfold State.onWrite
  try dsimp only
  repeat' with_reducible first
    | intro _ | simp only [↓Keeps.upd_iff] | assumption | apply keeps_ite | apply keeps_ctrlWritten
    | apply keeps_loadCtrlEffect | apply keeps_ringGo | apply keeps_ckpCommand | apply keeps_reqWritten
    | apply keeps_gqCtrlEffect | apply keeps_gqSlotsEffect | apply keeps_wr | apply keeps_slotCtrl
    | apply keeps_ctxCommand | apply keeps_faultqTail | apply keeps_unitCmd | apply keeps_hbWritten
    | apply keeps_doneWritten | split

theorem keeps_writeAll {s₀ s₁ : State} (h₀ : Keeps s₀ s₁) (d : Nat) (pg : Nat) (off : Nat) (reqs : List Sys2Proof.WriteReq) :
    Keeps s₀ (State.writeAll s₁ d pg off reqs) := by
  unfold State.writeAll
  try dsimp only
  repeat' with_reducible first
    | intro _ | simp only [↓Keeps.upd_iff] | assumption | apply keeps_ite | apply keeps_foldl
    | apply keeps_slotWrites | apply keeps_commit | apply keeps_onWrite | split

theorem keeps_heldOut {s₀ s₁ : State} (h₀ : Keeps s₀ s₁) (x : Sys2Proof.Machine.DomId) :
    Keeps s₀ (State.heldOut s₁ x) := by
  unfold State.heldOut
  try dsimp only
  repeat' with_reducible first
    | intro _ | simp only [↓Keeps.upd_iff] | assumption | apply keeps_ite | apply keeps_foldl
    | apply keeps_writeAll | split

theorem keeps_msiOut {s₀ s₁ : State} (h₀ : Keeps s₀ s₁)  :
    Keeps s₀ (State.msiOut s₁) := by
  unfold State.msiOut
  try dsimp only
  repeat' with_reducible first
    | intro _ | simp only [↓Keeps.upd_iff] | assumption | apply keeps_ite | apply keeps_foldl | apply keeps_send
    | split

theorem keeps_regWriteReq {s₀ s₁ : State} (h₀ : Keeps s₀ s₁) (r : Sys2Proof.Req) (data : List Sys2Proof.Byte) :
    Keeps s₀ (State.regWriteReq s₁ r data) := by
  unfold State.regWriteReq
  try dsimp only
  repeat' with_reducible first
    | intro _ | simp only [↓Keeps.upd_iff] | assumption | apply keeps_ite | apply keeps_writeAll
    | apply keeps_answer | split

theorem keeps_replaysOut {s₀ s₁ : State} (h₀ : Keeps s₀ s₁) (x : Sys2Proof.Machine.DomId) :
    Keeps s₀ (State.replaysOut s₁ x) := by
  unfold State.replaysOut
  try dsimp only
  repeat' with_reducible first
    | intro _ | simp only [↓Keeps.upd_iff] | assumption | apply keeps_ite | apply keeps_foldl
    | apply keeps_replayGo | apply keeps_replayCut | split

theorem keeps_streamWrite {s₀ s₁ : State} (h₀ : Keeps s₀ s₁) (d : Nat) (b : Nat) (sl : Nat) (a : Nat) (v : Nat) :
    Keeps s₀ (State.streamWrite s₁ d b sl a v) := by
  unfold State.streamWrite
  try dsimp only
  repeat' with_reducible first
    | intro _ | simp only [↓Keeps.upd_iff] | assumption | apply keeps_ite | apply keeps_writeAll
    | apply keeps_slotError | split

/-! ### Tick -/

theorem keeps_fabricGo {s₀ s₁ : State} (h₀ : Keeps s₀ s₁)  :
    Keeps s₀ (State.fabricGo s₁) := by
  unfold State.fabricGo
  try dsimp only
  repeat' with_reducible first
    | intro _ | simp only [↓Keeps.upd_iff] | assumption | apply keeps_ite | apply keeps_ite1 | apply keeps_ite2
    | apply keeps_ite22 | apply keeps_foldl | apply keeps_foldl1 | apply keeps_foldl2 | apply keeps_foldNat
    | apply keeps_then | apply keeps_iteC | simp only [id_eq] | apply keeps_invalGo | apply keeps_buddyGo
    | apply keeps_pump | apply keeps_inputsGo | dsimp only | split

theorem keeps_oddOut {s₀ s₁ : State} (h₀ : Keeps s₀ s₁)  :
    Keeps s₀ (State.oddOut s₁) := by
  unfold State.oddOut
  try dsimp only
  repeat' with_reducible first
    | intro _ | simp only [↓Keeps.upd_iff] | assumption | apply keeps_ite | apply keeps_ite1 | apply keeps_ite2
    | apply keeps_ite22 | apply keeps_foldl | apply keeps_foldl1 | apply keeps_foldl2 | apply keeps_foldNat
    | apply keeps_then | apply keeps_iteC | simp only [id_eq] | apply keeps_answerOdd | dsimp only | split

theorem keeps_tickPower {s₀ s₁ : State} (h₀ : Keeps s₀ s₁)  :
    Keeps s₀ (State.tickPower s₁) := by
  unfold State.tickPower
  try dsimp only
  repeat' with_reducible first
    | intro _ | simp only [↓Keeps.upd_iff] | assumption | apply keeps_ite | split

theorem keeps_tickTime {s₀ s₁ : State} (h₀ : Keeps s₀ s₁)  :
    Keeps s₀ (State.tickTime s₁) := by
  unfold State.tickTime
  try dsimp only
  repeat' with_reducible first
    | intro _ | simp only [↓Keeps.upd_iff] | assumption | apply keeps_ite | apply keeps_foldNat | apply keeps_wr
    | apply keeps_syncLock | apply keeps_steer | split

theorem keeps_tick {s₀ s₁ : State} (h₀ : Keeps s₀ s₁)  :
    Keeps s₀ (State.tick s₁) := by
  unfold State.tick
  try dsimp only
  repeat' with_reducible first
    | intro _ | simp only [↓Keeps.upd_iff] | assumption | apply keeps_ite | apply keeps_foldl
    | apply keeps_tickPower | apply keeps_tickTime | apply keeps_wdTick | apply keeps_serWindow
    | apply keeps_oddOut | apply keeps_alertOut | apply keeps_fabricGo | apply keeps_ringGo | apply keeps_pumpAll
    | split

/-! ### Step -/

theorem keeps_withFetchWord {s₀ s₁ : State} (h₀ : Keeps s₀ s₁) (nbits : Nat) (w : Nat) :
    Keeps s₀ (State.withFetchWord s₁ nbits w) := by
  unfold State.withFetchWord
  try dsimp only
  repeat' with_reducible first
    | intro _ | simp only [↓Keeps.upd_iff] | assumption | apply keeps_ite | split

end Sys2Proof.Machine
end

