-- ==== Sys2Proof/Laws/KeepsCommands.lean ====
section
/-! SUPPORT. What each command keeps, but for OWNER_ENROLL, OWNER_REVOKE, ROLLBACK_COMMIT, PROT_REMOVE and
SIGNED_COMMAND_RECEIVE. -/

namespace Sys2Proof.Machine

theorem keeps_msgRow {s₀ s₁ s₂ : State} (h₀ : Keeps s₀ s₁) (n : Mbox) (svc type : Nat)
    (eff : State → Msg → Nat × List Byte × State) (he : ∀ x m, Keeps s₀ x → Keeps s₀ (eff x m).2.2)
    (e₀ : s₁.msgRow n svc type eff = .next s₂) : Keeps s₀ s₂ := by
  unfold State.msgRow at e₀
  split at e₀
  · injection e₀ with e₀; subst e₀; exact h₀
  · split at e₀
    · injection e₀ with e₀; subst e₀; exact keeps_replyMsg h₀ _ _ _ _
    · split at e₀
      · injection e₀ with e₀; subst e₀; exact keeps_oddReply h₀ _ _
      · injection e₀ with e₀; subst e₀
        exact keeps_replyMsg (he _ _ (keeps_ite (keeps_took h₀ _) h₀)) _ _ _ _

/-! ### Stream -/

theorem keeps_execStreamStart {s₀ s₁ s₂ : State} (h₀ : Keeps s₀ s₁) (d : Sys2Proof.Die) (b : Sys2Proof.Bay) (sl : Sys2Proof.Slot)
    (e₀ : (execStreamStart d b sl s₁) = .next s₂) : Keeps s₀ s₂ := by
  unfold execStreamStart at e₀
  injection e₀ with e₀
  subst e₀
  try dsimp only
  repeat' with_reducible first
    | intro _ | simp only [↓Keeps.upd_iff] | assumption | apply keeps_ite | apply keeps_startSlot | split

theorem keeps_execStreamRearm {s₀ s₁ s₂ : State} (h₀ : Keeps s₀ s₁) (d : Sys2Proof.Die) (b : Sys2Proof.Bay) (sl : Sys2Proof.Slot)
    (e₀ : (execStreamRearm d b sl s₁) = .next s₂) : Keeps s₀ s₂ := by
  unfold execStreamRearm at e₀
  injection e₀ with e₀
  subst e₀
  try dsimp only
  repeat' with_reducible first
    | intro _ | simp only [↓Keeps.upd_iff] | assumption | apply keeps_ite | apply keeps_setSlot
    | apply keeps_pumpSlot | split

theorem keeps_execStreamArmingDone {s₀ s₁ s₂ : State} (h₀ : Keeps s₀ s₁) (d : Sys2Proof.Die) (b : Sys2Proof.Bay) (sl : Sys2Proof.Slot)
    (e₀ : (execStreamArmingDone d b sl s₁) = .next s₂) : Keeps s₀ s₂ := by
  unfold execStreamArmingDone at e₀
  injection e₀ with e₀
  subst e₀
  try dsimp only
  repeat' with_reducible first
    | intro _ | simp only [↓Keeps.upd_iff] | assumption | apply keeps_ite | apply keeps_endSlotTracks
    | apply keeps_setPair | split

theorem keeps_execSlotResume {s₀ s₁ s₂ : State} (h₀ : Keeps s₀ s₁) (w : Sys2Proof.Writer) (d : Sys2Proof.Die) (b : Sys2Proof.Bay) (sl : Sys2Proof.Slot)
    (e₀ : (execSlotResume w d b sl s₁) = .next s₂) : Keeps s₀ s₂ := by
  unfold execSlotResume at e₀
  injection e₀ with e₀
  subst e₀
  try dsimp only
  repeat' with_reducible first
    | intro _ | simp only [↓Keeps.upd_iff] | assumption | apply keeps_ite | apply keeps_slotCtrlWrite | split

theorem keeps_execSlotAbort {s₀ s₁ s₂ : State} (h₀ : Keeps s₀ s₁) (w : Sys2Proof.Writer) (d : Sys2Proof.Die) (b : Sys2Proof.Bay) (sl : Sys2Proof.Slot)
    (e₀ : (execSlotAbort w d b sl s₁) = .next s₂) : Keeps s₀ s₂ := by
  unfold execSlotAbort at e₀
  injection e₀ with e₀
  subst e₀
  try dsimp only
  repeat' with_reducible first
    | intro _ | simp only [↓Keeps.upd_iff] | assumption | apply keeps_ite | apply keeps_slotCtrlWrite | split

theorem keeps_execSlotCancel {s₀ s₁ s₂ : State} (h₀ : Keeps s₀ s₁) (w : Sys2Proof.Writer) (d : Sys2Proof.Die) (b : Sys2Proof.Bay) (sl : Sys2Proof.Slot)
    (e₀ : (execSlotCancel w d b sl s₁) = .next s₂) : Keeps s₀ s₂ := by
  unfold execSlotCancel at e₀
  injection e₀ with e₀
  subst e₀
  try dsimp only
  repeat' with_reducible first
    | intro _ | simp only [↓Keeps.upd_iff] | assumption | apply keeps_ite | apply keeps_slotCtrlWrite | split

theorem keeps_execSlotFaultTimeout {s₀ s₁ s₂ : State} (h₀ : Keeps s₀ s₁) (d : Sys2Proof.Die) (b : Sys2Proof.Bay) (sl : Sys2Proof.Slot)
    (e₀ : (execSlotFaultTimeout d b sl s₁) = .next s₂) : Keeps s₀ s₂ := by
  unfold execSlotFaultTimeout at e₀
  injection e₀ with e₀
  subst e₀
  try dsimp only
  repeat' with_reducible first
    | intro _ | simp only [↓Keeps.upd_iff] | assumption | apply keeps_ite | apply keeps_abortSlot | split

theorem keeps_execSlotCancelComplete {s₀ s₁ s₂ : State} (h₀ : Keeps s₀ s₁) (d : Sys2Proof.Die) (b : Sys2Proof.Bay) (sl : Sys2Proof.Slot)
    (e₀ : (execSlotCancelComplete d b sl s₁) = .next s₂) : Keeps s₀ s₂ := by
  unfold execSlotCancelComplete at e₀
  injection e₀ with e₀
  subst e₀
  try dsimp only
  repeat' with_reducible first
    | intro _ | simp only [↓Keeps.upd_iff] | assumption | apply keeps_ite | apply keeps_endSlotTracks
    | apply keeps_settleSlot | apply keeps_onPair | split

/-! ### Switch -/

theorem keeps_execBayQuantumEnd {s₀ s₁ s₂ : State} (h₀ : Keeps s₀ s₁) (d : Sys2Proof.Die) (b : Sys2Proof.Bay)
    (e₀ : (execBayQuantumEnd d b s₁) = .next s₂) : Keeps s₀ s₂ := by
  unfold execBayQuantumEnd at e₀
  injection e₀ with e₀
  subst e₀
  try dsimp only
  repeat' with_reducible first
    | intro _ | simp only [↓Keeps.upd_iff] | assumption | apply keeps_ite | apply keeps_setSwitching
    | apply keeps_settleSwitch | apply keeps_restoreBay | apply keeps_saveBay | split

/-! ### Contexts -/

theorem keeps_execSchedulerQuantum {s₀ s₁ s₂ : State} (h₀ : Keeps s₀ s₁) (d : Sys2Proof.Die)
    (e₀ : (execSchedulerQuantum d s₁) = .next s₂) : Keeps s₀ s₂ := by
  unfold execSchedulerQuantum at e₀
  injection e₀ with e₀
  subst e₀
  try dsimp only
  repeat' with_reducible first
    | intro _ | simp only [↓Keeps.upd_iff] | assumption | apply keeps_ite | apply keeps_foldl | apply keeps_letIn
    | apply keeps_setResid | split

theorem keeps_execEvictionComplete {s₀ s₁ s₂ : State} (h₀ : Keeps s₀ s₁) (d : Sys2Proof.Die) (id : Sys2Proof.CtxId)
    (e₀ : (execEvictionComplete d id s₁) = .next s₂) : Keeps s₀ s₂ := by
  unfold execEvictionComplete at e₀
  injection e₀ with e₀
  subst e₀
  try dsimp only
  repeat' with_reducible first
    | intro _ | simp only [↓Keeps.upd_iff] | assumption | apply keeps_ite | apply keeps_foldl
    | apply keeps_evictBay | apply keeps_setResid | apply keeps_stopCheck | split

theorem keeps_execDefine {s₀ s₁ s₂ : State} (h₀ : Keeps s₀ s₁) (w : Sys2Proof.Writer) (id : Sys2Proof.CtxId)
    (e₀ : (execDefine w id s₁) = .next s₂) : Keeps s₀ s₂ := by
  unfold execDefine at e₀
  injection e₀ with e₀
  subst e₀
  try dsimp only
  repeat' with_reducible first
    | intro _ | simp only [↓Keeps.upd_iff] | assumption | apply keeps_ite | apply keeps_ctxCmdWrite | split

theorem keeps_execRun {s₀ s₁ s₂ : State} (h₀ : Keeps s₀ s₁) (w : Sys2Proof.Writer) (id : Sys2Proof.CtxId)
    (e₀ : (execRun w id s₁) = .next s₂) : Keeps s₀ s₂ := by
  unfold execRun at e₀
  injection e₀ with e₀
  subst e₀
  try dsimp only
  repeat' with_reducible first
    | intro _ | simp only [↓Keeps.upd_iff] | assumption | apply keeps_ite | apply keeps_ctxCmdWrite | split

theorem keeps_execStop {s₀ s₁ s₂ : State} (h₀ : Keeps s₀ s₁) (w : Sys2Proof.Writer) (id : Sys2Proof.CtxId)
    (e₀ : (execStop w id s₁) = .next s₂) : Keeps s₀ s₂ := by
  unfold execStop at e₀
  injection e₀ with e₀
  subst e₀
  try dsimp only
  repeat' with_reducible first
    | intro _ | simp only [↓Keeps.upd_iff] | assumption | apply keeps_ite | apply keeps_ctxCmdWrite | split

theorem keeps_execTeardown {s₀ s₁ s₂ : State} (h₀ : Keeps s₀ s₁) (w : Sys2Proof.Writer) (id : Sys2Proof.CtxId)
    (e₀ : (execTeardown w id s₁) = .next s₂) : Keeps s₀ s₂ := by
  unfold execTeardown at e₀
  injection e₀ with e₀
  subst e₀
  try dsimp only
  repeat' with_reducible first
    | intro _ | simp only [↓Keeps.upd_iff] | assumption | apply keeps_ite | apply keeps_ctxCmdWrite | split

theorem keeps_execQuiesce {s₀ s₁ s₂ : State} (h₀ : Keeps s₀ s₁) (w : Sys2Proof.Writer) (id : Sys2Proof.CtxId)
    (e₀ : (execQuiesce w id s₁) = .next s₂) : Keeps s₀ s₂ := by
  unfold execQuiesce at e₀
  injection e₀ with e₀
  subst e₀
  try dsimp only
  repeat' with_reducible first
    | intro _ | simp only [↓Keeps.upd_iff] | assumption | apply keeps_ite | apply keeps_ctxCmdWrite | split

theorem keeps_execInvalAll {s₀ s₁ s₂ : State} (h₀ : Keeps s₀ s₁) (w : Sys2Proof.Writer) (id : Sys2Proof.CtxId)
    (e₀ : (execInvalAll w id s₁) = .next s₂) : Keeps s₀ s₂ := by
  unfold execInvalAll at e₀
  injection e₀ with e₀
  subst e₀
  try dsimp only
  repeat' with_reducible first
    | intro _ | simp only [↓Keeps.upd_iff] | assumption | apply keeps_ite | apply keeps_ctxCmdWrite | split

theorem keeps_execInvalRange {s₀ s₁ s₂ : State} (h₀ : Keeps s₀ s₁) (w : Sys2Proof.Writer) (id : Sys2Proof.CtxId)
    (e₀ : (execInvalRange w id s₁) = .next s₂) : Keeps s₀ s₂ := by
  unfold execInvalRange at e₀
  injection e₀ with e₀
  subst e₀
  try dsimp only
  repeat' with_reducible first
    | intro _ | simp only [↓Keeps.upd_iff] | assumption | apply keeps_ite | apply keeps_ctxCmdWrite | split

theorem keeps_execFenceComplete {s₀ s₁ s₂ : State} (h₀ : Keeps s₀ s₁) 
    (e₀ : (execFenceComplete s₁) = .next s₂) : Keeps s₀ s₂ := by
  unfold execFenceComplete at e₀
  injection e₀ with e₀
  subst e₀
  try dsimp only
  repeat' with_reducible first
    | intro _ | simp only [↓Keeps.upd_iff] | assumption | apply keeps_ite | apply keeps_hwFences
    | apply keeps_fenceEnd | split

theorem keeps_execFenceTimeout {s₀ s₁ s₂ : State} (h₀ : Keeps s₀ s₁) 
    (e₀ : (execFenceTimeout s₁) = .next s₂) : Keeps s₀ s₂ := by
  unfold execFenceTimeout at e₀
  injection e₀ with e₀
  subst e₀
  try dsimp only
  repeat' with_reducible first
    | intro _ | simp only [↓Keeps.upd_iff] | assumption | apply keeps_ite | apply keeps_hwFences
    | apply keeps_fenceEnd | split

theorem keeps_execFaultqTailWrite {s₀ s₁ s₂ : State} (h₀ : Keeps s₀ s₁) (w : Sys2Proof.Writer) (d : Sys2Proof.Die) (v : BitVec 64)
    (e₀ : (execFaultqTailWrite w d v s₁) = .next s₂) : Keeps s₀ s₂ := by
  unfold execFaultqTailWrite at e₀
  injection e₀ with e₀
  subst e₀
  try dsimp only
  repeat' with_reducible first
    | intro _ | simp only [↓Keeps.upd_iff] | assumption | apply keeps_ite | apply keeps_then | apply keeps_write1
    | apply keeps_faultqTail | split

/-! ### ShortPath -/

theorem keeps_execShortPathTransfer {s₀ s₁ s₂ : State} (h₀ : Keeps s₀ s₁) (p : Sys2Proof.SpPort) (t : Sys2Proof.SpTransfer)
    (e₀ : (execShortPathTransfer p t s₁) = .next s₂) : Keeps s₀ s₂ := by
  unfold execShortPathTransfer at e₀
  injection e₀ with e₀
  subst e₀
  try dsimp only
  repeat' with_reducible first
    | intro _ | simp only [↓Keeps.upd_iff] | assumption | apply keeps_ite | apply keeps_spRefused
    | apply keeps_spIssue | apply keeps_spCount | apply keeps_setPort | split

theorem keeps_execShortPathWindow {s₀ s₁ s₂ : State} (h₀ : Keeps s₀ s₁) (p : Sys2Proof.SpPort)
    (e₀ : (execShortPathWindow p s₁) = .next s₂) : Keeps s₀ s₂ := by
  unfold execShortPathWindow at e₀
  injection e₀ with e₀
  subst e₀
  try dsimp only
  repeat' with_reducible first
    | intro _ | simp only [↓Keeps.upd_iff] | assumption | apply keeps_ite | apply keeps_spIssue
    | apply keeps_setPort | split

theorem keeps_execWindowPeriod {s₀ s₁ s₂ : State} (h₀ : Keeps s₀ s₁) (p : Sys2Proof.SpPort)
    (e₀ : (execWindowPeriod p s₁) = .next s₂) : Keeps s₀ s₂ := by
  unfold execWindowPeriod at e₀
  injection e₀ with e₀
  subst e₀
  try dsimp only
  repeat' with_reducible first
    | intro _ | simp only [↓Keeps.upd_iff] | assumption | apply keeps_ite | apply keeps_setPort | split

/-! ### Matrix -/

theorem keeps_execMma {s₀ s₁ s₂ : State} (h₀ : Keeps s₀ s₁) (d : Sys2Proof.Die) (b : Sys2Proof.Bay)
    (e₀ : (execMma d b s₁) = .next s₂) : Keeps s₀ s₂ := by
  unfold execMma at e₀
  injection e₀ with e₀
  subst e₀
  try dsimp only
  repeat' with_reducible first
    | intro _ | simp only [↓Keeps.upd_iff] | assumption | apply keeps_ite | apply keeps_mmaStart
    | apply keeps_waitMarks | split

theorem keeps_execGatherSubmit {s₀ s₁ s₂ : State} (h₀ : Keeps s₀ s₁) (d : Sys2Proof.Die) (b : Sys2Proof.Bay) (g : Sys2Proof.GatherSub)
    (e₀ : (execGatherSubmit d b g s₁) = .next s₂) : Keeps s₀ s₂ := by
  unfold execGatherSubmit at e₀
  injection e₀ with e₀
  subst e₀
  try dsimp only
  repeat' with_reducible first
    | intro _ | simp only [↓Keeps.upd_iff] | assumption | apply keeps_ite | apply keeps_gatherSubmit | split

theorem keeps_execGatherRoundTimeout {s₀ s₁ s₂ : State} (h₀ : Keeps s₀ s₁) (d : Sys2Proof.Die) (b : Sys2Proof.Bay)
    (e₀ : (execGatherRoundTimeout d b s₁) = .next s₂) : Keeps s₀ s₂ := by
  unfold execGatherRoundTimeout at e₀
  injection e₀ with e₀
  subst e₀
  try dsimp only
  repeat' with_reducible first
    | intro _ | simp only [↓Keeps.upd_iff] | assumption | apply keeps_ite | apply keeps_incF
    | apply keeps_setGather | split

theorem keeps_execGatherQueueDisable {s₀ s₁ s₂ : State} (h₀ : Keeps s₀ s₁) (w : Sys2Proof.Writer) (d : Sys2Proof.Die) (b : Sys2Proof.Bay)
    (e₀ : (execGatherQueueDisable w d b s₁) = .next s₂) : Keeps s₀ s₂ := by
  unfold execGatherQueueDisable at e₀
  injection e₀ with e₀
  subst e₀
  try dsimp only
  repeat' with_reducible first
    | intro _ | simp only [↓Keeps.upd_iff] | assumption | apply keeps_ite | apply keeps_then | apply keeps_write1
    | apply keeps_gqCtrlEffect | split

theorem keeps_execGqSlotsWrite {s₀ s₁ s₂ : State} (h₀ : Keeps s₀ s₁) (w : Sys2Proof.Writer) (d : Sys2Proof.Die) (b : Sys2Proof.Bay) (v : BitVec 64)
    (e₀ : (execGqSlotsWrite w d b v s₁) = .next s₂) : Keeps s₀ s₂ := by
  unfold execGqSlotsWrite at e₀
  injection e₀ with e₀
  subst e₀
  try dsimp only
  repeat' with_reducible first
    | intro _ | simp only [↓Keeps.upd_iff] | assumption | apply keeps_ite | apply keeps_then | apply keeps_write1
    | apply keeps_gqSlotsEffect | split

theorem keeps_execMmaGather {s₀ s₁ s₂ : State} (h₀ : Keeps s₀ s₁) (d : Sys2Proof.Die) (b : Sys2Proof.Bay)
    (e₀ : (execMmaGather d b s₁) = .next s₂) : Keeps s₀ s₂ := by
  unfold execMmaGather at e₀
  injection e₀ with e₀
  subst e₀
  try dsimp only
  repeat' with_reducible first
    | intro _ | simp only [↓Keeps.upd_iff] | assumption | apply keeps_ite | apply keeps_gatherRun
    | apply keeps_gatherIssue | apply keeps_gatherBegin | split

theorem keeps_execSyncWait {s₀ s₁ s₂ : State} (h₀ : Keeps s₀ s₁) (d : Sys2Proof.Die) (b : Sys2Proof.Bay)
    (e₀ : (execSyncWait d b s₁) = .next s₂) : Keeps s₀ s₂ := by
  unfold execSyncWait at e₀
  injection e₀ with e₀
  subst e₀
  try dsimp only
  repeat' with_reducible first
    | intro _ | simp only [↓Keeps.upd_iff] | assumption | apply keeps_ite | apply keeps_engineSem
    | apply keeps_waitMarks | split

theorem keeps_execSyncAdd {s₀ s₁ s₂ : State} (h₀ : Keeps s₀ s₁) (d : Sys2Proof.Die) (b : Sys2Proof.Bay)
    (e₀ : (execSyncAdd d b s₁) = .next s₂) : Keeps s₀ s₂ := by
  unfold execSyncAdd at e₀
  injection e₀ with e₀
  subst e₀
  try dsimp only
  repeat' with_reducible first
    | intro _ | simp only [↓Keeps.upd_iff] | assumption | apply keeps_ite | apply keeps_engineSem
    | apply keeps_waitMarks | split

theorem keeps_execMxeEnd {s₀ s₁ s₂ : State} (h₀ : Keeps s₀ s₁) (d : Sys2Proof.Die) (b : Sys2Proof.Bay)
    (e₀ : (execMxeEnd d b s₁) = .next s₂) : Keeps s₀ s₂ := by
  unfold execMxeEnd at e₀
  injection e₀ with e₀
  subst e₀
  try dsimp only
  repeat' with_reducible first
    | intro _ | simp only [↓Keeps.upd_iff] | assumption | apply keeps_ite | apply keeps_mxeNext
    | apply keeps_waitMarks | apply keeps_setMxe | apply keeps_endCancel | split

theorem keeps_execSyncErrorResponse {s₀ s₁ s₂ : State} (h₀ : Keeps s₀ s₁) (d : Sys2Proof.Die) (b : Sys2Proof.Bay) (vxe : Bool) (status : Sys2Proof.Status) (remote : Bool)
    (e₀ : (execSyncErrorResponse d b vxe status remote s₁) = .next s₂) : Keeps s₀ s₂ := by
  unfold execSyncErrorResponse at e₀
  injection e₀ with e₀
  subst e₀
  try dsimp only
  repeat' with_reducible first
    | intro _ | simp only [↓Keeps.upd_iff] | assumption | apply keeps_ite | apply keeps_syncError
    | apply keeps_syncEnded | split

theorem keeps_execTileDrainComplete {s₀ s₁ s₂ : State} (h₀ : Keeps s₀ s₁) (d : Sys2Proof.Die) (b : Sys2Proof.Bay) (flips : List Sys2Proof.Flip)
    (e₀ : (execTileDrainComplete d b flips s₁) = .next s₂) : Keeps s₀ s₂ := by
  unfold execTileDrainComplete at e₀
  injection e₀ with e₀
  subst e₀
  try dsimp only
  repeat' with_reducible first
    | intro _ | simp only [↓Keeps.upd_iff] | assumption | apply keeps_ite | apply keeps_drainChain | split

theorem keeps_execArrayParityError {s₀ s₁ s₂ : State} (h₀ : Keeps s₀ s₁) (d : Sys2Proof.Die) (b : Sys2Proof.Bay)
    (e₀ : (execArrayParityError d b s₁) = .next s₂) : Keeps s₀ s₂ := by
  unfold execArrayParityError at e₀
  injection e₀ with e₀
  subst e₀
  try dsimp only
  repeat' with_reducible first
    | intro _ | simp only [↓Keeps.upd_iff] | assumption | apply keeps_ite | apply keeps_histEvent
    | apply keeps_setErr | apply keeps_dupAbandon | apply keeps_setMxe | apply keeps_noCertBay | split

theorem keeps_execLayerGateOpen {s₀ s₁ s₂ : State} (h₀ : Keeps s₀ s₁) (layer : Nat)
    (e₀ : (execLayerGateOpen layer s₁) = .next s₂) : Keeps s₀ s₂ := by
  unfold execLayerGateOpen at e₀
  injection e₀ with e₀
  subst e₀
  try dsimp only
  repeat' with_reducible first
    | intro _ | simp only [↓Keeps.upd_iff] | assumption | apply keeps_ite | apply keeps_foldl | apply keeps_satF
    | apply keeps_logAt | apply keeps_wr | apply keeps_onBookMxe | split

/-! ### Requests -/

theorem keeps_execSrd {s₀ s₁ s₂ : State} (h₀ : Keeps s₀ s₁) (r : Sys2Proof.Req) (len : Nat) (env : Sys2Proof.EccEnv)
    (e₀ : (execSrd r len env s₁) = .next s₂) : Keeps s₀ s₂ := by
  unfold execSrd at e₀
  injection e₀ with e₀
  subst e₀
  try dsimp only
  repeat' with_reducible first
    | intro _ | simp only [↓Keeps.upd_iff] | assumption | apply keeps_ite | apply keeps_atHome
    | apply keeps_badPacket | apply keeps_countPacket | apply keeps_regRead | apply keeps_memAnswer
    | apply keeps_spaceRefused | split

theorem keeps_execSemwait {s₀ s₁ s₂ : State} (h₀ : Keeps s₀ s₁) (r : Sys2Proof.Req) (value : BitVec 64) (env : Sys2Proof.EccEnv)
    (e₀ : (execSemwait r value env s₁) = .next s₂) : Keeps s₀ s₂ := by
  unfold execSemwait at e₀
  injection e₀ with e₀
  subst e₀
  try dsimp only
  repeat' with_reducible first
    | intro _ | simp only [↓Keeps.upd_iff] | assumption | apply keeps_ite | apply keeps_atHome
    | apply keeps_homeSemwait | apply keeps_countPacket | split

theorem keeps_execAddI32 {s₀ s₁ s₂ : State} (h₀ : Keeps s₀ s₁) (r : Sys2Proof.Req) (size : Nat) (operand : BitVec 64) (env : Sys2Proof.EccEnv)
    (e₀ : (execAddI32 r size operand env s₁) = .next s₂) : Keeps s₀ s₂ := by
  unfold execAddI32 at e₀
  injection e₀ with e₀
  subst e₀
  try dsimp only
  repeat' with_reducible first
    | intro _ | simp only [↓Keeps.upd_iff] | assumption | apply keeps_ite | apply keeps_atomReq | split

theorem keeps_execAddU64 {s₀ s₁ s₂ : State} (h₀ : Keeps s₀ s₁) (r : Sys2Proof.Req) (size : Nat) (operand : BitVec 64) (env : Sys2Proof.EccEnv)
    (e₀ : (execAddU64 r size operand env s₁) = .next s₂) : Keeps s₀ s₂ := by
  unfold execAddU64 at e₀
  injection e₀ with e₀
  subst e₀
  try dsimp only
  repeat' with_reducible first
    | intro _ | simp only [↓Keeps.upd_iff] | assumption | apply keeps_ite | apply keeps_atomReq | split

theorem keeps_execAddF32 {s₀ s₁ s₂ : State} (h₀ : Keeps s₀ s₁) (r : Sys2Proof.Req) (size : Nat) (operand : BitVec 64) (env : Sys2Proof.EccEnv)
    (e₀ : (execAddF32 r size operand env s₁) = .next s₂) : Keeps s₀ s₂ := by
  unfold execAddF32 at e₀
  injection e₀ with e₀
  subst e₀
  try dsimp only
  repeat' with_reducible first
    | intro _ | simp only [↓Keeps.upd_iff] | assumption | apply keeps_ite | apply keeps_atomReq | split

theorem keeps_execAddBf16 {s₀ s₁ s₂ : State} (h₀ : Keeps s₀ s₁) (r : Sys2Proof.Req) (size : Nat) (operand : BitVec 64) (env : Sys2Proof.EccEnv)
    (e₀ : (execAddBf16 r size operand env s₁) = .next s₂) : Keeps s₀ s₂ := by
  unfold execAddBf16 at e₀
  injection e₀ with e₀
  subst e₀
  try dsimp only
  repeat' with_reducible first
    | intro _ | simp only [↓Keeps.upd_iff] | assumption | apply keeps_ite | apply keeps_atomReq | split

theorem keeps_execMinI32 {s₀ s₁ s₂ : State} (h₀ : Keeps s₀ s₁) (r : Sys2Proof.Req) (size : Nat) (operand : BitVec 64) (env : Sys2Proof.EccEnv)
    (e₀ : (execMinI32 r size operand env s₁) = .next s₂) : Keeps s₀ s₂ := by
  unfold execMinI32 at e₀
  injection e₀ with e₀
  subst e₀
  try dsimp only
  repeat' with_reducible first
    | intro _ | simp only [↓Keeps.upd_iff] | assumption | apply keeps_ite | apply keeps_atomReq | split

theorem keeps_execMaxI32 {s₀ s₁ s₂ : State} (h₀ : Keeps s₀ s₁) (r : Sys2Proof.Req) (size : Nat) (operand : BitVec 64) (env : Sys2Proof.EccEnv)
    (e₀ : (execMaxI32 r size operand env s₁) = .next s₂) : Keeps s₀ s₂ := by
  unfold execMaxI32 at e₀
  injection e₀ with e₀
  subst e₀
  try dsimp only
  repeat' with_reducible first
    | intro _ | simp only [↓Keeps.upd_iff] | assumption | apply keeps_ite | apply keeps_atomReq | split

theorem keeps_execMinF32 {s₀ s₁ s₂ : State} (h₀ : Keeps s₀ s₁) (r : Sys2Proof.Req) (size : Nat) (operand : BitVec 64) (env : Sys2Proof.EccEnv)
    (e₀ : (execMinF32 r size operand env s₁) = .next s₂) : Keeps s₀ s₂ := by
  unfold execMinF32 at e₀
  injection e₀ with e₀
  subst e₀
  try dsimp only
  repeat' with_reducible first
    | intro _ | simp only [↓Keeps.upd_iff] | assumption | apply keeps_ite | apply keeps_atomReq | split

theorem keeps_execMaxF32 {s₀ s₁ s₂ : State} (h₀ : Keeps s₀ s₁) (r : Sys2Proof.Req) (size : Nat) (operand : BitVec 64) (env : Sys2Proof.EccEnv)
    (e₀ : (execMaxF32 r size operand env s₁) = .next s₂) : Keeps s₀ s₂ := by
  unfold execMaxF32 at e₀
  injection e₀ with e₀
  subst e₀
  try dsimp only
  repeat' with_reducible first
    | intro _ | simp only [↓Keeps.upd_iff] | assumption | apply keeps_ite | apply keeps_atomReq | split

theorem keeps_execMinU64 {s₀ s₁ s₂ : State} (h₀ : Keeps s₀ s₁) (r : Sys2Proof.Req) (size : Nat) (operand : BitVec 64) (env : Sys2Proof.EccEnv)
    (e₀ : (execMinU64 r size operand env s₁) = .next s₂) : Keeps s₀ s₂ := by
  unfold execMinU64 at e₀
  injection e₀ with e₀
  subst e₀
  try dsimp only
  repeat' with_reducible first
    | intro _ | simp only [↓Keeps.upd_iff] | assumption | apply keeps_ite | apply keeps_atomReq | split

theorem keeps_execMaxU64 {s₀ s₁ s₂ : State} (h₀ : Keeps s₀ s₁) (r : Sys2Proof.Req) (size : Nat) (operand : BitVec 64) (env : Sys2Proof.EccEnv)
    (e₀ : (execMaxU64 r size operand env s₁) = .next s₂) : Keeps s₀ s₂ := by
  unfold execMaxU64 at e₀
  injection e₀ with e₀
  subst e₀
  try dsimp only
  repeat' with_reducible first
    | intro _ | simp only [↓Keeps.upd_iff] | assumption | apply keeps_ite | apply keeps_atomReq | split

theorem keeps_execCas {s₀ s₁ s₂ : State} (h₀ : Keeps s₀ s₁) (r : Sys2Proof.Req) (size : Nat) (compare : BitVec 64) (operand : BitVec 64) (env : Sys2Proof.EccEnv)
    (e₀ : (execCas r size compare operand env s₁) = .next s₂) : Keeps s₀ s₂ := by
  unfold execCas at e₀
  injection e₀ with e₀
  subst e₀
  try dsimp only
  repeat' with_reducible first
    | intro _ | simp only [↓Keeps.upd_iff] | assumption | apply keeps_ite | apply keeps_atomReq | split

theorem keeps_execSwap {s₀ s₁ s₂ : State} (h₀ : Keeps s₀ s₁) (r : Sys2Proof.Req) (size : Nat) (operand : BitVec 64) (env : Sys2Proof.EccEnv)
    (e₀ : (execSwap r size operand env s₁) = .next s₂) : Keeps s₀ s₂ := by
  unfold execSwap at e₀
  injection e₀ with e₀
  subst e₀
  try dsimp only
  repeat' with_reducible first
    | intro _ | simp only [↓Keeps.upd_iff] | assumption | apply keeps_ite | apply keeps_atomReq | split

theorem keeps_execBell {s₀ s₁ s₂ : State} (h₀ : Keeps s₀ s₁) (r : Sys2Proof.Req) (data : List (BitVec 8))
    (e₀ : (execBell r data s₁) = .next s₂) : Keeps s₀ s₂ := by
  unfold execBell at e₀
  injection e₀ with e₀
  subst e₀
  try dsimp only
  repeat' with_reducible first
    | intro _ | simp only [↓Keeps.upd_iff] | assumption | apply keeps_ite | apply keeps_atHome
    | apply keeps_badPacket | apply keeps_answer | apply keeps_logRefused | apply keeps_setErr
    | apply keeps_gatherSubmit | apply keeps_countPacket | apply keeps_spaceRefused | split

theorem keeps_execRd {s₀ s₁ s₂ : State} (h₀ : Keeps s₀ s₁) (r : Sys2Proof.Req) (h : Sys2Proof.DataHdr) (len : Nat) (env : Sys2Proof.EccEnv)
    (e₀ : (execRd r h len env s₁) = .next s₂) : Keeps s₀ s₂ := by
  unfold execRd at e₀
  injection e₀ with e₀
  subst e₀
  try dsimp only
  repeat' with_reducible first
    | intro _ | simp only [↓Keeps.upd_iff] | assumption | apply keeps_ite | apply keeps_atHome
    | apply keeps_badPacket | apply keeps_countPacket | apply keeps_regRead | apply keeps_memAnswer
    | apply keeps_spaceRefused | split

theorem keeps_execWr {s₀ s₁ s₂ : State} (h₀ : Keeps s₀ s₁) (r : Sys2Proof.Req) (h : Sys2Proof.DataHdr) (data : List (BitVec 8)) (env : Sys2Proof.EccEnv)
    (e₀ : (execWr r h data env s₁) = .next s₂) : Keeps s₀ s₂ := by
  unfold execWr at e₀
  injection e₀ with e₀
  subst e₀
  try dsimp only
  repeat' with_reducible first
    | intro _ | simp only [↓Keeps.upd_iff] | assumption | apply keeps_ite | apply keeps_dataWrite | split

theorem keeps_execMwr {s₀ s₁ s₂ : State} (h₀ : Keeps s₀ s₁) (r : Sys2Proof.Req) (h : Sys2Proof.DataHdr) (data : List (BitVec 8)) (env : Sys2Proof.EccEnv)
    (e₀ : (execMwr r h data env s₁) = .next s₂) : Keeps s₀ s₂ := by
  unfold execMwr at e₀
  injection e₀ with e₀
  subst e₀
  try dsimp only
  repeat' with_reducible first
    | intro _ | simp only [↓Keeps.upd_iff] | assumption | apply keeps_ite | apply keeps_dataWrite | split

theorem keeps_execRed {s₀ s₁ s₂ : State} (h₀ : Keeps s₀ s₁) (r : Sys2Proof.Req) (red : Sys2Proof.RedFields) (data : List (BitVec 8)) (env : Sys2Proof.EccEnv)
    (e₀ : (execRed r red data env s₁) = .next s₂) : Keeps s₀ s₂ := by
  unfold execRed at e₀
  injection e₀ with e₀
  subst e₀
  try dsimp only
  repeat' with_reducible first
    | intro _ | simp only [↓Keeps.upd_iff] | assumption | apply keeps_ite | apply keeps_atHome
    | apply keeps_badPacket | apply keeps_payload | apply keeps_spaceRefused | apply keeps_redArrive
    | apply keeps_arise | split

theorem keeps_execReplyReceive {s₀ s₁ s₂ : State} (h₀ : Keeps s₀ s₁) (r : Sys2Proof.Req) (status : Sys2Proof.Status) (ackCount : Nat) (echo : Bool) (data : List (BitVec 8))
    (e₀ : (execReplyReceive r status ackCount echo data s₁) = .next s₂) : Keeps s₀ s₂ := by
  unfold execReplyReceive at e₀
  injection e₀ with e₀
  subst e₀
  try dsimp only
  repeat' with_reducible first
    | intro _ | simp only [↓Keeps.upd_iff] | assumption | apply keeps_ite | apply keeps_dropReply
    | apply keeps_unanswered | apply keeps_endTrack | refine keeps_replyOpen_eq ?_ _ _ _ _ (by assumption)
    | apply keeps_replyOpen | apply keeps_replyAuth | apply keeps_accept | apply keeps_echoAt | apply keeps_busErr
    | apply keeps_send | split

theorem keeps_execLost {s₀ s₁ s₂ : State} (h₀ : Keeps s₀ s₁) (r : Sys2Proof.Req) (leaves : Nat) (echo : Bool)
    (e₀ : (execLost r leaves echo s₁) = .next s₂) : Keeps s₀ s₂ := by
  unfold execLost at e₀
  injection e₀ with e₀
  subst e₀
  try dsimp only
  repeat' with_reducible first
    | intro _ | simp only [↓Keeps.upd_iff] | assumption | apply keeps_ite | apply keeps_dropReply
    | apply keeps_unanswered | apply keeps_endTrack | apply keeps_branchLost | apply keeps_echoAt
    | apply keeps_accept | apply keeps_putTrack | split

theorem keeps_execTrackingEntryExpire {s₀ s₁ s₂ : State} (h₀ : Keeps s₀ s₁) (d : Sys2Proof.Die) (track : BitVec 16)
    (e₀ : (execTrackingEntryExpire d track s₁) = .next s₂) : Keeps s₀ s₂ := by
  unfold execTrackingEntryExpire at e₀
  injection e₀ with e₀
  subst e₀
  try dsimp only
  repeat' with_reducible first
    | intro _ | simp only [↓Keeps.upd_iff] | assumption | apply keeps_ite | apply keeps_incF
    | apply keeps_unanswered | apply keeps_endTrack | apply keeps_endStep | split

theorem keeps_execRequestAgeDiscard {s₀ s₁ s₂ : State} (h₀ : Keeps s₀ s₁) (d : Sys2Proof.Die) (r : Sys2Proof.Req) (_issuedNs : Nat)
    (e₀ : (execRequestAgeDiscard d r _issuedNs s₁) = .next s₂) : Keeps s₀ s₂ := by
  unfold execRequestAgeDiscard at e₀
  injection e₀ with e₀
  subst e₀
  try dsimp only
  repeat' with_reducible first
    | intro _ | simp only [↓Keeps.upd_iff] | assumption | apply keeps_ite | apply keeps_setErr | apply keeps_incF
    | apply keeps_dropWatches | split

theorem keeps_execShcBankFail {s₀ s₁ s₂ : State} (h₀ : Keeps s₀ s₁) (d : Sys2Proof.Die) (bank : Fin 50)
    (e₀ : (execShcBankFail d bank s₁) = .next s₂) : Keeps s₀ s₂ := by
  unfold execShcBankFail at e₀
  injection e₀ with e₀
  subst e₀
  try dsimp only
  repeat' with_reducible first
    | intro _ | simp only [↓Keeps.upd_iff] | assumption | apply keeps_ite | apply keeps_bankFail | split

theorem keeps_execScrub {s₀ s₁ s₂ : State} (h₀ : Keeps s₀ s₁) (d : Sys2Proof.Die) (t : Sys2Proof.StackIx) (granules : Nat) (env : Sys2Proof.EccEnv)
    (e₀ : (execScrub d t granules env s₁) = .next s₂) : Keeps s₀ s₂ := by
  unfold execScrub at e₀
  injection e₀ with e₀
  subst e₀
  try dsimp only
  repeat' with_reducible first
    | intro _ | simp only [↓Keeps.upd_iff] | assumption | apply keeps_ite | apply keeps_foldl | apply keeps_upset
    | apply keeps_satF | apply keeps_wrF | apply keeps_incF | apply keeps_checkSector | apply keeps_foundBad
    | split

theorem keeps_execUncorrectableRestore {s₀ s₁ s₂ : State} (h₀ : Keeps s₀ s₁) (addr : Nat) (sectors : Nat) (data : List (BitVec 8))
    (e₀ : (execUncorrectableRestore addr sectors data s₁) = .next s₂) : Keeps s₀ s₂ := by
  unfold execUncorrectableRestore at e₀
  injection e₀ with e₀
  subst e₀
  try dsimp only
  repeat' with_reducible first
    | intro _ | simp only [↓Keeps.upd_iff] | assumption | apply keeps_ite | apply keeps_touch
    | refine keeps_ownWrite_eq ?_ _ _ (by assumption) | apply keeps_ownWrite | split

/-! ### Links -/

theorem keeps_execLaneFail {s₀ s₁ s₂ : State} (h₀ : Keeps s₀ s₁) (p : Sys2Proof.Port) (lane : Sys2Proof.Lane)
    (e₀ : (execLaneFail p lane s₁) = .next s₂) : Keeps s₀ s₂ := by
  unfold execLaneFail at e₀
  injection e₀ with e₀
  subst e₀
  try dsimp only
  repeat' with_reducible first
    | intro _ | simp only [↓Keeps.upd_iff] | assumption | apply keeps_ite | apply keeps_laneFail | split

theorem keeps_execRetrain {s₀ s₁ s₂ : State} (h₀ : Keeps s₀ s₁) (p : Sys2Proof.Port) (src : Sys2Proof.RetrainSrc)
    (e₀ : (execRetrain p src s₁) = .next s₂) : Keeps s₀ s₂ := by
  unfold execRetrain at e₀
  injection e₀ with e₀
  subst e₀
  try dsimp only
  repeat' with_reducible first
    | intro _ | simp only [↓Keeps.upd_iff] | assumption | apply keeps_ite | apply keeps_then | apply keeps_write1
    | apply keeps_retrainWritten | apply keeps_beginRetrain | apply keeps_markLane | split

theorem keeps_execRetrainComplete {s₀ s₁ s₂ : State} (h₀ : Keeps s₀ s₁) (p : Sys2Proof.Port) (ok : Bool) (lanes : Sys2Proof.LaneSet) (durNs : Nat)
    (e₀ : (execRetrainComplete p ok lanes durNs s₁) = .next s₂) : Keeps s₀ s₂ := by
  unfold execRetrainComplete at e₀
  injection e₀ with e₀
  subst e₀
  try dsimp only
  repeat' with_reducible first
    | intro _ | simp only [↓Keeps.upd_iff] | assumption | apply keeps_ite | apply keeps_linkDown
    | apply keeps_cpErr | apply keeps_retrained | apply keeps_setLanes | apply keeps_setLink
    | apply keeps_setLinkSt | apply keeps_setCp | apply keeps_pump | apply keeps_retrainEnded | apply keeps_resend
    | split

theorem keeps_execPayloadFlit {s₀ s₁ s₂ : State} (h₀ : Keeps s₀ s₁) (p : Sys2Proof.Port) (f : Sys2Proof.Flit)
    (e₀ : (execPayloadFlit p f s₁) = .next s₂) : Keeps s₀ s₂ := by
  unfold execPayloadFlit at e₀
  injection e₀ with e₀
  subst e₀
  try dsimp only
  repeat' with_reducible first
    | intro _ | simp only [↓Keeps.upd_iff] | assumption | apply keeps_ite | apply keeps_flitIn | split

theorem keeps_execIdleFlit {s₀ s₁ s₂ : State} (h₀ : Keeps s₀ s₁) (p : Sys2Proof.Port) (f : Sys2Proof.Flit)
    (e₀ : (execIdleFlit p f s₁) = .next s₂) : Keeps s₀ s₂ := by
  unfold execIdleFlit at e₀
  injection e₀ with e₀
  subst e₀
  try dsimp only
  repeat' with_reducible first
    | intro _ | simp only [↓Keeps.upd_iff] | assumption | apply keeps_ite | apply keeps_flitIn | split

theorem keeps_execFlitCrcFail {s₀ s₁ s₂ : State} (h₀ : Keeps s₀ s₁) (p : Sys2Proof.Port) (fec : Option (List (Fin 544))) (sequenced : Bool)
    (e₀ : (execFlitCrcFail p fec sequenced s₁) = .next s₂) : Keeps s₀ s₂ := by
  unfold execFlitCrcFail at e₀
  injection e₀ with e₀
  subst e₀
  try dsimp only
  repeat' with_reducible first
    | intro _ | simp only [↓Keeps.upd_iff] | assumption | apply keeps_ite | apply keeps_cpErr | apply keeps_badWord
    | apply keeps_pairNext | apply keeps_sendNak | split

theorem keeps_execNak {s₀ s₁ s₂ : State} (h₀ : Keeps s₀ s₁) (p : Sys2Proof.Port) (f : Sys2Proof.Flit)
    (e₀ : (execNak p f s₁) = .next s₂) : Keeps s₀ s₂ := by
  unfold execNak at e₀
  injection e₀ with e₀
  subst e₀
  try dsimp only
  repeat' with_reducible first
    | intro _ | simp only [↓Keeps.upd_iff] | assumption | apply keeps_ite | apply keeps_flitIn | split

theorem keeps_execNakHoldoffExpire {s₀ s₁ s₂ : State} (h₀ : Keeps s₀ s₁) (p : Sys2Proof.Port)
    (e₀ : (execNakHoldoffExpire p s₁) = .next s₂) : Keeps s₀ s₂ := by
  unfold execNakHoldoffExpire at e₀
  injection e₀ with e₀
  subst e₀
  try dsimp only
  repeat' with_reducible first
    | intro _ | simp only [↓Keeps.upd_iff] | assumption | apply keeps_ite | apply keeps_setLink | split

theorem keeps_execLinkSignalDetect {s₀ s₁ s₂ : State} (h₀ : Keeps s₀ s₁) (p : Sys2Proof.Port) (lanes : Nat)
    (e₀ : (execLinkSignalDetect p lanes s₁) = .next s₂) : Keeps s₀ s₂ := by
  unfold execLinkSignalDetect at e₀
  injection e₀ with e₀
  subst e₀
  try dsimp only
  repeat' with_reducible first
    | intro _ | simp only [↓Keeps.upd_iff] | assumption | apply keeps_ite | apply keeps_setLinkSt | split

theorem keeps_execLinkTrainingComplete {s₀ s₁ s₂ : State} (h₀ : Keeps s₀ s₁) (p : Sys2Proof.Port) (lanes : Sys2Proof.LaneSet) (x : Sys2Proof.Trained)
    (e₀ : (execLinkTrainingComplete p lanes x s₁) = .next s₂) : Keeps s₀ s₂ := by
  unfold execLinkTrainingComplete at e₀
  injection e₀ with e₀
  subst e₀
  try dsimp only
  repeat' with_reducible first
    | intro _ | simp only [↓Keeps.upd_iff] | assumption | apply keeps_ite | apply keeps_linkHeld
    | apply keeps_setCp | apply keeps_setLanes | apply keeps_setLink | apply keeps_syncRetry
    | apply keeps_setCredits | apply keeps_setLinkSt | split

theorem keeps_execLinkSignalLost {s₀ s₁ s₂ : State} (h₀ : Keeps s₀ s₁) (p : Sys2Proof.Port) (lanes : Nat)
    (e₀ : (execLinkSignalLost p lanes s₁) = .next s₂) : Keeps s₀ s₂ := by
  unfold execLinkSignalLost at e₀
  injection e₀ with e₀
  subst e₀
  try dsimp only
  repeat' with_reducible first
    | intro _ | simp only [↓Keeps.upd_iff] | assumption | apply keeps_ite | apply keeps_linkDown | split

theorem keeps_execHelloTimer {s₀ s₁ s₂ : State} (h₀ : Keeps s₀ s₁) (p : Sys2Proof.Port)
    (e₀ : (execHelloTimer p s₁) = .next s₂) : Keeps s₀ s₂ := by
  unfold execHelloTimer at e₀
  injection e₀ with e₀
  subst e₀
  try dsimp only
  repeat' with_reducible first
    | intro _ | simp only [↓Keeps.upd_iff] | assumption | apply keeps_ite | apply keeps_sendHello | split

theorem keeps_execHello {s₀ s₁ s₂ : State} (h₀ : Keeps s₀ s₁) (p : Sys2Proof.Port) (h : Sys2Proof.Hello)
    (e₀ : (execHello p h s₁) = .next s₂) : Keeps s₀ s₂ := by
  unfold execHello at e₀
  injection e₀ with e₀
  subst e₀
  try dsimp only
  repeat' with_reducible first
    | intro _ | simp only [↓Keeps.upd_iff] | assumption | apply keeps_ite | apply keeps_setLink
    | apply keeps_linkHeld | apply keeps_lctrl | apply keeps_comeUp | apply keeps_sendHello | apply keeps_enterNbr
    | apply keeps_cpErr | apply keeps_setLinkSt | split

theorem keeps_execHold {s₀ s₁ s₂ : State} (h₀ : Keeps s₀ s₁) (p : Sys2Proof.Port) (_reason : BitVec 16)
    (e₀ : (execHold p _reason s₁) = .next s₂) : Keeps s₀ s₂ := by
  unfold execHold at e₀
  injection e₀ with e₀
  subst e₀
  try dsimp only
  repeat' with_reducible first
    | intro _ | simp only [↓Keeps.upd_iff] | assumption | apply keeps_ite | apply keeps_linkHeld | split

theorem keeps_execHeldTimeout {s₀ s₁ s₂ : State} (h₀ : Keeps s₀ s₁) (p : Sys2Proof.Port)
    (e₀ : (execHeldTimeout p s₁) = .next s₂) : Keeps s₀ s₂ := by
  unfold execHeldTimeout at e₀
  injection e₀ with e₀
  subst e₀
  try dsimp only
  repeat' with_reducible first
    | intro _ | simp only [↓Keeps.upd_iff] | assumption | apply keeps_ite | apply keeps_setLinkSt | split

theorem keeps_execHoldRepeat {s₀ s₁ s₂ : State} (h₀ : Keeps s₀ s₁) (p : Sys2Proof.Port)
    (e₀ : (execHoldRepeat p s₁) = .next s₂) : Keeps s₀ s₂ := by
  unfold execHoldRepeat at e₀
  injection e₀ with e₀
  subst e₀
  try dsimp only
  repeat' with_reducible first
    | intro _ | simp only [↓Keeps.upd_iff] | assumption | apply keeps_ite | apply keeps_lctrl | split

theorem keeps_execClockLost {s₀ s₁ s₂ : State} (h₀ : Keeps s₀ s₁) (_c : Sys2Proof.RefClk)
    (e₀ : (execClockLost _c s₁) = .next s₂) : Keeps s₀ s₂ := by
  unfold execClockLost at e₀
  injection e₀ with e₀
  subst e₀
  try dsimp only
  repeat' with_reducible first
    | intro _ | simp only [↓Keeps.upd_iff] | assumption | apply keeps_ite | apply keeps_logAt
    | apply keeps_timeStat | split

theorem keeps_execTimeExchange {s₀ s₁ s₂ : State} (h₀ : Keeps s₀ s₁) (p : Sys2Proof.Port)
    (e₀ : (execTimeExchange p s₁) = .next s₂) : Keeps s₀ s₂ := by
  unfold execTimeExchange at e₀
  injection e₀ with e₀
  subst e₀
  try dsimp only
  repeat' with_reducible first
    | intro _ | simp only [↓Keeps.upd_iff] | assumption | apply keeps_ite | apply keeps_timeOut
    | apply keeps_setLink | split

theorem keeps_execTimeFlit {s₀ s₁ s₂ : State} (h₀ : Keeps s₀ s₁) (p : Sys2Proof.Port) (m : Sys2Proof.TimeFlit)
    (e₀ : (execTimeFlit p m s₁) = .next s₂) : Keeps s₀ s₂ := by
  unfold execTimeFlit at e₀
  injection e₀ with e₀
  subst e₀
  try dsimp only
  repeat' with_reducible first
    | intro _ | simp only [↓Keeps.upd_iff] | assumption | apply keeps_ite | apply keeps_flitIn
    | apply keeps_timeOut | apply keeps_applyOffset | apply keeps_setLink | split

/-! ### Router -/

theorem keeps_execCircuitForward {s₀ s₁ s₂ : State} (h₀ : Keeps s₀ s₁) (inp : Sys2Proof.InPort) (k : Sys2Proof.Packet)
    (e₀ : (execCircuitForward inp k s₁) = .next s₂) : Keeps s₀ s₂ := by
  unfold execCircuitForward at e₀
  injection e₀ with e₀
  subst e₀
  try dsimp only
  repeat' with_reducible first
    | intro _ | simp only [↓Keeps.upd_iff] | assumption | apply keeps_ite | apply keeps_atHop | apply keeps_setErr
    | apply keeps_circuitIn | split

theorem keeps_execCircuitSlotInject {s₀ s₁ s₂ : State} (h₀ : Keeps s₀ s₁) (k : Sys2Proof.Packet) (slot : Nat)
    (e₀ : (execCircuitSlotInject k slot s₁) = .next s₂) : Keeps s₀ s₂ := by
  unfold execCircuitSlotInject at e₀
  injection e₀ with e₀
  subst e₀
  try dsimp only
  repeat' with_reducible first
    | intro _ | simp only [↓Keeps.upd_iff] | assumption | apply keeps_ite | apply keeps_setErr | apply keeps_atHop
    | apply keeps_injectCircuit | split

theorem keeps_execCutThroughForward {s₀ s₁ s₂ : State} (h₀ : Keeps s₀ s₁) (inp : Sys2Proof.InPort) (k : Sys2Proof.Packet) (flits : Nat)
    (e₀ : (execCutThroughForward inp k flits s₁) = .next s₂) : Keeps s₀ s₂ := by
  unfold execCutThroughForward at e₀
  injection e₀ with e₀
  subst e₀
  try dsimp only
  repeat' with_reducible first
    | intro _ | simp only [↓Keeps.upd_iff] | assumption | apply keeps_ite | apply keeps_atHop | apply keeps_setErr
    | apply keeps_answer | apply keeps_incF | apply keeps_toPort | split

theorem keeps_execVctDataWrite {s₀ s₁ s₂ : State} (h₀ : Keeps s₀ s₁) (w : Sys2Proof.Writer) (d : Sys2Proof.Die) (v : BitVec 64)
    (e₀ : (execVctDataWrite w d v s₁) = .next s₂) : Keeps s₀ s₂ := by
  unfold execVctDataWrite at e₀
  injection e₀ with e₀
  subst e₀
  try dsimp only
  repeat' with_reducible first
    | intro _ | simp only [↓Keeps.upd_iff] | assumption | apply keeps_ite | apply keeps_then | simp only [id_eq]
    | apply keeps_write1 | split

theorem keeps_execHoldDataWrite {s₀ s₁ s₂ : State} (h₀ : Keeps s₀ s₁) (w : Sys2Proof.Writer) (d : Sys2Proof.Die) (v : Bool)
    (e₀ : (execHoldDataWrite w d v s₁) = .next s₂) : Keeps s₀ s₂ := by
  unfold execHoldDataWrite at e₀
  injection e₀ with e₀
  subst e₀
  try dsimp only
  repeat' with_reducible first
    | intro _ | simp only [↓Keeps.upd_iff] | assumption | apply keeps_ite | apply keeps_then | apply keeps_write1
    | apply keeps_holdEffect | split

/-! ### Dup -/

theorem keeps_execSampleCopyComplete {s₀ s₁ s₂ : State} (h₀ : Keeps s₀ s₁) (d : Sys2Proof.Die) (b : Sys2Proof.Bay)
    (e₀ : (execSampleCopyComplete d b s₁) = .next s₂) : Keeps s₀ s₂ := by
  unfold execSampleCopyComplete at e₀
  injection e₀ with e₀
  subst e₀
  try dsimp only
  repeat' with_reducible first
    | intro _ | simp only [↓Keeps.upd_iff] | assumption | apply keeps_ite | apply keeps_signalGo | split

theorem keeps_execDupCheck {s₀ s₁ s₂ : State} (h₀ : Keeps s₀ s₁) (d : Sys2Proof.Die)
    (e₀ : (execDupCheck d s₁) = .next s₂) : Keeps s₀ s₂ := by
  unfold execDupCheck at e₀
  injection e₀ with e₀
  subst e₀
  try dsimp only
  repeat' with_reducible first
    | intro _ | simp only [↓Keeps.upd_iff] | assumption | apply keeps_ite | apply keeps_progress | apply keeps_incF
    | split

theorem keeps_execDupCheckComplete {s₀ s₁ s₂ : State} (h₀ : Keeps s₀ s₁) (d : Sys2Proof.Die) (flips : List Sys2Proof.Flip)
    (e₀ : (execDupCheckComplete d flips s₁) = .next s₂) : Keeps s₀ s₂ := by
  unfold execDupCheckComplete at e₀
  injection e₀ with e₀
  subst e₀
  try dsimp only
  repeat' with_reducible first
    | intro _ | simp only [↓Keeps.upd_iff] | assumption | apply keeps_ite | apply keeps_progress | apply keeps_incF
    | apply keeps_witFlag | apply keeps_mismatch | apply keeps_verdictOf | split

/-! ### Curtain -/

theorem keeps_execLoadStart {s₀ s₁ s₂ : State} (h₀ : Keeps s₀ s₁) (w : Sys2Proof.Writer)
    (e₀ : (execLoadStart w s₁) = .next s₂) : Keeps s₀ s₂ := by
  unfold execLoadStart at e₀
  injection e₀ with e₀
  subst e₀
  try dsimp only
  repeat' with_reducible first
    | intro _ | simp only [↓Keeps.upd_iff] | assumption | apply keeps_ite | apply keeps_then | apply keeps_write1
    | apply keeps_loadCtrlEffect | split

theorem keeps_execLoadDiscard {s₀ s₁ s₂ : State} (h₀ : Keeps s₀ s₁) (w : Sys2Proof.Writer)
    (e₀ : (execLoadDiscard w s₁) = .next s₂) : Keeps s₀ s₂ := by
  unfold execLoadDiscard at e₀
  injection e₀ with e₀
  subst e₀
  try dsimp only
  repeat' with_reducible first
    | intro _ | simp only [↓Keeps.upd_iff] | assumption | apply keeps_ite | apply keeps_then | apply keeps_write1
    | apply keeps_loadCtrlEffect | split

theorem keeps_execValidationComplete {s₀ s₁ s₂ : State} (h₀ : Keeps s₀ s₁) 
    (e₀ : (execValidationComplete s₁) = .next s₂) : Keeps s₀ s₂ := by
  unfold execValidationComplete at e₀
  injection e₀ with e₀
  subst e₀
  try dsimp only
  repeat' with_reducible first
    | intro _ | simp only [↓Keeps.upd_iff] | assumption | apply keeps_ite | apply keeps_recTouch | apply keeps_wrF
    | apply keeps_logAt | apply keeps_markStep | split

theorem keeps_execCurtainAction1Complete {s₀ s₁ s₂ : State} (h₀ : Keeps s₀ s₁) 
    (e₀ : (execCurtainAction1Complete s₁) = .next s₂) : Keeps s₀ s₂ := by
  unfold execCurtainAction1Complete at e₀
  injection e₀ with e₀
  subst e₀
  try dsimp only
  repeat' with_reducible first
    | intro _ | simp only [↓Keeps.upd_iff] | assumption | apply keeps_ite | apply keeps_foldl | apply keeps_foldNat
    | apply keeps_endCancel | apply keeps_action1 | split

/-! ### Vector -/

theorem stgPut_wf {t : Tab Byte} (k0 : Nat) (f : Fmt) (p : Nat × Nat × Nat) (e : Nat) (w : Tab.wf (fun _ => (0 : Byte)) t = true) :
    Tab.wf (fun _ => (0 : Byte)) (stgPut t k0 f p e) = true := by
  have k := fun (t : Tab Byte) (a : Nat) (v : Byte) (w : Tab.wf (fun _ => (0 : Byte)) t = true) =>
    Tab.wf_set (d := fun _ => (0 : Byte)) a v w
  unfold stgPut
  dsimp only
  split
  · exact k _ _ _ w
  · exact k _ _ _ (k _ _ _ (k _ _ _ w))
  · generalize List.range _ = l
    induction l generalizing t with
    | nil => exact w
    | cons x xs ih => exact ih (k _ _ _ w)

theorem vStore_wf {r : VxeRegs} {a : LsArgs} {t u : Tab Byte} {k0 : Nat} (w : Tab.wf (fun _ => (0 : Byte)) t = true)
    (h : vStore r a t k0 = .inr u) : Tab.wf (fun _ => (0 : Byte)) u = true := by
  unfold vStore at h
  split at h
  · cases h
  · injection h with h
    subst h
    generalize List.range _ = l
    induction l generalizing t with
    | nil => exact w
    | cons x xs ih =>
      refine ih ?_
      dsimp only
      split
      · exact stgPut_wf _ _ _ _ w
      · exact w

theorem keeps_execVxeAdd {s₀ s₁ s₂ : State} (h₀ : Keeps s₀ s₁) (u : Sys2Proof.Unit36) (a : Sys2Proof.VArgs)
    (e₀ : (execVxeAdd u a s₁) = .next s₂) : Keeps s₀ s₂ := by
  unfold execVxeAdd at e₀
  injection e₀ with e₀
  subst e₀
  try dsimp only
  repeat' with_reducible first
    | intro _ | simp only [↓Keeps.upd_iff] | assumption | apply keeps_ite | apply keeps_vxeRun | split

theorem keeps_execVxeSub {s₀ s₁ s₂ : State} (h₀ : Keeps s₀ s₁) (u : Sys2Proof.Unit36) (a : Sys2Proof.VArgs)
    (e₀ : (execVxeSub u a s₁) = .next s₂) : Keeps s₀ s₂ := by
  unfold execVxeSub at e₀
  injection e₀ with e₀
  subst e₀
  try dsimp only
  repeat' with_reducible first
    | intro _ | simp only [↓Keeps.upd_iff] | assumption | apply keeps_ite | apply keeps_vxeRun | split

theorem keeps_execVxeMul {s₀ s₁ s₂ : State} (h₀ : Keeps s₀ s₁) (u : Sys2Proof.Unit36) (a : Sys2Proof.VArgs)
    (e₀ : (execVxeMul u a s₁) = .next s₂) : Keeps s₀ s₂ := by
  unfold execVxeMul at e₀
  injection e₀ with e₀
  subst e₀
  try dsimp only
  repeat' with_reducible first
    | intro _ | simp only [↓Keeps.upd_iff] | assumption | apply keeps_ite | apply keeps_vxeRun | split

theorem keeps_execVxeDiv {s₀ s₁ s₂ : State} (h₀ : Keeps s₀ s₁) (u : Sys2Proof.Unit36) (a : Sys2Proof.VArgs)
    (e₀ : (execVxeDiv u a s₁) = .next s₂) : Keeps s₀ s₂ := by
  unfold execVxeDiv at e₀
  injection e₀ with e₀
  subst e₀
  try dsimp only
  repeat' with_reducible first
    | intro _ | simp only [↓Keeps.upd_iff] | assumption | apply keeps_ite | apply keeps_vxeRun | split

theorem keeps_execVxeSqrt {s₀ s₁ s₂ : State} (h₀ : Keeps s₀ s₁) (u : Sys2Proof.Unit36) (a : Sys2Proof.VArgs)
    (e₀ : (execVxeSqrt u a s₁) = .next s₂) : Keeps s₀ s₂ := by
  unfold execVxeSqrt at e₀
  injection e₀ with e₀
  subst e₀
  try dsimp only
  repeat' with_reducible first
    | intro _ | simp only [↓Keeps.upd_iff] | assumption | apply keeps_ite | apply keeps_vxeRun | split

theorem keeps_execVxeMin {s₀ s₁ s₂ : State} (h₀ : Keeps s₀ s₁) (u : Sys2Proof.Unit36) (a : Sys2Proof.VArgs)
    (e₀ : (execVxeMin u a s₁) = .next s₂) : Keeps s₀ s₂ := by
  unfold execVxeMin at e₀
  injection e₀ with e₀
  subst e₀
  try dsimp only
  repeat' with_reducible first
    | intro _ | simp only [↓Keeps.upd_iff] | assumption | apply keeps_ite | apply keeps_vxeRun | split

theorem keeps_execVxeMax {s₀ s₁ s₂ : State} (h₀ : Keeps s₀ s₁) (u : Sys2Proof.Unit36) (a : Sys2Proof.VArgs)
    (e₀ : (execVxeMax u a s₁) = .next s₂) : Keeps s₀ s₂ := by
  unfold execVxeMax at e₀
  injection e₀ with e₀
  subst e₀
  try dsimp only
  repeat' with_reducible first
    | intro _ | simp only [↓Keeps.upd_iff] | assumption | apply keeps_ite | apply keeps_vxeRun | split

theorem keeps_execVxeMini {s₀ s₁ s₂ : State} (h₀ : Keeps s₀ s₁) (u : Sys2Proof.Unit36) (a : Sys2Proof.VArgs)
    (e₀ : (execVxeMini u a s₁) = .next s₂) : Keeps s₀ s₂ := by
  unfold execVxeMini at e₀
  injection e₀ with e₀
  subst e₀
  try dsimp only
  repeat' with_reducible first
    | intro _ | simp only [↓Keeps.upd_iff] | assumption | apply keeps_ite | apply keeps_vxeRun | split

theorem keeps_execVxeMaxi {s₀ s₁ s₂ : State} (h₀ : Keeps s₀ s₁) (u : Sys2Proof.Unit36) (a : Sys2Proof.VArgs)
    (e₀ : (execVxeMaxi u a s₁) = .next s₂) : Keeps s₀ s₂ := by
  unfold execVxeMaxi at e₀
  injection e₀ with e₀
  subst e₀
  try dsimp only
  repeat' with_reducible first
    | intro _ | simp only [↓Keeps.upd_iff] | assumption | apply keeps_ite | apply keeps_vxeRun | split

theorem keeps_execVxeNeg {s₀ s₁ s₂ : State} (h₀ : Keeps s₀ s₁) (u : Sys2Proof.Unit36) (a : Sys2Proof.VArgs)
    (e₀ : (execVxeNeg u a s₁) = .next s₂) : Keeps s₀ s₂ := by
  unfold execVxeNeg at e₀
  injection e₀ with e₀
  subst e₀
  try dsimp only
  repeat' with_reducible first
    | intro _ | simp only [↓Keeps.upd_iff] | assumption | apply keeps_ite | apply keeps_vxeRun | split

theorem keeps_execVxeAbs {s₀ s₁ s₂ : State} (h₀ : Keeps s₀ s₁) (u : Sys2Proof.Unit36) (a : Sys2Proof.VArgs)
    (e₀ : (execVxeAbs u a s₁) = .next s₂) : Keeps s₀ s₂ := by
  unfold execVxeAbs at e₀
  injection e₀ with e₀
  subst e₀
  try dsimp only
  repeat' with_reducible first
    | intro _ | simp only [↓Keeps.upd_iff] | assumption | apply keeps_ite | apply keeps_vxeRun | split

theorem keeps_execVxeCsgn {s₀ s₁ s₂ : State} (h₀ : Keeps s₀ s₁) (u : Sys2Proof.Unit36) (a : Sys2Proof.VArgs)
    (e₀ : (execVxeCsgn u a s₁) = .next s₂) : Keeps s₀ s₂ := by
  unfold execVxeCsgn at e₀
  injection e₀ with e₀
  subst e₀
  try dsimp only
  repeat' with_reducible first
    | intro _ | simp only [↓Keeps.upd_iff] | assumption | apply keeps_ite | apply keeps_vxeRun | split

theorem keeps_execVxeRti {s₀ s₁ s₂ : State} (h₀ : Keeps s₀ s₁) (u : Sys2Proof.Unit36) (a : Sys2Proof.VArgs)
    (e₀ : (execVxeRti u a s₁) = .next s₂) : Keeps s₀ s₂ := by
  unfold execVxeRti at e₀
  injection e₀ with e₀
  subst e₀
  try dsimp only
  repeat' with_reducible first
    | intro _ | simp only [↓Keeps.upd_iff] | assumption | apply keeps_ite | apply keeps_vxeRun | split

theorem keeps_execVxeRece {s₀ s₁ s₂ : State} (h₀ : Keeps s₀ s₁) (u : Sys2Proof.Unit36) (a : Sys2Proof.VArgs)
    (e₀ : (execVxeRece u a s₁) = .next s₂) : Keeps s₀ s₂ := by
  unfold execVxeRece at e₀
  injection e₀ with e₀
  subst e₀
  try dsimp only
  repeat' with_reducible first
    | intro _ | simp only [↓Keeps.upd_iff] | assumption | apply keeps_ite | apply keeps_vxeRun | split

theorem keeps_execVxeRsqe {s₀ s₁ s₂ : State} (h₀ : Keeps s₀ s₁) (u : Sys2Proof.Unit36) (a : Sys2Proof.VArgs)
    (e₀ : (execVxeRsqe u a s₁) = .next s₂) : Keeps s₀ s₂ := by
  unfold execVxeRsqe at e₀
  injection e₀ with e₀
  subst e₀
  try dsimp only
  repeat' with_reducible first
    | intro _ | simp only [↓Keeps.upd_iff] | assumption | apply keeps_ite | apply keeps_vxeRun | split

theorem keeps_execVxeMov {s₀ s₁ s₂ : State} (h₀ : Keeps s₀ s₁) (u : Sys2Proof.Unit36) (a : Sys2Proof.VArgs)
    (e₀ : (execVxeMov u a s₁) = .next s₂) : Keeps s₀ s₂ := by
  unfold execVxeMov at e₀
  injection e₀ with e₀
  subst e₀
  try dsimp only
  repeat' with_reducible first
    | intro _ | simp only [↓Keeps.upd_iff] | assumption | apply keeps_ite | apply keeps_vxeRun | split

theorem keeps_execVxeAnd {s₀ s₁ s₂ : State} (h₀ : Keeps s₀ s₁) (u : Sys2Proof.Unit36) (a : Sys2Proof.VArgs)
    (e₀ : (execVxeAnd u a s₁) = .next s₂) : Keeps s₀ s₂ := by
  unfold execVxeAnd at e₀
  injection e₀ with e₀
  subst e₀
  try dsimp only
  repeat' with_reducible first
    | intro _ | simp only [↓Keeps.upd_iff] | assumption | apply keeps_ite | apply keeps_vxeRun | split

theorem keeps_execVxeOr {s₀ s₁ s₂ : State} (h₀ : Keeps s₀ s₁) (u : Sys2Proof.Unit36) (a : Sys2Proof.VArgs)
    (e₀ : (execVxeOr u a s₁) = .next s₂) : Keeps s₀ s₂ := by
  unfold execVxeOr at e₀
  injection e₀ with e₀
  subst e₀
  try dsimp only
  repeat' with_reducible first
    | intro _ | simp only [↓Keeps.upd_iff] | assumption | apply keeps_ite | apply keeps_vxeRun | split

theorem keeps_execVxeXor {s₀ s₁ s₂ : State} (h₀ : Keeps s₀ s₁) (u : Sys2Proof.Unit36) (a : Sys2Proof.VArgs)
    (e₀ : (execVxeXor u a s₁) = .next s₂) : Keeps s₀ s₂ := by
  unfold execVxeXor at e₀
  injection e₀ with e₀
  subst e₀
  try dsimp only
  repeat' with_reducible first
    | intro _ | simp only [↓Keeps.upd_iff] | assumption | apply keeps_ite | apply keeps_vxeRun | split

theorem keeps_execVxeSll {s₀ s₁ s₂ : State} (h₀ : Keeps s₀ s₁) (u : Sys2Proof.Unit36) (a : Sys2Proof.VArgs)
    (e₀ : (execVxeSll u a s₁) = .next s₂) : Keeps s₀ s₂ := by
  unfold execVxeSll at e₀
  injection e₀ with e₀
  subst e₀
  try dsimp only
  repeat' with_reducible first
    | intro _ | simp only [↓Keeps.upd_iff] | assumption | apply keeps_ite | apply keeps_vxeRun | split

theorem keeps_execVxeSrl {s₀ s₁ s₂ : State} (h₀ : Keeps s₀ s₁) (u : Sys2Proof.Unit36) (a : Sys2Proof.VArgs)
    (e₀ : (execVxeSrl u a s₁) = .next s₂) : Keeps s₀ s₂ := by
  unfold execVxeSrl at e₀
  injection e₀ with e₀
  subst e₀
  try dsimp only
  repeat' with_reducible first
    | intro _ | simp only [↓Keeps.upd_iff] | assumption | apply keeps_ite | apply keeps_vxeRun | split

theorem keeps_execVxeSra {s₀ s₁ s₂ : State} (h₀ : Keeps s₀ s₁) (u : Sys2Proof.Unit36) (a : Sys2Proof.VArgs)
    (e₀ : (execVxeSra u a s₁) = .next s₂) : Keeps s₀ s₂ := by
  unfold execVxeSra at e₀
  injection e₀ with e₀
  subst e₀
  try dsimp only
  repeat' with_reducible first
    | intro _ | simp only [↓Keeps.upd_iff] | assumption | apply keeps_ite | apply keeps_vxeRun | split

theorem keeps_execVxeMrg {s₀ s₁ s₂ : State} (h₀ : Keeps s₀ s₁) (u : Sys2Proof.Unit36) (a : Sys2Proof.VArgs)
    (e₀ : (execVxeMrg u a s₁) = .next s₂) : Keeps s₀ s₂ := by
  unfold execVxeMrg at e₀
  injection e₀ with e₀
  subst e₀
  try dsimp only
  repeat' with_reducible first
    | intro _ | simp only [↓Keeps.upd_iff] | assumption | apply keeps_ite | apply keeps_vxeRun | split

theorem keeps_execVxeIota {s₀ s₁ s₂ : State} (h₀ : Keeps s₀ s₁) (u : Sys2Proof.Unit36) (a : Sys2Proof.VArgs)
    (e₀ : (execVxeIota u a s₁) = .next s₂) : Keeps s₀ s₂ := by
  unfold execVxeIota at e₀
  injection e₀ with e₀
  subst e₀
  try dsimp only
  repeat' with_reducible first
    | intro _ | simp only [↓Keeps.upd_iff] | assumption | apply keeps_ite | apply keeps_vxeRun | split

theorem keeps_execVxeFma {s₀ s₁ s₂ : State} (h₀ : Keeps s₀ s₁) (u : Sys2Proof.Unit36) (a : Sys2Proof.VArgs)
    (e₀ : (execVxeFma u a s₁) = .next s₂) : Keeps s₀ s₂ := by
  unfold execVxeFma at e₀
  injection e₀ with e₀
  subst e₀
  try dsimp only
  repeat' with_reducible first
    | intro _ | simp only [↓Keeps.upd_iff] | assumption | apply keeps_ite | apply keeps_vxeRun | split

theorem keeps_execVxeFms {s₀ s₁ s₂ : State} (h₀ : Keeps s₀ s₁) (u : Sys2Proof.Unit36) (a : Sys2Proof.VArgs)
    (e₀ : (execVxeFms u a s₁) = .next s₂) : Keeps s₀ s₂ := by
  unfold execVxeFms at e₀
  injection e₀ with e₀
  subst e₀
  try dsimp only
  repeat' with_reducible first
    | intro _ | simp only [↓Keeps.upd_iff] | assumption | apply keeps_ite | apply keeps_vxeRun | split

theorem keeps_execVxeFnma {s₀ s₁ s₂ : State} (h₀ : Keeps s₀ s₁) (u : Sys2Proof.Unit36) (a : Sys2Proof.VArgs)
    (e₀ : (execVxeFnma u a s₁) = .next s₂) : Keeps s₀ s₂ := by
  unfold execVxeFnma at e₀
  injection e₀ with e₀
  subst e₀
  try dsimp only
  repeat' with_reducible first
    | intro _ | simp only [↓Keeps.upd_iff] | assumption | apply keeps_ite | apply keeps_vxeRun | split

theorem keeps_execVxeFnms {s₀ s₁ s₂ : State} (h₀ : Keeps s₀ s₁) (u : Sys2Proof.Unit36) (a : Sys2Proof.VArgs)
    (e₀ : (execVxeFnms u a s₁) = .next s₂) : Keeps s₀ s₂ := by
  unfold execVxeFnms at e₀
  injection e₀ with e₀
  subst e₀
  try dsimp only
  repeat' with_reducible first
    | intro _ | simp only [↓Keeps.upd_iff] | assumption | apply keeps_ite | apply keeps_vxeRun | split

theorem keeps_execVxeCmpEq {s₀ s₁ s₂ : State} (h₀ : Keeps s₀ s₁) (u : Sys2Proof.Unit36) (a : Sys2Proof.VArgs)
    (e₀ : (execVxeCmpEq u a s₁) = .next s₂) : Keeps s₀ s₂ := by
  unfold execVxeCmpEq at e₀
  injection e₀ with e₀
  subst e₀
  try dsimp only
  repeat' with_reducible first
    | intro _ | simp only [↓Keeps.upd_iff] | assumption | apply keeps_ite | apply keeps_vxeRun | split

theorem keeps_execVxeCmpLt {s₀ s₁ s₂ : State} (h₀ : Keeps s₀ s₁) (u : Sys2Proof.Unit36) (a : Sys2Proof.VArgs)
    (e₀ : (execVxeCmpLt u a s₁) = .next s₂) : Keeps s₀ s₂ := by
  unfold execVxeCmpLt at e₀
  injection e₀ with e₀
  subst e₀
  try dsimp only
  repeat' with_reducible first
    | intro _ | simp only [↓Keeps.upd_iff] | assumption | apply keeps_ite | apply keeps_vxeRun | split

theorem keeps_execVxeCmpLe {s₀ s₁ s₂ : State} (h₀ : Keeps s₀ s₁) (u : Sys2Proof.Unit36) (a : Sys2Proof.VArgs)
    (e₀ : (execVxeCmpLe u a s₁) = .next s₂) : Keeps s₀ s₂ := by
  unfold execVxeCmpLe at e₀
  injection e₀ with e₀
  subst e₀
  try dsimp only
  repeat' with_reducible first
    | intro _ | simp only [↓Keeps.upd_iff] | assumption | apply keeps_ite | apply keeps_vxeRun | split

theorem keeps_execVxeCmpUn {s₀ s₁ s₂ : State} (h₀ : Keeps s₀ s₁) (u : Sys2Proof.Unit36) (a : Sys2Proof.VArgs)
    (e₀ : (execVxeCmpUn u a s₁) = .next s₂) : Keeps s₀ s₂ := by
  unfold execVxeCmpUn at e₀
  injection e₀ with e₀
  subst e₀
  try dsimp only
  repeat' with_reducible first
    | intro _ | simp only [↓Keeps.upd_iff] | assumption | apply keeps_ite | apply keeps_vxeRun | split

theorem keeps_execVxeCmpNe {s₀ s₁ s₂ : State} (h₀ : Keeps s₀ s₁) (u : Sys2Proof.Unit36) (a : Sys2Proof.VArgs)
    (e₀ : (execVxeCmpNe u a s₁) = .next s₂) : Keeps s₀ s₂ := by
  unfold execVxeCmpNe at e₀
  injection e₀ with e₀
  subst e₀
  try dsimp only
  repeat' with_reducible first
    | intro _ | simp only [↓Keeps.upd_iff] | assumption | apply keeps_ite | apply keeps_vxeRun | split

theorem keeps_execVxeRedSum {s₀ s₁ s₂ : State} (h₀ : Keeps s₀ s₁) (u : Sys2Proof.Unit36) (a : Sys2Proof.VArgs)
    (e₀ : (execVxeRedSum u a s₁) = .next s₂) : Keeps s₀ s₂ := by
  unfold execVxeRedSum at e₀
  injection e₀ with e₀
  subst e₀
  try dsimp only
  repeat' with_reducible first
    | intro _ | simp only [↓Keeps.upd_iff] | assumption | apply keeps_ite | apply keeps_vxeRun | split

theorem keeps_execVxeRedMin {s₀ s₁ s₂ : State} (h₀ : Keeps s₀ s₁) (u : Sys2Proof.Unit36) (a : Sys2Proof.VArgs)
    (e₀ : (execVxeRedMin u a s₁) = .next s₂) : Keeps s₀ s₂ := by
  unfold execVxeRedMin at e₀
  injection e₀ with e₀
  subst e₀
  try dsimp only
  repeat' with_reducible first
    | intro _ | simp only [↓Keeps.upd_iff] | assumption | apply keeps_ite | apply keeps_vxeRun | split

theorem keeps_execVxeRedMax {s₀ s₁ s₂ : State} (h₀ : Keeps s₀ s₁) (u : Sys2Proof.Unit36) (a : Sys2Proof.VArgs)
    (e₀ : (execVxeRedMax u a s₁) = .next s₂) : Keeps s₀ s₂ := by
  unfold execVxeRedMax at e₀
  injection e₀ with e₀
  subst e₀
  try dsimp only
  repeat' with_reducible first
    | intro _ | simp only [↓Keeps.upd_iff] | assumption | apply keeps_ite | apply keeps_vxeRun | split

theorem keeps_execVxeRedAmax {s₀ s₁ s₂ : State} (h₀ : Keeps s₀ s₁) (u : Sys2Proof.Unit36) (a : Sys2Proof.VArgs)
    (e₀ : (execVxeRedAmax u a s₁) = .next s₂) : Keeps s₀ s₂ := by
  unfold execVxeRedAmax at e₀
  injection e₀ with e₀
  subst e₀
  try dsimp only
  repeat' with_reducible first
    | intro _ | simp only [↓Keeps.upd_iff] | assumption | apply keeps_ite | apply keeps_vxeRun | split

theorem keeps_execVxeRedSumw {s₀ s₁ s₂ : State} (h₀ : Keeps s₀ s₁) (u : Sys2Proof.Unit36) (a : Sys2Proof.VArgs)
    (e₀ : (execVxeRedSumw u a s₁) = .next s₂) : Keeps s₀ s₂ := by
  unfold execVxeRedSumw at e₀
  injection e₀ with e₀
  subst e₀
  try dsimp only
  repeat' with_reducible first
    | intro _ | simp only [↓Keeps.upd_iff] | assumption | apply keeps_ite | apply keeps_vxeRun | split

theorem keeps_execVxeRedRepamax {s₀ s₁ s₂ : State} (h₀ : Keeps s₀ s₁) (u : Sys2Proof.Unit36) (a : Sys2Proof.VArgs)
    (e₀ : (execVxeRedRepamax u a s₁) = .next s₂) : Keeps s₀ s₂ := by
  unfold execVxeRedRepamax at e₀
  injection e₀ with e₀
  subst e₀
  try dsimp only
  repeat' with_reducible first
    | intro _ | simp only [↓Keeps.upd_iff] | assumption | apply keeps_ite | apply keeps_vxeFault
    | apply keeps_vxeNext | apply keeps_reportAmax | split

theorem keeps_execVxeCvt {s₀ s₁ s₂ : State} (h₀ : Keeps s₀ s₁) (u : Sys2Proof.Unit36) (a : Sys2Proof.CvtArgs)
    (e₀ : (execVxeCvt u a s₁) = .next s₂) : Keeps s₀ s₂ := by
  unfold execVxeCvt at e₀
  injection e₀ with e₀
  subst e₀
  try dsimp only
  repeat' with_reducible first
    | intro _ | simp only [↓Keeps.upd_iff] | assumption | apply keeps_ite | apply keeps_vxeFault
    | apply keeps_vxeNext | apply keeps_reportConv | split

theorem keeps_execVxeLoad {s₀ s₁ s₂ : State} (h₀ : Keeps s₀ s₁) (u : Sys2Proof.Unit36) (a : Sys2Proof.LsArgs)
    (e₀ : (execVxeLoad u a s₁) = .next s₂) : Keeps s₀ s₂ := by
  unfold execVxeLoad at e₀
  injection e₀ with e₀
  subst e₀
  try dsimp only
  repeat' with_reducible first
    | intro _ | simp only [↓Keeps.upd_iff] | assumption | apply keeps_ite | apply keeps_vxeRun | split

theorem keeps_execVxeStore {s₀ s₁ s₂ : State} (h₀ : Keeps s₀ s₁) (u : Sys2Proof.Unit36) (a : Sys2Proof.LsArgs)
    (e₀ : (execVxeStore u a s₁) = .next s₂) : Keeps s₀ s₂ := by
  unfold execVxeStore at e₀
  injection e₀ with e₀
  subst e₀
  apply keeps_ite
  · dsimp only
    split
    · exact keeps_vxeFault h₀ _ _ _
    · next t ht =>
      apply keeps_vxeNext
      exact ⟨h₀.regs, h₀.inForce, h₀.mem, fun w => vStore_wf (h₀.staging w) ht, h₀.fuses, h₀.seq⟩
  · exact h₀

theorem keeps_execVxeSetvl {s₀ s₁ s₂ : State} (h₀ : Keeps s₀ s₁) (u : Sys2Proof.Unit36) (a : Sys2Proof.SArgs)
    (e₀ : (execVxeSetvl u a s₁) = .next s₂) : Keeps s₀ s₂ := by
  unfold execVxeSetvl at e₀
  injection e₀ with e₀
  subst e₀
  try dsimp only
  repeat' with_reducible first
    | intro _ | simp only [↓Keeps.upd_iff] | assumption | apply keeps_ite | apply keeps_vxeRun | split

theorem keeps_execVxeSettid {s₀ s₁ s₂ : State} (h₀ : Keeps s₀ s₁) (u : Sys2Proof.Unit36) (a : Sys2Proof.SArgs)
    (e₀ : (execVxeSettid u a s₁) = .next s₂) : Keeps s₀ s₂ := by
  unfold execVxeSettid at e₀
  injection e₀ with e₀
  subst e₀
  try dsimp only
  repeat' with_reducible first
    | intro _ | simp only [↓Keeps.upd_iff] | assumption | apply keeps_ite | apply keeps_vxeSet | split

theorem keeps_execVxeSetidx {s₀ s₁ s₂ : State} (h₀ : Keeps s₀ s₁) (u : Sys2Proof.Unit36) (a : Sys2Proof.SArgs)
    (e₀ : (execVxeSetidx u a s₁) = .next s₂) : Keeps s₀ s₂ := by
  unfold execVxeSetidx at e₀
  injection e₀ with e₀
  subst e₀
  try dsimp only
  repeat' with_reducible first
    | intro _ | simp only [↓Keeps.upd_iff] | assumption | apply keeps_ite | apply keeps_vxeSet | split

theorem keeps_execVxeAddidx {s₀ s₁ s₂ : State} (h₀ : Keeps s₀ s₁) (u : Sys2Proof.Unit36) (a : Sys2Proof.SArgs)
    (e₀ : (execVxeAddidx u a s₁) = .next s₂) : Keeps s₀ s₂ := by
  unfold execVxeAddidx at e₀
  injection e₀ with e₀
  subst e₀
  try dsimp only
  repeat' with_reducible first
    | intro _ | simp only [↓Keeps.upd_iff] | assumption | apply keeps_ite | apply keeps_vxeSet | split

theorem keeps_execVxeSetscl {s₀ s₁ s₂ : State} (h₀ : Keeps s₀ s₁) (u : Sys2Proof.Unit36) (a : Sys2Proof.SArgs)
    (e₀ : (execVxeSetscl u a s₁) = .next s₂) : Keeps s₀ s₂ := by
  unfold execVxeSetscl at e₀
  injection e₀ with e₀
  subst e₀
  try dsimp only
  repeat' with_reducible first
    | intro _ | simp only [↓Keeps.upd_iff] | assumption | apply keeps_ite | apply keeps_vxeSet | split

theorem keeps_execVxeSetblk {s₀ s₁ s₂ : State} (h₀ : Keeps s₀ s₁) (u : Sys2Proof.Unit36) (a : Sys2Proof.SArgs)
    (e₀ : (execVxeSetblk u a s₁) = .next s₂) : Keeps s₀ s₂ := by
  unfold execVxeSetblk at e₀
  injection e₀ with e₀
  subst e₀
  try dsimp only
  repeat' with_reducible first
    | intro _ | simp only [↓Keeps.upd_iff] | assumption | apply keeps_ite | apply keeps_vxeSet | split

theorem keeps_execVxeSetrm {s₀ s₁ s₂ : State} (h₀ : Keeps s₀ s₁) (u : Sys2Proof.Unit36) (a : Sys2Proof.SArgs)
    (e₀ : (execVxeSetrm u a s₁) = .next s₂) : Keeps s₀ s₂ := by
  unfold execVxeSetrm at e₀
  injection e₀ with e₀
  subst e₀
  try dsimp only
  repeat' with_reducible first
    | intro _ | simp only [↓Keeps.upd_iff] | assumption | apply keeps_ite | apply keeps_vxeRun | split

theorem keeps_execVxeRdflg {s₀ s₁ s₂ : State} (h₀ : Keeps s₀ s₁) (u : Sys2Proof.Unit36) (a : Sys2Proof.SArgs)
    (e₀ : (execVxeRdflg u a s₁) = .next s₂) : Keeps s₀ s₂ := by
  unfold execVxeRdflg at e₀
  injection e₀ with e₀
  subst e₀
  try dsimp only
  repeat' with_reducible first
    | intro _ | simp only [↓Keeps.upd_iff] | assumption | apply keeps_ite | apply keeps_vxeSet | split

theorem keeps_execVxeClrflg {s₀ s₁ s₂ : State} (h₀ : Keeps s₀ s₁) (u : Sys2Proof.Unit36) (a : Sys2Proof.SArgs)
    (e₀ : (execVxeClrflg u a s₁) = .next s₂) : Keeps s₀ s₂ := by
  unfold execVxeClrflg at e₀
  injection e₀ with e₀
  subst e₀
  try dsimp only
  repeat' with_reducible first
    | intro _ | simp only [↓Keeps.upd_iff] | assumption | apply keeps_ite | apply keeps_vxeSet | split

theorem keeps_execVxeRdvl {s₀ s₁ s₂ : State} (h₀ : Keeps s₀ s₁) (u : Sys2Proof.Unit36) (a : Sys2Proof.SArgs)
    (e₀ : (execVxeRdvl u a s₁) = .next s₂) : Keeps s₀ s₂ := by
  unfold execVxeRdvl at e₀
  injection e₀ with e₀
  subst e₀
  try dsimp only
  repeat' with_reducible first
    | intro _ | simp only [↓Keeps.upd_iff] | assumption | apply keeps_ite | apply keeps_vxeSet | split

theorem keeps_execVxeVtos {s₀ s₁ s₂ : State} (h₀ : Keeps s₀ s₁) (u : Sys2Proof.Unit36) (a : Sys2Proof.SArgs)
    (e₀ : (execVxeVtos u a s₁) = .next s₂) : Keeps s₀ s₂ := by
  unfold execVxeVtos at e₀
  injection e₀ with e₀
  subst e₀
  try dsimp only
  repeat' with_reducible first
    | intro _ | simp only [↓Keeps.upd_iff] | assumption | apply keeps_ite | apply keeps_vxeRun | split

theorem keeps_execVxeStov {s₀ s₁ s₂ : State} (h₀ : Keeps s₀ s₁) (u : Sys2Proof.Unit36) (a : Sys2Proof.SArgs)
    (e₀ : (execVxeStov u a s₁) = .next s₂) : Keeps s₀ s₂ := by
  unfold execVxeStov at e₀
  injection e₀ with e₀
  subst e₀
  try dsimp only
  repeat' with_reducible first
    | intro _ | simp only [↓Keeps.upd_iff] | assumption | apply keeps_ite | apply keeps_vxeRun | split

theorem keeps_execVxeMskAnd {s₀ s₁ s₂ : State} (h₀ : Keeps s₀ s₁) (u : Sys2Proof.Unit36) (a : Sys2Proof.MArgs)
    (e₀ : (execVxeMskAnd u a s₁) = .next s₂) : Keeps s₀ s₂ := by
  unfold execVxeMskAnd at e₀
  injection e₀ with e₀
  subst e₀
  try dsimp only
  repeat' with_reducible first
    | intro _ | simp only [↓Keeps.upd_iff] | assumption | apply keeps_ite | apply keeps_vxeRun | split

theorem keeps_execVxeMskOr {s₀ s₁ s₂ : State} (h₀ : Keeps s₀ s₁) (u : Sys2Proof.Unit36) (a : Sys2Proof.MArgs)
    (e₀ : (execVxeMskOr u a s₁) = .next s₂) : Keeps s₀ s₂ := by
  unfold execVxeMskOr at e₀
  injection e₀ with e₀
  subst e₀
  try dsimp only
  repeat' with_reducible first
    | intro _ | simp only [↓Keeps.upd_iff] | assumption | apply keeps_ite | apply keeps_vxeRun | split

theorem keeps_execVxeMskXor {s₀ s₁ s₂ : State} (h₀ : Keeps s₀ s₁) (u : Sys2Proof.Unit36) (a : Sys2Proof.MArgs)
    (e₀ : (execVxeMskXor u a s₁) = .next s₂) : Keeps s₀ s₂ := by
  unfold execVxeMskXor at e₀
  injection e₀ with e₀
  subst e₀
  try dsimp only
  repeat' with_reducible first
    | intro _ | simp only [↓Keeps.upd_iff] | assumption | apply keeps_ite | apply keeps_vxeRun | split

theorem keeps_execVxeMskAndn {s₀ s₁ s₂ : State} (h₀ : Keeps s₀ s₁) (u : Sys2Proof.Unit36) (a : Sys2Proof.MArgs)
    (e₀ : (execVxeMskAndn u a s₁) = .next s₂) : Keeps s₀ s₂ := by
  unfold execVxeMskAndn at e₀
  injection e₀ with e₀
  subst e₀
  try dsimp only
  repeat' with_reducible first
    | intro _ | simp only [↓Keeps.upd_iff] | assumption | apply keeps_ite | apply keeps_vxeRun | split

theorem keeps_execVxeMskNot {s₀ s₁ s₂ : State} (h₀ : Keeps s₀ s₁) (u : Sys2Proof.Unit36) (a : Sys2Proof.MArgs)
    (e₀ : (execVxeMskNot u a s₁) = .next s₂) : Keeps s₀ s₂ := by
  unfold execVxeMskNot at e₀
  injection e₀ with e₀
  subst e₀
  try dsimp only
  repeat' with_reducible first
    | intro _ | simp only [↓Keeps.upd_iff] | assumption | apply keeps_ite | apply keeps_vxeRun | split

theorem keeps_execVxeMskSet {s₀ s₁ s₂ : State} (h₀ : Keeps s₀ s₁) (u : Sys2Proof.Unit36) (a : Sys2Proof.MArgs)
    (e₀ : (execVxeMskSet u a s₁) = .next s₂) : Keeps s₀ s₂ := by
  unfold execVxeMskSet at e₀
  injection e₀ with e₀
  subst e₀
  try dsimp only
  repeat' with_reducible first
    | intro _ | simp only [↓Keeps.upd_iff] | assumption | apply keeps_ite | apply keeps_vxeRun | split

theorem keeps_execVxeMskClr {s₀ s₁ s₂ : State} (h₀ : Keeps s₀ s₁) (u : Sys2Proof.Unit36) (a : Sys2Proof.MArgs)
    (e₀ : (execVxeMskClr u a s₁) = .next s₂) : Keeps s₀ s₂ := by
  unfold execVxeMskClr at e₀
  injection e₀ with e₀
  subst e₀
  try dsimp only
  repeat' with_reducible first
    | intro _ | simp only [↓Keeps.upd_iff] | assumption | apply keeps_ite | apply keeps_vxeRun | split

theorem keeps_execVxeSclAddi {s₀ s₁ s₂ : State} (h₀ : Keeps s₀ s₁) (u : Sys2Proof.Unit36) (a : Sys2Proof.SArgs)
    (e₀ : (execVxeSclAddi u a s₁) = .next s₂) : Keeps s₀ s₂ := by
  unfold execVxeSclAddi at e₀
  injection e₀ with e₀
  subst e₀
  try dsimp only
  repeat' with_reducible first
    | intro _ | simp only [↓Keeps.upd_iff] | assumption | apply keeps_ite | apply keeps_vxeSet | split

theorem keeps_execVxeSclAdd {s₀ s₁ s₂ : State} (h₀ : Keeps s₀ s₁) (u : Sys2Proof.Unit36) (a : Sys2Proof.SArgs)
    (e₀ : (execVxeSclAdd u a s₁) = .next s₂) : Keeps s₀ s₂ := by
  unfold execVxeSclAdd at e₀
  injection e₀ with e₀
  subst e₀
  try dsimp only
  repeat' with_reducible first
    | intro _ | simp only [↓Keeps.upd_iff] | assumption | apply keeps_ite | apply keeps_vxeRun | split

theorem keeps_execVxeSclSub {s₀ s₁ s₂ : State} (h₀ : Keeps s₀ s₁) (u : Sys2Proof.Unit36) (a : Sys2Proof.SArgs)
    (e₀ : (execVxeSclSub u a s₁) = .next s₂) : Keeps s₀ s₂ := by
  unfold execVxeSclSub at e₀
  injection e₀ with e₀
  subst e₀
  try dsimp only
  repeat' with_reducible first
    | intro _ | simp only [↓Keeps.upd_iff] | assumption | apply keeps_ite | apply keeps_vxeRun | split

theorem keeps_execVxeSclAnd {s₀ s₁ s₂ : State} (h₀ : Keeps s₀ s₁) (u : Sys2Proof.Unit36) (a : Sys2Proof.SArgs)
    (e₀ : (execVxeSclAnd u a s₁) = .next s₂) : Keeps s₀ s₂ := by
  unfold execVxeSclAnd at e₀
  injection e₀ with e₀
  subst e₀
  try dsimp only
  repeat' with_reducible first
    | intro _ | simp only [↓Keeps.upd_iff] | assumption | apply keeps_ite | apply keeps_vxeRun | split

theorem keeps_execVxeSclOr {s₀ s₁ s₂ : State} (h₀ : Keeps s₀ s₁) (u : Sys2Proof.Unit36) (a : Sys2Proof.SArgs)
    (e₀ : (execVxeSclOr u a s₁) = .next s₂) : Keeps s₀ s₂ := by
  unfold execVxeSclOr at e₀
  injection e₀ with e₀
  subst e₀
  try dsimp only
  repeat' with_reducible first
    | intro _ | simp only [↓Keeps.upd_iff] | assumption | apply keeps_ite | apply keeps_vxeRun | split

theorem keeps_execVxeSclXor {s₀ s₁ s₂ : State} (h₀ : Keeps s₀ s₁) (u : Sys2Proof.Unit36) (a : Sys2Proof.SArgs)
    (e₀ : (execVxeSclXor u a s₁) = .next s₂) : Keeps s₀ s₂ := by
  unfold execVxeSclXor at e₀
  injection e₀ with e₀
  subst e₀
  try dsimp only
  repeat' with_reducible first
    | intro _ | simp only [↓Keeps.upd_iff] | assumption | apply keeps_ite | apply keeps_vxeRun | split

theorem keeps_execVxeSclSlli {s₀ s₁ s₂ : State} (h₀ : Keeps s₀ s₁) (u : Sys2Proof.Unit36) (a : Sys2Proof.SArgs)
    (e₀ : (execVxeSclSlli u a s₁) = .next s₂) : Keeps s₀ s₂ := by
  unfold execVxeSclSlli at e₀
  injection e₀ with e₀
  subst e₀
  try dsimp only
  repeat' with_reducible first
    | intro _ | simp only [↓Keeps.upd_iff] | assumption | apply keeps_ite | apply keeps_vxeSet | split

theorem keeps_execVxeSclSrli {s₀ s₁ s₂ : State} (h₀ : Keeps s₀ s₁) (u : Sys2Proof.Unit36) (a : Sys2Proof.SArgs)
    (e₀ : (execVxeSclSrli u a s₁) = .next s₂) : Keeps s₀ s₂ := by
  unfold execVxeSclSrli at e₀
  injection e₀ with e₀
  subst e₀
  try dsimp only
  repeat' with_reducible first
    | intro _ | simp only [↓Keeps.upd_iff] | assumption | apply keeps_ite | apply keeps_vxeSet | split

theorem keeps_execVxeSclSrai {s₀ s₁ s₂ : State} (h₀ : Keeps s₀ s₁) (u : Sys2Proof.Unit36) (a : Sys2Proof.SArgs)
    (e₀ : (execVxeSclSrai u a s₁) = .next s₂) : Keeps s₀ s₂ := by
  unfold execVxeSclSrai at e₀
  injection e₀ with e₀
  subst e₀
  try dsimp only
  repeat' with_reducible first
    | intro _ | simp only [↓Keeps.upd_iff] | assumption | apply keeps_ite | apply keeps_vxeSet | split

theorem keeps_execVxeSclLih {s₀ s₁ s₂ : State} (h₀ : Keeps s₀ s₁) (u : Sys2Proof.Unit36) (a : Sys2Proof.SArgs)
    (e₀ : (execVxeSclLih u a s₁) = .next s₂) : Keeps s₀ s₂ := by
  unfold execVxeSclLih at e₀
  injection e₀ with e₀
  subst e₀
  try dsimp only
  repeat' with_reducible first
    | intro _ | simp only [↓Keeps.upd_iff] | assumption | apply keeps_ite | apply keeps_vxeSet | split

theorem keeps_execVxeSclMul {s₀ s₁ s₂ : State} (h₀ : Keeps s₀ s₁) (u : Sys2Proof.Unit36) (a : Sys2Proof.SArgs)
    (e₀ : (execVxeSclMul u a s₁) = .next s₂) : Keeps s₀ s₂ := by
  unfold execVxeSclMul at e₀
  injection e₀ with e₀
  subst e₀
  try dsimp only
  repeat' with_reducible first
    | intro _ | simp only [↓Keeps.upd_iff] | assumption | apply keeps_ite | apply keeps_vxeRun | split

theorem keeps_execVxeBeq {s₀ s₁ s₂ : State} (h₀ : Keeps s₀ s₁) (u : Sys2Proof.Unit36) (a : Sys2Proof.SArgs)
    (e₀ : (execVxeBeq u a s₁) = .next s₂) : Keeps s₀ s₂ := by
  unfold execVxeBeq at e₀
  injection e₀ with e₀
  subst e₀
  try dsimp only
  repeat' with_reducible first
    | intro _ | simp only [↓Keeps.upd_iff] | assumption | apply keeps_ite | apply keeps_vxeBranch | split

theorem keeps_execVxeBne {s₀ s₁ s₂ : State} (h₀ : Keeps s₀ s₁) (u : Sys2Proof.Unit36) (a : Sys2Proof.SArgs)
    (e₀ : (execVxeBne u a s₁) = .next s₂) : Keeps s₀ s₂ := by
  unfold execVxeBne at e₀
  injection e₀ with e₀
  subst e₀
  try dsimp only
  repeat' with_reducible first
    | intro _ | simp only [↓Keeps.upd_iff] | assumption | apply keeps_ite | apply keeps_vxeBranch | split

theorem keeps_execVxeBlt {s₀ s₁ s₂ : State} (h₀ : Keeps s₀ s₁) (u : Sys2Proof.Unit36) (a : Sys2Proof.SArgs)
    (e₀ : (execVxeBlt u a s₁) = .next s₂) : Keeps s₀ s₂ := by
  unfold execVxeBlt at e₀
  injection e₀ with e₀
  subst e₀
  try dsimp only
  repeat' with_reducible first
    | intro _ | simp only [↓Keeps.upd_iff] | assumption | apply keeps_ite | apply keeps_vxeBranch | split

theorem keeps_execVxeBge {s₀ s₁ s₂ : State} (h₀ : Keeps s₀ s₁) (u : Sys2Proof.Unit36) (a : Sys2Proof.SArgs)
    (e₀ : (execVxeBge u a s₁) = .next s₂) : Keeps s₀ s₂ := by
  unfold execVxeBge at e₀
  injection e₀ with e₀
  subst e₀
  try dsimp only
  repeat' with_reducible first
    | intro _ | simp only [↓Keeps.upd_iff] | assumption | apply keeps_ite | apply keeps_vxeBranch | split

theorem keeps_execVxeBltu {s₀ s₁ s₂ : State} (h₀ : Keeps s₀ s₁) (u : Sys2Proof.Unit36) (a : Sys2Proof.SArgs)
    (e₀ : (execVxeBltu u a s₁) = .next s₂) : Keeps s₀ s₂ := by
  unfold execVxeBltu at e₀
  injection e₀ with e₀
  subst e₀
  try dsimp only
  repeat' with_reducible first
    | intro _ | simp only [↓Keeps.upd_iff] | assumption | apply keeps_ite | apply keeps_vxeBranch | split

theorem keeps_execVxeJmp {s₀ s₁ s₂ : State} (h₀ : Keeps s₀ s₁) (u : Sys2Proof.Unit36) (a : Sys2Proof.SArgs)
    (e₀ : (execVxeJmp u a s₁) = .next s₂) : Keeps s₀ s₂ := by
  unfold execVxeJmp at e₀
  injection e₀ with e₀
  subst e₀
  try dsimp only
  repeat' with_reducible first
    | intro _ | simp only [↓Keeps.upd_iff] | assumption | apply keeps_ite | apply keeps_vxeBranch | split

/-! ### VectorSync -/

theorem keeps_execVxeWait {s₀ s₁ s₂ : State} (h₀ : Keeps s₀ s₁) (u : Sys2Proof.Unit36) (a : Sys2Proof.SArgs)
    (e₀ : (execVxeWait u a s₁) = .next s₂) : Keeps s₀ s₂ := by
  unfold execVxeWait at e₀
  injection e₀ with e₀
  subst e₀
  try dsimp only
  repeat' with_reducible first
    | intro _ | simp only [↓Keeps.upd_iff] | assumption | apply keeps_ite | apply keeps_vxeNext
    | apply keeps_waitMarks | split

theorem keeps_execVxeSignal {s₀ s₁ s₂ : State} (h₀ : Keeps s₀ s₁) (u : Sys2Proof.Unit36) (a : Sys2Proof.SArgs)
    (e₀ : (execVxeSignal u a s₁) = .next s₂) : Keeps s₀ s₂ := by
  unfold execVxeSignal at e₀
  injection e₀ with e₀
  subst e₀
  try dsimp only
  repeat' with_reducible first
    | intro _ | simp only [↓Keeps.upd_iff] | assumption | apply keeps_ite | apply keeps_vxeNext
    | apply keeps_signalGo | split

theorem keeps_execVxeSemwait {s₀ s₁ s₂ : State} (h₀ : Keeps s₀ s₁) (u : Sys2Proof.Unit36) (a : Sys2Proof.SArgs)
    (e₀ : (execVxeSemwait u a s₁) = .next s₂) : Keeps s₀ s₂ := by
  unfold execVxeSemwait at e₀
  injection e₀ with e₀
  subst e₀
  try dsimp only
  repeat' with_reducible first
    | intro _ | simp only [↓Keeps.upd_iff] | assumption | apply keeps_ite | apply keeps_vxeSem | split

theorem keeps_execVxeSemadd {s₀ s₁ s₂ : State} (h₀ : Keeps s₀ s₁) (u : Sys2Proof.Unit36) (a : Sys2Proof.SArgs)
    (e₀ : (execVxeSemadd u a s₁) = .next s₂) : Keeps s₀ s₂ := by
  unfold execVxeSemadd at e₀
  injection e₀ with e₀
  subst e₀
  try dsimp only
  repeat' with_reducible first
    | intro _ | simp only [↓Keeps.upd_iff] | assumption | apply keeps_ite | apply keeps_vxeSem | split

theorem keeps_execVxeEnd {s₀ s₁ s₂ : State} (h₀ : Keeps s₀ s₁) (u : Sys2Proof.Unit36) (a : Sys2Proof.SArgs)
    (e₀ : (execVxeEnd u a s₁) = .next s₂) : Keeps s₀ s₂ := by
  unfold execVxeEnd at e₀
  injection e₀ with e₀
  subst e₀
  try dsimp only
  repeat' with_reducible first
    | intro _ | simp only [↓Keeps.upd_iff] | assumption | apply keeps_ite | apply keeps_wrF | apply keeps_wr
    | apply keeps_progress | apply keeps_stalls | apply keeps_incF | apply keeps_endCancel | apply keeps_setVxe
    | split

theorem keeps_execVxeRegParityError {s₀ s₁ s₂ : State} (h₀ : Keeps s₀ s₁) (d : Sys2Proof.Die) (b : Sys2Proof.Bay)
    (e₀ : (execVxeRegParityError d b s₁) = .next s₂) : Keeps s₀ s₂ := by
  unfold execVxeRegParityError at e₀
  injection e₀ with e₀
  subst e₀
  try dsimp only
  repeat' with_reducible first
    | intro _ | simp only [↓Keeps.upd_iff] | assumption | apply keeps_ite | apply keeps_noCertBay
    | apply keeps_histEvent | apply keeps_setErr | split

/-! ### Blocks -/

theorem keeps_execBlockEnable {s₀ s₁ s₂ : State} (h₀ : Keeps s₀ s₁) (w : Sys2Proof.Writer) (d : Sys2Proof.Die) (pg : BitVec 8)
    (e₀ : (execBlockEnable w d pg s₁) = .next s₂) : Keeps s₀ s₂ := by
  unfold execBlockEnable at e₀
  injection e₀ with e₀
  subst e₀
  try dsimp only
  repeat' with_reducible first
    | intro _ | simp only [↓Keeps.upd_iff] | assumption | apply keeps_ite | apply keeps_then | apply keeps_ctrlBit
    | apply keeps_enableEffect | split

theorem keeps_execBlockDisable {s₀ s₁ s₂ : State} (h₀ : Keeps s₀ s₁) (w : Sys2Proof.Writer) (d : Sys2Proof.Die) (pg : BitVec 8)
    (e₀ : (execBlockDisable w d pg s₁) = .next s₂) : Keeps s₀ s₂ := by
  unfold execBlockDisable at e₀
  injection e₀ with e₀
  subst e₀
  try dsimp only
  repeat' with_reducible first
    | intro _ | simp only [↓Keeps.upd_iff] | assumption | apply keeps_ite | apply keeps_then | apply keeps_ctrlBit
    | apply keeps_enableEffect | split

theorem keeps_execOpeningComplete {s₀ s₁ s₂ : State} (h₀ : Keeps s₀ s₁) (d : Sys2Proof.Die) (pg : BitVec 8)
    (e₀ : (execOpeningComplete d pg s₁) = .next s₂) : Keeps s₀ s₂ := by
  unfold execOpeningComplete at e₀
  injection e₀ with e₀
  subst e₀
  try dsimp only
  repeat' with_reducible first
    | intro _ | simp only [↓Keeps.upd_iff] | assumption | apply keeps_ite | apply keeps_opened | apply keeps_incF
    | apply keeps_setBlkSt | apply keeps_beginClose | split

theorem keeps_execClosingComplete {s₀ s₁ s₂ : State} (h₀ : Keeps s₀ s₁) (d : Sys2Proof.Die) (pg : BitVec 8)
    (e₀ : (execClosingComplete d pg s₁) = .next s₂) : Keeps s₀ s₂ := by
  unfold execClosingComplete at e₀
  injection e₀ with e₀
  subst e₀
  try dsimp only
  repeat' with_reducible first
    | intro _ | simp only [↓Keeps.upd_iff] | assumption | apply keeps_ite | apply keeps_closed
    | apply keeps_beginOpen | apply keeps_setBlkSt | split

theorem keeps_execHwHoldClear {s₀ s₁ s₂ : State} (h₀ : Keeps s₀ s₁) (d : Sys2Proof.Die) (pg : BitVec 8)
    (e₀ : (execHwHoldClear d pg s₁) = .next s₂) : Keeps s₀ s₂ := by
  unfold execHwHoldClear at e₀
  injection e₀ with e₀
  subst e₀
  try dsimp only
  repeat' with_reducible first
    | intro _ | simp only [↓Keeps.upd_iff] | assumption | apply keeps_ite | apply keeps_wrF | apply keeps_beginOpen
    | apply keeps_syncPend | split

theorem keeps_execClrCount {s₀ s₁ s₂ : State} (h₀ : Keeps s₀ s₁) (w : Sys2Proof.Writer) (d : Sys2Proof.Die) (pg : BitVec 8)
    (e₀ : (execClrCount w d pg s₁) = .next s₂) : Keeps s₀ s₂ := by
  unfold execClrCount at e₀
  injection e₀ with e₀
  subst e₀
  try dsimp only
  repeat' with_reducible first
    | intro _ | simp only [↓Keeps.upd_iff] | assumption | apply keeps_ite | apply keeps_then | apply keeps_ctrlBit
    | apply keeps_enableEffect | apply keeps_wrF | split

theorem keeps_execMxePause {s₀ s₁ s₂ : State} (h₀ : Keeps s₀ s₁) (w : Sys2Proof.Writer) (d : Sys2Proof.Die) (b : Sys2Proof.Bay)
    (e₀ : (execMxePause w d b s₁) = .next s₂) : Keeps s₀ s₂ := by
  unfold execMxePause at e₀
  injection e₀ with e₀
  subst e₀
  try dsimp only
  repeat' with_reducible first
    | intro _ | simp only [↓Keeps.upd_iff] | assumption | apply keeps_ite | apply keeps_pauseBit | split

theorem keeps_execMxeUnpause {s₀ s₁ s₂ : State} (h₀ : Keeps s₀ s₁) (w : Sys2Proof.Writer) (d : Sys2Proof.Die) (b : Sys2Proof.Bay)
    (e₀ : (execMxeUnpause w d b s₁) = .next s₂) : Keeps s₀ s₂ := by
  unfold execMxeUnpause at e₀
  injection e₀ with e₀
  subst e₀
  try dsimp only
  repeat' with_reducible first
    | intro _ | simp only [↓Keeps.upd_iff] | assumption | apply keeps_ite | apply keeps_pauseBit | split

theorem keeps_execVxePause {s₀ s₁ s₂ : State} (h₀ : Keeps s₀ s₁) (w : Sys2Proof.Writer) (d : Sys2Proof.Die) (b : Sys2Proof.Bay)
    (e₀ : (execVxePause w d b s₁) = .next s₂) : Keeps s₀ s₂ := by
  unfold execVxePause at e₀
  injection e₀ with e₀
  subst e₀
  try dsimp only
  repeat' with_reducible first
    | intro _ | simp only [↓Keeps.upd_iff] | assumption | apply keeps_ite | apply keeps_pauseBit | split

theorem keeps_execVxeUnpause {s₀ s₁ s₂ : State} (h₀ : Keeps s₀ s₁) (w : Sys2Proof.Writer) (d : Sys2Proof.Die) (b : Sys2Proof.Bay)
    (e₀ : (execVxeUnpause w d b s₁) = .next s₂) : Keeps s₀ s₂ := by
  unfold execVxeUnpause at e₀
  injection e₀ with e₀
  subst e₀
  try dsimp only
  repeat' with_reducible first
    | intro _ | simp only [↓Keeps.upd_iff] | assumption | apply keeps_ite | apply keeps_pauseBit | split

theorem keeps_execSuPause {s₀ s₁ s₂ : State} (h₀ : Keeps s₀ s₁) (w : Sys2Proof.Writer) (d : Sys2Proof.Die) (b : Sys2Proof.Bay)
    (e₀ : (execSuPause w d b s₁) = .next s₂) : Keeps s₀ s₂ := by
  unfold execSuPause at e₀
  injection e₀ with e₀
  subst e₀
  try dsimp only
  repeat' with_reducible first
    | intro _ | simp only [↓Keeps.upd_iff] | assumption | apply keeps_ite | apply keeps_pauseBit | split

theorem keeps_execSuUnpause {s₀ s₁ s₂ : State} (h₀ : Keeps s₀ s₁) (w : Sys2Proof.Writer) (d : Sys2Proof.Die) (b : Sys2Proof.Bay)
    (e₀ : (execSuUnpause w d b s₁) = .next s₂) : Keeps s₀ s₂ := by
  unfold execSuUnpause at e₀
  injection e₀ with e₀
  subst e₀
  try dsimp only
  repeat' with_reducible first
    | intro _ | simp only [↓Keeps.upd_iff] | assumption | apply keeps_ite | apply keeps_pauseBit | split

/-! ### Resets -/

theorem keeps_execBayReset {s₀ s₁ s₂ : State} (h₀ : Keeps s₀ s₁) (w : Sys2Proof.Writer) (d : Sys2Proof.Die) (b : Sys2Proof.Bay)
    (e₀ : (execBayReset w d b s₁) = .next s₂) : Keeps s₀ s₂ := by
  unfold execBayReset at e₀
  injection e₀ with e₀
  subst e₀
  try dsimp only
  repeat' with_reducible first
    | intro _ | simp only [↓Keeps.upd_iff] | assumption | apply keeps_ite | apply keeps_reqRow | split

theorem keeps_execFabricPortReset {s₀ s₁ s₂ : State} (h₀ : Keeps s₀ s₁) (w : Sys2Proof.Writer) (p : Sys2Proof.Port)
    (e₀ : (execFabricPortReset w p s₁) = .next s₂) : Keeps s₀ s₂ := by
  unfold execFabricPortReset at e₀
  injection e₀ with e₀
  subst e₀
  try dsimp only
  repeat' with_reducible first
    | intro _ | simp only [↓Keeps.upd_iff] | assumption | apply keeps_ite | apply keeps_reqRow | split

theorem keeps_execCoreClusterReset {s₀ s₁ s₂ : State} (h₀ : Keeps s₀ s₁) (w : Sys2Proof.Writer) (d : Sys2Proof.Die)
    (e₀ : (execCoreClusterReset w d s₁) = .next s₂) : Keeps s₀ s₂ := by
  unfold execCoreClusterReset at e₀
  injection e₀ with e₀
  subst e₀
  try dsimp only
  repeat' with_reducible first
    | intro _ | simp only [↓Keeps.upd_iff] | assumption | apply keeps_ite | apply keeps_reqRow | split

theorem keeps_execDiePartitionReset {s₀ s₁ s₂ : State} (h₀ : Keeps s₀ s₁) (w : Sys2Proof.Writer) (d : Sys2Proof.Die)
    (e₀ : (execDiePartitionReset w d s₁) = .next s₂) : Keeps s₀ s₂ := by
  unfold execDiePartitionReset at e₀
  injection e₀ with e₀
  subst e₀
  try dsimp only
  repeat' with_reducible first
    | intro _ | simp only [↓Keeps.upd_iff] | assumption | apply keeps_ite | apply keeps_reqRow | split

theorem keeps_execWholeDeviceReset {s₀ s₁ s₂ : State} (h₀ : Keeps s₀ s₁) (w : Sys2Proof.Writer)
    (e₀ : (execWholeDeviceReset w s₁) = .next s₂) : Keeps s₀ s₂ := by
  unfold execWholeDeviceReset at e₀
  injection e₀ with e₀
  subst e₀
  try dsimp only
  repeat' with_reducible first
    | intro _ | simp only [↓Keeps.upd_iff] | assumption | apply keeps_ite | apply keeps_reqRow | split

theorem keeps_execSysRstNAssert {s₀ s₁ s₂ : State} (h₀ : Keeps s₀ s₁) 
    (e₀ : (execSysRstNAssert s₁) = .next s₂) : Keeps s₀ s₂ := by
  unfold execSysRstNAssert at e₀
  injection e₀ with e₀
  subst e₀
  try dsimp only
  repeat' with_reducible first
    | intro _ | simp only [↓Keeps.upd_iff] | assumption | apply keeps_ite | apply keeps_resetReq | split

/-! ### Checkpoint -/

theorem keeps_execExportComplete {s₀ s₁ s₂ : State} (h₀ : Keeps s₀ s₁) 
    (e₀ : (execExportComplete s₁) = .next s₂) : Keeps s₀ s₂ := by
  unfold execExportComplete at e₀
  injection e₀ with e₀
  subst e₀
  try dsimp only
  repeat' with_reducible first
    | intro _ | simp only [↓Keeps.upd_iff] | assumption | apply keeps_ite | apply keeps_ckpCode
    | apply keeps_setCkpState | split

theorem keeps_execRestoreComplete {s₀ s₁ s₂ : State} (h₀ : Keeps s₀ s₁) 
    (e₀ : (execRestoreComplete s₁) = .next s₂) : Keeps s₀ s₂ := by
  unfold execRestoreComplete at e₀
  injection e₀ with e₀
  subst e₀
  try dsimp only
  repeat' with_reducible first
    | intro _ | simp only [↓Keeps.upd_iff] | assumption | apply keeps_ite | apply keeps_imageDone | split

theorem keeps_execSign {s₀ s₁ s₂ : State} (h₀ : Keeps s₀ s₁) (w : Sys2Proof.Writer)
    (e₀ : (execSign w s₁) = .next s₂) : Keeps s₀ s₂ := by
  unfold execSign at e₀
  injection e₀ with e₀
  subst e₀
  try dsimp only
  repeat' with_reducible first
    | intro _ | simp only [↓Keeps.upd_iff] | assumption | apply keeps_ite | apply keeps_ckpRow | split

theorem keeps_execRestoreOwn {s₀ s₁ s₂ : State} (h₀ : Keeps s₀ s₁) (w : Sys2Proof.Writer)
    (e₀ : (execRestoreOwn w s₁) = .next s₂) : Keeps s₀ s₂ := by
  unfold execRestoreOwn at e₀
  injection e₀ with e₀
  subst e₀
  try dsimp only
  repeat' with_reducible first
    | intro _ | simp only [↓Keeps.upd_iff] | assumption | apply keeps_ite | apply keeps_ckpRow | split

theorem keeps_execRestoreBuddy {s₀ s₁ s₂ : State} (h₀ : Keeps s₀ s₁) (w : Sys2Proof.Writer)
    (e₀ : (execRestoreBuddy w s₁) = .next s₂) : Keeps s₀ s₂ := by
  unfold execRestoreBuddy at e₀
  injection e₀ with e₀
  subst e₀
  try dsimp only
  repeat' with_reducible first
    | intro _ | simp only [↓Keeps.upd_iff] | assumption | apply keeps_ite | apply keeps_ckpRow | split

theorem keeps_execFetchOwn {s₀ s₁ s₂ : State} (h₀ : Keeps s₀ s₁) (w : Sys2Proof.Writer) (dev : Sys2Proof.DevIx) (f : Option (Nat × List Sys2Proof.Byte))
    (e₀ : (execFetchOwn w dev f s₁) = .next s₂) : Keeps s₀ s₂ := by
  unfold execFetchOwn at e₀
  injection e₀ with e₀
  subst e₀
  try dsimp only
  repeat' with_reducible first
    | intro _ | simp only [↓Keeps.upd_iff] | assumption | apply keeps_ite | apply keeps_ckpRow | split

theorem keeps_execAbandon {s₀ s₁ s₂ : State} (h₀ : Keeps s₀ s₁) (w : Sys2Proof.Writer)
    (e₀ : (execAbandon w s₁) = .next s₂) : Keeps s₀ s₂ := by
  unfold execAbandon at e₀
  injection e₀ with e₀
  subst e₀
  try dsimp only
  repeat' with_reducible first
    | intro _ | simp only [↓Keeps.upd_iff] | assumption | apply keeps_ite | apply keeps_ckpRow | split

theorem keeps_execRingSwWrite {s₀ s₁ s₂ : State} (h₀ : Keeps s₀ s₁) (w : Sys2Proof.Writer) (v : BitVec 64)
    (e₀ : (execRingSwWrite w v s₁) = .next s₂) : Keeps s₀ s₂ := by
  unfold execRingSwWrite at e₀
  injection e₀ with e₀
  subst e₀
  try dsimp only
  repeat' with_reducible first
    | intro _ | simp only [↓Keeps.upd_iff] | assumption | apply keeps_ite | apply keeps_then | apply keeps_write1
    | apply keeps_ringGo | split

theorem keeps_execWriter {s₀ s₁ s₂ : State} (h₀ : Keeps s₀ s₁) (h : Sys2Proof.CueHdr) (writer : Nat) (copies : Nat)
    (e₀ : (execWriter h writer copies s₁) = .next s₂) : Keeps s₀ s₂ := by
  unfold execWriter at e₀
  injection e₀ with e₀
  subst e₀
  try dsimp only
  repeat' with_reducible first
    | intro _ | simp only [↓Keeps.upd_iff] | assumption | apply keeps_ite | apply keeps_agentUp
    | apply keeps_noteWriter | apply keeps_exportBegin | split

/-! ### Activate -/

theorem keeps_execCurtainAction2 {s₀ s₁ s₂ : State} (h₀ : Keeps s₀ s₁) 
    (e₀ : (execCurtainAction2 s₁) = .next s₂) : Keeps s₀ s₂ := by
  unfold execCurtainAction2 at e₀
  injection e₀ with e₀
  subst e₀
  try dsimp only
  repeat' with_reducible first
    | intro _ | simp only [↓Keeps.upd_iff] | assumption | apply keeps_ite | apply keeps_adoptLate
    | apply keeps_tryAck | apply keeps_tryDecide | apply keeps_castVote | apply keeps_wrF | apply keeps_action2
    | apply keeps_openIdle | split

theorem keeps_execCurtainTimeout {s₀ s₁ s₂ : State} (h₀ : Keeps s₀ s₁) 
    (e₀ : (execCurtainTimeout s₁) = .next s₂) : Keeps s₀ s₂ := by
  unfold execCurtainTimeout at e₀
  injection e₀ with e₀
  subst e₀
  try dsimp only
  repeat' with_reducible first
    | intro _ | simp only [↓Keeps.upd_iff] | assumption | apply keeps_ite | apply keeps_wrF | apply keeps_noCert
    | apply keeps_setErr | apply keeps_setRound | apply keeps_tryDecide | apply keeps_castVote | split

theorem keeps_execBuddyStreamComplete {s₀ s₁ s₂ : State} (h₀ : Keeps s₀ s₁) 
    (e₀ : (execBuddyStreamComplete s₁) = .next s₂) : Keeps s₀ s₂ := by
  unfold execBuddyStreamComplete at e₀
  injection e₀ with e₀
  subst e₀
  try dsimp only
  repeat' with_reducible first
    | intro _ | simp only [↓Keeps.upd_iff] | assumption | apply keeps_ite | apply keeps_holdTables | split

theorem keeps_execStepBegin {s₀ s₁ s₂ : State} (h₀ : Keeps s₀ s₁) 
    (e₀ : (execStepBegin s₁) = .next s₂) : Keeps s₀ s₂ := by
  unfold execStepBegin at e₀
  injection e₀ with e₀
  subst e₀
  try dsimp only
  repeat' with_reducible first
    | intro _ | simp only [↓Keeps.upd_iff] | assumption | apply keeps_ite | apply keeps_wrF
    | apply keeps_exportBegin | apply keeps_beginStep | split

/-! ### CueRows -/

theorem keeps_execVote {s₀ s₁ s₂ : State} (h₀ : Keeps s₀ s₁) (h : Sys2Proof.CueHdr) (v : Sys2Proof.VoteBody)
    (e₀ : (execVote h v s₁) = .next s₂) : Keeps s₀ s₂ := by
  unfold execVote at e₀
  injection e₀ with e₀
  subst e₀
  try dsimp only
  repeat' with_reducible first
    | intro _ | simp only [↓Keeps.upd_iff] | assumption | apply keeps_ite | apply keeps_agentUp
    | apply keeps_openIdle | apply keeps_revote | apply keeps_ignored | apply keeps_tryDecide
    | apply keeps_takeVote | split

theorem keeps_execDigest {s₀ s₁ s₂ : State} (h₀ : Keeps s₀ s₁) (h : Sys2Proof.CueHdr) (kind : BitVec 8) (value : BitVec 256)
    (e₀ : (execDigest h kind value s₁) = .next s₂) : Keeps s₀ s₂ := by
  unfold execDigest at e₀
  injection e₀ with e₀
  subst e₀
  try dsimp only
  repeat' with_reducible first
    | intro _ | simp only [↓Keeps.upd_iff] | assumption | apply keeps_ite | apply keeps_agentUp
    | apply keeps_ofRound | apply keeps_tryDecide | apply keeps_takeDigest | split

theorem keeps_execPairs {s₀ s₁ s₂ : State} (h₀ : Keeps s₀ s₁) (h : Sys2Proof.CueHdr) (ps : List (BitVec 32 × Nat))
    (e₀ : (execPairs h ps s₁) = .next s₂) : Keeps s₀ s₂ := by
  unfold execPairs at e₀
  injection e₀ with e₀
  subst e₀
  try dsimp only
  repeat' with_reducible first
    | intro _ | simp only [↓Keeps.upd_iff] | assumption | apply keeps_ite | apply keeps_agentUp
    | apply keeps_ofRound | apply keeps_tryDecide | apply keeps_takePairs | apply keeps_tryAck | split

theorem keeps_execFences {s₀ s₁ s₂ : State} (h₀ : Keeps s₀ s₁) (h : Sys2Proof.CueHdr) (ds : List Nat)
    (e₀ : (execFences h ds s₁) = .next s₂) : Keeps s₀ s₂ := by
  unfold execFences at e₀
  injection e₀ with e₀
  subst e₀
  try dsimp only
  repeat' with_reducible first
    | intro _ | simp only [↓Keeps.upd_iff] | assumption | apply keeps_ite | apply keeps_agentUp
    | apply keeps_ofRound | apply keeps_tryAck | split

theorem keeps_execPrepare {s₀ s₁ s₂ : State} (h₀ : Keeps s₀ s₁) (h : Sys2Proof.CueHdr) (p : Sys2Proof.PrepBody)
    (e₀ : (execPrepare h p s₁) = .next s₂) : Keeps s₀ s₂ := by
  unfold execPrepare at e₀
  injection e₀ with e₀
  subst e₀
  try dsimp only
  repeat' with_reducible first
    | intro _ | simp only [↓Keeps.upd_iff] | assumption | apply keeps_ite | apply keeps_agentUp
    | apply keeps_poolJoins | apply keeps_ofRound | apply keeps_buddyFresh | apply keeps_tryAck | split

theorem keeps_execAck {s₀ s₁ s₂ : State} (h₀ : Keeps s₀ s₁) (h : Sys2Proof.CueHdr) (outcome : Sys2Proof.Decision)
    (e₀ : (execAck h outcome s₁) = .next s₂) : Keeps s₀ s₂ := by
  unfold execAck at e₀
  injection e₀ with e₀
  subst e₀
  try dsimp only
  repeat' with_reducible first
    | intro _ | simp only [↓Keeps.upd_iff] | assumption | apply keeps_ite | apply keeps_agentUp
    | apply keeps_ofRound | apply keeps_tryCommit | split

theorem keeps_execCommit {s₀ s₁ s₂ : State} (h₀ : Keeps s₀ s₁) (h : Sys2Proof.CueHdr) (outcome : Sys2Proof.Decision) (actions : BitVec 8) (view : BitVec 32)
    (e₀ : (execCommit h outcome actions view s₁) = .next s₂) : Keeps s₀ s₂ := by
  unfold execCommit at e₀
  injection e₀ with e₀
  subst e₀
  try dsimp only
  repeat' with_reducible first
    | intro _ | simp only [↓Keeps.upd_iff] | assumption | apply keeps_ite | apply keeps_agentUp
    | apply keeps_ofRound | apply keeps_adoptIn | split

theorem keeps_execHalt {s₀ s₁ s₂ : State} (h₀ : Keeps s₀ s₁) (h : Sys2Proof.CueHdr) (reason : BitVec 8)
    (e₀ : (execHalt h reason s₁) = .next s₂) : Keeps s₀ s₂ := by
  unfold execHalt at e₀
  injection e₀ with e₀
  subst e₀
  try dsimp only
  repeat' with_reducible first
    | intro _ | simp only [↓Keeps.upd_iff] | assumption | apply keeps_ite | apply keeps_agentUp
    | apply keeps_ignored | apply keeps_sendHalt | apply keeps_wrF | apply keeps_hears | apply keeps_noCert | split

theorem keeps_execKeep {s₀ s₁ s₂ : State} (h₀ : Keeps s₀ s₁) (h : Sys2Proof.CueHdr) (_votes : Nat)
    (e₀ : (execKeep h _votes s₁) = .next s₂) : Keeps s₀ s₂ := by
  unfold execKeep at e₀
  injection e₀ with e₀
  subst e₀
  try dsimp only
  repeat' with_reducible first
    | intro _ | simp only [↓Keeps.upd_iff] | assumption | apply keeps_ite | simp only [id_eq] | apply keeps_agentUp
    | apply keeps_ofRound | split

theorem keeps_execKeepTimer {s₀ s₁ s₂ : State} (h₀ : Keeps s₀ s₁) 
    (e₀ : (execKeepTimer s₁) = .next s₂) : Keeps s₀ s₂ := by
  unfold execKeepTimer at e₀
  injection e₀ with e₀
  subst e₀
  try dsimp only
  repeat' with_reducible first
    | intro _ | simp only [↓Keeps.upd_iff] | assumption | apply keeps_ite | apply keeps_foldl | apply keeps_agentUp
    | apply keeps_cueSend | split

theorem keeps_execVoteDeadline {s₀ s₁ s₂ : State} (h₀ : Keeps s₀ s₁) 
    (e₀ : (execVoteDeadline s₁) = .next s₂) : Keeps s₀ s₂ := by
  unfold execVoteDeadline at e₀
  injection e₀ with e₀
  subst e₀
  try dsimp only
  repeat' with_reducible first
    | intro _ | simp only [↓Keeps.upd_iff] | assumption | apply keeps_ite | apply keeps_agentUp
    | apply keeps_decideNow | split

theorem keeps_execLeaderSilence {s₀ s₁ s₂ : State} (h₀ : Keeps s₀ s₁) 
    (e₀ : (execLeaderSilence s₁) = .next s₂) : Keeps s₀ s₂ := by
  unfold execLeaderSilence at e₀
  injection e₀ with e₀
  subst e₀
  try dsimp only
  repeat' with_reducible first
    | intro _ | simp only [↓Keeps.upd_iff] | assumption | apply keeps_ite | apply keeps_agentUp
    | apply keeps_tryDecide | apply keeps_revote | split

theorem keeps_execAdmitWindowExpire {s₀ s₁ s₂ : State} (h₀ : Keeps s₀ s₁) 
    (e₀ : (execAdmitWindowExpire s₁) = .next s₂) : Keeps s₀ s₂ := by
  unfold execAdmitWindowExpire at e₀
  injection e₀ with e₀
  subst e₀
  try dsimp only
  repeat' with_reducible first
    | intro _ | simp only [↓Keeps.upd_iff] | assumption | apply keeps_ite | apply keeps_agentUp
    | apply keeps_sendPrepare | split

theorem keeps_execCall {s₀ s₁ s₂ : State} (h₀ : Keeps s₀ s₁) (h : Sys2Proof.CueHdr) (rank : Nat) (holder : Nat) (buddyOf : Nat) (failed : Nat)
    (e₀ : (execCall h rank holder buddyOf failed s₁) = .next s₂) : Keeps s₀ s₂ := by
  unfold execCall at e₀
  injection e₀ with e₀
  subst e₀
  try dsimp only
  repeat' with_reducible first
    | intro _ | simp only [↓Keeps.upd_iff] | assumption | apply keeps_ite | apply keeps_agentUp
    | apply keeps_ignored | apply keeps_setRound | apply keeps_newRound | apply keeps_callNotice
    | apply keeps_setPhase | split

theorem keeps_execPoolReadySend {s₀ s₁ s₂ : State} (h₀ : Keeps s₀ s₁) 
    (e₀ : (execPoolReadySend s₁) = .next s₂) : Keeps s₀ s₂ := by
  unfold execPoolReadySend at e₀
  injection e₀ with e₀
  subst e₀
  try dsimp only
  repeat' with_reducible first
    | intro _ | simp only [↓Keeps.upd_iff] | assumption | apply keeps_ite | apply keeps_agentUp
    | apply keeps_cueSend | split

theorem keeps_execReady {s₀ s₁ s₂ : State} (h₀ : Keeps s₀ s₁) (h : Sys2Proof.CueHdr) (dev : Nat) (rank : Nat) (flags : BitVec 8)
    (e₀ : (execReady h dev rank flags s₁) = .next s₂) : Keeps s₀ s₂ := by
  unfold execReady at e₀
  injection e₀ with e₀
  subst e₀
  try dsimp only
  repeat' with_reducible first
    | intro _ | simp only [↓Keeps.upd_iff] | assumption | apply keeps_ite | apply keeps_agentUp
    | apply keeps_ofRound | apply keeps_ignored | apply keeps_took | split

theorem keeps_execCallReadyTimeout {s₀ s₁ s₂ : State} (h₀ : Keeps s₀ s₁) (rank : Nat)
    (e₀ : (execCallReadyTimeout rank s₁) = .next s₂) : Keeps s₀ s₂ := by
  unfold execCallReadyTimeout at e₀
  injection e₀ with e₀
  subst e₀
  try dsimp only
  repeat' with_reducible first
    | intro _ | simp only [↓Keeps.upd_iff] | assumption | apply keeps_ite | apply keeps_agentUp
    | apply keeps_sendPrepare | split

theorem keeps_execHeldRound {s₀ s₁ s₂ : State} (h₀ : Keeps s₀ s₁) 
    (e₀ : (execHeldRound s₁) = .next s₂) : Keeps s₀ s₂ := by
  unfold execHeldRound at e₀
  injection e₀ with e₀
  subst e₀
  try dsimp only
  repeat' with_reducible first
    | intro _ | simp only [↓Keeps.upd_iff] | assumption | apply keeps_ite | apply keeps_agentUp
    | apply keeps_takeRoster | apply keeps_sendPrepare | split

theorem keeps_execDrainedReport {s₀ s₁ s₂ : State} (h₀ : Keeps s₀ s₁) 
    (e₀ : (execDrainedReport s₁) = .next s₂) : Keeps s₀ s₂ := by
  unfold execDrainedReport at e₀
  injection e₀ with e₀
  subst e₀
  try dsimp only
  repeat' with_reducible first
    | intro _ | simp only [↓Keeps.upd_iff] | assumption | apply keeps_ite | apply keeps_foldNat
    | apply keeps_agentUp | apply keeps_wrF | apply keeps_tryApply | apply keeps_cueSend | split

theorem keeps_execDrained {s₀ s₁ s₂ : State} (h₀ : Keeps s₀ s₁) (h : Sys2Proof.CueHdr)
    (e₀ : (execDrained h s₁) = .next s₂) : Keeps s₀ s₂ := by
  unfold execDrained at e₀
  injection e₀ with e₀
  subst e₀
  try dsimp only
  repeat' with_reducible first
    | intro _ | simp only [↓Keeps.upd_iff] | assumption | apply keeps_ite | apply keeps_agentUp
    | apply keeps_ofRound | apply keeps_tryApply | split

theorem keeps_execApply {s₀ s₁ s₂ : State} (h₀ : Keeps s₀ s₁) (h : Sys2Proof.CueHdr)
    (e₀ : (execApply h s₁) = .next s₂) : Keeps s₀ s₂ := by
  unfold execApply at e₀
  injection e₀ with e₀
  subst e₀
  try dsimp only
  repeat' with_reducible first
    | intro _ | simp only [↓Keeps.upd_iff] | assumption | apply keeps_ite | apply keeps_agentUp
    | apply keeps_ofRound | apply keeps_applyTables | split

theorem keeps_execUnitAudition {s₀ s₁ s₂ : State} (h₀ : Keeps s₀ s₁) (w : Sys2Proof.Writer) (k : BitVec 2) (d : Sys2Proof.Die) (ix : BitVec 6)
    (e₀ : (execUnitAudition w k d ix s₁) = .next s₂) : Keeps s₀ s₂ := by
  unfold execUnitAudition at e₀
  injection e₀ with e₀
  subst e₀
  try dsimp only
  repeat' with_reducible first
    | intro _ | simp only [↓Keeps.upd_iff] | assumption | apply keeps_ite | apply keeps_unitRow | split

theorem keeps_execUnitDark {s₀ s₁ s₂ : State} (h₀ : Keeps s₀ s₁) (w : Sys2Proof.Writer) (k : BitVec 2) (d : Sys2Proof.Die) (ix : BitVec 6)
    (e₀ : (execUnitDark w k d ix s₁) = .next s₂) : Keeps s₀ s₂ := by
  unfold execUnitDark at e₀
  injection e₀ with e₀
  subst e₀
  try dsimp only
  repeat' with_reducible first
    | intro _ | simp only [↓Keeps.upd_iff] | assumption | apply keeps_ite | apply keeps_unitRow | split

theorem keeps_execAuditionComplete {s₀ s₁ s₂ : State} (h₀ : Keeps s₀ s₁) (k : Sys2Proof.UnitKind) (d : Sys2Proof.Die) (ix : Nat) (pass : Bool)
    (e₀ : (execAuditionComplete k d ix pass s₁) = .next s₂) : Keeps s₀ s₂ := by
  unfold execAuditionComplete at e₀
  injection e₀ with e₀
  subst e₀
  try dsimp only
  repeat' with_reducible first
    | intro _ | simp only [↓Keeps.upd_iff] | assumption | apply keeps_ite | apply keeps_histEvent
    | apply keeps_unitStat | apply keeps_setUnit | split

/-! ### PowerRows -/

theorem keeps_execP48Rise {s₀ s₁ s₂ : State} (h₀ : Keeps s₀ s₁) (mv : Nat)
    (e₀ : (execP48Rise mv s₁) = .next s₂) : Keeps s₀ s₂ := by
  unfold execP48Rise at e₀
  injection e₀ with e₀
  subst e₀
  try dsimp only
  repeat' with_reducible first
    | intro _ | simp only [↓Keeps.upd_iff] | assumption | apply keeps_ite | split

theorem keeps_execInrushLimitExpire {s₀ s₁ s₂ : State} (h₀ : Keeps s₀ s₁) 
    (e₀ : (execInrushLimitExpire s₁) = .next s₂) : Keeps s₀ s₂ := by
  unfold execInrushLimitExpire at e₀
  injection e₀ with e₀
  subst e₀
  try dsimp only
  repeat' with_reducible first
    | intro _ | simp only [↓Keeps.upd_iff] | assumption | apply keeps_ite | split

theorem keeps_execPwrEnFall {s₀ s₁ s₂ : State} (h₀ : Keeps s₀ s₁) 
    (e₀ : (execPwrEnFall s₁) = .next s₂) : Keeps s₀ s₂ := by
  unfold execPwrEnFall at e₀
  unfold powerNext at e₀
  injection e₀ with e₀
  subst e₀
  try dsimp only
  repeat' with_reducible first
    | intro _ | simp only [↓Keeps.upd_iff] | assumption | apply keeps_alertPin | apply keeps_ite
    | apply keeps_orderlyDown | split

theorem keeps_execPhaseSwitchOut {s₀ s₁ s₂ : State} (h₀ : Keeps s₀ s₁) (d : Sys2Proof.Die) (r : Sys2Proof.Rail)
    (e₀ : (execPhaseSwitchOut d r s₁) = .next s₂) : Keeps s₀ s₂ := by
  unfold execPhaseSwitchOut at e₀
  injection e₀ with e₀
  subst e₀
  try dsimp only
  repeat' with_reducible first
    | intro _ | simp only [↓Keeps.upd_iff] | assumption | apply keeps_ite | apply keeps_setErr | apply keeps_took
    | apply keeps_histEvent | apply keeps_logAt | apply keeps_wrF | apply keeps_noCert | apply keeps_send | split

theorem keeps_execThermalTrip {s₀ s₁ s₂ : State} (h₀ : Keeps s₀ s₁) (x : Sys2Proof.Trip)
    (e₀ : (execThermalTrip x s₁) = .next s₂) : Keeps s₀ s₂ := by
  unfold execThermalTrip at e₀
  unfold powerNext at e₀
  injection e₀ with e₀
  subst e₀
  try dsimp only
  repeat' with_reducible first
    | intro _ | simp only [↓Keeps.upd_iff] | assumption | apply keeps_alertPin | apply keeps_ite
    | apply keeps_tripOn | split

theorem keeps_execTripPersistTimeout {s₀ s₁ s₂ : State} (h₀ : Keeps s₀ s₁) (d : Sys2Proof.Die) (h : Sys2Proof.Heat)
    (e₀ : (execTripPersistTimeout d h s₁) = .next s₂) : Keeps s₀ s₂ := by
  unfold execTripPersistTimeout at e₀
  unfold powerNext at e₀
  injection e₀ with e₀
  subst e₀
  try dsimp only
  repeat' with_reducible first
    | intro _ | simp only [↓Keeps.upd_iff] | assumption | apply keeps_alertPin | apply keeps_ite
    | apply keeps_stackWake | apply keeps_orderlyDown | split

theorem keeps_execStackTempRead {s₀ s₁ s₂ : State} (h₀ : Keeps s₀ s₁) (d : Sys2Proof.Die) (t : Sys2Proof.StackIx) (temp : BitVec 8)
    (e₀ : (execStackTempRead d t temp s₁) = .next s₂) : Keeps s₀ s₂ := by
  unfold execStackTempRead at e₀
  unfold powerNext at e₀
  injection e₀ with e₀
  subst e₀
  try dsimp only
  repeat' with_reducible first
    | intro _ | simp only [↓Keeps.upd_iff] | assumption | apply keeps_alertPin | apply keeps_ite | apply keeps_maxF
    | apply keeps_wrF | apply keeps_tripOn | split

theorem keeps_execFrequencyChangeComplete {s₀ s₁ s₂ : State} (h₀ : Keeps s₀ s₁) (d : Sys2Proof.Die)
    (e₀ : (execFrequencyChangeComplete d s₁) = .next s₂) : Keeps s₀ s₂ := by
  unfold execFrequencyChangeComplete at e₀
  injection e₀ with e₀
  subst e₀
  try dsimp only
  repeat' with_reducible first
    | intro _ | simp only [↓Keeps.upd_iff] | assumption | apply keeps_ite | apply keeps_wrF | split

theorem keeps_execDroopDetect {s₀ s₁ s₂ : State} (h₀ : Keeps s₀ s₁) (d : Sys2Proof.Die) (i : Sys2Proof.Island)
    (e₀ : (execDroopDetect d i s₁) = .next s₂) : Keeps s₀ s₂ := by
  unfold execDroopDetect at e₀
  injection e₀ with e₀
  subst e₀
  try dsimp only
  repeat' with_reducible first
    | intro _ | simp only [↓Keeps.upd_iff] | assumption | apply keeps_ite | apply keeps_satF | apply keeps_wrF
    | split

theorem keeps_execDroopClear {s₀ s₁ s₂ : State} (h₀ : Keeps s₀ s₁) (d : Sys2Proof.Die) (i : Sys2Proof.Island)
    (e₀ : (execDroopClear d i s₁) = .next s₂) : Keeps s₀ s₂ := by
  unfold execDroopClear at e₀
  injection e₀ with e₀
  subst e₀
  try dsimp only
  repeat' with_reducible first
    | intro _ | simp only [↓Keeps.upd_iff] | assumption | apply keeps_ite | apply keeps_wrF | split

theorem keeps_execDroopPauseExpire {s₀ s₁ s₂ : State} (h₀ : Keeps s₀ s₁) (d : Sys2Proof.Die)
    (e₀ : (execDroopPauseExpire d s₁) = .next s₂) : Keeps s₀ s₂ := by
  unfold execDroopPauseExpire at e₀
  injection e₀ with e₀
  subst e₀
  try dsimp only
  repeat' with_reducible first
    | intro _ | simp only [↓Keeps.upd_iff] | assumption | apply keeps_ite | apply keeps_wrF | split

theorem keeps_execPowerLoopTick {s₀ s₁ s₂ : State} (h₀ : Keeps s₀ s₁) (rd : List Sys2Proof.PowerReading)
    (e₀ : (execPowerLoopTick rd s₁) = .next s₂) : Keeps s₀ s₂ := by
  unfold execPowerLoopTick at e₀
  unfold powerNext at e₀
  injection e₀ with e₀
  subst e₀
  try dsimp only
  repeat' with_reducible first
    | intro _ | simp only [↓Keeps.upd_iff] | assumption | apply keeps_alertPin | apply keeps_ite
    | apply keeps_foldNat | apply keeps_dieTick | apply keeps_throttle | apply keeps_railTick | apply keeps_satF
    | split

theorem keeps_execThermalThrottleTick {s₀ s₁ s₂ : State} (h₀ : Keeps s₀ s₁) (d : Sys2Proof.Die) (junction : Int) (stack : Nat)
    (e₀ : (execThermalThrottleTick d junction stack s₁) = .next s₂) : Keeps s₀ s₂ := by
  unfold execThermalThrottleTick at e₀
  unfold powerNext at e₀
  injection e₀ with e₀
  subst e₀
  try dsimp only
  repeat' with_reducible first
    | intro _ | simp only [↓Keeps.upd_iff] | assumption | apply keeps_alertPin | apply keeps_ite | apply keeps_wrF
    | apply keeps_tripOn | split

theorem keeps_execShedStepEnter {s₀ s₁ s₂ : State} (h₀ : Keeps s₀ s₁) (step : Sys2Proof.ShedStep) (mv : Nat)
    (e₀ : (execShedStepEnter step mv s₁) = .next s₂) : Keeps s₀ s₂ := by
  unfold execShedStepEnter at e₀
  unfold powerNext at e₀
  injection e₀ with e₀
  subst e₀
  try dsimp only
  repeat' with_reducible first
    | intro _ | simp only [↓Keeps.upd_iff] | assumption | apply keeps_alertPin | apply keeps_ite
    | apply keeps_shedTo | split

theorem keeps_execShedStepRelease {s₀ s₁ s₂ : State} (h₀ : Keeps s₀ s₁) (step : Sys2Proof.ShedStep) (mv : Nat)
    (e₀ : (execShedStepRelease step mv s₁) = .next s₂) : Keeps s₀ s₂ := by
  unfold execShedStepRelease at e₀
  unfold powerNext at e₀
  injection e₀ with e₀
  subst e₀
  try dsimp only
  repeat' with_reducible first
    | intro _ | simp only [↓Keeps.upd_iff] | assumption | apply keeps_alertPin | apply keeps_ite
    | apply keeps_foldNat | apply keeps_wr | apply keeps_retarget | apply keeps_beginRetrain | apply keeps_setLink
    | apply keeps_stackWake | split

/-! ### StartUp -/

theorem keeps_execPowerUp {s₀ s₁ s₂ : State} (h₀ : Keeps s₀ s₁) (railsOk : Bool)
    (e₀ : (execPowerUp railsOk s₁) = .next s₂) : Keeps s₀ s₂ := by
  unfold execPowerUp at e₀
  injection e₀ with e₀
  subst e₀
  try dsimp only
  repeat' with_reducible first
    | intro _ | simp only [↓Keeps.upd_iff] | assumption | apply keeps_ite | apply keeps_send | apply keeps_powerOn
    | split

theorem keeps_execStrapSample {s₀ s₁ s₂ : State} (h₀ : Keeps s₀ s₁) (bootMode : BitVec 2) (slotId : BitVec 8)
    (e₀ : (execStrapSample bootMode slotId s₁) = .next s₂) : Keeps s₀ s₂ := by
  unfold execStrapSample at e₀
  injection e₀ with e₀
  subst e₀
  try dsimp only
  repeat' with_reducible first
    | intro _ | simp only [↓Keeps.upd_iff] | assumption | apply keeps_ite | apply keeps_wrF | split

theorem keeps_execStartupStageComplete {s₀ s₁ s₂ : State} (h₀ : Keeps s₀ s₁) (st : Sys2Proof.Stage) (e : Sys2Proof.StageEnd)
    (e₀ : (execStartupStageComplete st e s₁) = .next s₂) : Keeps s₀ s₂ := by
  unfold execStartupStageComplete at e₀
  injection e₀ with e₀
  subst e₀
  try dsimp only
  repeat' with_reducible first
    | intro _ | simp only [↓Keeps.upd_iff] | assumption | apply keeps_ite | apply keeps_stageDone
    | apply keeps_stageFailed | apply keeps_alertPin | split

theorem keeps_execImageRefetchTimeout {s₀ s₁ s₂ : State} (h₀ : Keeps s₀ s₁) 
    (e₀ : (execImageRefetchTimeout s₁) = .next s₂) : Keeps s₀ s₂ := by
  unfold execImageRefetchTimeout at e₀
  injection e₀ with e₀
  subst e₀
  try dsimp only
  repeat' with_reducible first
    | intro _ | simp only [↓Keeps.upd_iff] | assumption | apply keeps_ite | apply keeps_alertPin
    | apply keeps_setStage | split

theorem keeps_execBootStageTimeout {s₀ s₁ s₂ : State} (h₀ : Keeps s₀ s₁) 
    (e₀ : (execBootStageTimeout s₁) = .next s₂) : Keeps s₀ s₂ := by
  unfold execBootStageTimeout at e₀
  injection e₀ with e₀
  subst e₀
  try dsimp only
  repeat' with_reducible first
    | intro _ | simp only [↓Keeps.upd_iff] | assumption | apply keeps_ite | apply keeps_alertPin
    | apply keeps_failStage | split

/-! ### HangRows -/

theorem keeps_execReplayTrialClear {s₀ s₁ s₂ : State} (h₀ : Keeps s₀ s₁) (d : Sys2Proof.Die) (b : Sys2Proof.Bay)
    (e₀ : (execReplayTrialClear d b s₁) = .next s₂) : Keeps s₀ s₂ := by
  unfold execReplayTrialClear at e₀
  injection e₀ with e₀
  subst e₀
  try dsimp only
  repeat' with_reducible first
    | intro _ | simp only [↓Keeps.upd_iff] | assumption | apply keeps_ite | apply keeps_nextTrial
    | apply keeps_settleSwitch | apply keeps_setSwitching | apply keeps_setBayCtx | apply keeps_saveBay | split

theorem keeps_execWatchdogFire {s₀ s₁ s₂ : State} (h₀ : Keeps s₀ s₁) (d : Sys2Proof.Die) (b : Sys2Proof.Bay)
    (e₀ : (execWatchdogFire d b s₁) = .next s₂) : Keeps s₀ s₂ := by
  unfold execWatchdogFire at e₀
  injection e₀ with e₀
  subst e₀
  try dsimp only
  repeat' with_reducible first
    | intro _ | simp only [↓Keeps.upd_iff] | assumption | apply keeps_ite | apply keeps_guilty
    | apply keeps_noteFired | apply keeps_took | apply keeps_replayAdd | apply keeps_capture | apply keeps_resetReq
    | apply keeps_incF | apply keeps_forcedSave | split

theorem keeps_execBayResetTimeout {s₀ s₁ s₂ : State} (h₀ : Keeps s₀ s₁) (d : Sys2Proof.Die) (b : Sys2Proof.Bay)
    (e₀ : (execBayResetTimeout d b s₁) = .next s₂) : Keeps s₀ s₂ := by
  unfold execBayResetTimeout at e₀
  injection e₀ with e₀
  subst e₀
  try dsimp only
  repeat' with_reducible first
    | intro _ | simp only [↓Keeps.upd_iff] | assumption | apply keeps_ite | apply keeps_resetReq | apply keeps_incF
    | apply keeps_capture | split

theorem keeps_execPartitionTimeout {s₀ s₁ s₂ : State} (h₀ : Keeps s₀ s₁) (d : Sys2Proof.Die)
    (e₀ : (execPartitionTimeout d s₁) = .next s₂) : Keeps s₀ s₂ := by
  unfold execPartitionTimeout at e₀
  injection e₀ with e₀
  subst e₀
  try dsimp only
  repeat' with_reducible first
    | intro _ | simp only [↓Keeps.upd_iff] | assumption | apply keeps_ite | apply keeps_resetReq | apply keeps_incF
    | apply keeps_capture | split

theorem keeps_execShcStall {s₀ s₁ s₂ : State} (h₀ : Keeps s₀ s₁) (d : Sys2Proof.Die)
    (e₀ : (execShcStall d s₁) = .next s₂) : Keeps s₀ s₂ := by
  unfold execShcStall at e₀
  injection e₀ with e₀
  subst e₀
  try dsimp only
  repeat' with_reducible first
    | intro _ | simp only [↓Keeps.upd_iff] | assumption | apply keeps_ite | apply keeps_stall | split

theorem keeps_execAprStall {s₀ s₁ s₂ : State} (h₀ : Keeps s₀ s₁) (d : Sys2Proof.Die) (t : Sys2Proof.StackIx)
    (e₀ : (execAprStall d t s₁) = .next s₂) : Keeps s₀ s₂ := by
  unfold execAprStall at e₀
  injection e₀ with e₀
  subst e₀
  try dsimp only
  repeat' with_reducible first
    | intro _ | simp only [↓Keeps.upd_iff] | assumption | apply keeps_ite | apply keeps_stall | split

/-! ### Mailbox -/

theorem keeps_execMbxSubmit {s₀ s₁ s₂ : State} (h₀ : Keeps s₀ s₁) (w : Sys2Proof.Writer) (n : Sys2Proof.Mbox) (addr : BitVec 64)
    (e₀ : (execMbxSubmit w n addr s₁) = .next s₂) : Keeps s₀ s₂ := by
  unfold execMbxSubmit at e₀
  injection e₀ with e₀
  subst e₀
  try dsimp only
  repeat' with_reducible first
    | intro _ | simp only [↓Keeps.upd_iff] | assumption | apply keeps_ite | apply keeps_slotWrite | split

theorem keeps_execMbx14Arm {s₀ s₁ s₂ : State} (h₀ : Keeps s₀ s₁) (w : Sys2Proof.Writer) (addr : BitVec 64)
    (e₀ : (execMbx14Arm w addr s₁) = .next s₂) : Keeps s₀ s₂ := by
  unfold execMbx14Arm at e₀
  injection e₀ with e₀
  subst e₀
  try dsimp only
  repeat' with_reducible first
    | intro _ | simp only [↓Keeps.upd_iff] | assumption | apply keeps_ite | apply keeps_slotWrite | split

theorem keeps_execMbxDoneClear {s₀ s₁ s₂ : State} (h₀ : Keeps s₀ s₁) (w : Sys2Proof.Writer) (v : BitVec 64)
    (e₀ : (execMbxDoneClear w v s₁) = .next s₂) : Keeps s₀ s₂ := by
  unfold execMbxDoneClear at e₀
  injection e₀ with e₀
  subst e₀
  try dsimp only
  repeat' with_reducible first
    | intro _ | simp only [↓Keeps.upd_iff] | assumption | apply keeps_ite | apply keeps_then | apply keeps_write1
    | apply keeps_doneWritten | split

theorem keeps_execComponentFault {s₀ s₁ s₂ : State} (h₀ : Keeps s₀ s₁) (d : Sys2Proof.Die) (c : Sys2Proof.Component)
    (e₀ : (execComponentFault d c s₁) = .next s₂) : Keeps s₀ s₂ := by
  unfold execComponentFault at e₀
  injection e₀ with e₀
  subst e₀
  try dsimp only
  repeat' with_reducible first
    | intro _ | simp only [↓Keeps.upd_iff] | assumption | apply keeps_ite | apply keeps_compFault | split

theorem keeps_execComponentLivenessMiss {s₀ s₁ s₂ : State} (h₀ : Keeps s₀ s₁) (d : Sys2Proof.Die) (c : Sys2Proof.Component)
    (e₀ : (execComponentLivenessMiss d c s₁) = .next s₂) : Keeps s₀ s₂ := by
  unfold execComponentLivenessMiss at e₀
  injection e₀ with e₀
  subst e₀
  try dsimp only
  repeat' with_reducible first
    | intro _ | simp only [↓Keeps.upd_iff] | assumption | apply keeps_ite | apply keeps_compFault | split

theorem keeps_execComponentRestartComplete {s₀ s₁ s₂ : State} (h₀ : Keeps s₀ s₁) (d : Sys2Proof.Die) (c : Sys2Proof.Component)
    (e₀ : (execComponentRestartComplete d c s₁) = .next s₂) : Keeps s₀ s₂ := by
  unfold execComponentRestartComplete at e₀
  injection e₀ with e₀
  subst e₀
  try dsimp only
  repeat' with_reducible first
    | intro _ | simp only [↓Keeps.upd_iff] | assumption | apply keeps_ite | apply keeps_foldNat
    | apply keeps_setComp | apply keeps_retarget | apply keeps_wrF | apply keeps_admitDue | apply keeps_cuesBack
    | apply keeps_noticeOut | apply keeps_answerOdd | split

/-! ### Services -/

theorem keeps_execGetVersion {s₀ s₁ s₂ : State} (h₀ : Keeps s₀ s₁) (n : Sys2Proof.Mbox)
    (e₀ : (execGetVersion n s₁) = .next s₂) : Keeps s₀ s₂ := by
  refine keeps_msgRow h₀ _ _ _ _ ?_ e₀
  intro x m hx
  try dsimp only
  repeat' with_reducible first
    | intro _ | simp only [↓Keeps.upd_iff] | assumption | apply keeps_ite | split

theorem keeps_execSetIdentity {s₀ s₁ s₂ : State} (h₀ : Keeps s₀ s₁) (n : Sys2Proof.Mbox)
    (e₀ : (execSetIdentity n s₁) = .next s₂) : Keeps s₀ s₂ := by
  refine keeps_msgRow h₀ _ _ _ _ ?_ e₀
  intro x m hx
  try dsimp only
  repeat' with_reducible first
    | intro _ | simp only [↓Keeps.upd_iff] | assumption | apply keeps_ite | apply keeps_showRole | split

theorem keeps_execSetBlocking {s₀ s₁ s₂ : State} (h₀ : Keeps s₀ s₁) (n : Sys2Proof.Mbox)
    (e₀ : (execSetBlocking n s₁) = .next s₂) : Keeps s₀ s₂ := by
  refine keeps_msgRow h₀ _ _ _ _ ?_ e₀
  intro x m hx
  try dsimp only
  repeat' with_reducible first
    | intro _ | simp only [↓Keeps.upd_iff] | assumption | apply keeps_ite | apply keeps_touch
    | apply keeps_timeTree | split

theorem keeps_execInputsReady {s₀ s₁ s₂ : State} (h₀ : Keeps s₀ s₁) (n : Sys2Proof.Mbox)
    (e₀ : (execInputsReady n s₁) = .next s₂) : Keeps s₀ s₂ := by
  refine keeps_msgRow h₀ _ _ _ _ ?_ e₀
  intro x m hx
  try dsimp only
  repeat' with_reducible first
    | intro _ | simp only [↓Keeps.upd_iff] | assumption | apply keeps_ite | split

theorem keeps_execHeartbeat {s₀ s₁ s₂ : State} (h₀ : Keeps s₀ s₁) (n : Sys2Proof.Mbox)
    (e₀ : (execHeartbeat n s₁) = .next s₂) : Keeps s₀ s₂ := by
  refine keeps_msgRow h₀ _ _ _ _ ?_ e₀
  intro x m hx
  try dsimp only
  repeat' with_reducible first
    | intro _ | simp only [↓Keeps.upd_iff] | assumption | apply keeps_ite | split

theorem keeps_execHeartbeatTimeout {s₀ s₁ s₂ : State} (h₀ : Keeps s₀ s₁) (d : Sys2Proof.Die)
    (e₀ : (execHeartbeatTimeout d s₁) = .next s₂) : Keeps s₀ s₂ := by
  unfold execHeartbeatTimeout at e₀
  injection e₀ with e₀
  subst e₀
  try dsimp only
  repeat' with_reducible first
    | intro _ | simp only [↓Keeps.upd_iff] | assumption | apply keeps_ite | apply keeps_resetReq
    | apply keeps_logAt | apply keeps_setErr | split

theorem keeps_execLogRead {s₀ s₁ s₂ : State} (h₀ : Keeps s₀ s₁) (n : Sys2Proof.Mbox)
    (e₀ : (execLogRead n s₁) = .next s₂) : Keeps s₀ s₂ := by
  refine keeps_msgRow h₀ _ _ _ _ ?_ e₀
  intro x m hx
  try dsimp only
  repeat' with_reducible first
    | intro _ | simp only [↓Keeps.upd_iff] | assumption | apply keeps_ite
    | refine keeps_copyRecs_eq ?_ _ _ _ (by assumption) | apply keeps_copyRecs | split

theorem keeps_execChgRead {s₀ s₁ s₂ : State} (h₀ : Keeps s₀ s₁) (n : Sys2Proof.Mbox)
    (e₀ : (execChgRead n s₁) = .next s₂) : Keeps s₀ s₂ := by
  refine keeps_msgRow h₀ _ _ _ _ ?_ e₀
  intro x m hx
  try dsimp only
  repeat' with_reducible first
    | intro _ | simp only [↓Keeps.upd_iff] | assumption | apply keeps_ite
    | refine keeps_copyRecs_eq ?_ _ _ _ (by assumption) | apply keeps_copyRecs | split

theorem keeps_execSigRead {s₀ s₁ s₂ : State} (h₀ : Keeps s₀ s₁) (n : Sys2Proof.Mbox)
    (e₀ : (execSigRead n s₁) = .next s₂) : Keeps s₀ s₂ := by
  refine keeps_msgRow h₀ _ _ _ _ ?_ e₀
  intro x m hx
  try dsimp only
  repeat' with_reducible first
    | intro _ | simp only [↓Keeps.upd_iff] | assumption | apply keeps_ite
    | refine keeps_copyRecs_eq ?_ _ _ _ (by assumption) | apply keeps_copyRecs | split

theorem keeps_execCaptureRead {s₀ s₁ s₂ : State} (h₀ : Keeps s₀ s₁) (n : Sys2Proof.Mbox)
    (e₀ : (execCaptureRead n s₁) = .next s₂) : Keeps s₀ s₂ := by
  refine keeps_msgRow h₀ _ _ _ _ ?_ e₀
  intro x m hx
  try dsimp only
  repeat' with_reducible first
    | intro _ | simp only [↓Keeps.upd_iff] | assumption | apply keeps_ite
    | refine keeps_copyOut_eq ?_ _ _ (by assumption) | apply keeps_copyOut | split

theorem keeps_execSensorRead {s₀ s₁ s₂ : State} (h₀ : Keeps s₀ s₁) (n : Sys2Proof.Mbox) (readings : List Sys2Proof.Byte)
    (e₀ : (execSensorRead n readings s₁) = .next s₂) : Keeps s₀ s₂ := by
  refine keeps_msgRow h₀ _ _ _ _ ?_ e₀
  intro x m hx
  try dsimp only
  repeat' with_reducible first
    | intro _ | simp only [↓Keeps.upd_iff] | assumption | apply keeps_ite
    | refine keeps_copyOut_eq ?_ _ _ (by assumption) | apply keeps_copyOut | split

theorem keeps_execTraceSet {s₀ s₁ s₂ : State} (h₀ : Keeps s₀ s₁) (n : Sys2Proof.Mbox)
    (e₀ : (execTraceSet n s₁) = .next s₂) : Keeps s₀ s₂ := by
  refine keeps_msgRow h₀ _ _ _ _ ?_ e₀
  intro x m hx
  try dsimp only
  repeat' with_reducible first
    | intro _ | simp only [↓Keeps.upd_iff] | assumption | apply keeps_ite | apply keeps_foldNat
    | apply keeps_write1 | split

theorem keeps_execLogSuppressed {s₀ s₁ s₂ : State} (h₀ : Keeps s₀ s₁) (d : Sys2Proof.Die) (src : BitVec 8)
    (e₀ : (execLogSuppressed d src s₁) = .next s₂) : Keeps s₀ s₂ := by
  unfold execLogSuppressed at e₀
  injection e₀ with e₀
  subst e₀
  try dsimp only
  repeat' with_reducible first
    | intro _ | simp only [↓Keeps.upd_iff] | assumption | apply keeps_ite | apply keeps_logPut | apply keeps_setErr
    | split

/-! ### Updates -/

theorem keeps_execUpdateStage {s₀ s₁ s₂ : State} (h₀ : Keeps s₀ s₁) (n : Sys2Proof.Mbox)
    (e₀ : (execUpdateStage n s₁) = .next s₂) : Keeps s₀ s₂ := by
  refine keeps_msgRow h₀ _ _ _ _ ?_ e₀
  intro x m hx
  try dsimp only
  repeat' with_reducible first
    | intro _ | simp only [↓Keeps.upd_iff] | assumption | apply keeps_ite | apply keeps_touch
    | apply keeps_setUpdate | apply keeps_logAt | split

theorem keeps_execUpdateActivate {s₀ s₁ s₂ : State} (h₀ : Keeps s₀ s₁) (n : Sys2Proof.Mbox)
    (e₀ : (execUpdateActivate n s₁) = .next s₂) : Keeps s₀ s₂ := by
  unfold execUpdateActivate at e₀
  dsimp only at e₀
  split at e₀
  · next t ht =>
    have h₁ : Keeps s₀ t := by
      refine keeps_msgRow h₀ _ _ _ _ ?_ ht
      intro x m hx
      try dsimp only
      repeat' first
        | with_reducible assumption
        | with_reducible apply keeps_ite22
        | with_reducible apply keeps_logAt
        | with_reducible apply keeps_setUpdate
        | dsimp only
    injection e₀ with e₀
    subst e₀
    exact keeps_ite (keeps_beginUpdate h₁) h₁
  · next x hx => exact absurd e₀ (hx _)

theorem keeps_execUpdateCancel {s₀ s₁ s₂ : State} (h₀ : Keeps s₀ s₁) (n : Sys2Proof.Mbox)
    (e₀ : (execUpdateCancel n s₁) = .next s₂) : Keeps s₀ s₂ := by
  refine keeps_msgRow h₀ _ _ _ _ ?_ e₀
  intro x m hx
  try dsimp only
  repeat' with_reducible first
    | intro _ | simp only [↓Keeps.upd_iff] | assumption | apply keeps_ite | apply keeps_setUpdate | split

theorem keeps_execUpdateHoldExpire {s₀ s₁ s₂ : State} (h₀ : Keeps s₀ s₁) 
    (e₀ : (execUpdateHoldExpire s₁) = .next s₂) : Keeps s₀ s₂ := by
  unfold execUpdateHoldExpire at e₀
  injection e₀ with e₀
  subst e₀
  try dsimp only
  repeat' with_reducible first
    | intro _ | simp only [↓Keeps.upd_iff] | assumption | apply keeps_ite | apply keeps_beginUpdate | split

/-! ### Trust -/

theorem keeps_execOwnerKeyPut {s₀ s₁ s₂ : State} (h₀ : Keeps s₀ s₁) (n : Sys2Proof.Mbox)
    (e₀ : (execOwnerKeyPut n s₁) = .next s₂) : Keeps s₀ s₂ := by
  refine keeps_msgRow h₀ _ _ _ _ ?_ e₀
  intro x m hx
  try dsimp only
  repeat' with_reducible first
    | intro _ | simp only [↓Keeps.upd_iff] | assumption | apply keeps_ite | apply keeps_putOwnerKey | split

theorem keeps_execKeyLoad {s₀ s₁ s₂ : State} (h₀ : Keeps s₀ s₁) (n : Sys2Proof.Mbox)
    (e₀ : (execKeyLoad n s₁) = .next s₂) : Keeps s₀ s₂ := by
  refine keeps_msgRow h₀ _ _ _ _ ?_ e₀
  intro x m hx
  try dsimp only
  repeat' with_reducible first
    | intro _ | simp only [↓Keeps.upd_iff] | assumption | apply keeps_ite | apply keeps_zeroCounters | split

theorem keeps_execKeyClear {s₀ s₁ s₂ : State} (h₀ : Keeps s₀ s₁) (n : Sys2Proof.Mbox)
    (e₀ : (execKeyClear n s₁) = .next s₂) : Keeps s₀ s₂ := by
  refine keeps_msgRow h₀ _ _ _ _ ?_ e₀
  intro x m hx
  try dsimp only
  repeat' with_reducible first
    | intro _ | simp only [↓Keeps.upd_iff] | assumption | apply keeps_ite | split

theorem keeps_execGetIdentity {s₀ s₁ s₂ : State} (h₀ : Keeps s₀ s₁) (n : Sys2Proof.Mbox)
    (e₀ : (execGetIdentity n s₁) = .next s₂) : Keeps s₀ s₂ := by
  refine keeps_msgRow h₀ _ _ _ _ ?_ e₀
  intro x m hx
  try dsimp only
  repeat' with_reducible first
    | intro _ | simp only [↓Keeps.upd_iff] | assumption | apply keeps_ite
    | refine keeps_copyOut_eq ?_ _ _ (by assumption) | apply keeps_copyOut | split

theorem keeps_execAttest {s₀ s₁ s₂ : State} (h₀ : Keeps s₀ s₁) (n : Sys2Proof.Mbox)
    (e₀ : (execAttest n s₁) = .next s₂) : Keeps s₀ s₂ := by
  refine keeps_msgRow h₀ _ _ _ _ ?_ e₀
  intro x m hx
  try dsimp only
  repeat' with_reducible first
    | intro _ | simp only [↓Keeps.upd_iff] | assumption | apply keeps_ite
    | refine keeps_copyOut_eq ?_ _ _ (by assumption) | apply keeps_copyOut | split

/-! ### IO -/

theorem keeps_execEthTx {s₀ s₁ s₂ : State} (h₀ : Keeps s₀ s₁) (e : Sys2Proof.EthPort) (q : Fin 64)
    (e₀ : (execEthTx e q s₁) = .next s₂) : Keeps s₀ s₂ := by
  unfold execEthTx at e₀
  injection e₀ with e₀
  subst e₀
  try dsimp only
  repeat' with_reducible first
    | intro _ | simp only [↓Keeps.upd_iff] | assumption | apply keeps_ite | apply keeps_foldl
    | apply keeps_descRead | apply keeps_ioRefuse | apply keeps_setErr | apply keeps_touchAll | apply keeps_incF
    | apply keeps_send | apply keeps_descDone | apply keeps_setHead | split

theorem keeps_execEthRx {s₀ s₁ s₂ : State} (h₀ : Keeps s₀ s₁) (e : Sys2Proof.EthPort) (q : Fin 64) (f : Sys2Proof.RxFrame)
    (e₀ : (execEthRx e q f s₁) = .next s₂) : Keeps s₀ s₂ := by
  unfold execEthRx at e₀
  injection e₀ with e₀
  subst e₀
  try dsimp only
  repeat' with_reducible first
    | intro _ | simp only [↓Keeps.upd_iff] | assumption | apply keeps_ite | apply keeps_incF | apply keeps_ptpEvent
    | apply keeps_descRead | apply keeps_ioRefuse | apply keeps_setErr | apply keeps_took
    | refine keeps_ownWrite_eq ?_ _ _ (by assumption) | apply keeps_ownWrite | apply keeps_descDone
    | apply keeps_setHead | split

theorem keeps_execPpsPulse {s₀ s₁ s₂ : State} (h₀ : Keeps s₀ s₁) 
    (e₀ : (execPpsPulse s₁) = .next s₂) : Keeps s₀ s₂ := by
  unfold execPpsPulse at e₀
  injection e₀ with e₀
  subst e₀
  try dsimp only
  repeat' with_reducible first
    | intro _ | simp only [↓Keeps.upd_iff] | assumption | apply keeps_ite | apply keeps_send | split

theorem keeps_execEthLinkDown {s₀ s₁ s₂ : State} (h₀ : Keeps s₀ s₁) (e : Sys2Proof.EthPort)
    (e₀ : (execEthLinkDown e s₁) = .next s₂) : Keeps s₀ s₂ := by
  unfold execEthLinkDown at e₀
  injection e₀ with e₀
  subst e₀
  try dsimp only
  repeat' with_reducible first
    | intro _ | simp only [↓Keeps.upd_iff] | assumption | apply keeps_ite | apply keeps_setErr | apply keeps_wr
    | apply keeps_steer | split

theorem keeps_execEthLinkUp {s₀ s₁ s₂ : State} (h₀ : Keeps s₀ s₁) (e : Sys2Proof.EthPort)
    (e₀ : (execEthLinkUp e s₁) = .next s₂) : Keeps s₀ s₂ := by
  unfold execEthLinkUp at e₀
  injection e₀ with e₀
  subst e₀
  try dsimp only
  repeat' with_reducible first
    | intro _ | simp only [↓Keeps.upd_iff] | assumption | apply keeps_ite | apply keeps_wr | split

theorem keeps_execPcieLinkUp {s₀ s₁ s₂ : State} (h₀ : Keeps s₀ s₁) (rate : BitVec 2) (width : Nat) (flit : Bool)
    (e₀ : (execPcieLinkUp rate width flit s₁) = .next s₂) : Keeps s₀ s₂ := by
  unfold execPcieLinkUp at e₀
  injection e₀ with e₀
  subst e₀
  try dsimp only
  repeat' with_reducible first
    | intro _ | simp only [↓Keeps.upd_iff] | assumption | apply keeps_ite | apply keeps_wr | split

theorem keeps_execPcieLinkDown {s₀ s₁ s₂ : State} (h₀ : Keeps s₀ s₁) 
    (e₀ : (execPcieLinkDown s₁) = .next s₂) : Keeps s₀ s₂ := by
  unfold execPcieLinkDown at e₀
  injection e₀ with e₀
  subst e₀
  try dsimp only
  repeat' with_reducible first
    | intro _ | simp only [↓Keeps.upd_iff] | assumption | apply keeps_ite | apply keeps_wrF | split

theorem keeps_execPcieInbound {s₀ s₁ s₂ : State} (h₀ : Keeps s₀ s₁) (write : Bool) (addr : Nat) (len : Nat) (data : List Sys2Proof.Byte) (poisoned : Bool)
    (e₀ : (execPcieInbound write addr len data poisoned s₁) = .next s₂) : Keeps s₀ s₂ := by
  unfold execPcieInbound at e₀
  injection e₀ with e₀
  subst e₀
  try dsimp only
  repeat' with_reducible first
    | intro _ | simp only [↓Keeps.upd_iff] | assumption | apply keeps_ite | apply keeps_pcieRefuse
    | apply keeps_msiIn | refine keeps_ownWrite_eq ?_ _ _ (by assumption) | apply keeps_ownWrite
    | apply keeps_touch | apply keeps_send | split

theorem keeps_execPcieOutbound {s₀ s₁ s₂ : State} (h₀ : Keeps s₀ s₁) (addr : Nat) (len : Nat) (write : Bool) (data : List Sys2Proof.Byte)
    (e₀ : (execPcieOutbound addr len write data s₁) = .next s₂) : Keeps s₀ s₂ := by
  unfold execPcieOutbound at e₀
  injection e₀ with e₀
  subst e₀
  try dsimp only
  repeat' with_reducible first
    | intro _ | simp only [↓Keeps.upd_iff] | assumption | apply keeps_ite | apply keeps_send | split

theorem keeps_execCoreMachineCheck {s₀ s₁ s₂ : State} (h₀ : Keeps s₀ s₁) (d : Sys2Proof.Die) (c : Fin 9)
    (e₀ : (execCoreMachineCheck d c s₁) = .next s₂) : Keeps s₀ s₂ := by
  unfold execCoreMachineCheck at e₀
  injection e₀ with e₀
  subst e₀
  try dsimp only
  repeat' with_reducible first
    | intro _ | simp only [↓Keeps.upd_iff] | assumption | apply keeps_ite | apply keeps_incF | apply keeps_setErr
    | apply keeps_send | apply keeps_histEvent | split

theorem keeps_execSmbusBlockRead {s₀ s₁ s₂ : State} (h₀ : Keeps s₀ s₁) 
    (e₀ : (execSmbusBlockRead s₁) = .next s₂) : Keeps s₀ s₂ := by
  unfold execSmbusBlockRead at e₀
  injection e₀ with e₀
  subst e₀
  try dsimp only
  repeat' with_reducible first
    | intro _ | simp only [↓Keeps.upd_iff] | assumption | apply keeps_ite | apply keeps_send | split

/-! ### RegEffects -/

theorem keeps_execRegisterWrite {s₀ s₁ s₂ : State} (h₀ : Keeps s₀ s₁) (a : Sys2Proof.RegAddr) (reqs : List Sys2Proof.WriteReq)
    (e₀ : (execRegisterWrite a reqs s₁) = .next s₂) : Keeps s₀ s₂ := by
  unfold execRegisterWrite at e₀
  injection e₀ with e₀
  subst e₀
  try dsimp only
  repeat' with_reducible first
    | intro _ | simp only [↓Keeps.upd_iff] | assumption | apply keeps_ite | apply keeps_writeAll | split

theorem keeps_execSuDeliveryComplete {s₀ s₁ s₂ : State} (h₀ : Keeps s₀ s₁) (d : Sys2Proof.Die) (b : Sys2Proof.Bay) (sl : Sys2Proof.Slot)
    (e₀ : (execSuDeliveryComplete d b sl s₁) = .next s₂) : Keeps s₀ s₂ := by
  unfold execSuDeliveryComplete at e₀
  injection e₀ with e₀
  subst e₀
  try dsimp only
  repeat' with_reducible first
    | intro _ | simp only [↓Keeps.upd_iff] | assumption | apply keeps_ite | apply keeps_suDelivery
    | apply keeps_streamWrite | split

theorem keeps_execSlotPageFault {s₀ s₁ s₂ : State} (h₀ : Keeps s₀ s₁) (d : Sys2Proof.Die) (b : Sys2Proof.Bay) (sl : Sys2Proof.Slot) (f : Sys2Proof.PageFault)
    (e₀ : (execSlotPageFault d b sl f s₁) = .next s₂) : Keeps s₀ s₂ := by
  unfold execSlotPageFault at e₀
  injection e₀ with e₀
  subst e₀
  try dsimp only
  repeat' with_reducible first
    | intro _ | simp only [↓Keeps.upd_iff] | assumption | apply keeps_ite | apply keeps_slotPageFault
    | apply keeps_streamWrite | split

theorem keeps_execSwr {s₀ s₁ s₂ : State} (h₀ : Keeps s₀ s₁) (r : Sys2Proof.Req) (data : List Sys2Proof.Byte) (env : Sys2Proof.EccEnv)
    (e₀ : (execSwr r data env s₁) = .next s₂) : Keeps s₀ s₂ := by
  unfold execSwr at e₀
  injection e₀ with e₀
  subst e₀
  try dsimp only
  repeat' with_reducible first
    | intro _ | simp only [↓Keeps.upd_iff] | assumption | apply keeps_ite | apply keeps_atHome
    | apply keeps_badPacket | apply keeps_countPacket | apply keeps_regWriteReq | apply keeps_memWriteReq
    | apply keeps_spaceRefused | split

theorem keeps_execConfigWrite {s₀ s₁ s₂ : State} (h₀ : Keeps s₀ s₁) (n : Sys2Proof.Mbox)
    (e₀ : (execConfigWrite n s₁) = .next s₂) : Keeps s₀ s₂ := by
  refine keeps_msgRow h₀ _ _ _ _ ?_ e₀
  intro x m hx
  try dsimp only
  repeat' with_reducible first
    | intro _ | simp only [↓Keeps.upd_iff] | assumption | apply keeps_ite | apply keeps_logAt
    | apply keeps_writeAll | split

theorem keeps_execResetComplete {s₀ s₁ s₂ : State} (h₀ : Keeps s₀ s₁) (dom : Sys2Proof.Domain)
    (e₀ : (execResetComplete dom s₁) = .next s₂) : Keeps s₀ s₂ := by
  unfold execResetComplete at e₀
  injection e₀ with e₀
  subst e₀
  try dsimp only
  repeat' with_reducible first
    | intro _ | simp only [↓Keeps.upd_iff] | assumption | apply keeps_ite | apply keeps_wr | apply keeps_msiOut
    | apply keeps_replaysOut | apply keeps_heldOut | apply keeps_showReset | apply keeps_domainOut | split

end Sys2Proof.Machine
end

