-- ==== Sys2Proof/Laws/Fuses.lean ====
section
/-! SUPPORT. The five commands that blow fuses or accept a sequence number. -/

namespace Sys2Proof.Machine

/-! ### Fuses -/

/-- Every command leaves fuses that are blown blown, and the last accepted sequence at least what it was. -/
structure Grows (s t : State) : Prop where
  regs : Tab.wf regReset s.regs = true → Tab.wf regReset t.regs = true
  inForce : Tab.wf regReset s.inForce = true → Tab.wf regReset t.inForce = true
  mem : s.mem.wf = true → t.mem.wf = true
  staging : Tab.wf (fun _ => (0 : Byte)) s.staging = true → Tab.wf (fun _ => (0 : Byte)) t.staging = true
  fuses : s.sec.fuses.keeps t.sec.fuses
  seq : s.fw.lastSeq ≤ t.fw.lastSeq

theorem Keeps.grows {s t : State} (h : Keeps s t) : Grows s t :=
  ⟨h.regs, h.inForce, h.mem, h.staging, h.fuses, Nat.le_of_eq h.seq.symm⟩

theorem Grows.keeps {s u t : State} (h : Grows s u) (k : Keeps u t) : Grows s t :=
  ⟨k.regs ∘ h.regs, k.inForce ∘ h.inForce, k.mem ∘ h.mem, k.staging ∘ h.staging, Fuses.keeps_trans h.fuses k.fuses,
    by rw [k.seq]; exact h.seq⟩

theorem Keeps.then_grows {s u t : State} (h : Keeps s u) (k : Grows u t) : Grows s t :=
  ⟨k.regs ∘ h.regs, k.inForce ∘ h.inForce, k.mem ∘ h.mem, k.staging ∘ h.staging, Fuses.keeps_trans h.fuses k.fuses,
    by rw [← h.seq]; exact k.seq⟩

theorem grows_blow {s x : State} (hx : Keeps s x) {f : Fuses → Fuses} (hf : x.sec.fuses.keeps (f x.sec.fuses)) :
    Grows s (x.blow f) :=
  hx.then_grows <| (⟨id, id, id, id, hf, Nat.le_refl _⟩ : Grows x { x with sec := { x.sec with fuses := f x.sec.fuses } }).keeps
    (keeps_secCount (Keeps.refl _) _)

theorem grows_msgRow {s t : State} (n : Mbox) (svc type : Nat) (eff : State → Msg → Nat × List Byte × State)
    (he : ∀ x m, Keeps s x → Grows s (eff x m).2.2) (h : s.msgRow n svc type eff = .next t) : Grows s t := by
  unfold State.msgRow at h
  split at h
  · injection h with h; subst h; exact (Keeps.refl _).grows
  · split at h
    · injection h with h; subst h; exact (keeps_replyMsg (Keeps.refl _) _ _ _ _).grows
    · split at h
      · injection h with h; subst h; exact (keeps_oddReply (Keeps.refl _) _ _).grows
      · injection h with h; subst h
        exact (he _ _ (keeps_ite (keeps_took (Keeps.refl _) _) (Keeps.refl _))).keeps (keeps_replyMsg (Keeps.refl _) _ _ _ _)

theorem grows_blowRow {s x : State} (hx : Keeps s x) (m : Msg) (eff : State → Msg → Nat × List Byte × State)
    (he : Grows s (eff x m).2.2) : Grows s (x.blowRow m eff).2.2 := by
  unfold State.blowRow
  split
  · exact hx.grows
  · exact he

theorem grows_ite {s : State} {α β : Type} {a b : α × β × State} {c : Prop} [Decidable c] (h : Grows s a.2.2)
    (k : Grows s b.2.2) : Grows s (if c then a else b).2.2 := by split <;> assumption

theorem grows_execOwnerEnroll {s t : State} (n : Mbox) (h : execOwnerEnroll n s = .next t) : Grows s t := by
  unfold execOwnerEnroll at h
  refine grows_msgRow _ _ _ _ (fun x m hx => ?_) h
  with_reducible refine grows_blowRow hx _ _ ?_
  dsimp only
  with_reducible refine grows_ite hx.grows (grows_ite hx.grows ?_)
  dsimp only
  refine (grows_blow hx ?_).keeps (keeps_putOwnerKey (Keeps.refl _) _ _)
  simp [Fuses.keeps, and_or_self]

theorem grows_execOwnerRevoke {s t : State} (n : Mbox) (h : execOwnerRevoke n s = .next t) : Grows s t := by
  unfold execOwnerRevoke at h
  refine grows_msgRow _ _ _ _ (fun x m hx => ?_) h
  with_reducible refine grows_blowRow hx _ _ ?_
  dsimp only
  with_reducible refine grows_ite hx.grows (grows_ite hx.grows (grows_blow hx ?_))
  simp [Fuses.keeps, and_or_self]

theorem grows_execRollbackCommit {s t : State} (n : Mbox) (h : execRollbackCommit n s = .next t) : Grows s t := by
  unfold execRollbackCommit at h
  refine grows_msgRow _ _ _ _ (fun x m hx => ?_) h
  with_reducible refine grows_blowRow hx _ _ ?_
  dsimp only
  with_reducible refine grows_ite hx.grows (grows_blow hx ?_)
  simp [Fuses.keeps, and_or_self]

theorem grows_execProtRemove {s t : State} (n : Mbox) (h : execProtRemove n s = .next t) : Grows s t := by
  unfold execProtRemove at h
  refine grows_msgRow _ _ _ _ (fun x m hx => ?_) h
  with_reducible refine grows_blowRow hx _ _ ?_
  with_reducible refine grows_ite hx.grows (grows_blow hx ?_)
  refine ⟨by simp, by simp, by simp, fun pg => ?_⟩
  simp only [Tab.upd, Tab.get_set _ _ _ _ _ _ (fun _ => rfl)]
  split
  · next e => subst e; exact and_or_self _ _
  · simp

theorem grows_execSignedCommandReceive {s t : State} (msg : List Byte) (buf : Nat)
    (h : execSignedCommandReceive msg buf s = .next t) : Grows s t := by
  unfold execSignedCommandReceive at h
  injection h with h
  subst h
  split
  · exact (Keeps.refl _).grows
  · dsimp only
    split
    · exact (keeps_send (keeps_secCount (Keeps.refl _) _) _).grows
    · split
      · exact (keeps_send (keeps_secCount (Keeps.refl _) _) _).grows
      · next hs =>
        with_reducible refine Grows.keeps (u := { s with fw := { s.fw with
          lastSeq := Msg.seq ⟨s.device * 2 ^ 40 + buf % 2 ^ 38 / 256 * 256, ⟨.mgmt, BitVec.ofNat 32 (fieldAt msg 8 4), 0, false⟩, msg⟩ } }) ?_ ?_
        · exact ⟨id, id, id, id, Fuses.keeps_refl _, Nat.le_of_lt (Nat.lt_of_not_le hs)⟩
        · exact keeps_deliverSigned (Keeps.refl _) _ _

end Sys2Proof.Machine
end

