-- ==== Sys2Proof/Laws/Memory.lean ====
section
/-! SUPPORT. The memory keeps its canonical form (11 R245, R251): reset's memory has it, and every operation that writes
memory keeps it. -/

namespace Sys2Proof.Machine

theorem reset_mem_wf : State.reset.mem.wf = true := by decide

theorem memStore_keeps_wf {s : State} (h : s.mem.wf = true) (k : Nat) (xs : List Byte) : (s.memStore k xs).mem.wf = true :=
  (keeps_memStore (Keeps.refl s) k xs).mem h

theorem memWrite_keeps_wf {s : State} (h : s.mem.wf = true) (k : Nat) (xs : List Byte) : (s.memWrite k xs).1.mem.wf = true :=
  (keeps_memWrite (Keeps.refl s) k xs).mem h

theorem ownWrite_keeps_wf {s : State} (h : s.mem.wf = true) (k : Nat) (xs : List Byte) : (s.ownWrite k xs).1.mem.wf = true :=
  (keeps_ownWrite (Keeps.refl s) k xs).mem h

theorem partWrite_keeps_wf {s : State} (h : s.mem.wf = true) (a : Nat) (xs : List Byte) : (s.partWrite a xs).1.mem.wf = true :=
  (keeps_partWrite (Keeps.refl s) a xs).mem h

theorem scatter_keeps_wf {s : State} (h : s.mem.wf = true) (t : Tab Byte) : (s.scatter t).1.mem.wf = true :=
  (keeps_scatter (Keeps.refl s) t).mem h

theorem redArrive_keeps_wf {s : State} (h : s.mem.wf = true) (r : Req) (k : Nat) (f : RedFields) (xs : List Byte) :
    (s.redArrive r k f xs).mem.wf = true := (keeps_redArrive (Keeps.refl s) r k f xs).mem h

theorem upset_keeps_wf {s : State} (h : s.mem.wf = true) (x : LaneError) : (s.upset x).mem.wf = true :=
  (keeps_upset (Keeps.refl s) x).mem h

theorem checkRange_keeps_wf {s : State} (h : s.mem.wf = true) (k n : Nat) : (s.checkRange k n).mem.wf = true :=
  (keeps_checkRange (Keeps.refl s) k n).mem h

theorem foundBad_keeps_wf {s : State} (h : s.mem.wf = true) (secs : List Nat) (scrub : Bool) :
    (s.foundBad secs scrub).mem.wf = true := (keeps_foundBad (Keeps.refl s) secs scrub).mem h

theorem atomDo_keeps_wf {s : State} (h : s.mem.wf = true) (r : Req) (op : AtomOp) (size operand compare : Nat) :
    (s.atomDo r op size operand compare).mem.wf = true := (keeps_atomDo (Keeps.refl s) r op size operand compare).mem h

theorem saveBay_keeps_wf {s : State} (h : s.mem.wf = true) (d b : Nat) (forced : Bool) :
    (s.saveBay d b forced).mem.wf = true := (keeps_saveBay (Keeps.refl s) d b forced).mem h

end Sys2Proof.Machine
end

