-- ==== Sys2Proof/Laws/Registers.lean ====
section
/-! SUPPORT. Registers read after a write, said once: whole registers, fields, error bits, counters (05 R86, R90). -/

namespace Sys2Proof.Machine

/-! ### Bit fields -/

theorem testBit_bitsOf (v lo n j : Nat) : (bitsOf v lo n).testBit j = (decide (j < n) && v.testBit (lo + j)) := by
  simp only [bitsOf, Nat.testBit_mod_two_pow, Nat.testBit_div_two_pow]
  rw [Nat.add_comm]

theorem testBit_putBits (v lo n x j : Nat) :
    (putBits v lo n x).testBit j = if lo ≤ j ∧ j < lo + n then x.testBit (j - lo) else v.testBit j := by
  have h1 : v % 2 ^ lo < 2 ^ lo := Nat.mod_lt _ (Nat.two_pow_pos _)
  have h2 : x % 2 ^ n < 2 ^ n := Nat.mod_lt _ (Nat.two_pow_pos _)
  have e : putBits v lo n x = 2 ^ lo * (2 ^ n * (v / 2 ^ (lo + n)) + x % 2 ^ n) + v % 2 ^ lo := by
    simp only [putBits, Nat.pow_add]
    generalize v / (2 ^ lo * 2 ^ n) = q
    generalize v % 2 ^ lo = a
    generalize x % 2 ^ n = y
    rw [Nat.mul_add, Nat.mul_comm q, Nat.mul_comm y, Nat.mul_assoc]
    omega
  rw [e, Nat.testBit_two_pow_mul_add _ h1, Nat.testBit_two_pow_mul_add _ h2]
  by_cases a : j < lo
  · rw [if_pos a, if_neg (by omega), Nat.testBit_mod_two_pow]
    simp [a]
  · rw [if_neg a]
    by_cases b : j - lo < n
    · rw [if_pos b, if_pos (by omega), Nat.testBit_mod_two_pow]
      simp [b]
    · rw [if_neg b, if_neg (by omega), Nat.testBit_div_two_pow]
      congr 1
      omega

/-- A field reads what was put into it. -/
@[simp] theorem bitsOf_putBits (v lo n x : Nat) : bitsOf (putBits v lo n x) lo n = x % 2 ^ n := by
  apply Nat.eq_of_testBit_eq
  intro j
  rw [testBit_bitsOf, testBit_putBits, Nat.testBit_mod_two_pow]
  by_cases h : j < n
  · rw [if_pos (by omega)]
    simp
  · simp [h]

/-- A field that lies apart from the one that was put reads as before. -/
theorem bitsOf_putBits_other {lo' n' lo n : Nat} (v x : Nat) (h : lo' + n' ≤ lo ∨ lo + n ≤ lo') :
    bitsOf (putBits v lo n x) lo' n' = bitsOf v lo' n' := by
  apply Nat.eq_of_testBit_eq
  intro j
  rw [testBit_bitsOf, testBit_putBits, testBit_bitsOf]
  by_cases hj : j < n'
  · rw [if_neg (by omega)]
  · simp [hj]

theorem bitsOf_mod (v lo n w : Nat) (h : lo + n ≤ w) : bitsOf (v % 2 ^ w) lo n = bitsOf v lo n := by
  apply Nat.eq_of_testBit_eq
  intro j
  rw [testBit_bitsOf, testBit_bitsOf, Nat.testBit_mod_two_pow]
  by_cases hj : j < n
  · have : lo + j < w := by omega
    simp [this]
  · simp [hj]

/-! ### Whole registers -/

/-- Registers of different pages or offsets have different keys. -/
theorem rk_inj {d pg off d' pg' off' : Nat} (h1 : pg < 256) (h2 : off < 4096) (h3 : pg' < 256) (h4 : off' < 4096) :
    rk d pg off = rk d' pg' off' ↔ d = d' ∧ pg = pg' ∧ off = off' := by
  simp only [rk]
  omega

/-- A register reads what was stored; every other register reads as before. -/
theorem rd_wr (d pg off v d' pg' off' : Nat) (s : State) :
    (s.wr d pg off v).rd d' pg' off' = if rk d' pg' off' = rk d pg off then v % 2 ^ 64 else s.rd d' pg' off' := by
  simp only [State.rd, State.wr]
  rw [Tab.get_set _ _ _ _ _ _ (fun h => by rw [h])]
  split <;> simp_all [BitVec.toNat_ofNat]

@[simp] theorem rd_wr_same (d pg off v : Nat) (s : State) : (s.wr d pg off v).rd d pg off = v % 2 ^ 64 := by
  rw [rd_wr, if_pos rfl]

theorem rd_wr_other {d pg off d' pg' off' : Nat} (v : Nat) (s : State) (h : rk d' pg' off' ≠ rk d pg off) :
    (s.wr d pg off v).rd d' pg' off' = s.rd d' pg' off' := by
  rw [rd_wr, if_neg h]

theorem rd_lt (d pg off : Nat) (s : State) : s.rd d pg off < 2 ^ 64 := BitVec.isLt _

/-! ### Fields -/

theorem rd_wrF_other {d pg off d' pg' off' : Nat} (lo n v : Nat) (s : State) (h : rk d' pg' off' ≠ rk d pg off) :
    (s.wrF d pg off lo n v).rd d' pg' off' = s.rd d' pg' off' := rd_wr_other _ _ h

theorem rdF_wrF_same {lo n : Nat} (h : lo + n ≤ 64) (d pg off v : Nat) (s : State) :
    (s.wrF d pg off lo n v).rdF d pg off lo n = v % 2 ^ n := by
  simp only [State.rdF, State.wrF, rd_wr_same, bitsOf_mod _ _ _ _ h, bitsOf_putBits]

theorem rdF_wrF_apart {lo n lo' n' : Nat} (h : lo' + n' ≤ 64) (a : lo' + n' ≤ lo ∨ lo + n ≤ lo') (d pg off v : Nat)
    (s : State) : (s.wrF d pg off lo n v).rdF d pg off lo' n' = s.rdF d pg off lo' n' := by
  simp only [State.rdF, State.wrF, rd_wr_same, bitsOf_mod _ _ _ _ h, bitsOf_putBits_other _ _ a]

theorem rdF_wrF_other {d pg off d' pg' off' : Nat} (lo n v lo' n' : Nat) (s : State)
    (h : rk d' pg' off' ≠ rk d pg off) :
    (s.wrF d pg off lo n v).rdF d' pg' off' lo' n' = s.rdF d' pg' off' lo' n' := by
  simp only [State.rdF, rd_wrF_other _ _ _ _ h]

/-! ### Error bits, counts and what is sent -/

@[simp] theorem rd_send (d pg off : Nat) (s : State) (o : Out) : (s.send o).rd d pg off = s.rd d pg off := (rfl)
@[simp] theorem rd_took (d pg off n : Nat) (s : State) : (s.took n).rd d pg off = s.rd d pg off := (rfl)

theorem rd_satF_other {d pg off d' pg' off' : Nat} (lo n v : Nat) (s : State) (h : rk d' pg' off' ≠ rk d pg off) :
    (s.satF d pg off lo n v).rd d' pg' off' = s.rd d' pg' off' := rd_wr_other _ _ h

theorem rd_incF_other {d pg off d' pg' off' : Nat} (lo n v : Nat) (s : State) (h : rk d' pg' off' ≠ rk d pg off) :
    (s.incF d pg off lo n v).rd d' pg' off' = s.rd d' pg' off' := rd_wr_other _ _ h

/-- Setting an error bit writes ERR_STAT and ERR_COUNT of its page, and no other register. -/
theorem rd_setErr_other {d pg d' pg' off' : Nat} (bit : Nat) (s : State) (h : rk d' pg' off' ≠ rk d pg 0x030)
    (k : rk d' pg' off' ≠ rk d pg 0x040) : (s.setErr d pg bit).rd d' pg' off' = s.rd d' pg' off' := by
  simp only [State.setErr]
  split
  · rw [rd_satF_other _ _ _ _ k, rd_wrF_other _ _ _ _ h]
  · rw [rd_send, rd_satF_other _ _ _ _ k, rd_wrF_other _ _ _ _ h]

/-- The bit is set, and the other bits of ERR_STAT stay. -/
theorem rd_setErr (d pg bit : Nat) (s : State) :
    (s.setErr d pg bit).rd d pg 0x030 = putBits (s.rd d pg 0x030) bit 1 1 % 2 ^ 64 := by
  have k : rk d pg 0x030 ≠ rk d pg 0x040 := by simp only [rk]; omega
  simp only [State.setErr]
  split
  · rw [rd_satF_other _ _ _ _ k]
    exact rd_wr_same _ _ _ _ _
  · rw [rd_send, rd_satF_other _ _ _ _ k]
    exact rd_wr_same _ _ _ _ _

theorem rdF_setErr {bit : Nat} (h : bit < 64) (d pg : Nat) (s : State) :
    (s.setErr d pg bit).rdF d pg 0x030 bit 1 = 1 := by
  rw [State.rdF, rd_setErr, bitsOf_mod _ _ _ _ (show bit + 1 ≤ 64 from h)]
  exact bitsOf_putBits _ _ _ _

/-- Setting an error bit changes registers and what is sent, and nothing else. -/
theorem setErr_frame (d pg bit : Nat) (s : State) : { s.setErr d pg bit with regs := s.regs, sent := s.sent } = s := by
  obtain ⟨x, hx⟩ : ∃ x, (s.wrF d pg 0x030 bit 1 1).satF d pg 0x040 0 32 1 = { s with regs := x } := ⟨_, rfl⟩
  simp only [State.setErr, hx]
  split <;> rfl

/-- Storing a register changes the registers and nothing else. -/
theorem wr_frame (d pg off v : Nat) (s : State) : { s.wr d pg off v with regs := s.regs } = s := rfl

end Sys2Proof.Machine
end

