-- ==== Sys2Proof/Laws/Writes.lean ====
section
/-! SUPPORT. What becomes of one write that reaches a register, said once (05 R88 to R101). -/

namespace Sys2Proof.Machine

/-- The one write that `write1` brings to a register. -/
abbrev oneReq (w : Writer) (v : Nat) : WriteReq := ⟨w, BitVec.ofNat 64 v, 8⟩

theorem write1_fault {s : State} {d pg off : Nat} {w : Writer} {v : Nat} (h : accessOk d pg off (oneReq w v) = false) :
    s.write1 d pg off w v = ⟨s.accessFault d pg off (oneReq w v), none, false⟩ := by
  simp [State.write1, State.commit, h]

theorem write1_waits {s : State} {d pg off : Nat} {w : Writer} {v : Nat} (h : accessOk d pg off (oneReq w v) = true)
    (b : s.inReset d pg = true) :
    s.write1 d pg off w v = ⟨{ s with heldW := s.heldW ++ [(d, pg, off, [oneReq w v], s.now d)] }, none, false⟩ := by
  simp [State.write1, State.commit, h, b]

/-- A write that the protection table or the register's own rule refuses is recorded as DENIED and does nothing else. -/
theorem write1_denied {s : State} {d pg off : Nat} {w : Writer} {v : Nat} (h : accessOk d pg off (oneReq w v) = true)
    (b : s.inReset d pg = false) (m : s.mayWrite d pg off (oneReq w v) = false) :
    s.write1 d pg off w v = ⟨(s.setErr d pg 1).record d pg off (oneReq w v) .denied (s.view d pg off) (s.view d pg off)
      (s.detail d pg off), none, false⟩ := by
  simp [State.write1, State.commit, h, b, m, sortReqs, insertReq, State.denyAll]

/-- A write to a register without a writable field leaves everything as it is. -/
theorem write1_readonly {s : State} {d pg off : Nat} {w : Writer} {v : Nat} (h : accessOk d pg off (oneReq w v) = true)
    (b : s.inReset d pg = false) (m : s.mayWrite d pg off (oneReq w v) = true)
    (r : (regInfo d pg off).writable = false) : s.write1 d pg off w v = ⟨s, none, false⟩ := by
  simp [State.write1, State.commit, h, b, m, r, sortReqs, State.denyAll]

/-- A write that acts is stored, counted and recorded. -/
theorem write1_acts {s : State} {d pg off : Nat} {w : Writer} {v : Nat} (h : accessOk d pg off (oneReq w v) = true)
    (b : s.inReset d pg = false) (m : s.mayWrite d pg off (oneReq w v) = true)
    (r : (regInfo d pg off).writable = true) :
    s.write1 d pg off w v = ⟨s.winOne d pg off (s.view d pg off) (s.detail d pg off) (oneReq w v), some (oneReq w v),
      s.isHeld d pg off (oneReq w v).value.toNat⟩ := by
  simp [State.write1, State.commit, h, b, m, r, sortReqs, insertReq, State.denyAll, State.loseAll]

/-- A write that acted was a sound access, outside a reset, allowed, to a writable register. -/
theorem write1_win {s : State} {d pg off : Nat} {w : Writer} {v : Nat}
    (h : (s.write1 d pg off w v).win.isSome = true) :
    accessOk d pg off (oneReq w v) = true ∧ s.inReset d pg = false ∧ s.mayWrite d pg off (oneReq w v) = true ∧
      (regInfo d pg off).writable = true := by
  cases a : accessOk d pg off (oneReq w v) with
  | false => rw [write1_fault a] at h; simp at h
  | true =>
    cases b : s.inReset d pg with
    | true => rw [write1_waits a b] at h; simp at h
    | false =>
      cases m : s.mayWrite d pg off (oneReq w v) with
      | false => rw [write1_denied a b m] at h; simp at h
      | true =>
        cases r : (regInfo d pg off).writable with
        | false => rw [write1_readonly a b m r] at h; simp at h
        | true => exact ⟨rfl, rfl, rfl, rfl⟩

/-- The state that a write that acted leaves, before the command's own effect. -/
theorem write1_win_state {s : State} {d pg off : Nat} {w : Writer} {v : Nat}
    (h : (s.write1 d pg off w v).win.isSome = true) :
    (s.write1 d pg off w v).s = s.winOne d pg off (s.view d pg off) (s.detail d pg off) (oneReq w v) ∧
      (s.write1 d pg off w v).held = s.isHeld d pg off (oneReq w v).value.toNat := by
  obtain ⟨a, b, m, r⟩ := write1_win h
  rw [write1_acts a b m r]
  exact ⟨rfl, rfl⟩

/-! ### What the storing leaves -/

theorem rd_record (s : State) (d pg off : Nat) (r : WriteReq) (o : WOutcome) (old new det d' pg' off' : Nat) :
    (s.record d pg off r o old new det).rd d' pg' off' = s.rd d' pg' off' := by
  simp only [State.rd, State.record]

/-- The newest change record after a record is put. -/
theorem record_newest (s : State) (d pg off : Nat) (r : WriteReq) (o : WOutcome) (old new det : Nat) :
    (((s.record d pg off r o old new det).ringOf d).recs.head?.map (·.outcome)) = some o := by
  simp only [State.record, State.ringOf, Tab.get_set _ _ _ _ _ _ (fun _ => rfl), if_true]
  rfl

/-- A write that acts changes no register but its own, its page's LAST_WRITE registers and WRITE_SEQ, beyond what the
storing itself changes. -/
theorem rd_winOne {d pg off d' pg' off' : Nat} (s : State) (old det : Nat) (r : WriteReq)
    (h1 : rk d' pg' off' ≠ rk d pg 0x060) (h2 : rk d' pg' off' ≠ rk d pg 0x050) (h3 : rk d' pg' off' ≠ rk d pg 0x058) :
    (s.winOne d pg off old det r).rd d' pg' off' = (s.store d pg off r.value.toNat).rd d' pg' off' := by
  simp only [State.winOne]
  split
  · rfl
  · simp only [rd_record, State.lastWrite]
    rw [rd_wr_other _ _ h3, rd_wr_other _ _ h2, rd_incF_other _ _ _ _ h1]

/-- Registers whose storing is no more than the access types say. -/
theorem store_plain {d pg : Nat} {k : PageKind} (s : State) (off v : Nat) (hk : pageKind d pg = some k)
    (h : k ∉ [PageKind.stp, .mxe, .rtr, .eth, .mgt]) :
    s.store d pg off v = s.wr d pg off ((regInfo d pg off).after (s.rd d pg off) v) := by
  simp only [List.mem_cons, List.not_mem_nil, or_false, not_or] at h
  obtain ⟨h1, h2, h3, h4, h5⟩ := h
  have n : ethPage d pg = false := by simp [ethPage, hk, h4, h5]
  simp only [State.store, hk, n, Bool.false_and, Bool.false_eq_true, if_false]
  cases k <;> first | rfl | contradiction

end Sys2Proof.Machine
end

