-- ==== Sys2Proof/WellFormed.lean ====
section
/-! DEFINITION. Which commands are well formed: operands within the ranges that the spec's tables give, where their types
do not bound them already. A command out of range has the meaning its own rule gives it; nothing is refused for it. -/

namespace Sys2Proof

/-- Does the operand name a page that the die has (05 Table 5-1)? -/
def pageOk (d : Die) (pg : BitVec 8) : Bool := (Machine.pageKind d pg.toNat).isSome

/-- Operand sizes of Table 11-3. -/
def atomSize (n : Nat) : Bool := n = 4 || n = 8

/-- A data-class payload: 256 to 2,048 B in multiples of 256 B (14 R313). -/
def dataSize (n : Nat) : Bool := decide (256 ≤ n ∧ n ≤ 2048) && n % 256 = 0

/-- A data-class payload, on a confidential circuit with the 16 B of its tag (14 R313, R331). -/
def payloadSize (n : Nat) : Bool := dataSize n || (dataSize (n - 16) && decide (n ≤ 1808))

/-- Unit numbers of a kind (15 Table 15-5): 9 bays and 9 cores per die, 50 banks. -/
def unitOk (k : UnitKind) (ix : Nat) : Bool :=
  match k with
  | .bay | .core => decide (ix < 9)
  | .bank => decide (ix < 50)

/-- Ranks and devices of the Cue messages (16 Table 16-6). -/
def rankOk (n : Nat) : Bool := decide (n < 512)

/-- Is the command well formed? -/
def Instr.wellFormed (i : Instr) : Bool :=
  match i with
  | .blockEnable _ d pg | .blockDisable _ d pg | .openingComplete d pg | .closingComplete d pg | .hwHoldClear d pg
  | .clrCount _ d pg => pageOk d pg
  | .registerWrite _ reqs => !reqs.isEmpty
  | .srd _ len _ => decide (1 ≤ len ∧ len ≤ 256)
  | .swr _ data _ => decide (1 ≤ data.length ∧ data.length ≤ 256)
  | .rd _ _ len _ => dataSize len
  | .wr _ _ data _ | .mwr _ _ data _ | .red _ _ data _ => payloadSize data.length
  | .bell _ data => data.length = 16
  | .addI32 _ n _ _ | .addU64 _ n _ _ | .addF32 _ n _ _ | .addBf16 _ n _ _ | .minI32 _ n _ _ | .maxI32 _ n _ _
  | .minF32 _ n _ _ | .maxF32 _ n _ _ | .minU64 _ n _ _ | .maxU64 _ n _ _ | .swap _ n _ _ => atomSize n
  | .cas _ n _ _ _ => atomSize n
  | .auditionComplete k _ ix _ => unitOk k ix
  | .call _ rank holder buddy failed => rankOk rank && rankOk holder && rankOk buddy && rankOk failed
  | .ready _ dev rank _ => rankOk dev && rankOk rank
  | .callReadyTimeout rank => rankOk rank
  | .fences _ ds => ds.all rankOk
  | .powerLoopTick xs => xs.length = 4 && xs.all fun x => x.amps.length = 8
  | .linkSignalDetect _ lanes | .linkSignalLost _ lanes => decide (lanes ≤ 5)
  | .uncorrectableRestore _ n data => data.length = 64 * n
  | .signedCommandReceive msg _ => msg.length = 256
  | .ethRx _ _ f => decide (f.bytes.length ≤ 9216)
  | .pcieInbound write _ len data _ => if write then decide (data.length ≤ 512) else decide (len ≤ 4096)
  | .pcieLinkUp rate width _ => rate ≠ 0 && decide (1 ≤ width ∧ width ≤ 8)
  | _ => true

end Sys2Proof
end

