-- ==== Sys2Proof/Tests/Slice0.lean ====
section
/-! SUPPORT. The model's own tests: small states, an ill-formed command for each check of well-formedness, the spec's
worked examples, and for every hypothesis of every statement a concrete state and operands that meet it. -/

set_option Elab.async false

namespace Sys2Proof.Machine

/-! ### Small states -/

/-- A writer from inside the part, by origin SYS (test helper). -/
def sysW : Writer := ⟨.sys, 0, 0, false⟩
/-- A book with the default fields (test helper). -/
def testBook : Book := {}
/-- A writer by origin FW (test helper). -/
def fwW : Writer := ⟨.fw, 0, 0, false⟩
/-- A whole-device reset in progress (test helper). -/
def testRun : ResetRun := ⟨5, 0, 0, 1, false, 0⟩
/-- A part whose port CP0 is ACTIVE and carries the time (test helper). -/
def timedLink : State :=
  ({ State.reset with fabric := { State.reset.fabric with table := [{ sync := true }] } }).wrF 0 (pgCp 0) 0x028 0 3 3
/-- A part in a step that runs (test helper): a book with the given tiles, vector work and streams, every context
resident, STEP_STAT RUNNING, every engine of bay 0 ON. -/
def runS (bk : Book) : State :=
  ((((({ State.reset with
      books := { State.reset.books with active := some bk },
      ctx := { State.reset.ctx with
        bays := [(0, 1)], ctxs := [(0, { book := true })], resid := [(0, { res := 2 })] } }).wrF 0 pgStp 0x0B0 0 3 1).setBlkSt 0
    (pgMxe 0) 2).setBlkSt 0 (pgVxe 0) 2).setBlkSt 0 (pgSu 0) 2)
/-- The same part with one tile descriptor of the opcode at the head of bay 0's list (test helper). -/
def tileS (op : Nat) : State :=
  (runS { tiles := [{ opcode := op, cont := true }] }).setMxe 0 0 { work := [⟨false, 0⟩] }
/-- A gather submission of 4 rows for slot 0 (test helper). -/
def testSub : GatherSub := ⟨0, 4, 16, 0⟩
/-- A gather of rows of another part, while nothing may leave the part. -/
def farSub : GatherSub := ⟨0, 4, 16, 2 ^ 40⟩
def gatherTile : TileDesc := { opcode := 2, cont := true, aFmt := 3, k := 16 }
def farS : State := (((runS { tiles := [gatherTile] }).setMxe 0 0 { work := [⟨false, 0⟩] }).setGather 0 0 { closed := [[farSub]] }).wrF 0
  pgRtr 0x028 2 1 1
/-- A layer of BF16 (test helper). -/
def testLayer : Layer := { format := 3 }
/-- A part in a step whose bay 0 has the instruction of a command at PC: VFMT holds the code, VL 4, S the scalars (test
helper). -/
def vxeS (i : Instr) (fmt : Nat) (s : Tab (BitVec 64) := []) : State := (runS {}).setVxe 0 0
  { regs := { vfmt := fmt, vl := 4, s := s }, prog := some { insns := [BitVec.ofNat 32 ((encodeVxe i).getD 0)] } }
/-- The same in FP32, with VTID 5. -/
def vxeT (i : Instr) : State := (runS {}).setVxe 0 0
  { regs := { vfmt := 2, vl := 4, vtid := 5 }, prog := some { insns := [BitVec.ofNat 32 ((encodeVxe i).getD 0)] } }
/-- A stream of one RAW8 element from a region of the book into the staging of bay 0, and one that rearms it. -/
def testStream : StreamDesc := { region := 1, srcFmt := 14, dstFmt := 14, kind := 1, ring := 1, persist := true, dims := [(1, 1)] }
def testRearm : StreamDesc := { dir := 3 }
/-- A stream that is paired with a COMPANION in slot 1, the COMPANION, and one read at virtual addresses. -/
def testPair : StreamDesc := { testStream with paired := true }
def testMate : StreamDesc := { testStream with slot := 1, companion := true }
def testVirt : StreamDesc := { testStream with region := 0, kind := 0, ring := 0, persist := false }
/-- A part in a step with the streams of bay 0, slot 0 (test helper). -/
def streamS (l : List StreamDesc) (x : SuSlot) : State := ((runS { streams := l }).wr 0 (pgMxe 0) 0x080 32).setSlot 0 0 0 x
/-- A transfer of 8 bytes to this part (test helper). -/
def testSp : SpTransfer := { kind := .write, addr := 0, len := 8 }
/-- Requests of this part's cores to address 0, and of another part (test helpers). -/
def testReq : Req := { src := none, die := 0, track := 0, epoch := 0, ctx := 0, gen := 0, addr := 0, issue := 0, w := fwW }
def regReq : Req := { testReq with addr := 6 * 2 ^ 49 + 0x1080 }
theorem testReq_takes : State.reset.takes testReq :=
  ⟨by decide, by decide, by decide, fun _ => by decide, by decide, by simp [testReq], by decide⟩
theorem testReqS : State.reset.takes testReq true :=
  ⟨by decide, by decide, by decide, fun _ => by decide, by decide, by simp [testReq], by decide⟩
theorem regReq_takes : State.reset.takes regReq :=
  ⟨by decide, by decide, by decide, fun _ => by decide, by decide, by simp [testReq, regReq], by decide⟩
/-- A tracking entry of the vector engine of bay 0 at number 0 of die 0 (test helpers). -/
def testTrack : Track := { epoch := 0, ctx := 0, gen := 0, addr := 0, issued := 0, owner := .vxe 0 0, remote := true }
def trackS : State := State.reset.putTrack 0 0 testTrack
/-- The same owned by the core clusters' port. -/
def portTrack : Track := { testTrack with owner := .port (.cores 0) }
/-- A part with a context table, and context 1 in the given state (test helpers). -/
def defS (st : Nat) : State :=
  ({ State.reset with ctx := { State.reset.ctx with ctxs := [(1, { st := st })] } }).wr 0 pgApc 0x408 4096
/-- Bay 0 runs context 0, and context 1 waits for it. -/
def bayQS : State := { State.reset with ctx := { State.reset.ctx with
  ctxs := [(0, { st := 2, book := true }), (1, { st := 2, bayMask := 1 })],
  resid := [(0, { res := 2 }), (1, { res := 2, order := 1 })] } }.wr 0 (pgMxe 0) 0x080 32
/-- Context 1 is being evicted from die 0. -/
def evictS : State := { State.reset with ctx := { State.reset.ctx with
  ctxs := [(1, { st := 2 })], resid := [(1, { res := 3 })] } }
/-- A context table whose entry 1 is sound: ROOT 0x2000. -/
def defM : State := { defS 0 with mem := { State.reset.mem with bytes := [(4161, 0x20)] } }
/-- A part whose port CP0 is in a link state (test helper). -/
def linkIn (st : Nat) : State := State.reset.setLinkSt 0 st
/-- A flit with a number, a hello of another part, and a packet of another part's (test helpers). -/
def testFlit (seq : Nat) : Flit :=
  { ftype := 1, seq := BitVec.ofNat 12 seq, vc := 0, ack := 0, ackValid := false, credit := 0, creditVc := 0, creditValid := false }
def testHello : Hello := ⟨2, 2, 2, [1], 0, 0, 1, 0, 0⟩
def testPacket : Packet := { ptype := 0x03, control := true, req := { testReq with src := some 3, addr := 2 ^ 40 } }
def dataPacket : Packet := { ptype := 0x11, control := false, flow := 7, length := 256, req := { testReq with src := some 3 } }
/-- A part that forwards flow 7 from port 0 to port 1, and routes device 1 to port 2 in bank 0. -/
def routerS : State := { State.reset with
  routes := [(1, 34)], fabric := { State.reset.fabric with
    flows := [{ flow := 7, inPort := 0, outs := [(1, 0, 0)] }, { flow := 7, inPort := 20, outs := [(1, 0, 0)] }],
    sched := [{ flow := 7, port := 1, start := 0, count := 4 }] } }
/-- Rank 0, device 5, which another part leads, holds data-class injection (test helper). -/
def holdS : State := { State.reset with
  ident := (5, 0), leader := 1, cue := { State.reset.cue with ranks := [(0, 5), (1, 1)] },
  fabric := { State.reset.fabric with hold := true } }
/-- Rank 0 of two, device 5: it leads where `l` is 5, and rank 1 leads where `l` is 1 (test helpers). -/
def castS (l : Nat) : State := { State.reset with
  ident := (5, 0), leader := l, cue := { State.reset.cue with ranks := [(0, 5), (1, 1)] } }
def testVote : VoteBody := ⟨.certify, 0, 0, 0, 0, 0, none, none, 0⟩
def testPrep : PrepBody := ⟨.certify, 0, 0, 0, 0, 0, 0, 0, 0, 0⟩
def testPlan : CuePlan := { body := testPrep }
def testHdr (rank : Nat) : CueHdr := { attempt := 0, rank := rank, step := 0 }
/-- A chain of bay 0 under check (test helper). -/
def testJob : DupJob := { ref := ⟨false, 0⟩, tileId := 0, lbay := 0, pdie := 0, pbay := 0, cdie := 0, closed := true }
def dupS (op : Nat) (j : DupJob) : State := { tileS op with dup := { State.reset.dup with jobs := [j] } }
/-- The witness of an empty tile, and chains whose primary drained with it and with another (test helpers). -/
def checkWit : Nat := ((tileS 1).checkRun testJob { opcode := 1, cont := true } []).witness
def checkJob : DupJob := { testJob with copied := true, running := true, prim := some ⟨checkWit, []⟩ }
def badJob : DupJob := { testJob with copied := true, running := true, prim := some ⟨checkWit + 1, []⟩ }
/-- An export and a restore whose last unit is done, and a bay under a replay trial (test helpers). -/
def doneRun (e : Bool) : State := { State.reset with ckpt := { State.reset.ckpt with run := some { exporting := e, pos := 2 ^ 30 } } }
def staged : State := { State.reset with books := { State.reset.books with staged := some {} } }
def testReplay : Replay := { die := 0, bay := 0, left := [], all := 1 }
/-- The time stands at 2^40, and bay 0 has made no progress since 0 (test helper). -/
def hangS (fired : Tab Nat) : State := { ((tileS 1).wr 0 (pgMxe 0) 0x080 32).wr 0 pgTim 0x080 (2 ^ 40) with
  hang := { State.reset.hang with counts := [(0, 0)], fired := fired } }
/-- A reset of a domain that was requested at 0, and the time stands at 2^40 (test helper). -/
def lateS (r : ResetRun) : State := ({ State.reset with resets := { State.reset.resets with runs := [r] } }).wr 0 pgTim 0x080 (2 ^ 40)
def trialS : State := { State.reset with hang := { State.reset.hang with replays := [{ testReplay with trial := some 1 }] } }
/-- A part whose mailbox `n` processes one message of the type, with the origin and the body given (test helpers). -/
def testMsg (n type : Nat) (o : Origin) (body : List Byte) : Msg :=
  ⟨0, ⟨o, 0, 0, false⟩, msgBytes 0 type State.reset.fwApi body.length 0 0 n body⟩
def msgS (n type : Nat) (o : Origin) (body : List Byte) : State :=
  let s := ((State.reset.wrF 0 pgMbx 0x100 (2 * n) 2 1).setComp 0 4 1).setComp 0 5 1 |>.setComp 0 6 1
  { s with fw := { s.fw with cur := [(n, testMsg n type o body)] } }
/-- A capture of die 0, and the body of a key load of fabric slot 0 (test helpers). -/
def testCap : Capture := ⟨0, 0, 0, 0, 1, 0, 0, 1, 0, 0, 0, []⟩
def testKey : List Byte := [0, 0, 113, 0] ++ List.replicate 113 0
/-- A part whose port ETH of die 0 is up, with one queue of key `k` whose descriptor at address 0 has the flags; the same
with a buffer of another part; and a part whose PCIe link is up with one window of 4 KiB (test helpers). -/
def ethS (k fl : Nat) : State :=
  let s := State.reset.wr 0 pgEth 0x088 3
  { s with io := { s.io with queues := [(k, { enable := true, tail := 1 })] }, mem := { s.mem with bytes := [(10, BitVec.ofNat 8 fl)] } }
def badBufS : State := { ethS 0 3 with mem := { State.reset.mem with bytes := [(5, 1), (10, 3)] } }
def pcieS : State := (State.reset.wr 1 pgPcie 0x080 1).wr 1 pgPcie 0x0A0 1
/-- A message of the type under API `api`, and a part whose mailbox 0 processes it under API minor 1 (test helpers). -/
def apiMsg (type api : Nat) : Msg := ⟨0, ⟨.sys, 0, 0, false⟩, msgBytes 0 type api 0 0 0 0 []⟩
def apiS (type : Nat) : State :=
  let s := msgS 0 type .sys []
  { s with fw := { s.fw with cur := [(0, apiMsg type 1)] } }
/-- An address above 48 bits never translates (12 R284, KIND 6). -/
theorem translate_high {s : State} {d id va : Nat} (w : Bool) (h1 : s.xlatOf d id va = none) (h2 : 2 ^ 48 ≤ va) :
    (s.translate d id va w).2 = none := by
  have h3 : 281474976710656 ≤ va := by omega
  simp [State.translate, h1, State.walkVa, h3]
/-- A stream at virtual addresses that never translate, and a slot that fetches its delivery again (test helpers). -/
def testHigh : StreamDesc := { testVirt with base := 2 ^ 48 }
def againSlot : SuSlot := { st := .waiting, taken := 1, nDone := 1, nIss := 1, refetch := true, base := 2 ^ 48, desc := some (0, testHigh) }
def againS : State := streamS [testHigh] againSlot
theorem againS_miss : againS.againMiss 0 0 0 testHigh = some (0, againSlot, []) := by
  have e : againS.slotOf 0 0 0 = againSlot := by decide +kernel
  have e1 : positions againSlot.nRel againSlot.nDone = [0] := by decide
  have e2 : againSlot.inArming testHigh 0 = againSlot := by decide
  have e3 : againS.companionOf 0 0 0 testHigh = none := by decide +kernel
  have e4 : (againS.spansAt againSlot testHigh none (positions ((0 - againSlot.k0) * testHigh.perDelivery)
      ((0 - againSlot.k0) * testHigh.perDelivery + testHigh.perDelivery))).pages testHigh none = [2 ^ 36] := by decide +kernel
  have e5 : (againS.translateAll 0 (againS.bayCtx 0 0) false [2 ^ 36]).2 = [] := by
    simp only [State.translateAll, List.foldl_cons, List.foldl_nil]
    rw [translate_high _ (by decide +kernel) (by decide)]
  simp only [State.againMiss, e, e1, List.findSome?_cons, e2, e3, Option.map_none, e4, e5]
  decide
/-- A part whose flow 9 arrives on a confidential circuit of whose key slot no key is loaded (test helper). -/
def confS : State := { trackS with fabric := { trackS.fabric with flows := [{ flow := 9, conf := true, outs := [(20, 0, 0)] }] } }

/-! ### Ill-formed commands: one term for each check -/

theorem test_absent_page_ill_formed : Instr.wellFormed (.blockEnable sysW 1 0x08) = false := by decide
theorem test_absent_page_clear_ill_formed : Instr.wellFormed (.clrCount sysW 0 0xFF) = false := by decide
theorem test_no_write_ill_formed : Instr.wellFormed (.registerWrite ⟨0, 0⟩ []) = false := by decide
theorem test_read_of_nothing_ill_formed : Instr.wellFormed (.srd testReq 0 {}) = false := by decide
theorem test_write_of_nothing_ill_formed : Instr.wellFormed (.swr testReq [] {}) = false := by decide
theorem test_data_read_size_ill_formed : Instr.wellFormed (.rd testReq { flow := none } 257 {}) = false := by decide
theorem test_data_write_size_ill_formed : Instr.wellFormed (.wr testReq { flow := none } [1] {}) = false := by decide
theorem test_bell_size_ill_formed : Instr.wellFormed (.bell testReq [1]) = false := by decide
theorem test_atomic_size_ill_formed : Instr.wellFormed (.addI32 testReq 2 0 {}) = false := by decide
theorem test_compare_size_ill_formed : Instr.wellFormed (.cas testReq 16 0 0 {}) = false := by decide
theorem test_unit_number_ill_formed : Instr.wellFormed (.auditionComplete .bay 0 9 true) = false := by decide
theorem test_call_rank_ill_formed : Instr.wellFormed (.call (testHdr 0) 512 0 0 0) = false := by decide
theorem test_ready_rank_ill_formed : Instr.wellFormed (.ready (testHdr 0) 0 512 0) = false := by decide
theorem test_timeout_rank_ill_formed : Instr.wellFormed (.callReadyTimeout 512) = false := by decide
theorem test_fences_ill_formed : Instr.wellFormed (.fences (testHdr 0) [512]) = false := by decide
theorem test_loop_readings_ill_formed : Instr.wellFormed (.powerLoopTick []) = false := by decide
theorem test_lanes_ill_formed : Instr.wellFormed (.linkSignalDetect 0 6) = false := by decide
theorem test_restore_data_ill_formed : Instr.wellFormed (.uncorrectableRestore 0 1 []) = false := by decide
theorem test_signed_length_ill_formed : Instr.wellFormed (.signedCommandReceive [] 0) = false := by decide
theorem test_frame_length_ill_formed :
    Instr.wellFormed (.ethRx .mgt 0 { bytes := List.replicate 9217 0 }) = false := by decide +kernel
theorem test_pcie_read_length_ill_formed : Instr.wellFormed (.pcieInbound false 0 4097 [] false) = false := by decide
theorem test_pcie_width_ill_formed : Instr.wellFormed (.pcieLinkUp 1 9 true) = false := by decide
theorem test_well_formed : Instr.wellFormed (.addU64 testReq 8 1 {}) = true := by decide

/-! ### Worked examples of the spec -/

/-- 15 R335: the CRC-64 of the string "123456789". -/
theorem test_crc64 : crc64 [0x31, 0x32, 0x33, 0x34, 0x35, 0x36, 0x37, 0x38, 0x39] = 0x6C40DF5F0B497347 := by decide +kernel
/-- 07, one element through the drain: RNE, and SR with two values of the random bits. -/
theorem test_drain_rne :
    (convert .e4m3 .rne (-2) false ((FpFmt.mk 8 23 127 .ieee).decode 0x40533333)).enc = 0x55 := by decide +kernel
theorem test_drain_sr_up :
    (convert .e4m3 (.sr 0xD1A3) (-2) false ((FpFmt.mk 8 23 127 .ieee).decode 0x40533333)).enc = 0x56 := by decide +kernel
theorem test_drain_sr_down :
    (convert .e4m3 (.sr 0x1234) (-2) false ((FpFmt.mk 8 23 127 .ieee).decode 0x40533333)).enc = 0x55 := by decide +kernel
/-- 07, packing. -/
theorem test_pack_e3m2 : packRow .e3m2 [0x0C, 0x28, 0x1F, 0x01] = [0x0C, 0xFA, 0x05] := by decide +kernel
theorem test_pack_e2m1 : packRow .e2m1 [0x7, 0x9] = [0x97] := by decide +kernel
/-- 06, one chain against split K: 2^24 + 1 ties to the even 2^24. -/
theorem test_chain_tie : (fpAdd ⟨8, 23, 127, .ieee⟩ .rne false 0x4B800000 0x3F800000).enc = 0x4B800000 := by decide +kernel
/-- 09, tree against sequence: the tree over 2^24, 1, 1, 1, 1 gives 2^24 + 4. -/
theorem test_tree_sum : (redTree (fun x y => fpAdd ⟨8, 23, 127, .ieee⟩ .rne false x y) 12
    [0x4B800000, 0x3F800000, 0x3F800000, 0x3F800000, 0x3F800000, 0x80000000, 0x80000000, 0x80000000] 0).1 =
      0x4B800002 := by decide +kernel
/-- 08, a running scale through an outlier: SCALE is 0x79 at an amax of 3.3, 0x7C after the outlier, 0x79 again when
it leaves the history. -/
def runRec (h : Nat) (clean : Nat) (l : List Nat) : ScaleRec := ⟨0x44, 5, h, 1, 0x79, 16, clean, 0, 8199, l⟩
theorem test_scale_outlier :
    ((runRec 1 9 (List.replicate 16 0x40533333)).update 0x41100000 true 0 8200).scale = 0x7C := by decide +kernel
theorem test_scale_back : ((runRec 2 15 (List.replicate 15 0x40533333 ++ [0x41100000])).update 0x404CCCCD false 0
    8216).scale = 0x79 := by decide +kernel
/-- 08, one FP4 block. -/
theorem test_fp4_block : (select 9 0 0 (fmaxOf .e2m1 true), select 18 (-1) 0 (3, 1)) = (128, 128) := by decide +kernel
/-- 11, one hashed address. -/
theorem test_hashed_address : placeOf 0x0ABCDE40 = ⟨1, 54, 938304⟩ := by decide +kernel
theorem test_hashed_next : (placeOf 0x0ABCDF40).pc = 55 := by decide +kernel
theorem test_hashed_far : placeOf 0x0ABD1E40 = ⟨2, 54, 938304⟩ := by decide +kernel
/-- 07 Table 7-5: overflow of E4M3 saturates, that of E5M2 rounds to infinity. -/
theorem test_saturates : (convert .e4m3 .rne 0 false (.fin false 449 1)).enc = 0x7E := by decide +kernel
theorem test_overflows : (convert .e5m2 .rne 0 false (.fin true 65536 1)).enc = 0xFC := by decide +kernel
/-- 07 R141: a zero sum is +0 but for rounding toward negative. -/
theorem test_zero_sum : ((fpAdd ⟨8, 23, 127, .ieee⟩ .rne true 0x3F800000 0x3F800000).enc,
    (fpAdd ⟨8, 23, 127, .ieee⟩ .rdn true 0x3F800000 0x3F800000).enc) = (0, 0x80000000) := by decide +kernel

/-! ### Commands -/

/-- 02 R45. -/
theorem test_start_begins : (match exec (.loadStart sysW) State.reset with
    | .next t => t.books.loading.isSome | _ => false) = true := by decide +kernel
/-- 05 R92: SYS may not write the operating points. -/
theorem test_denied : (State.reset.write1 0 pgPwr 0x080 sysW 1).win = none := by decide +kernel
/-- 09 R183, R187: an ADD writes the active elements only. -/
theorem test_vxe_idle_element : (match vElementwise { vl := 1, vfmt := 2 } { vd := 1, vs1 := 0, vs2 := 0 } .fp32
    fun _ _ => { enc := 7 } with
    | .ok r => (vElem .fp32 (r.vreg 1) 0, vElem .fp32 (r.vreg 1) 1) | _ => (0, 0)) = (7, 0) := by decide +kernel
/-- 11 R255: ADD_U64 wraps modulo 2^64. -/
theorem test_add_u64 : AtomOp.addU64.apply 8 (2 ^ 64 - 1) 3 0 = 2 := by decide
/-- 11 R255: a misaligned atomic writes nothing. -/
theorem test_add_misaligned : (match exec (.addU64 { testReq with addr := 4, w := sysW } 8 1 {}) State.reset with
    | .next t => t.mem.bytes | _ => [(0, 1)]) = [] := by decide +kernel
/-- 19 R403: OP6 is 1,500 MHz. -/
theorem test_op6 : State.reset.rdF 0 pgPwr 0x0B0 0 11 = 1500 := by decide
/-- 21 R441: a revoked slot is not usable, another filled one is. -/
theorem test_revoke : ([0, 1, 2].map ({ State.reset.sec.fuses with ownerValid := 5, ownerRevoke := 4 } : Fuses).usable) =
    [true, false, false] := by decide +kernel
/-- An empty queue idles for a nanosecond (entry 2). -/
theorem test_idle : (match step State.reset with | .next t => t.now 3 | _ => 0) = 1 := by decide +kernel

/-! ### Sizes, the check code, estimates and time -/
theorem test_multicast_size_ill_formed : Instr.wellFormed (.mwr testReq { flow := none } [1] {}) = false := by decide
theorem test_reduce_size_ill_formed : Instr.wellFormed (.red testReq ⟨{ flow := none }, 0, 1, 0⟩ [1] {}) = false := by decide
/-- A payload of 256 B with its tag of 16 B (14 R331). -/
theorem test_tagged_payload_well_formed :
    Instr.wellFormed (.wr testReq { flow := some 1 } (List.replicate 272 0) {}) = true := by decide +kernel
theorem test_rail_currents_ill_formed : Instr.wellFormed (.powerLoopTick (List.replicate 4 ⟨0, 0, true, 48000, []⟩)) = false := by decide
/-- A received word of 76 symbols: the codeword of sector 5 with the 64 bytes 7, and errors in some symbols (11 R265, R266). -/
def testWord (errs : List (Nat × Nat)) : List Nat :=
  let data : List Byte := List.replicate 64 7
  let w := rsMessage 5 data ++ rsCheck 5 data
  (List.range 76).map fun i => w.getD i 0 ^^^ ((errs.filter (·.1 = i)).map (·.2)).sum
theorem test_rs_clean : rsDecode (testWord []) = .clean := by decide +kernel
theorem test_rs_one : rsDecode (testWord [(20, 0xA5)]) = .fixed [(20, 0xA5)] := by decide +kernel
theorem test_rs_three : rsDecode (testWord [(20, 1), (40, 2), (60, 3)]) = .bad := by decide +kernel
/-- 07 R144: the estimate of 1/2^127 is subnormal in FP32. -/
theorem test_rece_subnormal : (fpRece ⟨8, 23, 127, .ieee⟩ 0x7F000000).enc = 0x00400000 := by decide +kernel
/-- 04, the worked example of one exchange: the offset is 11 ns. -/
theorem test_time_offset : timeOffset 5000000000 5000000133 5000000400 5000000511 0 = 11 := by decide

/-! ### Witnesses of the statements' hypotheses -/

theorem witness_StepRunsTheFrontCommand_0 : ∃ s : State, s.pending = [] :=
  ⟨State.reset, rfl⟩
theorem witness_EveryStepKeepsTheTablesCanonical_0 : ∃ s t : State, s.canonical ∧ step s = .next t :=
  ⟨State.reset, _, ⟨by decide +kernel, by decide +kernel, by decide +kernel, by decide +kernel⟩, rfl⟩
theorem witness_BlownFusesAndAcceptedSequencesStay_0 : ∃ s t : State, step s = .next t :=
  ⟨State.reset, _, rfl⟩
theorem witness_StartDuringValidationIsBusy_0 : ∃ (w : Writer) (b : List Byte) (c : Committed) (s : State), c = s.write1 0 pgStp 0x090 w 1 ∧ c.win.isSome = true ∧ c.s.books.loading = some b :=
  ⟨sysW, [], _, { State.reset with books := { State.reset.books with loading := some [] } }, rfl, by decide +kernel, by decide +kernel⟩
theorem witness_OtherApiVersions_0 : ∃ (n : Mbox) (m : Msg) (s : State), s.msgIn n.val 4 0x0001 = some m ∧ fieldAt m.bytes 0 1 = 1 ∧ kindAt n.val 0x0001 ≠ none ∧ (m.w.origin = .sys ∨ m.w.origin = .mgmt) ∧ m.len = 0 :=
  ⟨0, testMsg 0 1 .sys [], msgS 0 1 .sys [], by decide +kernel, by decide +kernel, by decide, by decide, by decide +kernel⟩
theorem witness_OtherApiVersions_1 : ∃ (n : Mbox) (m : Msg) (s : State), fieldAt m.bytes 0 1 = 1 ∧ kindAt n.val m.type ≠ none ∧ m.type ≠ 0x0001 ∧ m.api / 256 ≠ s.fwApi / 256 :=
  ⟨0, apiMsg 5 256, State.reset, by decide +kernel, by decide +kernel, by decide +kernel, by decide +kernel⟩
theorem witness_OtherApiVersions_2 : ∃ (n : Mbox) (m : Msg) (s : State), m.type ≠ 0x0001 ∧ m.api / 256 = s.fwApi / 256 ∧ m.api ≠ s.fwApi ∧ s.msgIn n.val 4 0x0002 = some m :=
  ⟨0, apiMsg 0x0002 1, apiS 0x0002, by decide +kernel, by decide +kernel, by decide +kernel, by decide +kernel⟩
theorem witness_OtherApiVersions_3 : ∃ (n : Mbox) (m : Msg) (s : State), m.type ≠ 0x0001 ∧ m.api / 256 = s.fwApi / 256 ∧ m.api ≠ s.fwApi ∧ s.msgIn n.val 4 0x0003 = some m :=
  ⟨0, apiMsg 0x0003 1, apiS 0x0003, by decide +kernel, by decide +kernel, by decide +kernel, by decide +kernel⟩
theorem witness_OtherApiVersions_4 : ∃ (n : Mbox) (m : Msg) (s : State), m.type ≠ 0x0001 ∧ m.api / 256 = s.fwApi / 256 ∧ m.api ≠ s.fwApi ∧ s.msgIn n.val 4 0x0004 = some m :=
  ⟨0, apiMsg 0x0004 1, apiS 0x0004, by decide +kernel, by decide +kernel, by decide +kernel, by decide +kernel⟩
theorem witness_OtherApiVersions_5 : ∃ (n : Mbox) (m : Msg) (s : State), m.type ≠ 0x0001 ∧ m.api / 256 = s.fwApi / 256 ∧ m.api ≠ s.fwApi ∧ s.msgIn n.val 4 0x0005 = some m :=
  ⟨0, apiMsg 0x0005 1, apiS 0x0005, by decide +kernel, by decide +kernel, by decide +kernel, by decide +kernel⟩
theorem witness_OtherApiVersions_6 : ∃ (n : Mbox) (m : Msg) (s : State), m.type ≠ 0x0001 ∧ m.api / 256 = s.fwApi / 256 ∧ m.api ≠ s.fwApi ∧ s.msgIn n.val 5 0x0010 = some m :=
  ⟨0, apiMsg 0x0010 1, apiS 0x0010, by decide +kernel, by decide +kernel, by decide +kernel, by decide +kernel⟩
theorem witness_OtherApiVersions_7 : ∃ (n : Mbox) (m : Msg) (s : State), m.type ≠ 0x0001 ∧ m.api / 256 = s.fwApi / 256 ∧ m.api ≠ s.fwApi ∧ s.msgIn n.val 5 0x0011 = some m :=
  ⟨0, apiMsg 0x0011 1, apiS 0x0011, by decide +kernel, by decide +kernel, by decide +kernel, by decide +kernel⟩
theorem witness_OtherApiVersions_8 : ∃ (n : Mbox) (m : Msg) (s : State), m.type ≠ 0x0001 ∧ m.api / 256 = s.fwApi / 256 ∧ m.api ≠ s.fwApi ∧ s.msgIn n.val 5 0x0012 = some m :=
  ⟨0, apiMsg 0x0012 1, apiS 0x0012, by decide +kernel, by decide +kernel, by decide +kernel, by decide +kernel⟩
theorem witness_OtherApiVersions_9 : ∃ (n : Mbox) (m : Msg) (s : State), m.type ≠ 0x0001 ∧ m.api / 256 = s.fwApi / 256 ∧ m.api ≠ s.fwApi ∧ s.msgIn n.val 5 0x0013 = some m :=
  ⟨0, apiMsg 0x0013 1, apiS 0x0013, by decide +kernel, by decide +kernel, by decide +kernel, by decide +kernel⟩
theorem witness_OtherApiVersions_10 : ∃ (n : Mbox) (m : Msg) (s : State), m.type ≠ 0x0001 ∧ m.api / 256 = s.fwApi / 256 ∧ m.api ≠ s.fwApi ∧ s.msgIn n.val 5 0x0015 = some m :=
  ⟨0, apiMsg 0x0015 1, apiS 0x0015, by decide +kernel, by decide +kernel, by decide +kernel, by decide +kernel⟩
theorem witness_OtherApiVersions_11 : ∃ (n : Mbox) (m : Msg) (s : State), m.type ≠ 0x0001 ∧ m.api / 256 = s.fwApi / 256 ∧ m.api ≠ s.fwApi ∧ s.msgIn n.val 4 0x0016 = some m :=
  ⟨0, apiMsg 0x0016 1, apiS 0x0016, by decide +kernel, by decide +kernel, by decide +kernel, by decide +kernel⟩
theorem witness_OtherApiVersions_12 : ∃ (n : Mbox) (m : Msg) (s : State), m.type ≠ 0x0001 ∧ m.api / 256 = s.fwApi / 256 ∧ m.api ≠ s.fwApi ∧ s.msgIn n.val 6 0x0020 = some m :=
  ⟨0, apiMsg 0x0020 1, apiS 0x0020, by decide +kernel, by decide +kernel, by decide +kernel, by decide +kernel⟩
theorem witness_OtherApiVersions_13 : ∃ (n : Mbox) (m : Msg) (s : State), m.type ≠ 0x0001 ∧ m.api / 256 = s.fwApi / 256 ∧ m.api ≠ s.fwApi ∧ s.msgIn n.val 6 0x0021 = some m :=
  ⟨0, apiMsg 0x0021 1, apiS 0x0021, by decide +kernel, by decide +kernel, by decide +kernel, by decide +kernel⟩
theorem witness_OtherApiVersions_14 : ∃ (n : Mbox) (m : Msg) (s : State), m.type ≠ 0x0001 ∧ m.api / 256 = s.fwApi / 256 ∧ m.api ≠ s.fwApi ∧ s.msgIn n.val 6 0x0022 = some m :=
  ⟨0, apiMsg 0x0022 1, apiS 0x0022, by decide +kernel, by decide +kernel, by decide +kernel, by decide +kernel⟩
theorem witness_OtherApiVersions_15 : ∃ (n : Mbox) (m : Msg) (s : State), m.type ≠ 0x0001 ∧ m.api / 256 = s.fwApi / 256 ∧ m.api ≠ s.fwApi ∧ s.msgIn n.val 4 0x0101 = some m :=
  ⟨0, apiMsg 0x0101 1, apiS 0x0101, by decide +kernel, by decide +kernel, by decide +kernel, by decide +kernel⟩
theorem witness_OtherApiVersions_16 : ∃ (n : Mbox) (m : Msg) (s : State), m.type ≠ 0x0001 ∧ m.api / 256 = s.fwApi / 256 ∧ m.api ≠ s.fwApi ∧ s.msgIn n.val 4 0x0102 = some m :=
  ⟨0, apiMsg 0x0102 1, apiS 0x0102, by decide +kernel, by decide +kernel, by decide +kernel, by decide +kernel⟩
theorem witness_OtherApiVersions_17 : ∃ (n : Mbox) (m : Msg) (s : State), m.type ≠ 0x0001 ∧ m.api / 256 = s.fwApi / 256 ∧ m.api ≠ s.fwApi ∧ s.msgIn n.val 4 0x0103 = some m :=
  ⟨0, apiMsg 0x0103 1, apiS 0x0103, by decide +kernel, by decide +kernel, by decide +kernel, by decide +kernel⟩
theorem witness_OtherApiVersions_18 : ∃ (n : Mbox) (m : Msg) (s : State), m.type ≠ 0x0001 ∧ m.api / 256 = s.fwApi / 256 ∧ m.api ≠ s.fwApi ∧ s.msgIn n.val 4 0x0104 = some m :=
  ⟨0, apiMsg 0x0104 1, apiS 0x0104, by decide +kernel, by decide +kernel, by decide +kernel, by decide +kernel⟩
theorem witness_OtherApiVersions_19 : ∃ (n : Mbox) (m : Msg) (s : State), m.type ≠ 0x0001 ∧ m.api / 256 = s.fwApi / 256 ∧ m.api ≠ s.fwApi ∧ s.msgIn n.val 4 0x0105 = some m :=
  ⟨0, apiMsg 0x0105 1, apiS 0x0105, by decide +kernel, by decide +kernel, by decide +kernel, by decide +kernel⟩
theorem witness_OtherApiVersions_20 : ∃ (n : Mbox) (m : Msg) (s : State), m.type ≠ 0x0001 ∧ m.api / 256 = s.fwApi / 256 ∧ m.api ≠ s.fwApi ∧ s.msgIn n.val 4 0x0106 = some m :=
  ⟨0, apiMsg 0x0106 1, apiS 0x0106, by decide +kernel, by decide +kernel, by decide +kernel, by decide +kernel⟩
theorem witness_OtherApiVersions_21 : ∃ (n : Mbox) (m : Msg) (s : State), m.type ≠ 0x0001 ∧ m.api / 256 = s.fwApi / 256 ∧ m.api ≠ s.fwApi ∧ s.msgIn n.val 4 0x0107 = some m :=
  ⟨0, apiMsg 0x0107 1, apiS 0x0107, by decide +kernel, by decide +kernel, by decide +kernel, by decide +kernel⟩
theorem witness_OtherApiVersions_22 : ∃ (n : Mbox) (m : Msg) (s : State), m.type ≠ 0x0001 ∧ m.api / 256 = s.fwApi / 256 ∧ m.api ≠ s.fwApi ∧ s.msgIn n.val 4 0x0108 = some m :=
  ⟨0, apiMsg 0x0108 1, apiS 0x0108, by decide +kernel, by decide +kernel, by decide +kernel, by decide +kernel⟩
theorem witness_OtherApiVersions_23 : ∃ (n : Mbox) (m : Msg) (s : State), m.type ≠ 0x0001 ∧ m.api / 256 = s.fwApi / 256 ∧ m.api ≠ s.fwApi ∧ s.msgIn n.val 4 0x0109 = some m :=
  ⟨0, apiMsg 0x0109 1, apiS 0x0109, by decide +kernel, by decide +kernel, by decide +kernel, by decide +kernel⟩
theorem witness_OtherApiVersions_24 : ∃ (n : Mbox) (m : Msg) (s : State), m.type ≠ 0x0001 ∧ m.api / 256 = s.fwApi / 256 ∧ m.api ≠ s.fwApi ∧ s.msgIn n.val 5 0x0014 = some m :=
  ⟨0, apiMsg 0x0014 1, apiS 0x0014, by decide +kernel, by decide +kernel, by decide +kernel, by decide +kernel⟩
theorem witness_GatherBinding_0 : ∃ (w : Writer) (d : Die) (b : Bay) (v : Word) (c : Committed) (s : State), c = s.write1 d (pgMxe b) 0x0C8 w v.toNat ∧ c.win.isSome = true ∧ ∃ i < 16, bitsOf v.toNat i 1 = 1 ∧ ∃ b' : Bay, b' ≠ b ∧ s.rdF d (pgMxe b') 0x0C8 i 1 = 1 :=
  ⟨sysW, 0, 0, 1, _, State.reset.wr 0 (pgMxe 1) 0x0C8 1, rfl, by decide +kernel, 0, by decide, by decide, 1, by decide, by decide +kernel⟩
theorem witness_ContextWritesOfSlotControl_0 : ∃ (d : Die) (b : Bay) (k : Nat) (w : Writer) (v : Nat) (c : Committed) (s : State), k < 32 ∧ w.origin = .ctx ∧ s.inReset d (pgSu b) = false ∧ s.bookWriter w = false ∧ c = s.write1 d (pgSu b) (0x108 + 64 * k) w v :=
  ⟨0, 0, 31, ⟨.ctx, 0, 0, false⟩, 1, _, State.reset, by decide, by decide, by decide +kernel, by decide +kernel, rfl⟩
theorem witness_RegisterWriteByAccessType_0 : ∃ (d pg off : Nat) (k : PageKind) (w : Writer) (v : Nat) (c : Committed) (s : State), d < 4 ∧ pg < 256 ∧ off < 4096 ∧ pageKind d pg = some k ∧ k ∉ [PageKind.stp, .mxe, .rtr, .eth, .mgt] ∧ off ≠ 0x050 ∧ off ≠ 0x058 ∧ off ≠ 0x060 ∧ c = s.write1 d pg off w v ∧ c.win.isSome = true :=
  ⟨0, pgPwr, 0x080, .pwr, fwW, 1, _, State.reset, by decide, by decide, by decide, by decide, by decide, by decide, by decide, by decide, rfl, by decide +kernel⟩
theorem witness_RegisterWriteByAccessType_1 : ∃ (d pg off : Nat) (w : Writer) (v : Nat) (c : Committed) (s : State), d < 4 ∧ pg < 256 ∧ off < 4096 ∧ off ∉ [0x030, 0x040] ∧ accessOk d pg off ⟨w, BitVec.ofNat 64 v, 8⟩ = true ∧ s.inReset d pg = false ∧ s.mayWrite d pg off ⟨w, BitVec.ofNat 64 v, 8⟩ = false ∧ c = s.write1 d pg off w v :=
  ⟨0, pgPwr, 0x080, sysW, 1, _, State.reset, by decide, by decide, by decide, by decide, by decide +kernel, by decide +kernel, by decide +kernel, rfl⟩
theorem witness_HeldEnable_0 : ∃ (d pg : Nat) (k : PageKind) (w : Writer) (v : Nat) (c : Committed) (s : State), d < 4 ∧ pg < 256 ∧ pageKind d pg = some k ∧ w.origin ≠ .fuse ∧ (s.blkIs d pg 1 = true ∨ s.blkIs d pg 3 = true) ∧ c = s.write1 d pg 0x020 w v ∧ c.win.isSome = true :=
  ⟨0, pgMxe 0, .mxe, sysW, 0, _, State.reset.setBlkSt 0 (pgMxe 0) 1, by decide, by decide, by decide, by decide, by decide +kernel, rfl, by decide +kernel⟩
theorem witness_VectorElementsAndFrame_0 : ∃ (g : Nat → Nat → Rounded) (f : Fmt), ∀ x y, (g x y).enc < 2 ^ f.width :=
  ⟨fun _ _ => { enc := 0 }, .fp32, fun _ _ => Nat.two_pow_pos _⟩
theorem witness_NanOperands_0 : ∃ (g : FpFmt) (a b : Nat), (g.decode a).isNan = true ∨ (g.decode b).isNan = true :=
  ⟨⟨8, 23, 127, .ieee⟩, 0x7FC00000, 0, by decide⟩
theorem witness_MemoryWriteThenRead_0 : ∃ (k i : Nat) (xs : List Byte) (s : State), i < xs.length ∧ s.rangeBad k xs.length = false :=
  ⟨0, 0, [1], State.reset, by decide, by decide⟩
theorem witness_MemoryWriteThenRead_1 : ∃ (k j : Nat) (xs : List Byte) (s : State), (j < k ∨ k + xs.length ≤ j) ∧ (j / 64 ∉ sectorsOf k xs.length ∨ Tab.find s.mem.err (j / 64) = none) ∧ (s.rangeBad k xs.length = false ∨ s.fw.armed = none) :=
  ⟨1, 0, [1], State.reset, by decide, .inr (by decide), .inr (by decide)⟩
theorem witness_RequestsTurnedAway_0 : ∃ (q : Req) (s : State), s.homeWaits q.addr.toNat = true :=
  ⟨testReq, { State.reset with resets := { State.reset.resets with runs := [⟨5, 0, 0, 1, false, 0⟩] } }.setBlkSt 0 pgShc 4, by decide +kernel⟩
theorem witness_RequestsTurnedAway_1 : ∃ (q : Req) (s : State), s.homeWaits q.addr.toNat = false ∧ s.pathOpen (reqEntry q) (addrDie q.addr.toNat) none = true ∧ s.outOfTurn q = false ∧ q.src = none ∧ q.w.origin = .dbg :=
  ⟨{ testReq with w := ⟨.dbg, 0, 0, false⟩ }, State.reset, by decide, by decide, by decide, rfl, rfl⟩
theorem witness_RequestsTurnedAway_2 : ∃ (q : Req) (s : State), s.homeWaits q.addr.toNat = false ∧ s.pathOpen (reqEntry q) (addrDie q.addr.toNat) none = true ∧ s.outOfTurn q = false ∧ (q.src = none → q.w.origin ≠ .dbg) ∧ 78125 < s.ageOf q :=
  ⟨{ testReq with issue := 1 }, State.reset, by decide, by decide, by decide, fun _ => by decide, by decide⟩
theorem witness_RequestsTurnedAway_3 : ∃ (q : Req) (x : DevIx) (s : State), s.homeWaits q.addr.toNat = false ∧ s.pathOpen (reqEntry q) (addrDie q.addr.toNat) none = true ∧ s.outOfTurn q = false ∧ s.ageOf q ≤ 78125 ∧ q.src = some x ∧ s.fenced x.val = true :=
  ⟨{ testReq with src := some 3 }, 3, State.reset.wr 0 pgRtr 0x080 8, by decide, by decide, by decide, by decide, rfl, by decide +kernel⟩
theorem witness_RequestsTurnedAway_4 : ∃ (q : Req) (s : State), s.homeWaits q.addr.toNat = false ∧ s.pathOpen (reqEntry q) (addrDie q.addr.toNat) none = true ∧ s.outOfTurn q = false ∧ s.ageOf q ≤ 78125 ∧ (∀ x, q.src = some x → s.fenced x.val = false) ∧ addrDev q.addr.toNat ≠ s.device :=
  ⟨{ testReq with addr := 2 ^ 40 }, State.reset, by decide, by decide, by decide, by decide, by simp [testReq], by decide⟩
theorem witness_LogRateLimit_0 : ∃ (d : Die) (src : Nat) (s : State), (s.recentOf (d.val * 256 + src)).length < 4096 :=
  ⟨0, 0, State.reset, by decide⟩
theorem witness_LogRateLimit_1 : ∃ (d : Die) (src : Nat) (s : State), 4096 ≤ (s.recentOf (d.val * 256 + src)).length :=
  ⟨0, 0, { State.reset with log := { State.reset.log with recent := [(0, List.replicate 4096 0)] } }, by decide +kernel⟩
theorem witness_LogRateLimit_2 : ∃ (d : Die) (b : BitVec 8) (s : State), Tab.get 0 s.log.lost (d.val * 256 + b.toNat) ≠ 0 ∧ (s.recentOf (d.val * 256 + b.toNat)).length < 4096 :=
  ⟨0, 0, { State.reset with log := { State.reset.log with lost := [(0, 1)] } }, by decide, by decide⟩
theorem witness_LeaderOfAnAttempt_0 : ∃ (s : State) (step a : Nat) (x : Nat × Nat), (∀ i (h : i < s.cue.ranks.length), (s.cue.ranks[i]).1 = i) ∧ x ∈ s.liveRanks ∧ (s.liveRanks.filter fun y => decide ((y.1 + s.cue.ranks.length - step % s.cue.ranks.length) % s.cue.ranks.length < (x.1 + s.cue.ranks.length - step % s.cue.ranks.length) % s.cue.ranks.length)).length = a % s.liveRanks.length :=
  ⟨castS 1, 1, 1, (0, 5), by decide +kernel, by decide +kernel, by decide +kernel⟩
theorem witness_OperationsFrame_0 : ∃ d pg d' pg' off' : Nat, rk d' pg' off' ≠ rk d pg 0x030 ∧ rk d' pg' off' ≠ rk d pg 0x040 :=
  ⟨0, 0, 0, 1, 0, by decide⟩
theorem witness_OperationsFrame_1 : ∃ bit : Nat, bit < 64 :=
  ⟨63, by decide⟩
theorem witness_OperationsFrame_2 : ∃ d b d' b' : Nat, bayKey d' b' ≠ bayKey d b :=
  ⟨0, 0, 1, 0, by decide⟩
theorem witness_VectorWordsRoundTrip_0 : ∃ (u : Unit36) (w : Nat) (i : Instr), w < 2 ^ 32 ∧ decodeVxe u w = some i :=
  ⟨⟨0, 0⟩, 0x000C2200, .vxeAdd ⟨0, 0⟩ { vd := 3, vs1 := 1, vs2 := 2 }, by decide, by decide⟩
theorem witness_VectorWordsRoundTrip_1 : ∃ (i : Instr) (w : Nat), encodeVxe i = some w ∧ vwordOk w = true :=
  ⟨.vxeAdd ⟨0, 0⟩ { vd := 3, vs1 := 1, vs2 := 2 }, 0x000C2200, by decide, by decide⟩
theorem witness_AVectorCommandRunsTheWordAtPc_0 : ∃ (u : Unit36) (w : Nat) (i : Instr) (s : State), decodeVxe u w = some i ∧ s.vxeAt u i = false :=
  ⟨⟨0, 0⟩, 0xAF800000, .vxeEnd ⟨0, 0⟩ { sx := 0, sy := 0, imm := 0 }, State.reset, by decide, by decide +kernel⟩
theorem witness_AWholeSectorWriteHeals_0 : ∃ (xs : List Byte) (s : State), xs.length = 64 ∧ s.cue.reh = none :=
  ⟨List.replicate 64 0, State.reset, by decide, by decide⟩
theorem witness_AWholeSectorWriteHeals_1 : ∃ (sec off : Nat) (xs : List Byte) (s : State), 0 < xs.length ∧ xs.length < 64 ∧ off + xs.length ≤ 64 ∧ s.isBad sec = true ∧ s.fw.armed = none :=
  ⟨0, 3, [1], { State.reset with mem := { State.reset.mem with bad := [(0, true)] } }, by decide, by decide, by decide, by decide +kernel, by decide⟩
theorem witness_CurtainCommandsComplete_loadStart_0 : ∃ (w : Writer) (c : Committed) (s : State),
    c = s.write1 0 pgStp 0x090 w 1 ∧ c.win.isSome = true ∧ c.s.books.loading = none :=
  ⟨sysW, _, State.reset, rfl, by decide, by decide⟩
theorem witness_CurtainCommandsComplete_loadDiscard_1 : ∃ (w : Writer) (c : Committed) (s : State),
    c = s.write1 0 pgStp 0x090 w 2 ∧ c.win.isSome = true :=
  ⟨sysW, _, State.reset, rfl, by decide⟩
theorem witness_CurtainCommandsComplete_validationComplete_2 : ∃ (raw : List Byte) (code bad : Nat) (b : Option Book) (u t : State) (s : State),
    s.books.loading = some raw ∧ u = s.recTouch (Book.ofBytes raw (dirOf raw)) false ∧ validate (u.checkEnv raw) Config.sm2Verify raw.length raw = (code, bad, b) ∧ t = ((({ u with books := { u.books with loading := none } }).wrF 0 pgStp 0x098 0 8 code).wrF 0 pgStp 0x098 16 8 bad).wrF 0 pgStp 0x090 0 1 0 :=
  ⟨[], 1, 0, none, _, _, { State.reset with books := { State.reset.books with loading := some [] } }, by decide, rfl, by decide, rfl⟩
theorem witness_CurtainCommandsComplete_curtainAction1Complete_3 : ∃ (bays saved : List (Nat × Nat)) (t : State) (s : State),
    s.stepState = 1 ∧ (bays = s.mappedBays.filter fun x => s.isBook x.1 x.2) ∧ (saved = s.mappedBays.filter fun x => !(s.isBook x.1 x.2)) ∧ (t = bays.foldl (fun u x => u.endCancel x.1 x.2) s) ∧ t.action1Ready = true :=
  ⟨_, _, _, State.reset.wrF 0 pgStp 0x0B0 0 3 1, by decide +kernel, rfl, rfl, rfl, by decide +kernel⟩
theorem witness_CurtainCommandsComplete_curtainAction1Complete_4 : ∃ (bays saved : List (Nat × Nat)) (s : State),
    s.stepState = 2 ∧ (bays = s.mappedBays.filter fun x => s.isBook x.1 x.2) ∧ (saved = s.mappedBays.filter fun x => !(s.isBook x.1 x.2)) ∧ s.action1Ready = true :=
  ⟨_, _, ({ State.reset with step := { State.reset.step with ended := some 1 } }).wrF 0 pgStp 0x0B0 0 3 2, by decide +kernel, rfl, rfl, by decide +kernel⟩
theorem witness_CurtainCommandsComplete_curtainAction2_5 : ∃ (s : State),
    s.stepState = 2 ∧ s.step.a1Done = true ∧ s.step.a2Done = false ∧ s.dup.jobs = [] :=
  ⟨({ State.reset with step := { State.reset.step with a1Done := true } }).wrF 0 pgStp 0x0B0 0 3 2, by decide, by decide, by decide, by decide⟩
theorem witness_CurtainCommandsComplete_curtainTimeout_6 : ∃ (s t u : State),
    s.stepState = 3 ∧ s.step.a2Done = true ∧ s.step.decision = none ∧ s.cue.committed = none ∧ s.cue.held = false ∧ s.step.a2Time + ((s.books.active.map (·.curtainTimeout)).getD 2000) * 1000000 ≤ s.now 0 ∧ t = ((s.wrF 0 pgStp 0x0B0 4 4 2).noCert 4).wrF 0 pgCue 0x028 6 1 1 ∧ u = (t.setRound t.cue.step (t.attempt + 1)).setErr 0 pgCue 10 :=
  ⟨(({ State.reset with step := { State.reset.step with a2Done := true } }).wrF 0 pgStp 0x0B0 0 3 3).wr 0 pgTim 0x080 (2 ^ 40), _, _, by decide, by decide, by decide, by decide, by decide, by decide, rfl, rfl⟩
theorem witness_CurtainCommandsComplete_buddyStreamComplete_7 : ∃ (t : State) (s : State),
    s.step.buddyOpen = true ∧ s.ckpt.run = none ∧ s.buddyDone = true ∧ t = ({ s with step := { s.step with buddyOpen := false } } : State) :=
  ⟨_, { State.reset with step := { State.reset.step with buddyOpen := true } }, by decide, by decide, by decide +kernel, rfl⟩
theorem witness_CurtainCommandsComplete_stepBegin_8 : ∃ (bk : Book) (s : State),
    s.books.active = some bk ∧ s.beginReady = true ∧ (s.nextStep bk).1 < 0xFFFFFFFFFFFF :=
  ⟨testBook, { State.reset with books := { State.reset.books with active := some testBook }, step := { State.reset.step with decision := some .certify, a1Done := true, a2Done := true } }, by decide, by decide, by decide⟩
theorem witness_PowerCommandsComplete_powerUp_1 : ∃ (ok : Bool) (s : State),
    s.mayPowerUp = true :=
  ⟨true, { State.reset with power := { State.reset.power with enable := false, off := railOrder, good := false }, io := { State.reset.io with mv := 48000 } }, by decide⟩
theorem witness_PowerCommandsComplete_powerUp_2 : ∃ (ok : Bool) (s : State),
    s.mayPowerUp = false :=
  ⟨true, State.reset, by decide⟩
theorem witness_PowerCommandsComplete_pwrEnFall_3 : ∃ (t : State) (s : State),
    t = s.orderlyDown :=
  ⟨_, State.reset, rfl⟩
theorem witness_PowerCommandsComplete_phaseSwitchOut_4 : ∃ (d : Die) (r : Rail) (k n : Nat) (t u v : State) (s : State),
    k = Rail.ix r ∧ n = Tab.get 0 s.power.phases (d.val * 8 + k) + 1 ∧ t = ((((s.took 1).setErr d pgPwr 11).logAt d srcHw .phaseOut [d, k, s.free.toNat % ((railRow k).n + 2)]).histEvent 6 d k 6) ∧ u = { t with power := { t.power with phases := Tab.put t.power.phases (d.val * 8 + k) n } } ∧ (v = if n = 3 then (({ u with power := { u.power with degraded := u.power.degraded ++ [(d.val, k)], report := u.power.report ++ [(d.val, k)] } } : State).wrF d pgPwr 0x028 5 1 1) else u) :=
  ⟨0, .varith, _, _, _, _, _, State.reset, rfl, rfl, rfl, rfl, rfl⟩
theorem witness_PowerCommandsComplete_thermalTrip_5 : ∃ (x : Trip) (t : State) (s : State),
    heatTrips x.heat = true ∧ s.power.tripped.contains x.die.val = false ∧ s.power.off = [] ∧ t = { s with power := { s.power with tripped := s.power.tripped ++ [x.die.val] } } :=
  ⟨⟨0, ⟨111, 0, 0⟩⟩, _, State.reset, by decide, by decide, by decide, rfl⟩
theorem witness_PowerCommandsComplete_thermalTrip_6 : ∃ (x : Trip) (s : State),
    heatTrips x.heat = false :=
  ⟨⟨0, ⟨110, 95, 125⟩⟩, State.reset, by decide⟩
theorem witness_PowerCommandsComplete_tripPersistTimeout_7 : ∃ (d : Die) (h : Heat) (s : State),
    s.power.tripped.contains d.val = true :=
  ⟨0, ⟨0, 0, 0⟩, { State.reset with power := { State.reset.power with tripped := [0] } }, by decide⟩
theorem witness_ClockCommandsComplete_clockLost_0 : ∃ (c : RefClk) (s t : State),
    (t = (s.timeStat 2 1 1).logAt 0 srcHw .clockLost [match c with | .sys => 0 | .link => 1]) :=
  ⟨.sys, State.reset, _, rfl⟩
theorem witness_ClockCommandsComplete_timeExchange_1 : ∃ (p : Port) (s : State),
    s.timeLink p = true ∧ s.rdF 0 pgTim 0x090 1 1 = 0 ∧ s.rdF 0 pgTim 0x090 16 5 = p.val :=
  ⟨0, timedLink, by decide, by decide, by decide⟩
theorem witness_ClockCommandsComplete_timeFlit_2 : ∃ (p : Port) (x : Word) (h : Option Flit) (t : State) (s : State),
    h = none ∧ t = s ∧ t.timeLink p = true :=
  ⟨0, 0, none, _, timedLink, rfl, rfl, by decide +kernel⟩
theorem witness_ClockCommandsComplete_timeFlit_3 : ∃ (p : Port) (t1 t2 t3 : Word) (h : Option Flit) (t : State) (s : State),
    h = none ∧ t = s ∧ t.timeLink p = true ∧ (t.link p).asked = some t1.toNat :=
  ⟨0, 0, 0, 0, none, _, timedLink.setLink 0 { timedLink.link 0 with asked := some 0 }, rfl, rfl, by decide +kernel, by decide +kernel⟩
theorem witness_ClockCommandsComplete_timeFlit_4 : ∃ (p : Port) (x : Word) (h : Option Flit) (f : Flit) (t : State) (s : State),
    h = some f ∧ flitBad f = false ∧ t = s.flitIn p { f with ftype := 4 } ∧ t.timeLink p = true :=
  ⟨0, 0, some (testFlit 0), testFlit 0, _, timedLink, rfl, by decide, rfl, by decide +kernel⟩
theorem witness_ClockCommandsComplete_timeFlit_5 : ∃ (p : Port) (t1 t2 t3 : Word) (h : Option Flit) (f : Flit) (t : State) (s : State),
    h = some f ∧ flitBad f = false ∧ t = s.flitIn p { f with ftype := 4 } ∧ t.timeLink p = true ∧ (t.link p).asked = some t1.toNat :=
  ⟨0, 0, 0, 0, some (testFlit 0), testFlit 0, _, timedLink.setLink 0 { timedLink.link 0 with asked := some 0 }, rfl, by decide, rfl, by decide +kernel, by decide +kernel⟩
theorem witness_ResetCommandsComplete_bayReset_0 : ∃ (w : Writer) (d : Die) (b : Bay) (c : Committed) (s : State),
    c = s.write1 0 pgRst 0x080 w (1 + d * 2 ^ 4 + b * 2 ^ 6) ∧ c.win.isSome = true :=
  ⟨fwW, 0, 0, _, State.reset, rfl, by decide⟩
theorem witness_ResetCommandsComplete_fabricPortReset_1 : ∃ (w : Writer) (p : Port) (c : Committed) (s : State),
    c = s.write1 0 pgRst 0x080 w (2 + (portDie p) * 2 ^ 4 + (p.val % 5) * 2 ^ 6) ∧ c.win.isSome = true :=
  ⟨fwW, 0, _, State.reset, rfl, by decide⟩
theorem witness_ResetCommandsComplete_coreClusterReset_2 : ∃ (w : Writer) (d : Die) (c : Committed) (s : State),
    c = s.write1 0 pgRst 0x080 w (3 + d * 2 ^ 4 + 0 * 2 ^ 6) ∧ c.win.isSome = true :=
  ⟨fwW, 0, _, State.reset, rfl, by decide⟩
theorem witness_ResetCommandsComplete_diePartitionReset_3 : ∃ (w : Writer) (d : Die) (c : Committed) (s : State),
    c = s.write1 0 pgRst 0x080 w (4 + d * 2 ^ 4 + 0 * 2 ^ 6) ∧ c.win.isSome = true :=
  ⟨fwW, 0, _, State.reset, rfl, by decide⟩
theorem witness_ResetCommandsComplete_wholeDeviceReset_4 : ∃ (w : Writer) (c : Committed) (s : State),
    c = s.write1 0 pgRst 0x080 w (5 + 0 * 2 ^ 4 + 0 * 2 ^ 6) ∧ c.win.isSome = true :=
  ⟨fwW, _, State.reset, rfl, by decide⟩
theorem witness_ResetCommandsComplete_resetComplete_6 : ∃ (dom : Domain) (r : ResetRun) (t : State) (s : State),
    (s.resets.runs.find? (fun r => r.id = domainId dom) = some r) ∧ ((domainId dom).1 = 5 → s.resets.counted = true) ∧ (t = ({ s with resets := { s.resets with runs := s.resets.runs.filter fun y => y.id ≠ domainId dom } } : State).wr 0 pgRst 0x090 ((domainId dom).1 + (if r.origin = 8 then 1 + 8 else r.origin) * 8)) :=
  ⟨.device, testRun, _, { State.reset with resets := { State.reset.resets with runs := [testRun], counted := true } }, by decide, fun _ => by decide, rfl⟩
theorem witness_StartupCommandsComplete_startupStageComplete_0 : ∃ (st : Stage) (e : StageEnd) (s : State),
    s.inStage st = true ∧ s.power.off = [] :=
  ⟨.s1, ⟨.ok, []⟩, State.reset, by decide, by decide⟩
theorem witness_StartupCommandsComplete_imageRefetchTimeout_1 : ∃ (s : State),
    s.resets.stage = 0xE1 :=
  ⟨{ State.reset with resets := { State.reset.resets with stage := 0xE1 } }, by decide⟩
theorem witness_StartupCommandsComplete_bootStageTimeout_2 : ∃ (s : State),
    (s.resets.stage = 0x40 ∨ s.resets.stage = 0x50) :=
  ⟨{ State.reset with resets := { State.reset.resets with stage := 0x40 } }, by decide⟩
theorem witness_RegisterAndBlockCommandsComplete_registerWrite_0 : ∃ (a : RegAddr) (reqs : List WriteReq) (r : WriteReq) (pg off : Nat) (c : Committed) (s : State),
    pg = a.offset.toNat / 4096 ∧ off = a.offset.toNat % 4096 ∧ mboxSlot a.die pg off = false ∧ c = s.commit a.die pg off reqs ∧ c.win = some r :=
  ⟨⟨0, 0x1080⟩, [⟨fwW, 0, 8⟩], ⟨fwW, 0, 8⟩, 1, 0x80, _, State.reset, rfl, rfl, by decide, rfl, by decide⟩
theorem witness_RegisterAndBlockCommandsComplete_registerWrite_1 : ∃ (a : RegAddr) (reqs : List WriteReq) (pg off : Nat) (s : State),
    pg = a.offset.toNat / 4096 ∧ off = a.offset.toNat % 4096 ∧ mboxSlot a.die pg off = true :=
  ⟨⟨0, 0x8080⟩, [⟨fwW, 0, 8⟩], pgMbx, 0x80, State.reset, by decide, by decide, by decide⟩
theorem witness_RegisterAndBlockCommandsComplete_blockEnable_2 : ∃ (w : Writer) (d : Die) (pg : BitVec 8) (c : Committed) (s : State),
    c = s.ctrlBit w d pg.toNat 0 1 ∧ c.win.isSome = true :=
  ⟨fwW, 0, 0x10, _, State.reset, rfl, by decide⟩
theorem witness_RegisterAndBlockCommandsComplete_blockDisable_3 : ∃ (w : Writer) (d : Die) (pg : BitVec 8) (c : Committed) (s : State),
    c = s.ctrlBit w d pg.toNat 0 0 ∧ c.win.isSome = true :=
  ⟨fwW, 0, 0x10, _, State.reset, rfl, by decide⟩
theorem witness_RegisterAndBlockCommandsComplete_clrCount_4 : ∃ (w : Writer) (d : Die) (pg : BitVec 8) (c : Committed) (s : State),
    c = s.ctrlBit w d pg.toNat 1 1 ∧ c.win.isSome = true :=
  ⟨fwW, 0, 0x10, _, State.reset, rfl, by decide⟩
theorem witness_RegisterAndBlockCommandsComplete_openingComplete_5 : ∃ (d : Die) (pg : BitVec 8) (s t : State),
    s.blkSt d pg.toNat = 1 ∧ s.openReady d pg.toNat = true ∧ t = s.opened d pg.toNat :=
  ⟨0, 0x10, State.reset.setBlkSt 0 0x10 1, _, by decide, by decide, rfl⟩
theorem witness_RegisterAndBlockCommandsComplete_closingComplete_6 : ∃ (d : Die) (pg : BitVec 8) (s t : State),
    s.blkSt d pg.toNat = 3 ∧ s.closeReady d pg.toNat = true ∧ t = s.closed d pg.toNat :=
  ⟨0, 0x10, State.reset.setBlkSt 0 0x10 3, _, by decide, by decide, rfl⟩
theorem witness_RegisterAndBlockCommandsComplete_hwHoldClear_7 : ∃ (d : Die) (pg : BitVec 8) (s t : State),
    s.hwHold d pg.toNat = true ∧ t = s.wrF d pg.toNat 0x018 4 1 0 :=
  ⟨0, 0x10, State.reset.wrF 0 0x10 0x018 4 1 1, _, by decide, rfl⟩
theorem witness_RegisterAndBlockCommandsComplete_mxePause_8 : ∃ (w : Writer) (d : Die) (b : Bay) (c : Committed) (s : State),
    c = s.ctrlBit w d (pgMxe b) 8 1 ∧ c.win.isSome = true :=
  ⟨fwW, 0, 0, _, State.reset, rfl, by decide⟩
theorem witness_RegisterAndBlockCommandsComplete_mxeUnpause_9 : ∃ (w : Writer) (d : Die) (b : Bay) (c : Committed) (s : State),
    c = s.ctrlBit w d (pgMxe b) 8 0 ∧ c.win.isSome = true :=
  ⟨fwW, 0, 0, _, State.reset, rfl, by decide⟩
theorem witness_RegisterAndBlockCommandsComplete_vxePause_10 : ∃ (w : Writer) (d : Die) (b : Bay) (c : Committed) (s : State),
    c = s.ctrlBit w d (pgVxe b) 8 1 ∧ c.win.isSome = true :=
  ⟨fwW, 0, 0, _, State.reset, rfl, by decide⟩
theorem witness_RegisterAndBlockCommandsComplete_vxeUnpause_11 : ∃ (w : Writer) (d : Die) (b : Bay) (c : Committed) (s : State),
    c = s.ctrlBit w d (pgVxe b) 8 0 ∧ c.win.isSome = true :=
  ⟨fwW, 0, 0, _, State.reset, rfl, by decide⟩
theorem witness_RegisterAndBlockCommandsComplete_suPause_12 : ∃ (w : Writer) (d : Die) (b : Bay) (c : Committed) (s : State),
    c = s.ctrlBit w d (pgSu b) 8 1 ∧ c.win.isSome = true :=
  ⟨fwW, 0, 0, _, State.reset, rfl, by decide⟩
theorem witness_RegisterAndBlockCommandsComplete_suUnpause_13 : ∃ (w : Writer) (d : Die) (b : Bay) (c : Committed) (s : State),
    c = s.ctrlBit w d (pgSu b) 8 0 ∧ c.win.isSome = true :=
  ⟨fwW, 0, 0, _, State.reset, rfl, by decide⟩
theorem witness_MatrixCommandsComplete_mma_0 : ∃ (d : Die) (b : Bay) (r : TileRef) (t : TileDesc) (u : State) (s : State),
    s.mxeHead d b 0x01 = some (r, t) ∧ u = s.waitMarks d b t.waitMask ∧ (t.cont = true ∨ (u.mxeOf d b).bankFree (decide (accWidth t = 8)) = true) :=
  ⟨0, 0, ⟨false, 0⟩, { opcode := 1, cont := true }, _, tileS 1, by decide, rfl, by decide⟩
theorem witness_MatrixCommandsComplete_mmaGather_1 : ∃ (d : Die) (b : Bay) (r : TileRef) (t : TileDesc) (g : List GatherSub) (rest : List (List GatherSub)) (run : GatherRun) (u v w : State) (s : State),
    s.mxeHead d b 0x02 = some (r, t) ∧ (s.gatherOf d b).placing = none ∧ (s.gatherOf d b).closed = g :: rest ∧ (t.cont = true ∨ (s.mxeOf d b).bankFree (decide (accWidth t = 8)) = true) ∧ u = s.gatherBegin d b t g rest ∧ (u.gatherOf d b).placing = some run ∧ run.left = [] ∧ run.waits = [] ∧ u.running = true ∧ v = (u.setPlacing d b none).gqMap d b run.round ∧ w = v.setMxe d b { v.mxeOf d b with gatherRows := roundRows run.round } :=
  ⟨0, 0, ⟨false, 0⟩, { opcode := 2, cont := true }, [], [], { round := [], left := [] }, _, _, _, (tileS 2).setGather 0 0 { closed := [[]] }, by decide +kernel, by decide +kernel, by decide +kernel, by decide +kernel, rfl, by decide +kernel, by decide +kernel, by decide +kernel, by decide +kernel, rfl, rfl⟩
theorem witness_MatrixCommandsComplete_mmaGather_2 : ∃ (d : Die) (b : Bay) (r : TileRef) (t : TileDesc) (z : GatherRun) (run : GatherRun) (u v w : State) (s : State),
    s.mxeHead d b 0x02 = some (r, t) ∧ (s.gatherOf d b).placing = some z ∧ u = s.gatherIssue d b ∧ (u.gatherOf d b).placing = some run ∧ run.left = [] ∧ run.waits = [] ∧ u.running = true ∧ v = (u.setPlacing d b none).gqMap d b run.round ∧ w = v.setMxe d b { v.mxeOf d b with gatherRows := roundRows run.round } :=
  ⟨0, 0, ⟨false, 0⟩, { opcode := 2, cont := true }, { round := [], left := [] }, { round := [], left := [] }, _, _, _, (tileS 2).setGather 0 0 { placing := some { round := [], left := [] } }, by decide +kernel, by decide +kernel, rfl, by decide +kernel, by decide +kernel, by decide +kernel, by decide +kernel, rfl, rfl⟩
theorem witness_MatrixCommandsComplete_mmaGather_3 : ∃ (d : Die) (b : Bay) (r : TileRef) (t : TileDesc) (g : List GatherSub) (rest : List (List GatherSub)) (run : GatherRun) (u : State) (s : State),
    s.mxeHead d b 0x02 = some (r, t) ∧ (s.gatherOf d b).placing = none ∧ (s.gatherOf d b).closed = g :: rest ∧ (t.cont = true ∨ (s.mxeOf d b).bankFree (decide (accWidth t = 8)) = true) ∧ u = s.gatherBegin d b t g rest ∧ (u.gatherOf d b).placing = some run ∧ (run.left ≠ [] ∨ run.waits ≠ []) :=
  ⟨0, 0, ⟨false, 0⟩, gatherTile, [farSub], [], _, _, farS, by decide +kernel, by decide +kernel, by decide +kernel, by decide +kernel, rfl, rfl, by decide +kernel⟩
theorem witness_MatrixCommandsComplete_syncWait_4 : ∃ (d : Die) (b : Bay) (r : TileRef) (t : TileDesc) (s : State),
    s.mxeHead d b 0x10 = some (r, t) :=
  ⟨0, 0, ⟨false, 0⟩, { opcode := 0x10, cont := true }, tileS 0x10, by decide⟩
theorem witness_MatrixCommandsComplete_syncAdd_5 : ∃ (d : Die) (b : Bay) (r : TileRef) (t : TileDesc) (s : State),
    s.mxeHead d b 0x11 = some (r, t) ∧ (s.mxeOf d b).drains = [] ∧ (s.mxeOf d b).openBy = none :=
  ⟨0, 0, ⟨false, 0⟩, { opcode := 0x11, cont := true }, tileS 0x11, by decide, by decide, by decide⟩
theorem witness_MatrixCommandsComplete_mxeEnd_6 : ∃ (d : Die) (b : Bay) (r : TileRef) (t : TileDesc) (u : State) (s : State),
    s.mxeHead d b 0xFF = some (r, t) ∧ u = (s.waitMarks d b t.waitMask).mxeNext d b :=
  ⟨0, 0, ⟨false, 0⟩, { opcode := 0xFF, cont := true }, _, tileS 0xFF, by decide, rfl⟩
theorem witness_MatrixCommandsComplete_tileDrainComplete_7 : ∃ (d : Die) (b : Bay) (flips : List Flip) (j : DrainJob) (js : List DrainJob) (t : TileDesc) (s : State),
    (s.mxeOf d b).drains = j :: js ∧ s.tileOf j.ref = some t :=
  ⟨0, 0, [], { ref := ⟨false, 0⟩, bank := 0, wide := false, marked := false, rows := 0, cols := 0, acc := [] }, [], { opcode := 1, cont := true }, (tileS 1).setMxe 0 0 { drains := [{ ref := ⟨false, 0⟩, bank := 0, wide := false, marked := false, rows := 0, cols := 0, acc := [] }] }, by decide, by decide⟩
theorem witness_MatrixCommandsComplete_arrayParityError_8 : ∃ (d : Die) (b : Bay) (u : State) (s : State),
    u = (s.setErr d (pgMxe b) 10).histEvent 1 d b 2 ∧ u.wingsBay d ≠ some b.val :=
  ⟨0, 0, _, State.reset, rfl, by decide⟩
theorem witness_MatrixCommandsComplete_syncErrorResponse_9 : ∃ (d : Die) (b : Bay) (vxe : Bool) (st : Status) (remote : Bool) (id : Nat) (s : State),
    s.syncOwner d b vxe = some id ∧ st ≠ .ok :=
  ⟨0, 0, false, .noRoute, true, 0, (runS {}).setMxe 0 0 { syncing := true }, by decide +kernel, by decide +kernel⟩
theorem witness_MatrixCommandsComplete_gatherSubmit_10 : ∃ (d : Die) (b : Bay) (g : GatherSub) (s : State),
    s.inReset d (pgMxe b) = false ∧ g.slot.toNat < 16 ∧ bitsOf (s.rd d (pgMxe b) 0x0C8) g.slot.toNat 1 = 1 ∧ g.rows.toNat ≠ 0 ∧ g.rows.toNat ≤ 128 ∧ s.rdF d (pgMxe b) 0x0C0 0 1 = 1 :=
  ⟨0, 0, testSub, ((State.reset.wrF 0 (pgMxe 0) 0x0C0 0 1 1).wr 0 (pgMxe 0) 0x0C8 1), by decide, by decide, by decide, by decide, by decide, by decide⟩
theorem witness_MatrixCommandsComplete_gatherRoundTimeout_11 : ∃ (d : Die) (b : Bay) (s : State),
    (s.gatherOf d b).opened ≠ [] ∧ (s.gatherOf d b).since + 1000 * s.gqTimeout d b ≤ s.now d :=
  ⟨0, 0, (State.reset.setGather 0 0 { opened := [testSub] }).wr 0 pgTim 0x080 (2 ^ 30), by decide, by decide⟩
theorem witness_MatrixCommandsComplete_gatherQueueDisable_12 : ∃ (w : Writer) (d : Die) (b : Bay) (c : Committed) (s : State),
    c = s.write1 d (pgMxe b) 0x0C0 w (putBits (s.rd d (pgMxe b) 0x0C0) 0 1 0) ∧ c.win.isSome = true ∧ c.s.rdF d (pgMxe b) 0x0C0 0 1 = 0 :=
  ⟨fwW, 0, 0, _, State.reset, rfl, by decide, by decide⟩
theorem witness_MatrixCommandsComplete_gqSlotsWrite_13 : ∃ (w : Writer) (d : Die) (b : Bay) (v : Word) (c : Committed) (u : State) (s : State),
    c = s.write1 d (pgMxe b) 0x0C8 w v.toNat ∧ c.win.isSome = true ∧ (u = c.s.gqDropWhere d b fun x => bitsOf (c.s.rd d (pgMxe b) 0x0C8) x.slot.toNat 1 = 0) :=
  ⟨fwW, 0, 0, 1, _, _, State.reset, rfl, by decide, rfl⟩
theorem witness_MatrixCommandsComplete_layerGateOpen_14 : ∃ (layer : Nat) (bk : Book) (l : Layer) (u : State) (s : State),
    s.books.active = some bk ∧ bk.layers[layer]? = some l ∧ ((allBays.any fun x => (s.bookMxe x.1 x.2).gate = some layer) = true) ∧ s.gateDone l layer = true ∧ ((Tab.find s.step.layerEv layer).isSome && l.cls = 0 && narrowFmt l.format) = false ∧ u = { s with step := { s.step with gates := s.step.gates ++ [layer] } } :=
  ⟨0, { layers := [testLayer] }, testLayer, _, (runS { layers := [testLayer] }).setMxe 0 0 { gate := some 0 }, by decide, by decide, by decide, by decide, by decide, rfl⟩
theorem witness_MatrixCommandsComplete_layerGateOpen_15 : ∃ (layer tile kind : Nat) (bk : Book) (l : Layer) (u v : State) (s : State),
    s.books.active = some bk ∧ bk.layers[layer]? = some l ∧ ((allBays.any fun x => (s.bookMxe x.1 x.2).gate = some layer) = true) ∧ s.gateDone l layer = true ∧ Tab.find s.step.layerEv layer = some (tile, kind) ∧ l.cls = 0 ∧ narrowFmt l.format = true ∧ v = ((({ s with step := { s.step with repeated := s.step.repeated ++ [layer] } }).satF 0 pgStp 0x120 0 16 1).wr 0 pgStp 0x128 (l.layerId % 2 ^ 32 + kind % 4 * 2 ^ 32)).logAt 0 srcHw .fallback [State.stepNum (({ s with step := { s.step with repeated := s.step.repeated ++ [layer] } }).satF 0 pgStp 0x120 0 16 1), l.layerId, tile, kind] ∧ u = { v with step := { v.step with gates := v.step.gates ++ [layer] } } :=
  ⟨0, 0, 0, { layers := [testLayer] }, testLayer, _, _, (fun t : State => { t with step := { t.step with layerEv := [(0, (0, 0))] } }) ((runS { layers := [testLayer] }).setMxe 0 0 { gate := some 0 }), by decide, by decide, by decide, by decide, by decide, by decide, by decide, rfl, rfl⟩
theorem witness_VectorArithmeticCompletes_vxeAdd_0 : ∃ (u : Unit36) (a : VArgs) (r : VxeRegs) (f : Fmt) (g : FpFmt) (s : State),
    s.vxeIn u (.vxeAdd u a) r f ∧ f.isWideFp = true ∧ f.fp? = some g :=
  ⟨⟨0, 0⟩, ⟨0, 0, 0, false, false, 0, 0⟩, (vxeS (.vxeAdd (⟨0, 0⟩) (⟨0, 0, 0, false, false, 0, 0⟩)) 2 |>.vxeOf 0 0).regs, .fp32, fp32L, vxeS (.vxeAdd (⟨0, 0⟩) (⟨0, 0, 0, false, false, 0, 0⟩)) 2, ⟨by decide, rfl, by decide⟩, by decide, by decide⟩
theorem witness_VectorArithmeticCompletes_vxeAdd_1 : ∃ (u : Unit36) (a : VArgs) (r : VxeRegs) (f : Fmt) (w : Nat) (s : State),
    s.vxeIn u (.vxeAdd u a) r f ∧ f.isWideFp = false ∧ f.int? = some w :=
  ⟨⟨0, 0⟩, ⟨0, 0, 0, false, false, 0, 0⟩, (vxeS (.vxeAdd (⟨0, 0⟩) (⟨0, 0, 0, false, false, 0, 0⟩)) 12 |>.vxeOf 0 0).regs, .int32, 32, vxeS (.vxeAdd (⟨0, 0⟩) (⟨0, 0, 0, false, false, 0, 0⟩)) 12, ⟨by decide, rfl, by decide⟩, by decide, by decide⟩
theorem witness_VectorArithmeticCompletes_vxeSub_2 : ∃ (u : Unit36) (a : VArgs) (r : VxeRegs) (f : Fmt) (g : FpFmt) (s : State),
    s.vxeIn u (.vxeSub u a) r f ∧ f.isWideFp = true ∧ f.fp? = some g :=
  ⟨⟨0, 0⟩, ⟨0, 0, 0, false, false, 0, 0⟩, (vxeS (.vxeSub (⟨0, 0⟩) (⟨0, 0, 0, false, false, 0, 0⟩)) 2 |>.vxeOf 0 0).regs, .fp32, fp32L, vxeS (.vxeSub (⟨0, 0⟩) (⟨0, 0, 0, false, false, 0, 0⟩)) 2, ⟨by decide, rfl, by decide⟩, by decide, by decide⟩
theorem witness_VectorArithmeticCompletes_vxeSub_3 : ∃ (u : Unit36) (a : VArgs) (r : VxeRegs) (f : Fmt) (w : Nat) (s : State),
    s.vxeIn u (.vxeSub u a) r f ∧ f.isWideFp = false ∧ f.int? = some w :=
  ⟨⟨0, 0⟩, ⟨0, 0, 0, false, false, 0, 0⟩, (vxeS (.vxeSub (⟨0, 0⟩) (⟨0, 0, 0, false, false, 0, 0⟩)) 12 |>.vxeOf 0 0).regs, .int32, 32, vxeS (.vxeSub (⟨0, 0⟩) (⟨0, 0, 0, false, false, 0, 0⟩)) 12, ⟨by decide, rfl, by decide⟩, by decide, by decide⟩
theorem witness_VectorArithmeticCompletes_vxeMul_4 : ∃ (u : Unit36) (a : VArgs) (r : VxeRegs) (f : Fmt) (g : FpFmt) (s : State),
    s.vxeIn u (.vxeMul u a) r f ∧ f.isWideFp = true ∧ f.fp? = some g :=
  ⟨⟨0, 0⟩, ⟨0, 0, 0, false, false, 0, 0⟩, (vxeS (.vxeMul (⟨0, 0⟩) (⟨0, 0, 0, false, false, 0, 0⟩)) 2 |>.vxeOf 0 0).regs, .fp32, fp32L, vxeS (.vxeMul (⟨0, 0⟩) (⟨0, 0, 0, false, false, 0, 0⟩)) 2, ⟨by decide, rfl, by decide⟩, by decide, by decide⟩
theorem witness_VectorArithmeticCompletes_vxeMul_5 : ∃ (u : Unit36) (a : VArgs) (r : VxeRegs) (f : Fmt) (w : Nat) (s : State),
    s.vxeIn u (.vxeMul u a) r f ∧ f.isWideFp = false ∧ f.int? = some w :=
  ⟨⟨0, 0⟩, ⟨0, 0, 0, false, false, 0, 0⟩, (vxeS (.vxeMul (⟨0, 0⟩) (⟨0, 0, 0, false, false, 0, 0⟩)) 12 |>.vxeOf 0 0).regs, .int32, 32, vxeS (.vxeMul (⟨0, 0⟩) (⟨0, 0, 0, false, false, 0, 0⟩)) 12, ⟨by decide, rfl, by decide⟩, by decide, by decide⟩
theorem witness_VectorArithmeticCompletes_vxeDiv_6 : ∃ (u : Unit36) (a : VArgs) (r : VxeRegs) (f : Fmt) (g : FpFmt) (s : State),
    s.vxeIn u (.vxeDiv u a) r f ∧ f.isWideFp = true ∧ f.fp? = some g :=
  ⟨⟨0, 0⟩, ⟨0, 0, 0, false, false, 0, 0⟩, (vxeS (.vxeDiv (⟨0, 0⟩) (⟨0, 0, 0, false, false, 0, 0⟩)) 2 |>.vxeOf 0 0).regs, .fp32, fp32L, vxeS (.vxeDiv (⟨0, 0⟩) (⟨0, 0, 0, false, false, 0, 0⟩)) 2, ⟨by decide, rfl, by decide⟩, by decide, by decide⟩
theorem witness_VectorArithmeticCompletes_vxeSqrt_7 : ∃ (u : Unit36) (a : VArgs) (r : VxeRegs) (f : Fmt) (g : FpFmt) (s : State),
    s.vxeIn u (.vxeSqrt u a) r f ∧ f.isWideFp = true ∧ f.fp? = some g :=
  ⟨⟨0, 0⟩, ⟨0, 0, 0, false, false, 0, 0⟩, (vxeS (.vxeSqrt (⟨0, 0⟩) (⟨0, 0, 0, false, false, 0, 0⟩)) 2 |>.vxeOf 0 0).regs, .fp32, fp32L, vxeS (.vxeSqrt (⟨0, 0⟩) (⟨0, 0, 0, false, false, 0, 0⟩)) 2, ⟨by decide, rfl, by decide⟩, by decide, by decide⟩
theorem witness_VectorArithmeticCompletes_vxeMin_8 : ∃ (u : Unit36) (a : VArgs) (r : VxeRegs) (f : Fmt) (g : FpFmt) (s : State),
    s.vxeIn u (.vxeMin u a) r f ∧ f.isWideFp = true ∧ f.fp? = some g :=
  ⟨⟨0, 0⟩, ⟨0, 0, 0, false, false, 0, 0⟩, (vxeS (.vxeMin (⟨0, 0⟩) (⟨0, 0, 0, false, false, 0, 0⟩)) 2 |>.vxeOf 0 0).regs, .fp32, fp32L, vxeS (.vxeMin (⟨0, 0⟩) (⟨0, 0, 0, false, false, 0, 0⟩)) 2, ⟨by decide, rfl, by decide⟩, by decide, by decide⟩
theorem witness_VectorArithmeticCompletes_vxeMin_9 : ∃ (u : Unit36) (a : VArgs) (r : VxeRegs) (f : Fmt) (w : Nat) (s : State),
    s.vxeIn u (.vxeMin u a) r f ∧ f.isWideFp = false ∧ f.int? = some w :=
  ⟨⟨0, 0⟩, ⟨0, 0, 0, false, false, 0, 0⟩, (vxeS (.vxeMin (⟨0, 0⟩) (⟨0, 0, 0, false, false, 0, 0⟩)) 12 |>.vxeOf 0 0).regs, .int32, 32, vxeS (.vxeMin (⟨0, 0⟩) (⟨0, 0, 0, false, false, 0, 0⟩)) 12, ⟨by decide, rfl, by decide⟩, by decide, by decide⟩
theorem witness_VectorArithmeticCompletes_vxeMax_10 : ∃ (u : Unit36) (a : VArgs) (r : VxeRegs) (f : Fmt) (g : FpFmt) (s : State),
    s.vxeIn u (.vxeMax u a) r f ∧ f.isWideFp = true ∧ f.fp? = some g :=
  ⟨⟨0, 0⟩, ⟨0, 0, 0, false, false, 0, 0⟩, (vxeS (.vxeMax (⟨0, 0⟩) (⟨0, 0, 0, false, false, 0, 0⟩)) 2 |>.vxeOf 0 0).regs, .fp32, fp32L, vxeS (.vxeMax (⟨0, 0⟩) (⟨0, 0, 0, false, false, 0, 0⟩)) 2, ⟨by decide, rfl, by decide⟩, by decide, by decide⟩
theorem witness_VectorArithmeticCompletes_vxeMax_11 : ∃ (u : Unit36) (a : VArgs) (r : VxeRegs) (f : Fmt) (w : Nat) (s : State),
    s.vxeIn u (.vxeMax u a) r f ∧ f.isWideFp = false ∧ f.int? = some w :=
  ⟨⟨0, 0⟩, ⟨0, 0, 0, false, false, 0, 0⟩, (vxeS (.vxeMax (⟨0, 0⟩) (⟨0, 0, 0, false, false, 0, 0⟩)) 12 |>.vxeOf 0 0).regs, .int32, 32, vxeS (.vxeMax (⟨0, 0⟩) (⟨0, 0, 0, false, false, 0, 0⟩)) 12, ⟨by decide, rfl, by decide⟩, by decide, by decide⟩
theorem witness_VectorArithmeticCompletes_vxeMini_12 : ∃ (u : Unit36) (a : VArgs) (r : VxeRegs) (f : Fmt) (g : FpFmt) (s : State),
    s.vxeIn u (.vxeMini u a) r f ∧ f.isWideFp = true ∧ f.fp? = some g :=
  ⟨⟨0, 0⟩, ⟨0, 0, 0, false, false, 0, 0⟩, (vxeS (.vxeMini (⟨0, 0⟩) (⟨0, 0, 0, false, false, 0, 0⟩)) 2 |>.vxeOf 0 0).regs, .fp32, fp32L, vxeS (.vxeMini (⟨0, 0⟩) (⟨0, 0, 0, false, false, 0, 0⟩)) 2, ⟨by decide, rfl, by decide⟩, by decide, by decide⟩
theorem witness_VectorArithmeticCompletes_vxeMaxi_13 : ∃ (u : Unit36) (a : VArgs) (r : VxeRegs) (f : Fmt) (g : FpFmt) (s : State),
    s.vxeIn u (.vxeMaxi u a) r f ∧ f.isWideFp = true ∧ f.fp? = some g :=
  ⟨⟨0, 0⟩, ⟨0, 0, 0, false, false, 0, 0⟩, (vxeS (.vxeMaxi (⟨0, 0⟩) (⟨0, 0, 0, false, false, 0, 0⟩)) 2 |>.vxeOf 0 0).regs, .fp32, fp32L, vxeS (.vxeMaxi (⟨0, 0⟩) (⟨0, 0, 0, false, false, 0, 0⟩)) 2, ⟨by decide, rfl, by decide⟩, by decide, by decide⟩
theorem witness_VectorArithmeticCompletes_vxeNeg_14 : ∃ (u : Unit36) (a : VArgs) (r : VxeRegs) (f : Fmt) (g : FpFmt) (s : State),
    s.vxeIn u (.vxeNeg u a) r f ∧ f.isWideFp = true ∧ f.fp? = some g :=
  ⟨⟨0, 0⟩, ⟨0, 0, 0, false, false, 0, 0⟩, (vxeS (.vxeNeg (⟨0, 0⟩) (⟨0, 0, 0, false, false, 0, 0⟩)) 2 |>.vxeOf 0 0).regs, .fp32, fp32L, vxeS (.vxeNeg (⟨0, 0⟩) (⟨0, 0, 0, false, false, 0, 0⟩)) 2, ⟨by decide, rfl, by decide⟩, by decide, by decide⟩
theorem witness_VectorArithmeticCompletes_vxeNeg_15 : ∃ (u : Unit36) (a : VArgs) (r : VxeRegs) (f : Fmt) (w : Nat) (s : State),
    s.vxeIn u (.vxeNeg u a) r f ∧ f.isWideFp = false ∧ f.int? = some w :=
  ⟨⟨0, 0⟩, ⟨0, 0, 0, false, false, 0, 0⟩, (vxeS (.vxeNeg (⟨0, 0⟩) (⟨0, 0, 0, false, false, 0, 0⟩)) 12 |>.vxeOf 0 0).regs, .int32, 32, vxeS (.vxeNeg (⟨0, 0⟩) (⟨0, 0, 0, false, false, 0, 0⟩)) 12, ⟨by decide, rfl, by decide⟩, by decide, by decide⟩
theorem witness_VectorArithmeticCompletes_vxeAbs_16 : ∃ (u : Unit36) (a : VArgs) (r : VxeRegs) (f : Fmt) (g : FpFmt) (s : State),
    s.vxeIn u (.vxeAbs u a) r f ∧ f.isWideFp = true ∧ f.fp? = some g :=
  ⟨⟨0, 0⟩, ⟨0, 0, 0, false, false, 0, 0⟩, (vxeS (.vxeAbs (⟨0, 0⟩) (⟨0, 0, 0, false, false, 0, 0⟩)) 2 |>.vxeOf 0 0).regs, .fp32, fp32L, vxeS (.vxeAbs (⟨0, 0⟩) (⟨0, 0, 0, false, false, 0, 0⟩)) 2, ⟨by decide, rfl, by decide⟩, by decide, by decide⟩
theorem witness_VectorArithmeticCompletes_vxeAbs_17 : ∃ (u : Unit36) (a : VArgs) (r : VxeRegs) (f : Fmt) (w : Nat) (s : State),
    s.vxeIn u (.vxeAbs u a) r f ∧ f.isWideFp = false ∧ f.int? = some w :=
  ⟨⟨0, 0⟩, ⟨0, 0, 0, false, false, 0, 0⟩, (vxeS (.vxeAbs (⟨0, 0⟩) (⟨0, 0, 0, false, false, 0, 0⟩)) 12 |>.vxeOf 0 0).regs, .int32, 32, vxeS (.vxeAbs (⟨0, 0⟩) (⟨0, 0, 0, false, false, 0, 0⟩)) 12, ⟨by decide, rfl, by decide⟩, by decide, by decide⟩
theorem witness_VectorArithmeticCompletes_vxeCsgn_18 : ∃ (u : Unit36) (a : VArgs) (r : VxeRegs) (f : Fmt) (g : FpFmt) (s : State),
    s.vxeIn u (.vxeCsgn u a) r f ∧ f.isWideFp = true ∧ f.fp? = some g :=
  ⟨⟨0, 0⟩, ⟨0, 0, 0, false, false, 0, 0⟩, (vxeS (.vxeCsgn (⟨0, 0⟩) (⟨0, 0, 0, false, false, 0, 0⟩)) 2 |>.vxeOf 0 0).regs, .fp32, fp32L, vxeS (.vxeCsgn (⟨0, 0⟩) (⟨0, 0, 0, false, false, 0, 0⟩)) 2, ⟨by decide, rfl, by decide⟩, by decide, by decide⟩
theorem witness_VectorArithmeticCompletes_vxeRti_19 : ∃ (u : Unit36) (a : VArgs) (r : VxeRegs) (f : Fmt) (g : FpFmt) (s : State),
    s.vxeIn u (.vxeRti u a) r f ∧ f.isWideFp = true ∧ f.fp? = some g :=
  ⟨⟨0, 0⟩, ⟨0, 0, 0, false, false, 0, 0⟩, (vxeS (.vxeRti (⟨0, 0⟩) (⟨0, 0, 0, false, false, 0, 0⟩)) 2 |>.vxeOf 0 0).regs, .fp32, fp32L, vxeS (.vxeRti (⟨0, 0⟩) (⟨0, 0, 0, false, false, 0, 0⟩)) 2, ⟨by decide, rfl, by decide⟩, by decide, by decide⟩
theorem witness_VectorArithmeticCompletes_vxeRece_20 : ∃ (u : Unit36) (a : VArgs) (r : VxeRegs) (f : Fmt) (g : FpFmt) (s : State),
    s.vxeIn u (.vxeRece u a) r f ∧ f.isWideFp = true ∧ f.fp? = some g :=
  ⟨⟨0, 0⟩, ⟨0, 0, 0, false, false, 0, 0⟩, (vxeS (.vxeRece (⟨0, 0⟩) (⟨0, 0, 0, false, false, 0, 0⟩)) 2 |>.vxeOf 0 0).regs, .fp32, fp32L, vxeS (.vxeRece (⟨0, 0⟩) (⟨0, 0, 0, false, false, 0, 0⟩)) 2, ⟨by decide, rfl, by decide⟩, by decide, by decide⟩
theorem witness_VectorArithmeticCompletes_vxeRsqe_21 : ∃ (u : Unit36) (a : VArgs) (r : VxeRegs) (f : Fmt) (g : FpFmt) (s : State),
    s.vxeIn u (.vxeRsqe u a) r f ∧ f.isWideFp = true ∧ f.fp? = some g :=
  ⟨⟨0, 0⟩, ⟨0, 0, 0, false, false, 0, 0⟩, (vxeS (.vxeRsqe (⟨0, 0⟩) (⟨0, 0, 0, false, false, 0, 0⟩)) 2 |>.vxeOf 0 0).regs, .fp32, fp32L, vxeS (.vxeRsqe (⟨0, 0⟩) (⟨0, 0, 0, false, false, 0, 0⟩)) 2, ⟨by decide, rfl, by decide⟩, by decide, by decide⟩
theorem witness_VectorLogicCompletes_vxeMov_0 : ∃ (u : Unit36) (a : VArgs) (r : VxeRegs) (f : Fmt) (s : State),
    s.vxeIn u (.vxeMov u a) r f :=
  ⟨⟨0, 0⟩, ⟨0, 0, 0, false, false, 0, 0⟩, (vxeS (.vxeMov (⟨0, 0⟩) (⟨0, 0, 0, false, false, 0, 0⟩)) 14 |>.vxeOf 0 0).regs, .raw8, vxeS (.vxeMov (⟨0, 0⟩) (⟨0, 0, 0, false, false, 0, 0⟩)) 14, ⟨by decide, rfl, by decide⟩⟩
theorem witness_VectorLogicCompletes_vxeAnd_1 : ∃ (u : Unit36) (a : VArgs) (r : VxeRegs) (f : Fmt) (w : Nat) (s : State),
    s.vxeIn u (.vxeAnd u a) r f ∧ f.isWideFp = false ∧ f.int? = some w :=
  ⟨⟨0, 0⟩, ⟨0, 0, 0, false, false, 0, 0⟩, (vxeS (.vxeAnd (⟨0, 0⟩) (⟨0, 0, 0, false, false, 0, 0⟩)) 12 |>.vxeOf 0 0).regs, .int32, 32, vxeS (.vxeAnd (⟨0, 0⟩) (⟨0, 0, 0, false, false, 0, 0⟩)) 12, ⟨by decide, rfl, by decide⟩, by decide, by decide⟩
theorem witness_VectorLogicCompletes_vxeAnd_2 : ∃ (u : Unit36) (a : VArgs) (r : VxeRegs) (f : Fmt) (s : State),
    s.vxeIn u (.vxeAnd u a) r f ∧ f = .raw8 :=
  ⟨⟨0, 0⟩, ⟨0, 0, 0, false, false, 0, 0⟩, (vxeS (.vxeAnd (⟨0, 0⟩) (⟨0, 0, 0, false, false, 0, 0⟩)) 14 |>.vxeOf 0 0).regs, .raw8, vxeS (.vxeAnd (⟨0, 0⟩) (⟨0, 0, 0, false, false, 0, 0⟩)) 14, ⟨by decide, rfl, by decide⟩, by decide⟩
theorem witness_VectorLogicCompletes_vxeOr_3 : ∃ (u : Unit36) (a : VArgs) (r : VxeRegs) (f : Fmt) (w : Nat) (s : State),
    s.vxeIn u (.vxeOr u a) r f ∧ f.isWideFp = false ∧ f.int? = some w :=
  ⟨⟨0, 0⟩, ⟨0, 0, 0, false, false, 0, 0⟩, (vxeS (.vxeOr (⟨0, 0⟩) (⟨0, 0, 0, false, false, 0, 0⟩)) 12 |>.vxeOf 0 0).regs, .int32, 32, vxeS (.vxeOr (⟨0, 0⟩) (⟨0, 0, 0, false, false, 0, 0⟩)) 12, ⟨by decide, rfl, by decide⟩, by decide, by decide⟩
theorem witness_VectorLogicCompletes_vxeOr_4 : ∃ (u : Unit36) (a : VArgs) (r : VxeRegs) (f : Fmt) (s : State),
    s.vxeIn u (.vxeOr u a) r f ∧ f = .raw8 :=
  ⟨⟨0, 0⟩, ⟨0, 0, 0, false, false, 0, 0⟩, (vxeS (.vxeOr (⟨0, 0⟩) (⟨0, 0, 0, false, false, 0, 0⟩)) 14 |>.vxeOf 0 0).regs, .raw8, vxeS (.vxeOr (⟨0, 0⟩) (⟨0, 0, 0, false, false, 0, 0⟩)) 14, ⟨by decide, rfl, by decide⟩, by decide⟩
theorem witness_VectorLogicCompletes_vxeXor_5 : ∃ (u : Unit36) (a : VArgs) (r : VxeRegs) (f : Fmt) (w : Nat) (s : State),
    s.vxeIn u (.vxeXor u a) r f ∧ f.isWideFp = false ∧ f.int? = some w :=
  ⟨⟨0, 0⟩, ⟨0, 0, 0, false, false, 0, 0⟩, (vxeS (.vxeXor (⟨0, 0⟩) (⟨0, 0, 0, false, false, 0, 0⟩)) 12 |>.vxeOf 0 0).regs, .int32, 32, vxeS (.vxeXor (⟨0, 0⟩) (⟨0, 0, 0, false, false, 0, 0⟩)) 12, ⟨by decide, rfl, by decide⟩, by decide, by decide⟩
theorem witness_VectorLogicCompletes_vxeXor_6 : ∃ (u : Unit36) (a : VArgs) (r : VxeRegs) (f : Fmt) (s : State),
    s.vxeIn u (.vxeXor u a) r f ∧ f = .raw8 :=
  ⟨⟨0, 0⟩, ⟨0, 0, 0, false, false, 0, 0⟩, (vxeS (.vxeXor (⟨0, 0⟩) (⟨0, 0, 0, false, false, 0, 0⟩)) 14 |>.vxeOf 0 0).regs, .raw8, vxeS (.vxeXor (⟨0, 0⟩) (⟨0, 0, 0, false, false, 0, 0⟩)) 14, ⟨by decide, rfl, by decide⟩, by decide⟩
theorem witness_VectorLogicCompletes_vxeSll_7 : ∃ (u : Unit36) (a : VArgs) (r : VxeRegs) (f : Fmt) (w : Nat) (s : State),
    s.vxeIn u (.vxeSll u a) r f ∧ f.isWideFp = false ∧ f.int? = some w :=
  ⟨⟨0, 0⟩, ⟨0, 0, 0, false, false, 0, 0⟩, (vxeS (.vxeSll (⟨0, 0⟩) (⟨0, 0, 0, false, false, 0, 0⟩)) 12 |>.vxeOf 0 0).regs, .int32, 32, vxeS (.vxeSll (⟨0, 0⟩) (⟨0, 0, 0, false, false, 0, 0⟩)) 12, ⟨by decide, rfl, by decide⟩, by decide, by decide⟩
theorem witness_VectorLogicCompletes_vxeSrl_8 : ∃ (u : Unit36) (a : VArgs) (r : VxeRegs) (f : Fmt) (w : Nat) (s : State),
    s.vxeIn u (.vxeSrl u a) r f ∧ f.isWideFp = false ∧ f.int? = some w :=
  ⟨⟨0, 0⟩, ⟨0, 0, 0, false, false, 0, 0⟩, (vxeS (.vxeSrl (⟨0, 0⟩) (⟨0, 0, 0, false, false, 0, 0⟩)) 12 |>.vxeOf 0 0).regs, .int32, 32, vxeS (.vxeSrl (⟨0, 0⟩) (⟨0, 0, 0, false, false, 0, 0⟩)) 12, ⟨by decide, rfl, by decide⟩, by decide, by decide⟩
theorem witness_VectorLogicCompletes_vxeSra_9 : ∃ (u : Unit36) (a : VArgs) (r : VxeRegs) (f : Fmt) (w : Nat) (s : State),
    s.vxeIn u (.vxeSra u a) r f ∧ f.isWideFp = false ∧ f.int? = some w :=
  ⟨⟨0, 0⟩, ⟨0, 0, 0, false, false, 0, 0⟩, (vxeS (.vxeSra (⟨0, 0⟩) (⟨0, 0, 0, false, false, 0, 0⟩)) 12 |>.vxeOf 0 0).regs, .int32, 32, vxeS (.vxeSra (⟨0, 0⟩) (⟨0, 0, 0, false, false, 0, 0⟩)) 12, ⟨by decide, rfl, by decide⟩, by decide, by decide⟩
theorem witness_VectorLogicCompletes_vxeMrg_10 : ∃ (u : Unit36) (a : VArgs) (r : VxeRegs) (f : Fmt) (s : State),
    s.vxeIn u (.vxeMrg u a) r f :=
  ⟨⟨0, 0⟩, ⟨0, 0, 0, false, false, 0, 0⟩, (vxeS (.vxeMrg (⟨0, 0⟩) (⟨0, 0, 0, false, false, 0, 0⟩)) 14 |>.vxeOf 0 0).regs, .raw8, vxeS (.vxeMrg (⟨0, 0⟩) (⟨0, 0, 0, false, false, 0, 0⟩)) 14, ⟨by decide, rfl, by decide⟩⟩
theorem witness_VectorLogicCompletes_vxeIota_11 : ∃ (u : Unit36) (a : VArgs) (r : VxeRegs) (f : Fmt) (w : Nat) (s : State),
    s.vxeIn u (.vxeIota u a) r f ∧ f.isWideFp = false ∧ f.int? = some w :=
  ⟨⟨0, 0⟩, ⟨0, 0, 0, false, false, 0, 0⟩, (vxeS (.vxeIota (⟨0, 0⟩) (⟨0, 0, 0, false, false, 0, 0⟩)) 12 |>.vxeOf 0 0).regs, .int32, 32, vxeS (.vxeIota (⟨0, 0⟩) (⟨0, 0, 0, false, false, 0, 0⟩)) 12, ⟨by decide, rfl, by decide⟩, by decide, by decide⟩
theorem witness_VectorFusedAndCompareComplete_vxeFma_0 : ∃ (u : Unit36) (a : VArgs) (r : VxeRegs) (f : Fmt) (g : FpFmt) (s : State),
    s.vxeIn u (.vxeFma u a) r f ∧ f.isWideFp = true ∧ f.fp? = some g :=
  ⟨⟨0, 0⟩, ⟨0, 0, 0, false, false, 0, 0⟩, (vxeS (.vxeFma (⟨0, 0⟩) (⟨0, 0, 0, false, false, 0, 0⟩)) 2 |>.vxeOf 0 0).regs, .fp32, fp32L, vxeS (.vxeFma (⟨0, 0⟩) (⟨0, 0, 0, false, false, 0, 0⟩)) 2, ⟨by decide, rfl, by decide⟩, by decide, by decide⟩
theorem witness_VectorFusedAndCompareComplete_vxeFms_1 : ∃ (u : Unit36) (a : VArgs) (r : VxeRegs) (f : Fmt) (g : FpFmt) (s : State),
    s.vxeIn u (.vxeFms u a) r f ∧ f.isWideFp = true ∧ f.fp? = some g :=
  ⟨⟨0, 0⟩, ⟨0, 0, 0, false, false, 0, 0⟩, (vxeS (.vxeFms (⟨0, 0⟩) (⟨0, 0, 0, false, false, 0, 0⟩)) 2 |>.vxeOf 0 0).regs, .fp32, fp32L, vxeS (.vxeFms (⟨0, 0⟩) (⟨0, 0, 0, false, false, 0, 0⟩)) 2, ⟨by decide, rfl, by decide⟩, by decide, by decide⟩
theorem witness_VectorFusedAndCompareComplete_vxeFnma_2 : ∃ (u : Unit36) (a : VArgs) (r : VxeRegs) (f : Fmt) (g : FpFmt) (s : State),
    s.vxeIn u (.vxeFnma u a) r f ∧ f.isWideFp = true ∧ f.fp? = some g :=
  ⟨⟨0, 0⟩, ⟨0, 0, 0, false, false, 0, 0⟩, (vxeS (.vxeFnma (⟨0, 0⟩) (⟨0, 0, 0, false, false, 0, 0⟩)) 2 |>.vxeOf 0 0).regs, .fp32, fp32L, vxeS (.vxeFnma (⟨0, 0⟩) (⟨0, 0, 0, false, false, 0, 0⟩)) 2, ⟨by decide, rfl, by decide⟩, by decide, by decide⟩
theorem witness_VectorFusedAndCompareComplete_vxeFnms_3 : ∃ (u : Unit36) (a : VArgs) (r : VxeRegs) (f : Fmt) (g : FpFmt) (s : State),
    s.vxeIn u (.vxeFnms u a) r f ∧ f.isWideFp = true ∧ f.fp? = some g :=
  ⟨⟨0, 0⟩, ⟨0, 0, 0, false, false, 0, 0⟩, (vxeS (.vxeFnms (⟨0, 0⟩) (⟨0, 0, 0, false, false, 0, 0⟩)) 2 |>.vxeOf 0 0).regs, .fp32, fp32L, vxeS (.vxeFnms (⟨0, 0⟩) (⟨0, 0, 0, false, false, 0, 0⟩)) 2, ⟨by decide, rfl, by decide⟩, by decide, by decide⟩
theorem witness_VectorFusedAndCompareComplete_vxeCmpEq_4 : ∃ (u : Unit36) (a : VArgs) (r : VxeRegs) (f : Fmt) (g : FpFmt) (s : State),
    s.vxeIn u (.vxeCmpEq u a) r f ∧ f.isWideFp = true ∧ f.fp? = some g :=
  ⟨⟨0, 0⟩, ⟨0, 0, 0, false, false, 0, 0⟩, (vxeS (.vxeCmpEq (⟨0, 0⟩) (⟨0, 0, 0, false, false, 0, 0⟩)) 2 |>.vxeOf 0 0).regs, .fp32, fp32L, vxeS (.vxeCmpEq (⟨0, 0⟩) (⟨0, 0, 0, false, false, 0, 0⟩)) 2, ⟨by decide, rfl, by decide⟩, by decide, by decide⟩
theorem witness_VectorFusedAndCompareComplete_vxeCmpEq_5 : ∃ (u : Unit36) (a : VArgs) (r : VxeRegs) (f : Fmt) (w : Nat) (s : State),
    s.vxeIn u (.vxeCmpEq u a) r f ∧ f.isWideFp = false ∧ f.int? = some w :=
  ⟨⟨0, 0⟩, ⟨0, 0, 0, false, false, 0, 0⟩, (vxeS (.vxeCmpEq (⟨0, 0⟩) (⟨0, 0, 0, false, false, 0, 0⟩)) 12 |>.vxeOf 0 0).regs, .int32, 32, vxeS (.vxeCmpEq (⟨0, 0⟩) (⟨0, 0, 0, false, false, 0, 0⟩)) 12, ⟨by decide, rfl, by decide⟩, by decide, by decide⟩
theorem witness_VectorFusedAndCompareComplete_vxeCmpLt_6 : ∃ (u : Unit36) (a : VArgs) (r : VxeRegs) (f : Fmt) (g : FpFmt) (s : State),
    s.vxeIn u (.vxeCmpLt u a) r f ∧ f.isWideFp = true ∧ f.fp? = some g :=
  ⟨⟨0, 0⟩, ⟨0, 0, 0, false, false, 0, 0⟩, (vxeS (.vxeCmpLt (⟨0, 0⟩) (⟨0, 0, 0, false, false, 0, 0⟩)) 2 |>.vxeOf 0 0).regs, .fp32, fp32L, vxeS (.vxeCmpLt (⟨0, 0⟩) (⟨0, 0, 0, false, false, 0, 0⟩)) 2, ⟨by decide, rfl, by decide⟩, by decide, by decide⟩
theorem witness_VectorFusedAndCompareComplete_vxeCmpLt_7 : ∃ (u : Unit36) (a : VArgs) (r : VxeRegs) (f : Fmt) (w : Nat) (s : State),
    s.vxeIn u (.vxeCmpLt u a) r f ∧ f.isWideFp = false ∧ f.int? = some w :=
  ⟨⟨0, 0⟩, ⟨0, 0, 0, false, false, 0, 0⟩, (vxeS (.vxeCmpLt (⟨0, 0⟩) (⟨0, 0, 0, false, false, 0, 0⟩)) 12 |>.vxeOf 0 0).regs, .int32, 32, vxeS (.vxeCmpLt (⟨0, 0⟩) (⟨0, 0, 0, false, false, 0, 0⟩)) 12, ⟨by decide, rfl, by decide⟩, by decide, by decide⟩
theorem witness_VectorFusedAndCompareComplete_vxeCmpLe_8 : ∃ (u : Unit36) (a : VArgs) (r : VxeRegs) (f : Fmt) (g : FpFmt) (s : State),
    s.vxeIn u (.vxeCmpLe u a) r f ∧ f.isWideFp = true ∧ f.fp? = some g :=
  ⟨⟨0, 0⟩, ⟨0, 0, 0, false, false, 0, 0⟩, (vxeS (.vxeCmpLe (⟨0, 0⟩) (⟨0, 0, 0, false, false, 0, 0⟩)) 2 |>.vxeOf 0 0).regs, .fp32, fp32L, vxeS (.vxeCmpLe (⟨0, 0⟩) (⟨0, 0, 0, false, false, 0, 0⟩)) 2, ⟨by decide, rfl, by decide⟩, by decide, by decide⟩
theorem witness_VectorFusedAndCompareComplete_vxeCmpLe_9 : ∃ (u : Unit36) (a : VArgs) (r : VxeRegs) (f : Fmt) (w : Nat) (s : State),
    s.vxeIn u (.vxeCmpLe u a) r f ∧ f.isWideFp = false ∧ f.int? = some w :=
  ⟨⟨0, 0⟩, ⟨0, 0, 0, false, false, 0, 0⟩, (vxeS (.vxeCmpLe (⟨0, 0⟩) (⟨0, 0, 0, false, false, 0, 0⟩)) 12 |>.vxeOf 0 0).regs, .int32, 32, vxeS (.vxeCmpLe (⟨0, 0⟩) (⟨0, 0, 0, false, false, 0, 0⟩)) 12, ⟨by decide, rfl, by decide⟩, by decide, by decide⟩
theorem witness_VectorFusedAndCompareComplete_vxeCmpUn_10 : ∃ (u : Unit36) (a : VArgs) (r : VxeRegs) (f : Fmt) (g : FpFmt) (s : State),
    s.vxeIn u (.vxeCmpUn u a) r f ∧ f.isWideFp = true ∧ f.fp? = some g :=
  ⟨⟨0, 0⟩, ⟨0, 0, 0, false, false, 0, 0⟩, (vxeS (.vxeCmpUn (⟨0, 0⟩) (⟨0, 0, 0, false, false, 0, 0⟩)) 2 |>.vxeOf 0 0).regs, .fp32, fp32L, vxeS (.vxeCmpUn (⟨0, 0⟩) (⟨0, 0, 0, false, false, 0, 0⟩)) 2, ⟨by decide, rfl, by decide⟩, by decide, by decide⟩
theorem witness_VectorFusedAndCompareComplete_vxeCmpUn_11 : ∃ (u : Unit36) (a : VArgs) (r : VxeRegs) (f : Fmt) (w : Nat) (s : State),
    s.vxeIn u (.vxeCmpUn u a) r f ∧ f.isWideFp = false ∧ f.int? = some w :=
  ⟨⟨0, 0⟩, ⟨0, 0, 0, false, false, 0, 0⟩, (vxeS (.vxeCmpUn (⟨0, 0⟩) (⟨0, 0, 0, false, false, 0, 0⟩)) 12 |>.vxeOf 0 0).regs, .int32, 32, vxeS (.vxeCmpUn (⟨0, 0⟩) (⟨0, 0, 0, false, false, 0, 0⟩)) 12, ⟨by decide, rfl, by decide⟩, by decide, by decide⟩
theorem witness_VectorFusedAndCompareComplete_vxeCmpNe_12 : ∃ (u : Unit36) (a : VArgs) (r : VxeRegs) (f : Fmt) (g : FpFmt) (s : State),
    s.vxeIn u (.vxeCmpNe u a) r f ∧ f.isWideFp = true ∧ f.fp? = some g :=
  ⟨⟨0, 0⟩, ⟨0, 0, 0, false, false, 0, 0⟩, (vxeS (.vxeCmpNe (⟨0, 0⟩) (⟨0, 0, 0, false, false, 0, 0⟩)) 2 |>.vxeOf 0 0).regs, .fp32, fp32L, vxeS (.vxeCmpNe (⟨0, 0⟩) (⟨0, 0, 0, false, false, 0, 0⟩)) 2, ⟨by decide, rfl, by decide⟩, by decide, by decide⟩
theorem witness_VectorFusedAndCompareComplete_vxeCmpNe_13 : ∃ (u : Unit36) (a : VArgs) (r : VxeRegs) (f : Fmt) (w : Nat) (s : State),
    s.vxeIn u (.vxeCmpNe u a) r f ∧ f.isWideFp = false ∧ f.int? = some w :=
  ⟨⟨0, 0⟩, ⟨0, 0, 0, false, false, 0, 0⟩, (vxeS (.vxeCmpNe (⟨0, 0⟩) (⟨0, 0, 0, false, false, 0, 0⟩)) 12 |>.vxeOf 0 0).regs, .int32, 32, vxeS (.vxeCmpNe (⟨0, 0⟩) (⟨0, 0, 0, false, false, 0, 0⟩)) 12, ⟨by decide, rfl, by decide⟩, by decide, by decide⟩
theorem witness_VectorReductionsComplete_vxeRedSum_0 : ∃ (u : Unit36) (a : VArgs) (r : VxeRegs) (f : Fmt) (g : FpFmt) (s : State),
    s.vxeIn u (.vxeRedSum u a) r f ∧ f.isWideFp = true ∧ f.fp? = some g ∧ min r.vl f.vlmax ≠ 0 :=
  ⟨⟨0, 0⟩, ⟨0, 0, 0, false, false, 0, 0⟩, (vxeS (.vxeRedSum (⟨0, 0⟩) (⟨0, 0, 0, false, false, 0, 0⟩)) 2 |>.vxeOf 0 0).regs, .fp32, fp32L, vxeS (.vxeRedSum (⟨0, 0⟩) (⟨0, 0, 0, false, false, 0, 0⟩)) 2, ⟨by decide, rfl, by decide⟩, by decide, by decide, by decide⟩
theorem witness_VectorReductionsComplete_vxeRedSum_1 : ∃ (u : Unit36) (a : VArgs) (r : VxeRegs) (f : Fmt) (w : Nat) (s : State),
    s.vxeIn u (.vxeRedSum u a) r f ∧ f.isWideFp = false ∧ f.int? = some w ∧ min r.vl f.vlmax ≠ 0 :=
  ⟨⟨0, 0⟩, ⟨0, 0, 0, false, false, 0, 0⟩, (vxeS (.vxeRedSum (⟨0, 0⟩) (⟨0, 0, 0, false, false, 0, 0⟩)) 12 |>.vxeOf 0 0).regs, .int32, 32, vxeS (.vxeRedSum (⟨0, 0⟩) (⟨0, 0, 0, false, false, 0, 0⟩)) 12, ⟨by decide, rfl, by decide⟩, by decide, by decide, by decide⟩
theorem witness_VectorReductionsComplete_vxeRedMin_2 : ∃ (u : Unit36) (a : VArgs) (r : VxeRegs) (f : Fmt) (g : FpFmt) (s : State),
    s.vxeIn u (.vxeRedMin u a) r f ∧ f.isWideFp = true ∧ f.fp? = some g ∧ min r.vl f.vlmax ≠ 0 :=
  ⟨⟨0, 0⟩, ⟨0, 0, 0, false, false, 0, 0⟩, (vxeS (.vxeRedMin (⟨0, 0⟩) (⟨0, 0, 0, false, false, 0, 0⟩)) 2 |>.vxeOf 0 0).regs, .fp32, fp32L, vxeS (.vxeRedMin (⟨0, 0⟩) (⟨0, 0, 0, false, false, 0, 0⟩)) 2, ⟨by decide, rfl, by decide⟩, by decide, by decide, by decide⟩
theorem witness_VectorReductionsComplete_vxeRedMin_3 : ∃ (u : Unit36) (a : VArgs) (r : VxeRegs) (f : Fmt) (w : Nat) (s : State),
    s.vxeIn u (.vxeRedMin u a) r f ∧ f.isWideFp = false ∧ f.int? = some w ∧ min r.vl f.vlmax ≠ 0 :=
  ⟨⟨0, 0⟩, ⟨0, 0, 0, false, false, 0, 0⟩, (vxeS (.vxeRedMin (⟨0, 0⟩) (⟨0, 0, 0, false, false, 0, 0⟩)) 12 |>.vxeOf 0 0).regs, .int32, 32, vxeS (.vxeRedMin (⟨0, 0⟩) (⟨0, 0, 0, false, false, 0, 0⟩)) 12, ⟨by decide, rfl, by decide⟩, by decide, by decide, by decide⟩
theorem witness_VectorReductionsComplete_vxeRedMax_4 : ∃ (u : Unit36) (a : VArgs) (r : VxeRegs) (f : Fmt) (g : FpFmt) (s : State),
    s.vxeIn u (.vxeRedMax u a) r f ∧ f.isWideFp = true ∧ f.fp? = some g ∧ min r.vl f.vlmax ≠ 0 :=
  ⟨⟨0, 0⟩, ⟨0, 0, 0, false, false, 0, 0⟩, (vxeS (.vxeRedMax (⟨0, 0⟩) (⟨0, 0, 0, false, false, 0, 0⟩)) 2 |>.vxeOf 0 0).regs, .fp32, fp32L, vxeS (.vxeRedMax (⟨0, 0⟩) (⟨0, 0, 0, false, false, 0, 0⟩)) 2, ⟨by decide, rfl, by decide⟩, by decide, by decide, by decide⟩
theorem witness_VectorReductionsComplete_vxeRedMax_5 : ∃ (u : Unit36) (a : VArgs) (r : VxeRegs) (f : Fmt) (w : Nat) (s : State),
    s.vxeIn u (.vxeRedMax u a) r f ∧ f.isWideFp = false ∧ f.int? = some w ∧ min r.vl f.vlmax ≠ 0 :=
  ⟨⟨0, 0⟩, ⟨0, 0, 0, false, false, 0, 0⟩, (vxeS (.vxeRedMax (⟨0, 0⟩) (⟨0, 0, 0, false, false, 0, 0⟩)) 12 |>.vxeOf 0 0).regs, .int32, 32, vxeS (.vxeRedMax (⟨0, 0⟩) (⟨0, 0, 0, false, false, 0, 0⟩)) 12, ⟨by decide, rfl, by decide⟩, by decide, by decide, by decide⟩
theorem witness_VectorReductionsComplete_vxeRedAmax_6 : ∃ (u : Unit36) (a : VArgs) (r : VxeRegs) (f : Fmt) (g : FpFmt) (s : State),
    s.vxeIn u (.vxeRedAmax u a) r f ∧ f.isWideFp = true ∧ f.fp? = some g ∧ min r.vl f.vlmax ≠ 0 :=
  ⟨⟨0, 0⟩, ⟨0, 0, 0, false, false, 0, 0⟩, (vxeS (.vxeRedAmax (⟨0, 0⟩) (⟨0, 0, 0, false, false, 0, 0⟩)) 2 |>.vxeOf 0 0).regs, .fp32, fp32L, vxeS (.vxeRedAmax (⟨0, 0⟩) (⟨0, 0, 0, false, false, 0, 0⟩)) 2, ⟨by decide, rfl, by decide⟩, by decide, by decide, by decide⟩
theorem witness_VectorReductionsComplete_vxeRedSumw_7 : ∃ (u : Unit36) (a : VArgs) (r : VxeRegs) (f : Fmt) (g : FpFmt) (s : State),
    s.vxeIn u (.vxeRedSumw u a) r f ∧ (f = .fp16 ∨ f = .bf16) ∧ f.fp? = some g ∧ min r.vl (min f.vlmax Fmt.fp32.vlmax) ≠ 0 :=
  ⟨⟨0, 0⟩, ⟨0, 0, 0, false, false, 0, 0⟩, (vxeS (.vxeRedSumw (⟨0, 0⟩) (⟨0, 0, 0, false, false, 0, 0⟩)) 4 |>.vxeOf 0 0).regs, .bf16, bf16L, vxeS (.vxeRedSumw (⟨0, 0⟩) (⟨0, 0, 0, false, false, 0, 0⟩)) 4, ⟨by decide, rfl, by decide⟩, by decide, by decide, by decide⟩
theorem witness_VectorReductionsComplete_vxeRedRepamax_8 : ∃ (u : Unit36) (a : VArgs) (r : VxeRegs) (f : Fmt) (g : FpFmt) (s : State),
    s.vxeIn u (.vxeRedRepamax u a) r f ∧ f.isWideFp = true ∧ f.fp? = some g ∧ min r.vl f.vlmax ≠ 0 ∧ r.vtid ≠ 0xFFFFFFFF :=
  ⟨⟨0, 0⟩, ⟨0, 0, 0, false, false, 0, 0⟩, (vxeT (.vxeRedRepamax (⟨0, 0⟩) (⟨0, 0, 0, false, false, 0, 0⟩)) |>.vxeOf 0 0).regs, .fp32, fp32L, vxeT (.vxeRedRepamax (⟨0, 0⟩) (⟨0, 0, 0, false, false, 0, 0⟩)), ⟨by decide, rfl, by decide⟩, by decide, by decide, by decide, by decide⟩
theorem witness_VectorConfigurationCompletes_vxeSetvl_0 : ∃ (u : Unit36) (a : SArgs) (r : VxeRegs) (f : Fmt) (s : State),
    s.vxeAt u (.vxeSetvl u a) = true ∧ r = (s.vxeOf u.die u.bay).regs ∧ Fmt.ofCode (a.imm.toNat % 16) = some f :=
  ⟨⟨0, 0⟩, ⟨1, 2, 2⟩, _, .fp32, vxeS (.vxeSetvl (⟨0, 0⟩) (⟨1, 2, 2⟩)) 2, by decide, rfl, by decide⟩
theorem witness_VectorConfigurationCompletes_vxeSettid_1 : ∃ (u : Unit36) (a : SArgs) (r : VxeRegs) (s : State),
    s.vxeAt u (.vxeSettid u a) = true ∧ r = (s.vxeOf u.die u.bay).regs :=
  ⟨⟨0, 0⟩, ⟨1, 2, 0⟩, _, vxeS (.vxeSettid (⟨0, 0⟩) (⟨1, 2, 0⟩)) 2, by decide, rfl⟩
theorem witness_VectorConfigurationCompletes_vxeSetidx_2 : ∃ (u : Unit36) (a : SArgs) (r : VxeRegs) (s : State),
    s.vxeAt u (.vxeSetidx u a) = true ∧ r = (s.vxeOf u.die u.bay).regs :=
  ⟨⟨0, 0⟩, ⟨1, 2, 0⟩, _, vxeS (.vxeSetidx (⟨0, 0⟩) (⟨1, 2, 0⟩)) 2, by decide, rfl⟩
theorem witness_VectorConfigurationCompletes_vxeAddidx_3 : ∃ (u : Unit36) (a : SArgs) (r : VxeRegs) (s : State),
    s.vxeAt u (.vxeAddidx u a) = true ∧ r = (s.vxeOf u.die u.bay).regs :=
  ⟨⟨0, 0⟩, ⟨1, 2, 0⟩, _, vxeS (.vxeAddidx (⟨0, 0⟩) (⟨1, 2, 0⟩)) 2, by decide, rfl⟩
theorem witness_VectorConfigurationCompletes_vxeSetscl_4 : ∃ (u : Unit36) (a : SArgs) (r : VxeRegs) (s : State),
    s.vxeAt u (.vxeSetscl u a) = true ∧ r = (s.vxeOf u.die u.bay).regs :=
  ⟨⟨0, 0⟩, ⟨1, 2, 0⟩, _, vxeS (.vxeSetscl (⟨0, 0⟩) (⟨1, 2, 0⟩)) 2, by decide, rfl⟩
theorem witness_VectorConfigurationCompletes_vxeSetblk_5 : ∃ (u : Unit36) (a : SArgs) (r : VxeRegs) (s : State),
    s.vxeAt u (.vxeSetblk u a) = true ∧ r = (s.vxeOf u.die u.bay).regs :=
  ⟨⟨0, 0⟩, ⟨1, 2, 0⟩, _, vxeS (.vxeSetblk (⟨0, 0⟩) (⟨1, 2, 0⟩)) 2, by decide, rfl⟩
theorem witness_VectorConfigurationCompletes_vxeSetrm_6 : ∃ (u : Unit36) (a : SArgs) (r : VxeRegs) (s : State),
    s.vxeAt u (.vxeSetrm u a) = true ∧ r = (s.vxeOf u.die u.bay).regs ∧ a.imm.toNat % 8 ≤ 4 :=
  ⟨⟨0, 0⟩, ⟨1, 2, 0⟩, _, vxeS (.vxeSetrm (⟨0, 0⟩) (⟨1, 2, 0⟩)) 2, by decide, rfl, by decide⟩
theorem witness_VectorConfigurationCompletes_vxeRdflg_7 : ∃ (u : Unit36) (a : SArgs) (r : VxeRegs) (s : State),
    s.vxeAt u (.vxeRdflg u a) = true ∧ r = (s.vxeOf u.die u.bay).regs :=
  ⟨⟨0, 0⟩, ⟨1, 2, 0⟩, _, vxeS (.vxeRdflg (⟨0, 0⟩) (⟨1, 2, 0⟩)) 2, by decide, rfl⟩
theorem witness_VectorConfigurationCompletes_vxeClrflg_8 : ∃ (u : Unit36) (a : SArgs) (r : VxeRegs) (s : State),
    s.vxeAt u (.vxeClrflg u a) = true ∧ r = (s.vxeOf u.die u.bay).regs :=
  ⟨⟨0, 0⟩, ⟨1, 2, 0⟩, _, vxeS (.vxeClrflg (⟨0, 0⟩) (⟨1, 2, 0⟩)) 2, by decide, rfl⟩
theorem witness_VectorConfigurationCompletes_vxeRdvl_9 : ∃ (u : Unit36) (a : SArgs) (r : VxeRegs) (s : State),
    s.vxeAt u (.vxeRdvl u a) = true ∧ r = (s.vxeOf u.die u.bay).regs :=
  ⟨⟨0, 0⟩, ⟨1, 2, 0⟩, _, vxeS (.vxeRdvl (⟨0, 0⟩) (⟨1, 2, 0⟩)) 2, by decide, rfl⟩
theorem witness_VectorConfigurationCompletes_vxeVtos_10 : ∃ (u : Unit36) (a : SArgs) (r : VxeRegs) (f : Fmt) (s : State),
    s.vxeAt u (.vxeVtos u a) = true ∧ r = (s.vxeOf u.die u.bay).regs ∧ r.fmt = some f :=
  ⟨⟨0, 0⟩, ⟨1, 2, 0⟩, _, .fp32, vxeS (.vxeVtos (⟨0, 0⟩) (⟨1, 2, 0⟩)) 2, by decide, rfl, by decide⟩
theorem witness_VectorConfigurationCompletes_vxeStov_11 : ∃ (u : Unit36) (a : SArgs) (r : VxeRegs) (f : Fmt) (s : State),
    s.vxeAt u (.vxeStov u a) = true ∧ r = (s.vxeOf u.die u.bay).regs ∧ r.fmt = some f :=
  ⟨⟨0, 0⟩, ⟨1, 2, 0⟩, _, .fp32, vxeS (.vxeStov (⟨0, 0⟩) (⟨1, 2, 0⟩)) 2, by decide, rfl, by decide⟩
theorem witness_VectorScalarCompletes_vxeMskAnd_0 : ∃ (u : Unit36) (a : MArgs) (r : VxeRegs) (s : State),
    s.vxeAt u (.vxeMskAnd u a) = true ∧ r = (s.vxeOf u.die u.bay).regs :=
  ⟨⟨0, 0⟩, ⟨0, 1, 2⟩, _, vxeS (.vxeMskAnd (⟨0, 0⟩) (⟨0, 1, 2⟩)) 2, by decide, rfl⟩
theorem witness_VectorScalarCompletes_vxeMskOr_1 : ∃ (u : Unit36) (a : MArgs) (r : VxeRegs) (s : State),
    s.vxeAt u (.vxeMskOr u a) = true ∧ r = (s.vxeOf u.die u.bay).regs :=
  ⟨⟨0, 0⟩, ⟨0, 1, 2⟩, _, vxeS (.vxeMskOr (⟨0, 0⟩) (⟨0, 1, 2⟩)) 2, by decide, rfl⟩
theorem witness_VectorScalarCompletes_vxeMskXor_2 : ∃ (u : Unit36) (a : MArgs) (r : VxeRegs) (s : State),
    s.vxeAt u (.vxeMskXor u a) = true ∧ r = (s.vxeOf u.die u.bay).regs :=
  ⟨⟨0, 0⟩, ⟨0, 1, 2⟩, _, vxeS (.vxeMskXor (⟨0, 0⟩) (⟨0, 1, 2⟩)) 2, by decide, rfl⟩
theorem witness_VectorScalarCompletes_vxeMskAndn_3 : ∃ (u : Unit36) (a : MArgs) (r : VxeRegs) (s : State),
    s.vxeAt u (.vxeMskAndn u a) = true ∧ r = (s.vxeOf u.die u.bay).regs :=
  ⟨⟨0, 0⟩, ⟨0, 1, 2⟩, _, vxeS (.vxeMskAndn (⟨0, 0⟩) (⟨0, 1, 2⟩)) 2, by decide, rfl⟩
theorem witness_VectorScalarCompletes_vxeMskNot_4 : ∃ (u : Unit36) (a : MArgs) (r : VxeRegs) (s : State),
    s.vxeAt u (.vxeMskNot u a) = true ∧ r = (s.vxeOf u.die u.bay).regs :=
  ⟨⟨0, 0⟩, ⟨0, 1, 2⟩, _, vxeS (.vxeMskNot (⟨0, 0⟩) (⟨0, 1, 2⟩)) 2, by decide, rfl⟩
theorem witness_VectorScalarCompletes_vxeMskSet_5 : ∃ (u : Unit36) (a : MArgs) (r : VxeRegs) (s : State),
    s.vxeAt u (.vxeMskSet u a) = true ∧ r = (s.vxeOf u.die u.bay).regs :=
  ⟨⟨0, 0⟩, ⟨0, 1, 2⟩, _, vxeS (.vxeMskSet (⟨0, 0⟩) (⟨0, 1, 2⟩)) 2, by decide, rfl⟩
theorem witness_VectorScalarCompletes_vxeMskClr_6 : ∃ (u : Unit36) (a : MArgs) (r : VxeRegs) (s : State),
    s.vxeAt u (.vxeMskClr u a) = true ∧ r = (s.vxeOf u.die u.bay).regs :=
  ⟨⟨0, 0⟩, ⟨0, 1, 2⟩, _, vxeS (.vxeMskClr (⟨0, 0⟩) (⟨0, 1, 2⟩)) 2, by decide, rfl⟩
theorem witness_VectorScalarCompletes_vxeSclAddi_7 : ∃ (u : Unit36) (a : SArgs) (r : VxeRegs) (s : State),
    s.vxeAt u (.vxeSclAddi u a) = true ∧ r = (s.vxeOf u.die u.bay).regs :=
  ⟨⟨0, 0⟩, ⟨1, 2, 0⟩, _, vxeS (.vxeSclAddi (⟨0, 0⟩) (⟨1, 2, 0⟩)) 2, by decide, rfl⟩
theorem witness_VectorScalarCompletes_vxeSclAdd_8 : ∃ (u : Unit36) (a : SArgs) (r : VxeRegs) (s : State),
    s.vxeAt u (.vxeSclAdd u a) = true ∧ r = (s.vxeOf u.die u.bay).regs :=
  ⟨⟨0, 0⟩, ⟨1, 2, 0⟩, _, vxeS (.vxeSclAdd (⟨0, 0⟩) (⟨1, 2, 0⟩)) 2, by decide, rfl⟩
theorem witness_VectorScalarCompletes_vxeSclSub_9 : ∃ (u : Unit36) (a : SArgs) (r : VxeRegs) (s : State),
    s.vxeAt u (.vxeSclSub u a) = true ∧ r = (s.vxeOf u.die u.bay).regs :=
  ⟨⟨0, 0⟩, ⟨1, 2, 0⟩, _, vxeS (.vxeSclSub (⟨0, 0⟩) (⟨1, 2, 0⟩)) 2, by decide, rfl⟩
theorem witness_VectorScalarCompletes_vxeSclAnd_10 : ∃ (u : Unit36) (a : SArgs) (r : VxeRegs) (s : State),
    s.vxeAt u (.vxeSclAnd u a) = true ∧ r = (s.vxeOf u.die u.bay).regs :=
  ⟨⟨0, 0⟩, ⟨1, 2, 0⟩, _, vxeS (.vxeSclAnd (⟨0, 0⟩) (⟨1, 2, 0⟩)) 2, by decide, rfl⟩
theorem witness_VectorScalarCompletes_vxeSclOr_11 : ∃ (u : Unit36) (a : SArgs) (r : VxeRegs) (s : State),
    s.vxeAt u (.vxeSclOr u a) = true ∧ r = (s.vxeOf u.die u.bay).regs :=
  ⟨⟨0, 0⟩, ⟨1, 2, 0⟩, _, vxeS (.vxeSclOr (⟨0, 0⟩) (⟨1, 2, 0⟩)) 2, by decide, rfl⟩
theorem witness_VectorScalarCompletes_vxeSclXor_12 : ∃ (u : Unit36) (a : SArgs) (r : VxeRegs) (s : State),
    s.vxeAt u (.vxeSclXor u a) = true ∧ r = (s.vxeOf u.die u.bay).regs :=
  ⟨⟨0, 0⟩, ⟨1, 2, 0⟩, _, vxeS (.vxeSclXor (⟨0, 0⟩) (⟨1, 2, 0⟩)) 2, by decide, rfl⟩
theorem witness_VectorScalarCompletes_vxeSclMul_13 : ∃ (u : Unit36) (a : SArgs) (r : VxeRegs) (s : State),
    s.vxeAt u (.vxeSclMul u a) = true ∧ r = (s.vxeOf u.die u.bay).regs :=
  ⟨⟨0, 0⟩, ⟨1, 2, 0⟩, _, vxeS (.vxeSclMul (⟨0, 0⟩) (⟨1, 2, 0⟩)) 2, by decide, rfl⟩
theorem witness_VectorScalarCompletes_vxeSclSlli_14 : ∃ (u : Unit36) (a : SArgs) (r : VxeRegs) (s : State),
    s.vxeAt u (.vxeSclSlli u a) = true ∧ r = (s.vxeOf u.die u.bay).regs :=
  ⟨⟨0, 0⟩, ⟨1, 2, 0⟩, _, vxeS (.vxeSclSlli (⟨0, 0⟩) (⟨1, 2, 0⟩)) 2, by decide, rfl⟩
theorem witness_VectorScalarCompletes_vxeSclSrli_15 : ∃ (u : Unit36) (a : SArgs) (r : VxeRegs) (s : State),
    s.vxeAt u (.vxeSclSrli u a) = true ∧ r = (s.vxeOf u.die u.bay).regs :=
  ⟨⟨0, 0⟩, ⟨1, 2, 0⟩, _, vxeS (.vxeSclSrli (⟨0, 0⟩) (⟨1, 2, 0⟩)) 2, by decide, rfl⟩
theorem witness_VectorScalarCompletes_vxeSclSrai_16 : ∃ (u : Unit36) (a : SArgs) (r : VxeRegs) (s : State),
    s.vxeAt u (.vxeSclSrai u a) = true ∧ r = (s.vxeOf u.die u.bay).regs :=
  ⟨⟨0, 0⟩, ⟨1, 2, 0⟩, _, vxeS (.vxeSclSrai (⟨0, 0⟩) (⟨1, 2, 0⟩)) 2, by decide, rfl⟩
theorem witness_VectorScalarCompletes_vxeSclLih_17 : ∃ (u : Unit36) (a : SArgs) (r : VxeRegs) (s : State),
    s.vxeAt u (.vxeSclLih u a) = true ∧ r = (s.vxeOf u.die u.bay).regs :=
  ⟨⟨0, 0⟩, ⟨1, 2, 0⟩, _, vxeS (.vxeSclLih (⟨0, 0⟩) (⟨1, 2, 0⟩)) 2, by decide, rfl⟩
theorem witness_VectorBranchesComplete_vxeBeq_0 : ∃ (u : Unit36) (a : SArgs) (v : Vxe) (r : VxeRegs) (s : State),
    s.vxeAt u (.vxeBeq u a) = true ∧ v = s.vxeOf u.die u.bay ∧ r = v.regs ∧ r.sreg a.sx = r.sreg a.sy :=
  ⟨⟨0, 0⟩, ⟨1, 2, 0⟩, (vxeS (.vxeBeq (⟨0, 0⟩) (⟨1, 2, 0⟩)) 2 [] |>.vxeOf 0 0), (vxeS (.vxeBeq (⟨0, 0⟩) (⟨1, 2, 0⟩)) 2 [] |>.vxeOf 0 0).regs, vxeS (.vxeBeq (⟨0, 0⟩) (⟨1, 2, 0⟩)) 2 [], by decide, rfl, rfl, by decide⟩
theorem witness_VectorBranchesComplete_vxeBeq_1 : ∃ (u : Unit36) (a : SArgs) (v : Vxe) (r : VxeRegs) (s : State),
    s.vxeAt u (.vxeBeq u a) = true ∧ v = s.vxeOf u.die u.bay ∧ r = v.regs ∧ r.sreg a.sx ≠ r.sreg a.sy :=
  ⟨⟨0, 0⟩, ⟨1, 2, 0⟩, (vxeS (.vxeBeq (⟨0, 0⟩) (⟨1, 2, 0⟩)) 2 [(2, 1)] |>.vxeOf 0 0), (vxeS (.vxeBeq (⟨0, 0⟩) (⟨1, 2, 0⟩)) 2 [(2, 1)] |>.vxeOf 0 0).regs, vxeS (.vxeBeq (⟨0, 0⟩) (⟨1, 2, 0⟩)) 2 [(2, 1)], by decide, rfl, rfl, by decide⟩
theorem witness_VectorBranchesComplete_vxeBne_2 : ∃ (u : Unit36) (a : SArgs) (v : Vxe) (r : VxeRegs) (s : State),
    s.vxeAt u (.vxeBne u a) = true ∧ v = s.vxeOf u.die u.bay ∧ r = v.regs ∧ r.sreg a.sx ≠ r.sreg a.sy :=
  ⟨⟨0, 0⟩, ⟨1, 2, 0⟩, (vxeS (.vxeBne (⟨0, 0⟩) (⟨1, 2, 0⟩)) 2 [(2, 1)] |>.vxeOf 0 0), (vxeS (.vxeBne (⟨0, 0⟩) (⟨1, 2, 0⟩)) 2 [(2, 1)] |>.vxeOf 0 0).regs, vxeS (.vxeBne (⟨0, 0⟩) (⟨1, 2, 0⟩)) 2 [(2, 1)], by decide, rfl, rfl, by decide⟩
theorem witness_VectorBranchesComplete_vxeBne_3 : ∃ (u : Unit36) (a : SArgs) (v : Vxe) (r : VxeRegs) (s : State),
    s.vxeAt u (.vxeBne u a) = true ∧ v = s.vxeOf u.die u.bay ∧ r = v.regs ∧ r.sreg a.sx = r.sreg a.sy :=
  ⟨⟨0, 0⟩, ⟨1, 2, 0⟩, (vxeS (.vxeBne (⟨0, 0⟩) (⟨1, 2, 0⟩)) 2 [] |>.vxeOf 0 0), (vxeS (.vxeBne (⟨0, 0⟩) (⟨1, 2, 0⟩)) 2 [] |>.vxeOf 0 0).regs, vxeS (.vxeBne (⟨0, 0⟩) (⟨1, 2, 0⟩)) 2 [], by decide, rfl, rfl, by decide⟩
theorem witness_VectorBranchesComplete_vxeBlt_4 : ∃ (u : Unit36) (a : SArgs) (v : Vxe) (r : VxeRegs) (s : State),
    s.vxeAt u (.vxeBlt u a) = true ∧ v = s.vxeOf u.die u.bay ∧ r = v.regs ∧ (r.sreg a.sx).toInt < (r.sreg a.sy).toInt :=
  ⟨⟨0, 0⟩, ⟨1, 2, 0⟩, (vxeS (.vxeBlt (⟨0, 0⟩) (⟨1, 2, 0⟩)) 2 [(2, 1)] |>.vxeOf 0 0), (vxeS (.vxeBlt (⟨0, 0⟩) (⟨1, 2, 0⟩)) 2 [(2, 1)] |>.vxeOf 0 0).regs, vxeS (.vxeBlt (⟨0, 0⟩) (⟨1, 2, 0⟩)) 2 [(2, 1)], by decide, rfl, rfl, by decide⟩
theorem witness_VectorBranchesComplete_vxeBlt_5 : ∃ (u : Unit36) (a : SArgs) (v : Vxe) (r : VxeRegs) (s : State),
    s.vxeAt u (.vxeBlt u a) = true ∧ v = s.vxeOf u.die u.bay ∧ r = v.regs ∧ (r.sreg a.sy).toInt ≤ (r.sreg a.sx).toInt :=
  ⟨⟨0, 0⟩, ⟨1, 2, 0⟩, (vxeS (.vxeBlt (⟨0, 0⟩) (⟨1, 2, 0⟩)) 2 [] |>.vxeOf 0 0), (vxeS (.vxeBlt (⟨0, 0⟩) (⟨1, 2, 0⟩)) 2 [] |>.vxeOf 0 0).regs, vxeS (.vxeBlt (⟨0, 0⟩) (⟨1, 2, 0⟩)) 2 [], by decide, rfl, rfl, by decide⟩
theorem witness_VectorBranchesComplete_vxeBge_6 : ∃ (u : Unit36) (a : SArgs) (v : Vxe) (r : VxeRegs) (s : State),
    s.vxeAt u (.vxeBge u a) = true ∧ v = s.vxeOf u.die u.bay ∧ r = v.regs ∧ (r.sreg a.sy).toInt ≤ (r.sreg a.sx).toInt :=
  ⟨⟨0, 0⟩, ⟨1, 2, 0⟩, (vxeS (.vxeBge (⟨0, 0⟩) (⟨1, 2, 0⟩)) 2 [] |>.vxeOf 0 0), (vxeS (.vxeBge (⟨0, 0⟩) (⟨1, 2, 0⟩)) 2 [] |>.vxeOf 0 0).regs, vxeS (.vxeBge (⟨0, 0⟩) (⟨1, 2, 0⟩)) 2 [], by decide, rfl, rfl, by decide⟩
theorem witness_VectorBranchesComplete_vxeBge_7 : ∃ (u : Unit36) (a : SArgs) (v : Vxe) (r : VxeRegs) (s : State),
    s.vxeAt u (.vxeBge u a) = true ∧ v = s.vxeOf u.die u.bay ∧ r = v.regs ∧ (r.sreg a.sx).toInt < (r.sreg a.sy).toInt :=
  ⟨⟨0, 0⟩, ⟨1, 2, 0⟩, (vxeS (.vxeBge (⟨0, 0⟩) (⟨1, 2, 0⟩)) 2 [(2, 1)] |>.vxeOf 0 0), (vxeS (.vxeBge (⟨0, 0⟩) (⟨1, 2, 0⟩)) 2 [(2, 1)] |>.vxeOf 0 0).regs, vxeS (.vxeBge (⟨0, 0⟩) (⟨1, 2, 0⟩)) 2 [(2, 1)], by decide, rfl, rfl, by decide⟩
theorem witness_VectorBranchesComplete_vxeBltu_8 : ∃ (u : Unit36) (a : SArgs) (v : Vxe) (r : VxeRegs) (s : State),
    s.vxeAt u (.vxeBltu u a) = true ∧ v = s.vxeOf u.die u.bay ∧ r = v.regs ∧ (r.sreg a.sx).toNat < (r.sreg a.sy).toNat :=
  ⟨⟨0, 0⟩, ⟨1, 2, 0⟩, (vxeS (.vxeBltu (⟨0, 0⟩) (⟨1, 2, 0⟩)) 2 [(2, 1)] |>.vxeOf 0 0), (vxeS (.vxeBltu (⟨0, 0⟩) (⟨1, 2, 0⟩)) 2 [(2, 1)] |>.vxeOf 0 0).regs, vxeS (.vxeBltu (⟨0, 0⟩) (⟨1, 2, 0⟩)) 2 [(2, 1)], by decide, rfl, rfl, by decide⟩
theorem witness_VectorBranchesComplete_vxeBltu_9 : ∃ (u : Unit36) (a : SArgs) (v : Vxe) (r : VxeRegs) (s : State),
    s.vxeAt u (.vxeBltu u a) = true ∧ v = s.vxeOf u.die u.bay ∧ r = v.regs ∧ (r.sreg a.sy).toNat ≤ (r.sreg a.sx).toNat :=
  ⟨⟨0, 0⟩, ⟨1, 2, 0⟩, (vxeS (.vxeBltu (⟨0, 0⟩) (⟨1, 2, 0⟩)) 2 [] |>.vxeOf 0 0), (vxeS (.vxeBltu (⟨0, 0⟩) (⟨1, 2, 0⟩)) 2 [] |>.vxeOf 0 0).regs, vxeS (.vxeBltu (⟨0, 0⟩) (⟨1, 2, 0⟩)) 2 [], by decide, rfl, rfl, by decide⟩
theorem witness_VectorBranchesComplete_vxeJmp_10 : ∃ (u : Unit36) (a : SArgs) (v : Vxe) (r : VxeRegs) (s : State),
    s.vxeAt u (.vxeJmp u a) = true ∧ v = s.vxeOf u.die u.bay ∧ r = v.regs :=
  ⟨⟨0, 0⟩, ⟨1, 2, 0⟩, (vxeS (.vxeJmp (⟨0, 0⟩) (⟨1, 2, 0⟩)) 2 [] |>.vxeOf 0 0), (vxeS (.vxeJmp (⟨0, 0⟩) (⟨1, 2, 0⟩)) 2 [] |>.vxeOf 0 0).regs, vxeS (.vxeJmp (⟨0, 0⟩) (⟨1, 2, 0⟩)) 2 [], by decide, rfl, rfl⟩
theorem witness_VectorMemoryAndSyncComplete_vxeCvt_0 : ∃ (u : Unit36) (a : CvtArgs) (r : VxeRegs) (d f : Fmt) (s : State),
    s.vxeAt u (.vxeCvt u a) = true ∧ r = (s.vxeOf u.die u.bay).regs ∧ Fmt.ofCode a.dfmt.toNat = some d ∧ Fmt.ofCode a.sfmt.toNat = some f ∧ cvtForm a = true ∧ (¬((if a.rm.toNat = 6 then r.vrm else a.rm.toNat) = 5 ∧ f.width ≤ d.width)) :=
  ⟨⟨0, 0⟩, ⟨4, 2, 0, 0, 0, 0, false, 0, 0⟩, _, .bf16, .fp32, vxeS (.vxeCvt (⟨0, 0⟩) (⟨4, 2, 0, 0, 0, 0, false, 0, 0⟩)) 2, by decide, rfl, by decide, by decide, by decide, by decide⟩
theorem witness_VectorMemoryAndSyncComplete_vxeLoad_1 : ∃ (u : Unit36) (a : LsArgs) (r : VxeRegs) (f : Fmt) (n : Nat) (act : Nat → Bool) (place : Nat → Nat × Nat × Nat) (s : State),
    s.vxeAt u (.vxeLoad u a) = true ∧ r = (s.vxeOf u.die u.bay).regs ∧ lsCheck r a = .inr (f, n, act, place) :=
  ⟨⟨0, 0⟩, ⟨2, 0, 0, 0, false, 0⟩, (vxeS (.vxeLoad (⟨0, 0⟩) (⟨2, 0, 0, 0, false, 0⟩)) 2 |>.vxeOf 0 0).regs, .fp32, 4, (vxeS (.vxeLoad (⟨0, 0⟩) (⟨2, 0, 0, 0, false, 0⟩)) 2 |>.vxeOf 0 0).regs.active false 0, lsPlace .fp32 0 0 true, vxeS (.vxeLoad (⟨0, 0⟩) (⟨2, 0, 0, 0, false, 0⟩)) 2, by decide, rfl, rfl⟩
theorem witness_VectorMemoryAndSyncComplete_vxeStore_2 : ∃ (u : Unit36) (a : LsArgs) (r : VxeRegs) (f : Fmt) (n : Nat) (act : Nat → Bool) (place : Nat → Nat × Nat × Nat) (s : State),
    s.vxeAt u (.vxeStore u a) = true ∧ r = (s.vxeOf u.die u.bay).regs ∧ lsCheck r a = .inr (f, n, act, place) :=
  ⟨⟨0, 0⟩, ⟨2, 0, 0, 0, false, 0⟩, (vxeS (.vxeStore (⟨0, 0⟩) (⟨2, 0, 0, 0, false, 0⟩)) 2 |>.vxeOf 0 0).regs, .fp32, 4, (vxeS (.vxeStore (⟨0, 0⟩) (⟨2, 0, 0, 0, false, 0⟩)) 2 |>.vxeOf 0 0).regs.active false 0, lsPlace .fp32 0 0 true, vxeS (.vxeStore (⟨0, 0⟩) (⟨2, 0, 0, 0, false, 0⟩)) 2, by decide, rfl, rfl⟩
theorem witness_VectorMemoryAndSyncComplete_vxeWait_3 : ∃ (u : Unit36) (a : SArgs) (r : VxeRegs) (mask : Nat) (s : State),
    s.vxeAt u (.vxeWait u a) = true ∧ r = (s.vxeOf u.die u.bay).regs ∧ mask = (r.sreg a.sx).toNat % 2 ^ 32 ∧ s.waitDone u.die u.bay mask = true :=
  ⟨⟨0, 0⟩, ⟨0, 0, 0⟩, (vxeS (.vxeWait (⟨0, 0⟩) (⟨0, 0, 0⟩)) 2 |>.vxeOf 0 0).regs, 0, vxeS (.vxeWait (⟨0, 0⟩) (⟨0, 0, 0⟩)) 2, by decide, rfl, by decide, by decide⟩
theorem witness_VectorMemoryAndSyncComplete_vxeSignal_4 : ∃ (u : Unit36) (a : SArgs) (s : State),
    s.vxeAt u (.vxeSignal u a) = true :=
  ⟨⟨0, 0⟩, ⟨0, 0, 0⟩, vxeS (.vxeSignal (⟨0, 0⟩) (⟨0, 0, 0⟩)) 2, by decide⟩
theorem witness_VectorMemoryAndSyncComplete_vxeSemwait_5 : ∃ (u : Unit36) (a : SArgs) (r : VxeRegs) (s : State),
    s.vxeAt u (.vxeSemwait u a) = true ∧ r = (s.vxeOf u.die u.bay).regs ∧ (r.sreg a.sx).toNat % 2 ^ 52 % 8 = 0 :=
  ⟨⟨0, 0⟩, ⟨0, 0, 0⟩, (vxeS (.vxeSemwait (⟨0, 0⟩) (⟨0, 0, 0⟩)) 2 |>.vxeOf 0 0).regs, vxeS (.vxeSemwait (⟨0, 0⟩) (⟨0, 0, 0⟩)) 2, by decide, rfl, by decide⟩
theorem witness_VectorMemoryAndSyncComplete_vxeSemadd_6 : ∃ (u : Unit36) (a : SArgs) (r : VxeRegs) (s : State),
    s.vxeAt u (.vxeSemadd u a) = true ∧ r = (s.vxeOf u.die u.bay).regs ∧ (r.sreg a.sx).toNat % 2 ^ 52 % 8 = 0 :=
  ⟨⟨0, 0⟩, ⟨0, 0, 0⟩, (vxeS (.vxeSemadd (⟨0, 0⟩) (⟨0, 0, 0⟩)) 2 |>.vxeOf 0 0).regs, vxeS (.vxeSemadd (⟨0, 0⟩) (⟨0, 0, 0⟩)) 2, by decide, rfl, by decide⟩
theorem witness_VectorMemoryAndSyncComplete_vxeEnd_7 : ∃ (u : Unit36) (a : SArgs) (v : Vxe) (t : State) (s : State),
    s.vxeAt u (.vxeEnd u a) = true ∧ v = s.vxeOf u.die u.bay ∧ t = s.wrF u.die (pgVxe u.bay) 0x088 0 5 (s.rdF u.die (pgVxe u.bay) 0x088 0 5 ||| v.regs.vflags % 32) :=
  ⟨⟨0, 0⟩, ⟨0, 0, 0⟩, _, _, vxeS (.vxeEnd (⟨0, 0⟩) (⟨0, 0, 0⟩)) 2, by decide, rfl, rfl⟩
theorem witness_StreamCommandsComplete_streamStart_0 : ∃ (d : Die) (b : Bay) (sl : Slot) (ix : Nat) (q : StreamDesc) (u : State) (s : State),
    s.suReady d b = true ∧ s.over d b sl = true ∧ (s.slotOf d b sl).ended = false ∧ s.nextStream d b sl = some (ix, q) ∧ q.companion = false ∧ q.isRearm = false ∧ q.paired = false ∧ u = s.partnerIdle d b sl :=
  ⟨0, 0, 0, 0, testStream, _, streamS [testStream] {}, by decide, by decide, by decide, by decide, by decide, by decide, by decide, rfl⟩
theorem witness_StreamCommandsComplete_streamStart_1 : ∃ (d : Die) (b : Bay) (sl : Slot) (ix jx kx : Nat) (q r z : StreamDesc) (u v : State) (s : State),
    s.suReady d b = true ∧ s.over d b sl = true ∧ (s.slotOf d b sl).ended = false ∧ s.nextStream d b sl = some (ix, q) ∧ q.companion = false ∧ q.isRearm = false ∧ q.paired = true ∧ s.mateReady d b (sl + 1) = true ∧ u = s.partnerIdle d b sl ∧ u.nextStream d b (sl + 1) = some (kx, z) ∧ v = u.setSlot d b sl ({ (s.slotOf d b sl).arm1 ix q with ring := min q.ring z.ring } : SuSlot).takeUnits ∧ v.nextStream d b (sl + 1) = some (jx, r) :=
  ⟨0, 0, 0, 0, 1, 1, testPair, testMate, testMate, _, _, streamS [testPair, testMate] {}, by decide, by decide, by decide, by decide, by decide, by decide, by decide, by decide, rfl, by decide, rfl, by decide⟩
theorem witness_StreamCommandsComplete_streamRearm_2 : ∃ (d : Die) (b : Bay) (sl : Slot) (x : SuSlot) (i j : Nat) (r q : StreamDesc) (s : State),
    x = s.slotOf d b sl ∧ s.nextStream d b sl = some (i, r) ∧ x.desc = some (j, q) ∧ s.suReady d b = true ∧ x.st = .done ∧ x.ended = false ∧ s.rearmNext d b sl = true ∧ q.companion = false ∧ q.paired = false :=
  ⟨0, 0, 0, { st := .done, taken := 1, desc := some (0, testStream) }, 1, 0, testRearm, testStream, streamS [testStream, testRearm] { st := .done, taken := 1, desc := some (0, testStream) }, by decide, by decide, by decide, by decide, by decide, by decide, by decide, by decide, by decide⟩
theorem witness_StreamCommandsComplete_streamRearm_3 : ∃ (d : Die) (b : Bay) (sl : Slot) (x : SuSlot) (i i₂ j : Nat) (r r₂ q : StreamDesc) (v : State) (s : State),
    x = s.slotOf d b sl ∧ s.nextStream d b sl = some (i, r) ∧ x.desc = some (j, q) ∧ s.suReady d b = true ∧ x.st = .done ∧ x.ended = false ∧ s.rearmNext d b sl = true ∧ q.companion = false ∧ q.paired = true ∧ s.nextStream d b (sl + 1) = some (i₂, r₂) ∧ r₂.isRearm = true ∧ v = s.setSlot d b sl (x.rearm r).takeUnits :=
  ⟨0, 0, 0, { st := .done, taken := 1, desc := some (0, testPair) }, 2, 3, 0, testRearm, { testRearm with slot := 1 }, testPair, _, (streamS [testPair, testMate, testRearm, { testRearm with slot := 1 }] { st := .done, taken := 1, desc := some (0, testPair) }).setSlot 0 0 1 { st := .done, taken := 1, desc := some (1, testMate) }, by decide, by decide, by decide, by decide, by decide, by decide, by decide, by decide, by decide, by decide, by decide, rfl⟩
theorem witness_StreamCommandsComplete_streamArmingDone_4 : ∃ (d : Die) (b : Bay) (sl : Slot) (x : SuSlot) (s : State),
    x = s.slotOf d b sl ∧ SlotSt.active x.st = true ∧ x.refetch = false ∧ x.desc.isSome = true ∧ x.last ≤ x.nDone ∧ x.isCompanion = false :=
  ⟨0, 0, 0, { st := .running, nDone := 1, desc := some (0, testStream) }, streamS [testStream] { st := .running, nDone := 1, desc := some (0, testStream) }, by decide, by decide, by decide, by decide, by decide, by decide⟩
theorem witness_StreamCommandsComplete_suDeliveryComplete_5 : ∃ (d : Die) (b : Bay) (sl : Slot) (x : SuSlot) (ix : Nat) (q : StreamDesc) (c : Option (SuSlot × StreamDesc)) (ps : List Nat) (pages : List Nat) (tr : State × Tab Nat) (m : Move) (t : State) (s : State),
    s.blkIs d (pgSu b) 2 = true ∧ t = (s.setSlot d b sl { s.slotOf d b sl with stuck := (s.slotOf d b sl).stuck && decide (0 < (s.slotOf d b sl).iss) }).pumpSlot d b sl ∧ x = t.slotOf d b sl ∧ x.desc = some (ix, q) ∧ x.placeable q = true ∧ c = t.companionOf d b sl q ∧ ps = x.todo q x.nDone ∧ pages = (t.spansAt x q c ps).pages q c ∧ (tr = if x.nIss = x.nDone ∧ x.iss = 0 then t.translateAll d (t.bayCtx d b) (decide (q.dir = 1)) pages else (t, Tab.get [] x.pages x.nDone)) ∧ ((pages.any fun g => (Tab.find tr.2 g).isNone) = false) ∧ tr.1.moveOf d b x q c tr.2 ps = some m ∧ tr.1.answered d b sl x m = true ∧ tr.1.chunkHeld d m.dig = false :=
  ⟨0, 0, 0, _, 0, testStream, _, _, _, _, _, _, (streamS [testStream] { st := .running, taken := 1, ring := 1, desc := some (0, testStream) }), by decide, rfl, rfl, by decide +kernel, by decide +kernel, rfl, rfl, rfl, rfl, by decide +kernel, rfl, by decide +kernel, by decide +kernel⟩
theorem witness_StreamCommandsComplete_slotPageFault_6 : ∃ (d : Die) (b : Bay) (sl : Slot) (f : PageFault) (p cur pos : Nat) (ix jx : Nat) (q r : StreamDesc) (c : Option (SuSlot × StreamDesc)) (ps : List Nat) (map : Tab Nat) (x : SuSlot) (m : Move) (t : State) (s : State),
    p = s.primaryOf d b sl ∧ (s.slotOf d b p).desc = some (ix, q) ∧ (s.slotOf d b sl).desc = some (jx, r) ∧ (pos = q.faultPos (if sl.val = p then none else some r) f.pos) ∧ r.region = 0 ∧ SlotSt.active (s.slotOf d b p).st = true ∧ (s.slotOf d b p).refetch = false ∧ (t = ((s.pumpSlot d b p).completeTo d b p (pos / max q.perDelivery 1 + (s.slotOf d b p).k0) (fun u a v => u.streamWrite d b sl a v)).pumpSlot d b p) ∧ x = t.slotOf d b p ∧ c = t.companionOf d b p q ∧ ps = x.todo q x.nDone ∧ map = Tab.get [] x.pages x.nDone ∧ t.slotReady d b x = true ∧ x.stuck = true ∧ x.nIss = x.nDone ∧ x.placeable q = true ∧ f.write = decide (q.dir = 1) ∧ (ps.find? (fun i => !(t.clearAt x q c map i)) = some pos) ∧ t.missesAt x q c map pos f.va.toNat (decide (sl.val ≠ p)) = true ∧ ((t.awaits d b p x.nDone fun _ => true) = false) ∧ (cur = if q.dstScale = 2 then q.blockStart pos else pos) ∧ t.moveOf d b x q c map (t.clearTo x q c map ps) = some m :=
  ⟨0, 0, 0, ⟨0, 0, 0, false, 0⟩, _, _, _, 0, 0, testVirt, testVirt, _, _, _, _, _, _, (streamS [testVirt] { st := .running, taken := 1, stuck := true, desc := some (0, testVirt) }), rfl, by decide +kernel, by decide +kernel, rfl, by decide +kernel, by decide +kernel, by decide +kernel, rfl, rfl, rfl, rfl, rfl, by decide +kernel, by decide +kernel, by decide +kernel, by decide +kernel, by decide +kernel, by decide +kernel, by decide +kernel, by decide +kernel, rfl, rfl⟩
theorem witness_StreamCommandsComplete_slotPageFault_7 : ∃ (d : Die) (b : Bay) (sl : Slot) (f : PageFault) (p pos n : Nat) (ix jx : Nat) (q r : StreamDesc) (y : SuSlot) (map : Tab Nat) (c : Option (SuSlot × StreamDesc)) (s : State),
    p = s.primaryOf d b sl ∧ (s.slotOf d b p).desc = some (ix, q) ∧ (s.slotOf d b sl).desc = some (jx, r) ∧ (pos = q.faultPos (if sl.val = p then none else some r) f.pos) ∧ r.region = 0 ∧ SlotSt.active (s.slotOf d b p).st = true ∧ (s.slotOf d b p).refetch = true ∧ s.againMiss d b p q = some (n, y, map) ∧ (c = (s.companionOf d b p q).map fun z => (z.1.inArming z.2 n, z.2)) ∧ ((positions ((n - y.k0) * q.perDelivery) ((n - y.k0 + 1) * q.perDelivery)).find? (fun i => !(s.clearAt y q c map i)) = some pos) ∧ s.missesAt y q c map pos f.va.toNat (decide (sl.val ≠ p)) = true :=
  ⟨0, 0, 0, ⟨2 ^ 48, 0, 0, false, 0⟩, _, _, 0, 0, 0, testHigh, testHigh, againSlot, [], _, againS, rfl, by decide +kernel, by decide +kernel, rfl, by decide +kernel, by decide +kernel, by decide +kernel, againS_miss, rfl, by decide +kernel, by decide +kernel⟩
theorem witness_StreamCommandsComplete_slotResume_8 : ∃ (w : Writer) (d : Die) (b : Bay) (sl : Slot) (c : Committed) (s : State),
    c = s.write1 d (pgSu b) (0x108 + 64 * sl) w 1 ∧ c.win.isSome = true ∧ (c.s.slotOf d b (c.s.primaryOf d b sl)).st = .faulted :=
  ⟨fwW, 0, 0, 0, _, streamS [testStream] { st := .faulted, taken := 1, desc := some (0, testStream) }, rfl, by decide, by decide⟩
theorem witness_StreamCommandsComplete_slotAbort_9 : ∃ (w : Writer) (d : Die) (b : Bay) (sl : Slot) (c : Committed) (s : State),
    c = s.write1 d (pgSu b) (0x108 + 64 * sl) w 2 ∧ c.win.isSome = true ∧ (c.s.slotOf d b (c.s.primaryOf d b sl)).st = .faulted :=
  ⟨fwW, 0, 0, 0, _, streamS [testStream] { st := .faulted, taken := 1, desc := some (0, testStream) }, rfl, by decide, by decide⟩
theorem witness_StreamCommandsComplete_slotCancel_10 : ∃ (w : Writer) (d : Die) (b : Bay) (sl : Slot) (c : Committed) (s : State),
    c = s.write1 d (pgSu b) (0x108 + 64 * sl) w 4 ∧ c.win.isSome = true :=
  ⟨fwW, 0, 0, 0, _, streamS [testStream] { st := .faulted, taken := 1, desc := some (0, testStream) }, rfl, by decide⟩
theorem witness_StreamCommandsComplete_slotFaultTimeout_11 : ∃ (d : Die) (b : Bay) (sl : Slot) (p : Nat) (s : State),
    p = s.primaryOf d b sl ∧ (s.slotOf d b p).st = .faulted ∧ (s.slotOf d b p).faultTime + 1000000 * s.faultTimeout d b ≤ s.now d :=
  ⟨0, 0, 0, 0, (streamS [testStream] { st := .faulted, taken := 1, desc := some (0, testStream) }).wr 0 pgTim 0x080 (2 ^ 40), by decide, by decide, by decide⟩
theorem witness_StreamCommandsComplete_slotCancelComplete_12 : ∃ (d : Die) (b : Bay) (sl : Slot) (p : Nat) (s : State),
    p = s.primaryOf d b sl ∧ (s.slotOf d b p).st = .cancelling ∧ ((s.ctx.tracks.any fun e => e.2.ofSlot d b p && e.2.remote) = false) :=
  ⟨0, 0, 0, 0, streamS [testStream] { st := .cancelling, taken := 1, desc := some (0, testStream) }, by decide, by decide, by decide⟩
theorem witness_ShortPathCommandsComplete_shortPathTransfer_0 : ∃ (p : SpPort) (t : SpTransfer) (s : State),
    s.spLive p t = true ∧ spOk t = false :=
  ⟨.cue, { kind := .write, addr := 0, len := 0 }, State.reset, by decide, by decide⟩
theorem witness_ShortPathCommandsComplete_shortPathTransfer_1 : ∃ (p : SpPort) (t : SpTransfer) (s : State),
    s.spLive p t = true ∧ spOk t = true ∧ (s.portOf p).waiting = [] ∧ t.room = true ∧ s.spReady p t = true :=
  ⟨.cue, testSp, State.reset, by decide, by decide, by decide, by decide, by decide⟩
theorem witness_ShortPathCommandsComplete_shortPathTransfer_2 : ∃ (p : SpPort) (t : SpTransfer) (s : State),
    s.spLive p t = true ∧ spOk t = true ∧ (¬((s.portOf p).waiting = [] ∧ t.room = true ∧ s.spReady p t = true)) ∧ (s.portOf p).waiting.length < 64 :=
  ⟨.cue, testSp, State.reset.setPort .cue { waiting := [testSp] }, by decide, by decide, by decide, by decide⟩
theorem witness_ShortPathCommandsComplete_shortPathWindow_3 : ∃ (p : SpPort) (t : SpTransfer) (ts : List SpTransfer) (s : State),
    (s.portOf p).waiting = t :: ts ∧ s.spLive p t = true ∧ s.spReady p t = true :=
  ⟨.cue, testSp, [], State.reset.setPort .cue { waiting := [testSp] }, by decide, by decide, by decide⟩
theorem witness_MemoryRequestsComplete_srd_0 : ∃ (r x0 : Req) (len : Nat) (env : EccEnv) (t : State) (s : State),
    x0 = came r 0x01 none ∧ s.takes x0 ∧ 1 ≤ len ∧ len ≤ 256 ∧ addrSpace x0.addr.toNat = 0 ∧ stackPresent x0.addr.toNat len x0.w.origin = true ∧ t = (((s.inTurn x0).countPacket x0 false).arise (addrKey x0.addr.toNat) env).touch (addrKey x0.addr.toNat) len ∧ t.rangeBad (addrKey x0.addr.toNat) len = false :=
  ⟨testReq, _, 8, {}, _, State.reset, rfl, testReq_takes, by decide +kernel, by decide +kernel, by decide +kernel, by decide +kernel, rfl, by decide +kernel⟩
theorem witness_MemoryRequestsComplete_srd_1 : ∃ (r x0 : Req) (len : Nat) (env : EccEnv) (d pg off : Nat) (t : State) (s : State),
    x0 = came r 0x01 none ∧ s.takes x0 ∧ len = 8 ∧ addrSpace x0.addr.toNat = 6 ∧ t = (s.inTurn x0).countPacket x0 false ∧ regPlace x0.addr.toNat = some (d, pg, off) ∧ off % 8 = 0 ∧ t.protAllows d pg (reqWriter x0).origin false = true ∧ t.queueDenied d pg off (reqWriter x0) = false ∧ (reqWriter x0).user = false :=
  ⟨regReq, _, 8, {}, 0, 1, 0x080, _, State.reset, rfl, regReq_takes, by decide +kernel, by decide +kernel, rfl, by decide +kernel, by decide +kernel, by decide +kernel, by decide +kernel, by decide +kernel⟩
theorem witness_MemoryRequestsComplete_swr_2 : ∃ (r x0 : Req) (data : List Byte) (env : EccEnv) (w : State × Bool) (s : State),
    x0 = came r 0x02 none ∧ s.takes x0 ∧ 1 ≤ data.length ∧ data.length ≤ 256 ∧ addrSpace x0.addr.toNat = 0 ∧ stackPresent x0.addr.toNat data.length x0.w.origin = true ∧ w = ((s.inTurn x0).countPacket x0 false).memPut x0 data env ∧ w.2 = true :=
  ⟨testReq, _, [1, 2], {}, _, State.reset, rfl, testReq_takes, by decide +kernel, by decide +kernel, by decide +kernel, by decide +kernel, rfl, by decide +kernel⟩
theorem witness_MemoryRequestsComplete_swr_3 : ∃ (r x0 : Req) (data : List Byte) (env : EccEnv) (d pg off : Nat) (q : WriteReq) (t : State) (s : State),
    x0 = came r 0x02 none ∧ s.takes x0 ∧ 1 ≤ data.length ∧ data.length ≤ 256 ∧ addrSpace x0.addr.toNat = 6 ∧ d = addrDie x0.addr.toNat ∧ pg = addrOff x0.addr.toNat / 4096 ∧ off = x0.addr.toNat % 4096 ∧ q = ⟨reqWriter x0, BitVec.ofNat 64 (leNat data), data.length⟩ ∧ t = (s.inTurn x0).countPacket x0 false ∧ accessOk d pg off q = true ∧ t.inReset d pg = false ∧ t.mayWrite d pg off q = true :=
  ⟨regReq, _, [1, 0, 0, 0, 0, 0, 0, 0], {}, 0, 1, 0x080, _, _, State.reset, rfl, regReq_takes, by decide +kernel, by decide +kernel, by decide +kernel, by decide +kernel, by decide +kernel, by decide +kernel, rfl, rfl, by decide +kernel, by decide +kernel, by decide +kernel⟩
theorem witness_MemoryRequestsComplete_semwait_4 : ∃ (r x0 : Req) (v : Word) (env : EccEnv) (s : State),
    x0 = came r 0x04 none ∧ s.takes x0 ∧ addrSpace x0.addr.toNat = 0 ∧ stackPresent x0.addr.toNat 8 x0.w.origin = true ∧ x0.addr.toNat % 8 = 0 :=
  ⟨testReq, _, 1, {}, State.reset, rfl, testReq_takes, by decide +kernel, by decide +kernel, by decide +kernel⟩
theorem witness_MemoryRequestsComplete_red_5 : ∃ (r x0 : Req) (f : RedFields) (data : List Byte) (env : EccEnv) (k : Nat) (t : State) (s : State),
    x0 = came r 0x12 f.flow ∧ s.takes x0 true ∧ ((f.flow.bind fun x => (s.inTurn x0).delivering x.toNat).filter (·.conf) = none) ∧ dataLen data.length = true ∧ k = addrKey x0.addr.toNat ∧ k % 256 = 0 ∧ f.count ≤ 512 ∧ f.etype ≠ 3 ∧ addrSpace x0.addr.toNat = 0 ∧ stackPresent x0.addr.toNat data.length x0.w.origin = true ∧ t = (s.inTurn x0).countPacket x0 f.flow.isSome :=
  ⟨testReq, _, ⟨{ flow := none }, 0, 1, 0⟩, List.replicate 256 0, {}, 0, _, State.reset, rfl, testReqS, by decide +kernel, by decide +kernel, by decide +kernel, by decide +kernel, by decide +kernel, by decide +kernel, by decide +kernel, by decide +kernel, rfl⟩
theorem witness_MemoryRequestsComplete_rd_6 : ∃ (r x0 : Req) (h : DataHdr) (len : Nat) (env : EccEnv) (t : State) (s : State),
    x0 = came r 0x10 h.flow ∧ s.takes x0 true ∧ dataLen len = true ∧ addrSpace x0.addr.toNat = 0 ∧ stackPresent x0.addr.toNat len x0.w.origin = true ∧ t = (((s.inTurn x0).countPacket x0 h.flow.isSome).arise (addrKey x0.addr.toNat) env).touch (addrKey x0.addr.toNat) len ∧ t.rangeBad (addrKey x0.addr.toNat) len = false :=
  ⟨testReq, _, { flow := none }, 256, {}, _, State.reset, rfl, testReqS, by decide +kernel, by decide +kernel, by decide +kernel, rfl, by rw [touch_clean (by decide +kernel), rangeBad_lookRange]; decide +kernel⟩
theorem witness_MemoryRequestsComplete_wr_7 : ∃ (r x0 : Req) (h : DataHdr) (data : List Byte) (env : EccEnv) (w : State × Bool) (s : State),
    x0 = came r 0x11 h.flow ∧ s.takes x0 true ∧ dataLen data.length = true ∧ addrSpace x0.addr.toNat = 0 ∧ stackPresent x0.addr.toNat data.length x0.w.origin = true ∧ h.flow = none ∧ w = ((s.inTurn x0).countPacket x0 false).memPut x0 data env ∧ w.2 = true :=
  ⟨testReq, _, { flow := none }, List.replicate 256 0, {}, _, State.reset, rfl, testReqS, by decide +kernel, by decide +kernel, by decide +kernel, by decide +kernel, rfl, by decide +kernel⟩
theorem witness_MemoryRequestsComplete_wr_8 : ∃ (r x0 : Req) (h : DataHdr) (data : List Byte) (env : EccEnv) (t : State) (s : State),
    x0 = came r 0x11 h.flow ∧ s.takes x0 true ∧ dataLen data.length = true ∧ addrSpace x0.addr.toNat = 0 ∧ stackPresent x0.addr.toNat data.length x0.w.origin = true ∧ ((h.flow.bind fun x => (s.inTurn x0).delivering x.toNat).filter (·.conf) = none) ∧ t = (s.inTurn x0).countPacket x0 h.flow.isSome :=
  ⟨testReq, _, { flow := some 5 }, List.replicate 256 0, {}, _, State.reset, rfl, testReqS, by decide +kernel, by decide +kernel, by decide +kernel, by decide +kernel, rfl⟩
theorem witness_MemoryRequestsComplete_mwr_9 : ∃ (r x0 : Req) (h : DataHdr) (data : List Byte) (env : EccEnv) (w : State × Bool) (s : State),
    x0 = came r 0x13 h.flow ∧ s.takes x0 true ∧ dataLen data.length = true ∧ addrSpace x0.addr.toNat = 0 ∧ stackPresent x0.addr.toNat data.length x0.w.origin = true ∧ h.flow = none ∧ w = ((s.inTurn x0).countPacket x0 false).memPut x0 data env ∧ w.2 = true :=
  ⟨testReq, _, { flow := none }, List.replicate 256 0, {}, _, State.reset, rfl, testReqS, by decide +kernel, by decide +kernel, by decide +kernel, by decide +kernel, rfl, by decide +kernel⟩
theorem witness_MemoryRequestsComplete_mwr_10 : ∃ (r x0 : Req) (h : DataHdr) (data : List Byte) (env : EccEnv) (t : State) (s : State),
    x0 = came r 0x13 h.flow ∧ s.takes x0 true ∧ dataLen data.length = true ∧ addrSpace x0.addr.toNat = 0 ∧ stackPresent x0.addr.toNat data.length x0.w.origin = true ∧ ((h.flow.bind fun x => (s.inTurn x0).delivering x.toNat).filter (·.conf) = none) ∧ t = (s.inTurn x0).countPacket x0 h.flow.isSome :=
  ⟨testReq, _, { flow := some 5 }, List.replicate 256 0, {}, _, State.reset, rfl, testReqS, by decide +kernel, by decide +kernel, by decide +kernel, by decide +kernel, rfl⟩
theorem witness_MemoryRequestsComplete_bell_11 : ∃ (r x0 : Req) (data : List Byte) (s : State),
    x0 = came r 0x05 none ∧ s.takes x0 ∧ data.length = 16 ∧ addrSpace x0.addr.toNat = 3 ∧ addrOff x0.addr.toNat % 4096 = 0 ∧ addrOff x0.addr.toNat / 4096 < 9 ∧ (reqWriter x0).user = false :=
  ⟨{ testReq with addr := 3 * 2 ^ 49 }, _, List.replicate 16 0, State.reset, rfl, ⟨by decide, by decide, by decide, fun _ => by decide, by decide, by simp [testReq, came], by decide⟩, by decide +kernel, by decide +kernel, by decide +kernel, by decide +kernel, by decide +kernel⟩
theorem witness_AtomicRequestsComplete_addI32_0 : ∃ (r x0 : Req) (n : Nat) (x : Word) (env : EccEnv) (t : State) (s : State),
    x0 = came r 0x03 none ∧ s.takes x0 ∧ addrSpace x0.addr.toNat = 0 ∧ stackPresent x0.addr.toNat n x0.w.origin = true ∧ (n = 4 ∨ n = 8) ∧ x0.addr.toNat % n = 0 ∧ t = ((s.inTurn x0).countPacket x0 false).check (addrKey x0.addr.toNat) n env ∧ t.rangeBad (addrKey x0.addr.toNat) n = false :=
  ⟨testReq, _, 8, 1, {}, _, State.reset, rfl, testReq_takes, by decide +kernel, by decide +kernel, by decide +kernel, by decide +kernel, rfl, by decide +kernel⟩
theorem witness_AtomicRequestsComplete_addU64_1 : ∃ (r x0 : Req) (n : Nat) (x : Word) (env : EccEnv) (t : State) (s : State),
    x0 = came r 0x03 none ∧ s.takes x0 ∧ addrSpace x0.addr.toNat = 0 ∧ stackPresent x0.addr.toNat n x0.w.origin = true ∧ n = 8 ∧ x0.addr.toNat % n = 0 ∧ t = ((s.inTurn x0).countPacket x0 false).check (addrKey x0.addr.toNat) n env ∧ t.rangeBad (addrKey x0.addr.toNat) n = false :=
  ⟨testReq, _, 8, 1, {}, _, State.reset, rfl, testReq_takes, by decide +kernel, by decide +kernel, by decide +kernel, by decide +kernel, rfl, by decide +kernel⟩
theorem witness_AtomicRequestsComplete_addF32_2 : ∃ (r x0 : Req) (n : Nat) (x : Word) (env : EccEnv) (t : State) (s : State),
    x0 = came r 0x03 none ∧ s.takes x0 ∧ addrSpace x0.addr.toNat = 0 ∧ stackPresent x0.addr.toNat n x0.w.origin = true ∧ (n = 4 ∨ n = 8) ∧ x0.addr.toNat % n = 0 ∧ t = ((s.inTurn x0).countPacket x0 false).check (addrKey x0.addr.toNat) n env ∧ t.rangeBad (addrKey x0.addr.toNat) n = false :=
  ⟨testReq, _, 8, 1, {}, _, State.reset, rfl, testReq_takes, by decide +kernel, by decide +kernel, by decide +kernel, by decide +kernel, rfl, by decide +kernel⟩
theorem witness_AtomicRequestsComplete_addBf16_3 : ∃ (r x0 : Req) (n : Nat) (x : Word) (env : EccEnv) (t : State) (s : State),
    x0 = came r 0x03 none ∧ s.takes x0 ∧ addrSpace x0.addr.toNat = 0 ∧ stackPresent x0.addr.toNat n x0.w.origin = true ∧ (n = 4 ∨ n = 8) ∧ x0.addr.toNat % n = 0 ∧ t = ((s.inTurn x0).countPacket x0 false).check (addrKey x0.addr.toNat) n env ∧ t.rangeBad (addrKey x0.addr.toNat) n = false :=
  ⟨testReq, _, 8, 1, {}, _, State.reset, rfl, testReq_takes, by decide +kernel, by decide +kernel, by decide +kernel, by decide +kernel, rfl, by decide +kernel⟩
theorem witness_AtomicRequestsComplete_minI32_4 : ∃ (r x0 : Req) (n : Nat) (x : Word) (env : EccEnv) (t : State) (s : State),
    x0 = came r 0x03 none ∧ s.takes x0 ∧ addrSpace x0.addr.toNat = 0 ∧ stackPresent x0.addr.toNat n x0.w.origin = true ∧ (n = 4 ∨ n = 8) ∧ x0.addr.toNat % n = 0 ∧ t = ((s.inTurn x0).countPacket x0 false).check (addrKey x0.addr.toNat) n env ∧ t.rangeBad (addrKey x0.addr.toNat) n = false :=
  ⟨testReq, _, 8, 1, {}, _, State.reset, rfl, testReq_takes, by decide +kernel, by decide +kernel, by decide +kernel, by decide +kernel, rfl, by decide +kernel⟩
theorem witness_AtomicRequestsComplete_maxI32_5 : ∃ (r x0 : Req) (n : Nat) (x : Word) (env : EccEnv) (t : State) (s : State),
    x0 = came r 0x03 none ∧ s.takes x0 ∧ addrSpace x0.addr.toNat = 0 ∧ stackPresent x0.addr.toNat n x0.w.origin = true ∧ (n = 4 ∨ n = 8) ∧ x0.addr.toNat % n = 0 ∧ t = ((s.inTurn x0).countPacket x0 false).check (addrKey x0.addr.toNat) n env ∧ t.rangeBad (addrKey x0.addr.toNat) n = false :=
  ⟨testReq, _, 8, 1, {}, _, State.reset, rfl, testReq_takes, by decide +kernel, by decide +kernel, by decide +kernel, by decide +kernel, rfl, by decide +kernel⟩
theorem witness_AtomicRequestsComplete_minF32_6 : ∃ (r x0 : Req) (n : Nat) (x : Word) (env : EccEnv) (t : State) (s : State),
    x0 = came r 0x03 none ∧ s.takes x0 ∧ addrSpace x0.addr.toNat = 0 ∧ stackPresent x0.addr.toNat n x0.w.origin = true ∧ (n = 4 ∨ n = 8) ∧ x0.addr.toNat % n = 0 ∧ t = ((s.inTurn x0).countPacket x0 false).check (addrKey x0.addr.toNat) n env ∧ t.rangeBad (addrKey x0.addr.toNat) n = false :=
  ⟨testReq, _, 8, 1, {}, _, State.reset, rfl, testReq_takes, by decide +kernel, by decide +kernel, by decide +kernel, by decide +kernel, rfl, by decide +kernel⟩
theorem witness_AtomicRequestsComplete_maxF32_7 : ∃ (r x0 : Req) (n : Nat) (x : Word) (env : EccEnv) (t : State) (s : State),
    x0 = came r 0x03 none ∧ s.takes x0 ∧ addrSpace x0.addr.toNat = 0 ∧ stackPresent x0.addr.toNat n x0.w.origin = true ∧ (n = 4 ∨ n = 8) ∧ x0.addr.toNat % n = 0 ∧ t = ((s.inTurn x0).countPacket x0 false).check (addrKey x0.addr.toNat) n env ∧ t.rangeBad (addrKey x0.addr.toNat) n = false :=
  ⟨testReq, _, 8, 1, {}, _, State.reset, rfl, testReq_takes, by decide +kernel, by decide +kernel, by decide +kernel, by decide +kernel, rfl, by decide +kernel⟩
theorem witness_AtomicRequestsComplete_minU64_8 : ∃ (r x0 : Req) (n : Nat) (x : Word) (env : EccEnv) (t : State) (s : State),
    x0 = came r 0x03 none ∧ s.takes x0 ∧ addrSpace x0.addr.toNat = 0 ∧ stackPresent x0.addr.toNat n x0.w.origin = true ∧ n = 8 ∧ x0.addr.toNat % n = 0 ∧ t = ((s.inTurn x0).countPacket x0 false).check (addrKey x0.addr.toNat) n env ∧ t.rangeBad (addrKey x0.addr.toNat) n = false :=
  ⟨testReq, _, 8, 1, {}, _, State.reset, rfl, testReq_takes, by decide +kernel, by decide +kernel, by decide +kernel, by decide +kernel, rfl, by decide +kernel⟩
theorem witness_AtomicRequestsComplete_maxU64_9 : ∃ (r x0 : Req) (n : Nat) (x : Word) (env : EccEnv) (t : State) (s : State),
    x0 = came r 0x03 none ∧ s.takes x0 ∧ addrSpace x0.addr.toNat = 0 ∧ stackPresent x0.addr.toNat n x0.w.origin = true ∧ n = 8 ∧ x0.addr.toNat % n = 0 ∧ t = ((s.inTurn x0).countPacket x0 false).check (addrKey x0.addr.toNat) n env ∧ t.rangeBad (addrKey x0.addr.toNat) n = false :=
  ⟨testReq, _, 8, 1, {}, _, State.reset, rfl, testReq_takes, by decide +kernel, by decide +kernel, by decide +kernel, by decide +kernel, rfl, by decide +kernel⟩
theorem witness_AtomicRequestsComplete_cas_10 : ∃ (r x0 : Req) (n : Nat) (c x : Word) (env : EccEnv) (t : State) (s : State),
    x0 = came r 0x03 none ∧ s.takes x0 ∧ addrSpace x0.addr.toNat = 0 ∧ stackPresent x0.addr.toNat n x0.w.origin = true ∧ (n = 4 ∨ n = 8) ∧ x0.addr.toNat % n = 0 ∧ t = ((s.inTurn x0).countPacket x0 false).check (addrKey x0.addr.toNat) n env ∧ t.rangeBad (addrKey x0.addr.toNat) n = false :=
  ⟨testReq, _, 8, 1, 1, {}, _, State.reset, rfl, testReq_takes, by decide +kernel, by decide +kernel, by decide +kernel, by decide +kernel, rfl, by decide +kernel⟩
theorem witness_AtomicRequestsComplete_swap_11 : ∃ (r x0 : Req) (n : Nat) (x : Word) (env : EccEnv) (t : State) (s : State),
    x0 = came r 0x03 none ∧ s.takes x0 ∧ addrSpace x0.addr.toNat = 0 ∧ stackPresent x0.addr.toNat n x0.w.origin = true ∧ (n = 4 ∨ n = 8) ∧ x0.addr.toNat % n = 0 ∧ t = ((s.inTurn x0).countPacket x0 false).check (addrKey x0.addr.toNat) n env ∧ t.rangeBad (addrKey x0.addr.toNat) n = false :=
  ⟨testReq, _, 8, 1, {}, _, State.reset, rfl, testReq_takes, by decide +kernel, by decide +kernel, by decide +kernel, by decide +kernel, rfl, by decide +kernel⟩
theorem witness_RepliesComplete_lost_0 : ∃ (r : Req) (n : Nat) (e : Bool) (k : Track) (t u : State) (s : State),
    s.trackOf r.die r.track.toNat = some k ∧ s.tagHolds k r = true ∧ t = (s.echoAt r k.owner e).branchLost r.die (s.lostFlow k).1 (s.lostFlow k).2.1 (s.lostFlow k).2.2 ∧ u = t.putTrack r.die r.track.toNat { k with lost := true } :=
  ⟨testReq, 1, false, testTrack, _, _, trackS, by decide, by decide, rfl, rfl⟩
theorem witness_RepliesComplete_replyReceive_1 : ∃ (r : Req) (st : Status) (n : Nat) (e : Bool) (data xs : List Byte) (k : Track) (u s : State),
    s.trackOf r.die r.track.toNat = some k ∧ s.tagHolds k r = true ∧ s.replyOpen r st n data = (u, some xs) ∧ (∀ p, k.owner ≠ .port p) :=
  ⟨testReq, .ok, 1, false, [], [], testTrack, trackS, trackS, by decide, by decide, by decide, by simp [testTrack]⟩
theorem witness_RepliesComplete_replyReceive_2 : ∃ (r : Req) (n : Nat) (e : Bool) (data xs : List Byte) (k : Track) (p : SpPort) (u s : State),
    s.trackOf r.die r.track.toNat = some k ∧ s.tagHolds k r = true ∧ s.replyOpen r .ok n data = (u, some xs) ∧ k.owner = .port p :=
  ⟨testReq, 1, false, [], [], portTrack, .cores 0, State.reset.putTrack 0 0 portTrack, State.reset.putTrack 0 0 portTrack, by decide, by decide, by decide, by decide⟩
theorem witness_RepliesComplete_replyReceive_3 : ∃ (r : Req) (st : Status) (n : Nat) (e : Bool) (data xs : List Byte) (k : Track) (c : Die) (u s : State),
    s.trackOf r.die r.track.toNat = some k ∧ s.tagHolds k r = true ∧ s.replyOpen r st n data = (u, some xs) ∧ k.owner = .port (.cores c) ∧ st ≠ .ok :=
  ⟨testReq, .uncorrectable, 1, false, [], [], portTrack, 0, State.reset.putTrack 0 0 portTrack, State.reset.putTrack 0 0 portTrack, by decide, by decide, by decide, by decide, by decide⟩
theorem witness_RepliesComplete_replyReceive_4 : ∃ (r : Req) (st : Status) (n : Nat) (e : Bool) (data : List Byte) (k : Track) (s : State),
    s.trackOf r.die r.track.toNat = some k ∧ s.tagHolds k r = false :=
  ⟨{ testReq with epoch := 1 }, .ok, 1, false, [], testTrack, trackS, by decide, by decide⟩
theorem witness_RepliesComplete_replyReceive_5 : ∃ (r : Req) (st : Status) (n : Nat) (e : Bool) (data : List Byte) (k : Track) (u s : State),
    s.trackOf r.die r.track.toNat = some k ∧ s.tagHolds k r = true ∧ s.replyOpen r st n data = (u, none) :=
  ⟨{ testReq with flow := some 9 }, .ok, 1, false, [0], testTrack, confS, confS, by decide, by decide, by decide⟩
theorem witness_RepliesComplete_trackingEntryExpire_6 : ∃ (d : Die) (t : BitVec 16) (k : Track) (u s : State),
    s.trackOf d t.toNat = some k ∧ k.issued + 21000000 < s.now d ∧ u = ((s.endTrack d t.toNat).unanswered k).incF d pgApc 0x460 32 32 1 :=
  ⟨0, 0, testTrack, _, trackS.wr 0 pgTim 0x080 (2 ^ 40), by decide, by decide, rfl⟩
theorem witness_RepliesComplete_requestAgeDiscard_7 : ∃ (d : Die) (r : Req) (ns : Nat) (s : State),
    78125 < (s.now d / 256 + 2 ^ 32 - r.issue.toNat) % 2 ^ 32 :=
  ⟨0, testReq, 0, State.reset.wr 0 pgTim 0x080 (2 ^ 25), by decide⟩
theorem witness_MemoryEventsComplete_shcBankFail_0 : ∃ (d : Die) (b : Fin 50) (t : State) (s : State),
    s.inReset d pgShc = false ∧ s.rdF d pgShc 0x0A8 b 1 = 0 ∧ t = ((((s.wrF d pgShc 0x0A8 b 1 1).setErr d pgShc 10).logAt d srcHw .bankFail [d, b]).histEvent 3 d b 8) :=
  ⟨0, 0, _, State.reset, by decide, by decide, rfl⟩
theorem witness_MemoryEventsComplete_stackTempRead_1 : ∃ (d : Die) (t : StackIx) (x : BitVec 8) (u v z : State) (s : State),
    s.inReset d (pgApr t) = false ∧ u = (s.wrF d (pgApr t) 0x028 3 8 x.toNat).maxF d (pgApr t) 0x028 11 8 x.toNat ∧ v = { u with power := { u.power with hot := u.power.hot || decide (88 < x.toNat) } } ∧ z = v.tripOn d ⟨0, x.toNat, 0⟩ :=
  ⟨0, 0, 90, _, _, _, State.reset, by decide, rfl, rfl, rfl⟩
theorem witness_MemoryEventsComplete_scrub_2 : ∃ (d : Die) (t : StackIx) (n p : Nat) (env : EccEnv) (u v : State) (l : List Nat) (s : State),
    s.inReset d (pgApr t) = false ∧ p = s.rdF d (pgApr t) 0x0A8 0 32 + n ∧ u = ((((env.errors.foldl State.upset s).satF d (pgApr t) 0x090 32 32 env.onDie).wrF d (pgApr t) 0x0A8 0 32 (p % granulesPerPc)).incF d (pgApr t) 0x0A8 32 16 (p / granulesPerPc)) ∧ (l = (u.mem.err.map (·.1) ++ u.mem.bad.map (·.1)).eraseDups.filter fun x => scrubbed d t (s.rdF d (pgApr t) 0x0A8 0 32) n x || scrubbed d t 0 (p - granulesPerPc) x) ∧ v = l.foldl State.checkSector u :=
  ⟨0, 0, 1, 1, {}, _, _, _, State.reset, by decide, by decide, rfl, rfl, rfl⟩
theorem witness_MemoryEventsComplete_uncorrectableRestore_3 : ∃ (a n : Nat) (data : List Byte) (k : Nat) (u t : State) (s : State),
    k = addrKey a / 64 * 64 ∧ data.length = 64 * n ∧ n ≠ 0 ∧ (u = if s.ueRegion k = 1 then s.touch (addrKey (s.inf 0 pgWit 0x088) + if s.retained.curB then 2 ^ 21 else 0) (32 * s.chunkCount) else s) ∧ (s.ueRegion k = 1 → u.chunksMatch k data.length data = true) ∧ t = (u.ownWrite k data).1 :=
  ⟨0, 1, List.replicate 64 0, _, _, _, State.reset, rfl, by decide, by decide, rfl, by decide +kernel, rfl⟩
theorem witness_ContextCommandsComplete_define_0 : ∃ (w : Writer) (id : CtxId) (c : Committed) (u : State) (s : State),
    c = s.write1 0 pgApc 0x410 w (id.val + 1 * 2 ^ 12) ∧ c.win.isSome = true ∧ c.s.ctx.cmd = none ∧ (u = if c.s.rd 0 pgApc 0x408 ≠ 0 ∧ ctxAllowed 1 (c.s.ctxOf id).st = true then c.s.touch (addrKey (c.s.ctxEntry id)) 64 else c.s) ∧ u.ctxCheck 1 id = 0 :=
  ⟨fwW, 1, _, _, defM, rfl, by decide, by decide, rfl, by decide +kernel⟩
theorem witness_ContextCommandsComplete_run_1 : ∃ (w : Writer) (id : CtxId) (c : Committed) (s : State),
    c = s.write1 0 pgApc 0x410 w (id.val + 2 * 2 ^ 12) ∧ c.win.isSome = true ∧ c.s.ctx.cmd = none ∧ c.s.ctxCheck 2 id = 0 :=
  ⟨fwW, 1, _, defS 1, rfl, by decide, by decide, by decide +kernel⟩
theorem witness_ContextCommandsComplete_stop_2 : ∃ (w : Writer) (id : CtxId) (c : Committed) (s : State),
    c = s.write1 0 pgApc 0x410 w (id.val + 3 * 2 ^ 12) ∧ c.win.isSome = true ∧ c.s.ctx.cmd = none ∧ c.s.ctxCheck 3 id = 0 :=
  ⟨fwW, 1, _, defS 2, rfl, by decide, by decide, by decide +kernel⟩
theorem witness_ContextCommandsComplete_teardown_3 : ∃ (w : Writer) (id : CtxId) (c : Committed) (s : State),
    c = s.write1 0 pgApc 0x410 w (id.val + 4 * 2 ^ 12) ∧ c.win.isSome = true ∧ c.s.ctx.cmd = none ∧ c.s.ctxCheck 4 id = 0 :=
  ⟨fwW, 1, _, defS 1, rfl, by decide, by decide, by decide +kernel⟩
theorem witness_ContextCommandsComplete_quiesce_4 : ∃ (w : Writer) (id : CtxId) (c : Committed) (s : State),
    c = s.write1 0 pgApc 0x410 w (id.val + 5 * 2 ^ 12) ∧ c.win.isSome = true ∧ c.s.ctx.cmd = none ∧ c.s.ctxCheck 5 id = 0 :=
  ⟨fwW, 1, _, defS 2, rfl, by decide, by decide, by decide +kernel⟩
theorem witness_ContextCommandsComplete_invalAll_5 : ∃ (w : Writer) (id : CtxId) (c : Committed) (s : State),
    c = s.write1 0 pgApc 0x410 w (id.val + 6 * 2 ^ 12) ∧ c.win.isSome = true ∧ c.s.ctx.cmd = none ∧ c.s.ctxCheck 6 id = 0 :=
  ⟨fwW, 1, _, defS 1, rfl, by decide, by decide, by decide +kernel⟩
theorem witness_ContextCommandsComplete_invalRange_6 : ∃ (w : Writer) (id : CtxId) (c : Committed) (s : State),
    c = s.write1 0 pgApc 0x410 w (id.val + 7 * 2 ^ 12) ∧ c.win.isSome = true ∧ c.s.ctx.cmd = none ∧ c.s.ctxCheck 7 id = 0 :=
  ⟨fwW, 1, _, defS 1, rfl, by decide, by decide, by decide +kernel⟩
theorem witness_ContextCommandsComplete_fenceComplete_7 : ∃ (op id at_ : Nat) (s : State),
    s.hwFences.ctx.cmd = some (op, id, at_) ∧ (op = 4 ∨ op = 5) ∧ ((s.hwFences.ctx.tracks.any fun e => e.2.ctx = id && e.2.marked) = false) :=
  ⟨4, 1, 0, { State.reset with ctx := { State.reset.ctx with cmd := some (4, 1, 0) } }, by decide, by decide, by decide⟩
theorem witness_ContextCommandsComplete_fenceTimeout_8 : ∃ (op id at_ : Nat) (s : State),
    s.hwFences.ctx.cmd = some (op, id, at_) ∧ (op = 4 ∨ op = 5) ∧ at_ + 21000000 ≤ s.hwFences.now 0 :=
  ⟨4, 1, 0, ({ State.reset with ctx := { State.reset.ctx with cmd := some (4, 1, 0) } } : State).wr 0 pgTim 0x080 (2 ^ 30), by decide, by decide, by decide⟩
theorem witness_ContextCommandsComplete_schedulerQuantum_9 : ∃ (d : Die) (t : State) (s : State),
    s.inReset d pgApc = false ∧ (((Tab.find s.ctx.schedAt d.val).any fun a => decide (s.now d < a + 1000 * s.ctxQuantum)) = false) ∧ t = ({ s with ctx := { s.ctx with schedAt := Tab.put s.ctx.schedAt d.val (s.now d) } } : State).letIn d :=
  ⟨0, _, State.reset, by decide, by decide, rfl⟩
theorem witness_ContextCommandsComplete_bayQuantumEnd_10 : ∃ (d : Die) (b : Bay) (id : Nat) (t : State) (s : State),
    s.nextCtx d b = some id ∧ s.runsOn d b ≠ some id ∧ s.issues d = true ∧ s.switchDue d b = true ∧ t = (s.setSwitching d b true).settleSwitch d b ∧ t.suAtRest d b = true :=
  ⟨0, 0, 1, _, bayQS, by decide +kernel, by decide +kernel, by decide +kernel, by decide +kernel, rfl, by decide +kernel⟩
theorem witness_ContextCommandsComplete_bayQuantumEnd_11 : ∃ (d : Die) (b : Bay) (id : Nat) (t : State) (s : State),
    s.nextCtx d b = some id ∧ s.runsOn d b ≠ some id ∧ s.issues d = true ∧ s.switchDue d b = true ∧ t = (s.setSwitching d b true).settleSwitch d b ∧ t.suAtRest d b = false :=
  ⟨0, 0, 1, _, bayQS.putTrack 0 5 { testTrack with owner := .slot 0 0 0 }, by decide +kernel, by decide +kernel, by decide +kernel, by decide +kernel, rfl, by decide +kernel⟩
theorem witness_ContextCommandsComplete_evictionComplete_12 : ∃ (d : Die) (id : CtxId) (t u : State) (s : State),
    (s.residOf d id).res = 3 ∧ (s.ctxOf id).st ≠ 4 ∧ s.evictReady d id = true ∧ (t = (List.range 9).foldl (fun v b => v.evictBay d b id) s) ∧ ((t.ctx.tracks.any fun e => e.1 / 65536 = d && e.2.ctx = id) = false) ∧ u = t.setResid d id 0 0 :=
  ⟨0, 1, _, _, evictS, by decide, by decide, by decide +kernel, rfl, by decide +kernel, rfl⟩
theorem witness_ContextCommandsComplete_faultqTailWrite_13 : ∃ (w : Writer) (d : Die) (v : Word) (c : Committed) (s : State),
    c = s.write1 d pgApc 0x458 w v.toNat ∧ c.win.isSome = true :=
  ⟨fwW, 0, 0, _, State.reset, rfl, by decide⟩
theorem witness_LinkTrainingCompletes_laneFail_0 : ∃ (p : Port) (l : Lane) (t : State) (s : State),
    t = (((s.cpErr p 12).markLane p l).logAt (portDie p) srcHw .laneFail [p, l]).histEvent 5 (portDie p) (5 * p + l) 5 ∧ t.linkSt p ≠ 5 :=
  ⟨0, 0, _, State.reset, rfl, by decide⟩
theorem witness_LinkTrainingCompletes_laneFail_1 : ∃ (p : Port) (l : Lane) (t : State) (s : State),
    t = (((s.cpErr p 12).markLane p l).logAt (portDie p) srcHw .laneFail [p, l]).histEvent 5 (portDie p) (5 * p + l) 5 ∧ t.linkSt p = 5 :=
  ⟨0, 0, _, linkIn 5, rfl, by decide⟩
theorem witness_LinkTrainingCompletes_retrain_2 : ∃ (p : Port) (w : Writer) (c : Committed) (s : State),
    c = s.write1 (portDie p) (pgCp p) 0x020 w (putBits (s.rd (portDie p) (pgCp p) 0x020) 8 1 1) ∧ c.win.isSome = true :=
  ⟨0, fwW, _, linkIn 3, rfl, by decide⟩
theorem witness_LinkTrainingCompletes_retrainComplete_4 : ∃ (p : Port) (lanes : LaneSet) (ns : Nat) (good : List Nat) (t u : State) (s : State),
    s.linkSt p = 5 ∧ 3 ≤ lanes.length ∧ good = (s.link p).aims (lanes.map (·.val)) ∧ t = (s.setLanes p good).retrained p (lanes.map (·.val)) ns ∧ u = t.setLink p { s.link p with again := false, report := (s.link p).report || decide (good.length = 3) } :=
  ⟨0, [0, 1, 2, 3], 5, _, _, _, linkIn 5, by decide, by decide, rfl, rfl, rfl⟩
theorem witness_LinkTrainingCompletes_linkSignalDetect_5 : ∃ (p : Port) (n : Nat) (s : State),
    s.linkSt p = 0 ∧ 3 ≤ n ∧ (s.cpF p 0x018 0 3 = 1 ∨ s.cpF p 0x018 0 3 = 2) :=
  ⟨0, 4, State.reset.setBlkSt 0 (pgCp 0) 2, by decide, by decide, by decide⟩
theorem witness_LinkTrainingCompletes_linkTrainingComplete_6 : ∃ (p : Port) (lanes : LaneSet) (x : Trained) (bad good : List Nat) (l : Link) (t : State) (s : State),
    s.linkSt p = 1 ∧ 3 ≤ lanes.length ∧ (bad = if 4 ≤ lanes.length then [] else (List.range 5).filter fun i => !((lanes.map (·.val)).contains i)) ∧ good = (s.link p).aims (lanes.map (·.val)) ∧ t = (((s.setLanes p good).setCp p 0x080 18 5 x.inv.toNat).setCp p 0x080 12 3 (bad.getD 0 7)).setCp p 0x080 15 3 (bad.getD 1 7) ∧ l = t.link p :=
  ⟨0, [0, 1, 2, 3], ⟨0, 7⟩, _, _, _, _, linkIn 1, by decide, by decide, rfl, rfl, rfl, rfl⟩
theorem witness_LinkTrainingCompletes_linkSignalLost_7 : ∃ (p : Port) (n : Nat) (s : State),
    2 < n ∧ s.linkSt p ≠ 0 :=
  ⟨0, 3, linkIn 3, by decide, by decide⟩
theorem witness_LinkTrainingCompletes_helloTimer_8 : ∃ (p : Port) (s : State),
    2 ≤ s.linkSt p ∧ s.linkSt p ≤ 4 :=
  ⟨0, linkIn 2, by decide, by decide⟩
theorem witness_LinkTrainingCompletes_hello_9 : ∃ (p : Port) (h : Hello) (u : State) (s : State),
    s.linkSt p = 2 ∧ u = s.setLink p { s.link p with hello := some h } ∧ u.helloFault p h = none ∧ (s.link p).admitted = none :=
  ⟨0, testHello, _, linkIn 2, by decide +kernel, rfl, by decide +kernel, by decide +kernel⟩
theorem witness_LinkTrainingCompletes_hello_10 : ∃ (p : Port) (h a : Hello) (v : State) (u : State) (s : State),
    s.linkSt p = 2 ∧ u = s.setLink p { s.link p with hello := some h } ∧ u.helloFault p h = none ∧ v = (u.enterNbr p h).sendHello p ∧ (s.link p).admitted = some a ∧ sameNbr a h = true ∧ (s.link p).down = true ∧ v.cpF p 0x020 9 1 = 0 :=
  ⟨0, testHello, testHello, _, _, (linkIn 2).setLink 0 { admitted := some testHello, down := true }, by decide +kernel, rfl, by decide +kernel, rfl, by decide +kernel, by decide +kernel, by decide +kernel, by decide +kernel⟩
theorem witness_LinkTrainingCompletes_hold_11 : ∃ (p : Port) (x : BitVec 16) (s : State),
    2 ≤ s.linkSt p ∧ s.linkSt p ≤ 4 :=
  ⟨0, 1, linkIn 3, by decide, by decide⟩
theorem witness_LinkTrainingCompletes_holdRepeat_12 : ∃ (p : Port) (s : State),
    s.linkSt p = 6 :=
  ⟨0, linkIn 6, by decide⟩
theorem witness_LinkTrainingCompletes_heldTimeout_13 : ∃ (p : Port) (s : State),
    s.linkSt p = 6 :=
  ⟨0, linkIn 6, by decide⟩
theorem witness_FlitsComplete_payloadFlit_0 : ∃ (p : Port) (f : Flit) (l : Link) (pay : Bool) (t u : State) (s : State),
    s.takesFlits p = true ∧ flitBad f = false ∧ flitSequenced f = true ∧ t = (s.fecCount p f.fec).flitHeader p f ∧ l = t.link p ∧ f.seq.toNat = l.rxNext ∧ pay = decide (f.ftype = 1) ∧ (u = t.setLink p { l with rxNext := (l.rxNext + 1) % 4096, nakOut := false, heard := true, owe0 := l.owe0 + (if pay && f.vc = 0 then 1 else 0), owe1 := l.owe1 + if pay && f.vc = 1 then 1 else 0 }) :=
  ⟨0, testFlit 0, _, _, _, _, linkIn 3, by decide +kernel, by decide +kernel, by decide +kernel, rfl, rfl, by decide +kernel, rfl, rfl⟩
theorem witness_FlitsComplete_payloadFlit_1 : ∃ (p : Port) (f : Flit) (t : State) (s : State),
    s.takesFlits p = true ∧ flitBad f = false ∧ flitSequenced f = true ∧ t = (s.fecCount p f.fec).flitHeader p f ∧ f.seq.toNat ≠ (t.link p).rxNext :=
  ⟨0, testFlit 3, _, linkIn 3, by decide +kernel, by decide +kernel, by decide +kernel, rfl, by decide +kernel⟩
theorem witness_FlitsComplete_payloadFlit_2 : ∃ (p : Port) (f : Flit) (t : State) (s : State),
    s.takesFlits p = true ∧ flitBad f = true ∧ t = (s.fecCount p f.fec).cpErr p 9 :=
  ⟨0, { testFlit 3 with ftype := 5 }, _, linkIn 3, by decide +kernel, by decide +kernel, rfl⟩
theorem witness_FlitsComplete_idleFlit_3 : ∃ (p : Port) (f : Flit) (s : State),
    s.takesFlits p = true ∧ flitBad f = false ∧ f.ftype = 0 :=
  ⟨0, { testFlit 0 with ftype := 0 }, linkIn 3, by decide +kernel, by decide +kernel, by decide +kernel⟩
theorem witness_FlitsComplete_flitCrcFail_4 : ∃ (p : Port) (fec : Option (List (Fin 544))) (sq : Bool) (t u : State) (s : State),
    s.takesFlits p = true ∧ t = s.cpErr p 9 ∧ (u = match fec with | some w => t.badWord p w | none => t) :=
  ⟨0, some [], true, _, _, linkIn 3, by decide +kernel, rfl, rfl⟩
theorem witness_FlitsComplete_nak_5 : ∃ (p : Port) (f g : Flit) (l : Link) (again : List TxFlit) (t u v : State) (s : State),
    s.takesFlits p = true ∧ g = { f with ftype := 2 } ∧ flitBad g = false ∧ t = (s.fecCount p g.fec).flitHeader p g ∧ l = t.link p ∧ ((l.retry.any fun x => x.seq = g.seq.toNat) = true) ∧ (again = (l.retry.dropWhile fun x => x.seq ≠ g.seq.toNat).map fun x => { x with resent := x.resent + 1 }) ∧ (u = t.setLink p { l with retry := (l.retry.takeWhile fun x => x.seq ≠ g.seq.toNat) ++ again }) ∧ (v = again.foldl (fun x y => x.txOut p y) (u.incF (portDie p) (pgCp p) 0x0B8 32 16 again.length)) :=
  ⟨0, testFlit 0, _, _, _, _, _, _, (linkIn 3).setLink 0 { retry := [{ seq := 0, vc := 0, lctrl := true }] }, by decide +kernel, rfl, by decide +kernel, rfl, rfl, by decide +kernel, rfl, rfl, rfl⟩
theorem witness_RoutingCompletes_circuitForward_0 : ∃ (i : InPort) (k : Packet) (d : Nat) (c : CircuitRec) (s : State),
    d = hopDie i k ∧ k.control = false ∧ k.ct = false ∧ (i = .inject → k.length = 0) ∧ s.heldData i k = false ∧ s.inReset d pgRtr = false ∧ packetOk k = true ∧ (¬(packetRequest k = true ∧ 78125 < s.hopAge d k)) ∧ s.flowEntry k.flow.toNat (inCode i) = some c :=
  ⟨.port 0, dataPacket, _, { flow := 7, inPort := 0, outs := [(1, 0, 0)] }, routerS, rfl, by decide, by decide, by decide, by decide +kernel, by decide +kernel, by decide +kernel, by decide +kernel, by decide +kernel⟩
theorem witness_RoutingCompletes_cutThroughForward_1 : ∃ (i : InPort) (r k : Packet) (n d p : Nat) (s : State),
    d = hopDie i r ∧ (k = if i = .inject then { r with tgen := decide (s.bank = 1) } else r) ∧ n ≠ 0 ∧ (k.control = true ∨ k.ct = true) ∧ s.heldData i k = false ∧ s.inReset d pgRtr = false ∧ packetOk k = true ∧ (¬(packetRequest k = true ∧ 78125 < s.hopAge d k)) ∧ s.bankRoute k.tgen (s.packetDest k) = some p ∧ p ≠ 20 :=
  ⟨.port 0, testPacket, _, 1, _, 2, routerS, rfl, rfl, by decide, by decide, by decide +kernel, by decide +kernel, by decide +kernel, by decide +kernel, by decide +kernel, by decide⟩
theorem witness_RoutingCompletes_cutThroughForward_2 : ∃ (i : InPort) (r k : Packet) (n d : Nat) (t : State) (s : State),
    d = hopDie i r ∧ (k = if i = .inject then { r with tgen := decide (s.bank = 1) } else r) ∧ n ≠ 0 ∧ (k.control = true ∨ k.ct = true) ∧ s.heldData i k = false ∧ s.inReset d pgRtr = false ∧ packetOk k = true ∧ (¬(packetRequest k = true ∧ 78125 < s.hopAge d k)) ∧ s.bankRoute k.tgen (s.packetDest k) = none ∧ t = s.setErr d pgRtr 14 :=
  ⟨.port 0, testPacket, _, 1, _, _, State.reset, rfl, rfl, by decide, by decide, by decide +kernel, by decide +kernel, by decide +kernel, by decide +kernel, by decide +kernel, rfl⟩
theorem witness_RoutingCompletes_circuitSlotInject_3 : ∃ (k : Packet) (n : Nat) (d : Nat) (c : CircuitRec) (s : State),
    d = k.req.die ∧ k.control = false ∧ k.ct = false ∧ s.heldData .inject k = false ∧ s.alive d = true ∧ s.flowEntry k.flow.toNat 20 = some c ∧ (k.length = 0 ∨ (s.ownsSlot c.flow ((c.outs.head?.map (·.1)).getD 20) n = true ∧ s.slotStarts d = true ∧ s.slotNow d = n)) ∧ (c.conf = false ∨ k.length ≤ 1792) ∧ s.inReset d pgRtr = false ∧ packetOk k = true ∧ (¬(packetRequest k = true ∧ 78125 < s.hopAge d k)) :=
  ⟨dataPacket, 0, _, { flow := 7, inPort := 20, outs := [(1, 0, 0)] }, routerS, rfl, by decide, by decide, by decide +kernel, by decide +kernel, by decide +kernel, by decide +kernel, by decide +kernel, by decide +kernel, by decide +kernel, by decide +kernel⟩
theorem witness_RoutingCompletes_windowPeriod_4 : ∃ (p : SpPort) (x : SpPortSt) (s : State),
    (((s.portOf p).periodAt.any fun a => decide (s.now (spDie p) < a + s.winPeriod (spDie p))) = false) ∧ x = { s.portOf p with periodAt := some (s.now (spDie p)) } ∧ x.echoed = false :=
  ⟨.cue, _, State.reset, by decide, rfl, by decide⟩
theorem witness_RoutingCompletes_windowPeriod_5 : ∃ (p : SpPort) (x : SpPortSt) (s : State),
    (((s.portOf p).periodAt.any fun a => decide (s.now (spDie p) < a + s.winPeriod (spDie p))) = false) ∧ x = { s.portOf p with periodAt := some (s.now (spDie p)) } ∧ x.echoed = true :=
  ⟨.cue, _, State.reset.setPort .cue { echoed := true }, by decide, rfl, by decide⟩
theorem witness_RoutingCompletes_vctDataWrite_6 : ∃ (w : Writer) (d : Die) (v : Word) (c : Committed) (s : State),
    c = s.write1 d pgRtr 0x0C8 w v.toNat ∧ c.win.isSome = true :=
  ⟨fwW, 0, 34, _, State.reset.wrF 0 pgRtr 0x0C0 9 1 1, rfl, by decide +kernel⟩
theorem witness_RoutingCompletes_holdDataWrite_7 : ∃ (w : Writer) (d : Die) (v : Bool) (c : Committed) (s : State),
    (c = s.write1 d pgRtr 0x020 w (putBits (s.rd d pgRtr 0x020) 8 1 (if v then 1 else 0))) ∧ c.win.isSome = true :=
  ⟨fwW, 0, true, _, State.reset, rfl, by decide⟩
theorem witness_RoutingCompletes_drainedReport_8 : ∃ (t : State) (s : State),
    s.inReset 0 pgCue = false ∧ s.alive 0 = true ∧ s.dataGone = true ∧ (t = foldNat 4 (fun u d => if u.rdF d pgRtr 0x028 2 1 = 1 then u.wrF d pgRtr 0x028 3 1 1 else u) s) ∧ t.fabric.hold = true ∧ t.leads = false :=
  ⟨_, holdS, by decide, by decide +kernel, by decide +kernel, rfl, by decide +kernel, by decide +kernel⟩
theorem witness_RoutingCompletes_drainedReport_9 : ∃ (t : State) (s : State),
    s.inReset 0 pgCue = false ∧ s.alive 0 = true ∧ s.dataGone = true ∧ (t = foldNat 4 (fun u d => if u.rdF d pgRtr 0x028 2 1 = 1 then u.wrF d pgRtr 0x028 3 1 1 else u) s) ∧ t.fabric.hold = true ∧ t.leads = true :=
  ⟨_, { holdS with leader := 5 }, by decide, by decide +kernel, by decide +kernel, rfl, by decide +kernel, by decide +kernel⟩
theorem witness_IntegrityCommandsComplete_dupCheck_0 : ∃ (d : Die) (b : Nat) (t : State) (s : State),
    s.issues d = true ∧ s.inReset d pgDup = false ∧ ((s.dup.jobs.any fun j => j.cdie = d.val && j.running) = false) ∧ ((s.dup.jobs.any fun j => j.cdie = d.val && j.copied && !j.running) = true) ∧ s.wingsBay d = some b ∧ t = (s.incF d pgDup 0x080 32 32 1).progress d b :=
  ⟨0, 8, _, dupS 1 { testJob with copied := true }, by decide +kernel, by decide +kernel, by decide +kernel, by decide +kernel, by decide +kernel, rfl⟩
theorem witness_IntegrityCommandsComplete_dupCheckComplete_1 : ∃ (d : Die) (flips : List Flip) (j : DupJob) (x : TileDesc) (p c : Drain) (cb : Nat) (t u : State) (s : State),
    ((s.dup.jobs.find? fun j => j.cdie = d.val && j.running) = some j) ∧ s.jobTile j = some x ∧ j.prim = some p ∧ s.wingsBay d = some cb ∧ c = s.checkRun j x flips ∧ p.witness = c.witness ∧ t = s.progress d cb ∧ u = { t with dup := { t.dup with jobs := t.dup.jobs.erase j } } ∧ ((u.dup.mism.find? fun m => m.tileId = j.tileId && m.step = u.stepNum) = none) :=
  ⟨0, [], checkJob, { opcode := 1, cont := true }, ⟨checkWit, []⟩, _, 8, _, _, dupS 1 checkJob, by decide +kernel, rfl, rfl, by decide +kernel, rfl, by decide +kernel, rfl, rfl, by decide +kernel⟩
theorem witness_IntegrityCommandsComplete_dupCheckComplete_2 : ∃ (d : Die) (flips : List Flip) (j : DupJob) (x : TileDesc) (p c : Drain) (cb : Nat) (t u : State) (s : State),
    ((s.dup.jobs.find? fun j => j.cdie = d.val && j.running) = some j) ∧ s.jobTile j = some x ∧ j.prim = some p ∧ s.wingsBay d = some cb ∧ c = s.checkRun j x flips ∧ p.witness ≠ c.witness ∧ t = s.progress d cb ∧ u = { t with dup := { t.dup with jobs := t.dup.jobs.erase j } } ∧ ((u.dup.mism.find? fun m => m.tileId = j.tileId && m.step = u.stepNum) = none) :=
  ⟨0, [], badJob, { opcode := 1, cont := true }, ⟨checkWit + 1, []⟩, _, 8, _, _, dupS 1 badJob, by decide +kernel, rfl, rfl, by decide +kernel, rfl, by decide +kernel, rfl, rfl, by decide +kernel⟩
theorem witness_IntegrityCommandsComplete_sampleCopyComplete_3 : ∃ (d : Die) (b : Bay) (j : DupJob) (x : TileDesc) (t : State) (s : State),
    ((s.dup.jobs.find? fun j => j.pdie = d.val && j.pbay = b.val && j.closed && !j.copied) = some j) ∧ s.dupQueued j.cdie < 16 ∧ (t = { s with dup := { s.dup with jobs := updFirst (fun j => j.pdie = d.val && j.pbay = b.val && j.closed && !j.copied) (fun j => { j with copied := true }) s.dup.jobs } }) ∧ t.jobTile j = some x :=
  ⟨0, 0, testJob, { opcode := 1, cont := true }, _, dupS 1 testJob, by decide +kernel, by decide +kernel, rfl, by decide +kernel⟩
theorem witness_IntegrityCommandsComplete_unitAudition_4 : ∃ (w : Writer) (k : BitVec 2) (d : Die) (ix : BitVec 6) (c : Committed) (s : State),
    c = s.write1 0 pgCue 0x0B8 w (k.toNat + d.val * 2 ^ 2 + ix.toNat * 2 ^ 4 + 1 * 2 ^ 10) ∧ c.win.isSome = true :=
  ⟨fwW, 1, 0, 0, _, State.reset, rfl, by decide +kernel⟩
theorem witness_IntegrityCommandsComplete_unitDark_5 : ∃ (w : Writer) (k : BitVec 2) (d : Die) (ix : BitVec 6) (c : Committed) (s : State),
    c = s.write1 0 pgCue 0x0B8 w (k.toNat + d.val * 2 ^ 2 + ix.toNat * 2 ^ 4 + 2 * 2 ^ 10) ∧ c.win.isSome = true :=
  ⟨fwW, 1, 0, 0, _, State.reset, rfl, by decide +kernel⟩
theorem witness_IntegrityCommandsComplete_auditionComplete_6 : ∃ (k : UnitKind) (d : Die) (ix n : Nat) (s : State),
    n = UnitKind.ix k ∧ s.unit n d ix = .audition ∧ s.history.passed.contains (unitKey n d ix) = false :=
  ⟨.bay, 0, 0, 0, State.reset.setUnit 0 0 0 .audition, by decide, by decide, by decide⟩
theorem witness_IntegrityCommandsComplete_auditionComplete_7 : ∃ (k : UnitKind) (d : Die) (ix n : Nat) (s : State),
    n = UnitKind.ix k ∧ s.unit n d ix = .audition ∧ s.history.passed.contains (unitKey n d ix) = false :=
  ⟨.bay, 0, 0, 0, State.reset.setUnit 0 0 0 .audition, by decide, by decide, by decide⟩
theorem witness_IntegrityCommandsComplete_auditionComplete_8 : ∃ (k : UnitKind) (d : Die) (ix n : Nat) (s : State),
    n = UnitKind.ix k ∧ s.resets.stage = 0x80 ∧ (s.unit n d ix = .inService ∨ s.unit n d ix = .wings) :=
  ⟨.bay, 0, 0, 0, { State.reset with resets := { State.reset.resets with stage := 0x80 } }, rfl, by decide, by decide +kernel⟩
theorem witness_CueLeaderMessagesComplete_vote_0 : ∃ (h : CueHdr) (v : VoteBody) (s : State),
    s.inReset 0 pgCue = false ∧ s.alive 0 = true ∧ s.books.staged = none ∧ s.inRound h = true ∧ v.view.toNat = s.viewNum ∧ s.leads = true :=
  ⟨testHdr 1, testVote, castS 5, by decide +kernel, by decide +kernel, by decide +kernel, by decide +kernel, by decide +kernel, by decide +kernel⟩
theorem witness_CueLeaderMessagesComplete_digest_1 : ∃ (h : CueHdr) (k : BitVec 8) (x : BitVec 256) (s : State),
    s.inReset 0 pgCue = false ∧ s.alive 0 = true ∧ h.rank ≠ 0xFFFF ∧ s.inRound h = true ∧ s.leads = true :=
  ⟨testHdr 1, 0, 1, castS 5, by decide +kernel, by decide +kernel, by decide +kernel, by decide +kernel, by decide +kernel⟩
theorem witness_CueLeaderMessagesComplete_digest_2 : ∃ (h : CueHdr) (k : BitVec 8) (x : BitVec 256) (s : State),
    s.inReset 0 pgCue = false ∧ s.alive 0 = true ∧ h.rank = 0xFFFF ∧ k.toNat = 2 ∧ s.inRound h = true ∧ s.leads = true :=
  ⟨{ testHdr 1 with rank := 0xFFFF }, 2, 1, castS 5, by decide +kernel, by decide +kernel, by decide +kernel, by decide +kernel, by decide +kernel, by decide +kernel⟩
theorem witness_CueLeaderMessagesComplete_pairs_3 : ∃ (h : CueHdr) (ps : List (BitVec 32 × Nat)) (s : State),
    s.inReset 0 pgCue = false ∧ s.alive 0 = true ∧ s.inRound h = true ∧ s.leads = true :=
  ⟨testHdr 1, [], castS 5, by decide +kernel, by decide +kernel, by decide +kernel, by decide +kernel⟩
theorem witness_CueLeaderMessagesComplete_keep_4 : ∃ (h : CueHdr) (n : Nat) (s : State),
    s.inReset 0 pgCue = false ∧ s.alive 0 = true ∧ s.inRound h = true ∧ s.fromLeader h = true ∧ s.leads = false :=
  ⟨testHdr 1, 0, castS 1, by decide +kernel, by decide +kernel, by decide +kernel, by decide +kernel, by decide +kernel⟩
theorem witness_CueLeaderMessagesComplete_keepTimer_5 : ∃ (u s : State),
    s.inReset 0 pgCue = false ∧ s.alive 0 = true ∧ s.leads = true ∧ s.phase = 1 ∧ s.cue.plan = none ∧ s.cue.keptAt + 200000 ≤ s.now 0 ∧ u = { s with cue := { s.cue with keptAt := s.now 0 } } :=
  ⟨_, ((castS 5).setPhase 1).wr 0 pgTim 0x080 (2 ^ 40), by decide +kernel, by decide +kernel, by decide +kernel, by decide +kernel, by decide +kernel, by decide +kernel, rfl⟩
theorem witness_CueLeaderMessagesComplete_voteDeadline_6 : ∃ (t : Nat) (s : State),
    s.inReset 0 pgCue = false ∧ s.alive 0 = true ∧ s.cue.first = some t ∧ s.leads = true ∧ s.cue.plan = none ∧ s.cue.held = false ∧ s.cue.committed = none ∧ s.cue.late = [] ∧ t + s.deadline ≤ s.now 0 :=
  ⟨0, (fun t : State => { t with cue := { t.cue with first := some 0 } }) ((castS 5).wr 0 pgTim 0x080 (2 ^ 40)), by decide +kernel, by decide +kernel, by decide +kernel, by decide +kernel, by decide +kernel, by decide +kernel, by decide +kernel, by decide +kernel, by decide +kernel⟩
theorem witness_CueLeaderMessagesComplete_ack_7 : ∃ (h : CueHdr) (o : Decision) (p : CuePlan) (s : State),
    s.inReset 0 pgCue = false ∧ s.alive 0 = true ∧ s.inRound h = true ∧ s.leads = true ∧ s.cue.plan = some p ∧ p.body.outcome = o :=
  ⟨testHdr 1, .certify, testPlan, (fun t : State => { t with cue := { t.cue with plan := some testPlan } }) (castS 5), by decide +kernel, by decide +kernel, by decide +kernel, by decide +kernel, by decide +kernel, by decide +kernel⟩
theorem witness_CueLeaderMessagesComplete_admitWindowExpire_8 : ∃ (t : State) (s : State),
    s.inReset 0 pgCue = false ∧ s.alive 0 = true ∧ s.leads = true ∧ s.cue.held = true ∧ s.cue.absent ≠ [] ∧ s.cue.plan = none ∧ s.cue.heldAt + clampTo 100 60000 (s.cueCfg 0 16) * 1000000 ≤ s.now 0 ∧ t = { s with cue := { s.cue with absent := [] } } :=
  ⟨_, (fun t : State => { t with cue := { t.cue with held := true, absent := [1] } }) ((castS 5).wr 0 pgTim 0x080 (2 ^ 50)), by decide +kernel, by decide +kernel, by decide +kernel, by decide +kernel, by decide +kernel, by decide +kernel, by decide +kernel, rfl⟩
theorem witness_CueLeaderMessagesComplete_heldRound_9 : ∃ (s : State),
    s.inReset 0 pgCue = false ∧ s.alive 0 = true ∧ s.leads = true ∧ s.cue.held = true ∧ s.cue.plan = none ∧ s.cuesDown = false ∧ s.cue.noSpare = [] ∧ s.cue.called ≠ [] ∧ ((s.cue.called.any fun c => c.ready.isNone) = false) :=
  ⟨(fun t : State => { t with cue := { t.cue with held := true, called := [{ rank := 1, device := 9, failed := 1, since := 0, ready := some 15 }] } }) (castS 5), by decide +kernel, by decide +kernel, by decide +kernel, by decide +kernel, by decide +kernel, by decide +kernel, by decide +kernel, by decide +kernel, by decide +kernel⟩
theorem witness_CueLeaderMessagesComplete_ready_10 : ∃ (h : CueHdr) (dev rank : Nat) (f : BitVec 8) (c : Called) (t : State) (s : State),
    s.inReset 0 pgCue = false ∧ s.alive 0 = true ∧ s.inRound h = true ∧ s.leads = true ∧ ((s.cue.called.find? fun c => c.rank = rank && c.device = dev) = some c) ∧ (s.poolBookOk c.failed && f.toNat % 16 = 15) = true ∧ t = s.took 1 :=
  ⟨testHdr 1, 9, 1, 15, { rank := 1, device := 9, failed := 1, since := 0 }, _, (fun t : State => { t with cue := { t.cue with books := [(1, 7)], poolDigests := [7], called := [{ rank := 1, device := 9, failed := 1, since := 0 }] } }) (castS 5), by decide +kernel, by decide +kernel, by decide +kernel, by decide +kernel, by decide +kernel, by decide +kernel, rfl⟩
theorem witness_CueLeaderMessagesComplete_callReadyTimeout_11 : ∃ (rank : Nat) (c : Called) (s : State),
    s.inReset 0 pgCue = false ∧ s.alive 0 = true ∧ ((s.cue.called.find? fun c => c.rank = rank) = some c) ∧ c.ready = none ∧ s.leads = true ∧ s.cue.plan = none ∧ c.since + 10000000000 ≤ s.now 0 :=
  ⟨1, { rank := 1, device := 9, failed := 1, since := 0 }, (fun t : State => { t with cue := { t.cue with called := [{ rank := 1, device := 9, failed := 1, since := 0 }] } }) ((castS 5).wr 0 pgTim 0x080 (2 ^ 40)), by decide +kernel, by decide +kernel, by decide +kernel, by decide +kernel, by decide +kernel, by decide +kernel, by decide +kernel⟩
theorem witness_CueLeaderMessagesComplete_drained_12 : ∃ (h : CueHdr) (t s : State),
    s.inReset 0 pgCue = false ∧ s.alive 0 = true ∧ s.inRound h = true ∧ t = s.hears h :=
  ⟨testHdr 1, _, castS 5, by decide +kernel, by decide +kernel, by decide +kernel, rfl⟩
theorem witness_CueMemberMessagesComplete_pairs_0 : ∃ (h : CueHdr) (ps : List (BitVec 32 × Nat)) (t s : State),
    s.inReset 0 pgCue = false ∧ s.alive 0 = true ∧ s.inRound h = true ∧ t = s.hears h ∧ t.leads = false :=
  ⟨testHdr 1, [], _, castS 1, by decide +kernel, by decide +kernel, by decide +kernel, rfl, by decide +kernel⟩
theorem witness_CueMemberMessagesComplete_halt_1 : ∃ (h : CueHdr) (x : BitVec 8) (t : State) (s : State),
    s.inReset 0 pgCue = false ∧ s.alive 0 = true ∧ h.step = s.stepCur ∧ h.attempt = s.attempt ∧ s.stepState = 1 ∧ (t = (if s.leads then s.sendHalt x.toNat else (s.hears h).wrF 0 pgCue 0x028 5 1 1).noCert x.toNat) ∧ t.stepState = 1 ∧ t.step.ended = none :=
  ⟨testHdr 1, 6, _, (castS 1).wrF 0 pgStp 0x0B0 0 3 1, by decide +kernel, by decide +kernel, by decide +kernel, by decide +kernel, by decide +kernel, rfl, by decide +kernel, by decide +kernel⟩
theorem witness_CueMemberMessagesComplete_prepare_2 : ∃ (h : CueHdr) (p : PrepBody) (r t u : State) (s : State),
    s.inReset 0 pgCue = false ∧ s.alive 0 = true ∧ r = s.poolJoins h p ∧ r.inRound h = true ∧ t = r.hears h ∧ t.fromLeader h = true ∧ t.leads = false ∧ t.mayAck p = true ∧ t.cue.committed = none ∧ u = t.buddyFresh :=
  ⟨testHdr 1, testPrep, castS 1, _, _, castS 1, by decide +kernel, by decide +kernel, by decide +kernel, by decide +kernel, rfl, by decide +kernel, by decide +kernel, by decide +kernel, by decide +kernel, rfl⟩
theorem witness_CueMemberMessagesComplete_fences_3 : ∃ (h : CueHdr) (ds : List Nat) (t s : State),
    s.inReset 0 pgCue = false ∧ s.alive 0 = true ∧ s.inRound h = true ∧ t = s.hears h ∧ t.leads = false :=
  ⟨testHdr 1, [3], _, castS 1, by decide +kernel, by decide +kernel, by decide +kernel, rfl, by decide +kernel⟩
theorem witness_CueMemberMessagesComplete_commit_4 : ∃ (h : CueHdr) (o : Decision) (a : BitVec 8) (v : BitVec 32) (n : Nat) (p : PrepBody) (t s : State),
    s.inReset 0 pgCue = false ∧ s.alive 0 = true ∧ s.inRound h = true ∧ t = s.hears h ∧ t.cue.prep = some (n, p) ∧ t.fromLeader h = true ∧ t.leads = false ∧ p.outcome = o ∧ t.cue.committed = none ∧ t.atVoteNow = true :=
  ⟨testHdr 1, .certify, 0, 0, 0, testPrep, _, (fun t : State => { t with cue := { t.cue with prep := some (0, testPrep) } }) (castS 1), by decide +kernel, by decide +kernel, by decide +kernel, rfl, by decide +kernel, by decide +kernel, by decide +kernel, by decide +kernel, by decide +kernel, by decide +kernel⟩
theorem witness_CueMemberMessagesComplete_commit_5 : ∃ (h : CueHdr) (o : Decision) (a : BitVec 8) (v : BitVec 32) (n : Nat) (p : PrepBody) (t s : State),
    s.inReset 0 pgCue = false ∧ s.alive 0 = true ∧ s.inRound h = true ∧ t = s.hears h ∧ t.cue.prep = some (n, p) ∧ t.fromLeader h = true ∧ t.leads = false ∧ p.outcome = o ∧ t.cue.committed = none ∧ t.atVoteNow = false :=
  ⟨testHdr 1, .certify, 0, 0, 0, testPrep, _, (fun t : State => { t with cue := { t.cue with prep := some (0, testPrep) } }) ((castS 1).wrF 0 pgStp 0x0B0 0 3 1), by decide +kernel, by decide +kernel, by decide +kernel, rfl, by decide +kernel, by decide +kernel, by decide +kernel, by decide +kernel, by decide +kernel, by decide +kernel⟩
theorem witness_CueMemberMessagesComplete_leaderSilence_6 : ∃ (s : State),
    s.inReset 0 pgCue = false ∧ s.alive 0 = true ∧ s.leads = false ∧ (s.phase = 1 ∨ s.phase = 2) ∧ s.cue.heard + 400000 ≤ s.now 0 :=
  ⟨((castS 1).setPhase 1).wr 0 pgTim 0x080 (2 ^ 40), by decide +kernel, by decide +kernel, by decide +kernel, by decide +kernel, by decide +kernel⟩
theorem witness_CueMemberMessagesComplete_call_7 : ∃ (h : CueHdr) (rank holder buddy failed lead : Nat) (r u : State) (s : State),
    s.inReset 0 pgCue = false ∧ s.alive 0 = true ∧ s.ownRank = 0xFFFF ∧ s.fenced s.ident.1 = false ∧ lead = (s.rankDev h.rank).getD s.leader ∧ (r = if s.inRound h then s else (s.newRound h.step).setRound h.step h.attempt) ∧ u = ({ r with cue := { r.cue with call := some (rank, holder, buddy, failed, lead) }, leader := lead } : State).setPhase 5 ∧ u.cuesDown = false :=
  ⟨testHdr 1, 1, 1, 0, 3, 0, _, _, State.reset, by decide +kernel, by decide +kernel, by decide +kernel, by decide +kernel, by decide +kernel, rfl, rfl, by decide +kernel⟩
theorem witness_CueMemberMessagesComplete_poolReadySend_8 : ∃ (rank x y z lead : Nat) (b : Book) (t : State) (s : State),
    s.inReset 0 pgCue = false ∧ s.alive 0 = true ∧ s.cue.call = some (rank, x, y, z, lead) ∧ s.books.staged = some b ∧ b.castRank = rank ∧ s.offers = true ∧ t = { s with leader := lead, retained := { s.retained with curB := false, buddyB := false, buddyValid := true } } :=
  ⟨0, 0, 0, 0, 0, {}, _, { State.reset with books := { State.reset.books with staged := some {} }, cue := { State.reset.cue with call := some (0, 0, 0, 0, 0) } }, by decide +kernel, by decide +kernel, by decide +kernel, by decide +kernel, by decide +kernel, by decide +kernel, rfl⟩
theorem witness_CueMemberMessagesComplete_apply_9 : ∃ (h : CueHdr) (t s : State),
    s.inReset 0 pgCue = false ∧ s.alive 0 = true ∧ s.inRound h = true ∧ t = s.hears h ∧ t.fromLeader h = true ∧ t.step.change = true :=
  ⟨testHdr 1, _, { castS 1 with step := { State.reset.step with change := true } }, by decide +kernel, by decide +kernel, by decide +kernel, rfl, by decide +kernel, by decide +kernel⟩
theorem witness_CueMemberMessagesComplete_writer_10 : ∃ (h : CueHdr) (w n : Nat) (t : State) (s : State),
    s.inReset 0 pgCue = false ∧ s.alive 0 = true ∧ t = s.noteWriter h.step w n :=
  ⟨testHdr 1, 1, 1, _, castS 1, by decide +kernel, by decide +kernel, rfl⟩
theorem witness_CheckpointCommandsComplete_sign_0 : ∃ (w : Writer) (c : Committed) (s : State),
    c = s.write1 0 pgStp 0x230 w (1 + 0 * 2 ^ 4) ∧ c.win.isSome = true ∧ c.s.ckpState ≠ 1 ∧ c.s.ckpState ≠ 4 :=
  ⟨fwW, _, State.reset, rfl, by decide +kernel, by decide +kernel, by decide +kernel⟩
theorem witness_CheckpointCommandsComplete_restoreOwn_1 : ∃ (w : Writer) (c : Committed) (b : Book) (r : State × Bool) (s : State),
    c = s.write1 0 pgStp 0x230 w (2 + 0 * 2 ^ 4) ∧ c.win.isSome = true ∧ c.s.ckpState ≠ 1 ∧ c.s.ckpState ≠ 4 ∧ c.s.books.staged = some b ∧ c.s.stepState = 0 ∧ r = c.s.acceptManifest b :=
  ⟨fwW, _, {}, _, staged, rfl, by decide +kernel, by decide +kernel, by decide +kernel, by decide +kernel, by decide +kernel, rfl⟩
theorem witness_CheckpointCommandsComplete_restoreBuddy_2 : ∃ (w : Writer) (c : Committed) (b : Book) (s : State),
    c = s.write1 0 pgStp 0x230 w (3 + 0 * 2 ^ 4) ∧ c.win.isSome = true ∧ c.s.ckpState ≠ 1 ∧ c.s.ckpState ≠ 4 ∧ c.s.books.staged = some b ∧ c.s.stepState = 0 ∧ c.s.ckpt.manifest ≠ [] :=
  ⟨fwW, _, {}, { staged with ckpt := { staged.ckpt with manifest := [1] } }, rfl, by decide +kernel, by decide +kernel, by decide +kernel, by decide +kernel, by decide +kernel, by decide +kernel⟩
theorem witness_CheckpointCommandsComplete_fetchOwn_3 : ∃ (w : Writer) (dev : DevIx) (f : Option (Nat × List Byte)) (c : Committed) (b : Book) (s : State),
    c = s.write1 0 pgStp 0x230 w (4 + dev.val * 2 ^ 4) ∧ c.win.isSome = true ∧ c.s.ckpState ≠ 1 ∧ c.s.ckpState ≠ 4 ∧ c.s.books.staged = some b ∧ c.s.stepState = 0 ∧ c.s.ckpt.manifest ≠ [] :=
  ⟨fwW, 3, none, _, {}, { staged with ckpt := { staged.ckpt with manifest := [1] } }, rfl, by decide +kernel, by decide +kernel, by decide +kernel, by decide +kernel, by decide +kernel, by decide +kernel⟩
theorem witness_CheckpointCommandsComplete_abandon_4 : ∃ (w : Writer) (c : Committed) (s : State),
    c = s.write1 0 pgStp 0x230 w (5 + 0 * 2 ^ 4) ∧ c.win.isSome = true ∧ (c.s.ckpState = 1 ∨ c.s.ckpState = 4) :=
  ⟨fwW, _, State.reset.setCkpState 1, rfl, by decide +kernel, by decide +kernel⟩
theorem witness_CheckpointCommandsComplete_ringSwWrite_5 : ∃ (w : Writer) (v : Word) (c : Committed) (s : State),
    c = s.write1 0 pgStp 0x220 w v.toNat ∧ c.win.isSome = true :=
  ⟨fwW, 0, _, State.reset, rfl, by decide +kernel⟩
theorem witness_CheckpointCommandsComplete_exportComplete_6 : ∃ (r : CkpRun) (s : State),
    s.ckpt.run = some r ∧ r.exporting = true ∧ r.units ≤ r.pos :=
  ⟨{ exporting := true, pos := 2 ^ 30 }, doneRun true, by decide, by decide, by decide⟩
theorem witness_CheckpointCommandsComplete_restoreComplete_7 : ∃ (r : CkpRun) (s : State),
    s.ckpt.run = some r ∧ r.exporting = false ∧ r.units ≤ r.pos :=
  ⟨{ exporting := false, pos := 2 ^ 30 }, doneRun false, by decide, by decide, by decide⟩
theorem witness_HangEventsComplete_watchdogFire_0 : ∃ (d : Die) (b : Bay) (t u : State) (s : State),
    s.wdFires d b = true ∧ (((s.replayOf d b).bind fun r => r.trial) = none) ∧ ((s.ctxOn d b).isNone = true ∨ s.firedNear d = true) ∧ t = s.noteFired d b ∧ u = ((t.took 1).capture 3 4 d (some b) [] false).replayAdd d b (Tab.get 0 t.fw.capNext d) (t.suspects d b) :=
  ⟨0, 0, _, _, hangS [(1, 2 ^ 40)], by decide +kernel, by decide +kernel, .inr (by decide +kernel), rfl, rfl⟩
theorem witness_HangEventsComplete_watchdogFire_1 : ∃ (d : Die) (b : Bay) (x : Bool) (t u : State) (s : State),
    s.wdFires d b = true ∧ (((s.replayOf d b).bind fun r => r.trial) = none) ∧ (s.ctxOn d b).isNone = false ∧ s.firedNear d = false ∧ t = s.noteFired d b ∧ x = decide (t.free.toNat % 2 = 1) ∧ u = (((t.took 1).capture 1 1 d (some b) [] x).forcedSave d b x).replayAdd d b (Tab.get 0 t.fw.capNext d) (t.suspects d b) :=
  ⟨0, 0, _, _, _, hangS [], by decide +kernel, by decide +kernel, by decide +kernel, by decide +kernel, rfl, rfl, rfl⟩
theorem witness_HangEventsComplete_watchdogFire_2 : ∃ (d : Die) (b : Bay) (r : Replay) (c : Nat) (s : State),
    s.wdFires d b = true ∧ s.replayOf d b = some r ∧ r.trial = some c ∧ r.hung = false :=
  ⟨0, 0, { testReplay with trial := some 1 }, 1, { hangS [] with hang := { (hangS []).hang with replays := [{ testReplay with trial := some 1 }] } }, by decide, by decide, by decide, by decide⟩
theorem witness_HangEventsComplete_bayResetTimeout_3 : ∃ (d : Die) (b : Bay) (s : State),
    s.resetLate (1, d.val, b.val) 3000000 = true :=
  ⟨0, 0, lateS ⟨1, 0, 0, 1, false, 0⟩, by decide +kernel⟩
theorem witness_HangEventsComplete_partitionTimeout_4 : ∃ (d : Die) (s : State),
    s.resetLate (4, d.val, 0) 40000000 = true :=
  ⟨0, lateS ⟨4, 0, 0, 1, false, 0⟩, by decide +kernel⟩
theorem witness_HangEventsComplete_shcStall_5 : ∃ (d : Die) (s : State),
    s.blkIs d pgShc 4 = false ∧ s.power.down = false :=
  ⟨0, State.reset, by decide, by decide⟩
theorem witness_HangEventsComplete_aprStall_6 : ∃ (d : Die) (t : StackIx) (s : State),
    s.blkIs d (pgApr t) 4 = false ∧ s.power.down = false ∧ s.rdF d (pgApr t) 0x028 0 2 ≠ 2 :=
  ⟨0, 0, State.reset, by decide, by decide, by decide⟩
theorem witness_HangEventsComplete_replayTrialClear_7 : ∃ (d : Die) (b : Bay) (r : Replay) (c : Nat) (s : State),
    s.replayOf d b = some r ∧ r.trial = some c ∧ r.hung = false ∧ (s.ctxOf c).st ≠ 2 :=
  ⟨0, 0, { testReplay with trial := some 1 }, 1, trialS, by decide, by decide, by decide, by decide⟩
theorem witness_HangEventsComplete_replayTrialClear_8 : ∃ (d : Die) (b : Bay) (r : Replay) (c : Nat) (t : State) (s : State),
    s.replayOf d b = some r ∧ r.trial = some c ∧ r.hung = false ∧ (s.ctxOf c).st = 2 ∧ s.trialMade d b r = true ∧ t = (s.setSwitching d b true).settleSwitch d b ∧ t.suAtRest d b = true :=
  ⟨0, 0, { testReplay with trial := some 1 }, 1, _, { trialS with ctx := { trialS.ctx with ctxs := [(1, { st := 2 })], bays := [(0, 2)] } }, by decide +kernel, by decide +kernel, by decide +kernel, by decide +kernel, by decide +kernel, rfl, by decide +kernel⟩
theorem witness_PowerLoopCommandsComplete_frequencyChangeComplete_0 : ∃ (d : Die) (f : Nat) (t : State) (s : State),
    s.rdF d pgPwr 0x028 0 1 ≠ 0 ∧ s.rdF d pgPwr 0x028 1 1 ≠ 1 ∧ f = s.rdF d pgPwr 0x0C8 11 11 ∧ t = (s.wrF d pgPwr 0x0C8 0 11 f).wrF d pgPwr 0x028 0 1 0 :=
  ⟨0, _, _, State.reset.wrF 0 pgPwr 0x028 0 1 1, by decide +kernel, by decide +kernel, rfl, rfl⟩
theorem witness_PowerLoopCommandsComplete_droopDetect_1 : ∃ (d : Die) (i : Island) (t : State) (s : State),
    s.rdF d pgPwr 0x0E0 i 1 ≠ 1 ∧ t = (s.wrF d pgPwr 0x0E0 i 1 1).satF d pgPwr 0x0E0 32 16 1 :=
  ⟨0, 0, _, State.reset, by decide +kernel, rfl⟩
theorem witness_PowerLoopCommandsComplete_droopClear_2 : ∃ (d : Die) (i : Island) (t : State) (s : State),
    t = s.wrF d pgPwr 0x0E0 i 1 0 :=
  ⟨0, 0, _, State.reset, rfl⟩
theorem witness_PowerLoopCommandsComplete_droopPauseExpire_3 : ∃ (d : Die) (s : State),
    s.droopBays d = 0 ∧ Tab.get 0 s.power.cleared d + 50000 ≤ s.now d :=
  ⟨0, State.reset.wr 0 pgTim 0x080 (2 ^ 40), by decide, by decide⟩
theorem witness_PowerLoopCommandsComplete_powerLoopTick_4 : ∃ (rd : List PowerReading) (t u v w : State) (s : State),
    (t = foldNat 4 (fun s d => match rd[d]? with | some r => s.dieTick d r | none => s) s) ∧ (u = { t with io := { t.io with mv := if rd = [] then t.io.mv else (rd.map (·.mv)).foldl min 65535 } }) ∧ v = { u with power := { u.power with samples := (u.packagePower :: u.power.samples).take 10000 } } ∧ w = (v.railTick rd).throttle u.packagePower :=
  ⟨[], _, _, _, _, State.reset, rfl, rfl, rfl, rfl⟩
theorem witness_PowerLoopCommandsComplete_thermalThrottleTick_5 : ∃ (d : Die) (j : Int) (k n : Nat) (t : State) (s : State),
    (n = (if 102 ≤ j ∨ 92 ≤ k then min 15 (s.rdF d pgPwr 0x0D8 4 4 + 1) else if j ≤ 99 ∧ k ≤ 89 then s.rdF d pgPwr 0x0D8 4 4 - 1 else s.rdF d pgPwr 0x0D8 4 4)) ∧ t = s.wrF d pgPwr 0x0D8 4 4 n :=
  ⟨0, 0, 0, _, _, State.reset, rfl, rfl⟩
theorem witness_PowerLoopCommandsComplete_shedStepEnter_6 : ∃ (step : ShedStep) (mv : Nat) (t : State) (s : State),
    mv < shedThreshold (step.val + 1) ∧ s.shed < step.val + 1 ∧ t = { s with io := { s.io with mv := mv } } :=
  ⟨0, 0, _, State.reset, by decide +kernel, by decide +kernel, rfl⟩
theorem witness_PowerLoopCommandsComplete_shedStepRelease_7 : ∃ (step : ShedStep) (mv n : Nat) (t u : State) (s : State),
    n = step.val + 1 ∧ n = s.shed ∧ n ≠ 7 ∧ shedThreshold n + 500 ≤ mv ∧ t = { s with io := { s.io with mv := mv } } ∧ (u = foldNat 4 (fun s d => s.wr d pgPwr 0x0E8 (n - 1)) t) :=
  ⟨0, 60000, _, _, _, State.reset.wr 0 pgPwr 0x0E8 1, rfl, by decide +kernel, by decide +kernel, by decide +kernel, rfl, rfl⟩
theorem witness_FirmwareComponentsComplete_componentFault_0 : ∃ (d : Die) (c : Component) (near : List Nat) (t : State) (s : State),
    s.comp d c ≠ 0 ∧ (near = (Tab.get [] s.fw.restarts (8 * d + c)).filter (fun t => decide (s.now d < t + 60000000000))) ∧ c.val ≠ 0 ∧ near.length < 3 ∧ t = ((({ s with fw := { s.fw with restarts := Tab.put s.fw.restarts (8 * d + c) (s.now d :: near) } } : State).setErr d pgMgc 9).logAt d 0 .compRestart [c]).satF d pgMgc 0x088 (4 * c) 4 1 :=
  ⟨0, 4, _, _, State.reset.setComp 0 4 1, by decide +kernel, rfl, by decide +kernel, by decide +kernel, rfl⟩
theorem witness_FirmwareComponentsComplete_componentLivenessMiss_1 : ∃ (d : Die) (c : Component) (near : List Nat) (t : State) (s : State),
    s.comp d c ≠ 0 ∧ (near = (Tab.get [] s.fw.restarts (8 * d + c)).filter (fun t => decide (s.now d < t + 60000000000))) ∧ c.val ≠ 0 ∧ near.length < 3 ∧ t = ((({ s with fw := { s.fw with restarts := Tab.put s.fw.restarts (8 * d + c) (s.now d :: near) } } : State).setErr d pgMgc 9).logAt d 0 .compRestart [c]).satF d pgMgc 0x088 (4 * c) 4 1 :=
  ⟨0, 4, _, _, State.reset.setComp 0 4 1, by decide +kernel, rfl, by decide +kernel, by decide +kernel, rfl⟩
theorem witness_FirmwareComponentsComplete_componentFault_2 : ∃ (d : Die) (c : Component) (s : State),
    s.comp d c ≠ 0 ∧ (c.val = 0 ∨ 3 ≤ ((Tab.get [] s.fw.restarts (8 * d + c)).filter (fun t => decide (s.now d < t + 60000000000))).length) :=
  ⟨0, 0, State.reset.setComp 0 0 1, by decide +kernel, by decide +kernel⟩
theorem witness_FirmwareComponentsComplete_componentRestartComplete_3 : ∃ (d : Die) (c : Component) (t : State) (s : State),
    s.comp d c = 2 ∧ t = s.setComp d c 1 :=
  ⟨0, 1, _, State.reset.setComp 0 1 2, by decide +kernel, rfl⟩
theorem witness_FirmwareComponentsComplete_mbxSubmit_4 : ∃ (w : Writer) (n : Mbox) (a : Word) (q : WriteReq) (m : Msg) (u : State) (s : State),
    q = ⟨w, a, 8⟩ ∧ accessOk 0 pgMbx (0x080 + 8 * n.val) q = true ∧ s.mayWrite 0 pgMbx (0x080 + 8 * n.val) q = true ∧ s.inReset 0 pgMbx = false ∧ s.msgAddr (a.toNat % 2 ^ 52) = true ∧ s.loses n.val w = false ∧ u = s.overtake n.val w ∧ u.msgAddr (a.toNat % 2 ^ 52) = true ∧ m = ⟨a.toNat % 2 ^ 52, w, u.memRead (addrKey (a.toNat % 2 ^ 52)) 256⟩ :=
  ⟨sysW, 0, 0, _, _, _, State.reset, rfl, by decide +kernel, by decide +kernel, by decide +kernel, by decide +kernel, by decide +kernel, rfl, by decide +kernel, rfl⟩
theorem witness_FirmwareComponentsComplete_mbxSubmit_5 : ∃ (w : Writer) (n : Mbox) (a : Word) (q : WriteReq) (m : Msg) (u : State) (s : State),
    q = ⟨w, a, 8⟩ ∧ accessOk 0 pgMbx (0x080 + 8 * n.val) q = true ∧ s.mayWrite 0 pgMbx (0x080 + 8 * n.val) q = true ∧ s.inReset 0 pgMbx = false ∧ s.msgAddr (a.toNat % 2 ^ 52) = true ∧ s.loses n.val w = true ∧ u = s ∧ u.msgAddr (a.toNat % 2 ^ 52) = true ∧ m = ⟨a.toNat % 2 ^ 52, w, u.memRead (addrKey (a.toNat % 2 ^ 52)) 256⟩ :=
  ⟨sysW, 0, 0, _, _, _, { State.reset with fw := { State.reset.fw with arrivals := [(0, (0, [⟨0, fwW, []⟩]))] } }, rfl, by decide +kernel, by decide +kernel, by decide +kernel, by decide +kernel, by decide +kernel, rfl, by decide +kernel, rfl⟩
theorem witness_FirmwareComponentsComplete_mbx14Arm_6 : ∃ (w : Writer) (a : Word) (q : WriteReq) (m : Msg) (u : State) (s : State),
    q = ⟨w, a, 8⟩ ∧ accessOk 0 pgMbx (0x080 + 8 * 14) q = true ∧ s.mayWrite 0 pgMbx (0x080 + 8 * 14) q = true ∧ s.inReset 0 pgMbx = false ∧ s.msgAddr (a.toNat % 2 ^ 52) = true ∧ s.loses 14 w = false ∧ u = s.overtake 14 w ∧ u.msgAddr (a.toNat % 2 ^ 52) = true ∧ m = ⟨a.toNat % 2 ^ 52, w, u.memRead (addrKey (a.toNat % 2 ^ 52)) 256⟩ :=
  ⟨sysW, 0, _, _, _, State.reset, rfl, by decide +kernel, by decide +kernel, by decide +kernel, by decide +kernel, by decide +kernel, rfl, by decide +kernel, rfl⟩
theorem witness_FirmwareComponentsComplete_mbx14Arm_7 : ∃ (w : Writer) (a : Word) (q : WriteReq) (m : Msg) (u : State) (s : State),
    q = ⟨w, a, 8⟩ ∧ accessOk 0 pgMbx (0x080 + 8 * 14) q = true ∧ s.mayWrite 0 pgMbx (0x080 + 8 * 14) q = true ∧ s.inReset 0 pgMbx = false ∧ s.msgAddr (a.toNat % 2 ^ 52) = true ∧ s.loses 14 w = true ∧ u = s ∧ u.msgAddr (a.toNat % 2 ^ 52) = true ∧ m = ⟨a.toNat % 2 ^ 52, w, u.memRead (addrKey (a.toNat % 2 ^ 52)) 256⟩ :=
  ⟨sysW, 0, _, _, _, { State.reset with fw := { State.reset.fw with arrivals := [(14, (0, [⟨0, fwW, []⟩]))] } }, rfl, by decide +kernel, by decide +kernel, by decide +kernel, by decide +kernel, by decide +kernel, rfl, by decide +kernel, rfl⟩
theorem witness_FirmwareComponentsComplete_mbxDoneClear_8 : ∃ (w : Writer) (v : Word) (c : Committed) (s : State),
    c = s.write1 0 pgMbx 0x108 w v.toNat ∧ c.win.isSome = true :=
  ⟨fwW, 0, _, State.reset, rfl, by decide +kernel⟩
theorem witness_FirmwareComponentsComplete_signedCommandReceive_9 : ∃ (msg : List Byte) (buf : Nat) (a : Nat) (q : WriteReq) (m : Msg) (t u v : State) (s : State),
    s.comp 0 4 ≠ 0 ∧ s.inReset 0 pgShc = false ∧ a = s.device * 2 ^ 40 + buf % 2 ^ 38 / 256 * 256 ∧ m = ⟨a, ⟨.mgmt, BitVec.ofNat 32 (fieldAt msg 8 4), 0, false⟩, msg⟩ ∧ q = ⟨m.w, BitVec.ofNat 64 a, 8⟩ ∧ t = { s with fw := { s.fw with lastSeq := m.seq } } ∧ u = (t.ownWrite (addrKey a) msg).1 ∧ v = u.overtake 15 m.w :=
  ⟨[], 0, _, _, _, _, _, _, State.reset.setComp 0 4 1, by decide +kernel, by decide +kernel, rfl, rfl, rfl, rfl, rfl, rfl⟩
theorem witness_FirmwareComponentsComplete_logSuppressed_10 : ∃ (d : Die) (src : BitVec 8) (key lost : Nat) (t : State) (s : State),
    key = d.val * 256 + src.toNat ∧ lost = Tab.get 0 s.log.lost key ∧ lost ≠ 0 ∧ (s.recentOf key).length < 4096 ∧ t = { s with log := { s.log with lost := Tab.del s.log.lost key } } :=
  ⟨0, 0, _, _, _, { State.reset with log := { State.reset.log with lost := [(0, 1)] } }, rfl, rfl, by decide +kernel, by decide +kernel, rfl⟩
theorem witness_FirmwareComponentsComplete_updateHoldExpire_11 : ∃ (s : State),
    s.updateState = 3 ∧ s.recentEmergency = false ∧ s.power.down = false ∧ s.power.off.isEmpty = true :=
  ⟨State.reset.setUpdate 3, by decide +kernel, by decide +kernel, by decide +kernel, by decide +kernel⟩
theorem witness_FirmwareComponentsComplete_heartbeatTimeout_12 : ∃ (d : Die) (t : State) (s : State),
    s.hbMs ≠ 0 ∧ Tab.get 0 s.fw.beats d.val + 3000000 * s.hbMs ≤ s.now 0 ∧ t = { s with fw := { s.fw with beats := Tab.put s.fw.beats d.val (s.now 0) } } :=
  ⟨0, _, (State.reset.wrF 0 pgMgc 0x0C8 0 14 100).wr 0 pgTim 0x080 (2 ^ 40), by decide +kernel, by decide +kernel, rfl⟩
theorem witness_ServiceMessagesComplete_getVersion_0 : ∃ (n : Mbox) (m : Msg) (s : State),
    s.msgReady n 4 0x0001 m :=
  ⟨0, testMsg 0 0x0001 .sys [], msgS 0 0x0001 .sys [], ⟨by decide +kernel, by decide +kernel, by decide +kernel⟩⟩
theorem witness_ServiceMessagesComplete_setIdentity_1 : ∃ (n : Mbox) (m : Msg) (s : State),
    s.msgReady n 4 0x0002 m ∧ m.arg 0 2 < 512 ∧ (∀ p, p < 20 → s.linkSt p ≠ 4) :=
  ⟨15, testMsg 15 0x0002 .sys (List.replicate 6 0), msgS 15 0x0002 .sys (List.replicate 6 0), ⟨by decide +kernel, by decide +kernel, by decide +kernel⟩, by decide +kernel, by decide +kernel⟩
theorem witness_ServiceMessagesComplete_setBlocking_2 : ∃ (n : Mbox) (m : Msg) (a k : Nat) (t u : State) (s : State),
    s.msgReady n 4 0x0003 m ∧ a = m.arg 0 8 ∧ k = m.arg 8 2 ∧ 0 < k ∧ k ≤ 10240 ∧ s.ownRange a (16 * k) = true ∧ t = s.touch (addrKey a) (16 * k) ∧ t.rangeBad (addrKey a) (16 * k) = false ∧ (u = { t with fabric := { t.fabric with tableIn := some ((List.range k).map fun i => blockRecOf (slice (t.memRead (addrKey a) (16 * k)) (16 * i) 16)) } }) :=
  ⟨0, testMsg 0 0x0003 .sys [0, 0, 0, 0, 0, 0, 0, 0, 1, 0], _, _, _, _, msgS 0 0x0003 .sys [0, 0, 0, 0, 0, 0, 0, 0, 1, 0], ⟨by decide +kernel, by decide +kernel, by decide +kernel⟩, rfl, rfl, by decide +kernel, by decide +kernel, by decide +kernel, rfl, by decide +kernel, rfl⟩
theorem witness_ServiceMessagesComplete_inputsReady_3 : ∃ (n : Mbox) (m : Msg) (mb : Nat) (s : State),
    s.msgReady n 4 0x0004 m ∧ mb = m.arg 6 2 ∧ m.arg 0 6 = s.stepNum ∧ s.retained.inputsLost.contains mb = true :=
  ⟨0, testMsg 0 0x0004 .sys (List.replicate 8 0), _, { msgS 0 0x0004 .sys (List.replicate 8 0) with retained := { State.reset.retained with inputsLost := [0] } }, ⟨by decide +kernel, by decide +kernel, by decide +kernel⟩, rfl, by decide +kernel, by decide +kernel⟩
theorem witness_ServiceMessagesComplete_heartbeat_4 : ∃ (n : Mbox) (m : Msg) (s : State),
    s.msgReady n 4 0x0005 m ∧ m.arg 0 1 < 4 ∧ s.hbMs ≠ 0 :=
  ⟨0, testMsg 0 0x0005 .sys [0], (msgS 0 0x0005 .sys [0]).wrF 0 pgMgc 0x0C8 0 14 100, ⟨by decide +kernel, by decide +kernel, by decide +kernel⟩, by decide +kernel, by decide +kernel⟩
theorem witness_ServiceMessagesComplete_heartbeat_5 : ∃ (n : Mbox) (m : Msg) (s : State),
    s.msgReady n 4 0x0005 m ∧ m.arg 0 1 < 4 ∧ s.hbMs = 0 :=
  ⟨0, testMsg 0 0x0005 .sys [0], msgS 0 0x0005 .sys [0], ⟨by decide +kernel, by decide +kernel, by decide +kernel⟩, by decide +kernel, by decide +kernel⟩
theorem witness_ServiceMessagesComplete_traceSet_6 : ∃ (n : Mbox) (m : Msg) (s : State),
    s.msgReady n 5 0x0015 m ∧ m.arg 32 1 ≤ 1 :=
  ⟨0, testMsg 0 0x0015 .sys (List.replicate 33 0), msgS 0 0x0015 .sys (List.replicate 33 0), ⟨by decide +kernel, by decide +kernel, by decide +kernel⟩, by decide +kernel⟩
theorem witness_ServiceMessagesComplete_configWrite_7 : ∃ (n : Mbox) (m : Msg) (d pg off v : Nat) (q : WriteReq) (s : State),
    s.msgReady n 4 0x0016 m ∧ d = m.arg 0 1 ∧ pg = m.arg 1 1 ∧ off = m.arg 4 2 ∧ v = m.arg 8 8 ∧ q = ⟨mbxsWriter, BitVec.ofNat 64 v, 8⟩ ∧ configAllowed d pg off = true ∧ s.mayWrite d pg off q = true :=
  ⟨0, testMsg 0 0x0016 .sys [0, 2, 0, 0, 136, 0, 0, 0, 0, 0, 0, 0, 0, 0, 0, 0], _, _, _, _, _, msgS 0 0x0016 .sys [0, 2, 0, 0, 136, 0, 0, 0, 0, 0, 0, 0, 0, 0, 0, 0], ⟨by decide +kernel, by decide +kernel, by decide +kernel⟩, rfl, rfl, rfl, rfl, rfl, by decide +kernel, by decide +kernel⟩
theorem witness_ReadingMessagesComplete_logRead_0 : ∃ (n : Mbox) (m : Msg) (r : Nat × List Byte × State) (s : State),
    s.msgReady n 5 0x0010 m ∧ m.arg 8 4 ≤ 16384 ∧ (r = s.copyRecs (m.arg 12 8) (m.arg 0 8) (((s.log.ring.reverse.filter fun e => decide (m.arg 0 8 ≤ e.seq)).take (m.arg 8 4)).map fun e => (e.seq, e.bytes))) :=
  ⟨0, testMsg 0 0x0010 .sys (List.replicate 20 0), _, msgS 0 0x0010 .sys (List.replicate 20 0), ⟨by decide +kernel, by decide +kernel, by decide +kernel⟩, by decide +kernel, rfl⟩
theorem witness_ReadingMessagesComplete_chgRead_1 : ∃ (n : Mbox) (m : Msg) (r : Nat × List Byte × State) (s : State),
    s.msgReady n 5 0x0011 m ∧ m.arg 0 1 < 4 ∧ m.arg 9 4 ≤ 8192 ∧ (r = s.copyRecs (m.arg 13 8) (m.arg 1 8) ((((s.ringOf (m.arg 0 1)).recs.reverse.filter fun x => decide (m.arg 1 8 ≤ x.seq)).take (m.arg 9 4)).map fun x => (x.seq, x.bytes))) :=
  ⟨0, testMsg 0 0x0011 .sys (List.replicate 21 0), _, msgS 0 0x0011 .sys (List.replicate 21 0), ⟨by decide +kernel, by decide +kernel, by decide +kernel⟩, by decide +kernel, by decide +kernel, rfl⟩
theorem witness_ReadingMessagesComplete_sigRead_2 : ∃ (n : Mbox) (m : Msg) (l : List (Nat × List Byte)) (r : Nat × List Byte × State) (s : State),
    s.msgReady n 5 0x0012 m ∧ (l = fitting (m.arg 8 4) ((s.history.events.reverse.filter fun e => decide (m.arg 0 8 ≤ e.seq)).map fun e => (e.seq, e.bytes s.sec.sensed.serial))) ∧ r = s.copyRecs (m.arg 12 8) (m.arg 0 8) l :=
  ⟨0, testMsg 0 0x0012 .sys (List.replicate 20 0), _, _, msgS 0 0x0012 .sys (List.replicate 20 0), ⟨by decide +kernel, by decide +kernel, by decide +kernel⟩, rfl, rfl⟩
theorem witness_ReadingMessagesComplete_captureRead_3 : ∃ (n : Mbox) (m : Msg) (b : List Byte) (r : Nat × State) (s : State),
    s.msgReady n 5 0x0013 m ∧ m.arg 0 1 < 4 ∧ ((if m.arg 1 4 = 0xFFFFFFFF then s.fw.flush.map (fun f => f.bytes (m.arg 0 1)) else ((Tab.find s.fw.captures (m.arg 0 1 * 4 + m.arg 1 4 % 4)).filter fun x => x.seq = m.arg 1 4).map Capture.bytes) = some b) ∧ r = s.copyOut (m.arg 5 8) b :=
  ⟨0, testMsg 0 0x0013 .sys (List.replicate 13 0), testCap.bytes, _, { msgS 0 0x0013 .sys (List.replicate 13 0) with fw := { (msgS 0 0x0013 .sys (List.replicate 13 0)).fw with captures := [(0, testCap)] } }, ⟨by decide +kernel, by decide +kernel, by decide +kernel⟩, by decide +kernel, rfl, rfl⟩
theorem witness_ReadingMessagesComplete_sensorRead_4 : ∃ (n : Mbox) (m : Msg) (l : List Byte) (r : Nat × State) (s : State),
    s.msgReady n 5 0x0014 m ∧ m.arg 0 1 < 4 ∧ r = s.copyOut (m.arg 1 8) l :=
  ⟨0, testMsg 0 0x0014 .sys (List.replicate 9 0), [], _, msgS 0 0x0014 .sys (List.replicate 9 0), ⟨by decide +kernel, by decide +kernel, by decide +kernel⟩, by decide +kernel, rfl⟩
theorem witness_UpdateMessagesComplete_updateStage_0 : ∃ (n : Mbox) (m : Msg) (a len : Nat) (bs : List Byte) (u t : State) (s : State),
    s.msgReady n 6 0x0020 m ∧ a = m.arg 0 8 ∧ len = m.arg 8 4 ∧ s.updateState ≠ 3 ∧ s.updateState ≠ 4 ∧ len ≤ 2 ^ 25 ∧ s.ownRange a len = true ∧ u = s.touch (addrKey a) len ∧ u.rangeBad (addrKey a) len = false ∧ bs = u.memRead (addrKey a) len ∧ t = { u with fw := { u.fw with slot := some bs, slotDue := false, slotBad := false } } :=
  ⟨15, testMsg 15 0x0020 .sys (List.replicate 12 0), _, _, _, _, _, msgS 15 0x0020 .sys (List.replicate 12 0), ⟨by decide +kernel, by decide +kernel, by decide +kernel⟩, rfl, rfl, by decide +kernel, by decide +kernel, by decide +kernel, by decide +kernel, rfl, by decide +kernel, rfl, rfl⟩
theorem witness_UpdateMessagesComplete_updateActivate_1 : ∃ (n : Mbox) (m : Msg) (s : State),
    s.msgReady n 6 0x0021 m ∧ s.updateState = 2 ∧ s.recentEmergency = false :=
  ⟨15, testMsg 15 0x0021 .sys [], (msgS 15 0x0021 .sys []).setUpdate 2, ⟨by decide +kernel, by decide +kernel, by decide +kernel⟩, by decide +kernel, by decide +kernel⟩
theorem witness_UpdateMessagesComplete_updateActivate_2 : ∃ (n : Mbox) (m : Msg) (s : State),
    s.msgReady n 6 0x0021 m ∧ s.updateState = 2 ∧ s.recentEmergency = true :=
  ⟨15, testMsg 15 0x0021 .sys [], ((msgS 15 0x0021 .sys []).setUpdate 2).wr 0 pgPwr 0x0E8 1, ⟨by decide +kernel, by decide +kernel, by decide +kernel⟩, by decide +kernel, by decide +kernel⟩
theorem witness_UpdateMessagesComplete_updateCancel_3 : ∃ (n : Mbox) (m : Msg) (s : State),
    s.msgReady n 6 0x0022 m ∧ s.updateState = 3 :=
  ⟨15, testMsg 15 0x0022 .sys [], (msgS 15 0x0022 .sys []).setUpdate 3, ⟨by decide +kernel, by decide +kernel, by decide +kernel⟩, by decide +kernel⟩
theorem witness_SecurityMessagesComplete_attest_0 : ∃ (n : Mbox) (m : Msg) (bs : List Byte) (r : Nat × State) (s : State),
    s.msgReady n 4 0x0101 m ∧ bs = s.report (m.part 0 32) ∧ r = s.copyOut (m.arg 32 8) bs :=
  ⟨0, testMsg 0 0x0101 .sys (List.replicate 40 0), _, _, msgS 0 0x0101 .sys (List.replicate 40 0), ⟨by decide +kernel, by decide +kernel, by decide +kernel⟩, rfl, rfl⟩
theorem witness_SecurityMessagesComplete_getIdentity_1 : ∃ (n : Mbox) (m : Msg) (r : Nat × State) (s : State),
    s.msgReady n 4 0x0102 m ∧ s.sec.cert.length = 256 ∧ r = s.copyOut (m.arg 0 8) s.sec.cert :=
  ⟨0, testMsg 0 0x0102 .sys (List.replicate 8 0), _, { msgS 0 0x0102 .sys (List.replicate 8 0) with sec := { State.reset.sec with cert := List.replicate 256 0 } }, ⟨by decide +kernel, by decide +kernel, by decide +kernel⟩, by decide +kernel, rfl⟩
theorem witness_SecurityMessagesComplete_keyLoad_2 : ∃ (n : Mbox) (m : Msg) (i ct : Nat) (key : Option (List Byte)) (e : List Byte → State) (s : State),
    s.msgReady n 4 0x0103 m ∧ i = m.arg 0 1 ∧ ct = m.arg 2 2 ∧ i ≤ 16 ∧ (ct = if i = 16 then 129 else 113) ∧ m.len = 4 + ct ∧ s.slotBusy i = none ∧ (key = ((Config.sm2Open (m.part 4 ct)).filter fun k => k.length = (if i = 16 then 32 else 16)).filter fun k => !s.sec.tags.contains (BitVec.ofNat 64 (keyTag k))) ∧ (e = fun k => ({ s with sec := { s.sec with keys := Tab.put s.sec.keys i k, tags := (BitVec.ofNat 64 (keyTag k) :: s.sec.tags).take 1024 } } : State).zeroCounters i) :=
  ⟨15, testMsg 15 0x0103 .mgmt testKey, _, _, _, _, msgS 15 0x0103 .mgmt testKey, ⟨by decide +kernel, by decide +kernel, by decide +kernel⟩, rfl, rfl, by decide +kernel, by decide +kernel, by decide +kernel, by decide +kernel, rfl, rfl⟩
theorem witness_SecurityMessagesComplete_keyClear_3 : ∃ (n : Mbox) (m : Msg) (s : State),
    s.msgReady n 4 0x0104 m ∧ m.arg 0 1 ≤ 16 ∧ s.slotBusy (m.arg 0 1) = none :=
  ⟨15, testMsg 15 0x0104 .mgmt [0], msgS 15 0x0104 .mgmt [0], ⟨by decide +kernel, by decide +kernel, by decide +kernel⟩, by decide +kernel, by decide +kernel⟩
theorem witness_SecurityMessagesComplete_ownerEnroll_4 : ∃ (n : Mbox) (m : Msg) (i : Nat) (f : Fuses) (s : State),
    s.msgReady n 4 0x0105 m ∧ s.emergency = false ∧ i = m.arg 0 1 ∧ f = s.sec.fuses ∧ i < 4 ∧ bitsOf f.ownerValid.toNat i 1 = 0 ∧ bitsOf f.ownerRevoke.toNat i 1 = 0 ∧ Tab.get 0 f.ownerHash i = 0 :=
  ⟨15, testMsg 15 0x0105 .mgmt (List.replicate 68 0), _, _, msgS 15 0x0105 .mgmt (List.replicate 68 0), ⟨by decide +kernel, by decide +kernel, by decide +kernel⟩, by decide +kernel, rfl, rfl, by decide +kernel, by decide +kernel, by decide +kernel, by decide +kernel⟩
theorem witness_SecurityMessagesComplete_ownerRevoke_5 : ∃ (n : Mbox) (m : Msg) (i : Nat) (s : State),
    s.msgReady n 4 0x0106 m ∧ s.emergency = false ∧ i = m.arg 0 1 ∧ i < 4 ∧ (¬ (s.sec.fuses.usable i ∧ ((List.range 4).filter s.sec.fuses.usable).length = 1)) :=
  ⟨15, testMsg 15 0x0106 .mgmt [0], _, msgS 15 0x0106 .mgmt [0], ⟨by decide +kernel, by decide +kernel, by decide +kernel⟩, by decide +kernel, rfl, by decide +kernel, by decide +kernel⟩
theorem witness_SecurityMessagesComplete_rollbackCommit_6 : ∃ (n : Mbox) (m : Msg) (r : Nat) (s : State),
    s.msgReady n 4 0x0107 m ∧ s.emergency = false ∧ r = min 64 (fieldAt s.fw.image 0x0C 4) :=
  ⟨15, testMsg 15 0x0107 .mgmt [], _, msgS 15 0x0107 .mgmt [], ⟨by decide +kernel, by decide +kernel, by decide +kernel⟩, by decide +kernel, rfl⟩
theorem witness_SecurityMessagesComplete_protRemove_7 : ∃ (n : Mbox) (m : Msg) (v : BitVec 13) (s : State),
    s.msgReady n 4 0x0108 m ∧ s.emergency = false ∧ m.arg 1 1 < 32 ∧ m.arg 2 1 < 32 ∧ v = BitVec.ofNat 13 (m.arg 1 1 + m.arg 2 1 * 256) :=
  ⟨15, testMsg 15 0x0108 .mgmt [0, 0, 0], _, msgS 15 0x0108 .mgmt [0, 0, 0], ⟨by decide +kernel, by decide +kernel, by decide +kernel⟩, by decide +kernel, by decide +kernel, by decide +kernel, rfl⟩
theorem witness_SecurityMessagesComplete_ownerKeyPut_8 : ∃ (n : Mbox) (m : Msg) (i : Nat) (s : State),
    s.msgReady n 4 0x0109 m ∧ i = m.arg 0 1 ∧ i < 4 ∧ leNat (sm3 (m.part 4 64)) = (Tab.get 0 s.sec.sensed.ownerHash i).toNat :=
  ⟨15, testMsg 15 0x0109 .mgmt (List.replicate 68 0), 0, { msgS 15 0x0109 .mgmt (List.replicate 68 0) with sec := { State.reset.sec with sensed := { State.reset.sec.sensed with ownerHash := [(0, BitVec.ofNat 256 (leNat (sm3 (List.replicate 64 0))))] } } }, ⟨by decide +kernel, by decide +kernel, by decide +kernel⟩, by decide +kernel, by decide +kernel, by decide +kernel⟩
theorem witness_EthernetCommandsComplete_ethTx_0 : ∃ (e : EthPort) (q : Fin 64) (k : Nat) (r : EthQ) (ix : List Nat) (ds : List (Nat × List Byte)) (bufs : List (Nat × Nat)) (f : List Byte) (u z y t : State) (s : State),
    k = ethQKey e 0 q ∧ r = s.ethQ k ∧ (s.ethReady e k = true ∧ s.fwQueue e q = false) ∧ s.reaches (ethDie e) (r.desc r.head) = true ∧ u = s.descRead r ∧ u.descOk r = none ∧ txChain u r r.size r.head = some ix ∧ (z = u.touchAll ((ix.drop 1).map fun i => (r.desc i, 32))) ∧ ((ix.any fun i => z.rangeBad (addrKey (r.desc i)) 32) = false) ∧ (ds = ix.map fun i => (r.desc i, z.memRead (addrKey (r.desc i)) 32)) ∧ (bufs = ds.map fun x => (fieldAt x.2 0 8 % 2 ^ 52, fieldAt x.2 8 2)) ∧ ((bufs.any fun b => z.ioOk b.1 b.2 && !(z.reaches (ethDie e) b.1)) = false) ∧ (bufs.find? (fun b => !(z.ioOk b.1 b.2)) = none) ∧ y = z.touchAll bufs ∧ ((bufs.any fun b => y.rangeBad (addrKey b.1) b.2) = false) ∧ (f = bufs.flatMap fun b => y.memRead (addrKey b.1) b.2) ∧ (t = (y.send (.frame e (if (ds.any fun x => bitsOf (fieldAt x.2 0x0A 1) 3 1 = 1) = true then withChecksum f else f))).incF (ethDie e) (ethPg e) 0x0B8 0 32 1) :=
  ⟨.eth 0, 0, _, _, [0], _, _, _, _, _, _, _, ethS 0 3, rfl, rfl, by decide +kernel, by decide +kernel, rfl, by decide +kernel, by decide +kernel, rfl, by decide +kernel, rfl, rfl, by decide +kernel, by decide +kernel, rfl, by decide +kernel, rfl, rfl⟩
theorem witness_EthernetCommandsComplete_ethTx_1 : ∃ (e : EthPort) (q : Fin 64) (k : Nat) (r : EthQ) (ix : List Nat) (ds : List (Nat × List Byte)) (bufs : List (Nat × Nat)) (b : Nat × Nat) (u z : State) (s : State),
    k = ethQKey e 0 q ∧ r = s.ethQ k ∧ (s.ethReady e k = true ∧ s.fwQueue e q = false) ∧ s.reaches (ethDie e) (r.desc r.head) = true ∧ u = s.descRead r ∧ u.descOk r = none ∧ txChain u r r.size r.head = some ix ∧ (z = u.touchAll ((ix.drop 1).map fun i => (r.desc i, 32))) ∧ ((ix.any fun i => z.rangeBad (addrKey (r.desc i)) 32) = false) ∧ (ds = ix.map fun i => (r.desc i, z.memRead (addrKey (r.desc i)) 32)) ∧ (bufs = ds.map fun x => (fieldAt x.2 0 8 % 2 ^ 52, fieldAt x.2 8 2)) ∧ ((bufs.any fun b => z.ioOk b.1 b.2 && !(z.reaches (ethDie e) b.1)) = false) ∧ (bufs.find? (fun b => !(z.ioOk b.1 b.2)) = some b) :=
  ⟨.eth 0, 0, _, _, [0], _, _, (2 ^ 40, 0), _, _, badBufS, rfl, rfl, by decide +kernel, by decide +kernel, rfl, by decide +kernel, by decide +kernel, rfl, by decide +kernel, rfl, rfl, by decide +kernel, by decide +kernel⟩
theorem witness_EthernetCommandsComplete_ethRx_2 : ∃ (e : EthPort) (q : Fin 64) (f : RxFrame) (k a fl buf n : Nat) (r : EthQ) (x : List Byte) (z t u v : State) (s : State),
    k = ethQKey e 1 q ∧ r = s.ethQ k ∧ (s.ethReady e k = true ∧ s.fwQueue e q = false) ∧ (e ≠ .mgt ∨ f.toCmd = false) ∧ f.bytes.length ≤ 9216 ∧ s.reaches (ethDie e) (r.desc r.head) = true ∧ z = s.descRead r ∧ z.descOk r = none ∧ a = r.desc r.head ∧ x = z.memRead (addrKey a) 32 ∧ fl = fieldAt x 0x0A 1 ∧ fl % 2 ≠ 0 ∧ buf = fieldAt x 0 8 % 2 ^ 52 ∧ (z.ioOk buf 1 = false ∨ z.reaches (ethDie e) buf = true) ∧ n = min f.bytes.length (fieldAt x 8 2) ∧ f.fcsOk = true ∧ t = z.incF (ethDie e) (ethPg e) 0x0B8 32 32 1 ∧ t.ioOk buf n = true ∧ u = (t.ownWrite (addrKey buf) (f.bytes.take n)).1 ∧ (t.ownWrite (addrKey buf) (f.bytes.take n)).2 = true ∧ (v = u.descDone a (fl ||| 2) (if n < f.bytes.length then 4 else 0) (if f.ptp = true then some (u.now (ethDie e)) else none)) :=
  ⟨.eth 0, 0, { bytes := [] }, _, _, _, _, _, _, _, _, _, _, _, ethS 64 1, rfl, rfl, by decide +kernel, by decide +kernel, by decide +kernel, by decide +kernel, rfl, by decide +kernel, rfl, rfl, rfl, by decide +kernel, rfl, by decide +kernel, rfl, rfl, rfl, by decide +kernel, rfl, by decide +kernel, rfl⟩
theorem witness_EthernetCommandsComplete_ethLinkUp_3 : ∃ (e : EthPort) (s : State),
    s.blkIs (ethDie e) (ethPg e) 4 = false ∧ s.alive (ethDie e) = true :=
  ⟨.mgt, State.reset, by decide +kernel, by decide +kernel⟩
theorem witness_EthernetCommandsComplete_ethLinkDown_4 : ∃ (e : EthPort) (t : State) (s : State),
    s.rdF (ethDie e) (ethPg e) 0x088 0 1 ≠ 0 ∧ t = (s.wr (ethDie e) (ethPg e) 0x088 0).setErr (ethDie e) (ethPg e) 11 :=
  ⟨.mgt, _, State.reset.wr 0 pgMgt 0x088 3, by decide +kernel, rfl⟩
theorem witness_BoardAndPcieCommandsComplete_pcieInbound_0 : ∃ (a l : Nat) (d : List Byte) (s : State),
    s.pcieUp = true ∧ a = Config.msiAddr.toNat :=
  ⟨_, 0, [], pcieS, by decide +kernel, rfl⟩
theorem witness_BoardAndPcieCommandsComplete_pcieInbound_1 : ∃ (a l : Nat) (d : List Byte) (s : State),
    s.pcieUp = true :=
  ⟨0, 0, [], pcieS, by decide +kernel⟩
theorem witness_BoardAndPcieCommandsComplete_pcieInbound_2 : ∃ (a l : Nat) (d : List Byte) (r : State × Bool) (s : State),
    s.pcieUp = true ∧ s.inWindow a d.length = true ∧ s.ownRange a d.length = true ∧ s.ioBlocked a d.length = false ∧ s.reaches 1 a = true ∧ r = s.ownWrite (addrKey a) d :=
  ⟨0, 0, [1], _, pcieS, by decide +kernel, by decide +kernel, by decide +kernel, by decide +kernel, by decide +kernel, rfl⟩
theorem witness_BoardAndPcieCommandsComplete_pcieInbound_3 : ∃ (a l : Nat) (d : List Byte) (p : Bool) (t : State) (s : State),
    s.pcieUp = true ∧ s.inWindow a l = true ∧ s.ownRange a l = true ∧ s.ioBlocked a l = false ∧ s.reaches 1 a = true ∧ t = s.touch (addrKey a) l :=
  ⟨0, 1, [], false, _, pcieS, by decide +kernel, by decide +kernel, by decide +kernel, by decide +kernel, by decide +kernel, rfl⟩
theorem witness_BoardAndPcieCommandsComplete_pcieInbound_4 : ∃ (a l : Nat) (d : List Byte) (p : Bool) (s : State),
    s.pcieUp = true ∧ (s.inWindow a l = false ∨ s.ownRange a l = false) :=
  ⟨0, 2 ^ 52, [], false, pcieS, by decide +kernel, by decide +kernel⟩
theorem witness_BoardAndPcieCommandsComplete_pcieOutbound_5 : ∃ (a l : Nat) (w : Bool) (d : List Byte) (s : State),
    s.pcieUp = true ∧ s.pcieWin 0 ≤ a ∧ a + l ≤ s.pcieWin 0 + 2 ^ 36 :=
  ⟨pcieS.pcieWin 0, 0, false, [], pcieS, by decide +kernel, Nat.le_refl _, Nat.le_add_right _ _⟩
theorem witness_BoardAndPcieCommandsComplete_pcieOutbound_6 : ∃ (a l : Nat) (w : Bool) (d : List Byte) (s : State),
    s.pcieUp = true ∧ s.pcieWin 1 ≤ a ∧ a + l ≤ s.pcieWin 1 + 2 ^ 28 :=
  ⟨pcieS.pcieWin 1, 0, false, [], pcieS, by decide +kernel, Nat.le_refl _, Nat.le_add_right _ _⟩
theorem witness_BoardAndPcieCommandsComplete_pcieLinkUp_7 : ∃ (r : BitVec 2) (w : Nat) (f : Bool) (s : State),
    (s.blkIs 1 pgPcie 4 = false ∧ s.alive 1 = true) ∧ (f = false ∨ r ≠ 0 ∧ 0 < w ∧ w ≤ 8) :=
  ⟨1, 8, true, State.reset, by decide +kernel, by decide +kernel⟩
theorem witness_BoardAndPcieCommandsComplete_ppsPulse_9 : ∃ (s : State),
    s.power.off.isEmpty = true ∧ s.now 0 % 1000000000 = 0 :=
  ⟨State.reset, by decide +kernel, by decide +kernel⟩
theorem witness_BoardAndPcieCommandsComplete_smbusBlockRead_11 : ∃ (s : State),
    s.power.off.contains .vaux = false ∧ s.resets.stage ≠ 0 :=
  ⟨{ State.reset with resets := { State.reset.resets with stage := 1 } }, by decide +kernel, by decide +kernel⟩

end Sys2Proof.Machine
end

section
/-! SUPPORT. What one register write leaves in its register, bit by bit (00 R8, R9), and what a write that is not allowed
leaves (05 R92, R94). -/

namespace Sys2Proof.Machine

/-! ### The access types of a register's fields -/

/-- Of a block's own registers only MBX.DONE has W1C bits. -/
theorem bodyInfo_w1c {k : PageKind} (d off : Nat) (h : k ≠ .mbx) : (bodyInfo d k off).w1c = 0 := by
  cases k <;> simp only [bodyInfo]
  case mbx => contradiction
  all_goals repeat' split
  all_goals rfl

theorem bodyInfo_mbx_rw_or_w1c_zero (d off : Nat) :
    (bodyInfo d .mbx off).rw = 0 ∨ (bodyInfo d .mbx off).w1c = 0 := by
  simp only [bodyInfo]
  split
  · exact .inr rfl
  · split <;> exact .inl rfl

/-- Of the common header only ERR_STAT has W1C bits, and it has no RW bits. -/
theorem headerInfo_rw_or_w1c_zero (k : PageKind) (off : Nat) :
    (headerInfo k off).rw = 0 ∨ (headerInfo k off).w1c = 0 := by
  unfold headerInfo
  split
  case h_4 => exact .inl rfl
  all_goals exact .inr rfl

/-- No register has both RW and W1C bits. -/
theorem regInfo_rw_or_w1c_zero (d pg off : Nat) : (regInfo d pg off).rw = 0 ∨ (regInfo d pg off).w1c = 0 := by
  unfold regInfo
  split
  · exact .inl rfl
  next k _ =>
    by_cases header : off < 0x080
    · rw [if_pos header]
      exact headerInfo_rw_or_w1c_zero k off
    · rw [if_neg header]
      by_cases mbx : k = .mbx
      · subst mbx
        exact bodyInfo_mbx_rw_or_w1c_zero d off
      · exact .inr (bodyInfo_w1c d off mbx)

/-! ### The value a write leaves -/

theorem testBit_maskN (n j : Nat) : (maskN n).testBit j = decide (j < n) := Nat.testBit_two_pow_sub_one n j

/-- A bit of a register after a write: an RW bit takes the value's, a W1C bit falls where the value has a 1, and every
other bit stays (R8, R9). -/
theorem RegInfo.testBit_after {i : RegInfo} (apart : i.rw = 0 ∨ i.w1c = 0) (old v : Nat) {j : Nat} (h : j < 64) :
    (i.after old v).testBit j =
      if i.rw.testBit j then v.testBit j
      else if i.w1c.testBit j then old.testBit j && !v.testBit j
      else old.testBit j := by
  have never_both : (i.rw.testBit j && i.w1c.testBit j) = false := by
    obtain z | z := apart <;> simp [z]
  simp only [RegInfo.after, Nat.testBit_and, Nat.testBit_or, Nat.testBit_xor, testBit_maskN, h, decide_true]
  cases rw : i.rw.testBit j with
  | true =>
    have w1c : i.w1c.testBit j = false := by simpa [rw] using never_both
    simp [w1c]
  | false => cases i.w1c.testBit j <;> simp

/-- The bits of the register that the storing of a one-word request leaves. -/
theorem testBit_stored_after (d pg off v j : Nat) (w : Writer) (s : State) :
    ((regInfo d pg off).after (s.rd d pg off) (oneReq w v).value.toNat % 2 ^ 64).testBit j =
      if (regInfo d pg off).rw.testBit j then v.testBit j && decide (j < 64)
      else if (regInfo d pg off).w1c.testBit j then (s.rd d pg off).testBit j && !v.testBit j
      else (s.rd d pg off).testBit j := by
  rw [Nat.testBit_mod_two_pow]
  by_cases h : j < 64
  · have value : (oneReq w v).value.toNat.testBit j = v.testBit j := by
      rw [BitVec.toNat_ofNat, Nat.testBit_mod_two_pow, decide_eq_true h, Bool.true_and]
    rw [RegInfo.testBit_after (regInfo_rw_or_w1c_zero d pg off) _ _ h, value]
    simp [h]
  · have beyond : (s.rd d pg off).testBit j = false :=
      Nat.testBit_lt_two_pow (Nat.lt_of_lt_of_le (rd_lt d pg off s)
        (Nat.pow_le_pow_right (by decide) (Nat.le_of_not_lt h)))
    simp [beyond, h]

/-! ### One write -/

theorem rk_ne_of_off_ne (d pg : Nat) {off off' : Nat} (h : off ≠ off') : rk d pg off ≠ rk d pg off' :=
  fun e => h (Nat.add_left_cancel e)

/-- A write that acts leaves in its own register what the storing leaves, where the register is none of those that every
write counts in (WRITE_SEQ, LAST_WRITE_ORIGIN, LAST_WRITE_TIME). -/
theorem rd_write1_win {d pg off : Nat} {w : Writer} {v : Nat} {s : State}
    (acts : (s.write1 d pg off w v).win.isSome = true) (h1 : off ≠ 0x050) (h2 : off ≠ 0x058) (h3 : off ≠ 0x060) :
    (s.write1 d pg off w v).s.rd d pg off = (s.store d pg off (oneReq w v).value.toNat).rd d pg off := by
  rw [(write1_win_state acts).1]
  exact rd_winOne _ _ _ _ (rk_ne_of_off_ne d pg h3) (rk_ne_of_off_ne d pg h1) (rk_ne_of_off_ne d pg h2)

/-- A write that is not allowed acts on nothing, leaves its register (ERR_STAT and ERR_COUNT apart) as it was, and sets
ERR_STAT.DENIED. -/
theorem write1_denied_reads {d pg off : Nat} {w : Writer} {v : Nat} {s : State}
    (sound : accessOk d pg off (oneReq w v) = true) (awake : s.inReset d pg = false)
    (refused : s.mayWrite d pg off (oneReq w v) = false) (h1 : off ≠ 0x030) (h2 : off ≠ 0x040) :
    (s.write1 d pg off w v).win = none ∧ (s.write1 d pg off w v).s.rd d pg off = s.rd d pg off ∧
      (s.write1 d pg off w v).s.rdF d pg 0x030 1 1 = 1 := by
  rw [write1_denied sound awake refused]
  refine ⟨rfl, ?_, ?_⟩
  · rw [rd_record]
    exact rd_setErr_other 1 s (rk_ne_of_off_ne d pg h1) (rk_ne_of_off_ne d pg h2)
  · rw [State.rdF, rd_record]
    exact rdF_setErr (by decide) d pg s

/-- Settles O11: a write that acts stores what the access types say, and no later part of it touches the register; a
refused write is recorded and sets ERR_STAT.DENIED only. -/
theorem registerWriteByAccessType : Obligations.RegisterWriteByAccessType := by
  unfold Obligations.RegisterWriteByAccessType
  constructor
  · rintro d pg off k w v _ s j - - - hk plain h1 h2 h3 rfl acts
    rw [rd_write1_win acts h1 h2 h3, store_plain s off _ hk plain, rd_wr_same]
    exact testBit_stored_after d pg off v j w s
  · rintro d pg off w v _ s - - - notErr sound awake refused rfl
    simp only [List.mem_cons, List.not_mem_nil, or_false, not_or] at notErr
    exact write1_denied_reads sound awake refused notErr.1 notErr.2

end Sys2Proof.Machine
end

section
/-! SUPPORT. The book and curtain commands, said once per case: what each answers under the conditions of the rules
(01 R20; 02 R28 to R30, R43, R44). -/

namespace Sys2Proof.Machine

/-! ### Book loading (02 R43, R44) -/

/-- Where the write acted, the command goes on with its effect. -/
theorem Committed.then_of_win {c : Committed} (acts : c.win.isSome = true) (f : State → State) : c.then_ f = f c.s :=
  if_pos acts

theorem loadCtrlEffect_start_of_no_validation {s : State} (free : s.books.loading = none) :
    s.loadCtrlEffect 1 =
      { s.bookBytes.1 with books := { s.books with loading := some s.bookBytes.2 } } := by
  have start : bitsOf 1 0 1 ≠ 0 := by decide
  have keep : bitsOf 1 1 1 ≠ 1 := by decide
  simp only [State.loadCtrlEffect, if_neg keep, if_neg start, free, Option.isSome_none, Bool.false_eq_true, if_false]

theorem loadCtrlEffect_discard (s : State) :
    s.loadCtrlEffect 2 = ({ s with books := { s.books with staged := none } }).wrF 0 pgStp 0x098 10 1 0 := by
  have noStart : bitsOf 2 0 1 = 0 := by decide
  have discard : bitsOf 2 1 1 = 1 := by decide
  simp only [State.loadCtrlEffect, if_pos discard, if_pos noStart]

/-- LOAD_STAT and LOAD_CTRL as the end of a validation leaves them, before a good book is staged. -/
def State.validationShown (s : State) (code bad : Nat) : State :=
  ((({ s with books := { s.books with loading := none } }).wrF 0 pgStp 0x098 0 8 code).wrF 0 pgStp 0x098 16 8 bad).wrF
    0 pgStp 0x090 0 1 0

/-- A good book becomes the staged one, and the book that it replaces is logged as superseded (R44). -/
def State.stageBook (s : State) (b : Book) : State :=
  let s := match s.books.staged with
    | some o => s.logAt 0 srcHw .bookSuperseded [o.bookDigest.toNat]
    | none => s
  ({ s with books := { s.books with staged := some b } }).markStep b

theorem stageBook_of_none {s : State} (b : Book) (h : s.books.staged = none) :
    s.stageBook b = ({ s with books := { s.books with staged := some b } }).markStep b := by
  simp only [State.stageBook, h]

theorem stageBook_of_some {s : State} (b : Book) {o : Book} (h : s.books.staged = some o) :
    s.stageBook b = ({ s.logAt 0 srcHw .bookSuperseded [o.bookDigest.toNat] with
      books := { (s.logAt 0 srcHw .bookSuperseded [o.bookDigest.toNat]).books with staged := some b } }).markStep b := by
  simp only [State.stageBook, h]

/-- The end of a validation shows what the checks found, and stages a book that passes them all. -/
theorem execValidationComplete_of_loading {s u : State} {raw : List Byte} {code bad : Nat} {b : Option Book}
    (loading : s.books.loading = some raw) (touched : u = s.recTouch (Book.ofBytes raw (dirOf raw)) false)
    (checked : validate (u.checkEnv raw) Config.sm2Verify raw.length raw = (code, bad, b)) :
    execValidationComplete s = .next (b.elim (u.validationShown code bad) (u.validationShown code bad).stageBook) := by
  subst touched
  simp only [execValidationComplete, loading, checked]
  cases b <;> rfl

/-! ### Actions 1 and 2 (01 R20; 02 R28) -/

theorem execCurtainAction1Complete_of_running {s t : State} {bays saved : List (Nat × Nat)} (running : s.stepState = 1)
    (hb : bays = s.mappedBays.filter fun x => s.isBook x.1 x.2)
    (hs : saved = s.mappedBays.filter fun x => !(s.isBook x.1 x.2))
    (ht : t = bays.foldl (fun u x => u.endCancel x.1 x.2) s) (ready : t.action1Ready = true) :
    execCurtainAction1Complete s = .next (t.action1 bays saved t.step.ended.isSome) := by
  subst hb hs ht
  simp only [execCurtainAction1Complete, running, if_true, ready, Bool.true_eq_false, if_false]

theorem execCurtainAction1Complete_of_ended {s : State} {bays saved : List (Nat × Nat)} (ended : s.stepState = 2)
    (hb : bays = s.mappedBays.filter fun x => s.isBook x.1 x.2)
    (hs : saved = s.mappedBays.filter fun x => !(s.isBook x.1 x.2)) (ready : s.action1Ready = true) :
    execCurtainAction1Complete s = .next (s.action1 bays saved s.step.ended.isSome) := by
  subst hb hs
  have notRunning : s.stepState ≠ 1 := by rw [ended]; decide
  simp only [execCurtainAction1Complete, if_neg notRunning, ready, Bool.true_eq_false, if_false]

theorem execCurtainAction2_of_checked {s : State} (closing : s.stepState = 2) (a1 : s.step.a1Done = true)
    (a2 : s.step.a2Done = false) (checked : s.dup.jobs = []) :
    execCurtainAction2 s = .next (((s.action2.wrF 0 pgStp 0x0B0 0 3 3).castVote.tryDecide).tryAck.adoptLate) := by
  have due : s.stepState = 2 ∧ s.step.a1Done = true ∧ s.step.a2Done = false ∧ s.dup.jobs.isEmpty = true :=
    ⟨closing, a1, a2, by rw [checked]; rfl⟩
  simp only [execCurtainAction2, if_pos due]

/-! ### The time-out, the buddy stream and action 5 (02 R29, R30) -/

/-- How long a part waits for the decision after action 2, in ns: the book's curtain timeout, or the default (R30). -/
def State.curtainLimit (s : State) : Nat := ((s.books.active.map (·.curtainTimeout)).getD 2000) * 1000000

/-- What a time-out leaves before the part votes again: no certificate, the next attempt, and TIMED_OUT. -/
def State.curtainTimedOut (s : State) : State :=
  let t := ((s.wrF 0 pgStp 0x0B0 4 4 2).noCert 4).wrF 0 pgCue 0x028 6 1 1
  let u := (t.setRound t.cue.step (t.attempt + 1)).setErr 0 pgCue 10
  { u with cue := u.cue.clearVotes }

theorem execCurtainTimeout_of_due {s : State} (waits : s.stepState = 3) (a2 : s.step.a2Done = true)
    (undecided : s.step.decision = none) (uncommitted : s.cue.committed = none) (free : s.cue.held = false)
    (due : s.step.a2Time + s.curtainLimit ≤ s.now 0) :
    execCurtainTimeout s = .next (s.curtainTimedOut.castVote true).tryDecide := by
  have late : ¬ (s.stepState ≠ 3 ∨ s.step.a2Done = false ∨ s.step.decision.isSome ∨ s.cue.committed.isSome ∨ s.cue.held ∨
      s.now 0 < s.step.a2Time + s.curtainLimit) := by
    simp only [waits, a2, undecided, uncommitted, free, Nat.not_lt.mpr due]
    decide
  exact congrArg Host.Outcome.next (if_neg late)

theorem execBuddyStreamComplete_of_done {s : State} (opened : s.step.buddyOpen = true) (noRun : s.ckpt.run = none)
    (done : s.buddyDone = true) :
    execBuddyStreamComplete s = .next (if s.step.change
      then { s with step := { s.step with buddyOpen := false } }.holdTables
      else { s with step := { s.step with buddyOpen := false } }) := by
  simp only [execBuddyStreamComplete, opened, noRun, done, Option.any_none, Bool.true_eq_false, Bool.false_eq_true,
    or_self, if_false]

theorem execStepBegin_of_ready {s : State} {bk : Book} (active : s.books.active = some bk) (ready : s.beginReady = true)
    (counts : (s.nextStep bk).1 < 0xFFFFFFFFFFFF) :
    execStepBegin s = .next (if s.step.decision = some .certify
      then (s.beginStep bk (s.nextStep bk).1 (s.nextStep bk).2).exportBegin
      else s.beginStep bk (s.nextStep bk).1 (s.nextStep bk).2) := by
  simp only [execStepBegin, active, ready, Bool.true_eq_false, if_false, if_neg (Nat.not_le.mpr counts)]

/-- Settles O23: each clause is the command's own equation under the conditions that the clause names. -/
theorem curtainCommandsComplete : Obligations.CurtainCommandsComplete := by
  unfold Obligations.CurtainCommandsComplete
  refine ⟨?loadStart, ?loadDiscard, ?validationComplete, ?action1Running, ?action1Ended, ?action2, ?timeout, ?buddy,
    ?stepBegin⟩
  case loadStart =>
    rintro w _ s rfl acts free
    exact congrArg Host.Outcome.next
      ((Committed.then_of_win acts _).trans (loadCtrlEffect_start_of_no_validation free))
  case loadDiscard =>
    rintro w _ s rfl acts
    exact congrArg Host.Outcome.next ((Committed.then_of_win acts _).trans (loadCtrlEffect_discard _))
  case validationComplete =>
    rintro raw code bad b u _ s loading touched checked rfl
    have ends : exec .validationComplete s = _ := execValidationComplete_of_loading loading touched checked
    refine ⟨?_, ?_, ?_⟩
    · rintro rfl
      exact ends
    · rintro n rfl unstaged
      exact ends.trans (congrArg Host.Outcome.next (stageBook_of_none n unstaged))
    · rintro n o rfl staged
      exact ends.trans (congrArg Host.Outcome.next (stageBook_of_some n staged))
  case action1Running => exact fun _ _ _ _ => execCurtainAction1Complete_of_running
  case action1Ended => exact fun _ _ _ => execCurtainAction1Complete_of_ended
  case action2 => exact fun _ => execCurtainAction2_of_checked
  case timeout =>
    rintro s _ _ waits a2 undecided uncommitted free due rfl rfl
    exact execCurtainTimeout_of_due waits a2 undecided uncommitted free due
  case buddy =>
    rintro _ s opened noRun done rfl
    exact execBuddyStreamComplete_of_done opened noRun done
  case stepBegin => exact fun _ _ => execStepBegin_of_ready

end Sys2Proof.Machine
end

section
/-! SUPPORT. A write of LOAD_CTRL.START while a validation runs (02 R45). -/

namespace Sys2Proof.Machine

/-- While a validation runs, START stores BUSY in LOAD_STAT.CODE and does nothing else (R45). -/
theorem loadCtrlEffect_start_of_validation {s : State} {b : List Byte} (runs : s.books.loading = some b) :
    s.loadCtrlEffect 1 = s.wrF 0 pgStp 0x098 0 8 0x0E := by
  have start : bitsOf 1 0 1 ≠ 0 := by decide
  have keep : bitsOf 1 1 1 ≠ 1 := by decide
  have busy : s.books.loading.isSome = true := by rw [runs]; rfl
  simp only [State.loadCtrlEffect, if_neg keep, if_neg start, if_pos busy]

/-- Settles O6: the write acted, so LOAD_START goes on to its effect, which is the store of BUSY alone; CODE reads back
what was stored, and a register store leaves the books. -/
theorem startDuringValidationIsBusy : Obligations.StartDuringValidationIsBusy := by
  unfold Obligations.StartDuringValidationIsBusy
  rintro w b _ s rfl acts runs
  refine ⟨_, ?answer, rfl, ?code, ?validation⟩
  case answer =>
    exact congrArg Host.Outcome.next
      ((Committed.then_of_win acts _).trans (loadCtrlEffect_start_of_validation runs))
  case code => exact rdF_wrF_same (by decide) _ _ _ _ _
  case validation => rw [State.wrF_books, runs]

end Sys2Proof.Machine
end

section
/-! SUPPORT. The power and temperature events, said once per case: what each answers under the conditions of the rules
(03 R56, R57, R59, R62 to R64). -/

namespace Sys2Proof.Machine

/-! ### Power-up (03 R59, R62) -/

theorem execPowerUp_of_may {s : State} (ok : Bool) (may : s.mayPowerUp = true) :
    execPowerUp ok s = .next (if ok = true ∧ s.railGone = false
      then (s.powerOn.send (.pin .thermTripN true)).send (.pin .pwrGood true)
      else { s with power := { s.power with enable := true, down := false, off := railOrder.reverse } }) := by
  simp only [execPowerUp, may, Bool.true_eq_false, if_false]

theorem execPowerUp_of_not_may {s : State} (ok : Bool) (stays : s.mayPowerUp = false) :
    execPowerUp ok s = .next { s with power := { s.power with enable := true } } :=
  congrArg Host.Outcome.next (if_pos stays)

/-! ### Phases (03 R56, R57) -/

/-- The switch-over of a phase, counted, logged and in the unit history (R56). Which phase it was is the free value. -/
def State.phaseNoted (s : State) (d : Die) (k : Nat) : State :=
  let t := (((s.took 1).setErr d pgPwr 11).logAt d srcHw .phaseOut [d, k, s.free.toNat % ((railRow k).n + 2)]).histEvent
    6 d k 6
  { t with power :=
    { t.power with phases := Tab.put t.power.phases (d.val * 8 + k) (Tab.get 0 s.power.phases (d.val * 8 + k) + 1) } }

/-- A rail that has lost its third phase is degraded, and is to be reported (R57). -/
def State.railDegraded (s : State) (d : Die) (k : Nat) : State :=
  ({ s with power := { s.power with
    degraded := s.power.degraded ++ [(d.val, k)], report := s.power.report ++ [(d.val, k)] } }).wrF d pgPwr 0x028 5 1 1

/-- A rail without a working phase halts its die, if it is not halted yet, and takes PWR_GOOD low (R57). -/
def State.railChecked (s : State) (d : Die) (k : Nat) : State :=
  if s.phasesLeft d.val k = 0 ∧ s.power.dead.contains d.val = false then
    (({ s with power := { s.power with dead := s.power.dead ++ [d.val], good := false } }).noCert 6).send
      (.pin .pwrGood false)
  else s

theorem execPhaseSwitchOut_eq (d : Die) (r : Rail) (s : State) :
    execPhaseSwitchOut d r s = .next ((if Tab.get 0 s.power.phases (d.val * 8 + Rail.ix r) + 1 = 3
      then (s.phaseNoted d (Rail.ix r)).railDegraded d (Rail.ix r)
      else s.phaseNoted d (Rail.ix r)).railChecked d (Rail.ix r)) := rfl

/-! ### Trips (03 R63, R64) -/

theorem tripOn_of_not_trips {s : State} {h : Heat} (d : Nat) (cool : heatTrips h = false) : s.tripOn d h = s :=
  if_pos (.inl cool)

/-- A die that was not tripped trips, while the rails are on (R64). -/
theorem tripOn_of_trips {s : State} {d : Nat} {h : Heat} (hot : heatTrips h = true)
    (fresh : s.power.tripped.contains d = false) (on : s.power.off = []) :
    s.tripOn d h = (((({ s with power := { s.power with tripped := s.power.tripped ++ [d] } } : State).stackMode d 2).wrF
      d pgPwr 0x028 0 2 0).noCert 6).send (.pin .thermTripN false) := by
  have acts : ¬ (heatTrips h = false ∨ s.power.tripped.contains d = true ∨ s.power.off.isEmpty = false) := by
    rw [hot, fresh, on]
    decide
  exact if_neg acts

theorem execTripPersistTimeout_of_tripped {s : State} {d : Die} (h : Heat) (trip : s.power.tripped.contains d.val = true) :
    execTripPersistTimeout d h s = powerNext s (if heatCooled h = true
      then ({ s with power := { s.power with tripped := s.power.tripped.filter (· ≠ d.val) } } : State).stackWake d
      else s.orderlyDown) := by
  have tripped : ¬ s.power.tripped.contains d.val = false := by
    rw [trip]
    decide
  exact congrArg (powerNext s) (if_neg tripped)

/-- Settles O24: each clause is the command's own equation under the conditions that the clause names. -/
theorem powerCommandsComplete : Obligations.PowerCommandsComplete := by
  unfold Obligations.PowerCommandsComplete
  refine ⟨?p48Rise, ?powerUp, ?noPowerUp, ?pwrEnFall, ?phaseSwitchOut, ?trips, ?noTrip, ?tripPersists, ?inrushEnds⟩
  case p48Rise => exact fun _ _ => rfl
  case powerUp => exact fun ok _ => execPowerUp_of_may ok
  case noPowerUp => exact fun ok _ => execPowerUp_of_not_may ok
  case pwrEnFall =>
    rintro _ s rfl
    rfl
  case phaseSwitchOut =>
    rintro d r _ _ _ _ _ s rfl rfl rfl rfl rfl
    exact execPhaseSwitchOut_eq d r s
  case trips =>
    rintro x _ s hot fresh on rfl
    exact congrArg (powerNext s) (tripOn_of_trips hot fresh on)
  case noTrip => exact fun x s cool => congrArg (powerNext s) (tripOn_of_not_trips x.die cool)
  case tripPersists => exact fun _ h _ => execTripPersistTimeout_of_tripped h
  case inrushEnds => exact fun _ => rfl

end Sys2Proof.Machine
end

section
/-! SUPPORT. The clock and time events, said once per case: what each answers under the conditions of the rules
(04 R74, R76; 13 R306). -/

namespace Sys2Proof.Machine

/-- A link that carries time sync, and that TIME_STAT names as the one to the parent, is sent a request (R306). -/
theorem execTimeExchange_of_parent {p : Port} {s : State} (carries : s.timeLink p = true)
    (notRoot : s.rdF 0 pgTim 0x090 1 1 = 0) (parent : s.rdF 0 pgTim 0x090 16 5 = p.val) :
    execTimeExchange p s = .next ((s.setLink p { s.link p with asked := some (s.now (portDie p)) }).timeOut p
      [s.now (portDie p)]) := by
  have due : (s.timeLink p && s.rdF 0 pgTim 0x090 1 1 = 0 && s.rdF 0 pgTim 0x090 16 5 = p.val) = true := by
    simp only [carries, notRoot, parent, decide_true, Bool.and_self]
  exact congrArg Host.Outcome.next (if_pos due)

/-- The state in which a TIME message is acted on: its flit, where the link received one with it, is taken in first. -/
def State.timeHeard (s : State) (p : Port) (head : Option Flit) : State :=
  match head with
  | some f => s.flitIn p { f with ftype := 4 }
  | none => s

/-- What a TIME message does on a link that carries time sync: a request is answered, a reply to the exchange in
progress gives an offset, and any other reply does nothing (R76, R306). -/
def State.timeActed (t : State) (p : Port) (msg : TimeMsg) : State :=
  match msg with
  | .request t1 => t.timeOut p [t1.toNat, t.now (portDie p), t.now (portDie p)]
  | .reply t1 t2 t3 =>
    if (t.link p).asked = some t1.toNat then
      (t.setLink p { t.link p with asked := none }).applyOffset
        (timeOffset t1.toNat t2.toNat t3.toNat (t.now (portDie p)) (t.link p).asym)
    else t

theorem execTimeFlit_of_carried {s t : State} {p : Port} (msg : TimeMsg) {head : Option Flit}
    (good : head.any flitBad = false) (heard : t = s.timeHeard p head) (carries : t.timeLink p = true) :
    execTimeFlit p ⟨msg, head⟩ s = .next (t.timeActed p msg) := by
  subst heard
  have acts : ¬ (head.any flitBad = true ∨ (s.timeHeard p head).timeLink p = false) := by
    rw [good, carries]
    decide
  exact congrArg Host.Outcome.next (if_neg acts)

theorem execTimeFlit_reply_of_asked {s t : State} {p : Port} {t1 : Word} (t2 t3 : Word) {head : Option Flit}
    (good : head.any flitBad = false) (heard : t = s.timeHeard p head) (carries : t.timeLink p = true)
    (asked : (t.link p).asked = some t1.toNat) :
    execTimeFlit p ⟨.reply t1 t2 t3, head⟩ s = .next ((t.setLink p { t.link p with asked := none }).applyOffset
      (timeOffset t1.toNat t2.toNat t3.toNat (t.now (portDie p)) (t.link p).asym)) :=
  (execTimeFlit_of_carried (.reply t1 t2 t3) good heard carries).trans (congrArg Host.Outcome.next (if_pos asked))

/-- Settles O25: the loss of a clock has no condition, and the exchange and the messages are the commands' equations on
a link that carries time sync, the flit of a message taken in before it where there is one. -/
theorem clockCommandsComplete : Obligations.ClockCommandsComplete := by
  unfold Obligations.ClockCommandsComplete
  refine ⟨?lost, ?exchange, ?request, ?reply, ?requestInFlit, ?replyInFlit⟩
  case lost =>
    rintro c s _ rfl
    rfl
  case exchange => exact fun _ _ => execTimeExchange_of_parent
  case request =>
    rintro p x _ t s rfl heard carries
    exact execTimeFlit_of_carried (.request x) rfl heard carries
  case reply =>
    rintro p t1 t2 t3 _ t s rfl heard carries asked
    exact execTimeFlit_reply_of_asked t2 t3 rfl heard carries asked
  case requestInFlit =>
    rintro p x _ f t s rfl good heard carries
    exact execTimeFlit_of_carried (.request x) good heard carries
  case replyInFlit =>
    rintro p t1 t2 t3 _ f t s rfl good heard carries asked
    exact execTimeFlit_reply_of_asked t2 t3 good heard carries asked

end Sys2Proof.Machine
end

section
/-! SUPPORT. The reset requests and the end of a reset, said once per case (04 R78, R80, R82). -/

namespace Sys2Proof.Machine

/-- A write of RST.REQ that acts sets off the reset that its value names (R78). -/
theorem reqRow_of_win {s : State} {w : Writer} {dom d u : Nat} {c : Committed}
    (wrote : c = s.write1 0 pgRst 0x080 w (dom + d * 2 ^ 4 + u * 2 ^ 6)) (acts : c.win.isSome = true) :
    s.reqRow w dom d u = c.s.reqWritten (dom + d * 2 ^ 4 + u * 2 ^ 6) w.origin := by
  subst wrote
  exact Committed.then_of_win acts fun t => t.reqWritten (dom + d * 2 ^ 4 + u * 2 ^ 6) w.origin

/-- A reset run that ends leaves the list of runs, and RST.CAUSE shows its domain and origin (R82, Table 4-7). -/
def State.runEnded (s : State) (x : DomId) (r : ResetRun) : State :=
  ({ s with resets := { s.resets with runs := s.resets.runs.filter fun y => y.id ≠ x } }).wr 0 pgRst 0x090
    (x.1 + (if r.origin = 8 then 1 + 8 else r.origin) * 8)

/-- A reset in progress ends; that of the device only after the epoch is counted. -/
theorem execResetComplete_of_run {dom : Domain} {s : State} {r : ResetRun}
    (runs : (s.resets.runs.find? fun r => r.id = domainId dom) = some r)
    (counted : (domainId dom).1 = 5 → s.resets.counted = true) :
    execResetComplete dom s = .next (((((s.runEnded (domainId dom) r).domainOut (domainId dom)).showReset.heldOut
      (domainId dom)).replaysOut (domainId dom)).msiOut) := by
  have ends : ¬ ((domainId dom).1 = 5 ∧ s.resets.counted = false) := by
    rintro ⟨device, uncounted⟩
    exact Bool.false_ne_true (uncounted.symm.trans (counted device))
  simp only [execResetComplete, runs, if_neg ends, State.runEnded]

/-- Settles O26: the five requests are one write of RST.REQ with the value of their domain, and the end of a reset is
the command's equation for a run in progress. SYS_RST_N and the straps have no condition. -/
theorem resetCommandsComplete : Obligations.ResetCommandsComplete := by
  unfold Obligations.ResetCommandsComplete
  refine ⟨?bay, ?port, ?cluster, ?partition, ?device, ?sysRstN, ?complete, ?straps⟩
  case bay => exact fun _ _ _ _ _ wrote acts => congrArg Host.Outcome.next (reqRow_of_win wrote acts)
  case port => exact fun _ _ _ _ wrote acts => congrArg Host.Outcome.next (reqRow_of_win wrote acts)
  case cluster => exact fun _ _ _ _ wrote acts => congrArg Host.Outcome.next (reqRow_of_win wrote acts)
  case partition => exact fun _ _ _ _ wrote acts => congrArg Host.Outcome.next (reqRow_of_win wrote acts)
  case device => exact fun _ _ _ wrote acts => congrArg Host.Outcome.next (reqRow_of_win wrote acts)
  case sysRstN => exact fun _ => rfl
  case complete =>
    rintro dom r _ s runs counted rfl
    exact execResetComplete_of_run runs counted
  case straps => exact fun _ _ _ => rfl

end Sys2Proof.Machine
end

section
/-! SUPPORT. The start-up events, said once per case (04 R84, R85). -/

namespace Sys2Proof.Machine

/-- What the end of the stage in progress leads to: the next stage, or the failure of Table 4-6 (R84, R85). -/
def State.stageEnded (s : State) (st : Stage) (e : StageEnd) : State :=
  if s.stageResult st e.result = .ok then s.stageDone st e.lanes
  else s.stageFailed st (s.stageResult st e.result) e.lanes

/-- The stage in progress ends, while every rail is on (R84). -/
theorem execStartupStageComplete_of_inStage {s : State} {st : Stage} (e : StageEnd) (runs : s.inStage st = true)
    (on : s.power.off = []) : execStartupStageComplete st e s = .next ((s.stageEnded st e).alertPin s) := by
  have ends : ¬ (s.inStage st = false ∨ s.power.off.isEmpty = false) := by
    rw [runs, on]
    decide
  exact congrArg Host.Outcome.next (if_neg ends)

theorem execImageRefetchTimeout_of_badImage {s : State} (stage : s.resets.stage = 0xE1) :
    execImageRefetchTimeout s = .next ((s.setStage 0x50).alertPin s) :=
  congrArg Host.Outcome.next (if_pos stage)

theorem execBootStageTimeout_of_waiting {s : State} (stage : s.resets.stage = 0x40 ∨ s.resets.stage = 0x50) :
    execBootStageTimeout s = .next ((s.failStage 0xE4 0x40).alertPin s) :=
  congrArg Host.Outcome.next (if_pos stage)

/-- Settles O27: each clause is the command's own equation at the stage that the clause names. -/
theorem startupCommandsComplete : Obligations.StartupCommandsComplete := by
  unfold Obligations.StartupCommandsComplete
  refine ⟨?stageEnds, ?refetch, ?bootTimeout⟩
  case stageEnds => exact fun _ e _ => execStartupStageComplete_of_inStage e
  case refetch => exact fun _ => execImageRefetchTimeout_of_badImage
  case bootTimeout => exact fun _ => execBootStageTimeout_of_waiting

end Sys2Proof.Machine
end

section
/-! SUPPORT. Every step keeps the tables in their canonical form (05 R467; 06 R113; 11 R246): what every command
leaves, from what each leaves. -/

namespace Sys2Proof.Machine

/-- Every command keeps the tables, the blown fuses and the last accepted sequence. Only the last five blow fuses or
accept a sequence (21 R441, R442, R448). -/
theorem exec_grows : ∀ (i : Instr) {s t : State}, exec i s = .next t → Grows s t
  | .loadStart w, _, _, ran => (keeps_execLoadStart (.refl _) w ran).grows
  | .loadDiscard w, _, _, ran => (keeps_execLoadDiscard (.refl _) w ran).grows
  | .validationComplete, _, _, ran => (keeps_execValidationComplete (.refl _) ran).grows
  | .curtainAction1Complete, _, _, ran => (keeps_execCurtainAction1Complete (.refl _) ran).grows
  | .curtainAction2, _, _, ran => (keeps_execCurtainAction2 (.refl _) ran).grows
  | .curtainTimeout, _, _, ran => (keeps_execCurtainTimeout (.refl _) ran).grows
  | .buddyStreamComplete, _, _, ran => (keeps_execBuddyStreamComplete (.refl _) ran).grows
  | .stepBegin, _, _, ran => (keeps_execStepBegin (.refl _) ran).grows
  | .p48Rise mv, _, _, ran => (keeps_execP48Rise (.refl _) mv ran).grows
  | .powerUp railsOk, _, _, ran => (keeps_execPowerUp (.refl _) railsOk ran).grows
  | .pwrEnFall, _, _, ran => (keeps_execPwrEnFall (.refl _) ran).grows
  | .phaseSwitchOut d r, _, _, ran => (keeps_execPhaseSwitchOut (.refl _) d r ran).grows
  | .thermalTrip x, _, _, ran => (keeps_execThermalTrip (.refl _) x ran).grows
  | .tripPersistTimeout d h, _, _, ran => (keeps_execTripPersistTimeout (.refl _) d h ran).grows
  | .clockLost c, _, _, ran => (keeps_execClockLost (.refl _) c ran).grows
  | .timeExchange p, _, _, ran => (keeps_execTimeExchange (.refl _) p ran).grows
  | .timeFlit p m, _, _, ran => (keeps_execTimeFlit (.refl _) p m ran).grows
  | .bayReset w d b, _, _, ran => (keeps_execBayReset (.refl _) w d b ran).grows
  | .fabricPortReset w p, _, _, ran => (keeps_execFabricPortReset (.refl _) w p ran).grows
  | .coreClusterReset w d, _, _, ran => (keeps_execCoreClusterReset (.refl _) w d ran).grows
  | .diePartitionReset w d, _, _, ran => (keeps_execDiePartitionReset (.refl _) w d ran).grows
  | .wholeDeviceReset w, _, _, ran => (keeps_execWholeDeviceReset (.refl _) w ran).grows
  | .sysRstNAssert, _, _, ran => (keeps_execSysRstNAssert (.refl _) ran).grows
  | .resetComplete dom, _, _, ran => (keeps_execResetComplete (.refl _) dom ran).grows
  | .strapSample bootMode slotId, _, _, ran => (keeps_execStrapSample (.refl _) bootMode slotId ran).grows
  | .startupStageComplete st e, _, _, ran => (keeps_execStartupStageComplete (.refl _) st e ran).grows
  | .imageRefetchTimeout, _, _, ran => (keeps_execImageRefetchTimeout (.refl _) ran).grows
  | .bootStageTimeout, _, _, ran => (keeps_execBootStageTimeout (.refl _) ran).grows
  | .registerWrite a reqs, _, _, ran => (keeps_execRegisterWrite (.refl _) a reqs ran).grows
  | .blockEnable w d pg, _, _, ran => (keeps_execBlockEnable (.refl _) w d pg ran).grows
  | .blockDisable w d pg, _, _, ran => (keeps_execBlockDisable (.refl _) w d pg ran).grows
  | .openingComplete d pg, _, _, ran => (keeps_execOpeningComplete (.refl _) d pg ran).grows
  | .closingComplete d pg, _, _, ran => (keeps_execClosingComplete (.refl _) d pg ran).grows
  | .hwHoldClear d pg, _, _, ran => (keeps_execHwHoldClear (.refl _) d pg ran).grows
  | .clrCount w d pg, _, _, ran => (keeps_execClrCount (.refl _) w d pg ran).grows
  | .mxePause w d b, _, _, ran => (keeps_execMxePause (.refl _) w d b ran).grows
  | .mxeUnpause w d b, _, _, ran => (keeps_execMxeUnpause (.refl _) w d b ran).grows
  | .vxePause w d b, _, _, ran => (keeps_execVxePause (.refl _) w d b ran).grows
  | .vxeUnpause w d b, _, _, ran => (keeps_execVxeUnpause (.refl _) w d b ran).grows
  | .suPause w d b, _, _, ran => (keeps_execSuPause (.refl _) w d b ran).grows
  | .suUnpause w d b, _, _, ran => (keeps_execSuUnpause (.refl _) w d b ran).grows
  | .mma d b, _, _, ran => (keeps_execMma (.refl _) d b ran).grows
  | .mmaGather d b, _, _, ran => (keeps_execMmaGather (.refl _) d b ran).grows
  | .syncWait d b, _, _, ran => (keeps_execSyncWait (.refl _) d b ran).grows
  | .syncAdd d b, _, _, ran => (keeps_execSyncAdd (.refl _) d b ran).grows
  | .mxeEnd d b, _, _, ran => (keeps_execMxeEnd (.refl _) d b ran).grows
  | .tileDrainComplete d b flips, _, _, ran => (keeps_execTileDrainComplete (.refl _) d b flips ran).grows
  | .arrayParityError d b, _, _, ran => (keeps_execArrayParityError (.refl _) d b ran).grows
  | .syncErrorResponse d b vxe status remote, _, _, ran =>
    (keeps_execSyncErrorResponse (.refl _) d b vxe status remote ran).grows
  | .gatherSubmit d b g, _, _, ran => (keeps_execGatherSubmit (.refl _) d b g ran).grows
  | .gatherRoundTimeout d b, _, _, ran => (keeps_execGatherRoundTimeout (.refl _) d b ran).grows
  | .gatherQueueDisable w d b, _, _, ran => (keeps_execGatherQueueDisable (.refl _) w d b ran).grows
  | .gqSlotsWrite w d b v, _, _, ran => (keeps_execGqSlotsWrite (.refl _) w d b v ran).grows
  | .layerGateOpen layer, _, _, ran => (keeps_execLayerGateOpen (.refl _) layer ran).grows
  | .vxeAdd u a, _, _, ran => (keeps_execVxeAdd (.refl _) u a ran).grows
  | .vxeSub u a, _, _, ran => (keeps_execVxeSub (.refl _) u a ran).grows
  | .vxeMul u a, _, _, ran => (keeps_execVxeMul (.refl _) u a ran).grows
  | .vxeDiv u a, _, _, ran => (keeps_execVxeDiv (.refl _) u a ran).grows
  | .vxeSqrt u a, _, _, ran => (keeps_execVxeSqrt (.refl _) u a ran).grows
  | .vxeMin u a, _, _, ran => (keeps_execVxeMin (.refl _) u a ran).grows
  | .vxeMax u a, _, _, ran => (keeps_execVxeMax (.refl _) u a ran).grows
  | .vxeMini u a, _, _, ran => (keeps_execVxeMini (.refl _) u a ran).grows
  | .vxeMaxi u a, _, _, ran => (keeps_execVxeMaxi (.refl _) u a ran).grows
  | .vxeNeg u a, _, _, ran => (keeps_execVxeNeg (.refl _) u a ran).grows
  | .vxeAbs u a, _, _, ran => (keeps_execVxeAbs (.refl _) u a ran).grows
  | .vxeCsgn u a, _, _, ran => (keeps_execVxeCsgn (.refl _) u a ran).grows
  | .vxeRti u a, _, _, ran => (keeps_execVxeRti (.refl _) u a ran).grows
  | .vxeRece u a, _, _, ran => (keeps_execVxeRece (.refl _) u a ran).grows
  | .vxeRsqe u a, _, _, ran => (keeps_execVxeRsqe (.refl _) u a ran).grows
  | .vxeMov u a, _, _, ran => (keeps_execVxeMov (.refl _) u a ran).grows
  | .vxeAnd u a, _, _, ran => (keeps_execVxeAnd (.refl _) u a ran).grows
  | .vxeOr u a, _, _, ran => (keeps_execVxeOr (.refl _) u a ran).grows
  | .vxeXor u a, _, _, ran => (keeps_execVxeXor (.refl _) u a ran).grows
  | .vxeSll u a, _, _, ran => (keeps_execVxeSll (.refl _) u a ran).grows
  | .vxeSrl u a, _, _, ran => (keeps_execVxeSrl (.refl _) u a ran).grows
  | .vxeSra u a, _, _, ran => (keeps_execVxeSra (.refl _) u a ran).grows
  | .vxeMrg u a, _, _, ran => (keeps_execVxeMrg (.refl _) u a ran).grows
  | .vxeIota u a, _, _, ran => (keeps_execVxeIota (.refl _) u a ran).grows
  | .vxeFma u a, _, _, ran => (keeps_execVxeFma (.refl _) u a ran).grows
  | .vxeFms u a, _, _, ran => (keeps_execVxeFms (.refl _) u a ran).grows
  | .vxeFnma u a, _, _, ran => (keeps_execVxeFnma (.refl _) u a ran).grows
  | .vxeFnms u a, _, _, ran => (keeps_execVxeFnms (.refl _) u a ran).grows
  | .vxeCmpEq u a, _, _, ran => (keeps_execVxeCmpEq (.refl _) u a ran).grows
  | .vxeCmpLt u a, _, _, ran => (keeps_execVxeCmpLt (.refl _) u a ran).grows
  | .vxeCmpLe u a, _, _, ran => (keeps_execVxeCmpLe (.refl _) u a ran).grows
  | .vxeCmpUn u a, _, _, ran => (keeps_execVxeCmpUn (.refl _) u a ran).grows
  | .vxeCmpNe u a, _, _, ran => (keeps_execVxeCmpNe (.refl _) u a ran).grows
  | .vxeRedSum u a, _, _, ran => (keeps_execVxeRedSum (.refl _) u a ran).grows
  | .vxeRedMin u a, _, _, ran => (keeps_execVxeRedMin (.refl _) u a ran).grows
  | .vxeRedMax u a, _, _, ran => (keeps_execVxeRedMax (.refl _) u a ran).grows
  | .vxeRedAmax u a, _, _, ran => (keeps_execVxeRedAmax (.refl _) u a ran).grows
  | .vxeRedSumw u a, _, _, ran => (keeps_execVxeRedSumw (.refl _) u a ran).grows
  | .vxeRedRepamax u a, _, _, ran => (keeps_execVxeRedRepamax (.refl _) u a ran).grows
  | .vxeCvt u a, _, _, ran => (keeps_execVxeCvt (.refl _) u a ran).grows
  | .vxeLoad u a, _, _, ran => (keeps_execVxeLoad (.refl _) u a ran).grows
  | .vxeStore u a, _, _, ran => (keeps_execVxeStore (.refl _) u a ran).grows
  | .vxeSetvl u a, _, _, ran => (keeps_execVxeSetvl (.refl _) u a ran).grows
  | .vxeSettid u a, _, _, ran => (keeps_execVxeSettid (.refl _) u a ran).grows
  | .vxeSetidx u a, _, _, ran => (keeps_execVxeSetidx (.refl _) u a ran).grows
  | .vxeAddidx u a, _, _, ran => (keeps_execVxeAddidx (.refl _) u a ran).grows
  | .vxeSetscl u a, _, _, ran => (keeps_execVxeSetscl (.refl _) u a ran).grows
  | .vxeSetblk u a, _, _, ran => (keeps_execVxeSetblk (.refl _) u a ran).grows
  | .vxeSetrm u a, _, _, ran => (keeps_execVxeSetrm (.refl _) u a ran).grows
  | .vxeRdflg u a, _, _, ran => (keeps_execVxeRdflg (.refl _) u a ran).grows
  | .vxeClrflg u a, _, _, ran => (keeps_execVxeClrflg (.refl _) u a ran).grows
  | .vxeRdvl u a, _, _, ran => (keeps_execVxeRdvl (.refl _) u a ran).grows
  | .vxeVtos u a, _, _, ran => (keeps_execVxeVtos (.refl _) u a ran).grows
  | .vxeStov u a, _, _, ran => (keeps_execVxeStov (.refl _) u a ran).grows
  | .vxeMskAnd u a, _, _, ran => (keeps_execVxeMskAnd (.refl _) u a ran).grows
  | .vxeMskOr u a, _, _, ran => (keeps_execVxeMskOr (.refl _) u a ran).grows
  | .vxeMskXor u a, _, _, ran => (keeps_execVxeMskXor (.refl _) u a ran).grows
  | .vxeMskAndn u a, _, _, ran => (keeps_execVxeMskAndn (.refl _) u a ran).grows
  | .vxeMskNot u a, _, _, ran => (keeps_execVxeMskNot (.refl _) u a ran).grows
  | .vxeMskSet u a, _, _, ran => (keeps_execVxeMskSet (.refl _) u a ran).grows
  | .vxeMskClr u a, _, _, ran => (keeps_execVxeMskClr (.refl _) u a ran).grows
  | .vxeSclAddi u a, _, _, ran => (keeps_execVxeSclAddi (.refl _) u a ran).grows
  | .vxeSclAdd u a, _, _, ran => (keeps_execVxeSclAdd (.refl _) u a ran).grows
  | .vxeSclSub u a, _, _, ran => (keeps_execVxeSclSub (.refl _) u a ran).grows
  | .vxeSclAnd u a, _, _, ran => (keeps_execVxeSclAnd (.refl _) u a ran).grows
  | .vxeSclOr u a, _, _, ran => (keeps_execVxeSclOr (.refl _) u a ran).grows
  | .vxeSclXor u a, _, _, ran => (keeps_execVxeSclXor (.refl _) u a ran).grows
  | .vxeSclSlli u a, _, _, ran => (keeps_execVxeSclSlli (.refl _) u a ran).grows
  | .vxeSclSrli u a, _, _, ran => (keeps_execVxeSclSrli (.refl _) u a ran).grows
  | .vxeSclSrai u a, _, _, ran => (keeps_execVxeSclSrai (.refl _) u a ran).grows
  | .vxeSclLih u a, _, _, ran => (keeps_execVxeSclLih (.refl _) u a ran).grows
  | .vxeSclMul u a, _, _, ran => (keeps_execVxeSclMul (.refl _) u a ran).grows
  | .vxeBeq u a, _, _, ran => (keeps_execVxeBeq (.refl _) u a ran).grows
  | .vxeBne u a, _, _, ran => (keeps_execVxeBne (.refl _) u a ran).grows
  | .vxeBlt u a, _, _, ran => (keeps_execVxeBlt (.refl _) u a ran).grows
  | .vxeBge u a, _, _, ran => (keeps_execVxeBge (.refl _) u a ran).grows
  | .vxeBltu u a, _, _, ran => (keeps_execVxeBltu (.refl _) u a ran).grows
  | .vxeJmp u a, _, _, ran => (keeps_execVxeJmp (.refl _) u a ran).grows
  | .vxeWait u a, _, _, ran => (keeps_execVxeWait (.refl _) u a ran).grows
  | .vxeSignal u a, _, _, ran => (keeps_execVxeSignal (.refl _) u a ran).grows
  | .vxeSemwait u a, _, _, ran => (keeps_execVxeSemwait (.refl _) u a ran).grows
  | .vxeSemadd u a, _, _, ran => (keeps_execVxeSemadd (.refl _) u a ran).grows
  | .vxeEnd u a, _, _, ran => (keeps_execVxeEnd (.refl _) u a ran).grows
  | .vxeRegParityError d b, _, _, ran => (keeps_execVxeRegParityError (.refl _) d b ran).grows
  | .streamStart d b sl, _, _, ran => (keeps_execStreamStart (.refl _) d b sl ran).grows
  | .streamRearm d b sl, _, _, ran => (keeps_execStreamRearm (.refl _) d b sl ran).grows
  | .streamArmingDone d b sl, _, _, ran => (keeps_execStreamArmingDone (.refl _) d b sl ran).grows
  | .suDeliveryComplete d b sl, _, _, ran => (keeps_execSuDeliveryComplete (.refl _) d b sl ran).grows
  | .slotPageFault d b sl f, _, _, ran => (keeps_execSlotPageFault (.refl _) d b sl f ran).grows
  | .slotResume w d b sl, _, _, ran => (keeps_execSlotResume (.refl _) w d b sl ran).grows
  | .slotAbort w d b sl, _, _, ran => (keeps_execSlotAbort (.refl _) w d b sl ran).grows
  | .slotCancel w d b sl, _, _, ran => (keeps_execSlotCancel (.refl _) w d b sl ran).grows
  | .slotFaultTimeout d b sl, _, _, ran => (keeps_execSlotFaultTimeout (.refl _) d b sl ran).grows
  | .slotCancelComplete d b sl, _, _, ran => (keeps_execSlotCancelComplete (.refl _) d b sl ran).grows
  | .shortPathTransfer p t, _, _, ran => (keeps_execShortPathTransfer (.refl _) p t ran).grows
  | .shortPathWindow p, _, _, ran => (keeps_execShortPathWindow (.refl _) p ran).grows
  | .srd r len env, _, _, ran => (keeps_execSrd (.refl _) r len env ran).grows
  | .swr r data env, _, _, ran => (keeps_execSwr (.refl _) r data env ran).grows
  | .semwait r value env, _, _, ran => (keeps_execSemwait (.refl _) r value env ran).grows
  | .addI32 r size operand env, _, _, ran => (keeps_execAddI32 (.refl _) r size operand env ran).grows
  | .addU64 r size operand env, _, _, ran => (keeps_execAddU64 (.refl _) r size operand env ran).grows
  | .addF32 r size operand env, _, _, ran => (keeps_execAddF32 (.refl _) r size operand env ran).grows
  | .addBf16 r size operand env, _, _, ran => (keeps_execAddBf16 (.refl _) r size operand env ran).grows
  | .minI32 r size operand env, _, _, ran => (keeps_execMinI32 (.refl _) r size operand env ran).grows
  | .maxI32 r size operand env, _, _, ran => (keeps_execMaxI32 (.refl _) r size operand env ran).grows
  | .minF32 r size operand env, _, _, ran => (keeps_execMinF32 (.refl _) r size operand env ran).grows
  | .maxF32 r size operand env, _, _, ran => (keeps_execMaxF32 (.refl _) r size operand env ran).grows
  | .minU64 r size operand env, _, _, ran => (keeps_execMinU64 (.refl _) r size operand env ran).grows
  | .maxU64 r size operand env, _, _, ran => (keeps_execMaxU64 (.refl _) r size operand env ran).grows
  | .cas r size compare operand env, _, _, ran => (keeps_execCas (.refl _) r size compare operand env ran).grows
  | .swap r size operand env, _, _, ran => (keeps_execSwap (.refl _) r size operand env ran).grows
  | .red r red data env, _, _, ran => (keeps_execRed (.refl _) r red data env ran).grows
  | .rd r h len env, _, _, ran => (keeps_execRd (.refl _) r h len env ran).grows
  | .wr r h data env, _, _, ran => (keeps_execWr (.refl _) r h data env ran).grows
  | .mwr r h data env, _, _, ran => (keeps_execMwr (.refl _) r h data env ran).grows
  | .bell r data, _, _, ran => (keeps_execBell (.refl _) r data ran).grows
  | .lost r leaves echo, _, _, ran => (keeps_execLost (.refl _) r leaves echo ran).grows
  | .replyReceive r status ackCount echo data, _, _, ran =>
    (keeps_execReplyReceive (.refl _) r status ackCount echo data ran).grows
  | .shcBankFail d bank, _, _, ran => (keeps_execShcBankFail (.refl _) d bank ran).grows
  | .stackTempRead d t temp, _, _, ran => (keeps_execStackTempRead (.refl _) d t temp ran).grows
  | .scrub d t granules env, _, _, ran => (keeps_execScrub (.refl _) d t granules env ran).grows
  | .uncorrectableRestore addr sectors data, _, _, ran =>
    (keeps_execUncorrectableRestore (.refl _) addr sectors data ran).grows
  | .define w id, _, _, ran => (keeps_execDefine (.refl _) w id ran).grows
  | .run w id, _, _, ran => (keeps_execRun (.refl _) w id ran).grows
  | .stop w id, _, _, ran => (keeps_execStop (.refl _) w id ran).grows
  | .teardown w id, _, _, ran => (keeps_execTeardown (.refl _) w id ran).grows
  | .quiesce w id, _, _, ran => (keeps_execQuiesce (.refl _) w id ran).grows
  | .invalAll w id, _, _, ran => (keeps_execInvalAll (.refl _) w id ran).grows
  | .invalRange w id, _, _, ran => (keeps_execInvalRange (.refl _) w id ran).grows
  | .fenceComplete, _, _, ran => (keeps_execFenceComplete (.refl _) ran).grows
  | .fenceTimeout, _, _, ran => (keeps_execFenceTimeout (.refl _) ran).grows
  | .schedulerQuantum d, _, _, ran => (keeps_execSchedulerQuantum (.refl _) d ran).grows
  | .bayQuantumEnd d b, _, _, ran => (keeps_execBayQuantumEnd (.refl _) d b ran).grows
  | .evictionComplete d id, _, _, ran => (keeps_execEvictionComplete (.refl _) d id ran).grows
  | .trackingEntryExpire d track, _, _, ran => (keeps_execTrackingEntryExpire (.refl _) d track ran).grows
  | .requestAgeDiscard d r issuedNs, _, _, ran => (keeps_execRequestAgeDiscard (.refl _) d r issuedNs ran).grows
  | .faultqTailWrite w d v, _, _, ran => (keeps_execFaultqTailWrite (.refl _) w d v ran).grows
  | .laneFail p lane, _, _, ran => (keeps_execLaneFail (.refl _) p lane ran).grows
  | .retrain p src, _, _, ran => (keeps_execRetrain (.refl _) p src ran).grows
  | .retrainComplete p ok lanes durNs, _, _, ran => (keeps_execRetrainComplete (.refl _) p ok lanes durNs ran).grows
  | .payloadFlit p f, _, _, ran => (keeps_execPayloadFlit (.refl _) p f ran).grows
  | .idleFlit p f, _, _, ran => (keeps_execIdleFlit (.refl _) p f ran).grows
  | .flitCrcFail p fec sequenced, _, _, ran => (keeps_execFlitCrcFail (.refl _) p fec sequenced ran).grows
  | .nak p seq, _, _, ran => (keeps_execNak (.refl _) p seq ran).grows
  | .nakHoldoffExpire p, _, _, ran => (keeps_execNakHoldoffExpire (.refl _) p ran).grows
  | .linkSignalDetect p lanes, _, _, ran => (keeps_execLinkSignalDetect (.refl _) p lanes ran).grows
  | .linkTrainingComplete p lanes x, _, _, ran => (keeps_execLinkTrainingComplete (.refl _) p lanes x ran).grows
  | .linkSignalLost p lanes, _, _, ran => (keeps_execLinkSignalLost (.refl _) p lanes ran).grows
  | .helloTimer p, _, _, ran => (keeps_execHelloTimer (.refl _) p ran).grows
  | .hello p h, _, _, ran => (keeps_execHello (.refl _) p h ran).grows
  | .hold p reason, _, _, ran => (keeps_execHold (.refl _) p reason ran).grows
  | .heldTimeout p, _, _, ran => (keeps_execHeldTimeout (.refl _) p ran).grows
  | .circuitForward inp pk, _, _, ran => (keeps_execCircuitForward (.refl _) inp pk ran).grows
  | .cutThroughForward inp pk flits, _, _, ran => (keeps_execCutThroughForward (.refl _) inp pk flits ran).grows
  | .circuitSlotInject pk slot, _, _, ran => (keeps_execCircuitSlotInject (.refl _) pk slot ran).grows
  | .windowPeriod p, _, _, ran => (keeps_execWindowPeriod (.refl _) p ran).grows
  | .vctDataWrite w d v, _, _, ran => (keeps_execVctDataWrite (.refl _) w d v ran).grows
  | .holdDataWrite w d v, _, _, ran => (keeps_execHoldDataWrite (.refl _) w d v ran).grows
  | .drainedReport, _, _, ran => (keeps_execDrainedReport (.refl _) ran).grows
  | .dupCheck d, _, _, ran => (keeps_execDupCheck (.refl _) d ran).grows
  | .dupCheckComplete d flips, _, _, ran => (keeps_execDupCheckComplete (.refl _) d flips ran).grows
  | .unitAudition w k d ix, _, _, ran => (keeps_execUnitAudition (.refl _) w k d ix ran).grows
  | .unitDark w k d ix, _, _, ran => (keeps_execUnitDark (.refl _) w k d ix ran).grows
  | .auditionComplete k d ix pass, _, _, ran => (keeps_execAuditionComplete (.refl _) k d ix pass ran).grows
  | .vote h v, _, _, ran => (keeps_execVote (.refl _) h v ran).grows
  | .digest h kind value, _, _, ran => (keeps_execDigest (.refl _) h kind value ran).grows
  | .pairs h ps, _, _, ran => (keeps_execPairs (.refl _) h ps ran).grows
  | .halt h reason, _, _, ran => (keeps_execHalt (.refl _) h reason ran).grows
  | .keep h votes, _, _, ran => (keeps_execKeep (.refl _) h votes ran).grows
  | .keepTimer, _, _, ran => (keeps_execKeepTimer (.refl _) ran).grows
  | .voteDeadline, _, _, ran => (keeps_execVoteDeadline (.refl _) ran).grows
  | .prepare h p, _, _, ran => (keeps_execPrepare (.refl _) h p ran).grows
  | .fences h ds, _, _, ran => (keeps_execFences (.refl _) h ds ran).grows
  | .ack h outcome, _, _, ran => (keeps_execAck (.refl _) h outcome ran).grows
  | .commit h outcome actions view, _, _, ran => (keeps_execCommit (.refl _) h outcome actions view ran).grows
  | .leaderSilence, _, _, ran => (keeps_execLeaderSilence (.refl _) ran).grows
  | .admitWindowExpire, _, _, ran => (keeps_execAdmitWindowExpire (.refl _) ran).grows
  | .call h rank holder buddyOf failed, _, _, ran =>
    (keeps_execCall (.refl _) h rank holder buddyOf failed ran).grows
  | .poolReadySend, _, _, ran => (keeps_execPoolReadySend (.refl _) ran).grows
  | .ready h dev rank flags, _, _, ran => (keeps_execReady (.refl _) h dev rank flags ran).grows
  | .callReadyTimeout rank, _, _, ran => (keeps_execCallReadyTimeout (.refl _) rank ran).grows
  | .drained h, _, _, ran => (keeps_execDrained (.refl _) h ran).grows
  | .apply h, _, _, ran => (keeps_execApply (.refl _) h ran).grows
  | .writer h writer copies, _, _, ran => (keeps_execWriter (.refl _) h writer copies ran).grows
  | .sign w, _, _, ran => (keeps_execSign (.refl _) w ran).grows
  | .restoreOwn w, _, _, ran => (keeps_execRestoreOwn (.refl _) w ran).grows
  | .restoreBuddy w, _, _, ran => (keeps_execRestoreBuddy (.refl _) w ran).grows
  | .fetchOwn w dev f, _, _, ran => (keeps_execFetchOwn (.refl _) w dev f ran).grows
  | .abandon w, _, _, ran => (keeps_execAbandon (.refl _) w ran).grows
  | .ringSwWrite w v, _, _, ran => (keeps_execRingSwWrite (.refl _) w v ran).grows
  | .exportComplete, _, _, ran => (keeps_execExportComplete (.refl _) ran).grows
  | .restoreComplete, _, _, ran => (keeps_execRestoreComplete (.refl _) ran).grows
  | .watchdogFire d b, _, _, ran => (keeps_execWatchdogFire (.refl _) d b ran).grows
  | .bayResetTimeout d b, _, _, ran => (keeps_execBayResetTimeout (.refl _) d b ran).grows
  | .partitionTimeout d, _, _, ran => (keeps_execPartitionTimeout (.refl _) d ran).grows
  | .shcStall d, _, _, ran => (keeps_execShcStall (.refl _) d ran).grows
  | .aprStall d t, _, _, ran => (keeps_execAprStall (.refl _) d t ran).grows
  | .replayTrialClear d b, _, _, ran => (keeps_execReplayTrialClear (.refl _) d b ran).grows
  | .frequencyChangeComplete d, _, _, ran => (keeps_execFrequencyChangeComplete (.refl _) d ran).grows
  | .droopDetect d isl, _, _, ran => (keeps_execDroopDetect (.refl _) d isl ran).grows
  | .droopClear d isl, _, _, ran => (keeps_execDroopClear (.refl _) d isl ran).grows
  | .droopPauseExpire d, _, _, ran => (keeps_execDroopPauseExpire (.refl _) d ran).grows
  | .powerLoopTick rd, _, _, ran => (keeps_execPowerLoopTick (.refl _) rd ran).grows
  | .thermalThrottleTick d junction stack, _, _, ran =>
    (keeps_execThermalThrottleTick (.refl _) d junction stack ran).grows
  | .shedStepEnter step mv, _, _, ran => (keeps_execShedStepEnter (.refl _) step mv ran).grows
  | .shedStepRelease step mv, _, _, ran => (keeps_execShedStepRelease (.refl _) step mv ran).grows
  | .componentFault d c, _, _, ran => (keeps_execComponentFault (.refl _) d c ran).grows
  | .componentLivenessMiss d c, _, _, ran => (keeps_execComponentLivenessMiss (.refl _) d c ran).grows
  | .componentRestartComplete d c, _, _, ran => (keeps_execComponentRestartComplete (.refl _) d c ran).grows
  | .mbxSubmit w n addr, _, _, ran => (keeps_execMbxSubmit (.refl _) w n addr ran).grows
  | .mbxDoneClear w v, _, _, ran => (keeps_execMbxDoneClear (.refl _) w v ran).grows
  | .mbx14Arm w addr, _, _, ran => (keeps_execMbx14Arm (.refl _) w addr ran).grows
  | .getVersion n, _, _, ran => (keeps_execGetVersion (.refl _) n ran).grows
  | .setIdentity n, _, _, ran => (keeps_execSetIdentity (.refl _) n ran).grows
  | .setBlocking n, _, _, ran => (keeps_execSetBlocking (.refl _) n ran).grows
  | .inputsReady n, _, _, ran => (keeps_execInputsReady (.refl _) n ran).grows
  | .heartbeat n, _, _, ran => (keeps_execHeartbeat (.refl _) n ran).grows
  | .heartbeatTimeout d, _, _, ran => (keeps_execHeartbeatTimeout (.refl _) d ran).grows
  | .logRead n, _, _, ran => (keeps_execLogRead (.refl _) n ran).grows
  | .chgRead n, _, _, ran => (keeps_execChgRead (.refl _) n ran).grows
  | .sigRead n, _, _, ran => (keeps_execSigRead (.refl _) n ran).grows
  | .captureRead n, _, _, ran => (keeps_execCaptureRead (.refl _) n ran).grows
  | .sensorRead n readings, _, _, ran => (keeps_execSensorRead (.refl _) n readings ran).grows
  | .traceSet n, _, _, ran => (keeps_execTraceSet (.refl _) n ran).grows
  | .configWrite n, _, _, ran => (keeps_execConfigWrite (.refl _) n ran).grows
  | .updateStage n, _, _, ran => (keeps_execUpdateStage (.refl _) n ran).grows
  | .updateActivate n, _, _, ran => (keeps_execUpdateActivate (.refl _) n ran).grows
  | .updateCancel n, _, _, ran => (keeps_execUpdateCancel (.refl _) n ran).grows
  | .updateHoldExpire, _, _, ran => (keeps_execUpdateHoldExpire (.refl _) ran).grows
  | .logSuppressed d src, _, _, ran => (keeps_execLogSuppressed (.refl _) d src ran).grows
  | .attest n, _, _, ran => (keeps_execAttest (.refl _) n ran).grows
  | .getIdentity n, _, _, ran => (keeps_execGetIdentity (.refl _) n ran).grows
  | .keyLoad n, _, _, ran => (keeps_execKeyLoad (.refl _) n ran).grows
  | .keyClear n, _, _, ran => (keeps_execKeyClear (.refl _) n ran).grows
  | .ownerKeyPut n, _, _, ran => (keeps_execOwnerKeyPut (.refl _) n ran).grows
  | .ethTx e q, _, _, ran => (keeps_execEthTx (.refl _) e q ran).grows
  | .ethRx e q f, _, _, ran => (keeps_execEthRx (.refl _) e q f ran).grows
  | .ppsPulse, _, _, ran => (keeps_execPpsPulse (.refl _) ran).grows
  | .pcieInbound write addr len data poisoned, _, _, ran =>
    (keeps_execPcieInbound (.refl _) write addr len data poisoned ran).grows
  | .pcieOutbound addr len write data, _, _, ran => (keeps_execPcieOutbound (.refl _) addr len write data ran).grows
  | .coreMachineCheck d c, _, _, ran => (keeps_execCoreMachineCheck (.refl _) d c ran).grows
  | .smbusBlockRead, _, _, ran => (keeps_execSmbusBlockRead (.refl _) ran).grows
  | .inrushLimitExpire, _, _, ran => (keeps_execInrushLimitExpire (.refl _) ran).grows
  | .holdRepeat p, _, _, ran => (keeps_execHoldRepeat (.refl _) p ran).grows
  | .heldRound, _, _, ran => (keeps_execHeldRound (.refl _) ran).grows
  | .sampleCopyComplete d b, _, _, ran => (keeps_execSampleCopyComplete (.refl _) d b ran).grows
  | .ethLinkDown e, _, _, ran => (keeps_execEthLinkDown (.refl _) e ran).grows
  | .ethLinkUp e, _, _, ran => (keeps_execEthLinkUp (.refl _) e ran).grows
  | .pcieLinkUp rate width flit, _, _, ran => (keeps_execPcieLinkUp (.refl _) rate width flit ran).grows
  | .pcieLinkDown, _, _, ran => (keeps_execPcieLinkDown (.refl _) ran).grows
  | .signedCommandReceive msg buf, _, _, ran => grows_execSignedCommandReceive msg buf ran
  | .ownerEnroll n, _, _, ran => grows_execOwnerEnroll n ran
  | .ownerRevoke n, _, _, ran => grows_execOwnerRevoke n ran
  | .rollbackCommit n, _, _, ran => grows_execRollbackCommit n ran
  | .protRemove n, _, _, ran => grows_execProtRemove n ran

/-- So does every step: taking the command off the queue touches none of them, and an idle nanosecond keeps them. -/
theorem step_grows {s t : State} (h : step s = .next t) : Grows s t := by
  unfold step at h
  split at h
  next => exact Host.Outcome.next.inj h ▸ (keeps_tick (.refl s)).grows
  next i rest _ =>
    have dequeued : Keeps s { s with pending := rest } := ⟨id, id, id, id, Fuses.keeps_refl _, rfl⟩
    exact dequeued.then_grows (exec_grows i h)

theorem Grows.canonical {s t : State} (g : Grows s t) (h : s.canonical) : t.canonical := by
  obtain ⟨regs, inForce, mem, staging⟩ := h
  exact ⟨g.regs regs, g.inForce inForce, g.mem mem, g.staging staging⟩

/-- Settles O4: every command, and so every step, keeps each of the four tables canonical. -/
theorem everyStepKeepsTheTablesCanonical : Obligations.EveryStepKeepsTheTablesCanonical := by
  unfold Obligations.EveryStepKeepsTheTablesCanonical
  exact fun _ _ canonical steps => (step_grows steps).canonical canonical

/-- Settles O3: reset's registers, values in force and staging list nothing, and its memory is canonical. -/
theorem resetIsCanonical : Obligations.ResetIsCanonical := by
  unfold Obligations.ResetIsCanonical
  exact ⟨rfl, rfl, reset_mem_wf, rfl⟩

end Sys2Proof.Machine
end

section
/-! SUPPORT. A write of BLK_CTRL (05 R98): what it stores, and what it leaves while the block opens or closes. -/

namespace Sys2Proof.Machine

/-- BLK_CTRL is a plain register on every page: no block's own rule of storing touches it. -/
theorem store_blkCtrl (d pg v : Nat) (s : State) :
    s.store d pg 0x020 v = s.wr d pg 0x020 ((regInfo d pg 0x020).after (s.rd d pg 0x020) v) := by
  have notQueue : ethQueueReg 0x020 = false := by decide
  simp only [State.store, notQueue, Bool.and_false, Bool.false_eq_true, if_false]
  split <;> rfl

/-- ENABLE is an RW bit on every page. -/
theorem enable_rw {d pg : Nat} {k : PageKind} (page : pageKind d pg = some k) :
    (regInfo d pg 0x020).rw.testBit 0 = true := by
  have header : (0x020 : Nat) < 0x080 := by decide
  simp only [regInfo, page, if_pos header]
  cases k <;> decide

/-- A write of BLK_CTRL that acts puts its bit 0 into ENABLE. -/
theorem write1_enable {d pg : Nat} {k : PageKind} {w : Writer} {v : Nat} {s : State} (page : pageKind d pg = some k)
    (acts : (s.write1 d pg 0x020 w v).win.isSome = true) :
    (s.write1 d pg 0x020 w v).s.rdF d pg 0x020 0 1 = v % 2 := by
  have bit : ((s.write1 d pg 0x020 w v).s.rd d pg 0x020).testBit 0 = v.testBit 0 := by
    rw [rd_write1_win acts (by decide) (by decide) (by decide), store_blkCtrl, rd_wr_same, testBit_stored_after,
      if_pos (enable_rw page)]
    simp
  simp only [Nat.testBit_zero, decide_eq_decide] at bit
  simp only [State.rdF, bitsOf, Nat.pow_zero, Nat.div_one, Nat.pow_one]
  omega

/-- The storing of a write of BLK_CTRL leaves BLK_STATE as it is. -/
theorem write1_blkCtrl_blkState {d pg : Nat} {w : Writer} {v : Nat} {s : State}
    (acts : (s.write1 d pg 0x020 w v).win.isSome = true) :
    (s.write1 d pg 0x020 w v).s.rd d pg 0x018 = s.rd d pg 0x018 := by
  have apart {off : Nat} (h : 0x018 ≠ off) : rk d pg 0x018 ≠ rk d pg off := rk_ne_of_off_ne d pg h
  rw [(write1_win_state acts).1, rd_winOne _ _ _ _ (apart (by decide)) (apart (by decide)) (apart (by decide)),
    store_blkCtrl, rd_wr_other _ _ (apart (by decide))]

/-- A write that acts leaves the newest change record of its die, but for a fuse load: HELD or APPLIED (R98, R101). -/
theorem write1_win_newest {d pg off : Nat} {w : Writer} {v : Nat} {s : State} (notFuse : w.origin ≠ .fuse)
    (acts : (s.write1 d pg off w v).win.isSome = true) :
    (((s.write1 d pg off w v).s.ringOf d).recs.head?.map (·.outcome)) =
      some (if (s.write1 d pg off w v).held then .held else .applied) := by
  obtain ⟨state, held⟩ := write1_win_state acts
  rw [state, held]
  simp only [State.winOne, if_neg notFuse]
  exact record_newest _ _ _ _ _ _ _ _ _

/-- In OPENING and in CLOSING every write of BLK_CTRL is held (R98). -/
theorem isHeld_blkCtrl_of_moving {d pg : Nat} {s : State} (moving : s.blkIs d pg 1 = true ∨ s.blkIs d pg 3 = true)
    (v : Nat) : s.isHeld d pg 0x020 v = true := by
  have either : (s.blkIs d pg 1 || s.blkIs d pg 3) = true := by rwa [Bool.or_eq_true]
  simp only [State.isHeld, either, decide_true, Bool.true_or, Bool.true_and]

/-- Settles O12: the block is moving, so the write is held and recorded so; it stores ENABLE and leaves BLK_STATE. -/
theorem heldEnable : Obligations.HeldEnable := by
  unfold Obligations.HeldEnable
  rintro d pg k w v _ s - - page notFuse moving rfl acts
  have held : (s.write1 d pg 0x020 w v).held = true :=
    (write1_win_state acts).2.trans (isHeld_blkCtrl_of_moving moving _)
  refine ⟨held, ?blkState, write1_enable page acts, ?newest⟩
  case blkState => rw [State.rdF, write1_blkCtrl_blkState acts, State.rdF]
  case newest => rw [write1_win_newest notFuse acts, if_pos held]

end Sys2Proof.Machine
end

section
/-! SUPPORT. What a vector instruction's advance leaves alone (09 R207). -/

namespace Sys2Proof.Machine

/-- Adding to a field changes registers and nothing else. -/
theorem incF_eq_with_regs (d pg off lo n v : Nat) (s : State) :
    ∃ regs, s.incF d pg off lo n v = { s with regs := regs } := ⟨_, rfl⟩

/-- The engine once an instruction is complete that left the registers `r`: at the next PC, waiting for no answer. -/
def Vxe.advanced (v : Vxe) (r : VxeRegs) : Vxe := { v with regs := { r with pc := r.pc + 1 }, syncing := false }

/-- Beside the engine, the advance counts in a register and notes the bay's progress. -/
theorem vxeNext_eq_setVxe_with (d b : Nat) (r : VxeRegs) (s : State) : ∃ regs hang,
    s.vxeNext d b r = { s.setVxe d b ((s.vxeOf d b).advanced r) with regs := regs, hang := hang } := by
  obtain ⟨regs, counted⟩ := incF_eq_with_regs d (pgVxe b) 0x090 0 64 1 (s.setVxe d b ((s.vxeOf d b).advanced r))
  exact ⟨regs, _, congrArg (·.progress d b) counted⟩

/-- The advance changes registers, the vector engines and the watchdogs' times, and nothing else. -/
theorem vxeNext_frame (d b : Nat) (r : VxeRegs) (s : State) :
    { s.vxeNext d b r with regs := s.regs, vxe := s.vxe, hang := s.hang } = s := by
  obtain ⟨regs, hang, advanced⟩ := vxeNext_eq_setVxe_with d b r s
  rw [advanced]
  rfl

/-- The engine of another bay stays as it was. -/
theorem vxeNext_other {d b d' b' : Nat} (r : VxeRegs) (s : State) (h : bayKey d' b' ≠ bayKey d b) :
    (s.vxeNext d b r).vxeOf d' b' = s.vxeOf d' b' := by
  obtain ⟨regs, hang, advanced⟩ := vxeNext_eq_setVxe_with d b r s
  rw [advanced]
  simp only [State.vxeOf, State.setVxe]
  rw [Tab.get_set _ _ _ _ _ _ fun _ => rfl, if_neg h]

/-- Settles O19: each clause is the frame of one shared operation. -/
theorem operationsFrame : Obligations.OperationsFrame := by
  unfold Obligations.OperationsFrame
  refine ⟨rd_wr, wr_frame, ?errOthers, ?errBit, setErr_frame, vxeNext_frame, ?bays⟩
  case errOthers => exact fun _ _ bit _ _ _ s => rd_setErr_other bit s
  case errBit => exact fun d pg _ s inWord => rdF_setErr inWord d pg s
  case bays => exact fun _ _ _ _ r s => vxeNext_other r s

end Sys2Proof.Machine
end

section
/-! SUPPORT. REGISTER_WRITE and the block commands, said once per case: what each answers under the conditions of the
rules (05 R88, R90, R97 to R99; 06 R127; 09 R212; 10 R239). -/

namespace Sys2Proof.Machine

/-! ### Register writes (05 R88 to R96) -/

/-- The writes of one cycle to a register, of which one acts, set off what the register's own rule says. -/
theorem writeAll_of_win {d pg off : Nat} {reqs : List WriteReq} {r : WriteReq} {s : State}
    (plain : mboxSlot d pg off = false) (acts : (s.commit d pg off reqs).win = some r) :
    s.writeAll d pg off reqs = (s.commit d pg off reqs).s.onWrite d pg off r.value.toNat r.w := by
  simp only [State.writeAll, plain, Bool.false_eq_true, if_false, acts]

/-- The writes of one cycle to a mailbox slot are messages (R96). -/
theorem writeAll_of_slot {d pg off : Nat} (reqs : List WriteReq) (s : State) (slot : mboxSlot d pg off = true) :
    s.writeAll d pg off reqs = s.slotWrites ((off - 0x080) / 8) reqs := if_pos slot

/-! ### Writes of one bit of BLK_CTRL (05 R90, R97, R98) -/

/-- A command that writes one bit of BLK_CTRL goes on with its effect where the write acts. -/
theorem ctrlBit_then_of_win {s : State} {w : Writer} {d pg bit v : Nat} {c : Committed}
    (wrote : c = s.ctrlBit w d pg bit v) (acts : c.win.isSome = true) (f : State → State) :
    (s.ctrlBit w d pg bit v).then_ f = f c.s := by
  subst wrote
  exact Committed.then_of_win acts f

theorem pauseBit_of_win {s : State} {w : Writer} {d pg v : Nat} {c : Committed} (wrote : c = s.ctrlBit w d pg 8 v)
    (acts : c.win.isSome = true) : s.pauseBit w d pg v = c.s.enableEffect d pg w.origin :=
  ctrlBit_then_of_win wrote acts fun t => t.enableEffect d pg w.origin

/-! ### The hardware's own events (05 R97 to R99) -/

/-- OPENING ends: ON, counted in GEN, or CLOSING where ENABLE holds 0. -/
theorem execOpeningComplete_of_opening {d : Die} {pg : BitVec 8} {s t : State} (opening : s.blkSt d pg.toNat = 1)
    (ready : s.openReady d pg.toNat = true) (opens : t = s.opened d pg.toNat) :
    execOpeningComplete d pg s = .next (if t.enabled d pg.toNat
      then (t.setBlkSt d pg.toNat 2).incF d pg.toNat 0x048 0 32 1
      else t.beginClose d pg.toNat) := by
  subst opens
  simp only [execOpeningComplete, opening, ready, ne_eq, not_true_eq_false, Bool.true_eq_false, or_self, if_false]

/-- CLOSING ends: OFF, or OPENING where ENABLE holds 1 and the hardware does not hold the block. -/
theorem execClosingComplete_of_closing {d : Die} {pg : BitVec 8} {s t : State} (closing : s.blkSt d pg.toNat = 3)
    (ready : s.closeReady d pg.toNat = true) (closes : t = s.closed d pg.toNat) :
    execClosingComplete d pg s = .next (if t.enabled d pg.toNat && !(t.hwHold d pg.toNat)
      then t.beginOpen d pg.toNat
      else t.setBlkSt d pg.toNat 0) := by
  subst closes
  simp only [execClosingComplete, closing, ready, ne_eq, not_true_eq_false, Bool.true_eq_false, or_self, if_false]

/-- The hardware's hold ends: a block that is OFF and enabled opens (R99). -/
theorem execHwHoldClear_of_held {d : Die} {pg : BitVec 8} {s t : State} (held : s.hwHold d pg.toNat = true)
    (cleared : t = s.wrF d pg.toNat 0x018 4 1 0) :
    execHwHoldClear d pg s = .next (if t.blkSt d pg.toNat = 0 ∧ t.enabled d pg.toNat = true
      then t.beginOpen d pg.toNat
      else t.syncPend d pg.toNat) := by
  subst cleared
  simp only [execHwHoldClear, held, Bool.true_eq_false, if_false]

/-- Settles O28: a register write by whether it reaches a mailbox slot; the block commands as one write of a bit of
BLK_CTRL that acts; the hardware's events by the block's state. -/
theorem registerAndBlockCommandsComplete : Obligations.RegisterAndBlockCommandsComplete := by
  unfold Obligations.RegisterAndBlockCommandsComplete
  refine ⟨?registerWrite, ?slotWrite, ?enable, ?disable, ?clrCount, ?opening, ?closing, ?holdClear, ?mxePause,
    ?mxeUnpause, ?vxePause, ?vxeUnpause, ?suPause, ?suUnpause⟩
  case registerWrite =>
    rintro a reqs r _ _ _ s rfl rfl plain rfl acts
    exact congrArg Host.Outcome.next (writeAll_of_win plain acts)
  case slotWrite =>
    rintro a reqs _ _ s rfl rfl slot
    exact congrArg Host.Outcome.next (writeAll_of_slot reqs s slot)
  case enable => exact fun _ _ _ _ _ wrote acts => congrArg Host.Outcome.next (ctrlBit_then_of_win wrote acts _)
  case disable => exact fun _ _ _ _ _ wrote acts => congrArg Host.Outcome.next (ctrlBit_then_of_win wrote acts _)
  case clrCount => exact fun _ _ _ _ _ wrote acts => congrArg Host.Outcome.next (ctrlBit_then_of_win wrote acts _)
  case opening => exact fun _ _ _ _ => execOpeningComplete_of_opening
  case closing => exact fun _ _ _ _ => execClosingComplete_of_closing
  case holdClear => exact fun _ _ _ _ => execHwHoldClear_of_held
  case mxePause => exact fun _ _ _ _ _ wrote acts => congrArg Host.Outcome.next (pauseBit_of_win wrote acts)
  case mxeUnpause => exact fun _ _ _ _ _ wrote acts => congrArg Host.Outcome.next (pauseBit_of_win wrote acts)
  case vxePause => exact fun _ _ _ _ _ wrote acts => congrArg Host.Outcome.next (pauseBit_of_win wrote acts)
  case vxeUnpause => exact fun _ _ _ _ _ wrote acts => congrArg Host.Outcome.next (pauseBit_of_win wrote acts)
  case suPause => exact fun _ _ _ _ _ wrote acts => congrArg Host.Outcome.next (pauseBit_of_win wrote acts)
  case suUnpause => exact fun _ _ _ _ _ wrote acts => congrArg Host.Outcome.next (pauseBit_of_win wrote acts)

end Sys2Proof.Machine
end

section
/-! SUPPORT. The gather queue's bound slots (06 R134): what a write of GQ_SLOTS stores, and the submissions it drops. -/

namespace Sys2Proof.Machine

/-! ### One bit of a register -/

/-- A field of one bit is that bit. -/
theorem bitsOf_one (v i : Nat) : bitsOf v i 1 = (v.testBit i).toNat := (Nat.toNat_testBit v i).symm

theorem bitsOf_one_eq_one (v i : Nat) : bitsOf v i 1 = 1 ↔ v.testBit i = true := by
  rw [bitsOf_one, Bool.toNat_eq_one]

theorem rdF_one_eq_one (s : State) (d pg off i : Nat) : s.rdF d pg off i 1 = 1 ↔ (s.rd d pg off).testBit i = true :=
  bitsOf_one_eq_one _ i

/-! ### Slots that other queues hold -/

theorem testBit_foldl_or_ne (f : Nat → Nat) (b j : Nat) (l : List Nat) (a : Nat) :
    (l.foldl (fun a i => if i = b then a else a ||| f i) a).testBit j = true ↔
      a.testBit j = true ∨ ∃ i ∈ l, i ≠ b ∧ (f i).testBit j = true := by
  induction l generalizing a with
  | nil => simp only [List.foldl_nil, List.not_mem_nil, false_and, exists_false, or_false]
  | cons i l ih =>
    rw [List.foldl_cons, ih]
    simp only [List.mem_cons, exists_eq_or_imp]
    by_cases own : i = b
    · simp only [own, if_true, ne_eq, not_true_eq_false, false_and, false_or]
    · simp only [own, if_false, ne_eq, not_false_eq_true, true_and, Nat.testBit_or, Bool.or_eq_true, or_assoc]

/-- A slot is taken where a queue of another bay of the die is bound to it. -/
theorem testBit_gqTaken (s : State) (d : Nat) (b : Bay) (j : Nat) :
    (s.gqTaken d b).testBit j = true ↔ ∃ b' : Bay, b' ≠ b ∧ s.rdF d (pgMxe b') 0x0C8 j 1 = 1 := by
  rw [State.gqTaken, testBit_foldl_or_ne, Nat.zero_testBit, Fin.exists_iff]
  simp only [Bool.false_eq_true, false_or, List.mem_range, rdF_one_eq_one, ne_eq, Fin.ext_iff, exists_prop]

/-! ### What a write of GQ_SLOTS stores -/

/-- The page of each of the nine bays is one of a matrix engine. -/
theorem pageKind_mxe (d : Nat) (b : Bay) : pageKind d (pgMxe b) = some .mxe :=
  match b with
  | 0 | 1 | 2 | 3 | 4 | 5 | 6 | 7 | 8 => rfl

/-- The 16 slots are RW bits, and GQ_SLOTS has no W1C bits. -/
theorem regInfo_gqSlots (d : Nat) (b : Bay) : regInfo d (pgMxe b) 0x0C8 = { rw := maskN 16 } := by
  simp only [regInfo, pageKind_mxe]
  rfl

/-- The bits that a write names, of GQ_SLOTS as the access types alone would leave it. -/
theorem testBit_gqSlots_after (old v : Nat) {d i : Nat} {b : Bay} (slot : i < 16) :
    ((regInfo d (pgMxe b) 0x0C8).after old v).testBit i = v.testBit i := by
  rw [RegInfo.testBit_after (regInfo_rw_or_w1c_zero _ _ _) old v (Nat.lt_trans slot (by decide)), regInfo_gqSlots,
    testBit_maskN, decide_eq_true slot, if_pos rfl]

/-- A write of GQ_SLOTS stores the slots that no other queue holds, and sets GQ_REFUSED where another queue holds one
that it names. -/
theorem store_gqSlots (s : State) (d : Nat) (b : Bay) (v : Nat) {new : Nat}
    (written : new = (regInfo d (pgMxe b) 0x0C8).after (s.rd d (pgMxe b) 0x0C8) v) :
    s.store d (pgMxe b) 0x0C8 v =
      if new &&& s.gqTaken d b = 0 then s.wr d (pgMxe b) 0x0C8 (new &&& (maskN 16 ^^^ s.gqTaken d b))
      else (s.wr d (pgMxe b) 0x0C8 (new &&& (maskN 16 ^^^ s.gqTaken d b))).setErr d (pgMxe b) 12 := by
  subst written
  have bay : pgMxe b - 0x10 = b := Nat.add_sub_cancel_left ..
  have plain : ethQueueReg 0x0C8 = false := by decide
  simp only [State.store, pageKind_mxe, bay, plain, Bool.and_false, Bool.false_eq_true, if_false, if_true]

/-- Each slot holds what the write says, but for those of another queue, which stay unbound. -/
theorem testBit_store_gqSlots (s : State) (d : Nat) (b : Bay) (v : Nat) {i : Nat} (slot : i < 16) :
    ((s.store d (pgMxe b) 0x0C8 v).rd d (pgMxe b) 0x0C8).testBit i = (v.testBit i && !(s.gqTaken d b).testBit i) := by
  have stored : (s.store d (pgMxe b) 0x0C8 v).rd d (pgMxe b) 0x0C8 =
      ((regInfo d (pgMxe b) 0x0C8).after (s.rd d (pgMxe b) 0x0C8) v &&& (maskN 16 ^^^ s.gqTaken d b)) % 2 ^ 64 := by
    rw [store_gqSlots s d b v rfl]
    split
    · exact rd_wr_same _ _ _ _ _
    · rw [rd_setErr_other _ _ (rk_ne_of_off_ne _ _ (by decide)) (rk_ne_of_off_ne _ _ (by decide)), rd_wr_same]
  have inWord : i < 64 := Nat.lt_trans slot (by decide)
  rw [stored, Nat.testBit_mod_two_pow, Nat.testBit_and, Nat.testBit_xor, testBit_maskN, testBit_gqSlots_after _ _ slot]
  simp only [inWord, slot, decide_true, Bool.true_and, Bool.true_xor]

/-- GQ_REFUSED is set where the write names a slot of another queue. -/
theorem store_gqSlots_refused {s : State} {d : Nat} {b : Bay} {v i : Nat} (slot : i < 16) (named : v.testBit i = true)
    (taken : (s.gqTaken d b).testBit i = true) :
    (s.store d (pgMxe b) 0x0C8 v).rdF d (pgMxe b) 0x030 12 1 = 1 := by
  have clash : (regInfo d (pgMxe b) 0x0C8).after (s.rd d (pgMxe b) 0x0C8) v &&& s.gqTaken d b ≠ 0 := by
    intro disjoint
    have bit := congrArg (Nat.testBit · i) disjoint
    simp only [Nat.testBit_and, testBit_gqSlots_after _ _ slot, named, taken, Bool.and_self, Nat.zero_testBit,
      Bool.true_eq_false] at bit
  rw [store_gqSlots s d b v rfl, if_neg clash]
  exact rdF_setErr (by decide) _ _ _

/-- A write of GQ_SLOTS that acts leaves in its page what the storing leaves, but for the registers that every write
counts in (WRITE_SEQ, LAST_WRITE_ORIGIN, LAST_WRITE_TIME). -/
theorem rdF_write1_gqSlots {s : State} {w : Writer} {d : Nat} {b : Bay} {v : Word} {off : Nat}
    (acts : (s.write1 d (pgMxe b) 0x0C8 w v.toNat).win.isSome = true) (h : off < 0x050 ∨ 0x060 < off) (lo n : Nat) :
    (s.write1 d (pgMxe b) 0x0C8 w v.toNat).s.rdF d (pgMxe b) off lo n =
      (s.store d (pgMxe b) 0x0C8 v.toNat).rdF d (pgMxe b) off lo n := by
  have value : (oneReq w v.toNat).value.toNat = v.toNat := congrArg BitVec.toNat (BitVec.ofNat_toNat 64 v)
  have apart {off' : Nat} (inside : 0x050 ≤ off' ∧ off' ≤ 0x060) : rk d (pgMxe b) off ≠ rk d (pgMxe b) off' :=
    rk_ne_of_off_ne _ _ (by omega)
  rw [(write1_win_state acts).1, State.rdF, State.rdF,
    rd_winOne _ _ _ _ (apart (by decide)) (apart (by decide)) (apart (by decide)), value]

/-! ### The submissions that a queue drops -/

@[simp] theorem gatherOf_setGather (s : State) (d b : Nat) (q : GatherQ) : (s.setGather d b q).gatherOf d b = q := by
  rw [State.gatherOf, State.setGather, Tab.get_set _ _ _ _ _ _ fun _ => rfl, if_pos rfl]

/-- Counting in DROPPED leaves the queues. -/
@[simp] theorem gqDrop_gatherOf (s : State) (d b n d' b' : Nat) :
    (s.gqDrop d b n).gatherOf d' b' = s.gatherOf d' b' := by
  simp only [State.gqDrop, State.gatherOf, State.incF_gather]

/-- The queue keeps the submissions of the open round that are not dropped. -/
@[simp] theorem gqDropWhere_gatherOf (s : State) (d b : Nat) (p : GatherSub → Bool) :
    (s.gqDropWhere d b p).gatherOf d b =
      { s.gatherOf d b with opened := (s.gatherOf d b).opened.filter fun x => !(p x) } := by
  rw [State.gqDropWhere, gqDrop_gatherOf, gatherOf_setGather]

/-- DROPPED counts the submissions by which the open round has become shorter. -/
theorem gqDropWhere_counts (s : State) (d b : Nat) (p : GatherSub → Bool) :
    s.gqDropWhere d b p = (s.setGather d b ((s.gqDropWhere d b p).gatherOf d b)).gqDrop d b
      ((s.gatherOf d b).opened.length - ((s.gqDropWhere d b p).gatherOf d b).opened.length) := by
  have dropped : (s.gatherOf d b).opened.length = ((s.gatherOf d b).opened.filter p).length +
      ((s.gatherOf d b).opened.filter fun x => !(p x)).length := by
    rw [List.length_eq_countP_add_countP p, List.countP_eq_length_filter, List.countP_eq_length_filter]
    simp only [Bool.not_eq_true, Bool.decide_eq_false]
  rw [gqDropWhere_gatherOf, dropped, Nat.add_sub_cancel]
  rfl

/-- Does the queue hold the slot of a submission no longer? -/
def State.gqUnbound (s : State) (d b : Nat) (x : GatherSub) : Bool :=
  bitsOf (s.rd d (pgMxe b) 0x0C8) x.slot.toNat 1 = 0

/-- A submission stays where its slot is bound. -/
theorem not_gqUnbound (s : State) (d b : Nat) (x : GatherSub) :
    (!(s.gqUnbound d b x)) = decide (s.rdF d (pgMxe b) 0x0C8 x.slot.toNat 1 = 1) := by
  rw [State.gqUnbound, State.rdF, bitsOf_one]
  cases (s.rd d (pgMxe b) 0x0C8).testBit x.slot.toNat <;> rfl

/-- A write of GQ_SLOTS that acts drops what the queue no longer holds; EARLY may then close the round (R131, R134). -/
theorem execGqSlotsWrite_of_win {s u : State} {w : Writer} {d : Die} {b : Bay} {v : Word} {c : Committed}
    (wrote : c = s.write1 d (pgMxe b) 0x0C8 w v.toNat) (acts : c.win.isSome = true)
    (drops : u = c.s.gqDropWhere d b (c.s.gqUnbound d b)) :
    execGqSlotsWrite w d b v s = .next (if u.gqEarly d b (u.gatherOf d b)
      then u.setGather d b (u.gatherOf d b).close
      else u) := by
  subst wrote drops
  exact congrArg Host.Outcome.next (Committed.then_of_win acts _)

/-- Settles O9: the storing binds the slots that are free and reports the others; what the write leads to drops the
submissions of the slots that the queue does not hold. -/
theorem gatherBinding : Obligations.GatherBinding := by
  unfold Obligations.GatherBinding
  rintro w d b v _ s rfl acts
  refine ⟨?bound, ?refused, ?dropped⟩
  case bound =>
    intro i slot
    rw [rdF_write1_gqSlots acts (.inr (by decide)), State.rdF, bitsOf_one, bitsOf_one,
      testBit_store_gqSlots _ _ _ _ slot]
    split
    next held => rw [(testBit_gqTaken s d b i).mpr held, Bool.not_true, Bool.and_false, Bool.toNat_false]
    next free =>
      rw [Bool.eq_false_iff.mpr (mt (testBit_gqTaken s d b i).mp free), Bool.not_false, Bool.and_true]
  case refused =>
    rintro ⟨i, slot, named, held⟩
    rw [rdF_write1_gqSlots acts (.inl (by decide))]
    exact store_gqSlots_refused slot ((bitsOf_one_eq_one _ i).mp named) ((testBit_gqTaken s d b i).mpr held)
  case dropped =>
    refine ⟨_, _, rfl, ?kept, gqDropWhere_counts _ _ _ _, execGqSlotsWrite_of_win rfl acts rfl⟩
    case kept => simp only [gqDropWhere_gatherOf, not_gqUnbound]

end Sys2Proof.Machine
end

section
/-! SUPPORT. The commands of the matrix engine and its gather queue, and the layer gate, said once per case: what each
answers under the conditions of the rules (06 R105, R114, R120, R123, R128, R130 to R132, R134, R470; 08 R173, R174). -/

namespace Sys2Proof.Machine

/-! ### Descriptors at the head of the list (06 R105, R120, R123) -/

theorem execMma_of_head {d : Die} {b : Bay} {s : State} {r : TileRef} {t : TileDesc}
    (head : s.mxeHead d b 0x01 = some (r, t)) :
    execMma d b s = .next ((s.waitMarks d b t.waitMask).mmaStart d b r t) := by
  simp only [execMma, head]

theorem execSyncWait_of_head {d : Die} {b : Bay} {s : State} {r : TileRef} {t : TileDesc}
    (head : s.mxeHead d b 0x10 = some (r, t)) :
    execSyncWait d b s =
      .next ((s.waitMarks d b t.waitMask).engineSem d b false false (t.semAddr % 2 ^ 52) t.semValue) := by
  simp only [execSyncWait, head]

/-- SYNC_ADD goes once every earlier descriptor has drained. -/
theorem execSyncAdd_of_drained {d : Die} {b : Bay} {s : State} {r : TileRef} {t : TileDesc}
    (head : s.mxeHead d b 0x11 = some (r, t)) (drained : (s.mxeOf d b).drains = [])
    (noChain : (s.mxeOf d b).openBy = none) :
    execSyncAdd d b s =
      .next ((s.waitMarks d b t.waitMask).engineSem d b false true (t.semAddr % 2 ^ 52) t.semValue) := by
  simp only [execSyncAdd, head, drained, noChain, List.isEmpty_nil, Option.isNone_none, Bool.and_self, if_true]

theorem execMxeEnd_of_head {d : Die} {b : Bay} {s u : State} {r : TileRef} {t : TileDesc}
    (head : s.mxeHead d b 0xFF = some (r, t)) (went : u = (s.waitMarks d b t.waitMask).mxeNext d b) :
    execMxeEnd d b s =
      .next ((u.setMxe d b { u.mxeOf d b with atEnd := true, gatherRows := 0 }).endCancel d b) := by
  subst went
  simp only [execMxeEnd, head]

/-! ### MMA_GATHER (06 R131) -/

/-- The tile runs, with the round's row count, once no read of the round is left or awaited. -/
theorem gatherRun_of_placed {d b : Nat} {r : TileRef} {t : TileDesc} {run : GatherRun} {u v w : State}
    (places : (u.gatherOf d b).placing = some run) (issued : run.left = []) (answered : run.waits = [])
    (running : u.running = true) (mapped : v = (u.setPlacing d b none).gqMap d b run.round)
    (counted : w = v.setMxe d b { v.mxeOf d b with gatherRows := roundRows run.round }) :
    u.gatherRun d b r t = (w.waitMarks d b t.waitMask).mmaStart d b r t := by
  subst mapped counted
  simp only [State.gatherRun, places, issued, answered, running, List.isEmpty_nil, Bool.true_eq_false, or_self,
    if_false]

/-- The descriptor waits while a read of the round is left or awaited. -/
theorem gatherRun_of_waiting {d b : Nat} {u : State} {run : GatherRun} (r : TileRef) (t : TileDesc)
    (places : (u.gatherOf d b).placing = some run) (waits : run.left ≠ [] ∨ run.waits ≠ []) :
    u.gatherRun d b r t = u := by
  have unplaced : run.left.isEmpty = false ∨ run.waits.isEmpty = false ∨ u.running = false := by
    simp only [List.isEmpty_eq_false_iff]
    exact waits.imp_right .inl
  simp only [State.gatherRun, places, if_pos unplaced]

/-- A round that is being placed goes on. -/
theorem execMmaGather_of_placing {d : Die} {b : Bay} {s : State} {r : TileRef} {t : TileDesc} {z : GatherRun}
    (head : s.mxeHead d b 0x02 = some (r, t)) (places : (s.gatherOf d b).placing = some z) :
    execMmaGather d b s = .next ((s.gatherIssue d b).gatherRun d b r t) := by
  simp only [execMmaGather, head, places]

/-- The oldest closed round begins to be placed, where the chain may begin. -/
theorem execMmaGather_of_closed {d : Die} {b : Bay} {s : State} {r : TileRef} {t : TileDesc} {g : List GatherSub}
    {rest : List (List GatherSub)} (head : s.mxeHead d b 0x02 = some (r, t)) (idle : (s.gatherOf d b).placing = none)
    (closed : (s.gatherOf d b).closed = g :: rest)
    (free : t.cont = true ∨ (s.mxeOf d b).bankFree (decide (accWidth t = 8)) = true) :
    execMmaGather d b s = .next ((s.gatherBegin d b t g rest).gatherRun d b r t) := by
  have mayBegin : ¬ (t.cont = false ∧ (s.mxeOf d b).bankFree (decide (accWidth t = 8)) = false) := by
    rwa [Classical.not_and_iff_not_or_not, Bool.not_eq_false, Bool.not_eq_false]
  simp only [execMmaGather, head, idle, closed, if_neg mayBegin]

/-! ### Drains, parity and error responses (06 R114, R128, R470) -/

theorem execTileDrainComplete_of_drain {d : Die} {b : Bay} {s : State} {j : DrainJob} {js : List DrainJob}
    {t : TileDesc} (flips : List Flip) (oldest : (s.mxeOf d b).drains = j :: js) (tile : s.tileOf j.ref = some t) :
    execTileDrainComplete d b flips s = .next (s.drainChain d b j t flips) := by
  simp only [execTileDrainComplete, oldest, tile]

@[simp] theorem setMxe_wingsBay (s : State) (d b : Nat) (m : Mxe) (d' : Nat) :
    (s.setMxe d b m).wingsBay d' = s.wingsBay d' := by
  simp only [State.wingsBay]
  rfl

/-- A parity error of a bay in service marks the tile that is open, or those that drain. -/
theorem execArrayParityError_of_service {d : Die} {b : Bay} {s u : State}
    (reported : u = (s.setErr d (pgMxe b) 10).histEvent 1 d b 2) (service : u.wingsBay d ≠ some b.val) :
    execArrayParityError d b s = .next ((u.setMxe d b (if (u.mxeOf d b).openBy.isSome
      then { u.mxeOf d b with marked := true }
      else { u.mxeOf d b with drains := (u.mxeOf d b).drains.map fun j => { j with marked := true } })).noCertBay d b
        6) := by
  subst reported
  simp only [execArrayParityError, setMxe_wingsBay, if_neg service]

theorem execSyncErrorResponse_of_owner {d : Die} {b : Bay} {vxe : Bool} {st : Status} {id : Nat} {s : State}
    (remote : Bool) (owner : s.syncOwner d b vxe = some id) (failed : st ≠ .ok) :
    execSyncErrorResponse d b vxe st remote s = .next ((s.syncEnded d b id vxe).syncError d b id vxe st remote) := by
  simp only [execSyncErrorResponse, owner, if_neg failed]

/-! ### Submissions and rounds (06 R130 to R132) -/

/-- A sound submission to a bound slot of an enabled queue is accepted. -/
theorem gatherSubmit_of_bound {d b : Nat} {g : GatherSub} {s : State} (slot : g.slot.toNat < 16)
    (bound : bitsOf (s.rd d (pgMxe b) 0x0C8) g.slot.toNat 1 = 1) (nonempty : g.rows.toNat ≠ 0)
    (fits : g.rows.toNat ≤ 128) (enabled : s.rdF d (pgMxe b) 0x0C0 0 1 = 1) :
    s.gatherSubmit d b g = s.gqAccept d b g := by
  have notDisabled : s.rdF d (pgMxe b) 0x0C0 0 1 ≠ 0 := by
    rw [enabled]
    decide
  simp only [State.gatherSubmit, slot, bound, nonempty, Nat.not_lt.mpr fits, notDisabled, decide_true, Bool.and_self,
    Bool.not_true, Bool.false_eq_true, or_self, if_false]

theorem execGatherSubmit_awake {d : Die} {b : Bay} {s : State} (g : GatherSub)
    (awake : s.inReset d (pgMxe b) = false) : execGatherSubmit d b g s = .next (s.gatherSubmit d b g) := by
  simp only [execGatherSubmit, awake, Bool.false_eq_true, if_false]

theorem execGatherRoundTimeout_of_due {d : Die} {b : Bay} {s : State} (opened : (s.gatherOf d b).opened ≠ [])
    (due : (s.gatherOf d b).since + 1000 * s.gqTimeout d b ≤ s.now d) :
    execGatherRoundTimeout d b s =
      .next ((s.setGather d b (s.gatherOf d b).close).incF d (pgMxe b) 0x0D0 32 16 1) := by
  have late : ¬ ((s.gatherOf d b).opened.isEmpty = true ∨
      s.now d < (s.gatherOf d b).since + 1000 * s.gqTimeout d b) := by
    rw [not_or, List.isEmpty_iff, Nat.not_lt]
    exact ⟨opened, due⟩
  exact congrArg Host.Outcome.next (if_neg late)

/-- A queue that a write disables drops its open round. -/
theorem execGatherQueueDisable_of_win {s : State} {w : Writer} {d : Die} {b : Bay} {c : Committed}
    (wrote : c = s.write1 d (pgMxe b) 0x0C0 w (putBits (s.rd d (pgMxe b) 0x0C0) 0 1 0))
    (acts : c.win.isSome = true) (disabled : c.s.rdF d (pgMxe b) 0x0C0 0 1 = 0) :
    execGatherQueueDisable w d b s = .next (c.s.gqDropWhere d b fun _ => true) := by
  subst wrote
  exact congrArg Host.Outcome.next ((Committed.then_of_win acts _).trans (if_pos disabled))

/-! ### The layer gate (08 R173, R174) -/

/-- Every bay that waits at a layer's gate goes on, with `more` put before what is left of its list. -/
def State.openGate (s : State) (layer : Nat) (more : State → Nat × Nat → List TileRef) : State :=
  let u := { s with step := { s.step with gates := s.step.gates ++ [layer] } }
  allBays.foldl (fun t x => if (t.bookMxe x.1 x.2).gate = some layer then
    t.onBookMxe x.1 x.2 fun m => { m with gate := none, ovfHold := false, work := more t x ++ m.work } else t) u

/-- A layer's run is to be repeated: noted, counted in STP and logged. -/
def State.noteRepeat (s : State) (layer : Nat) (l : Layer) (tile kind : Nat) : State :=
  let u := { s with step := { s.step with repeated := s.step.repeated ++ [layer] } }.satF 0 pgStp 0x120 0 16 1
  (u.wr 0 pgStp 0x128 (l.layerId % 2 ^ 32 + kind % 4 * 2 ^ 32)).logAt 0 srcHw .fallback
    [u.stepNum, l.layerId, tile, kind]

section
variable {s : State} {layer : Nat} {bk : Book} {l : Layer} (active : s.books.active = some bk)
  (names : bk.layers[layer]? = some l) (waits : (allBays.any fun x => (s.bookMxe x.1 x.2).gate = some layer) = true)
  (done : s.gateDone l layer = true)
include active names waits done

/-- A layer whose run need not be repeated: its bays go on with their lists. -/
theorem execLayerGateOpen_once
    (good : ((Tab.find s.step.layerEv layer).isSome && l.cls = 0 && narrowFmt l.format) = false) :
    execLayerGateOpen layer s = .next (s.openGate layer fun _ _ => []) := by
  simp only [execLayerGateOpen, active, names, waits, done, good, Bool.not_true, Bool.false_eq_true, Bool.true_eq_false,
    or_self, if_false, State.openGate]

/-- A repeatable layer that had an event: its bays first run their FALLBACK descriptors. -/
theorem execLayerGateOpen_repeated {tile kind : Nat} (event : Tab.find s.step.layerEv layer = some (tile, kind))
    (repeatable : l.cls = 0) (narrow : narrowFmt l.format = true)
    {u : State} (noted : u = s.noteRepeat layer l tile kind) :
    execLayerGateOpen layer s = .next (u.openGate layer fun t x => fallbackOf bk l ((t.lbayOf x.1 x.2).getD 32)) := by
  subst noted
  simp only [execLayerGateOpen, active, names, waits, done, event, repeatable, narrow, Option.isSome_some, decide_true,
    Bool.and_self, Bool.not_true, Bool.false_eq_true, Bool.true_eq_false, or_self, if_false, if_true, State.openGate,
    State.noteRepeat]

end

/-- Settles O29: each clause is the command's own equation under the conditions that the clause names; MMA_GATHER by
whether a round is being placed and whether it stands in staging. -/
theorem matrixCommandsComplete : Obligations.MatrixCommandsComplete := by
  unfold Obligations.MatrixCommandsComplete
  refine ⟨?mma, ?gatherRuns, ?gatherGoesOn, ?gatherWaits, ?syncWait, ?syncAdd, ?mxeEnd, ?drain, ?parity,
    ?errorResponse, ?submit, ?roundTimeout, ?disable, ?slots, ?gate, ?gateRepeats⟩
  case mma =>
    rintro d b r t _ s head rfl -
    exact execMma_of_head head
  case gatherRuns =>
    rintro d b r t g rest run _ v w s head idle closed free rfl places issued answered running mapped counted
    exact (execMmaGather_of_closed head idle closed free).trans
      (congrArg _ (gatherRun_of_placed places issued answered running mapped counted))
  case gatherGoesOn =>
    rintro d b r t z run _ v w s head placing rfl places issued answered running mapped counted
    exact (execMmaGather_of_placing head placing).trans
      (congrArg _ (gatherRun_of_placed places issued answered running mapped counted))
  case gatherWaits =>
    rintro d b r t g rest run _ s head idle closed free rfl places waits
    exact (execMmaGather_of_closed head idle closed free).trans (congrArg _ (gatherRun_of_waiting r t places waits))
  case syncWait => exact fun _ _ _ _ _ => execSyncWait_of_head
  case syncAdd => exact fun _ _ _ _ _ => execSyncAdd_of_drained
  case mxeEnd => exact fun _ _ _ _ _ _ => execMxeEnd_of_head
  case drain => exact fun _ _ flips _ _ _ _ => execTileDrainComplete_of_drain flips
  case parity => exact fun _ _ _ _ => execArrayParityError_of_service
  case errorResponse => exact fun _ _ _ _ remote _ _ => execSyncErrorResponse_of_owner remote
  case submit =>
    rintro d b g s awake slot bound nonempty fits enabled
    exact (execGatherSubmit_awake g awake).trans
      (congrArg _ (gatherSubmit_of_bound slot bound nonempty fits enabled))
  case roundTimeout => exact fun _ _ _ => execGatherRoundTimeout_of_due
  case disable => exact fun _ _ _ _ _ => execGatherQueueDisable_of_win
  case slots => exact fun _ _ _ _ _ _ _ => execGqSlotsWrite_of_win
  case gate =>
    rintro layer bk l _ s active names waits done good rfl
    exact execLayerGateOpen_once active names waits done good
  case gateRepeats =>
    rintro layer tile kind bk l _ v s active names waits done event repeatable narrow noted rfl
    exact execLayerGateOpen_repeated (u := v) active names waits done event repeatable narrow noted

end Sys2Proof.Machine
end

section
/-! SUPPORT. A NaN among the operands of the vector engine's floating-point arithmetic. The exact sum and the exact
product of values one of which is NaN are NaN, so that rounding gives the canonical NaN, and no operation on a NaN is
itself invalid, so that the flags come from the signalling operands alone. -/

namespace Sys2Proof.Machine

/-! ### Exact values -/

@[simp] theorem XNum.isNan_nan (s : Bool) : (XNum.nan s).isNan = true := rfl
@[simp] theorem XNum.isNan_inf (neg : Bool) : (XNum.inf neg).isNan = false := rfl
@[simp] theorem XNum.isSnan_nan (s : Bool) : (XNum.nan s).isSnan = s := rfl

theorem XNum.isNan_iff {x : XNum} : x.isNan = true ↔ ∃ s, x = .nan s := by
  cases x <;> simp [XNum.isNan]

@[simp] theorem XNum.isNan_neg (x : XNum) : x.neg.isNan = x.isNan := by cases x <;> rfl
@[simp] theorem XNum.isSnan_neg (x : XNum) : x.neg.isSnan = x.isSnan := by cases x <;> rfl

/-- An operand that an operation may negate is a NaN exactly where it is one unnegated. -/
@[simp] theorem XNum.isNan_ite_neg (neg : Bool) (x : XNum) : (if neg then x.neg else x).isNan = x.isNan := by
  cases neg <;> simp

@[simp] theorem XNum.isSnan_ite_neg (neg : Bool) (x : XNum) : (if neg then x.neg else x).isSnan = x.isSnan := by
  cases neg <;> simp

section
variable {x y : XNum} (nan : x.isNan = true ∨ y.isNan = true)
include nan

theorem XNum.isNan_add (rdn : Bool) : (x.add rdn y).isNan = true := by
  simp only [XNum.isNan_iff] at nan
  obtain ⟨s, rfl⟩ | ⟨s, rfl⟩ := nan
  · cases y <;> rfl
  · cases x <;> rfl

theorem XNum.isNan_mul : (x.mul y).isNan = true := by
  simp only [XNum.isNan_iff] at nan
  obtain ⟨s, rfl⟩ | ⟨s, rfl⟩ := nan
  · cases y <;> rfl
  · cases x <;> rfl

theorem mulInvalid_of_isNan : mulInvalid x y = false := by
  simp only [XNum.isNan_iff] at nan
  obtain ⟨s, rfl⟩ | ⟨s, rfl⟩ := nan
  · rfl
  · cases x with
    | nan | inf => rfl
    | fin n m e => cases m <;> rfl

end

/-! ### Rounding and the operations on encodings -/

theorem roundOp_of_isNan (f : FpFmt) (mode : RMode) (nv : Bool) {x : XNum} (nan : x.isNan = true) :
    roundOp f mode nv x = ⟨f.canonNan, .none, if nv then flNV else 0⟩ := by
  obtain ⟨s, rfl⟩ := XNum.isNan_iff.1 nan
  rfl

section
variable {g : FpFmt} {a b : Nat} (m : RMode) (nan : (g.decode a).isNan = true ∨ (g.decode b).isNan = true)
include nan

theorem fpAdd_of_isNan (sub : Bool) :
    fpAdd g m sub a b = ⟨g.canonNan, .none, if (g.decode a).isSnan || (g.decode b).isSnan then flNV else 0⟩ := by
  have operand : (g.decode a).isNan = true ∨ (if sub then (g.decode b).neg else g.decode b).isNan = true := by
    rwa [XNum.isNan_ite_neg]
  simp only [fpAdd, roundOp_of_isNan g m _ (XNum.isNan_add operand _), XNum.isSnan_ite_neg]
  split
  · next inf_x inf_y => simp [inf_x, inf_y] at operand
  · rw [Bool.or_false]

theorem fpMul_of_isNan :
    fpMul g m a b = ⟨g.canonNan, .none, if (g.decode a).isSnan || (g.decode b).isSnan then flNV else 0⟩ := by
  simp only [fpMul, roundOp_of_isNan g m _ (XNum.isNan_mul nan), mulInvalid_of_isNan nan, Bool.or_false]

theorem fpDiv_of_isNan :
    fpDiv g m a b = ⟨g.canonNan, .none, if (g.decode a).isSnan || (g.decode b).isSnan then flNV else 0⟩ := by
  simp only [XNum.isNan_iff] at nan
  obtain ⟨s, ha⟩ | ⟨s, hb⟩ := nan
  · simp only [fpDiv, ha, roundOp_of_isNan g m _ (XNum.isNan_nan false)]
  · cases ha : g.decode a <;> simp only [fpDiv, ha, hb, roundOp_of_isNan g m _ (XNum.isNan_nan false)]

theorem fpFma_enc_of_isNan (nanNv negProd negAdd : Bool) (c : Nat) :
    (fpFma g m nanNv negProd negAdd a b c).enc = g.canonNan := by
  have product := (XNum.isNan_ite_neg negProd _).trans (XNum.isNan_mul nan)
  simp only [fpFma, roundOp_of_isNan g m _ (XNum.isNan_add (.inl product) _)]

end

theorem fpSqrt_of_isNan {g : FpFmt} {a : Nat} (m : RMode) (nan : (g.decode a).isNan = true) :
    fpSqrt g m a = ⟨g.canonNan, .none, if (g.decode a).isSnan then flNV else 0⟩ := by
  obtain ⟨s, ha⟩ := XNum.isNan_iff.1 nan
  simp only [fpSqrt, ha, roundOp_of_isNan g m _ (XNum.isNan_nan false), XNum.isSnan_nan]

/-- Settles O14: each operation rounds an exact NaN, and a NaN operand leaves it no other cause of NV. -/
theorem nanOperands : Obligations.NanOperands := by
  unfold Obligations.NanOperands
  exact fun _ m neg _ _ nan => ⟨fpAdd_of_isNan m nan neg, fpMul_of_isNan m nan, fpDiv_of_isNan m nan, fpSqrt_of_isNan m,
    fpFma_enc_of_isNan m nan⟩

end Sys2Proof.Machine
end

section
/-! SUPPORT. The vector engine's words and the commands they spell (09 R188, Tables 9-2 to 9-4). Each layout of Table
9-2 is a number in mixed radix, so its fields read back what the word was made of, and a word is made of its fields; the
commands are tied to their words by `Spells`, one constructor for each class of instruction. -/

namespace Sys2Proof.Machine

/-- The word that a command on a bay spells, by the class of its instruction. -/
inductive Spells (u : Unit36) : Instr → Nat → Prop
  | elem {a func i} : elemInsn u a func = some i → Spells u i (wordE func a)
  | fused {a func i} : fusedInsn u a func = some i → Spells u i (wordF func a)
  | cmp {a func i} : cmpInsn u a func = some i → Spells u i (wordK func a)
  | red {a func i} : a.scalar = false → redInsn u a func = some i → Spells u i (wordV 0x4 func a)
  | cvt {a} : Spells u (.vxeCvt u a) (wordC a)
  | load {a} : Spells u (.vxeLoad u a) (wordL false a)
  | store {a} : Spells u (.vxeStore u a) (wordL true a)
  | cfg {a func i} : cfgInsn u a func = some i → Spells u i (wordS 0x7 func a)
  | msk {a func i} : mskInsn u a func = some i → Spells u i (wordM func a)
  | scl {a func i} : sclInsn u a func = some i → Spells u i (wordS 0x9 func a)
  | ctl {a func i} : ctlInsn u a func = some i → Spells u i (wordS 0xA func a)

/-- The cases follow `encodeVxe`: the 24 functions of Table 9-3, then class by class those of Table 9-4. -/
theorem spells_of_encodeVxe {i : Instr} {w : Nat} (h : encodeVxe i = some w) : ∃ u, Spells u i w := by
  unfold encodeVxe at h
  split at h
  iterate 24 · cases h; exact ⟨_, .elem rfl⟩
  iterate 4 · cases h; exact ⟨_, .fused rfl⟩
  iterate 5 · cases h; exact ⟨_, .cmp rfl⟩
  iterate 6
    · simp only [wordR] at h
      split at h
      · cases h
      · next vector => cases h; exact ⟨_, .red (by simpa using vector) rfl⟩
  · cases h; exact ⟨_, .cvt⟩
  · cases h; exact ⟨_, .load⟩
  · cases h; exact ⟨_, .store⟩
  iterate 12 · cases h; exact ⟨_, .cfg rfl⟩
  iterate 7 · cases h; exact ⟨_, .msk rfl⟩
  iterate 11 · cases h; exact ⟨_, .scl rfl⟩
  iterate 11 · cases h; exact ⟨_, .ctl rfl⟩
  · cases h

/-! What each table of instructions holds: functions that its field of the word can name, and their words. -/

theorem elemInsn_eq_some {u : Unit36} {a : VArgs} {func : Nat} {i : Instr} (h : elemInsn u a func = some i) :
    func < 32 ∧ encodeVxe i = some (wordE func a) := by
  unfold elemInsn at h
  split at h <;> cases h <;> exact ⟨by decide, rfl⟩

theorem fusedInsn_eq_some {u : Unit36} {a : VArgs} {func : Nat} {i : Instr} (h : fusedInsn u a func = some i) :
    func < 4 ∧ encodeVxe i = some (wordF func a) := by
  unfold fusedInsn at h
  split at h <;> cases h <;> exact ⟨by decide, rfl⟩

theorem cmpInsn_eq_some {u : Unit36} {a : VArgs} {func : Nat} {i : Instr} (h : cmpInsn u a func = some i) :
    func < 16 ∧ encodeVxe i = some (wordK func a) := by
  unfold cmpInsn at h
  split at h <;> cases h <;> exact ⟨by decide, rfl⟩

theorem redInsn_eq_some {u : Unit36} {a : VArgs} {func : Nat} {i : Instr} (h : redInsn u a func = some i) :
    func < 32 ∧ encodeVxe i = wordR func a := by
  unfold redInsn at h
  split at h <;> cases h <;> exact ⟨by decide, rfl⟩

theorem cfgInsn_eq_some {u : Unit36} {a : SArgs} {func : Nat} {i : Instr} (h : cfgInsn u a func = some i) :
    func < 32 ∧ encodeVxe i = some (wordS 0x7 func a) := by
  unfold cfgInsn at h
  split at h <;> cases h <;> exact ⟨by decide, rfl⟩

theorem mskInsn_eq_some {u : Unit36} {a : MArgs} {func : Nat} {i : Instr} (h : mskInsn u a func = some i) :
    func < 32 ∧ encodeVxe i = some (wordM func a) := by
  unfold mskInsn at h
  split at h <;> cases h <;> exact ⟨by decide, rfl⟩

theorem sclInsn_eq_some {u : Unit36} {a : SArgs} {func : Nat} {i : Instr} (h : sclInsn u a func = some i) :
    func < 32 ∧ encodeVxe i = some (wordS 0x9 func a) := by
  unfold sclInsn at h
  split at h <;> cases h <;> exact ⟨by decide, rfl⟩

theorem ctlInsn_eq_some {u : Unit36} {a : SArgs} {func : Nat} {i : Instr} (h : ctlInsn u a func = some i) :
    func < 32 ∧ encodeVxe i = some (wordS 0xA func a) := by
  unfold ctlInsn at h
  split at h <;> cases h <;> exact ⟨by decide, rfl⟩

theorem Spells.encodes {u : Unit36} {i : Instr} {w : Nat} (h : Spells u i w) : encodeVxe i = some w := by
  cases h with
  | elem h => exact (elemInsn_eq_some h).2
  | fused h => exact (fusedInsn_eq_some h).2
  | cmp h => exact (cmpInsn_eq_some h).2
  | red vector h => simp only [(redInsn_eq_some h).2, wordR, vector, Bool.false_eq_true, if_false]
  | cvt | load | store => rfl
  | cfg h => exact (cfgInsn_eq_some h).2
  | msk h => exact (mskInsn_eq_some h).2
  | scl h => exact (sclInsn_eq_some h).2
  | ctl h => exact (ctlInsn_eq_some h).2

/-! ### The layouts of Table 9-2: each field reads back what the word was made of -/

theorem vf_eq (w lo n : Nat) : vf w lo n = w / 2 ^ lo % 2 ^ n := rfl

theorem vf_lt (w lo n : Nat) : vf w lo n < 2 ^ n := Nat.mod_lt _ (Nat.two_pow_pos n)

/-- A field of one bit as a truth value and as a number. -/
theorem toNat_bit (w lo : Nat) : (decide (vf w lo 1 = 1)).toNat = vf w lo 1 := by
  have bit := vf_lt w lo 1
  obtain zero | one : vf w lo 1 = 0 ∨ vf w lo 1 = 1 := by omega
  · simp only [zero, Nat.zero_ne_one, decide_false, Bool.toNat_false]
  · simp only [one, decide_true, Bool.toNat_true]

theorem decide_toNat_eq_one (b : Bool) : decide (b.toNat = 1) = b := by cases b <;> rfl

section
variable {cls func : Nat} (classInWord : cls < 16) (funcInWord : func < 32)
include classInWord funcInWord

theorem vf_wordV (a : VArgs) : vf (wordV cls func a) 28 4 = cls ∧ vf (wordV cls func a) 23 5 = func ∧
    argsV (wordV cls func a) a.scalar = a := by
  obtain ⟨vd, vs1, vs2, scalar, men, msel, rm⟩ := a
  have bit := men.toNat_lt
  have enable : vf (wordV cls func ⟨vd, vs1, vs2, scalar, men, msel, rm⟩) 7 1 = men.toNat := by
    simp only [vf_eq, wordV]; omega
  simp only [argsV, VArgs.mk.injEq, enable, decide_toNat_eq_one, Fin.ext_iff, Fin.val_ofNat, ← BitVec.toNat_inj,
    BitVec.toNat_ofNat, true_and]
  simp only [vf_eq, wordV]
  omega

theorem vf_wordS (a : SArgs) : vf (wordS cls func a) 28 4 = cls ∧ vf (wordS cls func a) 23 5 = func ∧
    argsS (wordS cls func a) = a := by
  obtain ⟨sx, sy, imm⟩ := a
  simp only [argsS, SArgs.mk.injEq, vf_eq, wordS, Fin.ext_iff, Fin.val_ofNat, ← BitVec.toNat_inj, BitVec.toNat_ofNat]
  omega

omit classInWord in
theorem vf_wordM (a : MArgs) : vf (wordM func a) 28 4 = 0x8 ∧ vf (wordM func a) 23 5 = func ∧
    argsM (wordM func a) = a := by
  obtain ⟨md, ms1, ms2⟩ := a
  simp only [argsM, MArgs.mk.injEq, vf_eq, wordM, Fin.ext_iff, Fin.val_ofNat]
  omega

end

theorem vf_wordC (a : CvtArgs) : vf (wordC a) 28 4 = 0x5 ∧ argsC (wordC a) = a := by
  obtain ⟨dfmt, sfmt, vd, vs1, dscale, sscale, men, msel, rm⟩ := a
  have bit := men.toNat_lt
  have enable : vf (wordC ⟨dfmt, sfmt, vd, vs1, dscale, sscale, men, msel, rm⟩) 7 1 = men.toNat := by
    simp only [vf_eq, wordC]; omega
  simp only [argsC, CvtArgs.mk.injEq, enable, decide_toNat_eq_one, Fin.ext_iff, Fin.val_ofNat, ← BitVec.toNat_inj,
    BitVec.toNat_ofNat, true_and]
  simp only [vf_eq, wordC]
  omega

theorem vf_wordL (store : Bool) (a : LsArgs) :
    vf (wordL store a) 28 4 = 0x6 ∧ vf (wordL store a) 23 1 = store.toNat ∧ argsL (wordL store a) = a := by
  obtain ⟨mfmt, vd, sbase, sstride, men, msel⟩ := a
  have bit := men.toNat_lt
  have direction := store.toNat_lt
  have enable : vf (wordL store ⟨mfmt, vd, sbase, sstride, men, msel⟩) 7 1 = men.toNat := by
    simp only [vf_eq, wordL]; omega
  simp only [argsL, LsArgs.mk.injEq, enable, decide_toNat_eq_one, Fin.ext_iff, Fin.val_ofNat, ← BitVec.toNat_inj,
    BitVec.toNat_ofNat, true_and]
  simp only [vf_eq, wordL]
  omega

/-! ### The layouts of Table 9-2: a word is made of its fields -/

/-- The bits of a word below `lo + n` are the field of `n` bits at `lo` and the bits below it. -/
theorem mod_eq_vf_add (w lo n : Nat) : w % 2 ^ (lo + n) = vf w lo n * 2 ^ lo + w % 2 ^ lo := by
  rw [Nat.pow_add, Nat.mod_mul, vf_eq, Nat.mul_comm, Nat.add_comm]

theorem vf_zero (w n : Nat) : vf w 0 n = w % 2 ^ n := by rw [vf_eq, Nat.pow_zero, Nat.div_one]

/-! A field is no wider than the operand that it names. -/

theorem vf_mod (w lo n : Nat) : vf w lo n % 2 ^ n = vf w lo n := Nat.mod_mod _ _
theorem vf_mod_4 (w lo : Nat) : vf w lo 2 % 4 = vf w lo 2 := vf_mod w lo 2
theorem vf_mod_16 (w lo : Nat) : vf w lo 4 % 16 = vf w lo 4 := vf_mod w lo 4
theorem vf_mod_32 (w lo : Nat) : vf w lo 5 % 32 = vf w lo 5 := vf_mod w lo 5

theorem wordV_argsV {w : Nat} (reserved : vf w 0 2 = 0) (scalar : Bool) :
    wordV (vf w 28 4) (vf w 23 5) (argsV w scalar) = w % 2 ^ 32 := by
  rw [vf_zero] at reserved
  rw [mod_eq_vf_add w 28 4, mod_eq_vf_add w 23 5, mod_eq_vf_add w 18 5, mod_eq_vf_add w 13 5, mod_eq_vf_add w 8 5,
    mod_eq_vf_add w 7 1, mod_eq_vf_add w 5 2, mod_eq_vf_add w 2 3, reserved]
  simp only [wordV, argsV, Fin.val_ofNat, BitVec.toNat_ofNat, toNat_bit, vf_mod, vf_mod_4, vf_mod_32, Nat.add_assoc,
    Nat.add_zero]

theorem wordC_argsC {w : Nat} (cls : vf w 28 4 = 0x5) : wordC (argsC w) = w % 2 ^ 32 := by
  rw [mod_eq_vf_add w 28 4, mod_eq_vf_add w 24 4, mod_eq_vf_add w 20 4, mod_eq_vf_add w 15 5, mod_eq_vf_add w 10 5,
    mod_eq_vf_add w 8 2, mod_eq_vf_add w 7 1, mod_eq_vf_add w 5 2, mod_eq_vf_add w 2 3, ← vf_zero, cls]
  simp only [wordC, argsC, Fin.val_ofNat, BitVec.toNat_ofNat, toNat_bit, vf_mod, vf_mod_4, vf_mod_32, Nat.add_assoc]

theorem wordL_argsL {w : Nat} (cls : vf w 28 4 = 0x6) (reserved : vf w 8 2 = 0) (reserved' : vf w 0 5 = 0) :
    wordL (decide (vf w 23 1 = 1)) (argsL w) = w % 2 ^ 32 := by
  rw [vf_zero] at reserved'
  rw [mod_eq_vf_add w 28 4, mod_eq_vf_add w 24 4, mod_eq_vf_add w 23 1, mod_eq_vf_add w 18 5, mod_eq_vf_add w 14 4,
    mod_eq_vf_add w 10 4, mod_eq_vf_add w 8 2, mod_eq_vf_add w 7 1, mod_eq_vf_add w 5 2, cls, reserved, reserved']
  simp only [wordL, argsL, Fin.val_ofNat, BitVec.toNat_ofNat, toNat_bit, vf_mod, vf_mod_4, vf_mod_16, vf_mod_32,
    Nat.add_assoc, Nat.add_zero, Nat.zero_mul, Nat.zero_add]

theorem wordS_argsS (w : Nat) : wordS (vf w 28 4) (vf w 23 5) (argsS w) = w % 2 ^ 32 := by
  rw [mod_eq_vf_add w 28 4, mod_eq_vf_add w 23 5, mod_eq_vf_add w 19 4, mod_eq_vf_add w 15 4, ← vf_zero]
  simp only [wordS, argsS, Fin.val_ofNat, BitVec.toNat_ofNat, vf_mod, vf_mod_16, Nat.add_assoc]

/-- In class 0x8 MSEL masks nothing, and the word that is spelled has 0 there. -/
theorem wordM_argsM {w : Nat} (cls : vf w 28 4 = 0x8) (md : vf w 18 5 < 4) (ms1 : vf w 13 5 < 4) (ms2 : vf w 8 5 < 4)
    (men : vf w 7 1 = 0) (rm : vf w 2 3 = 0) (reserved : vf w 0 2 = 0) :
    wordM (vf w 23 5) (argsM w) = w % 2 ^ 32 - vf w 5 2 * 2 ^ 5 := by
  rw [vf_zero] at reserved
  rw [mod_eq_vf_add w 28 4, mod_eq_vf_add w 23 5, mod_eq_vf_add w 18 5, mod_eq_vf_add w 13 5, mod_eq_vf_add w 8 5,
    mod_eq_vf_add w 7 1, mod_eq_vf_add w 5 2, mod_eq_vf_add w 2 3, cls, men, rm, reserved]
  simp only [wordM, argsM, Fin.val_ofNat, Nat.mod_eq_of_lt md, Nat.mod_eq_of_lt ms1, Nat.mod_eq_of_lt ms2]
  omega

/-! ### FUNC of the classes whose last bit of FUNC says that the second operand is a scalar -/

theorem mod_add_mul_toNat {func k : Nat} (lt : func < 2 * k) : func % k + k * (decide (k ≤ func)).toNat = func := by
  by_cases scalar : k ≤ func
  · rw [Nat.mod_eq_sub_mod scalar, Nat.mod_eq_of_lt (by omega)]
    simp only [scalar, decide_true, Bool.toNat_true]
    omega
  · simp only [scalar, decide_false, Bool.toNat_false, Nat.mod_eq_of_lt (Nat.lt_of_not_le scalar), Nat.mul_zero,
      Nat.add_zero]

theorem add_mul_toNat_mod {func k : Nat} (lt : func < k) (scalar : Bool) : (func + k * scalar.toNat) % k = func := by
  rw [Nat.add_mul_mod_self_left, Nat.mod_eq_of_lt lt]

theorem le_add_mul_toNat {func k : Nat} (lt : func < k) (scalar : Bool) :
    decide (k ≤ func + k * scalar.toNat) = scalar := by
  cases scalar <;> simp [lt]

@[simp] theorem argsV_scalar (w : Nat) (scalar : Bool) : (argsV w scalar).scalar = scalar := rfl

section
variable {w : Nat} (reserved : vf w 0 2 = 0)
include reserved

theorem wordE_argsV {scalar : Bool} (cls : vf w 28 4 = scalar.toNat) :
    wordE (vf w 23 5) (argsV w scalar) = w % 2 ^ 32 := by
  rw [wordE, argsV_scalar, ← wordV_argsV reserved scalar, cls]

theorem wordF_argsV (cls : vf w 28 4 = 0x2) (func : vf w 23 5 < 8) :
    wordF (vf w 23 5 % 4) (argsV w (4 ≤ vf w 23 5)) = w % 2 ^ 32 := by
  rw [wordF, argsV_scalar, mod_add_mul_toNat func, ← wordV_argsV reserved (4 ≤ vf w 23 5), cls]

theorem wordK_argsV (cls : vf w 28 4 = 0x3) : wordK (vf w 23 5 % 16) (argsV w (16 ≤ vf w 23 5)) = w % 2 ^ 32 := by
  rw [wordK, argsV_scalar, mod_add_mul_toNat (vf_lt w 23 5), ← wordV_argsV reserved (16 ≤ vf w 23 5), cls]

end

/-! ### The commands that words spell, and the words of commands -/

/-- The reserved bits of layout V are 0 in a valid word. -/
theorem reserved_of_vwordOk {w : Nat} (valid : vwordOk w = true) (cls : vf w 28 4 < 5) : vf w 0 2 = 0 := by
  refine Decidable.byContradiction fun nonzero => ?_
  obtain cls | cls | cls | cls | cls :
    vf w 28 4 = 0 ∨ vf w 28 4 = 1 ∨ vf w 28 4 = 2 ∨ vf w 28 4 = 3 ∨ vf w 28 4 = 4 := by omega
  all_goals simp only [vwordOk, cls, nonzero, decide_false, Bool.false_and, Bool.false_eq_true] at valid

/-- What a word decodes to spells the word again, class by class; in class 0x8 with 0 for MSEL. -/
theorem spells_of_decodeVxe {u : Unit36} {w : Nat} {i : Instr} (h : decodeVxe u w = some i) :
    Spells u i (w % 2 ^ 32 - if vf w 28 4 = 8 then vf w 5 2 * 2 ^ 5 else 0) := by
  unfold decodeVxe at h
  split at h
  · cases h
  next valid =>
  rw [Bool.not_eq_false] at valid
  split at h
  next cls =>
    rw [cls, if_neg (by decide), Nat.sub_zero,
      ← wordE_argsV (reserved_of_vwordOk valid (by omega)) (scalar := false) cls]
    exact .elem h
  next cls =>
    rw [cls, if_neg (by decide), Nat.sub_zero,
      ← wordE_argsV (reserved_of_vwordOk valid (by omega)) (scalar := true) cls]
    exact .elem h
  next cls =>
    obtain ⟨⟨-, func⟩, -⟩ : (_ ∧ vf w 23 5 < 8) ∧ _ := by
      simpa only [vwordOk, cls, Bool.and_eq_true, decide_eq_true_eq] using valid
    rw [cls, if_neg (by decide), Nat.sub_zero, ← wordF_argsV (reserved_of_vwordOk valid (by omega)) cls func]
    exact .fused h
  next cls =>
    rw [cls, if_neg (by decide), Nat.sub_zero, ← wordK_argsV (reserved_of_vwordOk valid (by omega)) cls]
    exact .cmp h
  next cls =>
    rw [cls, if_neg (by decide), Nat.sub_zero, ← wordV_argsV (reserved_of_vwordOk valid (by omega)) false, cls]
    exact .red rfl h
  next cls =>
    rw [cls, if_neg (by decide), Nat.sub_zero, ← wordC_argsC cls]
    cases h
    exact .cvt
  next cls =>
    obtain ⟨⟨-, reserved⟩, reserved'⟩ : (_ ∧ vf w 8 2 = 0) ∧ vf w 0 5 = 0 := by
      simpa only [vwordOk, cls, Bool.and_eq_true, decide_eq_true_eq] using valid
    rw [cls, if_neg (by decide), Nat.sub_zero, ← wordL_argsL cls reserved reserved']
    cases h
    split
    next store => simp only [store, decide_true]; exact .store
    next load => simp only [load, decide_false]; exact .load
  next cls =>
    rw [cls, if_neg (by decide), Nat.sub_zero, ← wordS_argsS, cls]
    exact .cfg h
  next cls =>
    obtain ⟨⟨⟨⟨reserved, rm⟩, men⟩, -⟩, md, ms1, ms2⟩ :
        (((vf w 0 2 = 0 ∧ vf w 2 3 = 0) ∧ vf w 7 1 = 0) ∧ _) ∧ vf w 18 5 < 4 ∧ vf w 13 5 < 4 ∧ vf w 8 5 < 4 := by
      simpa only [vwordOk, cls, Bool.and_eq_true, decide_eq_true_eq] using valid
    rw [if_pos cls, ← wordM_argsM cls md ms1 ms2 men rm reserved]
    exact .msk h
  next cls =>
    rw [cls, if_neg (by decide), Nat.sub_zero, ← wordS_argsS, cls]
    exact .scl h
  next cls =>
    rw [cls, if_neg (by decide), Nat.sub_zero, ← wordS_argsS, cls]
    exact .ctl h
  · cases h

/-! The table that a valid word of each class is read from. -/

section
variable {w : Nat} (valid : vwordOk w = true) (u : Unit36)
include valid

theorem decodeVxe_elem (scalar : Bool) (cls : vf w 28 4 = scalar.toNat) :
    decodeVxe u w = elemInsn u (argsV w scalar) (vf w 23 5) := by
  cases scalar <;> simp only [decodeVxe, valid, cls, Bool.true_eq_false, if_false, Bool.toNat_false, Bool.toNat_true]

theorem decodeVxe_fused (cls : vf w 28 4 = 0x2) :
    decodeVxe u w = fusedInsn u (argsV w (4 ≤ vf w 23 5)) (vf w 23 5 % 4) := by
  simp only [decodeVxe, valid, cls, Bool.true_eq_false, if_false]

theorem decodeVxe_cmp (cls : vf w 28 4 = 0x3) :
    decodeVxe u w = cmpInsn u (argsV w (16 ≤ vf w 23 5)) (vf w 23 5 % 16) := by
  simp only [decodeVxe, valid, cls, Bool.true_eq_false, if_false]

theorem decodeVxe_red (cls : vf w 28 4 = 0x4) : decodeVxe u w = redInsn u (argsV w false) (vf w 23 5) := by
  simp only [decodeVxe, valid, cls, Bool.true_eq_false, if_false]

theorem decodeVxe_cvt (cls : vf w 28 4 = 0x5) : decodeVxe u w = some (.vxeCvt u (argsC w)) := by
  simp only [decodeVxe, valid, cls, Bool.true_eq_false, if_false]

theorem decodeVxe_loadStore (cls : vf w 28 4 = 0x6) :
    decodeVxe u w = some (if vf w 23 1 = 1 then .vxeStore u (argsL w) else .vxeLoad u (argsL w)) := by
  simp only [decodeVxe, valid, cls, Bool.true_eq_false, if_false]

theorem decodeVxe_cfg (cls : vf w 28 4 = 0x7) : decodeVxe u w = cfgInsn u (argsS w) (vf w 23 5) := by
  simp only [decodeVxe, valid, cls, Bool.true_eq_false, if_false]

theorem decodeVxe_msk (cls : vf w 28 4 = 0x8) : decodeVxe u w = mskInsn u (argsM w) (vf w 23 5) := by
  simp only [decodeVxe, valid, cls, Bool.true_eq_false, if_false]

theorem decodeVxe_scl (cls : vf w 28 4 = 0x9) : decodeVxe u w = sclInsn u (argsS w) (vf w 23 5) := by
  simp only [decodeVxe, valid, cls, Bool.true_eq_false, if_false]

theorem decodeVxe_ctl (cls : vf w 28 4 = 0xA) : decodeVxe u w = ctlInsn u (argsS w) (vf w 23 5) := by
  simp only [decodeVxe, valid, cls, Bool.true_eq_false, if_false]

end

theorem decodeVxe_of_spells {u : Unit36} {i : Instr} {w : Nat} (h : Spells u i w) (valid : vwordOk w = true) :
    decodeVxe u w = some i := by
  cases h with
  | @elem a func _ h =>
    obtain ⟨cls, fn, args⟩ := vf_wordV (Nat.lt_trans a.scalar.toNat_lt (by decide)) (elemInsn_eq_some h).1 a
    rw [decodeVxe_elem valid u a.scalar cls, wordE, fn, args, h]
  | @fused a func _ h =>
    have func_lt := (fusedInsn_eq_some h).1
    have scalar_lt := a.scalar.toNat_lt
    obtain ⟨cls, fn, args⟩ := vf_wordV (cls := 0x2) (func := func + 4 * a.scalar.toNat) (by decide) (by omega) a
    rw [decodeVxe_fused valid u cls, wordF, fn, add_mul_toNat_mod func_lt, le_add_mul_toNat func_lt, args, h]
  | @cmp a func _ h =>
    have func_lt := (cmpInsn_eq_some h).1
    have scalar_lt := a.scalar.toNat_lt
    obtain ⟨cls, fn, args⟩ := vf_wordV (cls := 0x3) (func := func + 16 * a.scalar.toNat) (by decide) (by omega) a
    rw [decodeVxe_cmp valid u cls, wordK, fn, add_mul_toNat_mod func_lt, le_add_mul_toNat func_lt, args, h]
  | red vector h =>
    obtain ⟨cls, fn, args⟩ := vf_wordV (cls := 0x4) (by decide) (redInsn_eq_some h).1 _
    rw [decodeVxe_red valid u cls, fn, ← vector, args, h]
  | cvt =>
    obtain ⟨cls, args⟩ := vf_wordC _
    rw [decodeVxe_cvt valid u cls, args]
  | load =>
    obtain ⟨cls, direction, args⟩ := vf_wordL false _
    rw [decodeVxe_loadStore valid u cls, direction, args]
    rfl
  | store =>
    obtain ⟨cls, direction, args⟩ := vf_wordL true _
    rw [decodeVxe_loadStore valid u cls, direction, args]
    rfl
  | cfg h =>
    obtain ⟨cls, fn, args⟩ := vf_wordS (cls := 0x7) (by decide) (cfgInsn_eq_some h).1 _
    rw [decodeVxe_cfg valid u cls, fn, args, h]
  | msk h =>
    obtain ⟨cls, fn, args⟩ := vf_wordM (mskInsn_eq_some h).1 _
    rw [decodeVxe_msk valid u cls, fn, args, h]
  | scl h =>
    obtain ⟨cls, fn, args⟩ := vf_wordS (cls := 0x9) (by decide) (sclInsn_eq_some h).1 _
    rw [decodeVxe_scl valid u cls, fn, args, h]
  | ctl h =>
    obtain ⟨cls, fn, args⟩ := vf_wordS (cls := 0xA) (by decide) (ctlInsn_eq_some h).1 _
    rw [decodeVxe_ctl valid u cls, fn, args, h]

/-- Settles O20: a valid word and the command it decodes to, and a command and its word, both stand in `Spells`. -/
theorem vectorWordsRoundTrip : Obligations.VectorWordsRoundTrip := by
  unfold Obligations.VectorWordsRoundTrip
  refine ⟨?word, ?command⟩
  case word =>
    intro u w i inWord decodes
    rw [(spells_of_decodeVxe decodes).encodes, Nat.mod_eq_of_lt inWord]
  case command =>
    intro i w encodes valid
    obtain ⟨u, spells⟩ := spells_of_encodeVxe encodes
    exact ⟨u, decodeVxe_of_spells spells valid⟩

end Sys2Proof.Machine
end

section
/-! SUPPORT. What element-wise instructions of the vector engine leave (09 R184, R185, R187): one element of a register
after the writing of others, and the frame of the registers. -/

namespace Sys2Proof.Machine

/-! ### Formats in a register (09 R184, R185) -/

theorem Fmt.vlmax_mul_slot (f : Fmt) : f.vlmax * f.slot = 16384 := by cases f <;> rfl

/-- Settles O7: the widths of Table 7-1, of which one of less than 8 bits takes a slot of 8. -/
theorem vlmaxValues : Obligations.VlmaxValues := by
  unfold Obligations.VlmaxValues
  exact ⟨rfl, rfl, rfl, rfl, rfl, rfl, by decide, Fmt.vlmax_mul_slot⟩

theorem Fmt.width_le_slot (f : Fmt) : f.width ≤ f.slot := by
  unfold Fmt.slot
  split <;> omega

/-- Element j lies in front of slot i where j is below i. -/
theorem Fmt.slot_add_width_le (f : Fmt) {j i : Nat} (below : j < i) : f.slot * j + f.width ≤ f.slot * i :=
  calc f.slot * j + f.width ≤ f.slot * j + f.slot := Nat.add_le_add_left f.width_le_slot _
    _ = f.slot * (j + 1) := (Nat.mul_succ _ _).symm
    _ ≤ f.slot * i := Nat.mul_le_mul_left _ below

/-! ### Registers -/

@[simp] theorem VxeRegs.vreg_setV (r : VxeRegs) (n : Nat) (x : BitVec 16384) : (r.setV n x).vreg n = x := by
  rw [VxeRegs.vreg, VxeRegs.setV, Tab.get_set _ _ _ _ _ _ fun _ => rfl, if_pos rfl]

theorem VxeRegs.vreg_setV_other (r : VxeRegs) {n m : Nat} (x : BitVec 16384) (h : m ≠ n) :
    (r.setV n x).vreg m = r.vreg m := by
  rw [VxeRegs.vreg, VxeRegs.setV, Tab.get_set _ _ _ _ _ _ fun _ => rfl, if_neg h, VxeRegs.vreg]

@[simp] theorem VxeRegs.vreg_orFlags (r : VxeRegs) (fl n : Nat) : (r.orFlags fl).vreg n = r.vreg n := rfl
@[simp] theorem VxeRegs.vflags_orFlags (r : VxeRegs) (fl : Nat) : (r.orFlags fl).vflags = r.vflags ||| fl := rfl
@[simp] theorem VxeRegs.vflags_setV (r : VxeRegs) (n : Nat) (x : BitVec 16384) : (r.setV n x).vflags = r.vflags := rfl

/-- No element is active below 0. -/
@[simp] theorem orFlagsOf_zero (act : Nat → Bool) (fl : Nat → Nat) : orFlagsOf act fl 0 = 0 := rfl

/-! ### Elements of a register (09 R184, R187) -/

/-- Element `i` of a register in a format, the register as a number. -/
def elemBits (f : Fmt) (x i : Nat) : Nat := bitsOf x (f.slot * i) f.width

theorem vElem_eq_elemBits (f : Fmt) (x : BitVec 16384) (i : Nat) : vElem f x i = elemBits f x.toNat i := rfl

theorem bitsOf_toNat_ofNat {w lo n : Nat} (x : Nat) (fits : lo + n ≤ w) :
    bitsOf (BitVec.ofNat w x).toNat lo n = bitsOf x lo n := by
  rw [BitVec.toNat_ofNat, bitsOf_mod _ _ _ _ fits]

theorem vElem_ofNat {f : Fmt} {i : Nat} (x : Nat) (inRegister : i < f.vlmax) :
    vElem f (BitVec.ofNat 16384 x) i = elemBits f x i := by
  have fits : f.slot * i + f.width ≤ 16384 := by
    have := f.slot_add_width_le inRegister
    rwa [Nat.mul_comm f.slot f.vlmax, f.vlmax_mul_slot] at this
  exact bitsOf_toNat_ofNat x fits

theorem bitsOf_mod_of_le {n' n : Nat} (v lo : Nat) (h : n' ≤ n) : bitsOf v lo n % 2 ^ n' = bitsOf v lo n' :=
  Nat.mod_mod_of_dvd _ (Nat.pow_dvd_pow 2 h)

@[simp] theorem elemBits_vPut (f : Fmt) (x i e : Nat) : elemBits f (vPut f x i e) i = e % 2 ^ f.width := by
  rw [elemBits, ← bitsOf_mod_of_le _ _ f.width_le_slot, vPut, bitsOf_putBits,
    Nat.mod_mod_of_dvd _ (Nat.pow_dvd_pow 2 f.width_le_slot), Nat.mod_mod]

theorem elemBits_vPut_other (f : Fmt) (x : Nat) {i j : Nat} (e : Nat) (h : j ≠ i) :
    elemBits f (vPut f x i e) j = elemBits f x j := by
  refine bitsOf_putBits_other _ _ ?_
  obtain below | above := Nat.lt_or_gt_of_ne h
  · exact .inl (f.slot_add_width_le below)
  · exact .inr (Nat.mul_le_mul_left f.slot above)

/-- `vMap` gives the active elements of its range their new values and leaves every other element. -/
theorem elemBits_vMap (f : Fmt) (act : Nat → Bool) (g : Nat → Nat) (j : Nat) : ∀ n i x,
    elemBits f (vMap f act g n i x) j =
      if (i ≤ j ∧ j < i + n) ∧ act j = true then g j % 2 ^ f.width else elemBits f x j
  | 0, i, x => by rw [vMap, if_neg (by omega)]
  | n + 1, i, x => by
    rw [vMap, elemBits_vMap f act g j n (i + 1)]
    by_cases here : j = i
    · subst here
      have later : ¬((j + 1 ≤ j ∧ j < j + 1 + n) ∧ act j = true) := by omega
      rw [if_neg later]
      cases active : act j with
      | true => rw [if_pos rfl, elemBits_vPut, if_pos ⟨by omega, rfl⟩]
      | false => rw [if_neg Bool.false_ne_true, if_neg (by simp)]
    · have written : elemBits f (if act i then vPut f x i (g i) else x) j = elemBits f x j := by
        split
        · exact elemBits_vPut_other f x _ here
        · rfl
      rw [written]
      congr 1
      exact propext (and_congr_left' (by omega))

/-- Settles O13: the elements are those of `vMap`, VD is the one register set, and with n = 0 nothing is written and no
flag raised. -/
theorem vectorElementsAndFrame : Obligations.VectorElementsAndFrame := by
  unfold Obligations.VectorElementsAndFrame
  intro r a f g inFormat
  refine ⟨_, rfl, ?elements, ?registers, rfl, ?empty⟩
  case elements =>
    intro i inRegister
    rw [VxeRegs.vreg_orFlags, VxeRegs.vreg_setV, vElem_ofNat _ inRegister, elemBits_vMap,
      Nat.mod_eq_of_lt (inFormat _ _), vElem_eq_elemBits]
    congr 1
    exact propext (and_congr_left' (by omega))
  case registers => exact fun n other => VxeRegs.vreg_setV_other r _ other
  case empty =>
    intro none
    refine ⟨fun n => ?_, ?_⟩
    · by_cases vd : n = a.vd.val
      · subst vd
        rw [VxeRegs.vreg_orFlags, VxeRegs.vreg_setV, none, vMap, BitVec.ofNat_toNat, BitVec.setWidth_eq]
      · exact VxeRegs.vreg_setV_other r _ vd
    · rw [none, VxeRegs.vflags_orFlags, orFlagsOf_zero, Nat.or_zero, VxeRegs.vflags_setV]

end Sys2Proof.Machine
end

section
/-! SUPPORT. The vector engine's element-wise instructions, said once (09 R185 to R193): which kinds of format
each takes, and how it completes where the engine may issue. -/

namespace Sys2Proof.Machine

/-! ### Completion (09 R203, R207, R208) -/

section
variable {u : Unit36} {c : Instr} {s : State}

theorem vxeRun_of_ok {f : VxeRegs → VRes} {r : VxeRegs} (at_ : s.vxeAt u c = true)
    (ok : f (s.vxeOf u.die u.bay).regs = .ok r) : vxeRun u c f s = s.vxeNext u.die u.bay r := by
  simp only [vxeRun, at_, if_true, ok]

/-- A command whose meaning is the function `fn` of the registers completes with what `fn` gives. -/
theorem State.vxeIn.done {r : VxeRegs} {f : Fmt} {fn : VxeRegs → VRes} {x : VRes} (here : s.vxeIn u c r f)
    (runs : exec c s = .next (vxeRun u c fn s)) (result : fn r = x) (ok : ∃ t, x = .ok t) : VxeDone c u s x := by
  obtain ⟨at_, rfl, -⟩ := here
  obtain ⟨t, rfl⟩ := ok
  exact ⟨t, rfl, runs.trans (congrArg _ (vxeRun_of_ok at_ result))⟩

theorem State.vxeIn.format {r : VxeRegs} {f : Fmt} (here : s.vxeIn u c r f) : r.fmt = some f := here.2.2

theorem State.vxeIn.elementwise {r : VxeRegs} {a : VArgs} {f : Fmt} {fn : VxeRegs → VRes}
    {g : Nat → Nat → Rounded} (here : s.vxeIn u c r f) (runs : exec c s = .next (vxeRun u c fn s))
    (result : fn r = vElementwise r a f g) :
    VxeDone c u s (vElementwise r a f g) :=
  here.done runs result ⟨_, rfl⟩

end

/-! ### The formats that a function takes (09 R189) -/

section
variable {r : VxeRegs} {f : Fmt} (format : r.fmt = some f) (a : VArgs) (raw : Bool)
include format

theorem vByFmt_of_fp {g : FpFmt} (fp : FpFmt → Nat → Nat → Rounded) (int : Option (Nat → Nat → Nat → Nat))
    (wide : f.isWideFp = true) (layout : f.fp? = some g) :
    vByFmt r a (some fp) int raw = vElementwise r a f (fp g) := by
  simp only [vByFmt, format, wide, layout]

theorem vByFmt_of_int {w : Nat} (fp : Option (FpFmt → Nat → Nat → Rounded)) (int : Nat → Nat → Nat → Nat)
    (narrow : f.isWideFp = false) (width : f.int? = some w) :
    vByFmt r a fp (some int) raw = vElementwise r a f (fun x y => { enc := int w x y }) := by
  simp only [vByFmt, format, narrow, width]

end

/-- The logic takes bytes as they are, by 8 bits. -/
theorem vByFmt_of_raw8 {r : VxeRegs} (format : r.fmt = some .raw8) (a : VArgs)
    (fp : Option (FpFmt → Nat → Nat → Rounded)) (int : Nat → Nat → Nat → Nat) :
    vByFmt r a fp (some int) true = vElementwise r a .raw8 (fun x y => { enc := int 8 x y }) := by
  simp only [vByFmt, format]
  rfl

/-! ### Functions with a shape of their own (09 Tables 9-3 and 9-4) -/

section
variable {r : VxeRegs} {f : Fmt} (format : r.fmt = some f) (a : VArgs)
include format

theorem vCmp_of_fp {g : FpFmt} (op : CmpOp) (wide : f.isWideFp = true) (layout : f.fp? = some g) :
    vCmp r a op = (fun res : Nat → Bool × Nat =>
      .ok ((r.setM (a.vd.val % 4) (BitVec.ofNat 2048 (mMap (r.active a.men a.msel) (fun i => (res i).1)
        (min r.vl f.vlmax) 0 (r.mreg (a.vd.val % 4)).toNat))).orFlags
        (orFlagsOf (r.active a.men a.msel) (fun i => (res i).2) (min r.vl f.vlmax)))) fun i =>
      fpCmp op g (vElem f (r.vreg a.vs1) i) (r.opB a f i) := by
  simp only [vCmp, format, wide, layout]

theorem vCmp_of_int {w : Nat} (op : CmpOp) (narrow : f.isWideFp = false) (width : f.int? = some w) :
    vCmp r a op = .ok ((r.setM (a.vd.val % 4) (BitVec.ofNat 2048 (mMap (r.active a.men a.msel)
        (fun i => intCmp op w (vElem f (r.vreg a.vs1) i) (r.opB a f i)) (min r.vl f.vlmax) 0
        (r.mreg (a.vd.val % 4)).toNat))).orFlags
        (orFlagsOf (r.active a.men a.msel) (fun _ => 0) (min r.vl f.vlmax))) := by
  simp only [vCmp, format, narrow, width]

theorem vMov_of_fmt : vMov r a = vElementwise r a f (fun x y => { enc := if a.scalar then y else x }) := by
  simp only [vMov, format]

theorem vMrg_of_fmt :
    vMrg r a = .ok (r.setV a.vd (BitVec.ofNat 16384 (vMap f (fun _ => true)
      (fun i => if (r.mreg a.msel).getLsbD i then vElem f (r.vreg a.vs1) i else vElem f (r.vreg a.vs2) i)
      (min r.vl f.vlmax) 0 (r.vreg a.vd).toNat))) := by
  simp only [vMrg, format]

theorem vIota_of_int {w : Nat} (width : f.int? = some w) :
    vIota r a = .ok (r.setV a.vd (BitVec.ofNat 16384
      (vMap f (r.active a.men a.msel) (fun i => i % 2 ^ w) (min r.vl f.vlmax) 0 (r.vreg a.vd).toNat))) := by
  simp only [vIota, format, width]

/-- The registers that a fused multiply-add leaves, its results given. -/
theorem vFused_of_fp {g : FpFmt} (negProd negAdd : Bool) (wide : f.isWideFp = true) (layout : f.fp? = some g) :
    vFused r a negProd negAdd = (fun res : Nat → Rounded =>
      .ok ((r.setV a.vd (BitVec.ofNat 16384 (vMap f (r.active a.men a.msel) (fun i => (res i).enc)
        (min r.vl f.vlmax) 0 (r.vreg a.vd).toNat))).orFlags
        (orFlagsOf (r.active a.men a.msel) (fun i => (res i).flags) (min r.vl f.vlmax)))) fun i =>
      fpFma g (r.mode a.rm.toNat) Config.fmaNanInvalid negProd negAdd (vElem f (r.vreg a.vs1) i) (r.opB a f i)
        (vElem f (r.vreg a.vd) i) := by
  simp only [vFused, format, wide, layout]

end

/-- Settles O30: every function is one of `vByFmt`, on a format of the kind that the clause names. -/
theorem vectorArithmeticCompletes : Obligations.VectorArithmeticCompletes := by
  unfold Obligations.VectorArithmeticCompletes
  refine ⟨?fpAdd, ?intAdd, ?fpSub, ?intSub, ?fpMul, ?intMul, ?fpDiv, ?fpSqrt, ?fpMin, ?intMin, ?fpMax, ?intMax,
    ?fpMini, ?fpMaxi, ?fpNeg, ?intNeg, ?fpAbs, ?intAbs, ?fpCsgn, ?fpRti, ?fpRece, ?fpRsqe⟩
  case fpAdd | fpSub | fpMul | fpDiv | fpSqrt | fpMin | fpMax | fpMini | fpMaxi | fpNeg | fpAbs | fpCsgn | fpRti |
      fpRece | fpRsqe =>
    exact fun _ a _ _ _ _ here wide layout => here.elementwise rfl (vByFmt_of_fp here.format a _ _ _ wide layout)
  case intAdd | intSub | intMul | intMin | intMax | intNeg | intAbs =>
    exact fun _ a _ _ _ _ here narrow width => here.elementwise rfl (vByFmt_of_int here.format a _ _ _ narrow width)

/-- Settles O31: the logic and the shifts are functions of `vByFmt`; MOV, MRG and IOTA have equations of their own. -/
theorem vectorLogicCompletes : Obligations.VectorLogicCompletes := by
  unfold Obligations.VectorLogicCompletes
  refine ⟨?mov, ?and, ?andRaw, ?or, ?orRaw, ?xor, ?xorRaw, ?sll, ?srl, ?sra, ?mrg, ?iota⟩
  case mov => exact fun _ a _ _ _ here => here.elementwise rfl (vMov_of_fmt here.format a)
  case and | or | xor | sll | srl | sra =>
    exact fun _ a _ _ _ _ here narrow width => here.elementwise rfl (vByFmt_of_int here.format a _ _ _ narrow width)
  case andRaw | orRaw | xorRaw =>
    rintro _ a _ _ _ here rfl
    exact here.elementwise rfl (vByFmt_of_raw8 here.format a _ _)
  case mrg => exact fun _ a _ _ _ here => here.done rfl (vMrg_of_fmt here.format a) ⟨_, rfl⟩
  case iota => exact fun _ a _ _ _ _ here _ width => here.done rfl (vIota_of_int here.format a width) ⟨_, rfl⟩

/-- Settles O32: the fused operations differ in two signs, and the comparisons in the relation, on floating-point and on
integer formats. -/
theorem vectorFusedAndCompareComplete : Obligations.VectorFusedAndCompareComplete := by
  unfold Obligations.VectorFusedAndCompareComplete
  refine ⟨?fma, ?fms, ?fnma, ?fnms, ?fpEq, ?intEq, ?fpLt, ?intLt, ?fpLe, ?intLe, ?fpUn, ?intUn, ?fpNe, ?intNe⟩
  case fma | fms | fnma | fnms =>
    exact fun _ a _ _ _ _ here wide layout => here.done rfl (vFused_of_fp here.format a _ _ wide layout) ⟨_, rfl⟩
  case fpEq | fpLt | fpLe | fpUn | fpNe =>
    exact fun _ a _ _ _ _ here wide layout => here.done rfl (vCmp_of_fp here.format a _ wide layout) ⟨_, rfl⟩
  case intEq | intLt | intLe | intUn | intNe =>
    exact fun _ a _ _ _ _ here narrow width => here.done rfl (vCmp_of_int here.format a _ narrow width) ⟨_, rfl⟩

end Sys2Proof.Machine
end

section
/-! SUPPORT. The vector engine's reductions, said once (09 R195, R200): the tree over VLMAX leaves, and its report. -/

namespace Sys2Proof.Machine

section
variable {r : VxeRegs} {f : Fmt} (format : r.fmt = some f) (a : VArgs)
include format

theorem vReduce_of_fp {g : FpFmt} (op : FpFmt → Nat → Nat → Rounded) (leaf : FpFmt → Nat → Nat)
    (ident : FpFmt → Nat) (intOp : Option (Nat → Nat → Nat → Nat)) (intIdent : Nat → Nat) (wide : f.isWideFp = true)
    (layout : f.fp? = some g)
    (some_active : min r.vl f.vlmax ≠ 0) :
    vReduce r a (some op) leaf ident intOp intIdent = .ok (redWrite r f a.vd (redTree (op g) 12
      (redLeaves (r.active a.men a.msel) (min r.vl f.vlmax) f.vlmax (fun i => leaf g (vElem f (r.vreg a.vs1) i))
        (ident g)) 0)) := by
  simp only [vReduce, format, wide, layout, some_active, if_false]

theorem vReduce_of_int {w : Nat} (op : Option (FpFmt → Nat → Nat → Rounded)) (leaf : FpFmt → Nat → Nat)
    (ident : FpFmt → Nat) (intOp : Nat → Nat → Nat → Nat) (intIdent : Nat → Nat) (narrow : f.isWideFp = false)
    (width : f.int? = some w) (some_active : min r.vl f.vlmax ≠ 0) :
    vReduce r a op leaf ident (some intOp) intIdent = .ok (redWrite r f a.vd
      (redTree (fun x y => { enc := intOp w x y }) 12
        (redLeaves (r.active a.men a.msel) (min r.vl f.vlmax) f.vlmax (fun i => vElem f (r.vreg a.vs1) i)
        (intIdent w)) 0)) := by
  simp only [vReduce, format, narrow, width, some_active, if_false]

theorem vRedSumw_of_half {g : FpFmt} (half : f = .fp16 ∨ f = .bf16) (layout : f.fp? = some g)
    (some_active : min r.vl (min f.vlmax Fmt.fp32.vlmax) ≠ 0) :
    vRedSumw r a = .ok ((fun (wide : Nat → Rounded) (t : Nat × Nat) => redWrite r .fp32 a.vd (t.1, t.2 |||
        orFlagsOf (r.active a.men a.msel) (fun i => (wide i).flags) (min r.vl (min f.vlmax Fmt.fp32.vlmax))))
      (fun i => roundOp fp32L .rne (g.decode (vElem f (r.vreg a.vs1) i)).isSnan (g.decode (vElem f (r.vreg a.vs1) i)))
      (redTree (fun x y => fpAdd fp32L (r.mode a.rm.toNat) false x y) 12 (redLeaves (r.active a.men a.msel)
        (min r.vl (min f.vlmax Fmt.fp32.vlmax)) f.vlmax (fun i => (roundOp fp32L .rne
          (g.decode (vElem f (r.vreg a.vs1) i)).isSnan (g.decode (vElem f (r.vreg a.vs1) i))).enc)
            (negZero fp32L)) 0)) := by
  simp only [vRedSumw, format, half, layout, some_active, if_true, if_false]

/-- The leaf of REPAMAX: the magnitude of a finite element, and 0 of any other. -/
def finiteMagnitude (g : FpFmt) (x : Nat) : Nat :=
  match g.decode x with
  | .fin _ _ _ => x % fpTop g
  | _ => 0

theorem vRepamax_of_fp {g : FpFmt} (wide : f.isWideFp = true) (layout : f.fp? = some g)
    (some_active : min r.vl f.vlmax ≠ 0) (names : r.vtid ≠ 0xFFFFFFFF) :
    vRepamax r a = (some f, some (amaxFp32 (g.decode (redTree (fun x y => fpMinMax g true true x y) 12
      (redLeaves (r.active a.men a.msel) (min r.vl f.vlmax) f.vlmax
        (fun i => finiteMagnitude g (vElem f (r.vreg a.vs1) i)) 0) 0).1))) := by
  simp only [vRepamax, format, wide, layout, some_active, names, or_self, if_false]
  rfl

end

theorem execVxeRedRepamax_of_report {u : Unit36} {a : VArgs} {s : State} {f : Fmt} {x : Nat}
    (at_ : s.vxeAt u (.vxeRedRepamax u a) = true) (report : vRepamax (s.vxeOf u.die u.bay).regs a = (some f, some x)) :
    execVxeRedRepamax u a s = .next ((s.reportAmax u.die u.bay (s.vxeOf u.die u.bay).regs.vtid x).vxeNext u.die u.bay
      (s.vxeOf u.die u.bay).regs) := by
  simp only [execVxeRedRepamax, at_, if_true, report]

/-- Settles O33: the reductions to VD are functions of `vReduce`, but for SUMW, which widens its leaves to FP32, and
REPAMAX, which reports what its tree gives and writes no register. -/
theorem vectorReductionsComplete : Obligations.VectorReductionsComplete := by
  unfold Obligations.VectorReductionsComplete
  refine ⟨?fpSum, ?intSum, ?fpMin, ?intMin, ?fpMax, ?intMax, ?fpAmax, ?sumw, ?repamax⟩
  case fpSum | fpMin | fpMax | fpAmax =>
    exact fun _ a _ _ _ _ here wide layout some_active =>
      here.done rfl (vReduce_of_fp here.format a _ _ _ _ _ wide layout some_active) ⟨_, rfl⟩
  case intSum | intMin | intMax =>
    exact fun _ a _ _ _ _ here narrow width some_active =>
      here.done rfl (vReduce_of_int here.format a _ _ _ _ _ narrow width some_active) ⟨_, rfl⟩
  case sumw =>
    exact fun _ a _ _ _ _ here half layout some_active =>
      here.done rfl (vRedSumw_of_half here.format a half layout some_active) ⟨_, rfl⟩
  case repamax =>
    rintro u a _ f g s ⟨at_, rfl, format⟩ wide layout some_active names
    exact execVxeRedRepamax_of_report at_ (vRepamax_of_fp format a wide layout some_active names)

end Sys2Proof.Machine
end

section
/-! SUPPORT. Configuration, mask, scalar and branch instructions of the vector engine, said once (09 R186, R192,
R194). -/

namespace Sys2Proof.Machine

section
variable {u : Unit36} {c : Instr} {s : State} {r : VxeRegs} (at_ : s.vxeAt u c = true)
  (regs : r = (s.vxeOf u.die u.bay).regs)
include at_ regs

/-- A command whose meaning is the function `fn` of the registers answers the state behind it with what `fn` gives. -/
theorem exec_of_vxeRun_ok {fn : VxeRegs → VRes} {t : VxeRegs} (runs : exec c s = .next (vxeRun u c fn s))
    (ok : fn r = .ok t) : exec c s = .next (s.vxeNext u.die u.bay t) := by
  subst regs
  exact runs.trans (congrArg _ (vxeRun_of_ok at_ ok))

/-- A command that always completes answers the state behind it with what its function gives. -/
theorem exec_of_vxeSet {fn : VxeRegs → VxeRegs} (runs : exec c s = .next (vxeSet u c fn s)) :
    exec c s = .next (s.vxeNext u.die u.bay (fn r)) := exec_of_vxeRun_ok at_ regs runs rfl

end

theorem vSetvl_of_fmt {a : SArgs} {f : Fmt} (r : VxeRegs) (format : Fmt.ofCode (a.imm.toNat % 16) = some f) :
    vSetvl r a = .ok ({ r with vfmt := a.imm.toNat % 16, vl := min (r.sreg a.sy).toNat f.vlmax }.setS a.sx
      (BitVec.ofNat 64 (min (r.sreg a.sy).toNat f.vlmax))) := by
  simp only [vSetvl, format]

theorem vSetrm_of_le {a : SArgs} (r : VxeRegs) (mode : a.imm.toNat % 8 ≤ 4) :
    vSetrm r a = .ok { r with vrm := a.imm.toNat % 8 } := by
  simp only [vSetrm, Nat.not_lt.2 mode, if_false]

theorem vVtos_of_fmt {r : VxeRegs} {f : Fmt} (format : r.fmt = some f) (a : SArgs) :
    vVtos r a = .ok (r.setS a.sx (BitVec.ofNat 64 (vElem f (r.vreg (a.imm.toNat % 32)) 0))) := by
  simp only [vVtos, format]

theorem vStov_of_fmt {r : VxeRegs} {f : Fmt} (format : r.fmt = some f) (a : SArgs) :
    vStov r a = .ok (r.setV (a.imm.toNat % 32)
      (BitVec.ofNat 16384 (vPut f (r.vreg (a.imm.toNat % 32)).toNat 0 (r.sreg a.sy).toNat))) := by
  simp only [vStov, format]

/-- Settles O34: SETVL, SETRM, VTOS and STOV complete on the operands that the clause names, and the others always
do. -/
theorem vectorConfigurationCompletes : Obligations.VectorConfigurationCompletes := by
  unfold Obligations.VectorConfigurationCompletes
  refine ⟨?setvl, ?settid, ?setidx, ?addidx, ?setscl, ?setblk, ?setrm, ?rdflg, ?clrflg, ?rdvl, ?vtos, ?stov⟩
  case settid | setidx | addidx | setscl | setblk | rdflg | clrflg | rdvl =>
    exact fun _ _ _ _ at_ regs => (exec_of_vxeSet at_ regs rfl :)
  case setvl => exact fun _ _ r _ _ at_ regs format => exec_of_vxeRun_ok at_ regs rfl (vSetvl_of_fmt r format)
  case setrm => exact fun _ _ r _ at_ regs mode => exec_of_vxeRun_ok at_ regs rfl (vSetrm_of_le r mode)
  case vtos => exact fun _ a _ _ _ at_ regs format => exec_of_vxeRun_ok at_ regs rfl (vVtos_of_fmt format a)
  case stov => exact fun _ a _ _ _ at_ regs format => exec_of_vxeRun_ok at_ regs rfl (vStov_of_fmt format a)

/-- Settles O35: no mask or scalar instruction has a fault of its own. -/
theorem vectorScalarCompletes : Obligations.VectorScalarCompletes := by
  unfold Obligations.VectorScalarCompletes
  refine ⟨?mskAnd, ?mskOr, ?mskXor, ?mskAndn, ?mskNot, ?mskSet, ?mskClr, ?addi, ?add, ?sub, ?and, ?or, ?xor, ?mul,
    ?slli, ?srli, ?srai, ?lih⟩
  case mskAnd | mskOr | mskXor | mskAndn | mskNot | mskSet | mskClr | add | sub | and | or | xor | mul =>
    exact fun _ _ _ _ at_ regs => exec_of_vxeRun_ok at_ regs rfl rfl
  case addi | slli | srli | srai | lih => exact fun _ _ _ _ at_ regs => (exec_of_vxeSet at_ regs rfl :)

/-! ### Branches (09 R192) -/

section
variable {u : Unit36} {c : Instr} {s : State} {v : Vxe} {r : VxeRegs} (at_ : s.vxeAt u c = true)
  (engine : v = s.vxeOf u.die u.bay) (regs : r = v.regs) {a : SArgs} {taken : Word → Word → Bool}
  (runs : exec c s = .next (vxeBranch u c a taken s))
include at_ engine regs runs

theorem exec_of_branch_taken (goes : taken (r.sreg a.sx) (r.sreg a.sy) = true) :
    exec c s = .next (((s.setVxe u.die u.bay
      { v with regs := { r with pc := (((r.pc : Int) + a.imm.toInt) % 65536).toNat } }).incF u.die (pgVxe u.bay) 0x090
        0 64 1).progress u.die u.bay) := by
  subst engine regs
  rw [runs]
  simp only [vxeBranch, at_, if_true, vBranch, goes, branchTarget]

theorem exec_of_branch_not_taken (stays : taken (r.sreg a.sx) (r.sreg a.sy) = false) :
    exec c s = .next (((s.setVxe u.die u.bay
      { v with regs := { r with pc := (r.pc + 1) % 65536 } }).incF u.die (pgVxe u.bay) 0x090 0 64 1).progress u.die
        u.bay) := by
  subst engine regs
  rw [runs]
  simp only [vxeBranch, at_, if_true, vBranch, stays, Bool.false_eq_true, if_false]

end

/-- Settles O36: a conditional branch by whether its comparison of SX and SY holds; JMP is always taken. -/
theorem vectorBranchesComplete : Obligations.VectorBranchesComplete := by
  unfold Obligations.VectorBranchesComplete
  refine ⟨?beq, ?beqOn, ?bne, ?bneOn, ?blt, ?bltOn, ?bge, ?bgeOn, ?bltu, ?bltuOn, ?jmp⟩
  case beq =>
    exact fun _ _ _ _ _ at_ engine regs equal => exec_of_branch_taken at_ engine regs rfl (beq_iff_eq.2 equal)
  case beqOn =>
    exact fun _ _ _ _ _ at_ engine regs other =>
      exec_of_branch_not_taken at_ engine regs rfl (beq_eq_false_iff_ne.2 other)
  case bne =>
    exact fun _ _ _ _ _ at_ engine regs other => exec_of_branch_taken at_ engine regs rfl (bne_iff_ne.2 other)
  case bneOn =>
    exact fun _ _ _ _ _ at_ engine regs equal =>
      exec_of_branch_not_taken at_ engine regs rfl (bne_eq_false_iff_eq.2 equal)
  case blt =>
    exact fun _ _ _ _ _ at_ engine regs less =>
      exec_of_branch_taken at_ engine regs rfl (BitVec.slt_iff_toInt_lt.2 less)
  case bltOn =>
    exact fun _ _ _ _ _ at_ engine regs atLeast =>
      exec_of_branch_not_taken at_ engine regs rfl (decide_eq_false (Int.not_lt.2 atLeast))
  case bge =>
    exact fun _ _ _ _ _ at_ engine regs atLeast =>
      exec_of_branch_taken at_ engine regs rfl (congrArg (!·) (decide_eq_false (Int.not_lt.2 atLeast)))
  case bgeOn =>
    exact fun _ _ _ _ _ at_ engine regs less =>
      exec_of_branch_not_taken at_ engine regs rfl (congrArg (!·) (BitVec.slt_iff_toInt_lt.2 less))
  case bltu =>
    exact fun _ _ _ _ _ at_ engine regs less => exec_of_branch_taken at_ engine regs rfl (decide_eq_true less)
  case bltuOn =>
    exact fun _ _ _ _ _ at_ engine regs atLeast =>
      exec_of_branch_not_taken at_ engine regs rfl (decide_eq_false (Nat.not_lt.2 atLeast))
  case jmp => exact fun _ _ _ _ _ at_ engine regs => exec_of_branch_taken at_ engine regs rfl rfl

end Sys2Proof.Machine
end

section
/-! SUPPORT. The vector engine's conversions, loads, stores, synchronisation and the end of its programs, said once (09
R196, R201, R203, R205, R208 to R210). -/

namespace Sys2Proof.Machine

/-- A conversion of an allowed form, that does not round stochastically to a format as wide, has no fault. -/
theorem vCvt_of_form {r : VxeRegs} {a : CvtArgs} {d f : Fmt} (seed step : Nat) (cls : Bool)
    (dst : Fmt.ofCode a.dfmt.toNat = some d) (src : Fmt.ofCode a.sfmt.toNat = some f) (form : cvtForm a = true)
    (mode : ¬((if a.rm.toNat = 6 then r.vrm else a.rm.toNat) = 5 ∧ f.width ≤ d.width)) :
    ∃ o, vCvt r a seed step cls = .inr o := by
  simp only [vCvt, dst, src, form, mode, Bool.not_true, Bool.false_eq_true, if_false]
  split
  · exact ⟨_, rfl⟩
  · split
    · exact ⟨_, rfl⟩
    · exact ⟨_, rfl⟩

section
variable {u : Unit36} {s : State} {r : VxeRegs} (regs : r = (s.vxeOf u.die u.bay).regs)
include regs

theorem execVxeCvt_of_ok {a : CvtArgs} {o : CvtOut} (at_ : s.vxeAt u (.vxeCvt u a) = true)
    (ok : vCvt r a s.jobSeed s.stepCur (s.principalOf r.vtid).isSome = .inr o) :
    execVxeCvt u a s = .next ((s.reportConv u.die u.bay r.vtid o.evs o.amax).vxeNext u.die u.bay o.regs) := by
  subst regs
  simp only [execVxeCvt, at_, if_true, ok]

section
variable {a : LsArgs} {f : Fmt} {n : Nat} {act : Nat → Bool} {place : Nat → Nat × Nat × Nat}
  (inRange : lsCheck r a = .inr (f, n, act, place))
include inRange

theorem execVxeLoad_of_inRange (at_ : s.vxeAt u (.vxeLoad u a) = true) :
    execVxeLoad u a s = .next (s.vxeNext u.die u.bay (r.setV a.vd (BitVec.ofNat 16384 (vMap f act
      (fun i => elemAt f (fun k => s.stg u.die u.bay k) (place i).1 (place i).2.1) n 0 (r.vreg a.vd).toNat)))) := by
  subst regs
  exact congrArg _ (vxeRun_of_ok at_ (by simp only [vLoad, inRange]))

theorem execVxeStore_of_inRange (at_ : s.vxeAt u (.vxeStore u a) = true) :
    execVxeStore u a s = .next (({ s with staging := (List.range n).foldl (fun t i => if act i then
      stgPut t (bayKey u.die u.bay * 2 ^ 23) f (place i) (vElem f (r.vreg a.vd) i) else t) s.staging } : State).vxeNext
        u.die u.bay r) := by
  subst regs
  simp only [execVxeStore, at_, if_true, vStore, inRange]

end

theorem execVxeWait_of_done {a : SArgs} (at_ : s.vxeAt u (.vxeWait u a) = true)
    (delivered : s.waitDone u.die u.bay ((r.sreg a.sx).toNat % 2 ^ 32) = true) :
    execVxeWait u a s =
      .next ((s.waitMarks u.die u.bay ((r.sreg a.sx).toNat % 2 ^ 32)).vxeNext u.die u.bay r) := by
  subst regs
  simp only [execVxeWait, at_, delivered, Bool.and_self, if_true]

theorem vxeSem_of_aligned {i : Instr} {a : SArgs} (add : Bool) (at_ : s.vxeAt u i = true)
    (aligned : (r.sreg a.sx).toNat % 2 ^ 52 % 8 = 0) :
    vxeSem u i a add s =
      s.engineSem u.die u.bay true add ((r.sreg a.sx).toNat % 2 ^ 52) (r.sreg a.sy).toNat := by
  subst regs
  simp only [vxeSem, at_, if_true, aligned, ne_eq, not_true, if_false]

end

theorem execVxeSignal_of_at {u : Unit36} {a : SArgs} {s : State} (at_ : s.vxeAt u (.vxeSignal u a) = true) :
    execVxeSignal u a s =
      .next ((s.signalGo u.die u.bay (a.imm.toNat % 32)).vxeNext u.die u.bay (s.vxeOf u.die u.bay).regs) := by
  simp only [execVxeSignal, at_, if_true]

/-- END shows the flags and the program in their registers, and the next program of the bay starts. -/
theorem execVxeEnd_of_at {u : Unit36} {a : SArgs} {v : Vxe} {t s : State} (at_ : s.vxeAt u (.vxeEnd u a) = true)
    (engine : v = s.vxeOf u.die u.bay)
    (flags : t = s.wrF u.die (pgVxe u.bay) 0x088 0 5 (s.rdF u.die (pgVxe u.bay) 0x088 0 5 ||| v.regs.vflags % 32)) :
    execVxeEnd u a s = .next ((((((t.wr u.die (pgVxe u.bay) 0x080 (t.vxeProg u.die u.bay)).incF u.die (pgVxe u.bay)
      0x090 0 64 1).stalls u.die (pgVxe u.bay) [0x098, 0x0A0]).progress u.die u.bay).setVxe u.die u.bay v.nextProg).endCancel
        u.die u.bay) := by
  subst flags engine
  simp only [execVxeEnd, at_, if_true]

/-- Settles O37: each clause is the command's own equation under the conditions that the clause names. -/
theorem vectorMemoryAndSyncComplete : Obligations.VectorMemoryAndSyncComplete := by
  unfold Obligations.VectorMemoryAndSyncComplete
  refine ⟨?cvt, ?load, ?store, ?wait, ?signal, ?semwait, ?semadd, ?vxeEnd, ?parity⟩
  case cvt =>
    intro u a r d f s at_ regs dst src form mode
    obtain ⟨o, ok⟩ := vCvt_of_form s.jobSeed s.stepCur (s.principalOf r.vtid).isSome dst src form mode
    exact ⟨o, ok, execVxeCvt_of_ok regs at_ ok⟩
  case load => exact fun _ _ _ _ _ _ _ _ at_ regs inRange => execVxeLoad_of_inRange regs inRange at_
  case store => exact fun _ _ _ _ _ _ _ _ at_ regs inRange => execVxeStore_of_inRange regs inRange at_
  case wait =>
    rintro u a r _ s at_ regs rfl delivered
    exact execVxeWait_of_done regs at_ delivered
  case signal => exact fun _ _ _ at_ => execVxeSignal_of_at at_
  case semwait =>
    exact fun _ _ _ _ at_ regs aligned => congrArg Host.Outcome.next (vxeSem_of_aligned regs false at_ aligned)
  case semadd =>
    exact fun _ _ _ _ at_ regs aligned => congrArg Host.Outcome.next (vxeSem_of_aligned regs true at_ aligned)
  case vxeEnd => exact fun _ _ _ _ _ at_ engine flags => execVxeEnd_of_at at_ engine flags
  case parity => exact fun _ _ _ => rfl

end Sys2Proof.Machine
end

section
/-! SUPPORT. A vector command that the word at PC does not spell does nothing (09 R203; entry 109). -/

namespace Sys2Proof.Machine

section
variable {u : Unit36} {s : State} {i : Instr} (elsewhere : s.vxeAt u i = false)
include elsewhere

theorem ite_of_not_at (t : State) : (if s.vxeAt u i then t else s) = s := if_neg (Bool.eq_false_iff.1 elsewhere)

/-- Every command of the engine but WAIT asks only whether it is the one at PC. -/
theorem exec_of_not_at_of_ite {t : State} (runs : exec i s = .next (if s.vxeAt u i then t else s)) :
    exec i s = .next s := runs.trans (congrArg _ (ite_of_not_at elsewhere t))

/-- WAIT also asks whether the deliveries are complete. -/
theorem execVxeWait_of_not_at {a : SArgs} (command : i = .vxeWait u a) : exec i s = .next s := by
  subst command
  refine congrArg Host.Outcome.next (if_neg ?_)
  simp only [elsewhere, Bool.false_and, Bool.false_eq_true, not_false_eq_true]

theorem exec_of_not_at {w : Nat} (h : Spells u i w) : exec i s = .next s := by
  cases h with
  | elem h | fused h | cmp h | red _ h | cfg h | msk h | scl h =>
    simp only [elemInsn, fusedInsn, cmpInsn, redInsn, cfgInsn, mskInsn, sclInsn] at h
    split at h <;> cases h <;> exact exec_of_not_at_of_ite elsewhere rfl
  | cvt | load | store => exact exec_of_not_at_of_ite elsewhere rfl
  | ctl h =>
    unfold ctlInsn at h
    split at h
    case h_7 => cases h; exact execVxeWait_of_not_at elsewhere rfl
    all_goals cases h <;> exact exec_of_not_at_of_ite elsewhere rfl

end

/-- Settles O21: the words are decoded field by field, and what a word decodes to is one of the engine's commands, which
ask first whether they stand at PC. -/
theorem aVectorCommandRunsTheWordAtPc : Obligations.AVectorCommandRunsTheWordAtPc := by
  unfold Obligations.AVectorCommandRunsTheWordAtPc
  refine ⟨?words, ?elsewhere⟩
  case words =>
    intro u
    exact ⟨rfl, rfl, rfl, rfl, rfl, rfl, rfl, rfl, rfl, rfl, rfl, rfl, rfl, rfl⟩
  case elsewhere => exact fun _ _ _ _ decodes elsewhere => exec_of_not_at elsewhere (spells_of_decodeVxe decodes)

end Sys2Proof.Machine
end

section
/-! SUPPORT. A write of SLOTs_CTRL by a context that does not run the active book is refused by the register's own rule
(05 R94; 10 R244). -/

namespace Sys2Proof.Machine

/-- The page of each of the nine bays is one of a stream unit. -/
theorem pageKind_su (d : Nat) (b : Bay) : pageKind d (pgSu b) = some .su :=
  match b with
  | 0 | 1 | 2 | 3 | 4 | 5 | 6 | 7 | 8 => rfl

/-- A word written to SLOTs_CTRL by a context is a sound access. -/
theorem accessOk_slotCtrl_of_ctx {w : Writer} (ctx : w.origin = .ctx) (d : Nat) (b : Bay) (k v : Nat) :
    accessOk d (pgSu b) (0x108 + 64 * k) (oneReq w v) = true := by
  have aligned : (0x108 + 64 * k) % 8 = 0 := by omega
  simp only [accessOk, ctx, pageKind_su, aligned]
  rfl

/-- SLOTs_CTRL lets no context write but the one that runs the active book. -/
theorem ownRule_slotCtrl_of_ctx {w : Writer} (ctx : w.origin = .ctx) (d : Nat) (b : Bay) (k v : Nat) (s : State) :
    s.ownRule d (pgSu b) (0x108 + 64 * k) (oneReq w v) = s.bookWriter w := by
  have control : 0x100 ≤ 0x108 + 64 * k ∧ (0x108 + 64 * k) % 64 = 8 := by omega
  simp only [State.ownRule, pageKind_su]
  exact if_pos ⟨ctx, control⟩

theorem mayWrite_slotCtrl_of_not_bookWriter {w : Writer} {s : State} (ctx : w.origin = .ctx)
    (other : s.bookWriter w = false) (d : Nat) (b : Bay) (k v : Nat) :
    s.mayWrite d (pgSu b) (0x108 + 64 * k) (oneReq w v) = false := by
  rw [State.mayWrite, ownRule_slotCtrl_of_ctx ctx, other, Bool.and_false]

/-- A write that is refused leaves every slot, and the newest change record says so. -/
theorem write1_denied_slots_and_record {d pg off : Nat} {w : Writer} {v : Nat} {s : State}
    (sound : accessOk d pg off (oneReq w v) = true) (awake : s.inReset d pg = false)
    (refused : s.mayWrite d pg off (oneReq w v) = false) :
    (∀ d' b' k', (s.write1 d pg off w v).s.slotOf d' b' k' = s.slotOf d' b' k') ∧
      (((s.write1 d pg off w v).s.ringOf d).recs.head?.map (·.outcome)) = some .denied := by
  rw [write1_denied sound awake refused]
  refine ⟨fun d' b' k' => ?slots, record_newest _ _ _ _ _ _ _ _ _⟩
  case slots => simp only [State.slotOf, State.record, State.setErr_slots]

/-- Settles O10: the register's own rule refuses the write, and a refused write sets ERR_STAT.DENIED and is recorded. -/
theorem contextWritesOfSlotControl : Obligations.ContextWritesOfSlotControl := by
  unfold Obligations.ContextWritesOfSlotControl
  rintro d b k w v _ s - ctx awake other rfl
  have sound := accessOk_slotCtrl_of_ctx ctx d b k v
  have refused := mayWrite_slotCtrl_of_not_bookWriter ctx other d b k v
  obtain ⟨noWin, -, denied⟩ := write1_denied_reads sound awake refused (by omega) (by omega)
  obtain ⟨slots, newest⟩ := write1_denied_slots_and_record sound awake refused
  exact ⟨noWin, slots, denied, newest⟩

end Sys2Proof.Machine
end

section
/-! SUPPORT. The commands of the short path, said once per case: what each answers under the conditions of the rules
(10 R240, R241; 14 R325). -/

namespace Sys2Proof.Machine

section
variable {p : SpPort} {x : SpTransfer} {s : State} (live : s.spLive p x = true)
include live

theorem execShortPathTransfer_refused (unsound : spOk x = false) :
    execShortPathTransfer p x s = .next (s.spRefused p x) := by
  simp only [execShortPathTransfer, live, unsound, Bool.true_eq_false, if_false, if_true]

theorem execShortPathTransfer_issues (sound : spOk x = true) (first : (s.portOf p).waiting = [])
    (room : x.room = true) (ready : s.spReady p x = true) :
    execShortPathTransfer p x s = .next (s.spIssue p x) := by
  simp only [execShortPathTransfer, live, sound, first, room, ready, List.isEmpty_nil, Bool.true_eq_false, and_self,
    if_false, if_true]

/-- A transfer that may not issue now joins the port's queue, while that has room. -/
theorem execShortPathTransfer_queued (sound : spOk x = true)
    (held : ¬ ((s.portOf p).waiting = [] ∧ x.room = true ∧ s.spReady p x = true))
    (fits : (s.portOf p).waiting.length < 64) :
    execShortPathTransfer p x s = .next ((if x.room then s else s.spCount p 48 16).setPort p
      { s.portOf p with waiting := (s.portOf p).waiting ++ [x] }) := by
  simp only [execShortPathTransfer, live, sound, List.isEmpty_iff, Bool.true_eq_false, if_false, if_neg held,
    if_neg (Nat.not_le.mpr fits)]

/-- The oldest transfer of the queue issues. -/
theorem execShortPathWindow_issues {xs : List SpTransfer} (oldest : (s.portOf p).waiting = x :: xs)
    (ready : s.spReady p x = true) :
    execShortPathWindow p s = .next ((s.setPort p { s.portOf p with waiting := xs }).spIssue p x) := by
  simp only [execShortPathWindow, oldest, live, ready, Bool.and_self, if_true]

end

/-- Settles O39: each clause is the command's own equation under the conditions that the clause names. -/
theorem shortPathCommandsComplete : Obligations.ShortPathCommandsComplete := by
  unfold Obligations.ShortPathCommandsComplete
  refine ⟨?refused, ?issues, ?queued, ?window⟩
  case refused => exact fun _ _ _ => execShortPathTransfer_refused
  case issues => exact fun _ _ _ => execShortPathTransfer_issues
  case queued => exact fun _ _ _ => execShortPathTransfer_queued
  case window => exact fun _ _ _ _ oldest live => execShortPathWindow_issues live oldest

end Sys2Proof.Machine
end

section
/-! SUPPORT. The commands of the stream unit, said once per case: what each answers under the conditions of the rules
(10 R213, R221, R230 to R235). -/

namespace Sys2Proof.Machine

/-! ### Starting and re-arming (10 R213, R223, R230, R231) -/

/-- A slot of a unit at work whose stream is over, and whose list goes on, starts its next descriptor. -/
theorem execStreamStart_of_over {d : Die} {b : Bay} {sl : Slot} {s : State} (ready : s.suReady d b = true)
    (ended : s.over d b sl = true) (goesOn : (s.slotOf d b sl).ended = false) :
    execStreamStart d b sl s = .next (s.startSlot d b sl) :=
  congrArg Host.Outcome.next (if_pos ⟨ready, ended, goesOn⟩)

section
variable {d b sl ix : Nat} {q : StreamDesc} {s u : State} (next : s.nextStream d b sl = some (ix, q))
  (primary : q.companion = false) (first : q.isRearm = false)
include next primary first

theorem startSlot_of_unpaired (single : q.paired = false) (idles : u = s.partnerIdle d b sl) :
    s.startSlot d b sl =
      (u.setSlot d b sl ({ (s.slotOf d b sl).arm1 ix q with ring := q.ring } : SuSlot).takeUnits).pumpSlot d b sl := by
  subst idles
  simp only [State.startSlot, next, primary, first, single, Bool.false_and, Bool.or_self, Bool.false_eq_true, if_false]

/-- A pair starts together, with the smaller of the two rings. -/
theorem startSlot_of_paired {jx kx : Nat} {r z : StreamDesc} {v : State} (paired : q.paired = true)
    (mate : s.mateReady d b (sl + 1) = true) (idles : u = s.partnerIdle d b sl)
    (mateNext : u.nextStream d b (sl + 1) = some (kx, z))
    (arms : v = u.setSlot d b sl
      ({ (s.slotOf d b sl).arm1 ix q with ring := min q.ring z.ring } : SuSlot).takeUnits)
    (mateArms : v.nextStream d b (sl + 1) = some (jx, r)) :
    s.startSlot d b sl = (v.setSlot d b (sl + 1)
      (((v.slotOf d b (sl + 1)).arm1 jx r).follow (v.slotOf d b sl))).pumpSlot d b sl := by
  subst idles arms
  simp only [State.startSlot, next, primary, first, paired, mate, mateNext, mateArms, Bool.not_true, Bool.and_false,
    Bool.or_self, Bool.false_eq_true, if_false, if_true]

end

section
variable {d : Die} {b : Bay} {sl : Slot} {x : SuSlot} {i j : Nat} {r q : StreamDesc} {s : State}
  (slot : x = s.slotOf d b sl) (next : s.nextStream d b sl = some (i, r)) (runs : x.desc = some (j, q))
  (ready : s.suReady d b = true) (done : x.st = .done) (goesOn : x.ended = false)
  (rearms : s.rearmNext d b sl = true) (primary : q.companion = false)
include slot next runs ready done goesOn rearms primary

theorem execStreamRearm_of_unpaired (single : q.paired = false) :
    execStreamRearm d b sl s = .next ((s.setSlot d b sl (x.rearm r).takeUnits).pumpSlot d b sl) := by
  subst slot
  simp only [execStreamRearm, next, runs, ready, done, goesOn, rearms, primary, single, decide_true, Bool.not_false,
    Bool.and_self, Bool.false_eq_true, if_false, if_true]

/-- A pair is re-armed together, by a REARM on each of its slots. -/
theorem execStreamRearm_of_paired {i' : Nat} {r' : StreamDesc} {v : State} (paired : q.paired = true)
    (mateNext : s.nextStream d b (sl + 1) = some (i', r')) (mateRearms : r'.isRearm = true)
    (took : v = s.setSlot d b sl (x.rearm r).takeUnits) :
    execStreamRearm d b sl s = .next ((v.setSlot d b (sl + 1)
      (((v.slotOf d b (sl + 1)).rearm r').follow (v.slotOf d b sl))).pumpSlot d b sl) := by
  subst slot took
  simp only [execStreamRearm, next, runs, ready, done, goesOn, rearms, primary, paired, mateNext, mateRearms,
    decide_true, Bool.not_false, Bool.and_self, if_true]

end

/-- A slot that has completed every delivery of its arming is DONE (Table 10-4). -/
theorem execStreamArmingDone_of_last {d : Die} {b : Bay} {sl : Slot} {x : SuSlot} {s : State}
    (slot : x = s.slotOf d b sl) (active : SlotSt.active x.st = true) (fetched : x.refetch = false)
    (runs : x.desc.isSome = true) (last : x.last ≤ x.nDone) (primary : x.isCompanion = false) :
    execStreamArmingDone d b sl s = .next ((s.setPair d b sl { x with st := .done }).endSlotTracks d b sl) := by
  subst slot
  exact congrArg Host.Outcome.next (if_pos ⟨active, fetched, runs, last, primary⟩)

/-! ### Deliveries (10 R221) -/

/-- In a unit that is ON, requests issue before and after the oldest delivery is placed. -/
theorem suDelivery_of_on {d b sl : Nat} {s t : State} (put : State → Nat → Nat → State)
    (on : s.blkIs d (pgSu b) 2 = true)
    (issues : t = (s.setSlot d b sl { s.slotOf d b sl with
      stuck := (s.slotOf d b sl).stuck && decide (0 < (s.slotOf d b sl).iss) }).pumpSlot d b sl) :
    s.suDelivery d b sl put = (t.completeOne d b sl (some put)).pumpSlot d b sl := by
  subst issues
  simp only [State.suDelivery, on, Bool.true_eq_false, if_false]

/-- The oldest delivery is placed: its pages translate, its requests are answered, and no chunk of it is held. -/
theorem completeOne_of_answered {d b sl ix : Nat} {x : SuSlot} {q : StreamDesc} {c : Option (SuSlot × StreamDesc)}
    {ps pages : List Nat} {tr : State × Tab Nat} {m : Move} {s : State} (put : State → Nat → Nat → State)
    (slot : x = s.slotOf d b sl) (runs : x.desc = some (ix, q)) (may : x.placeable q = true)
    (mate : c = s.companionOf d b sl q) (left : ps = x.todo q x.nDone) (on : pages = (s.spansAt x q c ps).pages q c)
    (translates : tr = if x.nIss = x.nDone ∧ x.iss = 0
      then s.translateAll d (s.bayCtx d b) (decide (q.dir = 1)) pages
      else (s, Tab.get [] x.pages x.nDone))
    (mapped : (pages.any fun g => (Tab.find tr.2 g).isNone) = false) (moves : tr.1.moveOf d b x q c tr.2 ps = some m)
    (answered : tr.1.answered d b sl x m = true) (free : tr.1.chunkHeld d m.dig = false) :
    s.completeOne d b sl (some put) = tr.1.placeMove d b sl x q m put fun u => u.deliveryDone d b sl x q m := by
  subst slot mate left on translates
  simp only [State.completeOne, runs, may, mapped, moves, answered, free, Option.isNone_some, Option.getD_some,
    Bool.true_eq_false, Bool.false_eq_true, false_and, or_self, if_false]

/-! ### Page faults (10 R232, R233, R238) -/

section
variable {d b sl p ix jx pos : Nat} {f : PageFault} {q r : StreamDesc} {s : State}
  (put : State → Nat → Nat → State) (primary : p = s.primaryOf d b sl) (runs : (s.slotOf d b p).desc = some (ix, q))
  (own : (s.slotOf d b sl).desc = some (jx, r)) (place : pos = q.faultPos (if sl = p then none else some r) f.pos)
  (virtual : r.region = 0) (active : SlotSt.active (s.slotOf d b p).st = true)
include primary runs own place virtual active

/-- Under issue, the fault stops the slot at the position it names. -/
theorem slotPageFault_of_issuing (issuing : (s.slotOf d b p).refetch = false) :
    s.slotPageFault d b sl f put = s.slotStops d b sl p q pos f put := by
  subst primary place
  simp only [State.slotPageFault, runs, own, virtual, active, issuing, ne_eq, not_true_eq_false, Bool.true_eq_false,
    Bool.false_eq_true, or_self, if_false]

/-- While deliveries are fetched again, the fault is of one of those. -/
theorem slotPageFault_of_refetching (refetches : (s.slotOf d b p).refetch = true) :
    s.slotPageFault d b sl f put = s.againFault d b sl p q pos f := by
  subst primary place
  simp only [State.slotPageFault, runs, own, virtual, active, refetches, ne_eq, not_true_eq_false, Bool.true_eq_false,
    or_self, if_false, if_true]

end

/-- What a slot comes to once the positions before its cursor are placed: their reports are kept, its writes that had
issued complete, and it goes to FAULTED (10 R232). -/
def State.partFaults (s : State) (d b sl p : Nat) (x : SuSlot) (q : StreamDesc) (m : Move) (cur : Nat)
    (f : PageFault) : State :=
  let s := s.setSlot d b p { x with
    part := ⟨x.part.nan + m.nan, x.part.inf + m.inf, x.part.ovf + m.ovf, max x.part.amax m.amax⟩ }
  let s := if x.writes then s.settleWrites d b p x q cur (x.writeEnd q) else s
  s.slotFaults d b sl p cur f (s.faultKind d b f)

/-- Does a fault stop the slot `p` at position `pos`: what it has issued of its oldest delivery is answered, and `pos`,
the first of the positions `ps` left in it that does not translate, lacks the page that the fault names (10 R232)? -/
def State.stopsAt (s : State) (d b sl p : Nat) (x : SuSlot) (q : StreamDesc) (c : Option (SuSlot × StreamDesc))
    (map : Tab Nat) (ps : List Nat) (pos : Nat) (f : PageFault) : Prop :=
  s.slotReady d b x = true ∧ x.stuck = true ∧ x.nIss = x.nDone ∧ x.placeable q = true ∧
    f.write = decide (q.dir = 1) ∧ ps.find? (fun i => !(s.clearAt x q c map i)) = some pos ∧
    s.missesAt x q c map pos f.va.toNat (decide (sl ≠ p)) = true ∧ (s.awaits d b p x.nDone fun _ => true) = false

/-- Once the deliveries before the fault are complete, the positions before the first that does not translate are
placed, and the slot stops there. -/
theorem slotStops_of_stopsAt {d b sl p pos cur : Nat} {f : PageFault} {q : StreamDesc} {x : SuSlot}
    {c : Option (SuSlot × StreamDesc)} {ps : List Nat} {map : Tab Nat} {m : Move} {s t : State}
    (put : State → Nat → Nat → State)
    (completes : t = ((s.pumpSlot d b p).completeTo d b p (pos / max q.perDelivery 1 + (s.slotOf d b p).k0)
      put).pumpSlot d b p)
    (slot : x = t.slotOf d b p) (mate : c = t.companionOf d b p q) (left : ps = x.todo q x.nDone)
    (known : map = Tab.get [] x.pages x.nDone) (stops : t.stopsAt d b sl p x q c map ps pos f)
    (cursor : cur = if q.dstScale = 2 then q.blockStart pos else pos)
    (moves : t.moveOf d b x q c map (t.clearTo x q c map ps) = some m) :
    s.slotStops d b sl p q pos f put = t.placeMove d b p x q m put fun u => u.partFaults d b sl p x q m cur f := by
  subst cursor
  obtain ⟨ready, stuck, oldest, may, access, first, misses, answered⟩ := stops
  simp only [State.slotStops, State.partFaults, ← completes, ← slot, ← mate, ← left, ← known, ready, stuck, oldest,
    may, access, first, misses, answered, moves, decide_true, Bool.not_false, Bool.and_self, if_true]

/-- The fault of the first delivery to be fetched again that does not translate: the cursor stays. -/
theorem againFault_of_misses {d b sl p pos n : Nat} {f : PageFault} {q : StreamDesc} {y : SuSlot} {map : Tab Nat}
    {c : Option (SuSlot × StreamDesc)} {s : State} (again : s.againMiss d b p q = some (n, y, map))
    (mate : c = (s.companionOf d b p q).map fun z => (z.1.inArming z.2 n, z.2))
    (first : (positions ((n - y.k0) * q.perDelivery) ((n - y.k0 + 1) * q.perDelivery)).find?
      (fun i => !(s.clearAt y q c map i)) = some pos)
    (misses : s.missesAt y q c map pos f.va.toNat (decide (sl ≠ p)) = true) :
    s.againFault d b sl p q pos f = s.slotFaults d b sl p (s.slotOf d b p).cursor f (s.faultKind d b f) := by
  subst mate
  simp only [State.againFault, again]
  exact if_pos ⟨first, misses⟩

/-! ### Writes of SLOTs_CTRL and the fault timeout (10 R233, R234) -/

/-- A write of SLOTs_CTRL that acts does what the bits of its value say. -/
theorem slotCtrlWrite_of_win {s : State} {w : Writer} {d b sl v : Nat} {c : Committed}
    (wrote : c = s.write1 d (pgSu b) (0x108 + 64 * sl) w v) (acts : c.win.isSome = true) :
    s.slotCtrlWrite w d b sl v = c.s.slotCtrl d b sl v := by
  subst wrote
  exact Committed.then_of_win acts _

/-- CANCEL acts in every state of the slot. -/
theorem slotCtrl_cancel (s : State) (d b sl : Nat) : s.slotCtrl d b sl 4 = s.cancelSlot d b (s.primaryOf d b sl) := rfl

section
variable {s : State} {d b sl : Nat} (faulted : (s.slotOf d b (s.primaryOf d b sl)).st = .faulted)
include faulted

/-- Without CANCEL, the bits RESUME and ABORT act on a FAULTED slot. -/
theorem slotCtrl_resume : s.slotCtrl d b sl 1 = (s.onPair d b (s.primaryOf d b sl) fun y =>
    { y with st := .running, stuck := false }.settle).pumpSlot d b (s.primaryOf d b sl) :=
  if_neg (not_not_intro faulted)

theorem slotCtrl_abort : s.slotCtrl d b sl 2 = s.abortSlot d b (s.primaryOf d b sl) 1 :=
  if_neg (not_not_intro faulted)

end

theorem execSlotFaultTimeout_of_due {d : Die} {b : Bay} {sl : Slot} {p : Nat} {s : State}
    (primary : p = s.primaryOf d b sl) (faulted : (s.slotOf d b p).st = .faulted)
    (due : (s.slotOf d b p).faultTime + 1000000 * s.faultTimeout d b ≤ s.now d) :
    execSlotFaultTimeout d b sl s = .next (s.abortSlot d b p 4) := by
  subst primary
  exact congrArg Host.Outcome.next (if_pos ⟨faulted, due⟩)

/-! ### The end of a cancel (10 R235) -/

/-- A slot with no request to another part outstanding goes from CANCELLING to IDLE, and shows CANCEL_DONE. -/
theorem execSlotCancelComplete_of_returned {d : Die} {b : Bay} {sl : Slot} {p : Nat} {s : State}
    (primary : p = s.primaryOf d b sl) (cancelling : (s.slotOf d b p).st = .cancelling)
    (returned : (s.ctx.tracks.any fun e => e.2.ofSlot d b p && e.2.remote) = false) :
    execSlotCancelComplete d b sl s = .next (((s.settleSlot d b p).endSlotTracks d b p).onPair d b p fun x =>
      { x with st := .idle, cancelDone := true, ended := true, owes := false, kept := [] }) := by
  subst primary
  simp only [execSlotCancelComplete, cancelling, returned, ne_eq, not_true_eq_false, Bool.false_eq_true, or_self,
    if_false]

/-- Settles O38: each clause is the command's own equation under the conditions that the clause names; a delivery by the
equation for the oldest delivery, a page fault by whether the slot fetches again. -/
theorem streamCommandsComplete : Obligations.StreamCommandsComplete := by
  unfold Obligations.StreamCommandsComplete
  refine ⟨?start, ?startPair, ?rearm, ?rearmPair, ?armingDone, ?delivery, ?fault, ?faultAgain, ?resume, ?abort,
    ?cancel, ?timeout, ?cancelComplete⟩
  case start =>
    rintro d b sl ix q u s ready ended goesOn next primary first single idles
    exact (execStreamStart_of_over ready ended goesOn).trans
      (congrArg _ (startSlot_of_unpaired next primary first single idles))
  case startPair =>
    rintro d b sl ix jx kx q r z u v s ready ended goesOn next primary first paired mate idles mateNext arms mateArms
    exact (execStreamStart_of_over ready ended goesOn).trans
      (congrArg _ (startSlot_of_paired next primary first paired mate idles mateNext arms mateArms))
  case rearm => exact fun _ _ _ _ _ _ _ _ _ => execStreamRearm_of_unpaired
  case rearmPair =>
    rintro d b sl x i i' j r r' q v s slot next runs ready done goesOn rearms primary
    exact execStreamRearm_of_paired slot next runs ready done goesOn rearms primary
  case armingDone => exact fun _ _ _ _ _ => execStreamArmingDone_of_last
  case delivery =>
    rintro d b sl x ix q c ps pages tr m t s on issues slot runs may mate left onPages translates mapped moves answered
      free
    have places := completeOne_of_answered (fun u a v => u.streamWrite d b sl a v) slot runs may mate left onPages
      translates mapped moves answered free
    exact congrArg Host.Outcome.next ((suDelivery_of_on _ on issues).trans (congrArg (·.pumpSlot d b sl) places))
  case fault =>
    rintro d b sl f p cur pos ix jx q r c ps map x m t s primary runs own place virtual active issuing completes slot
      mate left known ready stuck oldest may access first misses answered cursor moves
    have stops := slotStops_of_stopsAt (fun u a v => u.streamWrite d b sl a v) completes slot mate left known
      ⟨ready, stuck, oldest, may, access, first, misses, answered⟩ cursor moves
    exact congrArg Host.Outcome.next
      ((slotPageFault_of_issuing _ primary runs own place virtual active issuing).trans stops)
  case faultAgain =>
    rintro d b sl f p pos n ix jx q r y map c s primary runs own place virtual active refetches again mate first misses
    exact congrArg Host.Outcome.next
      ((slotPageFault_of_refetching _ primary runs own place virtual active refetches).trans
        (againFault_of_misses again mate first misses))
  case resume =>
    rintro w d b sl c s wrote acts faulted
    exact congrArg Host.Outcome.next ((slotCtrlWrite_of_win wrote acts).trans (slotCtrl_resume faulted))
  case abort =>
    rintro w d b sl c s wrote acts faulted
    exact congrArg Host.Outcome.next ((slotCtrlWrite_of_win wrote acts).trans (slotCtrl_abort faulted))
  case cancel =>
    rintro w d b sl c s wrote acts
    exact congrArg Host.Outcome.next ((slotCtrlWrite_of_win wrote acts).trans (slotCtrl_cancel c.s d b sl))
  case timeout => exact fun _ _ _ _ _ => execSlotFaultTimeout_of_due
  case cancelComplete => exact fun _ _ _ _ _ => execSlotCancelComplete_of_returned

end Sys2Proof.Machine
end

section
/-! SUPPORT. What the check of a sector leaves in memory (11 R265, R266, R268, R269): a sector that is corrected changes alone,
and one that fails its check changes nothing that memory holds, while no mailbox 14 is armed. -/

namespace Sys2Proof.Machine

/-! ### Sectors of a range -/

theorem mem_sectorsOf {k n x : Nat} : x ∈ sectorsOf k n ↔ 0 < n ∧ k / 64 ≤ x ∧ x ≤ (k + n - 1) / 64 := by
  by_cases empty : n = 0
  · simp [sectorsOf, empty]
  · simp only [sectorsOf, if_neg empty, List.mem_map, List.mem_range]
    constructor
    · rintro ⟨i, inside, rfl⟩
      omega
    · rintro ⟨_, first, last⟩
      exact ⟨x - k / 64, by omega, by omega⟩

theorem nodup_sectorsOf (k n : Nat) : (sectorsOf k n).Nodup := by
  unfold sectorsOf
  split
  · exact List.nodup_nil
  · exact List.Pairwise.map _ (fun _ _ differ same => differ (Nat.add_left_cancel same)) List.nodup_range

/-- A range within one sector touches that sector only. -/
theorem sectorsOf_within (sec : Nat) {off n : Nat} (nonempty : 0 < n) (within : off + n ≤ 64) :
    sectorsOf (64 * sec + off) n = [sec] := by
  have first : (64 * sec + off) / 64 = sec := by omega
  have last : (64 * sec + off + n - 1) / 64 = sec := by omega
  simp [sectorsOf, Nat.ne_of_gt nonempty, first, last]

theorem sectorsOf_sector (sec : Nat) : sectorsOf (sec * 64) 64 = [sec] := by
  rw [Nat.mul_comm]
  exact sectorsOf_within sec (off := 0) (by decide) (by decide)

/-! ### Tables -/

theorem Tab.find_del {α : Type} (t : Tab α) (k k' : Nat) :
    Tab.find (Tab.del t k) k' = if k' = k then none else Tab.find t k' := by
  induction t with
  | nil => simp [Tab.del, Tab.find]
  | cons e t ih =>
    obtain ⟨j, w⟩ := e
    by_cases here : k = j
    · subst here
      rw [Tab.del, if_pos rfl, ih]
      by_cases same : k' = k
      · rw [if_pos same, if_pos same]
      · rw [if_neg same, if_neg same, Tab.find, if_neg same]
    · rw [Tab.del, if_neg here, Tab.find, Tab.find, ih]
      by_cases same : k' = k
      · rw [if_pos same, if_neg (same ▸ here), if_pos same]
      · rw [if_neg same, if_neg same]

/-- Bytes put into the table from `k` stand there, and every other byte is as before. -/
theorem get_putBytes (xs : List Byte) (t : Tab Byte) (k j : Nat) :
    Tab.get 0 (putBytes t k xs) j = if k ≤ j ∧ j < k + xs.length then xs.getD (j - k) 0 else Tab.get 0 t j := by
  induction xs generalizing t k with
  | nil =>
    have outside : ¬ (k ≤ j ∧ j < k + [].length (α := Byte)) := by simp
    rw [putBytes, if_neg outside]
  | cons x xs ih =>
    rw [putBytes, ih, Tab.get_set 0 0 t k j x fun _ => rfl, List.length_cons]
    rcases Nat.lt_trichotomy j k with below | rfl | above
    · rw [if_neg (by omega), if_neg (by omega), if_neg (by omega)]
    · rw [if_neg (by omega), if_pos rfl, if_pos (by omega), Nat.sub_self, List.getD_cons_zero]
    · have next : j - k = j - (k + 1) + 1 := by omega
      rw [if_neg (show ¬ j = k by omega), next, List.getD_cons_succ]
      by_cases inside : j < k + (xs.length + 1)
      · rw [if_pos (by omega), if_pos (by omega)]
      · rw [if_neg (by omega), if_neg (by omega)]

/-! ### One sector of two states -/

/-- A sector holds the same bytes, the same errors and the same mark. -/
structure SameSector (sec : Nat) (s t : State) : Prop where
  bytes : ∀ j, j / 64 = sec → t.memByte j = s.memByte j
  err : Tab.find t.mem.err sec = Tab.find s.mem.err sec
  bad : Tab.get false t.mem.bad sec = Tab.get false s.mem.bad sec

theorem SameSector.refl (sec : Nat) (s : State) : SameSector sec s s := ⟨fun _ _ => rfl, rfl, rfl⟩

theorem SameSector.trans {sec : Nat} {s t u : State} (h : SameSector sec s t) (g : SameSector sec t u) :
    SameSector sec s u :=
  ⟨fun j at_ => (g.bytes j at_).trans (h.bytes j at_), g.err.trans h.err, g.bad.trans h.bad⟩

theorem SameData.refl (s : State) : SameData s s := ⟨rfl, rfl, rfl⟩

theorem SameData.trans {s t u : State} (h : SameData s t) (g : SameData t u) : SameData s u :=
  ⟨g.1.trans h.1, g.2.1.trans h.2.1, g.2.2.trans h.2.2⟩

theorem SameData.of_mem_eq {s t : State} (h : t.mem = s.mem) : SameData s t := by
  rw [SameData, h]
  exact ⟨rfl, rfl, rfl⟩

/-- A component that every step of a fold leaves, the fold leaves. -/
theorem foldl_proj_eq {α β : Type} (p : State → β) {f : State → α → State} (hf : ∀ s x, p (f s x) = p s) (l : List α)
    (s : State) : p (l.foldl f s) = p s := by
  induction l generalizing s with
  | nil => rfl
  | cons x l ih => exact (ih _).trans (hf s x)

theorem SameData.foldl {α : Type} {f : State → α → State} (hf : ∀ s x, SameData s (f s x)) (l : List α) (s : State) :
    SameData s (l.foldl f s) := by
  induction l generalizing s with
  | nil => exact .refl s
  | cons x l ih => exact (hf s x).trans (ih _)

theorem SameData.memByte {s t : State} (h : SameData s t) (j : Nat) : t.memByte j = s.memByte j := by
  rw [State.memByte, h.1, State.memByte]

theorem SameData.sector {s t : State} (h : SameData s t) (sec : Nat) : SameSector sec s t :=
  ⟨fun j _ => h.memByte j, by rw [h.2.1], by rw [h.2.2]⟩

/-- What the check of a sector finds depends on that sector alone. -/
theorem SameSector.outcome {sec : Nat} {s t : State} (h : SameSector sec s t) :
    t.sectorOutcome sec = s.sectorOutcome sec := by
  have data : t.memRead (sec * 64) 64 = s.memRead (sec * 64) 64 := by
    refine List.map_congr_left fun i inside => h.bytes _ ?_
    have := List.mem_range.1 inside
    omega
  simp only [State.sectorOutcome, State.received, h.err, h.bad, data]

theorem SameSector.isBad {sec : Nat} {s t : State} (h : SameSector sec s t) : t.isBad sec = s.isBad sec := by
  rw [State.isBad, h.outcome, State.isBad]

theorem isBad_iff {s : State} {sec : Nat} : s.isBad sec = true ↔ s.sectorOutcome sec = .bad := by
  rw [State.isBad, decide_eq_true_iff]

/-- A sector without mark and without error passes its check. -/
theorem isBad_of_unmarked {s : State} {sec : Nat} (unmarked : Tab.get false s.mem.bad sec = false)
    (noError : Tab.find s.mem.err sec = none) : s.isBad sec = false := by
  simp [State.isBad, State.sectorOutcome, unmarked, noError]

/-! ### Clearing and correcting a sector -/

theorem clearBad_other {s : State} {sec x : Nat} (other : x ≠ sec) : SameSector x s (s.clearBad sec) where
  bytes := fun _ _ => rfl
  err := (Tab.find_del s.mem.err sec x).trans (if_neg other)
  bad := (Tab.get_set false false s.mem.bad sec x false fun _ => rfl).trans (if_neg other)

theorem clearBad_err (s : State) (sec : Nat) : Tab.find (s.clearBad sec).mem.err sec = none :=
  (Tab.find_del s.mem.err sec sec).trans (if_pos rfl)

theorem clearBad_bad (s : State) (sec : Nat) : Tab.get false (s.clearBad sec).mem.bad sec = false :=
  (Tab.get_set false false s.mem.bad sec sec false fun _ => rfl).trans (if_pos rfl)

theorem heal_other {s : State} {sec x : Nat} (fixes : List (Nat × Nat)) (other : x ≠ sec) :
    SameSector x s (s.heal sec fixes) where
  bytes := by
    intro j at_
    refine (get_putBytes _ _ _ _).trans (if_neg ?_)
    rw [List.length_map, List.length_range]
    omega
  err := (clearBad_other other).err
  bad := (clearBad_other other).bad

@[simp] theorem heal_fw (s : State) (sec : Nat) (fixes : List (Nat × Nat)) : (s.heal sec fixes).fw = s.fw := (rfl)

theorem heal_isBad (s : State) (sec : Nat) (fixes : List (Nat × Nat)) : (s.heal sec fixes).isBad sec = false :=
  isBad_of_unmarked (clearBad_bad s sec) (clearBad_err s sec)

@[simp] theorem histEvent_mem (s : State) (kind d ix event : Nat) (e : HistEvent → HistEvent) :
    (s.histEvent kind d ix event e).mem = s.mem := by
  unfold State.histEvent
  simp only [State.satF_mem]

@[simp] theorem histEvent_fw (s : State) (kind d ix event : Nat) (e : HistEvent → HistEvent) :
    (s.histEvent kind d ix event e).fw = s.fw := by
  unfold State.histEvent
  simp only [State.satF_fw]

theorem setLaneMap_same (s : State) (d t pc v : Nat) : SameData s (s.setLaneMap d t pc v) := ⟨rfl, rfl, rfl⟩
@[simp] theorem setLaneMap_fw (s : State) (d t pc v : Nat) : (s.setLaneMap d t pc v).fw = s.fw := (rfl)

theorem noteCe_same (s : State) (key : Nat) (ts : List Nat) : SameData s (s.noteCe key ts) := ⟨rfl, rfl, rfl⟩
@[simp] theorem noteCe_fw (s : State) (key : Nat) (ts : List Nat) : (s.noteCe key ts).fw = s.fw := (rfl)

theorem laneSuspect_same (s : State) (d t pc lane : Nat) : SameData s (s.laneSuspect d t pc lane) := by
  simp only [State.laneSuspect]
  repeat' split
  · exact .refl s
  all_goals rw [SameData, histEvent_mem, State.logAt_mem, State.setErr_mem]
  · exact setLaneMap_same s d t pc _
  · exact setLaneMap_same s d t pc _
  · exact ⟨rfl, rfl, rfl⟩

@[simp] theorem laneSuspect_fw (s : State) (d t pc lane : Nat) : (s.laneSuspect d t pc lane).fw = s.fw := by
  simp only [State.laneSuspect]
  repeat' split
  all_goals simp only [histEvent_fw, State.logAt_fw, State.setErr_fw, setLaneMap_fw]

theorem laneCe_same (s : State) (k lane : Nat) : SameData s (s.laneCe k lane) := by
  simp only [State.laneCe]
  split
  · exact (noteCe_same s _ _).trans (laneSuspect_same _ _ _ _ _)
  · exact noteCe_same s _ _

@[simp] theorem laneCe_fw (s : State) (k lane : Nat) : (s.laneCe k lane).fw = s.fw := by
  simp only [State.laneCe]
  split
  · rw [laneSuspect_fw, noteCe_fw]
  · exact noteCe_fw s _ _

/-- To correct a sector is to heal it, and to count and note the lanes that were wrong. -/
theorem corrected_same_heal (s : State) (sec : Nat) (fixes : List (Nat × Nat)) :
    SameData (s.heal sec fixes) (s.corrected sec fixes) :=
  SameData.trans (.of_mem_eq (by rw [State.setErr_mem, State.satF_mem]))
    (SameData.foldl (fun u lane => laneCe_same u (sec * 64) lane) _ _)

theorem corrected_other {s : State} {sec x : Nat} (fixes : List (Nat × Nat)) (other : x ≠ sec) :
    SameSector x s (s.corrected sec fixes) :=
  (heal_other fixes other).trans ((corrected_same_heal s sec fixes).sector x)

theorem corrected_isBad (s : State) (sec : Nat) (fixes : List (Nat × Nat)) : (s.corrected sec fixes).isBad sec = false :=
  ((corrected_same_heal s sec fixes).sector sec).isBad.trans (heal_isBad s sec fixes)

theorem corrected_fw (s : State) (sec : Nat) (fixes : List (Nat × Nat)) : (s.corrected sec fixes).fw = s.fw := by
  refine (foldl_proj_eq State.fw (fun u lane => laneCe_fw u (sec * 64) lane) _ _).trans ?_
  rw [State.setErr_fw, State.satF_fw, heal_fw]

/-! ### Meeting uncorrectable data -/

/-- Memory holds what it held in `s₀`, and no mailbox 14 is armed to take a notice into it. -/
structure Unnoticed (s₀ t : State) : Prop where
  data : SameData s₀ t
  unarmed : t.fw.armed = none

theorem Unnoticed.step {s₀ t u : State} (h : Unnoticed s₀ t) (data : SameData t u) (fw : u.fw = t.fw) : Unnoticed s₀ u :=
  ⟨h.data.trans data, by rw [fw]; exact h.unarmed⟩

theorem Unnoticed.foldl {α : Type} {s₀ : State} {f : State → α → State}
    (hf : ∀ {t} x, Unnoticed s₀ t → Unnoticed s₀ (f t x)) (l : List α) {t : State} (h : Unnoticed s₀ t) :
    Unnoticed s₀ (l.foldl f t) := by
  induction l generalizing t with
  | nil => exact h
  | cons x l ih => exact ih (hf x h)

/-- The micro-batch of INPUTS that is lost with a key, noted and told to the host. -/
def State.inputsLost (s : State) (k : Nat) : State :=
  if s.ueRegion k = 2 then
    match s.microBatchOf k with
    | some mb =>
      ({ s with retained := { s.retained with inputsLost := s.retained.inputsLost ++ [mb] } }).notice 0x8002
        (leBytes 6 s.stepNum ++ leBytes 2 mb ++ leBytes 4 (s.inputOffset mb))
    | none => s
  else s

theorem regionLost_eq (s : State) (k : Nat) : s.regionLost k =
    if (s.inputsLost k).ueRegion k = 3 then
      { s.inputsLost k with retained := { (s.inputsLost k).retained with buddyValid := false } }
    else s.inputsLost k := rfl

section
variable {s₀ t : State} (h : Unnoticed s₀ t)
include h

/-- A notice that no armed mailbox takes waits, or is dropped. -/
theorem Unnoticed.notice (ty : Nat) (body : List Byte) : Unnoticed s₀ (t.notice ty body) := by
  have waits (u : State) (unarmed : u.fw.armed = none) : u.noticeOut = u := by
    simp only [State.noticeOut, unarmed]
    split <;> rfl
  simp only [State.notice]
  split
  · exact h.step (.of_mem_eq (State.incF_mem _ _ _ _ _ _ _)) (State.incF_fw _ _ _ _ _ _ _)
  · rw [waits { t with fw := { t.fw with notices := t.fw.notices ++ [(ty, body)] } } h.unarmed]
    exact ⟨h.data, h.unarmed⟩

/-- What is kept of the retained regions is not memory. -/
theorem Unnoticed.retained (x : Retained) : Unnoticed s₀ { t with retained := x } := ⟨h.data, h.unarmed⟩

theorem Unnoticed.meetBad (sec : Nat) : Unnoticed s₀ (t.meetBad sec) := by
  have counted (key : Nat) : Unnoticed s₀ (t.countUe key) := h.step ⟨rfl, rfl, rfl⟩ rfl
  simp only [State.meetBad]
  split
  · exact h.step (.of_mem_eq (State.setErr_mem _ _ _ _)) (State.setErr_fw _ _ _ _)
  · exact (counted _).step (.of_mem_eq (State.setErr_mem _ _ _ _)) (State.setErr_fw _ _ _ _)

theorem Unnoticed.inputsLost (k : Nat) : Unnoticed s₀ (t.inputsLost k) := by
  unfold State.inputsLost
  repeat' split
  · exact (h.retained _).notice _ _
  · exact h
  · exact h

theorem Unnoticed.regionLost (k : Nat) : Unnoticed s₀ (t.regionLost k) := by
  rw [regionLost_eq]
  split
  · exact (h.inputsLost k).retained _
  · exact h.inputsLost k

theorem Unnoticed.rowDue (sec : Nat) : Unnoticed s₀ (t.rowDue sec) := by
  simp only [State.rowDue]
  split
  · exact h.step (.of_mem_eq (State.took_mem _ _)) (State.took_fw _ _)
  · exact ⟨h.data, h.unarmed⟩

theorem Unnoticed.newBad (sec : Nat) : Unnoticed s₀ (t.newBad sec) := by
  have found : Unnoticed s₀ { t with mem := { t.mem with found := Tab.set false t.mem.found sec true } } :=
    ⟨h.data, h.unarmed⟩
  have lost := found.regionLost (sec * 64)
  exact (lost.step (.of_mem_eq (State.satF_mem _ _ _ _ _ _ _)) (State.satF_fw _ _ _ _ _ _ _)).rowDue sec

theorem Unnoticed.reportUe (k n : Nat) (scrub : Bool) : Unnoticed s₀ (t.reportUe k n scrub) := by
  simp only [State.reportUe]
  refine Unnoticed.step (Unnoticed.retained (h.step ?_ ?_) _) (.of_mem_eq (State.logAt_mem _ _ _ _ _ _))
    (State.logAt_fw _ _ _ _ _ _)
  · exact .of_mem_eq (by rw [State.setErr_mem, State.wr_mem, State.wr_mem])
  · rw [State.setErr_fw, State.wr_fw, State.wr_fw]

theorem Unnoticed.foundBad (secs : List Nat) (scrub : Bool) : Unnoticed s₀ (t.foundBad secs scrub) :=
  Unnoticed.foldl (fun _ u => u.reportUe _ _ _) _ (Unnoticed.foldl (fun _ u => u.newBad _) _ h)

theorem Unnoticed.rehSeen (secs : List Nat) : Unnoticed s₀ (t.rehSeen secs) := by
  simp only [State.rehSeen, State.rehFound]
  repeat' split
  all_goals exact ⟨h.data, h.unarmed⟩

theorem Unnoticed.bankDue (bank : Nat) :
    Unnoticed s₀ { t with mem := { t.mem with bankDue := t.mem.bankDue ++ [bank] } } := ⟨h.data, h.unarmed⟩

theorem Unnoticed.bankFail (d b : Nat) : Unnoticed s₀ (t.bankFail d b) := by
  simp only [State.bankFail]
  split
  · exact h
  · have marked := h.step (u := (((t.wrF d pgShc 0x0A8 b 1 1).setErr d pgShc 10).logAt d srcHw .bankFail [d, b]).histEvent
      3 d b 8) (.of_mem_eq (by simp)) (by simp)
    have due := marked.bankDue (d * 64 + b)
    exact due.step (.of_mem_eq (State.noCert_mem _ _)) (State.noCert_fw _ _)

theorem Unnoticed.bankCheck (d : Nat) : Unnoticed s₀ (t.bankCheck d) := by
  refine Unnoticed.foldl (fun b u => ?_) _ h
  split
  · exact u.bankFail d b
  · exact u

end

/-! ### The check of one sector -/

theorem checkRange_sector (s : State) (sec : Nat) :
    s.checkRange (sec * 64) 64 = s.checkSecs (sec * 64 / 2 ^ 38 % 4) [sec] := by
  rw [State.checkRange, sectorsOf_sector]

theorem checkRange_of_fixed {s : State} {sec : Nat} {fs : List (Nat × Nat)} (fixed : s.sectorOutcome sec = .fixed fs) :
    s.checkRange (sec * 64) 64 = s.corrected sec fs := by
  have check : s.checkSector sec = s.corrected sec fs := by rw [State.checkSector, fixed]
  simp [checkRange_sector, State.checkSecs, check, corrected_isBad]

theorem checkRange_of_clean {s : State} {sec : Nat} (clean : s.sectorOutcome sec = .clean) :
    s.checkRange (sec * 64) 64 = s := by
  rw [checkRange_sector]
  exact checkSecs_clean _ (by simpa using clean)

theorem checkRange_of_bad {s : State} {sec : Nat} (bad : s.isBad sec = true) (unarmed : s.fw.armed = none) :
    Unnoticed s (s.checkRange (sec * 64) 64) := by
  have check : s.checkSector sec = s := by rw [State.checkSector, isBad_iff.1 bad]
  have meets : s.checkRange (sec * 64) 64 =
      (((s.meetBad sec).foundBad [sec] false).rehSeen [sec]).bankCheck (sec * 64 / 2 ^ 38 % 4) := by
    simp [checkRange_sector, State.checkSecs, check, bad]
  rw [meets]
  exact (((Unnoticed.meetBad ⟨.refl s, unarmed⟩ sec).foundBad [sec] false).rehSeen [sec]).bankCheck _

/-- The sector is readable, or no mailbox 14 is armed: then the check of the sector changes no other sector. -/
def State.quietAt (s : State) (sec : Nat) : Prop := s.isBad sec = false ∨ s.fw.armed = none

/-- What the check of a sector leaves: a sector that cannot be corrected, or needs not, stays; and a correction heals it
alone. -/
theorem checkRange_sector_cases {s : State} {sec : Nat} (quiet : s.quietAt sec) :
    (SameData s (s.checkRange (sec * 64) 64) ∧ (s.fw.armed = none → (s.checkRange (sec * 64) 64).fw.armed = none)) ∨
      ∃ fs, s.sectorOutcome sec = .fixed fs ∧ s.checkRange (sec * 64) 64 = s.corrected sec fs := by
  cases found : s.sectorOutcome sec with
  | clean =>
    rw [checkRange_of_clean found]
    exact .inl ⟨.refl s, id⟩
  | fixed fs => exact .inr ⟨fs, rfl, checkRange_of_fixed found⟩
  | bad =>
    have bad := isBad_iff.2 found
    have unarmed : s.fw.armed = none := quiet.resolve_left (by simp [bad])
    have stays := checkRange_of_bad bad unarmed
    exact .inl ⟨stays.data, fun _ => stays.unarmed⟩

end Sys2Proof.Machine
end

section
/-! SUPPORT. What a write to memory leaves (11 R251, R267, R268): the write of one sector, and of the sectors of a range in
turn. -/

namespace Sys2Proof.Machine

/-! ### Storing bytes -/

theorem useSector_same (s : State) (sec : Nat) : SameData s (s.useSector sec) := by
  simp only [State.useSector]
  split <;> exact ⟨rfl, rfl, rfl⟩

theorem useSector_frame (s : State) (sec : Nat) : (s.useSector sec).fw = s.fw ∧ (s.useSector sec).cue = s.cue := by
  simp only [State.useSector]
  split <;> exact ⟨rfl, rfl⟩

theorem dirtySector_same (s : State) (sec : Nat) : SameData s (s.dirtySector sec) := by
  unfold State.dirtySector
  split <;> exact ⟨rfl, rfl, rfl⟩

theorem dirtySector_frame (s : State) (sec : Nat) :
    (s.dirtySector sec).fw = s.fw ∧ (s.dirtySector sec).cue = s.cue := by
  unfold State.dirtySector
  split <;> exact ⟨rfl, rfl⟩

/-- The sectors that a store touches, as the cache holds them before the bytes are stored. -/
def State.dirtied (s : State) (k n : Nat) : State :=
  (sectorsOf k n).foldl (fun s sec => (s.useSector sec).dirtySector sec) s

theorem memStore_eq (s : State) (k : Nat) (xs : List Byte) : s.memStore k xs =
    { s.dirtied k xs.length with mem := { (s.dirtied k xs.length).mem with
        bytes := putBytes (s.dirtied k xs.length).mem.bytes k xs } } := rfl

theorem dirtied_same (s : State) (k n : Nat) : SameData s (s.dirtied k n) :=
  SameData.foldl (fun s sec => (useSector_same s sec).trans (dirtySector_same _ sec)) _ s

theorem memStore_fw (s : State) (k : Nat) (xs : List Byte) : (s.memStore k xs).fw = s.fw :=
  foldl_proj_eq State.fw (fun s sec => (dirtySector_frame _ sec).1.trans (useSector_frame s sec).1) _ s

theorem memStore_cue (s : State) (k : Nat) (xs : List Byte) : (s.memStore k xs).cue = s.cue :=
  foldl_proj_eq State.cue (fun s sec => (dirtySector_frame _ sec).2.trans (useSector_frame s sec).2) _ s

theorem memStore_err (s : State) (k : Nat) (xs : List Byte) : (s.memStore k xs).mem.err = s.mem.err :=
  (dirtied_same s k xs.length).2.1

theorem memStore_bad (s : State) (k : Nat) (xs : List Byte) : (s.memStore k xs).mem.bad = s.mem.bad :=
  (dirtied_same s k xs.length).2.2

theorem memByte_memStore (s : State) (k j : Nat) (xs : List Byte) : (s.memStore k xs).memByte j =
    if k ≤ j ∧ j < k + xs.length then xs.getD (j - k) 0 else s.memByte j := by
  rw [memStore_eq, State.memByte, get_putBytes, (dirtied_same s k xs.length).1, State.memByte]

theorem memStore_other {s : State} {k x : Nat} {xs : List Byte}
    (outside : ∀ j, j / 64 = x → ¬ (k ≤ j ∧ j < k + xs.length)) : SameSector x s (s.memStore k xs) where
  bytes := fun j at_ => (memByte_memStore s k j xs).trans (if_neg (outside j at_))
  err := by rw [memStore_err]
  bad := by rw [memStore_bad]

/-! ### A rehearsal that corrupts the sector (16 R377) -/

theorem rehCorrupt_cases (s : State) (sec : Nat) :
    s.rehCorrupt sec = s ∨ ∃ r, s.rehCorrupt sec = (s.markBad sec).rehInject r sec := by
  unfold State.rehCorrupt
  repeat' split
  · exact .inr ⟨_, rfl⟩
  · exact .inl rfl
  · exact .inl rfl

theorem rehCorrupt_of_none {s : State} (none_ : s.cue.reh = none) (sec : Nat) : s.rehCorrupt sec = s := by
  simp [State.rehCorrupt, State.rehOn, none_]

@[simp] theorem rehCorrupt_fw (s : State) (sec : Nat) : (s.rehCorrupt sec).fw = s.fw := by
  obtain e | ⟨r, e⟩ := rehCorrupt_cases s sec <;> rw [e]
  rfl

theorem rehCorrupt_memByte (s : State) (sec j : Nat) : (s.rehCorrupt sec).memByte j = s.memByte j := by
  obtain e | ⟨r, e⟩ := rehCorrupt_cases s sec <;> rw [e]
  rfl

theorem rehCorrupt_other {s : State} {sec x : Nat} (other : x ≠ sec) : SameSector x s (s.rehCorrupt sec) := by
  obtain e | ⟨r, e⟩ := rehCorrupt_cases s sec <;> rw [e]
  · exact .refl x s
  · exact ⟨fun _ _ => rfl, rfl, (Tab.get_set false false s.mem.bad sec x true fun _ => rfl).trans (if_neg other)⟩

/-! ### The write of one sector (R251, R268) -/

/-- Where a write of a range from `k` begins in a sector. -/
def writeLo (k sec : Nat) : Nat := max k (sec * 64)
/-- What a write of `xs` from `k` stores in a sector. -/
def writePart (k : Nat) (xs : List Byte) (sec : Nat) : List Byte :=
  (xs.drop (writeLo k sec - k)).take (min (k + xs.length) (sec * 64 + 64) - writeLo k sec)

theorem length_writePart {k sec : Nat} {xs : List Byte} :
    (writePart k xs sec).length = min (k + xs.length) (sec * 64 + 64) - writeLo k sec := by
  simp only [writePart, writeLo, List.length_take, List.length_drop]
  omega

theorem getD_writePart {k sec i : Nat} (xs : List Byte) (inside : i < (writePart k xs sec).length) :
    (writePart k xs sec).getD i 0 = xs.getD (writeLo k sec + i - k) 0 := by
  have place : writeLo k sec - k + i = writeLo k sec + i - k := by
    have : k ≤ writeLo k sec := Nat.le_max_left _ _
    omega
  rw [length_writePart] at inside
  simp only [writePart, List.getD_eq_getElem?_getD, List.getElem?_take, if_pos inside, List.getElem?_drop, place]

theorem memWriteSec_of_whole {k sec : Nat} {xs : List Byte} (whole : (writePart k xs sec).length = 64) (s : State) :
    s.memWriteSec k xs sec = (((s.clearBad sec).memStore (writeLo k sec) (writePart k xs sec)).rehCorrupt sec, true) :=
  if_pos whole

theorem memWriteSec_of_part {k sec : Nat} {xs : List Byte} (part : (writePart k xs sec).length ≠ 64) (s : State) :
    s.memWriteSec k xs sec =
      if (s.checkRange (sec * 64) 64).isBad sec then (s.checkRange (sec * 64) 64, false)
      else (((s.checkRange (sec * 64) 64).memStore (writeLo k sec) (writePart k xs sec)).rehCorrupt sec, true) :=
  if_neg part

/-- What comes before the bytes of a sector are stored: nothing changes in another sector, no mailbox 14 gets armed, and,
where no error stands in the sector, no byte changes. -/
structure Prepares (sec : Nat) (s u : State) : Prop where
  other : ∀ x, x ≠ sec → SameSector x s u
  unarmed : s.fw.armed = none → u.fw.armed = none
  bytes : Tab.find s.mem.err sec = none → ∀ j, u.memByte j = s.memByte j

theorem clearBad_prepares (s : State) (sec : Nat) : Prepares sec s (s.clearBad sec) :=
  ⟨fun _ => clearBad_other, id, fun _ _ => rfl⟩

/-- A sector without an error is not corrected. -/
theorem not_fixed_of_noError {s : State} {sec : Nat} (noError : Tab.find s.mem.err sec = none) (fs : List (Nat × Nat)) :
    s.sectorOutcome sec ≠ .fixed fs := by
  simp only [State.sectorOutcome, noError]
  split <;> simp

theorem checkRange_prepares {s : State} {sec : Nat} (quiet : s.quietAt sec) :
    Prepares sec s (s.checkRange (sec * 64) 64) := by
  obtain ⟨same, unarmed⟩ | ⟨fs, fixed, corrects⟩ := checkRange_sector_cases quiet
  · exact ⟨fun x _ => same.sector x, unarmed, fun _ => same.memByte⟩
  · rw [corrects]
    exact ⟨fun _ => corrected_other fs, fun unarmed => by rw [corrected_fw, unarmed],
      fun noError => absurd fixed (not_fixed_of_noError noError fs)⟩

theorem checkRange_isBad_of_readable {s : State} {sec : Nat} (readable : s.isBad sec = false) :
    (s.checkRange (sec * 64) 64).isBad sec = false := by
  obtain ⟨same, -⟩ | ⟨fs, -, corrects⟩ := checkRange_sector_cases (.inl readable)
  · rw [(same.sector sec).isBad, readable]
  · rw [corrects, corrected_isBad]

/-- The write of a sector stores the bytes that fall into it, after what prepares it, or is refused. -/
theorem memWriteSec_cases {s : State} {sec : Nat} (k : Nat) (xs : List Byte) (quiet : s.quietAt sec) :
    ∃ u, Prepares sec s u ∧
      (s.memWriteSec k xs sec = ((u.memStore (writeLo k sec) (writePart k xs sec)).rehCorrupt sec, true) ∨
        s.memWriteSec k xs sec = (u, false) ∧ s.isBad sec = true) := by
  by_cases whole : (writePart k xs sec).length = 64
  · exact ⟨_, clearBad_prepares s sec, .inl (memWriteSec_of_whole whole s)⟩
  · refine ⟨_, checkRange_prepares quiet, ?_⟩
    rw [memWriteSec_of_part whole]
    by_cases refused : (s.checkRange (sec * 64) 64).isBad sec = true
    · rw [if_pos refused]
      refine .inr ⟨rfl, ?_⟩
      cases readable : s.isBad sec with
      | true => rfl
      | false =>
        rw [checkRange_isBad_of_readable readable] at refused
        exact absurd refused Bool.false_ne_true
    · exact .inl (if_neg refused)

section
variable {s : State} {k sec : Nat} {xs : List Byte}

/-- The bytes that a sector's write stores are those of the range that lie in the sector. -/
theorem stored_iff (j : Nat) :
    (writeLo k sec ≤ j ∧ j < writeLo k sec + (writePart k xs sec).length) ↔
      (j / 64 = sec ∧ k ≤ j ∧ j < k + xs.length) := by
  rw [length_writePart, writeLo]
  omega

/-- The write of a sector changes no other sector. -/
theorem memWriteSec_other (quiet : s.quietAt sec) {x : Nat} (other : x ≠ sec) :
    SameSector x s (s.memWriteSec k xs sec).1 := by
  obtain ⟨u, prepared, stores | ⟨refused, -⟩⟩ := memWriteSec_cases k xs quiet
  · rw [stores]
    refine ((prepared.other x other).trans (memStore_other fun j at_ inside => ?_)).trans (rehCorrupt_other other)
    exact other (at_.symm.trans ((stored_iff j).1 inside).1)
  · rw [refused]
    exact prepared.other x other

theorem memWriteSec_unarmed (unarmed : s.fw.armed = none) : (s.memWriteSec k xs sec).1.fw.armed = none := by
  obtain ⟨u, prepared, stores | ⟨refused, -⟩⟩ := memWriteSec_cases (sec := sec) k xs (.inr unarmed)
  · rw [stores, rehCorrupt_fw, memStore_fw, prepared.unarmed unarmed]
  · rw [refused, prepared.unarmed unarmed]

/-- Where no error stands in the sector, its bytes outside the range stay. -/
theorem memWriteSec_outside (quiet : s.quietAt sec) (noError : Tab.find s.mem.err sec = none) {j : Nat}
    (outside : j < k ∨ k + xs.length ≤ j) : (s.memWriteSec k xs sec).1.memByte j = s.memByte j := by
  obtain ⟨u, prepared, stores | ⟨refused, -⟩⟩ := memWriteSec_cases k xs quiet
  · have apart : ¬ (writeLo k sec ≤ j ∧ j < writeLo k sec + (writePart k xs sec).length) := by
      rw [stored_iff]
      omega
    rw [stores, rehCorrupt_memByte, memByte_memStore, if_neg apart, prepared.bytes noError]
  · rw [refused, prepared.bytes noError]

/-- A readable sector takes the bytes of the range. -/
theorem memWriteSec_of_readable (readable : s.isBad sec = false) : (s.memWriteSec k xs sec).2 = true ∧
    ∀ j, j / 64 = sec → k ≤ j → j < k + xs.length → (s.memWriteSec k xs sec).1.memByte j = xs.getD (j - k) 0 := by
  obtain ⟨u, -, stores | ⟨-, bad⟩⟩ := memWriteSec_cases k xs (.inl readable)
  · rw [stores]
    refine ⟨rfl, fun j at_ first last => ?_⟩
    have inside := (stored_iff (k := k) (xs := xs) j).2 ⟨at_, first, last⟩
    have place : writeLo k sec + (j - writeLo k sec) = j := by omega
    rw [rehCorrupt_memByte, memByte_memStore, if_pos inside, getD_writePart xs (by omega), place]
  · rw [bad] at readable
    exact absurd readable (by decide)

end

/-! ### The write of a range, sector by sector -/

/-- The sectors of a list are written in turn, each with what of the range falls into it. -/
def writeSecs (k : Nat) (xs : List Byte) (l : List Nat) (a : State × Bool) : State × Bool :=
  l.foldl (fun a sec => ((a.1.memWriteSec k xs sec).1, a.2 && (a.1.memWriteSec k xs sec).2)) a

theorem memWrite_eq (s : State) (k : Nat) (xs : List Byte) :
    s.memWrite k xs = writeSecs k xs (sectorsOf k xs.length) (s, true) := rfl

theorem writeSecs_cons (k : Nat) (xs : List Byte) (sec : Nat) (l : List Nat) (s : State) (b : Bool) :
    writeSecs k xs (sec :: l) (s, b) =
      writeSecs k xs l ((s.memWriteSec k xs sec).1, b && (s.memWriteSec k xs sec).2) := rfl

/-- The sectors are readable, or no mailbox 14 is armed. -/
def State.quietOn (s : State) (l : List Nat) : Prop := (∀ x ∈ l, s.isBad x = false) ∨ s.fw.armed = none

theorem quietOn_of_range {s : State} {k n : Nat} (h : s.rangeBad k n = false ∨ s.fw.armed = none) :
    s.quietOn (sectorsOf k n) :=
  h.imp_left fun readable x touched => by simpa using List.any_eq_false.1 readable x touched

section
variable {s : State} {k sec : Nat} {xs : List Byte} {l : List Nat}

theorem State.quietOn.head (quiet : s.quietOn (sec :: l)) : s.quietAt sec :=
  quiet.imp_left fun readable => readable sec List.mem_cons_self

theorem State.quietOn.tail (quiet : s.quietOn (sec :: l)) (new : sec ∉ l) : (s.memWriteSec k xs sec).1.quietOn l := by
  have here := quiet.head
  obtain readable | unarmed := quiet
  · refine .inl fun x touched => ?_
    have other : x ≠ sec := fun e => new (e ▸ touched)
    rw [(memWriteSec_other here other).isBad, readable x (List.mem_cons_of_mem _ touched)]
  · exact .inr (memWriteSec_unarmed unarmed)

/-- A sector that is not written stays. -/
theorem writeSecs_other (distinct : l.Nodup) (quiet : s.quietOn l) (b : Bool) {y : Nat} (untouched : y ∉ l) :
    SameSector y s (writeSecs k xs l (s, b)).1 := by
  induction l generalizing s b with
  | nil => exact .refl y s
  | cons sec l ih =>
    obtain ⟨new, distinct⟩ := List.nodup_cons.1 distinct
    obtain ⟨other, untouched⟩ := not_or.1 (untouched ∘ List.mem_cons.2)
    rw [writeSecs_cons]
    exact (memWriteSec_other quiet.head other).trans (ih distinct (quiet.tail new) _ untouched)

/-- A sector that is written is as its own write leaves it, from a state that holds it as it was. -/
theorem writeSecs_at (distinct : l.Nodup) (quiet : s.quietOn l) (b : Bool) {y : Nat} (touched : y ∈ l) :
    ∃ u, SameSector y s u ∧ u.quietAt y ∧ SameSector y (u.memWriteSec k xs y).1 (writeSecs k xs l (s, b)).1 := by
  induction l generalizing s b with
  | nil => exact absurd touched List.not_mem_nil
  | cons sec l ih =>
    obtain ⟨new, rest⟩ := List.nodup_cons.1 distinct
    rw [writeSecs_cons]
    by_cases here : y = sec
    · subst here
      exact ⟨s, .refl y s, quiet.head, writeSecs_other rest (quiet.tail new) _ new⟩
    · obtain ⟨u, same, quietU, after⟩ := ih rest (quiet.tail (k := k) (xs := xs) new) _
        ((List.mem_cons.1 touched).resolve_left here)
      exact ⟨u, (memWriteSec_other quiet.head here).trans same, quietU, after⟩

theorem writeSecs_ok (distinct : l.Nodup) (readable : ∀ x ∈ l, s.isBad x = false) :
    (writeSecs k xs l (s, true)).2 = true := by
  induction l generalizing s with
  | nil => rfl
  | cons sec l ih =>
    obtain ⟨new, distinct⟩ := List.nodup_cons.1 distinct
    have here := readable sec List.mem_cons_self
    rw [writeSecs_cons, (memWriteSec_of_readable here).1]
    refine ih distinct fun x touched => ?_
    have other : x ≠ sec := fun e => new (e ▸ touched)
    rw [(memWriteSec_other (.inl here) other).isBad, readable x (List.mem_cons_of_mem _ touched)]

end

/-- A write within one sector is the write of that sector. -/
theorem memWrite_within (s : State) (sec : Nat) {off : Nat} {xs : List Byte} (nonempty : 0 < xs.length)
    (within : off + xs.length ≤ 64) : s.memWrite (64 * sec + off) xs = s.memWriteSec (64 * sec + off) xs sec := by
  rw [memWrite_eq, sectorsOf_within sec nonempty within, writeSecs_cons, Bool.true_and]
  rfl

/-- A sector that is written whole, under new check bytes, passes its check. -/
theorem clearBad_memStore_isBad (s : State) (sec k : Nat) (xs : List Byte) :
    ((s.clearBad sec).memStore k xs).isBad sec = false := by
  refine isBad_of_unmarked ?_ ?_
  · rw [memStore_bad, clearBad_bad]
  · rw [memStore_err, clearBad_err]

/-! ### The statements -/

/-- Settles O15: each sector of the range is written once, from a state that still holds it as it was, and no other
sector changes. -/
theorem memoryWriteThenRead : Obligations.MemoryWriteThenRead := by
  unfold Obligations.MemoryWriteThenRead
  intro k xs s j
  have distinct := nodup_sectorsOf k xs.length
  have allReadable (readable : s.rangeBad k xs.length = false) : ∀ x ∈ sectorsOf k xs.length, s.isBad x = false := by
    simpa [State.rangeBad] using readable
  rw [memWrite_eq]
  refine ⟨fun outside untouched quiet => ?_, fun i inside readable => ?_, fun readable => ?_⟩
  · have quiet := quietOn_of_range quiet
    by_cases touched : j / 64 ∈ sectorsOf k xs.length
    · have noError := untouched.resolve_left (not_not_intro touched)
      obtain ⟨u, before, quietU, after⟩ := writeSecs_at (xs := xs) distinct quiet true touched
      rw [after.bytes j rfl, memWriteSec_outside quietU (before.err.trans noError) outside, before.bytes j rfl]
    · exact (writeSecs_other distinct quiet true touched).bytes j rfl
  · have touched : (k + i) / 64 ∈ sectorsOf k xs.length := mem_sectorsOf.2 ⟨by omega, by omega, by omega⟩
    obtain ⟨u, before, -, after⟩ := writeSecs_at (xs := xs) distinct (.inl (allReadable readable)) true touched
    have takes := (memWriteSec_of_readable (k := k) (xs := xs) (before.isBad.trans (allReadable readable _ touched))).2
    rw [after.bytes _ rfl, takes (k + i) rfl (by omega) (by omega), Nat.add_sub_cancel_left]
  · exact writeSecs_ok distinct (allReadable readable)

/-- Settles O22: a whole sector is cleared and stored without a read of it; a part of one is refused by the check, which
changes nothing that memory holds. -/
theorem aWholeSectorWriteHeals : Obligations.AWholeSectorWriteHeals := by
  unfold Obligations.AWholeSectorWriteHeals
  constructor
  · intro sec xs s length noRehearsal
    have lo : writeLo (64 * sec) sec = 64 * sec := by
      rw [writeLo]
      omega
    have whole : (writePart (64 * sec) xs sec).length = 64 := by
      rw [length_writePart, lo]
      omega
    have noRehearsal : ((s.clearBad sec).memStore (64 * sec) (writePart (64 * sec) xs sec)).cue.reh = none := by
      rw [memStore_cue, State.clearBad_cue, noRehearsal]
    have wrote : s.memWrite (64 * sec) xs = ((s.clearBad sec).memStore (64 * sec) (writePart (64 * sec) xs sec), true) := by
      have within := memWrite_within s sec (off := 0) (xs := xs) (by omega) (by omega)
      rw [Nat.add_zero] at within
      rw [within, memWriteSec_of_whole whole, lo, rehCorrupt_of_none noRehearsal]
    rw [wrote]
    refine ⟨rfl, clearBad_memStore_isBad s sec _ _, fun i inside => ?_⟩
    have place : 64 * sec + i - 64 * sec = i := Nat.add_sub_cancel_left _ _
    rw [memByte_memStore, if_pos (by omega), place, getD_writePart xs (by omega), lo, place]
  · intro sec off xs s nonempty short within bad unarmed
    have part : (writePart (64 * sec + off) xs sec).length ≠ 64 := by
      rw [length_writePart, writeLo]
      omega
    have stays := (checkRange_of_bad bad unarmed).data
    have refused : s.memWrite (64 * sec + off) xs = (s.checkRange (sec * 64) 64, false) := by
      rw [memWrite_within s sec nonempty within, memWriteSec_of_part part, if_pos ((stays.sector sec).isBad.trans bad)]
    rw [refused]
    exact ⟨rfl, stays.memByte⟩

end Sys2Proof.Machine
end

section
/-! SUPPORT. Requests at their home, said once per case: what each answers under the conditions of the rules (06 R130; 11
R251, R254, R255, R257, R258; 14 R314, R328). -/

namespace Sys2Proof.Machine

theorem stackRange_of_present {r : Req} {n : Nat} (space : addrSpace r.addr.toNat = 0)
    (present : stackPresent r.addr.toNat n r.w.origin = true) : stackRange r n = true := by
  rw [stackRange, present, Bool.and_true, decide_eq_true_iff]
  exact space

theorem not_register_of_stack {r : Req} (space : addrSpace r.addr.toNat = 0) : addrSpace r.addr.toNat ≠ 6 := by
  rw [space]
  decide

/-! ### Reads (R251, R328) -/

/-- A read of memory without uncorrectable data answers its bytes (R251, R268). -/
theorem memAnswer_of_good {s t : State} {r : Req} {len : Nat} {env : EccEnv}
    (reads : t = (s.arise (addrKey r.addr.toNat) env).touch (addrKey r.addr.toNat) len)
    (good : t.rangeBad (addrKey r.addr.toNat) len = false) :
    s.memAnswer r len env = t.answer r .ok (t.memRead (addrKey r.addr.toNat) len) := by
  subst reads
  simp only [State.memAnswer, good, Bool.false_eq_true, if_false]

/-- A read of a register that the protection and the queue's rule allow answers its value (05 R86, R92). -/
theorem regRead_of_allowed {s : State} {r : Req} {d pg off : Nat} (place : regPlace r.addr.toNat = some (d, pg, off))
    (aligned : off % 8 = 0) (allowed : s.protAllows d pg (reqWriter r).origin false = true)
    (queue : s.queueDenied d pg off (reqWriter r) = false) (privileged : (reqWriter r).user = false) :
    s.regRead r 8 = s.answer r .ok (leBytes 8 (s.view d pg off)) := by
  simp [State.regRead, place, aligned, allowed, queue, privileged]

/-- What a read of either path does at its home, by the space of its address. -/
def State.readBySpace (s : State) (r : Req) (len : Nat) (env : EccEnv) : State :=
  if addrSpace r.addr.toNat = 6 then s.regRead r len
  else if stackRange r len then s.memAnswer r len env else s.spaceRefused r

theorem readBySpace_of_register {s : State} {r : Req} (len : Nat) (env : EccEnv) (space : addrSpace r.addr.toNat = 6) :
    s.readBySpace r len env = s.regRead r len := if_pos space

/-- A read of present stack memory without uncorrectable data answers its bytes. -/
theorem readBySpace_of_stack {s t : State} {r : Req} {len : Nat} {env : EccEnv} (space : addrSpace r.addr.toNat = 0)
    (present : stackPresent r.addr.toNat len r.w.origin = true)
    (reads : t = (s.arise (addrKey r.addr.toNat) env).touch (addrKey r.addr.toNat) len)
    (good : t.rangeBad (addrKey r.addr.toNat) len = false) :
    s.readBySpace r len env = t.answer r .ok (t.memRead (addrKey r.addr.toNat) len) := by
  rw [State.readBySpace, if_neg (not_register_of_stack space), if_pos (stackRange_of_present space present),
    memAnswer_of_good reads good]

theorem execSrd_of_taken {r x : Req} {len : Nat} {s : State} (env : EccEnv) (request : x = came r 0x01 none)
    (taken : s.takes x) (least : 1 ≤ len) (most : len ≤ 256) :
    execSrd r len env s = .next (((s.inTurn x).countPacket x false).readBySpace x len env) := by
  subst request
  have sound : ¬(len = 0 ∨ 256 < len) := by omega
  rw [execSrd, atHome_takes taken, if_neg sound]
  rfl

theorem execRd_of_taken {r x : Req} {h : DataHdr} {len : Nat} {s : State} (env : EccEnv)
    (request : x = came r 0x10 h.flow) (taken : s.takes x true) (sound : dataLen len = true) :
    execRd r h len env s = .next (((s.inTurn x).countPacket x h.flow.isSome).readBySpace x len env) := by
  subst request
  rw [execRd, atHome_takes taken, sound, Bool.not_true, if_neg Bool.false_ne_true]
  rfl

/-! ### Writes (R251, R314) -/

theorem memWriteReq_of_written {s : State} {r : Req} {data : List Byte} {env : EccEnv} {w : State × Bool}
    (puts : w = s.memPut r data env) (written : w.2 = true) : s.memWriteReq r data env = w.1.answer r .ok [] := by
  subst puts
  rw [State.memWriteReq, written, if_pos rfl]

/-- A register write that came as a request and is allowed acts and is answered OK (05 R88, R92, R100). -/
theorem regWriteReq_of_allowed {s : State} {r : Req} {data : List Byte} {d pg off : Nat} {q : WriteReq}
    (die : d = addrDie r.addr.toNat) (page : pg = addrOff r.addr.toNat / 4096) (offset : off = r.addr.toNat % 4096)
    (request : q = ⟨reqWriter r, BitVec.ofNat 64 (leNat data), data.length⟩) (sound : accessOk d pg off q = true)
    (awake : s.inReset d pg = false) (allowed : s.mayWrite d pg off q = true) :
    s.regWriteReq r data = (s.writeAll d pg off [q]).answer r .ok [] := by
  subst die page offset request
  simp [State.regWriteReq, sound, awake, allowed]

/-- What SWR does at its home, by the space of its address. -/
def State.writeBySpace (s : State) (r : Req) (data : List Byte) (env : EccEnv) : State :=
  if addrSpace r.addr.toNat = 6 then s.regWriteReq r data
  else if stackRange r data.length then s.memWriteReq r data env else s.spaceRefused r

theorem execSwr_of_taken {r x : Req} {data : List Byte} {s : State} (env : EccEnv) (request : x = came r 0x02 none)
    (taken : s.takes x) (least : 1 ≤ data.length) (most : data.length ≤ 256) :
    execSwr r data env s = .next (((s.inTurn x).countPacket x false).writeBySpace x data env) := by
  subst request
  have sound : ¬(data.length = 0 ∨ 256 < data.length) := by omega
  rw [execSwr, atHome_takes taken, if_neg sound]
  rfl

theorem writeBySpace_of_register {s : State} {r : Req} (data : List Byte) (env : EccEnv)
    (space : addrSpace r.addr.toNat = 6) : s.writeBySpace r data env = s.regWriteReq r data := if_pos space

theorem writeBySpace_of_stack {s : State} {r : Req} {data : List Byte} {env : EccEnv} {w : State × Bool}
    (space : addrSpace r.addr.toNat = 0) (present : stackPresent r.addr.toNat data.length r.w.origin = true)
    (puts : w = s.memPut r data env) (written : w.2 = true) : s.writeBySpace r data env = w.1.answer r .ok [] := by
  rw [State.writeBySpace, if_neg (not_register_of_stack space), if_pos (stackRange_of_present space present),
    memWriteReq_of_written puts written]

/-- The payload of a packet on no confidential circuit, of an allowed length, is its data (R313, R332). -/
theorem payload_of_clear {s : State} {r : Req} {h : DataHdr} {p : List Byte}
    (clear : (h.flow.bind fun x => s.delivering x.toNat).filter (·.conf) = none) (sound : dataLen p.length = true)
    (ptype aux : Nat) (f : State → List Byte → State) :
    s.payload r h ptype aux p f = f (s.countPacket r h.flow.isSome) p := by
  simp only [State.payload, clear, sound, if_true]

/-- A data write at a home that takes it, on no confidential circuit, writes stack memory. -/
theorem dataWrite_of_taken {r x : Req} {h : DataHdr} {data : List Byte} {s : State} {ptype : Nat} (env : EccEnv)
    (request : x = came r (BitVec.ofNat 8 ptype) h.flow) (taken : s.takes x true)
    (clear : (h.flow.bind fun y => (s.inTurn x).delivering y.toNat).filter (·.conf) = none)
    (sound : dataLen data.length = true) (space : addrSpace x.addr.toNat = 0)
    (present : stackPresent x.addr.toNat data.length x.w.origin = true) :
    s.dataWrite r h ptype data env = ((s.inTurn x).countPacket x h.flow.isSome).dataPut x h data env := by
  subst request
  rw [State.dataWrite, atHome_takes taken, payload_of_clear clear sound, if_neg (not_register_of_stack space),
    if_pos (stackRange_of_present space present)]

/-- A data write on no circuit that is written is answered OK: it is no part of a buddy stream. -/
theorem dataPut_of_written {s : State} {r : Req} {h : DataHdr} {data : List Byte} {env : EccEnv} {w : State × Bool}
    (direct : h.flow = none) (puts : w = s.memPut r data env) (written : w.2 = true) :
    s.dataPut r h data env = w.1.answer r .ok [] := by
  subst puts
  simp [State.dataPut, direct, written]

theorem dataWrite_of_direct {r x : Req} {h : DataHdr} {data : List Byte} {s : State} {ptype : Nat} {env : EccEnv}
    {w : State × Bool} (request : x = came r (BitVec.ofNat 8 ptype) h.flow) (taken : s.takes x true)
    (sound : dataLen data.length = true) (space : addrSpace x.addr.toNat = 0)
    (present : stackPresent x.addr.toNat data.length x.w.origin = true) (direct : h.flow = none)
    (puts : w = ((s.inTurn x).countPacket x false).memPut x data env) (written : w.2 = true) :
    s.dataWrite r h ptype data env = w.1.answer x .ok [] := by
  have clear : (h.flow.bind fun y => (s.inTurn x).delivering y.toNat).filter (·.conf) = none := by
    rw [direct]
    rfl
  rw [dataWrite_of_taken env request taken clear sound space present]
  refine dataPut_of_written direct ?_ written
  rw [puts, direct, Option.isSome_none]

/-! ### Semaphores, atomics, reduces and doorbells (R254, R255, R257, R258; 06 R130) -/

/-- A wait for an aligned word of present stack memory places its watch (R257). -/
theorem homeSemwait_of_aligned {s : State} {r : Req} (v : Word) (env : EccEnv) (space : addrSpace r.addr.toNat = 0)
    (present : stackPresent r.addr.toNat 8 r.w.origin = true) (aligned : r.addr.toNat % 8 = 0) :
    s.homeSemwait r v env =
      (s.check (addrKey r.addr.toNat) 8 env).placeWatch (addrDie r.addr.toNat) ⟨r, v, false⟩ := by
  simp [State.homeSemwait, stackRange_of_present space present, aligned]

/-- An atomic of an allowed size on good memory, aligned to its size, is performed (R255, R268). -/
theorem homeAtom_of_good {s t : State} {r : Req} {op : AtomOp} {n : Nat} {env : EccEnv} (operand compare : Nat)
    (space : addrSpace r.addr.toNat = 0) (present : stackPresent r.addr.toNat n r.w.origin = true)
    (size : op.sizeOk n = true) (aligned : r.addr.toNat % n = 0)
    (checks : t = s.check (addrKey r.addr.toNat) n env) (good : t.rangeBad (addrKey r.addr.toNat) n = false) :
    s.homeAtom r op n operand compare env = t.atomDo r op n operand compare := by
  subst checks
  simp [State.homeAtom, stackRange_of_present space present, size, aligned, good]

/-- An atomic at a home that takes it, on good memory, is performed there. -/
theorem atomReq_of_taken {r x : Req} {op : AtomOp} {n : Nat} {operand compare : Word} {env : EccEnv} {s t : State}
    (size : op.sizeOk n = true) (request : x = came r 0x03 none) (taken : s.takes x) (space : addrSpace x.addr.toNat = 0)
    (present : stackPresent x.addr.toNat n x.w.origin = true) (aligned : x.addr.toNat % n = 0)
    (checks : t = ((s.inTurn x).countPacket x false).check (addrKey x.addr.toNat) n env)
    (good : t.rangeBad (addrKey x.addr.toNat) n = false) :
    s.atomReq r op n operand compare env = t.atomDo x op n operand.toNat compare.toNat := by
  subst request
  rw [State.atomReq, atHome_takes taken, homeAtom_of_good _ _ space present size aligned checks good]

/-- A contribution to an ordered reduce, at a home that takes it and on no confidential circuit, arrives at its lines
(R258). -/
theorem execRed_of_taken {r x : Req} {f : RedFields} {data : List Byte} {s : State} (env : EccEnv)
    (request : x = came r 0x12 f.flow) (taken : s.takes x true)
    (clear : (f.flow.bind fun y => (s.inTurn x).delivering y.toNat).filter (·.conf) = none)
    (sound : dataLen data.length = true) (aligned : addrKey x.addr.toNat % 256 = 0) (count : f.count ≤ 512)
    (etype : f.etype ≠ 3) (space : addrSpace x.addr.toNat = 0)
    (present : stackPresent x.addr.toNat data.length x.w.origin = true) :
    execRed r f data env s = .next ((((s.inTurn x).countPacket x f.flow.isSome).arise (addrKey x.addr.toNat) env).redArrive
      x (addrKey x.addr.toNat) f data) := by
  subst request
  have fields : ¬(addrKey (came r 0x12 f.flow).addr.toNat % 256 ≠ 0 ∨ 512 < f.count ∨ f.etype = 3) := by
    rintro (unaligned | many | reserved)
    · exact unaligned aligned
    · exact absurd count (Nat.not_le.2 many)
    · exact etype reserved
  rw [execRed, atHome_takes taken, if_neg fields, payload_of_clear clear sound, stackRange_of_present space present,
    Bool.not_true, if_neg Bool.false_ne_true]

/-- A submission at the doorbell of a bay's gather queue, not from U mode, reaches the queue (06 R130; 22 R454). -/
theorem execBell_of_taken {r x : Req} {data : List Byte} {s : State} (request : x = came r 0x05 none) (taken : s.takes x)
    (length : data.length = 16) (space : addrSpace x.addr.toNat = 3) (aligned : addrOff x.addr.toNat % 4096 = 0)
    (bay : addrOff x.addr.toNat / 4096 < 9) (privileged : (reqWriter x).user = false) :
    execBell r data s = .next ((((s.inTurn x).countPacket x false).gatherSubmit (addrDie x.addr.toNat)
      (addrOff x.addr.toNat / 4096) (gatherOfBytes data)).answer x .ok []) := by
  subst request
  rw [execBell, atHome_takes taken, if_neg (not_not_intro length), if_pos ⟨space, aligned, bay⟩, privileged,
    if_neg Bool.false_ne_true]

/-! ### Every atomic operation (R254, R255) -/

theorem sizeOk_eight (op : AtomOp) : op.sizeOk 8 = true := by cases op <;> rfl

/-- Sizes of an operation that takes 4 bytes: it takes 8 too (Table 11-3). -/
theorem sizeOk_of_narrow {op : AtomOp} (narrow : op.sizeOk 4 = true) {n : Nat} (size : n = 4 ∨ n = 8) :
    op.sizeOk n = true := by
  obtain rfl | rfl := size
  · exact narrow
  · exact sizeOk_eight op

/-- A command that is an atomic without a compare operand completes with the sizes that its operation takes. -/
theorem atomCommand_completes {op : AtomOp} {size : Nat → Prop} {run : Req → Nat → Word → EccEnv → State → QRes}
    (isAtom : ∀ r n x env s, run r n x env s = .next (s.atomReq r op n x 0 env))
    (sizes : ∀ {n}, size n → op.sizeOk n = true) (r x0 : Req) (n : Nat) (x : Word) (env : EccEnv) (t s : State)
    (request : x0 = came r 0x03 none) (taken : s.takes x0) (space : addrSpace x0.addr.toNat = 0)
    (present : stackPresent x0.addr.toNat n x0.w.origin = true) (sound : size n) (aligned : x0.addr.toNat % n = 0)
    (checks : t = ((s.inTurn x0).countPacket x0 false).check (addrKey x0.addr.toNat) n env)
    (good : t.rangeBad (addrKey x0.addr.toNat) n = false) :
    run r n x env s = .next (t.atomDo x0 op n x.toNat (0 : Word).toNat) :=
  (isAtom r n x env s).trans
    (congrArg _ (atomReq_of_taken (sizes sound) request taken space present aligned checks good))

/-- An operation on whole words of 64 bits takes 8 bytes. -/
theorem sizeOk_of_eq_eight {op : AtomOp} {n : Nat} (size : n = 8) : op.sizeOk n = true := size ▸ sizeOk_eight op

/-! ### The requests of the short path and of data packets, and the atomics -/

/-- Settles O40: a home that takes the request performs the rule of its type, which the space of the address, the length
and the protection let through. -/
theorem memoryRequestsComplete : Obligations.MemoryRequestsComplete := by
  unfold Obligations.MemoryRequestsComplete
  refine ⟨?srd, ?srdReg, ?swr, ?swrReg, ?semwait, ?red, ?rd, ?wr, ?wrFlow, ?mwr, ?mwrFlow, ?bell⟩
  case srd =>
    rintro r x len env t s request taken least most space present reads good
    exact (execSrd_of_taken env request taken least most).trans
      (congrArg _ (readBySpace_of_stack space present reads good))
  case srdReg =>
    rintro r x len env d pg off t s request taken rfl space rfl place aligned allowed queue privileged
    refine (execSrd_of_taken env request taken (by decide) (by decide)).trans (congrArg _ ?_)
    exact (readBySpace_of_register 8 env space).trans (regRead_of_allowed place aligned allowed queue privileged)
  case swr =>
    rintro r x data env w s request taken least most space present puts written
    exact (execSwr_of_taken env request taken least most).trans
      (congrArg _ (writeBySpace_of_stack space present puts written))
  case swrReg =>
    rintro r x data env d pg off q t s request taken least most space die page offset write rfl sound awake allowed
    refine (execSwr_of_taken env request taken least most).trans (congrArg _ ?_)
    exact (writeBySpace_of_register data env space).trans
      (regWriteReq_of_allowed die page offset write sound awake allowed)
  case semwait =>
    rintro r x v env s rfl taken space present aligned
    exact congrArg Host.Outcome.next ((atHome_takes taken _ _).trans (homeSemwait_of_aligned v env space present aligned))
  case red =>
    rintro r x f data env k t s request taken clear sound rfl aligned count etype space present rfl
    exact execRed_of_taken env request taken clear sound aligned count etype space present
  case rd =>
    rintro r x h len env t s request taken sound space present reads good
    exact (execRd_of_taken env request taken sound).trans
      (congrArg _ (readBySpace_of_stack space present reads good))
  case wr =>
    exact fun _ _ _ _ _ _ _ request taken sound space present direct puts written =>
      congrArg Host.Outcome.next (dataWrite_of_direct request taken sound space present direct puts written)
  case wrFlow =>
    rintro r x h data env t s request taken sound space present clear rfl
    exact congrArg Host.Outcome.next (dataWrite_of_taken env request taken clear sound space present)
  case mwr =>
    exact fun _ _ _ _ _ _ _ request taken sound space present direct puts written =>
      congrArg Host.Outcome.next (dataWrite_of_direct request taken sound space present direct puts written)
  case mwrFlow =>
    rintro r x h data env t s request taken sound space present clear rfl
    exact congrArg Host.Outcome.next (dataWrite_of_taken env request taken clear sound space present)
  case bell =>
    exact fun _ _ _ _ request taken length space aligned bay privileged =>
      execBell_of_taken request taken length space aligned bay privileged

/-- Settles O41: every operation is the one rule of atomics, with a size that Table 11-3 allows it. -/
theorem atomicRequestsComplete : Obligations.AtomicRequestsComplete := by
  unfold Obligations.AtomicRequestsComplete
  refine ⟨?addI32, ?addU64, ?addF32, ?addBf16, ?minI32, ?maxI32, ?minF32, ?maxF32, ?minU64, ?maxU64, ?cas, ?swap⟩
  case addU64 | minU64 | maxU64 => exact atomCommand_completes (fun _ _ _ _ _ => rfl) sizeOk_of_eq_eight
  case cas =>
    exact fun _ _ _ _ _ _ _ _ request taken space present size aligned checks good => congrArg Host.Outcome.next
      (atomReq_of_taken (sizeOk_of_narrow rfl size) request taken space present aligned checks good)
  all_goals exact atomCommand_completes (fun _ _ _ _ _ => rfl) (sizeOk_of_narrow rfl)

end Sys2Proof.Machine
end

section
/-! SUPPORT. The memory and stack events, said once per case: what each answers under the conditions of the rules (11 R253,
R264, R267, R269). -/

namespace Sys2Proof.Machine

/-- A bank of a cache out of reset that is not failed yet is marked failed (R253). -/
theorem execShcBankFail_of_new {d : Die} {b : Fin 50} {s t : State} (awake : s.inReset d pgShc = false)
    (new : s.rdF d pgShc 0x0A8 b 1 = 0)
    (marked : t = (((s.wrF d pgShc 0x0A8 b 1 1).setErr d pgShc 10).logAt d srcHw .bankFail [d, b]).histEvent 3 d b 8) :
    execShcBankFail d b s = .next
      (({ t with mem := { t.mem with bankDue := t.mem.bankDue ++ [d.val * 64 + b.val] } } : State).noCert 1) := by
  subst marked
  have notFailed : ¬ s.rdF d pgShc 0x0A8 b 1 = 1 := by
    rw [new]
    decide
  rw [execShcBankFail, if_neg (Bool.eq_false_iff.1 awake), State.bankFail, if_neg notFailed]

/-- A temperature reading of a controller out of reset is shown and acts on trip and refresh rate (R264; 19 R406). -/
theorem execStackTempRead_of_awake {d : Die} {t : StackIx} {x : BitVec 8} {s u v z : State}
    (awake : s.inReset d (pgApr t) = false)
    (shown : u = (s.wrF d (pgApr t) 0x028 3 8 x.toNat).maxF d (pgApr t) 0x028 11 8 x.toNat)
    (noted : v = { u with power := { u.power with hot := u.power.hot || decide (88 < x.toNat) } })
    (tripped : z = v.tripOn d ⟨0, x.toNat, 0⟩) :
    execStackTempRead d t x s = .next ((if z.rdF d (pgApr t) 0x028 0 2 = 2 then z
      else if 85 < x.toNat then z.wrF d (pgApr t) 0x028 2 1 1
      else if x.toNat < 83 then z.wrF d (pgApr t) 0x028 2 1 0 else z).alertPin s) := by
  subst shown noted tripped
  rw [execStackTempRead, powerNext, if_neg (Bool.eq_false_iff.1 awake)]

/-- A scrub of a controller out of reset checks the sectors of its pass and reports those that it cannot correct (R267). -/
theorem execScrub_of_awake {d : Die} {t : StackIx} {n p : Nat} {env : EccEnv} {s u v : State} {l : List Nat}
    (awake : s.inReset d (pgApr t) = false) (place : p = s.rdF d (pgApr t) 0x0A8 0 32 + n)
    (counted : u = ((((env.errors.foldl State.upset s).satF d (pgApr t) 0x090 32 32 env.onDie).wrF d (pgApr t) 0x0A8 0 32
      (p % granulesPerPc)).incF d (pgApr t) 0x0A8 32 16 (p / granulesPerPc)))
    (mine : l = (u.mem.err.map (·.1) ++ u.mem.bad.map (·.1)).eraseDups.filter fun x =>
      scrubbed d t (s.rdF d (pgApr t) 0x0A8 0 32) n x || scrubbed d t 0 (p - granulesPerPc) x)
    (checked : v = l.foldl State.checkSector u) :
    execScrub d t n env s =
      .next (v.foundBad (sortBy (fun a b => decide (a ≤ b)) (l.filter v.isBad)) true) := by
  subst place counted mine checked
  rw [execScrub, if_neg (Bool.eq_false_iff.1 awake)]

/-- Data for a whole number of sectors is written, where the chunks of the shard that it falls into match the certified
list, and what waits for it and is good again is crossed off (R269). -/
theorem execUncorrectableRestore_of_matching {a n k : Nat} {data : List Byte} {s u t : State}
    (sector : k = addrKey a / 64 * 64) (length : data.length = 64 * n) (sectors : n ≠ 0)
    (reads : u = if s.ueRegion k = 1 then s.touch (addrKey (s.inf 0 pgWit 0x088) +
      if s.retained.curB then 2 ^ 21 else 0) (32 * s.chunkCount) else s)
    (certified : s.ueRegion k = 1 → u.chunksMatch k data.length data = true)
    (written : t = (u.ownWrite k data).1) :
    execUncorrectableRestore a n data s = .next { t with retained := { t.retained with
      toRestore := t.retained.toRestore.filter fun x => !(t.rangeBad x.1 (64 * x.2.1) = false) } } := by
  subst sector written
  have sound : ¬(data.length ≠ 64 * n ∨ n = 0) := not_or.2 ⟨not_not_intro length, sectors⟩
  have matching : ¬(s.ueRegion (addrKey a / 64 * 64) = 1 ∧
      u.chunksMatch (addrKey a / 64 * 64) data.length data = false) := by
    rintro ⟨shard, differs⟩
    rw [certified shard] at differs
    exact Bool.noConfusion differs
  subst reads
  rw [execUncorrectableRestore, if_neg sound, if_neg matching]

/-- Settles O43: each clause is the event's own equation under the conditions that the clause names. -/
theorem memoryEventsComplete : Obligations.MemoryEventsComplete := by
  unfold Obligations.MemoryEventsComplete
  refine ⟨?bankFail, ?tempRead, ?scrub, ?restore⟩
  case bankFail => exact fun _ _ _ _ => execShcBankFail_of_new
  case tempRead => exact fun _ _ _ _ _ _ _ => execStackTempRead_of_awake
  case scrub => exact fun _ _ _ _ _ _ _ _ _ => execScrub_of_awake
  case restore => exact fun _ _ _ _ _ _ _ => execUncorrectableRestore_of_matching

end Sys2Proof.Machine
end

section
/-! SUPPORT. Fuses and accepted sequences over every step (21 R441, R442, R448), the step's two cases, and the values that
registers and engines hold after reset. -/

namespace Sys2Proof.Machine

/-- Settles O5: every step, whatever its command, only blows fuses and only raises the last accepted sequence. -/
theorem blownFusesAndAcceptedSequencesStay : Obligations.BlownFusesAndAcceptedSequencesStay := by
  unfold Obligations.BlownFusesAndAcceptedSequencesStay
  exact fun _ _ steps => ⟨(step_grows steps).fuses, (step_grows steps).seq⟩

/-! ### The step -/

theorem step_of_queued {s : State} {c : Instr} {cs : List Instr} (queued : s.pending = c :: cs) :
    step s = exec c { s with pending := cs } := by
  simp only [step, queued]

theorem step_of_idle {s : State} (idle : s.pending = []) : step s = .next s.tick := by
  simp only [step, idle]

/-- Settles O1: the front of the queue decides which of the step's two cases it is. -/
theorem stepRunsTheFrontCommand : Obligations.StepRunsTheFrontCommand := by
  unfold Obligations.StepRunsTheFrontCommand
  exact ⟨fun _ _ _ => step_of_queued rfl, fun _ => step_of_idle⟩

/-! ### Reset -/

theorem reset_operatingPoint : ∀ n < 8, State.reset.rdF 0 pgPwr (0x080 + 8 * n) 0 11 = opFreqReset n ∧
    State.reset.rdF 0 pgPwr (0x080 + 8 * n) 19 12 = opCapReset n := by decide

theorem reset_gatherTimeout : ∀ (d : Die) (b : Bay),
    State.reset.rdF d (pgMxe b) 0x0C0 16 10 = 100 ∧ State.reset.rdF d (pgMxe b) 0x0C0 0 2 = 0 := by decide

theorem reset_mxeErrStat : ∀ (d : Die) (b : Bay), State.reset.rd d (pgMxe b) 0x030 = 0 := by decide

/-- Settles O2: each register reads the reset value that its table gives, no vector engine is listed yet, and the queue
is empty. -/
theorem resetValues : Obligations.ResetValues := by
  unfold Obligations.ResetValues
  refine ⟨rfl, reset_operatingPoint, reset_gatherTimeout, ?replicaGroup, ?safeCap, ?quantum, ?ring, ?vector, ?mask, ?idle,
    ?hangs, reset_mxeErrStat⟩
  case vector => exact fun _ _ _ => rfl
  case mask => exact fun _ _ _ => rfl
  all_goals decide

end Sys2Proof.Machine
end

section
/-! SUPPORT. Requests that a home turns away or holds (00 R12; 04 R72; 12 R285; 14 R314, R316). -/

namespace Sys2Proof.Machine

theorem atHome_of_homeWaits {s : State} {r : Req} (waits : s.homeWaits r.addr.toNat = true) (c : Bool)
    (f : State → State) (stream : Bool) : s.atHome r c f stream = s := if_pos waits

section
variable {s : State} {r : Req} {stream : Bool} (free : s.homeWaits r.addr.toNat = false)
  (path : s.pathOpen (reqEntry r) (addrDie r.addr.toNat) (if stream then some r.addr.toNat else none) = true)
  (turn : s.outOfTurn r = false)
include free path turn

theorem atHome_of_debug (own : r.src = none) (debug : r.w.origin = .dbg) (c : Bool) (f : State → State) :
    s.atHome r c f stream = (s.inTurn r).dbgRefused r := by
  simp [State.atHome, free, path, turn, own, debug]

theorem atHome_of_aged (notDebug : r.src = none → r.w.origin ≠ .dbg) (aged : 78125 < s.ageOf r) (c : Bool)
    (f : State → State) : s.atHome r c f stream = (s.inTurn r).discardAged r := by
  cases source : r.src with
  | none => simp [State.atHome, free, path, turn, source, notDebug source, aged]
  | some x => simp [State.atHome, free, path, turn, source, aged]

theorem atHome_of_fenced {x : DevIx} (source : r.src = some x) (young : s.ageOf r ≤ 78125)
    (fenced : s.fenced x.val = true) (c : Bool) (f : State → State) : s.atHome r c f stream = s.discardFenced r := by
  simp [State.atHome, free, path, turn, source, inTurn_remote source, fenced, Nat.not_lt.2 young]

end

@[simp] theorem dbgRefused_mem (s : State) (r : Req) : (s.dbgRefused r).mem = s.mem := by
  simp [State.dbgRefused]

@[simp] theorem discardFenced_mem (s : State) (r : Req) : (s.discardFenced r).mem = s.mem := by
  simp [State.discardFenced]

/-- Settles O16: the cases are those of the admission at the home, in its order. -/
theorem requestsTurnedAway : Obligations.RequestsTurnedAway := by
  unfold Obligations.RequestsTurnedAway
  rintro r _ data env s rfl
  refine ⟨?held, fun free path turn => ⟨?debug, fun notDebug => ⟨?aged, ?fenced, ?elsewhere⟩⟩⟩
  case held => exact fun waits => congrArg Host.Outcome.next (atHome_of_homeWaits waits _ _ _)
  case debug =>
    refine fun own debug => ⟨congrArg Host.Outcome.next (atHome_of_debug (stream := false) free path turn own debug _ _), ?_⟩
    rw [dbgRefused_mem, inTurn_mem]
  case aged =>
    refine fun aged => ⟨congrArg Host.Outcome.next (atHome_of_aged (stream := false) free path turn notDebug aged _ _), ?_⟩
    rw [discardAged_bytes, inTurn_mem]
  case fenced =>
    exact fun _ young source fenced =>
      ⟨congrArg Host.Outcome.next (atHome_of_fenced (stream := false) free path turn source young fenced _ _), discardFenced_mem _ _⟩
  case elsewhere =>
    exact fun young unfenced other =>
      congrArg Host.Outcome.next (atHome_misrouted (stream := false) free path turn notDebug young unfenced other false _)

end Sys2Proof.Machine
end

section
/-! SUPPORT. The rate limit of the log (20 R435, R436; Table 20-12). -/

namespace Sys2Proof.Machine

theorem rdF_incF_same {lo n : Nat} (h : lo + n ≤ 64) (d pg off v : Nat) (s : State) :
    (s.incF d pg off lo n v).rdF d pg off lo n = (s.rdF d pg off lo n + v) % 2 ^ n := rdF_wrF_same h _ _ _ _ _

/-- What an entry that its source's rate allows is added to. -/
def State.logCounted (s : State) (d src : Nat) : State :=
  { s with log := { s.log with
    recent := Tab.set [] s.log.recent (d * 256 + src) (s.now 0 :: s.recentOf (d * 256 + src)) } }

theorem logAt_within {s : State} {d src : Nat} (within : (s.recentOf (d * 256 + src)).length < 4096) (code : LogCode)
    (data : List Nat) (flags : Nat) : s.logAt d src code data flags = (s.logCounted d src).logPut d src code data flags :=
  if_pos within

/-- What an entry beyond the rate leaves: one more is lost of its source. -/
def State.logLost (s : State) (d src : Nat) : State :=
  { s with log := { s.log with lost := Tab.upd 0 s.log.lost (d * 256 + src) (· + 1) } }

theorem logLost_rdF (s : State) (d src d' pg off lo n : Nat) :
    (s.logLost d src).rdF d' pg off lo n = s.rdF d' pg off lo n := rfl

/-- An entry beyond the rate is lost: counted for its source, and in LOG_DROPPED. -/
theorem logAt_beyond {s : State} {d src : Nat} (beyond : 4096 ≤ (s.recentOf (d * 256 + src)).length) (code : LogCode)
    (data : List Nat) (flags : Nat) : s.logAt d src code data flags = (s.logLost d src).incF 0 pgMgc 0x0A0 0 32 1 :=
  if_neg (Nat.not_lt.2 beyond)

/-- A source whose rate is within the limit again has its lost entries told, and none is lost any more. -/
theorem execLogSuppressed_of_lost {d : Die} {b : BitVec 8} {s : State} (lost : Tab.get 0 s.log.lost (d.val * 256 + b.toNat) ≠ 0)
    (within : (s.recentOf (d.val * 256 + b.toNat)).length < 4096) :
    execLogSuppressed d b s = .next
      ((({ s with log := { s.log with lost := Tab.del s.log.lost (d.val * 256 + b.toNat) } } : State).setErr 0 pgMgc 11).logPut
        d b.toNat .logSuppressed [b.toNat, Tab.get 0 s.log.lost (d.val * 256 + b.toNat)]) := by
  have told : ¬ (Tab.get 0 s.log.lost (d.val * 256 + b.toNat) = 0 ∨
      4096 ≤ (s.recentOf (d.val * 256 + b.toNat)).length) := by omega
  exact congrArg Host.Outcome.next (if_neg told)

/-- The entry that is put is the newest of the ring, whose oldest gives way (R435). -/
theorem logPut_ring (s : State) (d src : Nat) (code : LogCode) (data : List Nat) : (s.logPut d src code data).log.ring =
    (⟨s.now 0, s.log.next, s.stepNum, code, d, src, 0, 0, data⟩ :: s.log.ring).take 16384 := by
  simp only [State.logPut]

theorem setErr_mgc_now (bit : Nat) (s : State) : (s.setErr 0 pgMgc bit).now 0 = s.now 0 :=
  rd_setErr_other bit s (by decide) (by decide)

theorem setErr_mgc_stepNum (bit : Nat) (s : State) : (s.setErr 0 pgMgc bit).stepNum = s.stepNum := by
  have state : (s.setErr 0 pgMgc bit).stepState = s.stepState :=
    congrArg (bitsOf · 0 3) (rd_setErr_other bit s (by decide) (by decide))
  have step : (s.setErr 0 pgMgc bit).stepCur = s.stepCur :=
    congrArg (bitsOf · 0 48) (rd_setErr_other bit s (by decide) (by decide))
  rw [State.stepNum, state, step, State.stepNum]

/-- Settles O17: the number of the source's entries in the last second decides whether one is put or lost. -/
theorem logRateLimit : Obligations.LogRateLimit := by
  unfold Obligations.LogRateLimit
  intro d src code data s
  refine ⟨fun within => ?put, fun beyond => ?drop, fun b source lost within => ?told⟩
  case put =>
    rw [logAt_within within]
    exact ⟨logPut_ring _ _ _ _ _, rfl⟩
  case drop =>
    rw [logAt_beyond beyond]
    refine ⟨?ring, ?dropped, ?lost⟩
    case ring => rw [State.incF_log, State.logLost]
    case dropped => rw [rdF_incF_same (by decide), logLost_rdF]
    case lost => rw [State.incF_log, State.logLost, Tab.upd, Tab.get_set _ _ _ _ _ _ fun _ => rfl, if_pos rfl]
  case told =>
    subst source
    refine ⟨_, execLogSuppressed_of_lost lost within, ?_, ?_⟩
    · simp only [State.logPut, State.setErr_log, Tab.get_del, if_true]
    · rw [logPut_ring, setErr_mgc_now, setErr_mgc_stepNum, State.setErr_log, List.head?_take, if_neg (by decide),
        List.head?_cons]
      rfl

end Sys2Proof.Machine
end

section
/-! SUPPORT. The leader of an attempt (16 R362): the live ranks, from the step's first rank on, are in the order of their
distance from it. -/

namespace Sys2Proof.Machine

/-- In a list whose elements' values rise, an element stands behind as many as have a smaller value. -/
theorem getElem?_length_filter_lt {α : Type} {f : α → Nat} {l : List α} (rises : l.Pairwise fun x y => f x < f y) {x : α}
    (mem : x ∈ l) : l[(l.filter fun y => decide (f y < f x)).length]? = some x := by
  induction l with
  | nil => exact absurd mem List.not_mem_nil
  | cons y ys ih =>
    obtain ⟨first, rest⟩ := List.pairwise_cons.1 rises
    rcases List.mem_cons.1 mem with rfl | later
    · have none_before : ((x :: ys).filter fun y => decide (f y < f x)) = [] := by
        simp only [List.filter_eq_nil_iff, decide_eq_true_eq, Nat.not_lt, List.mem_cons]
        rintro z (rfl | inRest)
        · exact Nat.le_refl _
        · exact Nat.le_of_lt (first z inRest)
      rw [none_before]
      rfl
    · have before : decide (f y < f x) = true := decide_eq_true (first x later)
      rw [List.filter_cons_of_pos (p := fun y => decide (f y < f x)) before, List.length_cons, List.getElem?_cons_succ]
      exact ih rest later

/-- How far rank `r` lies behind rank `at0`, counting up and wrapping at `n`. -/
def rankDist (n at0 r : Nat) : Nat := (r + n - at0) % n

theorem rankDist_of_le {n at0 r : Nat} (after : at0 ≤ r) (rank : r < n) : rankDist n at0 r = r - at0 := by
  rw [rankDist, show r + n - at0 = (r - at0) + n by omega, Nat.add_mod_right, Nat.mod_eq_of_lt (by omega)]

theorem rankDist_of_lt {n at0 r : Nat} (before : r < at0) (start : at0 < n) : rankDist n at0 r = r + n - at0 :=
  Nat.mod_eq_of_lt (by omega)

/-- The live ranks in the order in which they lead: those from `at0` on, and then those before it. -/
def leadOrder (at0 : Nat) (live : List (Nat × Nat)) : List (Nat × Nat) :=
  live.filter (fun x => decide (at0 ≤ x.1)) ++ live.filter fun x => decide (x.1 < at0)

theorem leadOrder_perm (at0 : Nat) (live : List (Nat × Nat)) : (leadOrder at0 live).Perm live := by
  have rest : (fun x : Nat × Nat => decide (x.1 < at0)) = fun x => !decide (at0 ≤ x.1) := by
    funext x
    rw [← decide_not, decide_eq_decide, Nat.not_le]
  rw [leadOrder, rest]
  exact List.filter_append_perm _ _

/-- The order is that of the distance from `at0`. -/
theorem leadOrder_rises {n at0 : Nat} {live : List (Nat × Nat)} (start : at0 < n) (sorted : live.Pairwise fun x y => x.1 < y.1)
    (ranks : ∀ x ∈ live, x.1 < n) :
    (leadOrder at0 live).Pairwise fun x y => rankDist n at0 x.1 < rankDist n at0 y.1 := by
  refine List.pairwise_append.2 ⟨?after, ?before, ?across⟩
  case after =>
    refine (sorted.filter _).imp_of_mem fun {x y} hx hy lt => ?_
    simp only [List.mem_filter, decide_eq_true_eq] at hx hy
    rw [rankDist_of_le hx.2 (ranks x hx.1), rankDist_of_le hy.2 (ranks y hy.1)]
    omega
  case before =>
    refine (sorted.filter _).imp_of_mem fun {x y} hx hy lt => ?_
    simp only [List.mem_filter, decide_eq_true_eq] at hx hy
    rw [rankDist_of_lt hx.2 start, rankDist_of_lt hy.2 start]
    omega
  case across =>
    intro x hx y hy
    simp only [List.mem_filter, decide_eq_true_eq] at hx hy
    have bound := ranks x hx.1
    rw [rankDist_of_le hx.2 bound, rankDist_of_lt hy.2 start]
    omega

/-- With live ranks there, the leader is the one at the attempt's place in the order. -/
theorem leaderOf_of_getElem? {s : State} {step a : Nat} {x : Nat × Nat} (cast : 0 < s.cue.ranks.length) (live : x ∈ s.liveRanks)
    (place : (leadOrder (step % s.cue.ranks.length) s.liveRanks)[a % s.liveRanks.length]? = some x) :
    s.leaderOf step a = x.2 := by
  have length := (leadOrder_perm (step % s.cue.ranks.length) s.liveRanks).length_eq
  have pos : 0 < s.liveRanks.length := List.length_pos_of_mem live
  have unfolded : s.leaderOf step a = (((leadOrder (step % max 1 s.cue.ranks.length) s.liveRanks)[a % max 1
      (leadOrder (step % max 1 s.cue.ranks.length) s.liveRanks).length]?).map (·.2)).getD s.ident.1 := rfl
  rw [unfolded, Nat.max_eq_right cast, length, Nat.max_eq_right pos, place]
  rfl

theorem ranks_lt {l : List (Nat × Nat)} (inOrder : ∀ i (h : i < l.length), (l[i]).1 = i) : ∀ x ∈ l, x.1 < l.length := by
  intro x mem
  obtain ⟨i, h, rfl⟩ := List.mem_iff_getElem.1 mem
  rwa [inOrder i h]

theorem ranks_sorted {l : List (Nat × Nat)} (inOrder : ∀ i (h : i < l.length), (l[i]).1 = i) :
    l.Pairwise fun x y => x.1 < y.1 := by
  refine List.pairwise_iff_getElem.2 fun i j hi hj lt => ?_
  rwa [inOrder i hi, inOrder j hj]

/-- Settles O18: in the order of leading, a live rank stands behind as many as lie nearer to the step's first rank. -/
theorem leaderOfAnAttempt : Obligations.LeaderOfAnAttempt := by
  unfold Obligations.LeaderOfAnAttempt
  intro s step a x inOrder live before
  have inCast := (List.mem_filter.1 live).1
  have cast : 0 < s.cue.ranks.length := List.length_pos_of_mem inCast
  have rises := leadOrder_rises (live := s.liveRanks) (Nat.mod_lt step cast) ((ranks_sorted inOrder).filter _)
    fun y hy => ranks_lt inOrder y (List.mem_filter.1 hy).1
  have perm := leadOrder_perm (step % s.cue.ranks.length) s.liveRanks
  refine leaderOf_of_getElem? cast live ?_
  rw [← before, ← (perm.filter _).length_eq]
  exact getElem?_length_filter_lt (f := fun y => rankDist s.cue.ranks.length (step % s.cue.ranks.length) y.1) rises
    (perm.mem_iff.2 live)

end Sys2Proof.Machine
end

section
/-! SUPPORT. Messages under another API (20 R430; 00 R4). -/

namespace Sys2Proof.Machine

theorem msgIn_type {s : State} {n svc type : Nat} {m : Msg} (accepted : s.msgIn n svc type = some m) : m.type = type := by
  unfold State.msgIn at accepted
  split at accepted
  · have holds := (Option.filter_eq_some_iff.1 accepted).2
    rw [Bool.and_eq_true, decide_eq_true_eq] at holds
    exact holds.1
  · exact absurd accepted.symm (Option.some_ne_none m)

/-- GET_VERSION is in the catalogue of every mailbox. -/
theorem kindAt_getVersion (n : Nat) : kindAt n 0x0001 = some { lens := [0] } := by
  unfold kindAt
  simp [msgKind]

/-- A GET_VERSION passes the checks of its header whatever API it names. -/
theorem headerStatus_getVersion {s : State} {n : Nat} {m : Msg} (type : m.type = 0x0001) (version : fieldAt m.bytes 0 1 = 1)
    (origin : m.w.origin = .sys ∨ m.w.origin = .mgmt) (empty : m.len = 0) : s.headerStatus n m = none := by
  simp [State.headerStatus, version, type, kindAt_getVersion, origin, empty]

theorem headerStatus_of_other_major {s : State} {n : Nat} {m : Msg} (version : fieldAt m.bytes 0 1 = 1)
    (known : kindAt n m.type ≠ none) (type : m.type ≠ 0x0001) (major : m.api / 256 ≠ s.fwApi / 256) :
    s.headerStatus n m = some 3 := by
  obtain ⟨k, kind⟩ := Option.ne_none_iff_exists'.1 known
  simp [State.headerStatus, version, kind, type, major]

/-- What becomes of a message that mailbox `n` processes by command `i`: its header ends it, or firmware leaves it with an
open reply, and in any case the machine goes on. -/
structure ProcessesMsg (n : Mbox) (svc type : Nat) (i : Instr) : Prop where
  header : ∀ {s m st}, s.msgIn n.val svc type = some m → s.headerStatus n.val m = some st →
    exec i s = .next (s.replyMsg n.val m st [])
  left : ∀ {s m}, s.msgIn n.val svc type = some m → s.headerStatus n.val m = none → s.leavesMsg m = true →
    exec i s = .next (s.oddReply n.val m)
  goesOn : ∀ s, ∃ t, exec i s = .next t

theorem msgRow_left {s : State} {n : Mbox} {svc type : Nat} {m : Msg} (accepted : s.msgIn n.val svc type = some m)
    (passes : s.headerStatus n.val m = none) (left : s.leavesMsg m = true) (eff : State → Msg → Nat × List Byte × State) :
    s.msgRow n svc type eff = .next (s.oddReply n.val m) := by
  simp only [State.msgRow, accepted, passes, left, if_true]

theorem msgRow_next (s : State) (n : Mbox) (svc type : Nat) (eff : State → Msg → Nat × List Byte × State) :
    ∃ t, s.msgRow n svc type eff = .next t := by
  unfold State.msgRow
  repeat' split
  all_goals exact ⟨_, rfl⟩

/-- Every command that is a message row processes its message so. -/
theorem processesMsg_of_row {n : Mbox} {svc type : Nat} {i : Instr} (run : State → QRes) (arm : ∀ s, exec i s = run s)
    {eff : State → Msg → Nat × List Byte × State} (row : ∀ s, run s = s.msgRow n svc type eff) :
    ProcessesMsg n svc type i where
  header accepted ends := (arm _).trans ((row _).trans (msgRow_header accepted ends _))
  left accepted passes left := (arm _).trans ((row _).trans (msgRow_left accepted passes left _))
  goesOn s := by
    rw [arm, row]
    exact msgRow_next s n svc type eff

/-- Does UPDATE_ACTIVATE begin the update after its reply? -/
def State.activates (s : State) (n : Mbox) : Bool :=
  match s.msgIn n.val 6 0x0021 with
  | some m => (s.headerStatus n.val m).isNone && !(s.leavesMsg m) && s.updateState = 2 && !s.recentEmergency
  | none => false

/-- What UPDATE_ACTIVATE answers, and what it does before its reply. -/
def activateReply (s : State) (_ : Msg) : Nat × List Byte × State :=
  if s.updateState = 3 ∨ s.updateState = 4 then (10, [], s)
  else if s.updateState ≠ 2 then (8, [], s)
  else if s.recentEmergency then (10, [], (s.setUpdate 3).logAt 0 6 .updateHeld)
  else (0, [], s)

theorem execUpdateActivate_of_row {n : Mbox} {s t : State} (row : s.msgRow n 6 0x0021 activateReply = .next t) :
    execUpdateActivate n s = .next (if s.activates n then t.beginUpdate else t) := by
  have unfolded : execUpdateActivate n s = match s.msgRow n 6 0x0021 activateReply with
    | .next t => .next (if s.activates n then t.beginUpdate else t)
    | x => x := rfl
  rw [unfolded, row]

/-- An activation whose message its header ends, or that firmware leaves, begins no update. -/
theorem processesMsg_updateActivate (n : Mbox) : ProcessesMsg n 6 0x0021 (.updateActivate n) where
  header {s m st} accepted ends := by
    have stays : s.activates n = false := by simp [State.activates, accepted, ends]
    have answer := execUpdateActivate_of_row (msgRow_header accepted ends activateReply)
    rwa [stays, if_neg Bool.false_ne_true] at answer
  left {s m} accepted passes left := by
    have stays : s.activates n = false := by simp [State.activates, accepted, left]
    have answer := execUpdateActivate_of_row (msgRow_left accepted passes left activateReply)
    rwa [stays, if_neg Bool.false_ne_true] at answer
  goesOn s := by
    obtain ⟨t, row⟩ := msgRow_next s n 6 0x0021 activateReply
    exact ⟨_, execUpdateActivate_of_row row⟩

/-- Every message command but GET_VERSION is a message row, or UPDATE_ACTIVATE (Tables 20-8 and 21-4). -/
theorem messageCommand_processes {n : Mbox} {l : List Byte} {svc type : Nat} {i : Instr} (row : (svc, type, i) ∈
    ([(4, 0x0002, .setIdentity n), (4, 0x0003, .setBlocking n), (4, 0x0004, .inputsReady n), (4, 0x0005, .heartbeat n),
      (5, 0x0010, .logRead n), (5, 0x0011, .chgRead n), (5, 0x0012, .sigRead n), (5, 0x0013, .captureRead n),
      (5, 0x0015, .traceSet n), (4, 0x0016, .configWrite n), (6, 0x0020, .updateStage n), (6, 0x0021, .updateActivate n),
      (6, 0x0022, .updateCancel n), (4, 0x0101, .attest n), (4, 0x0102, .getIdentity n), (4, 0x0103, .keyLoad n),
      (4, 0x0104, .keyClear n), (4, 0x0105, .ownerEnroll n), (4, 0x0106, .ownerRevoke n), (4, 0x0107, .rollbackCommit n),
      (4, 0x0108, .protRemove n), (4, 0x0109, .ownerKeyPut n), (5, 0x0014, .sensorRead n l)] : List (Nat × Nat × Instr))) :
    ProcessesMsg n svc type i := by
  simp only [List.mem_cons, List.not_mem_nil, or_false, Prod.mk.injEq] at row
  rcases row with ⟨rfl, rfl, rfl⟩ | ⟨rfl, rfl, rfl⟩ | ⟨rfl, rfl, rfl⟩ | ⟨rfl, rfl, rfl⟩ | ⟨rfl, rfl, rfl⟩ | ⟨rfl, rfl, rfl⟩ | ⟨rfl, rfl, rfl⟩ | ⟨rfl, rfl, rfl⟩ | ⟨rfl, rfl, rfl⟩ | ⟨rfl, rfl, rfl⟩ | ⟨rfl, rfl, rfl⟩ | ⟨rfl, rfl, rfl⟩ | ⟨rfl, rfl, rfl⟩ | ⟨rfl, rfl, rfl⟩ | ⟨rfl, rfl, rfl⟩ | ⟨rfl, rfl, rfl⟩ | ⟨rfl, rfl, rfl⟩ | ⟨rfl, rfl, rfl⟩ | ⟨rfl, rfl, rfl⟩ | ⟨rfl, rfl, rfl⟩ | ⟨rfl, rfl, rfl⟩ | ⟨rfl, rfl, rfl⟩ | ⟨rfl, rfl, rfl⟩
  · exact processesMsg_of_row (execSetIdentity n) (fun _ => rfl) fun _ => rfl
  · exact processesMsg_of_row (execSetBlocking n) (fun _ => rfl) fun _ => rfl
  · exact processesMsg_of_row (execInputsReady n) (fun _ => rfl) fun _ => rfl
  · exact processesMsg_of_row (execHeartbeat n) (fun _ => rfl) fun _ => rfl
  · exact processesMsg_of_row (execLogRead n) (fun _ => rfl) fun _ => rfl
  · exact processesMsg_of_row (execChgRead n) (fun _ => rfl) fun _ => rfl
  · exact processesMsg_of_row (execSigRead n) (fun _ => rfl) fun _ => rfl
  · exact processesMsg_of_row (execCaptureRead n) (fun _ => rfl) fun _ => rfl
  · exact processesMsg_of_row (execTraceSet n) (fun _ => rfl) fun _ => rfl
  · exact processesMsg_of_row (execConfigWrite n) (fun _ => rfl) fun _ => rfl
  · exact processesMsg_of_row (execUpdateStage n) (fun _ => rfl) fun _ => rfl
  · exact processesMsg_updateActivate n
  · exact processesMsg_of_row (execUpdateCancel n) (fun _ => rfl) fun _ => rfl
  · exact processesMsg_of_row (execAttest n) (fun _ => rfl) fun _ => rfl
  · exact processesMsg_of_row (execGetIdentity n) (fun _ => rfl) fun _ => rfl
  · exact processesMsg_of_row (execKeyLoad n) (fun _ => rfl) fun _ => rfl
  · exact processesMsg_of_row (execKeyClear n) (fun _ => rfl) fun _ => rfl
  · exact processesMsg_of_row (execOwnerEnroll n) (fun _ => rfl) fun _ => rfl
  · exact processesMsg_of_row (execOwnerRevoke n) (fun _ => rfl) fun _ => rfl
  · exact processesMsg_of_row (execRollbackCommit n) (fun _ => rfl) fun _ => rfl
  · exact processesMsg_of_row (execProtRemove n) (fun _ => rfl) fun _ => rfl
  · exact processesMsg_of_row (execOwnerKeyPut n) (fun _ => rfl) fun _ => rfl
  · exact processesMsg_of_row (execSensorRead n l) (fun _ => rfl) fun _ => rfl

/-- Settles O8: GET_VERSION passes its header whatever the API, another major ends the header with BAD_VERSION, and
every other message command is processed, ended or left by the one rule of message rows. -/
theorem otherApiVersions : Obligations.OtherApiVersions := by
  unfold Obligations.OtherApiVersions
  refine ⟨?getVersion, fun n m s => headerStatus_of_other_major, ?minor⟩
  case getVersion =>
    intro n m s accepted version _ origin empty
    have type := msgIn_type accepted
    have anyApi : s.badMinor m = false := by simp [State.badMinor, type]
    change execGetVersion n s = _
    exact msgRow_ok ⟨accepted, anyApi, headerStatus_getVersion type version origin empty⟩ _
  case minor =>
    rintro n l m ⟨svc, _, i⟩ s row type major minor accepted
    have process := messageCommand_processes row
    refine ⟨fun _ => process.header accepted, fun passes odd => process.left accepted passes ?_, process.goesOn s⟩
    have bad : s.badMinor m = true := by simp [State.badMinor, type, major, minor]
    simp only [State.leavesMsg, bad, odd, decide_true, Bool.and_self]

end Sys2Proof.Machine
end

section
/-! SUPPORT. The messages, said once per case: what each answers once its header is sound (20 R428 to R440; 21 R441 to R452). -/

namespace Sys2Proof.Machine

section
variable {s : State} {n : Mbox} {m : Msg}

/-- A message that nothing in its header ends is answered with what its effect gives. -/
theorem msgRow_answers {svc type : Nat} (ready : s.msgReady n svc type m) {eff : State → Msg → Nat × List Byte × State}
    {status : Nat} {body : List Byte} {t : State} (effect : eff s m = (status, body, t)) :
    s.msgRow n svc type eff = .next (t.replyMsg n.val m status body) := by
  rw [msgRow_ok ready, effect]

/-! ### Identity, heartbeat and configuration (13 R304; 20 R430 to R434) -/

theorem execGetVersion_of_ready (ready : s.msgReady n 4 0x0001 m) :
    execGetVersion n s = .next (s.replyMsg n.val m 0
      (leBytes 4 (s.rdF 0 pgMgc 0x080 0 32) ++ leBytes 2 (s.rdF 0 pgMgc 0x080 32 16) ++ slice s.fw.image 0x0C 4)) :=
  msgRow_answers ready rfl

/-- The identity is taken while no link is up. -/
theorem execSetIdentity_of_ready (ready : s.msgReady n 4 0x0002 m) (device : m.arg 0 2 < 512)
    (noLink : ∀ p, p < 20 → s.linkSt p ≠ 4) :
    execSetIdentity n s = .next ((({ s with ident := (m.arg 0 2, m.arg 2 4) } : State).showRole).replyMsg n.val m 0 []) := by
  have noneUp : ¬ ((List.range 20).any fun p => s.linkSt p = 4) = true := by
    simpa only [List.any_eq_true, List.mem_range, decide_eq_true_eq, not_exists, not_and] using noLink
  exact msgRow_answers ready (by simp only [if_neg (Nat.not_le.2 device), if_neg noneUp])

/-- The blocking table that SET_BLOCKING reads waits for the next curtain; before the first curtain the time tree forms at
once (log entries 30 and 159). -/
theorem execSetBlocking_of_ready {a k : Nat} {t u : State} (ready : s.msgReady n 4 0x0003 m) (place : a = m.arg 0 8)
    (count : k = m.arg 8 2) (some_ : 0 < k) (most : k ≤ 10240) (own : s.ownRange a (16 * k) = true)
    (reads : t = s.touch (addrKey a) (16 * k)) (good : t.rangeBad (addrKey a) (16 * k) = false)
    (kept : u = { t with fabric := { t.fabric with tableIn := some ((List.range k).map fun i =>
      blockRecOf (slice (t.memRead (addrKey a) (16 * k)) (16 * i) 16)) } }) :
    execSetBlocking n s = .next ((if t.resets.curtain = true then u else u.timeTree).replyMsg n.val m 0 []) := by
  subst place count reads kept
  have sound : ¬(m.arg 8 2 = 0 ∨ 10240 < m.arg 8 2 ∨ s.ownRange (m.arg 0 8) (16 * m.arg 8 2) = false) := by
    simp only [own, Bool.true_eq_false, or_false]
    omega
  exact msgRow_answers ready (by simp only [if_neg sound, good, Bool.false_eq_true, if_false])

theorem execInputsReady_of_ready {mb : Nat} (ready : s.msgReady n 4 0x0004 m) (named : mb = m.arg 6 2)
    (step : m.arg 0 6 = s.stepNum) (lost : s.retained.inputsLost.contains mb = true) :
    execInputsReady n s = .next (({ s with retained := { s.retained with
      inputsLost := s.retained.inputsLost.filter (· ≠ mb),
      toRestore := s.retained.toRestore.filter fun x => x.2.2 ≠ 2 || s.microBatchOf x.1 ≠ some mb } }).replyMsg
        n.val m 0 []) := by
  subst named
  have awaited : ¬(m.arg 0 6 ≠ s.stepNum ∨ s.retained.inputsLost.contains (m.arg 6 2) = false) := by
    rw [lost]
    simpa using step
  exact msgRow_answers ready (if_neg awaited)

/-- What a heartbeat of a die does: where heartbeats are watched, its time is noted (R434). -/
def State.beatSeen (s : State) (d : Nat) : State :=
  if s.hbMs = 0 then s else { s with fw := { s.fw with beats := Tab.put s.fw.beats d (s.now 0) } }

theorem execHeartbeat_of_ready (ready : s.msgReady n 4 0x0005 m) (die : m.arg 0 1 < 4) :
    execHeartbeat n s = .next ((s.beatSeen (m.arg 0 1)).replyMsg n.val m 0 []) := by
  refine msgRow_answers ready ?_
  simp only [if_neg (Nat.not_le.2 die), State.beatSeen]
  split <;> rfl

theorem execTraceSet_of_ready (ready : s.msgReady n 5 0x0015 m) (mode : m.arg 32 1 ≤ 1) :
    execTraceSet n s = .next ((foldNat 4 (fun s i => (s.write1 0 pgMgc (0x0A8 + 8 * i) mbxsWriter
      (if m.arg 32 1 = 0 then s.rd 0 pgMgc (0x0A8 + 8 * i) ||| m.arg (8 * i) 8
        else s.rd 0 pgMgc (0x0A8 + 8 * i) &&& (maskN 64 ^^^ m.arg (8 * i) 8))).s) s).replyMsg n.val m 0 []) :=
  msgRow_answers ready (if_neg (Nat.not_lt.2 mode))

/-- A register that CONFIG_WRITE may set, and firmware may write, is written, and the write is logged first (R432). -/
theorem execConfigWrite_of_ready {d pg off v : Nat} {q : WriteReq} (ready : s.msgReady n 4 0x0016 m) (die : d = m.arg 0 1)
    (page : pg = m.arg 1 1) (offset : off = m.arg 4 2) (value : v = m.arg 8 8)
    (request : q = ⟨mbxsWriter, BitVec.ofNat 64 v, 8⟩) (listed : configAllowed d pg off = true)
    (allowed : s.mayWrite d pg off q = true) :
    execConfigWrite n s = .next (((s.logAt d 4 .configWrite [m.w.origin.code, m.seq, d, pg, off, v]).writeAll
      d pg off [q]).replyMsg n.val m 0 []) := by
  subst die page offset value request
  exact msgRow_answers ready (by simp only [listed, allowed, Bool.true_eq_false, if_false])

/-! ### Reading records (15 R354; 18 R394; 20 R431, R435) -/

theorem execLogRead_of_ready {r : Nat × List Byte × State} (ready : s.msgReady n 5 0x0010 m) (most : m.arg 8 4 ≤ 16384)
    (copied : r = s.copyRecs (m.arg 12 8) (m.arg 0 8) (((s.log.ring.reverse.filter fun e =>
      decide (m.arg 0 8 ≤ e.seq)).take (m.arg 8 4)).map fun e => (e.seq, e.bytes))) :
    execLogRead n s = .next (r.2.2.replyMsg n.val m r.1 r.2.1) := by
  subst copied
  exact msgRow_answers ready (if_neg (Nat.not_lt.2 most))

theorem execChgRead_of_ready {r : Nat × List Byte × State} (ready : s.msgReady n 5 0x0011 m) (die : m.arg 0 1 < 4)
    (most : m.arg 9 4 ≤ 8192) (copied : r = s.copyRecs (m.arg 13 8) (m.arg 1 8)
      ((((s.ringOf (m.arg 0 1)).recs.reverse.filter fun x => decide (m.arg 1 8 ≤ x.seq)).take (m.arg 9 4)).map
        fun x => (x.seq, x.bytes))) :
    execChgRead n s = .next (r.2.2.replyMsg n.val m r.1 r.2.1) := by
  subst copied
  have sound : ¬(4 ≤ m.arg 0 1 ∨ 8192 < m.arg 9 4) := by omega
  exact msgRow_answers ready (if_neg sound)

/-- SEQ + 1 of the newest record that has been read, once the records `l` have been (HIST_STAT). -/
def State.histRead (s : State) (l : List (Nat × List Byte)) : Nat :=
  match l.getLast? with
  | some x => max s.history.read (x.1 + 1)
  | none => s.history.read

theorem execSigRead_of_ready {l : List (Nat × List Byte)} {r : Nat × List Byte × State} (ready : s.msgReady n 5 0x0012 m)
    (fits : l = fitting (m.arg 8 4) ((s.history.events.reverse.filter fun e => decide (m.arg 0 8 ≤ e.seq)).map
      fun e => (e.seq, e.bytes s.sec.sensed.serial)))
    (copied : r = s.copyRecs (m.arg 12 8) (m.arg 0 8) l) :
    execSigRead n s = .next ((if r.1 = 0 then { r.2.2 with history := { r.2.2.history with read := s.histRead l } }
      else r.2.2).replyMsg n.val m r.1 r.2.1) := by
  subst fits copied
  refine msgRow_answers ready ?_
  dsimp only
  split <;> rfl

/-- The capture that CAPTURE_READ names: the flush area, or the capture of the die with the SEQ. -/
def State.captureNamed (s : State) (d q : Nat) : Option (List Byte) :=
  if q = 0xFFFFFFFF then s.fw.flush.map fun f => f.bytes d
  else ((Tab.find s.fw.captures (d * 4 + q % 4)).filter fun x => x.seq = q).map Capture.bytes

theorem execCaptureRead_of_ready {b : List Byte} {r : Nat × State} (ready : s.msgReady n 5 0x0013 m) (die : m.arg 0 1 < 4)
    (named : s.captureNamed (m.arg 0 1) (m.arg 1 4) = some b) (copied : r = s.copyOut (m.arg 5 8) b) :
    execCaptureRead n s = .next (r.2.replyMsg n.val m r.1 []) := by
  subst copied
  rw [State.captureNamed] at named
  exact msgRow_answers ready (by simp only [if_neg (Nat.not_le.2 die), named])

theorem execSensorRead_of_ready {l : List Byte} {r : Nat × State} (ready : s.msgReady n 5 0x0014 m) (die : m.arg 0 1 < 4)
    (copied : r = s.copyOut (m.arg 1 8) l) : execSensorRead n l s = .next (r.2.replyMsg n.val m r.1 []) := by
  subst copied
  exact msgRow_answers ready (if_neg (Nat.not_le.2 die))

/-! ### Updates (20 R438 to R440) -/

/-- An image in readable memory of the part is checked: staged where it is sound, and else the staging fails (R438). -/
theorem execUpdateStage_of_ready {a len : Nat} {bs : List Byte} {u t : State} (ready : s.msgReady n 6 0x0020 m)
    (place : a = m.arg 0 8) (length : len = m.arg 8 4) (notHeld : s.updateState ≠ 3) (notActivating : s.updateState ≠ 4)
    (most : len ≤ 2 ^ 25) (own : s.ownRange a len = true) (reads : u = s.touch (addrKey a) len)
    (good : u.rangeBad (addrKey a) len = false) (image : bs = u.memRead (addrKey a) len)
    (staged : t = { u with fw := { u.fw with slot := some bs, slotDue := false, slotBad := false } }) :
    execUpdateStage n s = .next ((if u.imageFault bs = none then (t.setUpdate 2).logAt 0 6 .updateStaged [fieldAt bs 8 4]
      else u.setUpdate 5).replyMsg n.val m (if u.imageFault bs = none then 0 else 11) []) := by
  subst place length reads image staged
  have idle : ¬(s.updateState = 3 ∨ s.updateState = 4) := not_or.2 ⟨notHeld, notActivating⟩
  have sound : ¬(2 ^ 25 < m.arg 8 4 ∨ s.ownRange (m.arg 0 8) (m.arg 8 4) = false) := by
    simp only [own, Bool.true_eq_false, or_false, Nat.not_lt]
    exact most
  refine msgRow_answers ready ?_
  simp only [if_neg idle, if_neg sound, good, Bool.false_eq_true, if_false]
  split
  next fault => simp only [fault, reduceCtorEq, if_false]
  next fault => simp only [fault, if_true]

/-- A held activation is withdrawn (R440). -/
theorem execUpdateCancel_of_ready (ready : s.msgReady n 6 0x0022 m) (held : s.updateState = 3) :
    execUpdateCancel n s = .next ((s.setUpdate 2).replyMsg n.val m 0 []) := msgRow_answers ready (if_pos held)

theorem leavesMsg_of_ready {svc type : Nat} (ready : s.msgReady n svc type m) : s.leavesMsg m = false := by
  obtain ⟨-, minor, -⟩ := ready
  simp [State.leavesMsg, minor]

/-- Whether an activation whose header is sound begins the update after its reply: by what is staged, and by emergency. -/
theorem activates_of_ready (ready : s.msgReady n 6 0x0021 m) :
    s.activates n = (decide (s.updateState = 2) && !s.recentEmergency) := by
  obtain ⟨accepted, -, passes⟩ := id ready
  simp [State.activates, accepted, passes, leavesMsg_of_ready ready]

theorem execUpdateActivate_of_ready {status : Nat} {body : List Byte} {t : State} (ready : s.msgReady n 6 0x0021 m)
    (effect : activateReply s m = (status, body, t)) :
    execUpdateActivate n s = .next (if (decide (s.updateState = 2) && !s.recentEmergency) = true
      then (t.replyMsg n.val m status body).beginUpdate else t.replyMsg n.val m status body) := by
  rw [execUpdateActivate_of_row (msgRow_answers ready effect), activates_of_ready ready]

/-- A staged image is activated after the reply (R439). -/
theorem execUpdateActivate_of_calm (ready : s.msgReady n 6 0x0021 m) (staged : s.updateState = 2)
    (calm : s.recentEmergency = false) :
    execUpdateActivate n s = .next (s.replyMsg n.val m 0 []).beginUpdate := by
  have effect : activateReply s m = (0, [], s) := by simp [activateReply, staged, calm]
  rw [execUpdateActivate_of_ready ready effect]
  simp [staged, calm]

/-- In an emergency, and for 10 s after one, the activation is held (R440). -/
theorem execUpdateActivate_of_emergency (ready : s.msgReady n 6 0x0021 m) (staged : s.updateState = 2)
    (emergency : s.recentEmergency = true) :
    execUpdateActivate n s = .next (((s.setUpdate 3).logAt 0 6 .updateHeld).replyMsg n.val m 10 []) := by
  have effect : activateReply s m = (10, [], (s.setUpdate 3).logAt 0 6 .updateHeld) := by
    simp [activateReply, staged, emergency]
  rw [execUpdateActivate_of_ready ready effect]
  simp [emergency]

/-! ### Attestation, identity, keys and fuses (21 R442 to R452) -/

/-- A part whose certificate holds copies its report out; another signs nothing (log entries 14 and 38). -/
theorem execAttest_of_ready {bs : List Byte} {r : Nat × State} (ready : s.msgReady n 4 0x0101 m)
    (report : bs = s.report (m.part 0 32)) (copied : r = s.copyOut (m.arg 32 8) bs) :
    execAttest n s = .next ((if s.certOk = false then s else r.2).replyMsg n.val m (if s.certOk = false then 8 else r.1)
      (if s.certOk = false then [] else if r.1 = 0 then leBytes 4 bs.length else [])) := by
  subst copied
  rw [report]
  refine msgRow_answers ready ?_
  dsimp only
  split <;> rfl

theorem execGetIdentity_of_ready {r : Nat × State} (ready : s.msgReady n 4 0x0102 m) (cert : s.sec.cert.length = 256)
    (copied : r = s.copyOut (m.arg 0 8) s.sec.cert) : execGetIdentity n s = .next (r.2.replyMsg n.val m r.1 []) := by
  subst copied
  exact msgRow_answers ready (if_neg (not_not_intro cert))

/-- What the ciphertext of a KEY_LOAD to slot `i` deciphers to, where it is a key of the slot's length. -/
def Msg.keyOpened (m : Msg) (i ct : Nat) : Option (List Byte) :=
  (Config.sm2Open (m.part 4 ct)).filter fun k => k.length = (if i = 16 then 32 else 16)

/-- The key that a KEY_LOAD brings to slot `i`: one that was not loaded before (R450). -/
def State.keyBrought (s : State) (m : Msg) (i ct : Nat) : Option (List Byte) :=
  (m.keyOpened i ct).filter fun k => !s.sec.tags.contains (BitVec.ofNat 64 (keyTag k))

/-- A slot with its new key; the tags of the 1,024 newest keys are kept (log entry 46). -/
def State.keyLoaded (s : State) (i : Nat) (k : List Byte) : State :=
  ({ s with sec := { s.sec with
    keys := Tab.put s.sec.keys i k
    tags := (BitVec.ofNat 64 (keyTag k) :: s.sec.tags).take 1024 } } : State).zeroCounters i

theorem execKeyLoad_of_ready {i ct : Nat} (ready : s.msgReady n 4 0x0103 m) (slot : i = m.arg 0 1) (length : ct = m.arg 2 2)
    (least : i ≤ 16) (kind : ct = if i = 16 then 129 else 113) (body : m.len = 4 + ct) (free : s.slotBusy i = none) :
    execKeyLoad n s = .next (((s.keyBrought m i ct).elim s (s.keyLoaded i)).replyMsg n.val m
      (if s.keyBrought m i ct = none then 6 else 0) []) := by
  subst slot length
  have sound : ¬(16 < m.arg 0 1 ∨ m.arg 2 2 ≠ if m.arg 0 1 = 16 then 129 else 113) :=
    not_or.2 ⟨Nat.not_lt.2 least, not_not_intro kind⟩
  refine msgRow_answers ready ?_
  simp only [if_neg sound, if_neg (not_not_intro body), free]
  obtain opened | ⟨k, opened⟩ := Option.eq_none_or_eq_some (m.keyOpened (m.arg 0 1) (m.arg 2 2))
  · rw [State.keyBrought, opened]
    rw [Msg.keyOpened] at opened
    simp only [opened]
    rfl
  · rw [State.keyBrought, opened]
    rw [Msg.keyOpened] at opened
    simp only [opened]
    cases known : s.sec.tags.contains (BitVec.ofNat 64 (keyTag k)) <;>
      simp only [known, Option.filter_some, Bool.not_true, Bool.not_false, Bool.false_eq_true, if_true, if_false] <;> rfl

theorem execKeyClear_of_ready (ready : s.msgReady n 4 0x0104 m) (least : m.arg 0 1 ≤ 16)
    (free : s.slotBusy (m.arg 0 1) = none) :
    execKeyClear n s = .next (({ s with sec := { s.sec with keys := Tab.del s.sec.keys (m.arg 0 1) } }).replyMsg
      n.val m 0 []) :=
  msgRow_answers ready (by simp only [if_neg (Nat.not_lt.2 least), free])

/-- Outside an emergency a message that blows fuses has its effect. -/
theorem blowRow_of_calm (calm : s.emergency = false) (eff : State → Msg → Nat × List Byte × State) :
    s.blowRow m eff = eff s m := by
  simp only [State.blowRow, calm, Bool.false_eq_true, if_false]

/-- A fresh slot is enrolled: its hash and VALID are blown, and the key is stored (R442, R451). -/
theorem execOwnerEnroll_of_ready {i : Nat} (ready : s.msgReady n 4 0x0105 m) (calm : s.emergency = false) (slot : i = m.arg 0 1)
    (least : i < 4) (fresh : s.sec.fuses.fresh i = true) :
    execOwnerEnroll n s = .next (((s.blow fun f => { f with
      ownerHash := Tab.set 0 f.ownerHash i (BitVec.ofNat 256 (leNat (sm3 (m.part 4 64)))),
      ownerValid := f.ownerValid ||| BitVec.ofNat 4 (2 ^ i) }).putOwnerKey i (m.part 4 64)).replyMsg n.val m 0 []) := by
  subst slot
  refine msgRow_answers ready ((blowRow_of_calm calm _).trans ?_)
  simp only [if_neg (Nat.not_le.2 least), fresh, Bool.true_eq_false, if_false]

/-- A slot that is not the last usable one is revoked (R442). -/
theorem execOwnerRevoke_of_ready {i : Nat} (ready : s.msgReady n 4 0x0106 m) (calm : s.emergency = false) (slot : i = m.arg 0 1)
    (least : i < 4) (notLast : s.sec.fuses.lastUsable i = false) :
    execOwnerRevoke n s = .next ((s.blow fun f => { f with
      ownerRevoke := f.ownerRevoke ||| BitVec.ofNat 4 (2 ^ i) }).replyMsg n.val m 0 []) := by
  subst slot
  refine msgRow_answers ready ((blowRow_of_calm calm _).trans ?_)
  simp only [if_neg (Nat.not_le.2 least), notLast, Bool.false_eq_true, if_false]

/-- The rollback counter rises to the running image's, and never falls (R449). -/
theorem execRollbackCommit_of_ready {r : Nat} (ready : s.msgReady n 4 0x0107 m) (calm : s.emergency = false)
    (image : r = s.imageRollback) :
    execRollbackCommit n s = .next ((if r ≤ s.sec.fuses.rollback then s else s.blow fun f => { f with
      fwRollback := f.fwRollback ||| BitVec.ofNat 64 (2 ^ r - 1) }).replyMsg n.val m 0 []) := by
  subst image
  refine msgRow_answers ready ((blowRow_of_calm calm _).trans ?_)
  dsimp only
  split <;> rfl

theorem execProtRemove_of_ready (ready : s.msgReady n 4 0x0108 m) (calm : s.emergency = false) (read : m.arg 1 1 < 32)
    (write : m.arg 2 1 < 32) :
    execProtRemove n s = .next ((s.blow fun f => { f with
      protRemove := Tab.upd 0 f.protRemove (m.arg 0 1) (· ||| m.rights) }).replyMsg n.val m 0 []) := by
  have sound : ¬(32 ≤ m.arg 1 1 ∨ 32 ≤ m.arg 2 1) := by omega
  exact msgRow_answers ready ((blowRow_of_calm calm _).trans (if_neg sound))

theorem execOwnerKeyPut_of_ready {i : Nat} (ready : s.msgReady n 4 0x0109 m) (slot : i = m.arg 0 1) (least : i < 4)
    (hash : leNat (sm3 (m.part 4 64)) = (Tab.get 0 s.sec.sensed.ownerHash i).toNat) :
    execOwnerKeyPut n s = .next ((s.putOwnerKey i (m.part 4 64)).replyMsg n.val m 0 []) := by
  subst slot
  have sound : ¬(4 ≤ m.arg 0 1 ∨ leNat (sm3 (m.part 4 64)) ≠ (Tab.get 0 s.sec.sensed.ownerHash (m.arg 0 1)).toNat) :=
    not_or.2 ⟨Nat.not_le.2 least, not_not_intro hash⟩
  exact msgRow_answers ready (if_neg sound)

end

/-- Settles O55: each message with a sound header gives the answer of its row under the conditions on its fields. -/
theorem serviceMessagesComplete : Obligations.ServiceMessagesComplete := by
  unfold Obligations.ServiceMessagesComplete
  refine ⟨?version, ?identity, ?blocking, ?inputs, ?beat, ?beatOff, ?trace, ?config⟩
  case version => exact fun _ _ _ => execGetVersion_of_ready
  case identity => exact fun _ _ _ => execSetIdentity_of_ready
  case blocking => exact fun _ _ _ _ _ _ _ => execSetBlocking_of_ready
  case inputs => exact fun _ _ _ _ => execInputsReady_of_ready
  case beat =>
    intro n m s ready die watched
    have seen : s.beatSeen (m.arg 0 1) = _ := if_neg watched
    rw [← seen]
    exact execHeartbeat_of_ready ready die
  case beatOff =>
    intro n m s ready die off
    have seen : s.beatSeen (m.arg 0 1) = s := if_pos off
    have answer := execHeartbeat_of_ready ready die
    rw [seen] at answer
    exact answer
  case trace => exact fun _ _ _ => execTraceSet_of_ready
  case config => exact fun _ _ _ _ _ _ _ _ => execConfigWrite_of_ready


/-- Settles O56: each reading copies out what its row names, and answers how the copy ended. -/
theorem readingMessagesComplete : Obligations.ReadingMessagesComplete := by
  unfold Obligations.ReadingMessagesComplete
  refine ⟨?log, ?changes, ?history, ?capture, ?sensors⟩
  case log => exact fun _ _ _ _ => execLogRead_of_ready
  case changes => exact fun _ _ _ _ => execChgRead_of_ready
  case history => exact fun _ _ _ _ _ => execSigRead_of_ready
  case capture => exact fun _ _ _ _ _ => execCaptureRead_of_ready
  case sensors => exact fun _ _ _ _ _ => execSensorRead_of_ready

/-- Settles O57: a staging by the state of its image, and an activation by what is staged and by emergency. -/
theorem updateMessagesComplete : Obligations.UpdateMessagesComplete := by
  unfold Obligations.UpdateMessagesComplete
  refine ⟨?stage, ?activate, ?hold, ?cancel⟩
  case stage => exact fun _ _ _ _ _ _ _ _ => execUpdateStage_of_ready
  case activate => exact fun _ _ _ => execUpdateActivate_of_calm
  case hold => exact fun _ _ _ => execUpdateActivate_of_emergency
  case cancel => exact fun _ _ _ => execUpdateCancel_of_ready

/-- Settles O58: each message with a sound header gives the answer of its row; those that blow fuses do so outside an
emergency. -/
theorem securityMessagesComplete : Obligations.SecurityMessagesComplete := by
  unfold Obligations.SecurityMessagesComplete
  refine ⟨?attest, ?identity, ?keyLoad, ?keyClear, ?enroll, ?revoke, ?rollback, ?protect, ?keyPut⟩
  case attest => exact fun _ _ _ _ _ => execAttest_of_ready
  case identity => exact fun _ _ _ _ => execGetIdentity_of_ready
  case keyLoad =>
    intro n m i ct key e s ready slot length least kind body free brought effect
    have brought : s.keyBrought m i ct = key := brought.symm
    have answer := execKeyLoad_of_ready ready slot length least kind body free
    rw [brought] at answer
    subst effect
    cases key <;> exact answer
  case keyClear => exact fun _ _ _ => execKeyClear_of_ready
  case enroll =>
    rintro n m i _ s ready calm slot rfl least valid revoked hash
    have fresh : s.sec.fuses.fresh i = true := by
      simp only [Fuses.fresh, valid, revoked, hash, decide_true, Bool.and_self]
    exact execOwnerEnroll_of_ready ready calm slot least fresh
  case revoke =>
    intro n m i s ready calm slot least notLast
    have stays : s.sec.fuses.lastUsable i = false := by simpa [Fuses.lastUsable] using notLast
    exact execOwnerRevoke_of_ready ready calm slot least stays
  case rollback => exact fun _ _ _ _ => execRollbackCommit_of_ready
  case protect =>
    rintro n m _ s ready calm read write rfl
    exact execProtRemove_of_ready ready calm read write
  case keyPut => exact fun _ _ _ _ => execOwnerKeyPut_of_ready

end Sys2Proof.Machine
end

section
/-! SUPPORT. Firmware components and mailboxes, said once per case (19 R412; 20 R421, R427, R429, R433, R434, R436; 21
R448). -/

namespace Sys2Proof.Machine

/-! ### Components (19 R412; 20 R421) -/

/-- The faults of a component within the last 60 s. -/
def State.recentFaults (s : State) (d c : Nat) : List Nat :=
  (Tab.get [] s.fw.restarts (8 * d + c)).filter fun t => decide (s.now d < t + 60000000000)

/-- A component that is not MON, with fewer than 3 faults in the last 60 s, restarts. -/
theorem compFault_of_restart {s t : State} {d c : Nat} {near : List Nat} (here : s.comp d c ≠ 0)
    (faults : near = s.recentFaults d c) (notMon : c ≠ 0) (few : near.length < 3)
    (noted : t = ((({ s with fw := { s.fw with restarts := Tab.put s.fw.restarts (8 * d + c) (s.now d :: near) } } :
      State).setErr d pgMgc 9).logAt d 0 .compRestart [c]).satF d pgMgc 0x088 (4 * c) 4 1) :
    s.compFault d c = (t.setComp d c 2).whileRestarting d c := by
  subst faults noted
  have restarts : ¬(c = 0 ∨ 3 ≤ (s.recentFaults d c).length) := not_or.2 ⟨notMon, Nat.not_le.2 few⟩
  rw [State.recentFaults] at restarts ⊢
  simp only [State.compFault, if_neg here, if_neg restarts]

/-- MON, or a component with its fourth fault within 60 s, is stopped and escalated. -/
theorem compFault_of_escalation {s : State} {d c : Nat} (here : s.comp d c ≠ 0)
    (many : c = 0 ∨ 3 ≤ (s.recentFaults d c).length) : s.compFault d c = (s.setComp d c 3).escalate d c := by
  rw [State.recentFaults] at many
  simp only [State.compFault, if_neg here, if_pos many]

theorem execComponentRestartComplete_of_restarting {d : Die} {c : Component} {s t : State} (restarting : s.comp d c = 2)
    (runs : t = s.setComp d c 1) :
    execComponentRestartComplete d c s = .next (if c.val = 1 then (t.wrF d pgPwr 0x028 3 1 0).retarget d
      else if c.val = 2 then t.admitDue d else if c.val = 3 ∧ d.val = 0 then t.cuesBack
      else if c.val = 4 then (foldNat 16 (fun s n => s.answerOdd n) t).noticeOut else t) := by
  subst runs
  have die : d = 0 ↔ d.val = 0 := Fin.ext_iff
  simp only [execComponentRestartComplete, if_neg (not_not_intro restarting), die]

/-! ### Submissions (R427) -/

section
variable {w : Writer} {n : Nat} {a : Word} {q : WriteReq} {m : Msg} {s u : State}

/-- A sound and allowed write of SLOTn is one cycle of the slot. -/
theorem slotWrite_of_allowed (request : q = ⟨w, a, 8⟩) (sound : accessOk 0 pgMbx (0x080 + 8 * n) q = true)
    (allowed : s.mayWrite 0 pgMbx (0x080 + 8 * n) q = true) (awake : s.inReset 0 pgMbx = false) :
    s.slotWrite n ⟨w, a, 8⟩ = s.slotCycle n [q] := by
  subst request
  simp [State.slotWrite, State.slotWrites, sound, allowed, awake, sortReqs, insertReq, State.denyAll]

theorem slotMsg_of_msgAddr (t : State) (request : q = ⟨w, a, 8⟩) (place : t.msgAddr (a.toNat % 2 ^ 52) = true) :
    t.slotMsg q = some ⟨a.toNat % 2 ^ 52, w, t.memRead (addrKey (a.toNat % 2 ^ 52)) 256⟩ := by
  subst request
  simp only [State.slotMsg, place, if_true]

/-- The cycle of one message that none before it in its message time outranks: it overtakes those it outranks, and wins. -/
theorem slotCycle_of_winner (request : q = ⟨w, a, 8⟩) (place : s.msgAddr (a.toNat % 2 ^ 52) = true)
    (wins : s.loses n w = false) (overtaken : u = s.overtake n w) (stays : u.msgAddr (a.toNat % 2 ^ 52) = true)
    (message : m = ⟨a.toNat % 2 ^ 52, w, u.memRead (addrKey (a.toNat % 2 ^ 52)) 256⟩) :
    s.slotCycle n [q] = u.slotWin n (u.view 0 pgMbx (0x080 + 8 * n)) (u.detail 0 pgMbx (0x080 + 8 * n)) q (some m) := by
  have writer : q.w = w := by rw [request]
  have before := slotMsg_of_msgAddr s request place
  have after := slotMsg_of_msgAddr u request stays
  subst overtaken message
  simp [State.slotCycle, before, writer, wins, after]

/-- The cycle of one message that another of its message time outranks: it loses. -/
theorem slotCycle_of_loser (request : q = ⟨w, a, 8⟩) (place : s.msgAddr (a.toNat % 2 ^ 52) = true)
    (loses : s.loses n w = true) (message : m = ⟨a.toNat % 2 ^ 52, w, s.memRead (addrKey (a.toNat % 2 ^ 52)) 256⟩) :
    s.slotCycle n [q] = s.slotLose n (s.view 0 pgMbx (0x080 + 8 * n)) (s.detail 0 pgMbx (0x080 + 8 * n)) q (some m) := by
  have writer : q.w = w := by rw [request]
  have before := slotMsg_of_msgAddr s request place
  subst message
  simp [State.slotCycle, before, writer, loses]

theorem slotWrite_of_winner (request : q = ⟨w, a, 8⟩) (sound : accessOk 0 pgMbx (0x080 + 8 * n) q = true)
    (allowed : s.mayWrite 0 pgMbx (0x080 + 8 * n) q = true) (awake : s.inReset 0 pgMbx = false)
    (place : s.msgAddr (a.toNat % 2 ^ 52) = true) (wins : s.loses n w = false) (overtaken : u = s.overtake n w)
    (stays : u.msgAddr (a.toNat % 2 ^ 52) = true)
    (message : m = ⟨a.toNat % 2 ^ 52, w, u.memRead (addrKey (a.toNat % 2 ^ 52)) 256⟩) :
    s.slotWrite n ⟨w, a, 8⟩ =
      u.slotWin n (u.view 0 pgMbx (0x080 + 8 * n)) (u.detail 0 pgMbx (0x080 + 8 * n)) q (some m) :=
  (slotWrite_of_allowed request sound allowed awake).trans
    (slotCycle_of_winner request place wins overtaken stays message)

theorem slotWrite_of_loser (request : q = ⟨w, a, 8⟩) (sound : accessOk 0 pgMbx (0x080 + 8 * n) q = true)
    (allowed : s.mayWrite 0 pgMbx (0x080 + 8 * n) q = true) (awake : s.inReset 0 pgMbx = false)
    (place : s.msgAddr (a.toNat % 2 ^ 52) = true) (loses : s.loses n w = true)
    (message : m = ⟨a.toNat % 2 ^ 52, w, s.memRead (addrKey (a.toNat % 2 ^ 52)) 256⟩) :
    s.slotWrite n ⟨w, a, 8⟩ =
      s.slotLose n (s.view 0 pgMbx (0x080 + 8 * n)) (s.detail 0 pgMbx (0x080 + 8 * n)) q (some m) :=
  (slotWrite_of_allowed request sound allowed awake).trans (slotCycle_of_loser request place loses message)

end

/-! ### Signed commands (21 R446 to R448) -/

/-- A command that verifies and is newer than the last accepted one is a write of mailbox 15 with origin MGMT (log entry 18). -/
theorem deliverSigned_eq (a : Nat) (m : Msg) (t : State) : t.deliverSigned a m =
    if (t.ownWrite (addrKey a) m.bytes).1.loses 15 m.w then
      (t.ownWrite (addrKey a) m.bytes).1.slotLose 15 ((t.ownWrite (addrKey a) m.bytes).1.rd 0 pgMbx 0x0F8)
        ((t.ownWrite (addrKey a) m.bytes).1.rd 0 pgMbx 0x100) ⟨m.w, BitVec.ofNat 64 a, 8⟩ (some m)
    else
      ((t.ownWrite (addrKey a) m.bytes).1.overtake 15 m.w).slotWin 15
        (((t.ownWrite (addrKey a) m.bytes).1.overtake 15 m.w).rd 0 pgMbx 0x0F8)
        (((t.ownWrite (addrKey a) m.bytes).1.overtake 15 m.w).rd 0 pgMbx 0x100) ⟨m.w, BitVec.ofNat 64 a, 8⟩ (some m) := by
  unfold State.deliverSigned
  generalize (t.ownWrite (addrKey a) m.bytes).1 = u
  cases lost : u.loses 15 m.w <;> simp [lost]

/-- The port answers where the mailbox service is there and D0's cache is out of reset. -/
theorem execSignedCommandReceive_of_serving {msg : List Byte} {buf a : Nat} {m : Msg} {s : State} (serves : s.comp 0 4 ≠ 0)
    (awake : s.inReset 0 pgShc = false) (place : a = s.device * 2 ^ 40 + buf % 2 ^ 38 / 256 * 256)
    (message : m = ⟨a, ⟨.mgmt, BitVec.ofNat 32 (fieldAt msg 8 4), 0, false⟩, msg⟩) :
    execSignedCommandReceive msg buf s = .next (if s.verified msg = false
      then (s.secCount 0).send (.datagram (s.replyBytes 15 m 12 []))
      else if m.seq ≤ s.fw.lastSeq then (s.secCount 16).send (.datagram (s.replyBytes 15 m 9 []))
      else ({ s with fw := { s.fw with lastSeq := m.seq } } : State).deliverSigned a m) := by
  subst place message
  have answers : ¬(s.comp 0 4 = 0 ∨ s.inReset 0 pgShc = true) := not_or.2 ⟨serves, Bool.eq_false_iff.1 awake⟩
  exact congrArg Host.Outcome.next (if_neg answers)

/-! ### Times (20 R434, R440) -/

theorem execUpdateHoldExpire_of_calm {s : State} (held : s.updateState = 3) (calm : s.recentEmergency = false)
    (up : s.power.down = false) (on : s.power.off.isEmpty = true) : execUpdateHoldExpire s = .next s.beginUpdate :=
  congrArg Host.Outcome.next (if_pos ⟨held, calm, up, on⟩)

/-- A die whose heartbeat has not come for 3 × HB_MS has its core cluster reset, with origin FW (R434). -/
theorem execHeartbeatTimeout_of_late {d : Die} {s t : State} (watched : s.hbMs ≠ 0)
    (late : Tab.get 0 s.fw.beats d.val + 3000000 * s.hbMs ≤ s.now 0)
    (noted : t = { s with fw := { s.fw with beats := Tab.put s.fw.beats d.val (s.now 0) } }) :
    execHeartbeatTimeout d s = .next
      (((t.setErr 0 pgMgc 12).logAt d 0 .heartbeatLost [d]).resetReq (3, d, 0) Origin.fw.code false) := by
  subst noted
  have fires : ¬(s.hbMs = 0 ∨ s.now 0 < Tab.get 0 s.fw.beats d.val + 3000000 * s.hbMs) :=
    not_or.2 ⟨watched, Nat.not_lt.2 late⟩
  exact congrArg Host.Outcome.next (if_neg fires)

/-- Settles O54: a fault by how many came before it, a submission by whether it wins its message time, and the other events by
their own equations. -/
theorem firmwareComponentsComplete : Obligations.FirmwareComponentsComplete := by
  unfold Obligations.FirmwareComponentsComplete
  refine ⟨?fault, ?missed, ?escalates, ?restarted, ?submitWins, ?submitLoses, ?armWins, ?armLoses, ?done, ?signed, ?told,
    ?holdEnds, ?heartbeat⟩
  case fault =>
    exact fun _ _ _ _ _ here faults notMon few noted =>
      congrArg Host.Outcome.next (compFault_of_restart here faults notMon few noted)
  case missed =>
    exact fun _ _ _ _ _ here faults notMon few noted =>
      congrArg Host.Outcome.next (compFault_of_restart here faults notMon few noted)
  case escalates => exact fun _ _ _ here many => congrArg Host.Outcome.next (compFault_of_escalation here many)
  case restarted => exact fun _ _ _ _ => execComponentRestartComplete_of_restarting
  case submitWins =>
    exact fun _ _ _ _ _ _ _ request sound allowed awake place wins overtaken stays message => congrArg Host.Outcome.next
      (slotWrite_of_winner request sound allowed awake place wins overtaken stays message)
  case submitLoses =>
    rintro w n a q m _ s request sound allowed awake place loses rfl - message
    exact congrArg Host.Outcome.next (slotWrite_of_loser request sound allowed awake place loses message)
  case armWins =>
    exact fun _ _ _ _ _ _ request sound allowed awake place wins overtaken stays message => congrArg Host.Outcome.next
      (slotWrite_of_winner request sound allowed awake place wins overtaken stays message)
  case armLoses =>
    rintro w a q m _ s request sound allowed awake place loses rfl - message
    exact congrArg Host.Outcome.next (slotWrite_of_loser request sound allowed awake place loses message)
  case done =>
    rintro w v _ s rfl acts
    exact congrArg Host.Outcome.next (Committed.then_of_win acts _)
  case signed =>
    rintro msg buf a q m _ _ _ s serves awake place rfl rfl rfl rfl rfl
    refine (execSignedCommandReceive_of_serving serves awake place rfl).trans ?_
    rw [deliverSigned_eq]
  case told =>
    rintro d src _ _ _ s rfl rfl lost within rfl
    exact execLogSuppressed_of_lost lost within
  case holdEnds => exact fun _ => execUpdateHoldExpire_of_calm
  case heartbeat => exact fun _ _ _ => execHeartbeatTimeout_of_late

end Sys2Proof.Machine
end

section
/-! SUPPORT. Replies and the ends of tracked requests, said once per case (12 R285; 14 R316, R328 to R332). -/

namespace Sys2Proof.Machine

section
variable {s u : State} {r : Req} {k : Track} (tracked : s.trackOf r.die r.track.toNat = some k)
include tracked

/-- A LOST whose tag holds: the lost branch is marked, and a write counts as answered, a read as failed (R329). -/
theorem execLost_of_held {t : State} (holds : s.tagHolds k r = true) (n : Nat) {e : Bool}
    (marked : t = (s.echoAt r k.owner e).branchLost r.die (s.lostFlow k).1 (s.lostFlow k).2.1 (s.lostFlow k).2.2)
    (kept : u = t.putTrack r.die r.track.toNat { k with lost := true }) :
    execLost r n e s = .next (u.accept r r.track.toNat { k with lost := true } (if k.write then .ok else .branchLost) n []) := by
  subst kept marked
  simp only [execLost, tracked, holds, Bool.true_eq_false, if_false]

/-- What a reply's port learns of it: the transfer's end, and a core an error. -/
def State.portTold (s : State) (k : Track) (st : Status) (xs : List Byte) (p : SpPort) : State :=
  State.send (match p with
    | .cores c => if st = Status.ok then s else s.busErr c k.addr
    | _ => s) (.note (.other 2 ([portIx p, k.addr, st.code] ++ xs.map BitVec.toNat)))

/-- What the reply's owner learns of it. -/
def State.ownerTold (s : State) (k : Track) (st : Status) (xs : List Byte) : State :=
  match k.owner with
  | .port p => s.portTold k st xs p
  | _ => s

/-- A reply whose tag holds, and whose payload opens, is accepted. -/
theorem execReplyReceive_of_opened {st : Status} {n : Nat} {data xs : List Byte} (holds : s.tagHolds k r = true)
    (opened : s.replyOpen r st n data = (u, some xs)) (e : Bool) : execReplyReceive r st n e data s =
      .next (((u.echoAt r k.owner e).accept r r.track.toNat k st (max 1 n) xs).ownerTold k st xs) := by
  simp only [execReplyReceive, tracked, holds, Bool.true_eq_false, if_false, opened]
  rfl

/-- A reply whose tag does not hold ends its entry unanswered (R285). -/
theorem execReplyReceive_of_stale (stale : s.tagHolds k r = false) (st : Status) (n : Nat) (e : Bool) (data : List Byte) :
    execReplyReceive r st n e data s = .next (((s.endTrack r.die r.track.toNat).unanswered k).dropReply r) := by
  simp only [execReplyReceive, tracked, stale, if_true]

/-- A reply whose payload does not open is dropped (R332). -/
theorem execReplyReceive_of_forged {st : Status} {n : Nat} {data : List Byte} (holds : s.tagHolds k r = true)
    (forged : s.replyOpen r st n data = (u, none)) (e : Bool) :
    execReplyReceive r st n e data s = .next (u.replyAuth r) := by
  simp only [execReplyReceive, tracked, holds, Bool.true_eq_false, if_false, forged]

end

theorem ownerTold_of_no_port {s : State} {k : Track} (noPort : ∀ p, k.owner ≠ .port p) (st : Status) (xs : List Byte) :
    s.ownerTold k st xs = s := by
  unfold State.ownerTold
  split
  next p owner => exact absurd owner (noPort p)
  next => rfl

theorem ownerTold_of_port {s : State} {k : Track} {p : SpPort} (owner : k.owner = .port p) (st : Status) (xs : List Byte) :
    s.ownerTold k st xs = s.portTold k st xs p := by
  simp only [State.ownerTold, owner]

theorem portTold_of_ok (s : State) (k : Track) (xs : List Byte) (p : SpPort) : s.portTold k .ok xs p =
    s.send (.note (.other 2 ([portIx p, k.addr, Status.ok.code] ++ xs.map BitVec.toNat))) := by
  cases p <;> rfl

theorem portTold_of_error {s : State} {k : Track} {st : Status} (c : Die) (xs : List Byte) (error : st ≠ .ok) :
    s.portTold k st xs (.cores c) =
      (s.busErr c k.addr).send (.note (.other 2 ([portIx (.cores c), k.addr, st.code] ++ xs.map BitVec.toNat))) := by
  simp only [State.portTold, if_neg error]

/-- An entry older than 21 ms ends unanswered; one of the book context ends the step (R285 rule 3; 16 R369). -/
theorem execTrackingEntryExpire_of_old {d : Die} {t : BitVec 16} {k : Track} {u s : State}
    (tracked : s.trackOf d t.toNat = some k) (old : k.issued + 21000000 < s.now d)
    (ended : u = ((s.endTrack d t.toNat).unanswered k).incF d pgApc 0x460 32 32 1) :
    execTrackingEntryExpire d t s = .next (if u.endsStep k then u.endStep 3 else u) := by
  subst ended
  simp only [execTrackingEntryExpire, tracked, if_neg (Nat.not_le.2 old)]

theorem execRequestAgeDiscard_of_old {d : Die} {r : Req} {s : State} (ns : Nat)
    (old : 78125 < (s.now d / 256 + 2 ^ 32 - r.issue.toNat) % 2 ^ 32) : execRequestAgeDiscard d r ns s = .next
      (((s.incF d pgRtr 0x0F0 0 16 1).setErr d pgRtr 10).dropWatches d fun w => decide (w.req = r)) :=
  congrArg Host.Outcome.next (if_neg (Nat.not_le.2 old))

/-- Settles O42: a reply by whether its tag holds and its payload opens, told to its owner by the owner's kind; the ends by age
are their own equations. -/
theorem repliesComplete : Obligations.RepliesComplete := by
  unfold Obligations.RepliesComplete
  refine ⟨?lost, ?engine, ?portOk, ?coreError, ?stale, ?forged, ?expire, ?discard⟩
  case lost => exact fun _ n _ _ _ _ _ tracked holds => execLost_of_held tracked holds n
  case engine =>
    intro r st n e data xs k u s tracked holds opened noPort
    exact (execReplyReceive_of_opened tracked holds opened e).trans (congrArg _ (ownerTold_of_no_port noPort st xs))
  case portOk =>
    intro r n e data xs k p u s tracked holds opened owner
    exact (execReplyReceive_of_opened tracked holds opened e).trans
      (congrArg _ ((ownerTold_of_port owner _ xs).trans (portTold_of_ok _ k xs p)))
  case coreError =>
    intro r st n e data xs k c u s tracked holds opened owner error
    exact (execReplyReceive_of_opened tracked holds opened e).trans
      (congrArg _ ((ownerTold_of_port owner st xs).trans (portTold_of_error c xs error)))
  case stale => exact fun _ st n e data _ _ tracked stale => execReplyReceive_of_stale tracked stale st n e data
  case forged => exact fun _ _ _ e _ _ _ _ tracked holds forged => execReplyReceive_of_forged tracked holds forged e
  case expire => exact fun _ _ _ _ _ => execTrackingEntryExpire_of_old
  case discard => exact fun _ _ ns _ => execRequestAgeDiscard_of_old ns

end Sys2Proof.Machine
end

section
/-! SUPPORT. The context commands and the events of scheduling, said once per case (12 R274 to R287). -/

namespace Sys2Proof.Machine

/-! ### Commands (R276) -/

/-- The state in which a command's checks are made: DEFINE reads its entry first, where its state allows it (11 R265). -/
def State.entryRead (s : State) (op id : Nat) : State :=
  if op = 1 ∧ s.rd 0 pgApc 0x408 ≠ 0 ∧ ctxAllowed op (s.ctxOf id).st = true then s.touch (addrKey (s.ctxEntry id)) 64 else s

theorem entryRead_of_other {op : Nat} (other : op ≠ 1) (s : State) (id : Nat) : s.entryRead op id = s :=
  if_neg fun h => other h.1

theorem entryRead_define (s : State) (id : Nat) : s.entryRead 1 id =
    if s.rd 0 pgApc 0x408 ≠ 0 ∧ ctxAllowed 1 (s.ctxOf id).st = true then s.touch (addrKey (s.ctxEntry id)) 64 else s := by
  simp only [State.entryRead, true_and]

/-- A command whose checks pass, while none is in progress, acts. -/
theorem ctxCommand_of_sound {s : State} {id op : Nat} (context : id < 4096) (code : op < 16) (free : s.ctx.cmd = none)
    (sound : (s.entryRead op id).ctxCheck op id = 0) : s.ctxCommand (id + op * 2 ^ 12) = (s.entryRead op id).ctxAct op id := by
  have idField : bitsOf (id + op * 2 ^ 12) 0 12 = id := by
    simp only [bitsOf]
    omega
  have opField : bitsOf (id + op * 2 ^ 12) 12 4 = op := by
    simp only [bitsOf]
    omega
  rw [State.entryRead] at sound ⊢
  simp only [State.ctxCommand, idField, opField, free, Option.isSome_none, Bool.false_eq_true, if_false, sound, if_true]

theorem ctxCmdWrite_of_sound {s : State} {w : Writer} {id : CtxId} {op : Nat} {c : Committed} (code : op < 16)
    (wrote : c = s.write1 0 pgApc 0x410 w (id.val + op * 2 ^ 12)) (acts : c.win.isSome = true) (free : c.s.ctx.cmd = none)
    (sound : (c.s.entryRead op id).ctxCheck op id = 0) : s.ctxCmdWrite w op id = (c.s.entryRead op id).ctxAct op id := by
  subst wrote
  exact (Committed.then_of_win acts fun t => t.ctxCommand (id.val + op * 2 ^ 12)).trans
    (ctxCommand_of_sound id.isLt code free sound)

/-- The same for a command that reads no entry. -/
theorem ctxCmdWrite_of_other {s : State} {w : Writer} {id : CtxId} {op : Nat} {c : Committed} (other : op ≠ 1) (code : op < 16)
    (wrote : c = s.write1 0 pgApc 0x410 w (id.val + op * 2 ^ 12)) (acts : c.win.isSome = true) (free : c.s.ctx.cmd = none)
    (sound : c.s.ctxCheck op id = 0) : s.ctxCmdWrite w op id = c.s.ctxAct op id := by
  have noEntry := entryRead_of_other other c.s id.val
  rw [← noEntry] at sound
  rw [ctxCmdWrite_of_sound code wrote acts free sound, noEntry]

/-! ### Fences (R286, R287) -/

/-- TEARDOWN and QUIESCE run a fence. -/
theorem fencing_of_cmd {s : State} {op id t : Nat} (cmd : s.ctx.cmd = some (op, id, t)) (fence : op = 4 ∨ op = 5) :
    s.fencing = some (id, t) := by
  obtain rfl | rfl := fence <;> simp only [State.fencing, cmd]

/-- The fence ends with the last of its marked requests. -/
theorem execFenceComplete_of_ended {s : State} {op id t : Nat} (cmd : s.hwFences.ctx.cmd = some (op, id, t))
    (fence : op = 4 ∨ op = 5) (ended : (s.hwFences.ctx.tracks.any fun e => e.2.ctx = id && e.2.marked) = false) :
    execFenceComplete s = .next (s.hwFences.fenceEnd false) := by
  simp only [execFenceComplete, fencing_of_cmd cmd fence, ended, Bool.false_eq_true, if_false]

/-- After 21 ms the fence ends with marked requests left or without. -/
theorem execFenceTimeout_of_late {s : State} {op id t : Nat} (cmd : s.hwFences.ctx.cmd = some (op, id, t))
    (fence : op = 4 ∨ op = 5) (late : t + 21000000 ≤ s.hwFences.now 0) : execFenceTimeout s =
      .next (s.hwFences.fenceEnd (s.hwFences.ctx.tracks.any fun e => e.2.ctx = id && e.2.marked)) := by
  simp only [execFenceTimeout, fencing_of_cmd cmd fence, if_neg (Nat.not_lt.2 late)]

/-! ### Scheduling (R275, R278 to R280) -/

/-- A quantum after the last the die admits what waits, and then evicts as many as still wait (R278). -/
theorem execSchedulerQuantum_of_due {d : Die} {s t : State} (awake : s.inReset d pgApc = false)
    (due : ((Tab.find s.ctx.schedAt d.val).any fun a => decide (s.now d < a + 1000 * s.ctxQuantum)) = false)
    (admitted : t = ({ s with ctx := { s.ctx with schedAt := Tab.put s.ctx.schedAt d.val (s.now d) } } : State).letIn d) :
    execSchedulerQuantum d s = .next ((((t.inRes d 2).filter (t.evictable d)).take
      ((t.inRes d 1).filter fun x => (t.ctxOf x.1).st = 2).length).foldl (fun u x => u.setResid d x.1 3 x.2.slot) t) := by
  subst admitted
  have acts : ¬(s.inReset d pgApc = true ∨
      ((Tab.find s.ctx.schedAt d.val).any fun a => decide (s.now d < a + 1000 * s.ctxQuantum)) = true) :=
    not_or.2 ⟨Bool.eq_false_iff.1 awake, Bool.eq_false_iff.1 due⟩
  exact congrArg Host.Outcome.next (if_neg acts)

/-- A switch that is due begins: once the SU is at rest, the context is saved and the next restored (R279, R280). -/
theorem execBayQuantumEnd_of_due {d : Die} {b : Bay} {id : Nat} {s t : State} (next : s.nextCtx d b = some id)
    (other : s.runsOn d b ≠ some id) (issues : s.issues d = true) (due : s.switchDue d b = true)
    (settled : t = (s.setSwitching d b true).settleSwitch d b) :
    execBayQuantumEnd d b s = .next (if t.suAtRest d b then (t.saveBay d b false).restoreBay d b id else t) := by
  simp only [execBayQuantumEnd, next, if_neg other, issues, due, ← settled, Bool.not_true, Bool.or_self, Bool.false_eq_true, if_false]

/-- An eviction ends once its bays are saved and none of its requests is outstanding on the die (R275). -/
theorem execEvictionComplete_of_ready {d : Die} {id : CtxId} {s t u : State} (evicting : (s.residOf d id).res = 3)
    (stays : (s.ctxOf id).st ≠ 4) (ready : s.evictReady d id = true)
    (saved : t = (List.range 9).foldl (fun v b => v.evictBay d b id) s)
    (ended : (t.ctx.tracks.any fun e => e.1 / 65536 = d && e.2.ctx = id) = false) (out : u = t.setResid d id 0 0) :
    execEvictionComplete d id s =
      .next ((if (u.ctxOf id).st = 2 then u.setResid d id 1 0 else u).stopCheck id) := by
  have acts : ¬((s.residOf d id).res ≠ 3 ∨ (s.ctxOf id).st = 4 ∨ s.evictReady d id = false) :=
    not_or.2 ⟨not_not_intro evicting, not_or.2 ⟨stays, by rw [ready]; exact Bool.noConfusion⟩⟩
  simp only [execEvictionComplete, if_neg acts, ← saved, ended, ← out, Bool.false_eq_true, if_false]

/-- Settles O44: the seven commands are one write of CTX_CMD with their code, and the events their own equations. -/
theorem contextCommandsComplete : Obligations.ContextCommandsComplete := by
  unfold Obligations.ContextCommandsComplete
  refine ⟨?define, ?run, ?stop, ?teardown, ?quiesce, ?invalAll, ?invalRange, ?fenceEnds, ?fenceLate, ?quantum, ?switch,
    ?settling, ?evicted, ?tail⟩
  case define =>
    intro w id c u s wrote acts free read sound
    rw [← entryRead_define] at read
    subst read
    exact congrArg Host.Outcome.next (ctxCmdWrite_of_sound (by decide) wrote acts free sound)
  case fenceEnds => exact fun _ _ _ _ => execFenceComplete_of_ended
  case fenceLate => exact fun _ _ _ _ => execFenceTimeout_of_late
  case quantum => exact fun _ _ _ => execSchedulerQuantum_of_due
  case switch =>
    exact fun _ _ _ _ _ next other issues due settled rest =>
      (execBayQuantumEnd_of_due next other issues due settled).trans (congrArg _ (if_pos rest))
  case settling =>
    exact fun _ _ _ _ _ next other issues due settled moves =>
      (execBayQuantumEnd_of_due next other issues due settled).trans (congrArg _ (if_neg (Bool.eq_false_iff.1 moves)))
  case evicted => exact fun _ _ _ _ _ => execEvictionComplete_of_ready
  case tail =>
    rintro w d v _ s rfl acts
    exact congrArg Host.Outcome.next (Committed.then_of_win acts _)
  all_goals
    exact fun _ _ _ _ wrote acts free sound =>
      congrArg Host.Outcome.next (ctxCmdWrite_of_other (by decide) (by decide) wrote acts free sound)

end Sys2Proof.Machine
end

section
/-! SUPPORT. Training, holding and retraining a link, said once per case (13 R298 to R308). -/

namespace Sys2Proof.Machine

section
variable {p : Port} {s : State}

/-! ### Lanes and retraining (R298 to R300, R308) -/

/-- A failed lane is recorded, logged and in the history. -/
def State.laneNoted (s : State) (p lane : Nat) : State :=
  (((s.cpErr p 12).markLane p lane).logAt (portDie p) srcHw .laneFail [p, lane]).histEvent 5 (portDie p) (5 * p + lane) 5

/-- Outside a retrain a failed lane begins one. -/
theorem laneFail_of_no_retrain {p lane : Nat} {t : State} (noted : t = s.laneNoted p lane) (idle : t.linkSt p ≠ 5) :
    s.laneFail p lane = (t.lctrl p 3 lane).beginRetrain p := by
  subst noted
  exact if_neg idle

/-- During a retrain a failed lane restarts it once, and then takes the link DOWN. -/
theorem laneFail_of_retrain {p lane : Nat} {t : State} (noted : t = s.laneNoted p lane) (retrains : t.linkSt p = 5) :
    s.laneFail p lane =
      if (t.link p).again then (t.cpErr p 15).linkDown p else t.setLink p { t.link p with again := true } := by
  subst noted
  exact if_pos retrains

theorem execRetrain_of_register {w : Writer} {c : Committed} (wrote : c = s.write1 (portDie p) (pgCp p) 0x020 w
      (putBits (s.rd (portDie p) (pgCp p) 0x020) 8 1 1)) (acts : c.win.isSome = true) :
    execRetrain p (.register w) s = .next ((c.s.setCp p 0x020 8 1 0).beginRetrain p) := by
  subst wrote
  exact congrArg Host.Outcome.next (Committed.then_of_win acts _)

/-- A retrain that ends well leaves the link where it was, its lanes mapped again and its flits resent (R299). -/
theorem execRetrainComplete_of_good {lanes : LaneSet} {ns : Nat} {good : List Nat} {t u : State} (retrains : s.linkSt p = 5)
    (enough : 3 ≤ lanes.length) (taken : good = (s.link p).aims (lanes.map (·.val)))
    (mapped : t = (s.setLanes p good).retrained p (lanes.map (·.val)) ns)
    (noted : u = t.setLink p { s.link p with
      again := false, report := (s.link p).report || decide (good.length = 3) }) :
    execRetrainComplete p true lanes ns s =
      .next (((((u.setCp p 0x0D0 0 32 ns).setLinkSt p (s.link p).back).resend p none).retrainEnded p).pump p) := by
  subst taken mapped noted
  have ends : ¬((!true) = true ∨ lanes.length < 3) := not_or.2 ⟨Bool.false_ne_true, Nat.not_lt.2 enough⟩
  simp only [execRetrainComplete, if_neg (not_not_intro retrains), if_neg ends]

/-! ### Coming up and going down (R301 to R303, R307) -/

theorem execLinkSignalDetect_of_down {n : Nat} (down : s.linkSt p = 0) (enough : 3 ≤ n)
    (on : s.cpF p 0x018 0 3 = 1 ∨ s.cpF p 0x018 0 3 = 2) : execLinkSignalDetect p n s = .next (s.setLinkSt p 1) :=
  congrArg Host.Outcome.next (if_pos ⟨down, enough, on.symm⟩)

/-- Training with 3 lanes or more ends in HELLO, with full credits and an empty retry buffer (R301). -/
theorem execLinkTrainingComplete_of_enough {lanes : LaneSet} {x : Trained} {bad good : List Nat} {l : Link} {t : State}
    (trains : s.linkSt p = 1) (enough : 3 ≤ lanes.length)
    (failed : bad = if 4 ≤ lanes.length then [] else (List.range 5).filter fun i => !((lanes.map (·.val)).contains i))
    (taken : good = (s.link p).aims (lanes.map (·.val)))
    (mapped : t = (((s.setLanes p good).setCp p 0x080 18 5 x.inv.toNat).setCp p 0x080 12 3 (bad.getD 0 7)).setCp p 0x080 15 3
      (bad.getD 1 7)) (before : l = t.link p) :
    execLinkTrainingComplete p lanes x s = .next (((((((t.setLink p { l with
      retry := [], txNext := 0, rxNext := 0, nakOut := false, nbr := none, asym := x.asym, heard := false, owe0 := 0,
      owe1 := 0, pairAt := 0, pairBad := (false, false), chose := false,
      report := l.report || decide (good.length = 3) }).setCredits p 0 64).setCredits p 1 384).syncRetry p).setCp p 0x028 20 4
        0).setLinkSt p 2)) := by
  subst failed taken mapped before
  simp only [execLinkTrainingComplete, if_neg (not_not_intro trains), if_neg (Nat.not_lt.2 enough)]

/-- A hello that passes R303's checks, in HELLO, enters the neighbour, is answered by one and brings the link up. -/
theorem execHello_of_sound {h : Hello} {u : State} (hello : s.linkSt p = 2)
    (heard : u = s.setLink p { s.link p with hello := some h }) (sound : u.helloFault p h = none) :
    execHello p h s = .next (((u.enterNbr p h).sendHello p).comeUp p h (s.link p)) := by
  subst heard
  simp only [execHello, hello, if_true, sound]

theorem comeUp_of_new {t : State} {p : Nat} (h : Hello) {l : Link} (new : l.admitted = none) :
    t.comeUp p h l = t.setLinkSt p 3 := by
  simp only [State.comeUp, new]

/-- After DOWN a link whose neighbour is the one of its admission is ADMITTED at once, unless BLK_CTRL holds it (R307). -/
theorem comeUp_of_known {t : State} {p : Nat} {h a : Hello} {l : Link} (admitted : l.admitted = some a)
    (same : sameNbr a h = true) (down : l.down = true) (free : t.cpF p 0x020 9 1 = 0) : t.comeUp p h l = t.setLinkSt p 4 := by
  simp only [State.comeUp, admitted, same, Bool.true_eq_false, if_false, down, free, and_self, if_true]

end

/-- Settles O45: each clause is the event's own equation in the link state that the clause names. -/
theorem linkTrainingCompletes : Obligations.LinkTrainingCompletes := by
  unfold Obligations.LinkTrainingCompletes
  refine ⟨?laneFail, ?laneFailAgain, ?register, ?message, ?retrained, ?signal, ?trained, ?lost, ?timer, ?hello, ?helloAgain,
    ?hold, ?holdRepeat, ?heldEnds⟩
  case laneFail => exact fun _ _ _ _ noted idle => congrArg Host.Outcome.next (laneFail_of_no_retrain noted idle)
  case laneFailAgain => exact fun _ _ _ _ noted retrains => congrArg Host.Outcome.next (laneFail_of_retrain noted retrains)
  case register => exact fun _ _ _ _ => execRetrain_of_register
  case message => exact fun _ _ _ => rfl
  case retrained => exact fun _ _ _ _ _ _ _ => execRetrainComplete_of_good
  case signal => exact fun _ _ _ => execLinkSignalDetect_of_down
  case trained => exact fun _ _ _ _ _ _ _ _ => execLinkTrainingComplete_of_enough
  case lost => exact fun _ _ _ enough up => congrArg Host.Outcome.next (if_pos ⟨enough, up⟩)
  case timer => exact fun _ _ least most => congrArg Host.Outcome.next (if_pos ⟨least, most⟩)
  case hello =>
    exact fun _ h _ _ hello heard sound new =>
      (execHello_of_sound hello heard sound).trans (congrArg _ (comeUp_of_new h new))
  case helloAgain =>
    rintro p h a _ u s hello heard sound rfl admitted same down free
    exact (execHello_of_sound hello heard sound).trans (congrArg _ (comeUp_of_known admitted same down free))
  case hold => exact fun _ _ _ least most => congrArg Host.Outcome.next (if_pos ⟨least, most⟩)
  case holdRepeat => exact fun _ _ held => congrArg Host.Outcome.next (if_pos held)
  case heldEnds => exact fun _ _ held => congrArg Host.Outcome.next (if_pos held)

end Sys2Proof.Machine
end

section
/-! SUPPORT. Flits on a link, said once per case: what becomes of one by its check and its type (13 R294 to R297). -/

namespace Sys2Proof.Machine

section
variable {p : Nat} {f : Flit} {s t : State} (takes : s.takesFlits p = true)
include takes

/-- A bad flit is dropped, and a NAK sent for it unless it is known to be unsequenced (R293, R296). -/
theorem flitIn_of_bad (bad : flitBad f = true) (noted : t = (s.fecCount p f.fec).cpErr p 9) :
    s.flitIn p f = (if flitSequenced f || decide (4 < f.ftype.toNat) then t.sendNak p else t).pairNext p := by
  subst noted
  simp only [State.flitIn, takes, bad, Bool.true_eq_false, if_false, if_true]

/-- A good flit brings its acknowledgements, and acts by its type. -/
theorem flitIn_of_good (good : flitBad f = false) (headed : t = (s.fecCount p f.fec).flitHeader p f) :
    s.flitIn p f = (if flitSequenced f then t.takeFlit p f
      else if f.ftype = 2 then t.nakIn p f.seq.toNat else t).pairNext p := by
  subst headed
  simp only [State.flitIn, takes, good, Bool.true_eq_false, Bool.false_eq_true, if_false]

end

section
variable {p : Nat} {f : Flit} {t u : State} {l : Link}

/-- A sequenced flit in order is taken, and its credit goes back (R295, R296). -/
theorem takeFlit_of_next {pay : Bool} (before : l = t.link p) (next : f.seq.toNat = l.rxNext)
    (payload : pay = decide (f.ftype = 1)) (taken : u = t.setLink p { l with
      rxNext := (l.rxNext + 1) % 4096, nakOut := false, heard := true,
      owe0 := l.owe0 + (if pay && f.vc = 0 then 1 else 0), owe1 := l.owe1 + if pay && f.vc = 1 then 1 else 0 }) :
    t.takeFlit p f = (if pay then u.incF (portDie p) (pgCp p) 0x0C8 0 64 1 else u).idleOut p := by
  subst before payload taken
  simp only [State.takeFlit, if_pos next]

/-- A NAK of a number that the retry buffer holds resends from it, and the eighth resend of a flit retrains (R296, R297). -/
theorem nakIn_of_held {seq : Nat} {again : List TxFlit} {v : State} (before : l = t.link p)
    (holds : (l.retry.any fun x => x.seq = seq) = true)
    (resent : again = (l.retry.dropWhile fun x => x.seq ≠ seq).map fun x => { x with resent := x.resent + 1 })
    (kept : u = t.setLink p { l with retry := (l.retry.takeWhile fun x => x.seq ≠ seq) ++ again })
    (out : v = again.foldl (fun x y => x.txOut p y) (u.incF (portDie p) (pgCp p) 0x0B8 32 16 again.length)) :
    t.nakIn p seq = if again.any fun x => decide (8 ≤ x.resent) then (v.cpErr p 11).beginRetrain p else v := by
  subst before resent kept out
  exact if_pos holds

end

theorem flitSequenced_nak (f : Flit) : flitSequenced { f with ftype := 2 } = false := rfl

/-- Settles O46: the flit's check and type choose its case, and a sequenced one's number whether it is taken. -/
theorem flitsComplete : Obligations.FlitsComplete := by
  unfold Obligations.FlitsComplete
  refine ⟨?inOrder, ?outOfOrder, ?bad, ?idle, ?crcFail, ?nak, ?holdoff⟩
  case inOrder =>
    intro p f l pay t u s takes good sequenced headed before next payload taken
    refine congrArg Host.Outcome.next ((flitIn_of_good takes good headed).trans ?_)
    rw [if_pos sequenced, takeFlit_of_next before next payload taken]
  case outOfOrder =>
    intro p f t s takes good sequenced headed gap
    refine congrArg Host.Outcome.next ((flitIn_of_good takes good headed).trans ?_)
    rw [if_pos sequenced, State.takeFlit, if_neg gap]
  case bad => exact fun _ _ _ _ takes bad noted => congrArg Host.Outcome.next (flitIn_of_bad takes bad noted)
  case idle =>
    intro p f s takes good type
    refine congrArg Host.Outcome.next ((flitIn_of_good takes good rfl).trans ?_)
    have unsequenced : ¬ flitSequenced f = true := by simp [flitSequenced, type]
    have noNak : ¬ f.ftype = 2 := by simp [type]
    rw [if_neg unsequenced, if_neg noNak]
  case crcFail =>
    rintro p fec sq _ _ s takes rfl rfl
    refine congrArg Host.Outcome.next (if_neg ?_)
    rw [takes]
    exact Bool.noConfusion
  case nak =>
    rintro p f _ l again t u v s takes rfl good headed before holds resent kept out
    refine congrArg Host.Outcome.next ((flitIn_of_good takes good headed).trans ?_)
    rw [flitSequenced_nak, if_neg Bool.false_ne_true, if_pos rfl, nakIn_of_held before holds resent kept out]
  case holdoff => exact fun _ _ => rfl

end Sys2Proof.Machine
end

section
/-! SUPPORT. Forwarding, the short-path window and the router's registers, said once per case (14 R314 to R327). -/

namespace Sys2Proof.Machine

section
variable {i : InPort} {k : Packet} {d : Nat} {s : State}

/-! ### Packets at a hop (R314, R316) -/

/-- A sound packet, not too old, is taken at a router slice that is out of reset. -/
theorem atHop_of_sound (up : s.inReset d pgRtr = false) (sound : packetOk k = true)
    (young : ¬(packetRequest k = true ∧ 78125 < s.hopAge d k)) (f : State → State) : s.atHop d k f = f s := by
  simp only [State.atHop, up, sound, if_neg young, Bool.not_true, Bool.false_eq_true, if_false]

/-- A data packet of a circuit goes by the table entry of its flow and input (R320). -/
theorem execCircuitForward_of_entry {c : CircuitRec} (at_ : d = hopDie i k) (control : k.control = false) (ct : k.ct = false)
    (bare : i = .inject → k.length = 0) (free : s.heldData i k = false) (up : s.inReset d pgRtr = false)
    (sound : packetOk k = true) (young : ¬(packetRequest k = true ∧ 78125 < s.hopAge d k))
    (entry : s.flowEntry k.flow.toNat (inCode i) = some c) : execCircuitForward i k s = .next (s.circuitIn d c k) := by
  subst at_
  have gated : ¬(i = .inject ∧ k.length ≠ 0) := fun h => h.2 (bare h.1)
  simp only [execCircuitForward, control, ct, free, gated, Bool.false_eq_true, or_self, if_false,
    atHop_of_sound up sound young, entry]

/-- A packet with a payload is injected as its flow's slot starts, one without at once; a confidential one only where its
payload leaves room for the tag (R320, R331). -/
theorem execCircuitSlotInject_of_slot {n : Nat} {c : CircuitRec} (at_ : d = k.req.die) (control : k.control = false)
    (ct : k.ct = false) (free : s.heldData .inject k = false) (awake : s.alive d = true)
    (entry : s.flowEntry k.flow.toNat 20 = some c)
    (slot : k.length = 0 ∨ (s.ownsSlot c.flow ((c.outs.head?.map (·.1)).getD 20) n = true ∧ s.slotStarts d = true ∧
      s.slotNow d = n))
    (fits : c.conf = false ∨ k.length ≤ 1792) (up : s.inReset d pgRtr = false) (sound : packetOk k = true)
    (young : ¬(packetRequest k = true ∧ 78125 < s.hopAge d k)) :
    execCircuitSlotInject k n s = .next (s.injectCircuit c k) := by
  subst at_
  have gated : ¬(k.length ≠ 0 ∧ (s.ownsSlot c.flow ((c.outs.head?.map (·.1)).getD 20) n && s.slotStarts k.req.die &&
      decide (s.slotNow k.req.die = n)) = false) := by
    rintro ⟨payload, missed⟩
    obtain none | ⟨owns, starts, now⟩ := slot
    · exact payload none
    · simp [owns, starts, now] at missed
  have tagged : ¬(c.conf = true ∧ 1792 < k.length) := by
    rintro ⟨conf, long⟩
    obtain clear | short := fits
    · exact Bool.false_ne_true (clear.symm.trans conf)
    · exact Nat.not_lt.2 short long
  simp only [execCircuitSlotInject, control, ct, free, awake, entry, if_neg gated, if_neg tagged, Bool.false_eq_true,
    Bool.true_eq_false, or_self, if_false, atHop_of_sound up sound young]

/-! ### Cut-through (R323, R324) -/

/-- A packet that goes by cut-through takes its route, of the bank that TGEN names. -/
theorem execCutThroughForward_of_sound {r : Packet} {n : Nat} (at_ : d = hopDie i r)
    (bank : k = if i = .inject then { r with tgen := decide (s.bank = 1) } else r) (some_ : n ≠ 0)
    (cut : k.control = true ∨ k.ct = true) (free : s.heldData i k = false) (up : s.inReset d pgRtr = false)
    (sound : packetOk k = true) (young : ¬(packetRequest k = true ∧ 78125 < s.hopAge d k)) :
    execCutThroughForward i r n s = .next (match s.bankRoute k.tgen (s.packetDest k) with
      | none => if packetRequest k then (s.setErr d pgRtr 14).answer { k.req with ptype := k.ptype } .noRoute []
          else s.setErr d pgRtr 14
      | some p =>
        if p = 20 then (if packetRequest k then s else s.incF d pgRtr 0x0E0 0 64 1)
        else (s.incF d pgRtr 0x0E0 0 64 1).toPort p { pk := k, inp := inCode i }) := by
  have goes : ¬(n = 0 ∨ (k.control = false ∧ k.ct = false) ∨ s.heldData i k = true) := by
    rintro (none | ⟨data, circuit⟩ | held)
    · exact some_ none
    · simp [data, circuit] at cut
    · exact Bool.false_ne_true (free.symm.trans held)
  simp only [execCutThroughForward, ← at_, ← bank, if_neg goes, atHop_of_sound up sound young] <;> rfl

end

/-! ### The window of a short-path port (R325) -/

/-- A period after the last, the window of a port grows by 4,096 unless an ECN echo has come in the period. -/
theorem execWindowPeriod_of_due {p : SpPort} {x : SpPortSt} {s : State}
    (due : ((s.portOf p).periodAt.any fun a => decide (s.now (spDie p) < a + s.winPeriod (spDie p))) = false)
    (stamped : x = { s.portOf p with periodAt := some (s.now (spDie p)) }) :
    execWindowPeriod p s = .next (if x.echoed then s.setPort p { x with echoed := false }
      else s.setPort p { x with
        win := some (min (s.winMax (spDie p)) (x.win.getD (s.winMax (spDie p)) + 4096)) }) := by
  subst stamped
  simp only [execWindowPeriod, due, Bool.false_eq_true, if_false]

/-! ### Register commands and DRAINED (R326, R327) -/

theorem execVctDataWrite_of_acts {w : Writer} {d : Die} {v : Word} {c : Committed} {s : State}
    (wrote : c = s.write1 d pgRtr 0x0C8 w v.toNat) (acts : c.win.isSome = true) : execVctDataWrite w d v s = .next c.s := by
  subst wrote
  exact congrArg Host.Outcome.next (Committed.then_of_win acts id)

theorem execHoldDataWrite_of_acts {w : Writer} {d : Die} {v : Bool} {c : Committed} {s : State}
    (wrote : c = s.write1 d pgRtr 0x020 w (putBits (s.rd d pgRtr 0x020) 8 1 (if v then 1 else 0)))
    (acts : c.win.isSome = true) : execHoldDataWrite w d v s = .next (c.s.holdEffect d) := by
  subst wrote
  exact congrArg Host.Outcome.next (Committed.then_of_win acts fun t => t.holdEffect d)

/-- The Cue agent takes a message or a timer while its island is out of reset and at work. -/
theorem agentUp_of_up {s : State} (up : s.inReset 0 pgCue = false) (awake : s.alive 0 = true) (f : State → State) :
    s.agentUp f = f s := by
  simp only [State.agentUp, up, awake, Bool.false_eq_true, Bool.true_eq_false, or_self, if_false]

/-- A part that holds injection for a change and has no data-class packet left reports it, or counts its own (R326). -/
theorem execDrainedReport_of_gone {t s : State} (up : s.inReset 0 pgCue = false) (awake : s.alive 0 = true)
    (gone : s.dataGone = true)
    (shown : t = foldNat 4 (fun u d => if u.rdF d pgRtr 0x028 2 1 = 1 then u.wrF d pgRtr 0x028 3 1 1 else u) s)
    (holds : t.fabric.hold = true) : execDrainedReport s = .next (
      if t.leads then ({ t with cue := { t.cue with
        drained := (t.cue.drained ++ [t.ownRank]).eraseDups } } : State).tryApply
      else t.cueSend t.leader 0x0C []) := by
  simp only [execDrainedReport, agentUp_of_up up awake, gone, ← shown, holds, Bool.true_eq_false, if_false]

/-- Settles O47: each command is its own equation where its packet is sound and its entry holds. -/
theorem routingCompletes : Obligations.RoutingCompletes := by
  unfold Obligations.RoutingCompletes
  refine ⟨?circuit, ?routed, ?noRoute, ?slot, ?widens, ?echoed, ?vctData, ?holdData, ?drained, ?drainedLeader⟩
  case circuit => exact fun _ _ _ _ _ => execCircuitForward_of_entry
  case routed =>
    intro i r k n d p s at_ bank some_ cut free up sound young route onward
    rw [show exec (.cutThroughForward i r n) s = _ from
      execCutThroughForward_of_sound at_ bank some_ cut free up sound young, route]
    exact congrArg Host.Outcome.next (if_neg onward)
  case noRoute =>
    intro i r k n d t s at_ bank some_ cut free up sound young route marked
    rw [show exec (.cutThroughForward i r n) s = _ from
      execCutThroughForward_of_sound at_ bank some_ cut free up sound young, route, marked]
  case slot => exact fun _ _ _ _ _ => execCircuitSlotInject_of_slot
  case widens =>
    exact fun _ _ _ due stamped quiet =>
      (execWindowPeriod_of_due due stamped).trans (congrArg _ (if_neg (Bool.eq_false_iff.1 quiet)))
  case echoed =>
    exact fun _ _ _ due stamped echo => (execWindowPeriod_of_due due stamped).trans (congrArg _ (if_pos echo))
  case vctData => exact fun _ _ _ _ _ => execVctDataWrite_of_acts
  case holdData => exact fun _ _ _ _ _ => execHoldDataWrite_of_acts
  case drained =>
    exact fun _ _ up awake gone shown holds member =>
      (execDrainedReport_of_gone up awake gone shown holds).trans (congrArg _ (if_neg (Bool.eq_false_iff.1 member)))
  case drainedLeader =>
    exact fun _ _ up awake gone shown holds leads =>
      (execDrainedReport_of_gone up awake gone shown holds).trans (congrArg _ (if_pos leads))

end Sys2Proof.Machine
end

section
/-! SUPPORT. Checks of sampled chains and the unit commands, said once per case (15 R340 to R343; 16 R355 to R359). -/

namespace Sys2Proof.Machine

section
variable {d : Die} {s : State}

/-- The bay in the wings begins the oldest chain that waits, while no check runs on the die (R340). -/
theorem execDupCheck_of_waiting {b : Nat} {t : State} (issues : s.issues d = true) (up : s.inReset d pgDup = false)
    (idle : (s.dup.jobs.any fun j => j.cdie = d.val && j.running) = false)
    (waiting : (s.dup.jobs.any fun j => j.cdie = d.val && j.copied && !j.running) = true) (wings : s.wingsBay d = some b)
    (counted : t = (s.incF d pgDup 0x080 32 32 1).progress d b) :
    execDupCheck d s = .next ({ t with dup := { t.dup with
      jobs := updFirst (fun j => j.cdie = d.val && j.copied && !j.running) (fun j => { j with running := true })
        t.dup.jobs } }) := by
  simp only [execDupCheck, issues, up, idle, waiting, wings, ← counted, Bool.true_eq_false, Bool.false_eq_true, or_self,
    if_false]

/-- A check whose chain no mismatch waits for ends by its two witnesses alone (R341, R342). -/
theorem execDupCheckComplete_of_unjudged {flips : List Flip} {j : DupJob} {x : TileDesc} {p c : Drain} {cb : Nat}
    {t u : State} (runs : (s.dup.jobs.find? fun j => j.cdie = d.val && j.running) = some j)
    (tile : s.jobTile j = some x) (drained : j.prim = some p) (wings : s.wingsBay d = some cb)
    (checked : c = s.checkRun j x flips) (counted : t = s.progress d cb)
    (ended : u = { t with dup := { t.dup with jobs := t.dup.jobs.erase j } })
    (unjudged : (u.dup.mism.find? fun m => m.tileId = j.tileId && m.step = u.stepNum) = none) :
    execDupCheckComplete d flips s = .next (
      if p.witness = c.witness then (u.witFlag j.ref 4).incF j.pdie pgDup 0x088 0 32 1 else u.mismatch j x p c cb) := by
  have kept : u.dup.mism = t.dup.mism := by rw [ended]
  rw [kept] at unjudged
  simp only [execDupCheckComplete, runs, tile, drained, wings, ← checked, ← counted, ← ended, unjudged]

/-- A copy for which the checker has room counts as copied, and sends the SIGNAL that its drain held (R340). -/
theorem execSampleCopyComplete_of_room {b : Bay} {j : DupJob} {x : TileDesc} {t : State}
    (due : (s.dup.jobs.find? fun j => j.pdie = d.val && j.pbay = b.val && j.closed && !j.copied) = some j)
    (room : s.dupQueued j.cdie < 16)
    (copied : t = { s with dup := { s.dup with
      jobs := updFirst (fun j => j.pdie = d.val && j.pbay = b.val && j.closed && !j.copied)
        (fun j => { j with copied := true }) s.dup.jobs } })
    (tile : t.jobTile j = some x) : execSampleCopyComplete d b s = .next (
      if j.prim.isSome = true ∧ x.signal < 32 ∧ t.dupHolds d b j.tileId = false then t.signalGo d b x.signal else t) := by
  simp only [execSampleCopyComplete, due, if_neg (Nat.not_le.2 room), ← copied, tile]

/-- UNIT_AUDITION and UNIT_DARK are one write of UNIT_CMD with their code (16 R355). -/
theorem unitRow_of_acts {w : Writer} {k : BitVec 2} {ix : BitVec 6} {op v : Nat} {c : Committed}
    (code : v = k.toNat + d.val * 2 ^ 2 + ix.toNat * 2 ^ 4 + op * 2 ^ 10) (wrote : c = s.write1 0 pgCue 0x0B8 w v)
    (acts : c.win.isSome = true) : s.unitRow w k d ix op = c.s.unitCmd v := by
  subst wrote code
  exact Committed.then_of_win acts fun t => t.unitCmd _

/-! ### Auditions (16 R358, R359) -/

/-- A passed audition is noted; a unit that fails it goes dark. -/
theorem execAuditionComplete_of_audition {k : UnitKind} {ix n : Nat} {pass : Bool} (kind : n = UnitKind.ix k)
    (audition : s.unit n d ix = .audition) (first : s.history.passed.contains (unitKey n d ix) = false) :
    execAuditionComplete k d ix pass s = .next (
      if pass then ({ s with history := { s.history with
        passed := s.history.passed ++ [unitKey n d ix] } } : State).unitStat 4
          (n + 1 + d.val * 2 ^ 2 + ix % 64 * 2 ^ 4 + 2 ^ 10)
      else ((s.setUnit n d ix .dark).histEvent (n + 1) d ix 3).unitStat 5
        (n + 1 + d.val * 2 ^ 2 + ix % 64 * 2 ^ 4 + 2 ^ 10)) := by
  subst kind
  have tested : ¬(s.resets.stage = 0x80 ∧
      (s.unit (UnitKind.ix k) d ix = .inService ∨ s.unit (UnitKind.ix k) d ix = .wings)) := by
    rw [audition]
    rintro ⟨-, h | h⟩ <;> exact UnitState.noConfusion h
  have runs : ¬(s.unit (UnitKind.ix k) d ix ≠ .audition ∨
      s.history.passed.contains (unitKey (UnitKind.ix k) d ix) = true) :=
    not_or.2 ⟨not_not_intro audition, Bool.eq_false_iff.1 first⟩
  exact congrArg Host.Outcome.next ((if_neg tested).trans (if_neg runs))

/-- At start-up a unit in use that fails its self-test has an event in its history. -/
theorem execAuditionComplete_of_startUp {k : UnitKind} {ix n : Nat} (kind : n = UnitKind.ix k)
    (stage : s.resets.stage = 0x80) (used : s.unit n d ix = .inService ∨ s.unit n d ix = .wings) :
    execAuditionComplete k d ix false s = .next (s.histEvent (n + 1) d ix 3) := by
  subst kind
  exact congrArg Host.Outcome.next (if_pos ⟨stage, used⟩)

end

/-- Settles O48: a check is judged by its two witnesses, and the unit commands are one write of UNIT_CMD. -/
theorem integrityCommandsComplete : Obligations.IntegrityCommandsComplete := by
  unfold Obligations.IntegrityCommandsComplete
  refine ⟨?begins, ?agrees, ?differs, ?copied, ?audition, ?dark, ?passed, ?failed, ?startUp⟩
  case begins => exact fun _ _ _ _ => execDupCheck_of_waiting
  case agrees =>
    exact fun _ _ _ _ _ _ _ _ _ _ runs tile drained wings checked agree counted ended unjudged =>
      (execDupCheckComplete_of_unjudged runs tile drained wings checked counted ended unjudged).trans
        (congrArg _ (if_pos agree))
  case differs =>
    exact fun _ _ _ _ _ _ _ _ _ _ runs tile drained wings checked differ counted ended unjudged =>
      (execDupCheckComplete_of_unjudged runs tile drained wings checked counted ended unjudged).trans
        (congrArg _ (if_neg differ))
  case copied => exact fun _ _ _ _ _ _ => execSampleCopyComplete_of_room
  case audition => exact fun _ _ _ _ _ _ wrote acts => congrArg Host.Outcome.next (unitRow_of_acts rfl wrote acts)
  case dark => exact fun _ _ _ _ _ _ wrote acts => congrArg Host.Outcome.next (unitRow_of_acts rfl wrote acts)
  case passed => exact fun _ _ _ _ _ => execAuditionComplete_of_audition
  case failed => exact fun _ _ _ _ _ => execAuditionComplete_of_audition
  case startUp => exact fun _ _ _ _ _ => execAuditionComplete_of_startUp

end Sys2Proof.Machine
end

section
/-! SUPPORT. The messages and timers of a Cue round, said once per case: of its leader, then of a member (16 R363 to R375). -/

namespace Sys2Proof.Machine

/-! ### Messages of the round (R363, R367) -/

section
variable {s t : State} {h : CueHdr}

theorem inRound_iff : s.inRound h = true ↔ h.step = s.cue.step ∧ h.attempt = s.attempt := by
  simp only [State.inRound, Bool.and_eq_true, decide_eq_true_eq]

/-- A message of the round is handled once the silence of the leader is reckoned anew. -/
theorem ofRound_of_in (round : s.inRound h = true) (f : State → State) : s.ofRound h f = f (s.hears h) := if_pos round

theorem hears_of_leads (leads : s.leads = true) : s.hears h = s := by
  simp only [State.hears, leads, Bool.not_true, Bool.and_false, Bool.false_eq_true, if_false]

theorem hears_of_leader (fromLeader : s.fromLeader h = true) (member : s.leads = false) :
    s.hears h = { s with cue := { s.cue with heard := s.now 0 } } := by
  simp only [State.hears, fromLeader, member, Bool.not_false, Bool.and_true, if_true]

/-- A message of the round at a part whose agent is at work. -/
theorem agentUp_ofRound (up : s.inReset 0 pgCue = false) (awake : s.alive 0 = true) (round : s.inRound h = true)
    (f : State → State) : (s.agentUp fun u => u.ofRound h f) = f (s.hears h) :=
  (agentUp_of_up up awake _).trans (ofRound_of_in round f)

/-- The same at the leader, whose state the message itself leaves as it is. -/
theorem agentUp_ofRound_leads (up : s.inReset 0 pgCue = false) (awake : s.alive 0 = true) (round : s.inRound h = true)
    (leads : s.leads = true) (f : State → State) : (s.agentUp fun u => u.ofRound h f) = f s := by
  rw [agentUp_ofRound up awake round, hears_of_leads leads]

end

/-! ### The leader -/

section
variable {s t : State} {h : CueHdr} (up : s.inReset 0 pgCue = false) (awake : s.alive 0 = true)
include up awake

/-- A vote of the round and of the leader's view is taken where no staged book waits to be activated (R364). -/
theorem execVote_of_round {v : VoteBody} (staged : s.books.staged = none) (round : s.inRound h = true)
    (view : v.view.toNat = s.viewNum) (leads : s.leads = true) :
    execVote h v s = .next (s.takeVote h.rank v).tryDecide := by
  have now : ¬ s.attempt < h.attempt := (inRound_iff.1 round).2 ▸ Nat.lt_irrefl _
  have taken : ¬(s.inRound h = false ∨ v.view.toNat ≠ s.viewNum ∨ s.leads = false) := by
    simp only [round, leads, view, ne_eq, not_true_eq_false, Bool.true_eq_false, or_self, not_false_eq_true]
  simp only [execVote, agentUp_of_up up awake, staged, now, false_and, and_false, if_false, if_neg taken]

theorem execDigest_of_leads {k : BitVec 8} {x : BitVec 256} (round : s.inRound h = true) (leads : s.leads = true) :
    execDigest h k x s = .next (
      if h.rank = 0xFFFF ∧ k.toNat = 2 then
        { s with cue := { s.cue with poolDigests := s.cue.poolDigests ++ [x] } }
      else (s.takeDigest h.rank k.toNat x).tryDecide) := by
  rw [execDigest, agentUp_ofRound_leads up awake round leads, if_neg (ne_false_of_eq_true leads)]

theorem execPairs_of_leads {ps : List (BitVec 32 × Nat)} (round : s.inRound h = true) (leads : s.leads = true) :
    execPairs h ps s = .next (s.takePairs h.rank (pairNats ps)).tryDecide := by
  rw [execPairs, agentUp_ofRound_leads up awake round leads, if_pos leads]

/-- Every 200 µs the leader that collects votes tells the members that have voted that it is alive (R367). -/
theorem execKeepTimer_of_due {u : State} (leads : s.leads = true) (collects : s.phase = 1) (open_ : s.cue.plan = none)
    (due : s.cue.keptAt + 200000 ≤ s.now 0) (kept : u = { s with cue := { s.cue with keptAt := s.now 0 } }) :
    execKeepTimer s = .next ((u.liveRanks.filter fun x => x.2 ≠ u.ident.1 && (Tab.find u.cue.votes x.1).isSome).foldl
      (fun t x => t.cueSend x.2 0x05 [s.cue.votes.length]) u) := by
  subst kept
  have runs : ¬(s.leads = false ∨ s.phase ≠ 1 ∨ s.cue.plan.isSome = true ∨ s.now 0 < s.cue.keptAt + 200000) := by
    simp only [leads, collects, open_, Nat.not_lt.2 due, Option.isSome_none, ne_eq, not_true_eq_false, Bool.true_eq_false,
      Bool.false_eq_true, or_self, not_false_eq_true]
  simp only [execKeepTimer, agentUp_of_up up awake, if_neg runs]

/-- At the deadline of its first vote the leader decides with the votes that are in (R365, R367). -/
theorem execVoteDeadline_of_due {a : Nat} (first : s.cue.first = some a) (leads : s.leads = true)
    (open_ : s.cue.plan = none) (released : s.cue.held = false) (undecided : s.cue.committed = none)
    (none_ : s.cue.late = []) (due : a + s.deadline ≤ s.now 0) : execVoteDeadline s = .next s.decideNow := by
  have runs : ¬(s.leads = false ∨ s.cue.plan.isSome = true ∨ s.cue.held = true ∨ s.cue.committed.isSome = true ∨
      s.cue.late ≠ [] ∨ s.now 0 < a + s.deadline) := by
    simp only [leads, open_, released, undecided, none_, Nat.not_lt.2 due, Option.isSome_none, ne_eq, not_true_eq_false,
      Bool.true_eq_false, Bool.false_eq_true, or_self, not_false_eq_true]
  simp only [execVoteDeadline, agentUp_of_up up awake, first, if_neg runs]

/-- An acknowledgement of the outcome that the leader has prepared counts (R366). -/
theorem execAck_of_plan {o : Decision} {p : CuePlan} (round : s.inRound h = true) (leads : s.leads = true)
    (plan : s.cue.plan = some p) (outcome : p.body.outcome = o) : execAck h o s =
      .next ({ s with cue := { s.cue with acks := (s.cue.acks ++ [h.rank]).eraseDups } } : State).tryCommit := by
  have taken : ¬(s.leads = false ∨ p.body.outcome ≠ o) :=
    not_or.2 ⟨ne_false_of_eq_true leads, not_not_intro outcome⟩
  rw [execAck, agentUp_ofRound_leads up awake round leads]
  simp only [plan, if_neg taken]

/-- Ranks still absent as the window closes are fenced, and an understudy called for each (R370 case 2). -/
theorem execAdmitWindowExpire_of_absent (leads : s.leads = true) (held : s.cue.held = true) (absent : s.cue.absent ≠ [])
    (open_ : s.cue.plan = none) (due : s.cue.heldAt + clampTo 100 60000 (s.cueCfg 0 16) * 1000000 ≤ s.now 0)
    (told : t = { s with cue := { s.cue with absent := [] } }) :
    execAdmitWindowExpire s = .next
      (t.sendPrepare (t.mkPlan t.cue.after [] s.cue.absent [] [] t.cue.fNext false false none false)) := by
  subst told
  have runs : ¬(s.leads = false ∨ s.cue.held = false ∨ s.cue.absent = [] ∨ s.cue.plan.isSome = true ∨
      s.now 0 < s.cue.heldAt + clampTo 100 60000 (s.cueCfg 0 16) * 1000000) := by
    simp only [leads, held, absent, open_, Nat.not_lt.2 due, Option.isSome_none, Bool.true_eq_false, Bool.false_eq_true,
      or_self, not_false_eq_true]
  simp only [execAdmitWindowExpire, agentUp_of_up up awake, if_neg runs]

/-- With every part called READY and a spare for each rank, the held round goes on with ADMIT and TABLES (R373). -/
theorem execHeldRound_of_ready (leads : s.leads = true) (held : s.cue.held = true) (open_ : s.cue.plan = none)
    (runs : s.cuesDown = false) (served : s.cue.noSpare = []) (called : s.cue.called ≠ [])
    (ready : (s.cue.called.any fun c => c.ready.isNone) = false) : execHeldRound s = .next
      (s.sendPrepare (s.mkPlan s.cue.after [] [] [] s.cue.lowers s.cue.fNext true true none false)) := by
  have goes : ¬(s.leads = false ∨ s.cue.held = false ∨ s.cue.plan.isSome = true ∨ s.cuesDown = true) := by
    simp only [leads, held, open_, runs, Option.isSome_none, Bool.true_eq_false, Bool.false_eq_true, or_self,
      not_false_eq_true]
  simp only [execHeldRound, agentUp_of_up up awake, if_neg goes, served, called, ready, ne_eq, not_true_eq_false,
    Bool.false_eq_true, or_self, if_false]

/-- READY of a part called, with the book of the rank's failed device, is noted, and that book's digest used (R373). -/
theorem execReady_of_called {dev rank : Nat} {f : BitVec 8} {c : Called} (round : s.inRound h = true)
    (leads : s.leads = true)
    (called : (s.cue.called.find? fun c => c.rank = rank && c.device = dev) = some c)
    (sound : (s.poolBookOk c.failed && f.toNat % 16 = 15) = true) (told : t = s.took 1) :
    execReady h dev rank f s = .next ({ t with cue := { t.cue with
      called := t.cue.called.map (fun x => if x.rank = rank then { x with ready := some f.toNat } else x),
      poolDigests := t.cue.poolDigests.erase ((Tab.find t.cue.books c.failed).getD 0) } }) := by
  rw [execReady, agentUp_ofRound_leads up awake round leads]
  simp only [called, sound, and_true, ← told]

/-- After 10 s without READY the next pool part is called for the rank (R373). -/
theorem execCallReadyTimeout_of_late {rank : Nat} {c : Called}
    (called : (s.cue.called.find? fun c => c.rank = rank) = some c) (waits : c.ready = none) (leads : s.leads = true)
    (open_ : s.cue.plan = none) (due : c.since + 10000000000 ≤ s.now 0) : execCallReadyTimeout rank s = .next
      (s.sendPrepare (s.mkPlan s.cue.after [] [] [rank] [] s.cue.fNext false false none true)) := by
  have runs : ¬(c.ready.isSome = true ∨ s.leads = false ∨ s.cue.plan.isSome = true ∨ s.now 0 < c.since + 10000000000) := by
    simp only [waits, leads, open_, Nat.not_lt.2 due, Option.isSome_none, Bool.true_eq_false, Bool.false_eq_true, or_self,
      not_false_eq_true]
  simp only [execCallReadyTimeout, agentUp_of_up up awake, called, if_neg runs]

end

/-- Settles O49: a message of the round leaves the leader's own state as it is, and each is then its own equation. -/
theorem cueLeaderMessagesComplete : Obligations.CueLeaderMessagesComplete := by
  unfold Obligations.CueLeaderMessagesComplete
  refine ⟨?vote, ?digest, ?poolDigest, ?pairs, ?keep, ?keepTimer, ?deadline, ?ack, ?window, ?heldRound, ?ready, ?timeout,
    ?drained⟩
  case vote => exact fun _ _ _ up awake => execVote_of_round up awake
  case digest =>
    exact fun _ _ _ _ up awake member round leads =>
      (execDigest_of_leads up awake round leads).trans (congrArg _ (if_neg fun pool => member pool.1))
  case poolDigest =>
    exact fun _ _ _ _ up awake pool book round leads =>
      (execDigest_of_leads up awake round leads).trans (congrArg _ (if_pos ⟨pool, book⟩))
  case pairs => exact fun _ _ _ up awake => execPairs_of_leads up awake
  case keep =>
    exact fun _ _ _ up awake round fromLeader member =>
      congrArg Host.Outcome.next ((agentUp_ofRound up awake round id).trans (hears_of_leader fromLeader member))
  case keepTimer => exact fun _ _ up awake => execKeepTimer_of_due up awake
  case deadline => exact fun _ _ up awake => execVoteDeadline_of_due up awake
  case ack => exact fun _ _ _ _ up awake => execAck_of_plan up awake
  case window => exact fun _ _ up awake => execAdmitWindowExpire_of_absent up awake
  case heldRound => exact fun _ up awake => execHeldRound_of_ready up awake
  case ready => exact fun _ _ _ _ _ _ _ up awake => execReady_of_called up awake
  case timeout => exact fun _ _ _ up awake => execCallReadyTimeout_of_late up awake
  case drained =>
    rintro h _ s up awake round rfl
    exact congrArg Host.Outcome.next (agentUp_ofRound up awake round fun s =>
      ({ s with cue := { s.cue with drained := (s.cue.drained ++ [h.rank]).eraseDups } } : State).tryApply)

/-! ### A member -/

section
variable {s t : State} {h : CueHdr} (up : s.inReset 0 pgCue = false) (awake : s.alive 0 = true)
include up awake

theorem execPairs_of_member {ps : List (BitVec 32 × Nat)} (round : s.inRound h = true) (heard : t = s.hears h)
    (member : t.leads = false) : execPairs h ps s = .next ({ t with cue := { t.cue with
      prepPairs := t.cue.prepPairs ++ (pairNats ps).filter fun x => x.2 ≠ 0,
      gotPairs := t.cue.gotPairs + 1 } } : State).tryAck := by
  rw [execPairs, agentUp_ofRound up awake round, ← heard, if_neg (Bool.eq_false_iff.1 member)]

theorem execFences_of_member {ds : List Nat} (round : s.inRound h = true) (heard : t = s.hears h)
    (member : t.leads = false) : execFences h ds s = .next ({ t with cue := { t.cue with
      prepFences := t.cue.prepFences ++ ds.filter (· ≠ 0xFFFF), gotFences := t.cue.gotFences + 1 } } : State).tryAck := by
  rw [execFences, agentUp_ofRound up awake round, ← heard, if_neg (Bool.eq_false_iff.1 member)]

/-- HALT of the step and the attempt that runs ends it, uncertified (R369). -/
theorem execHalt_of_running {x : BitVec 8} (step : h.step = s.stepCur) (attempt : h.attempt = s.attempt)
    (runs : s.stepState = 1)
    (told : t = (if s.leads then s.sendHalt x.toNat else (s.hears h).wrF 0 pgCue 0x028 5 1 1).noCert x.toNat)
    (still : t.stepState = 1) (open_ : t.step.ended = none) : execHalt h x s = .next
      (({ t with step := { t.step with ended := some x.toNat } } : State).wrF 0 pgStp 0x0B0 0 3 2) := by
  have taken : ¬(h.step ≠ s.stepCur ∨ h.attempt ≠ s.attempt ∨ s.stepState = 0) := by
    simp only [step, attempt, runs, ne_eq, not_true_eq_false, Nat.one_ne_zero, or_self, not_false_eq_true]
  simp only [execHalt, agentUp_of_up up awake, if_neg taken, ← told, if_pos (And.intro still open_)]

/-- A decision of the leader that the member may acknowledge is prepared; its lists count from here (R366). -/
theorem execPrepare_of_acceptable {p : PrepBody} {r u : State} (joined : r = s.poolJoins h p)
    (round : r.inRound h = true) (heard : t = r.hears h) (fromLeader : t.fromLeader h = true) (member : t.leads = false)
    (may : t.mayAck p = true) (undecided : t.cue.committed = none) (fresh : u = t.buddyFresh) :
    execPrepare h p s = .next ({ u with cue := { u.cue with
      prep := some (u.attempt, p), prepPairs := [], prepFences := [], gotPairs := 0, gotFences := 0 } } : State).tryAck := by
  have taken : ¬(t.fromLeader h = false ∨ t.leads = true ∨ t.mayAck p = false ∨ t.cue.committed.isSome = true) := by
    simp only [fromLeader, member, may, undecided, Option.isSome_none, Bool.true_eq_false, Bool.false_eq_true, or_self,
      not_false_eq_true]
  simp only [execPrepare, agentUp_of_up up awake, ← joined, ofRound_of_in round, ← heard, if_neg taken, ← fresh]

/-- COMMIT of the prepared outcome is adopted at action 4, with its own actions and view (R366, R20). -/
theorem execCommit_of_prepared {o : Decision} {a : BitVec 8} {v : BitVec 32} {n : Nat} {p : PrepBody}
    (round : s.inRound h = true) (heard : t = s.hears h) (prepared : t.cue.prep = some (n, p))
    (fromLeader : t.fromLeader h = true) (member : t.leads = false) (outcome : p.outcome = o)
    (undecided : t.cue.committed = none) : execCommit h o a v s =
      .next (t.adoptIn { p with actions := a, view := v } t.cue.prepPairs t.cue.prepFences) := by
  have taken : ¬(t.fromLeader h = false ∨ t.leads = true ∨ p.outcome ≠ o ∨ t.cue.committed.isSome = true) := by
    simp only [fromLeader, member, outcome, undecided, Option.isSome_none, ne_eq, not_true_eq_false, Bool.true_eq_false,
      Bool.false_eq_true, or_self, not_false_eq_true]
  rw [execCommit, agentUp_ofRound up awake round, ← heard]
  simp only [prepared, if_neg taken]

/-- A member that has heard nothing for 400 µs votes again in the next attempt (R367). -/
theorem execLeaderSilence_of_late (member : s.leads = false) (phase : s.phase = 1 ∨ s.phase = 2)
    (late : s.cue.heard + 400000 ≤ s.now 0) : execLeaderSilence s = .next (s.revote (s.attempt + 1)).tryDecide := by
  have runs : ¬(s.leads = true ∨ (s.phase ≠ 1 ∧ s.phase ≠ 2) ∨ s.now 0 < s.cue.heard + 400000) :=
    not_or.2 ⟨Bool.eq_false_iff.1 member, not_or.2 ⟨fun other => phase.elim other.1 other.2, Nat.not_lt.2 late⟩⟩
  simp only [execLeaderSilence, agentUp_of_up up awake, if_neg runs]

/-- CALL at a pool part that is not fenced: it notes the call, waits, and software has its notice (R372). -/
theorem execCall_of_pool {rank holder buddy failed lead : Nat} {r : State} (pool : s.ownRank = 0xFFFF)
    (free : s.fenced s.ident.1 = false) (sender : lead = (s.rankDev h.rank).getD s.leader)
    (joined : r = if s.inRound h then s else (s.newRound h.step).setRound h.step h.attempt) :
    execCall h rank holder buddy failed s = .next
      ((({ r with
        cue := { r.cue with call := some (rank, holder, buddy, failed, lead) }, leader := lead } : State).setPhase
          5).callNotice) := by
  have taken : ¬(s.ownRank ≠ 0xFFFF ∨ s.fenced s.ident.1 = true) :=
    not_or.2 ⟨not_not_intro pool, Bool.eq_false_iff.1 free⟩
  simp only [execCall, agentUp_of_up up awake, if_neg taken, ← sender, ← joined]

/-- A called part whose book, inputs and shards are in place tells its leader its book's digest, and that it is READY. -/
theorem execPoolReadySend_of_offers {rank x y z lead : Nat} {b : Book} (call : s.cue.call = some (rank, x, y, z, lead))
    (staged : s.books.staged = some b) (cast : b.castRank = rank) (offers : s.offers = true)
    (roles : t = { s with
      leader := lead, retained := { s.retained with curB := false, buddyB := false, buddyValid := true } }) :
    execPoolReadySend s = .next ((t.cueSend lead 0x02 [2, b.bookDigest.toNat]).cueSend lead 0x0B [rank, 0xF]) := by
  have ready : ¬(b.castRank ≠ rank ∨ s.offers = false) :=
    not_or.2 ⟨not_not_intro cast, ne_false_of_eq_true offers⟩
  simp only [execPoolReadySend, agentUp_of_up up awake, call, staged, if_neg ready, ← roles]

theorem execApply_of_change (round : s.inRound h = true) (heard : t = s.hears h) (fromLeader : t.fromLeader h = true)
    (change : t.step.change = true) : execApply h s = .next t.applyTables := by
  rw [execApply, agentUp_ofRound up awake round, ← heard, if_pos ⟨fromLeader, change⟩]

theorem execWriter_of_up {w n : Nat} (noted : t = s.noteWriter h.step w n) :
    execWriter h w n s = .next (if t.stepState = 1 then t.exportBegin else t) := by
  simp only [execWriter, agentUp_of_up up awake, ← noted]

end

/-- Notice 0x8001 tells software of the call that holds, while CUES runs (R372). -/
theorem callNotice_of_call {s : State} {rank holder buddy failed lead : Nat}
    (call : s.cue.call = some (rank, holder, buddy, failed, lead)) (runs : s.cuesDown = false) : s.callNotice =
      s.notice 0x8001 (leBytes 2 rank ++ leBytes 2 holder ++ leBytes 2 buddy ++ leBytes 2 failed) := by
  simp only [State.callNotice, call, runs, Bool.false_eq_true, if_false]

@[simp] theorem setPhase_cue (s : State) (v : Nat) : (s.setPhase v).cue = s.cue := State.wrF_cue ..

/-- Settles O50: each message of the leader is its own equation at a member that it may move. -/
theorem cueMemberMessagesComplete : Obligations.CueMemberMessagesComplete := by
  unfold Obligations.CueMemberMessagesComplete
  refine ⟨?pairs, ?halt, ?prepare, ?fences, ?commit, ?commitLate, ?silence, ?call, ?poolReady, ?applies, ?writer⟩
  case pairs => exact fun _ _ _ _ up awake => execPairs_of_member up awake
  case halt => exact fun _ _ _ _ up awake => execHalt_of_running up awake
  case prepare => exact fun _ _ _ _ _ _ up awake => execPrepare_of_acceptable up awake
  case fences => exact fun _ _ _ _ up awake => execFences_of_member up awake
  case commit =>
    exact fun _ _ _ _ _ _ _ _ up awake round heard prepared fromLeader member outcome undecided curtain =>
      (execCommit_of_prepared up awake round heard prepared fromLeader member outcome undecided).trans
        (congrArg _ (if_pos curtain))
  case commitLate =>
    exact fun _ _ _ _ _ _ _ _ up awake round heard prepared fromLeader member outcome undecided early =>
      (execCommit_of_prepared up awake round heard prepared fromLeader member outcome undecided).trans
        (congrArg _ (if_neg (Bool.eq_false_iff.1 early)))
  case silence => exact fun _ up awake => execLeaderSilence_of_late up awake
  case call =>
    intro h rank holder buddy failed lead r u s up awake pool free sender joined out runs
    have call : u.cue.call = some (rank, holder, buddy, failed, lead) := by rw [out, setPhase_cue]
    rw [← callNotice_of_call call runs, out]
    exact execCall_of_pool up awake pool free sender joined
  case poolReady => exact fun _ _ _ _ _ _ _ _ up awake => execPoolReadySend_of_offers up awake
  case applies => exact fun _ _ _ up awake => execApply_of_change up awake
  case writer => exact fun _ _ _ _ _ up awake => execWriter_of_up up awake

end Sys2Proof.Machine
end

section
/-! SUPPORT. The checkpoint commands and how exporting and restoring end, said once per case (17 R381 to R388). -/

namespace Sys2Proof.Machine

/-! ### CKP_CMD (Table 17-7) -/

section
variable {s : State} {dev : Nat} {f : Option (Nat × List Byte)}

theorem ckpRow_of_acts {w : Writer} {op : Nat} {c : Committed} (wrote : c = s.write1 0 pgStp 0x230 w (op + dev * 2 ^ 4))
    (acts : c.win.isSome = true) : s.ckpRow w op dev f = c.s.ckpCommand (op + dev * 2 ^ 4) f := by
  subst wrote
  exact Committed.then_of_win acts fun t => t.ckpCommand (op + dev * 2 ^ 4) f

theorem ckpOp_field {op : Nat} (code : op < 16) : bitsOf (op + dev * 2 ^ 4) 0 4 = op := by
  simp only [bitsOf]
  omega

/-- ABANDON ends the exporting or the restoring that runs. -/
theorem ckpCommand_abandon (busy : s.ckpState = 1 ∨ s.ckpState = 4) : s.ckpCommand (5 + dev * 2 ^ 4) f =
    ({ s with ckpt := { s.ckpt with run := none } } : State).setCkpState 6 := by
  rw [State.ckpCommand, ckpOp_field (by decide)]
  simp [busy]

variable (noExport : s.ckpState ≠ 1) (noRestore : s.ckpState ≠ 4)
include noExport noRestore

theorem ckpCommand_sign : s.ckpCommand (1 + dev * 2 ^ 4) f = s.signManifest := by
  rw [State.ckpCommand, ckpOp_field (by decide)]
  simp [noExport, noRestore]

variable {b : Book} (staged : s.books.staged = some b) (idle : s.stepState = 0)
include staged idle

/-- RESTORE_OWN accepts the manifest first, and then needs the checkpoint key. -/
theorem ckpCommand_restoreOwn {r : State × Bool} (accepted : r = s.acceptManifest b) :
    s.ckpCommand (2 + dev * 2 ^ 4) f =
      if r.2 = false then r.1
      else if s.ckpKey.isNone then (r.1.setCkpState 0).ckpCode 7 else r.1.restoreBegin b false b.castRank 0 := by
  rw [State.ckpCommand, ckpOp_field (by decide)]
  simp [noExport, noRestore, staged, idle, ← accepted]

variable (manifest : s.ckpt.manifest ≠ [])
include manifest

theorem ckpCommand_restoreBuddy : s.ckpCommand (3 + dev * 2 ^ 4) f =
    if s.ckpKey.isNone then (s.setCkpState 0).ckpCode 7 else s.restoreBegin b true b.buddyOf 2 := by
  rw [State.ckpCommand, ckpOp_field (by decide)]
  simp [noExport, noRestore, staged, idle, manifest]

theorem ckpCommand_fetchOwn : s.ckpCommand (4 + dev * 2 ^ 4) f = s.fetchImage b f := by
  rw [State.ckpCommand, ckpOp_field (by decide)]
  simp [noExport, noRestore, staged, idle, manifest]

end

/-! ### How exporting and restoring end (R385, R387) -/

section
variable {r : CkpRun} {s : State} (run : s.ckpt.run = some r) (whole : r.units ≤ r.pos)
include run whole

theorem execExportComplete_of_whole (exports : r.exporting = true) : execExportComplete s =
    .next ((({ s with ckpt := { s.ckpt with run := none } } : State).setCkpState 2).ckpCode 0) := by
  simp only [execExportComplete, run, if_pos (And.intro exports whole)]

theorem execRestoreComplete_of_whole (restores : r.exporting = false) : execRestoreComplete s =
    .next (s.imageDone r.buddy r.step (slice r.front 128 (32 * r.chunks))) := by
  simp only [execRestoreComplete, run, if_pos (And.intro restores whole)]

end

/-- Settles O51: each command is one write of CKP_CMD with its code, and acts as its operation says. -/
theorem checkpointCommandsComplete : Obligations.CheckpointCommandsComplete := by
  unfold Obligations.CheckpointCommandsComplete
  refine ⟨?sign, ?restoreOwn, ?restoreBuddy, ?fetchOwn, ?abandon, ?ring, ?exported, ?restored⟩
  case sign =>
    exact fun _ _ _ wrote acts noExport noRestore =>
      congrArg Host.Outcome.next ((ckpRow_of_acts wrote acts).trans (ckpCommand_sign noExport noRestore))
  case restoreOwn =>
    exact fun _ _ _ _ _ wrote acts noExport noRestore staged idle accepted =>
      congrArg Host.Outcome.next
        ((ckpRow_of_acts wrote acts).trans (ckpCommand_restoreOwn noExport noRestore staged idle accepted))
  case restoreBuddy =>
    exact fun _ _ _ _ wrote acts noExport noRestore staged idle manifest =>
      congrArg Host.Outcome.next
        ((ckpRow_of_acts wrote acts).trans (ckpCommand_restoreBuddy noExport noRestore staged idle manifest))
  case fetchOwn =>
    exact fun _ _ _ _ _ _ wrote acts noExport noRestore staged idle manifest =>
      congrArg Host.Outcome.next
        ((ckpRow_of_acts wrote acts).trans (ckpCommand_fetchOwn noExport noRestore staged idle manifest))
  case abandon =>
    exact fun _ _ _ wrote acts busy =>
      congrArg Host.Outcome.next ((ckpRow_of_acts wrote acts).trans (ckpCommand_abandon busy))
  case ring =>
    rintro w v _ s rfl acts
    exact congrArg Host.Outcome.next (Committed.then_of_win acts State.ringGo)
  case exported => exact fun _ _ run exports whole => execExportComplete_of_whole run whole exports
  case restored => exact fun _ _ run restores whole => execRestoreComplete_of_whole run whole restores

end Sys2Proof.Machine
end

section
/-! SUPPORT. Watchdogs, time-outs, stalls and trials, said once per case (18 R391 to R399). -/

namespace Sys2Proof.Machine

section
variable {d : Die} {b : Bay} {s : State}

/-- A watchdog that fires while no suspect is under trial on its bay captures the evidence: trigger 3 resets the die
partition, trigger 1 saves the context and resets the bay (R391, R398). -/
theorem execWatchdogFire_of_no_trial {t : State} (fires : s.wdFires d b = true)
    (noTrial : ((s.replayOf d b).bind fun r => r.trial) = none) (noted : t = s.noteFired d b) :
    execWatchdogFire d b s = .next (
      if (s.ctxOn d b).isNone || s.firedNear d then
        ((((t.took 1).capture 3 4 d (some b) [] false).replayAdd d b (Tab.get 0 t.fw.capNext d) (t.suspects d b)).incF 0
          pgRst 0x120 32 16 1).resetReq (4, d, 0) Origin.hw.code true
      else
        ((((t.took 1).capture 1 1 d (some b) [] (decide (t.free.toNat % 2 = 1))).forcedSave d b
          (decide (t.free.toNat % 2 = 1))).replayAdd d b (Tab.get 0 t.fw.capNext d) (t.suspects d b)).resetReq (1, d, b)
            Origin.hw.code true) := by
  obtain none | ⟨r, some_⟩ := Option.eq_none_or_eq_some (s.replayOf d b)
  · simp only [execWatchdogFire, fires, none, Option.bind_none, ← noted, Bool.true_eq_false, if_false]
  · rw [some_] at noTrial
    simp only [execWatchdogFire, fires, some_, noTrial, ← noted, Bool.true_eq_false, if_false]

/-- A suspect whose trial the watchdog ends is guilty (R399). -/
theorem execWatchdogFire_of_trial {r : Replay} {c : Nat} (fires : s.wdFires d b = true) (replay : s.replayOf d b = some r)
    (trial : r.trial = some c) (runs : r.hung = false) : execWatchdogFire d b s = .next ((s.noteFired d b).guilty r c) := by
  simp only [execWatchdogFire, fires, replay, Option.bind_some, trial, runs, Bool.true_eq_false, Bool.false_eq_true,
    if_false]

/-- A replay gives way to the next trial where its suspect has been torn down (R402) or is cleared (R399). -/
theorem execReplayTrialClear_of_runs {r : Replay} {c : Nat} (replay : s.replayOf d b = some r) (trial : r.trial = some c)
    (runs : r.hung = false) : execReplayTrialClear d b s = .next (
      if (s.ctxOf c).st ≠ 2 then s.nextTrial { r with trial := none }
      else if s.trialMade d b r = false then s
      else if ((s.setSwitching d b true).settleSwitch d b).suAtRest d b then
        (((((s.setSwitching d b true).settleSwitch d b).saveBay d b false).setSwitching d b false).setBayCtx d b
          4097).nextTrial { r with trial := none }
      else (s.setSwitching d b true).settleSwitch d b) := by
  simp only [execReplayTrialClear, replay, trial, runs, Bool.false_eq_true, if_false]

end

/-- Settles O52: the watchdog by its bay's replay, and each other event by its own condition. -/
theorem hangEventsComplete : Obligations.HangEventsComplete := by
  unfold Obligations.HangEventsComplete
  refine ⟨?partition, ?bay, ?guilty, ?bayLate, ?partitionLate, ?shc, ?apr, ?gone, ?cleared⟩
  case partition =>
    intro d b t u s fires noTrial three noted kept
    rw [kept]
    exact (execWatchdogFire_of_no_trial fires noTrial noted).trans (congrArg _ (if_pos (Bool.or_eq_true_iff.2 three)))
  case bay =>
    intro d b x t u s fires noTrial context alone noted failed kept
    rw [kept, failed]
    have one : ¬((s.ctxOn d b).isNone || s.firedNear d) = true := by
      simp only [context, alone, Bool.or_self, Bool.false_eq_true, not_false_eq_true]
    exact (execWatchdogFire_of_no_trial fires noTrial noted).trans (congrArg _ (if_neg one))
  case guilty => exact fun _ _ _ _ _ => execWatchdogFire_of_trial
  case bayLate => exact fun _ _ _ late => congrArg Host.Outcome.next (if_neg (ne_false_of_eq_true late))
  case partitionLate => exact fun _ _ late => congrArg Host.Outcome.next (if_neg (ne_false_of_eq_true late))
  case shc =>
    exact fun _ _ up on => congrArg Host.Outcome.next (if_neg (not_or.2 ⟨Bool.eq_false_iff.1 up, Bool.eq_false_iff.1 on⟩))
  case apr =>
    exact fun _ _ _ up on wake => congrArg Host.Outcome.next
      (if_neg (not_or.2 ⟨Bool.eq_false_iff.1 up, not_or.2 ⟨Bool.eq_false_iff.1 on, wake⟩⟩))
  case gone =>
    exact fun _ _ _ _ _ replay trial runs gone =>
      (execReplayTrialClear_of_runs replay trial runs).trans (congrArg _ (if_pos gone))
  case cleared =>
    intro d b r c t s replay trial runs stays made settled rest
    rw [show exec (.replayTrialClear d b) s = _ from execReplayTrialClear_of_runs replay trial runs, ← settled,
      if_neg (not_not_intro stays), if_neg (ne_false_of_eq_true made), if_pos rest]

end Sys2Proof.Machine
end

section
/-! SUPPORT. The frequency, droop, throttle and shedding events, said once per case (19 R407 to R414). -/

namespace Sys2Proof.Machine

section
variable {d : Die} {s t : State}

/-- A change of frequency that is under way and not paused ends at its target, with the voltage of the new frequency (R407). -/
theorem execFrequencyChangeComplete_of_running {f : Nat} (changes : s.rdF d pgPwr 0x028 0 1 ≠ 0)
    (runs : s.rdF d pgPwr 0x028 1 1 ≠ 1) (target : f = s.rdF d pgPwr 0x0C8 11 11)
    (reached : t = (s.wrF d pgPwr 0x0C8 0 11 f).wrF d pgPwr 0x028 0 1 0) : execFrequencyChangeComplete d s =
      .next { t with dieEnv := Tab.upd {} t.dieEnv d fun e => { e with varith := t.varithAt d f (t.opOf d) } } := by
  simp only [execFrequencyChangeComplete, changes, runs, or_self, if_false, ← target, ← reached]

/-- An island that does not stretch yet stretches and is counted; a bay island pauses a change under way (R408). -/
theorem execDroopDetect_of_new {i : Island} (calm : s.rdF d pgPwr 0x0E0 i 1 ≠ 1)
    (stretched : t = (s.wrF d pgPwr 0x0E0 i 1 1).satF d pgPwr 0x0E0 32 16 1) : execDroopDetect d i s = .next (
      if i.val < 9 ∧ t.rdF d pgPwr 0x028 0 2 = 1 then (t.wrF d pgPwr 0x028 1 1 1).satF d pgPwr 0x0E0 48 16 1 else t) := by
  simp only [execDroopDetect, if_neg calm, ← stretched]

/-! ### Shedding (R414) -/

theorem execShedStepEnter_of_low {step : ShedStep} {mv : Nat} (low : mv < shedThreshold (step.val + 1))
    (new : s.shed < step.val + 1) (read : t = { s with io := { s.io with mv := mv } }) :
    execShedStepEnter step mv s = .next ((t.shedTo (step.val + 1)).alertPin s) := by
  subst read
  have enters : ¬(shedThreshold (step.val + 1) ≤ mv ∨ step.val + 1 ≤ s.shed) :=
    not_or.2 ⟨Nat.not_le.2 low, Nat.not_le.2 new⟩
  exact congrArg (powerNext s) (if_neg enters)

/-- What ends with a step of shedding that is released: the lowered clocks, the three-lane ports, the self-refresh. -/
def State.shedOut (s : State) (n : Nat) : State :=
  if n = 2 ∨ n = 3 then foldNat 4 State.retarget s
  else if n = 5 then foldNat 20 (fun s p =>
    if (s.link p).three = true then (s.setLink p { s.link p with three := false }).beginRetrain p else s) s
  else if n = 6 then foldNat 4 (fun s d => s.stackWake d) s
  else s

/-- The step in force, but the last, is released as the input is 500 mV above its threshold. -/
theorem execShedStepRelease_of_high {step : ShedStep} {mv n : Nat} {u : State} (which : n = step.val + 1)
    (inForce : n = s.shed) (release : n ≠ 7) (high : shedThreshold n + 500 ≤ mv)
    (read : t = { s with io := { s.io with mv := mv } }) (shown : u = foldNat 4 (fun s d => s.wr d pgPwr 0x0E8 (n - 1)) t) :
    execShedStepRelease step mv s = .next ((u.shedOut n).alertPin s) := by
  have leaves : ¬(n ≠ t.shed ∨ n = 7 ∨ mv < shedThreshold n + 500) := by
    have same : t.shed = s.shed := by rw [read]; rfl
    rw [same]
    exact not_or.2 ⟨not_not_intro inForce, not_or.2 ⟨release, Nat.not_lt.2 high⟩⟩
  simp only [execShedStepRelease, ← which, ← read, if_neg leaves, ← shown]
  refine congrArg (powerNext s) ?_
  rw [State.shedOut]
  clear which inForce release high read shown leaves
  split
  case h_1 | h_2 | h_3 | h_4 => rfl
  case h_5 two three five six => rw [if_neg (not_or.2 ⟨two, three⟩), if_neg five, if_neg six]

/-! ### The loops (R410, R411) -/

/-- The loop's tick: the dies' figures, the lowest input, the samples, the rails, and the throttle after them. -/
theorem execPowerLoopTick_eq {rd : List PowerReading} {u v w : State}
    (ticked : t = foldNat 4 (fun s d => match rd[d]? with | some r => s.dieTick d r | none => s) s)
    (read : u = { t with
      io := { t.io with mv := if rd = [] then t.io.mv else (rd.map (·.mv)).foldl min 65535 } })
    (sampled : v = { u with power := { u.power with samples := (u.packagePower :: u.power.samples).take 10000 } })
    (throttled : w = (v.railTick rd).throttle u.packagePower) : execPowerLoopTick rd s = .next ((foldNat 4 (fun s d =>
      if 0 < max (s.rdF 0 pgPwr 0x0D8 0 4) (s.rdF d pgPwr 0x0D8 4 4) then s.satF d pgPwr 0x0D8 32 32 10 else s)
        w).alertPin s) := by
  have lowest (x : Nat) : (if (rd.map (·.mv)).isEmpty then x else (rd.map (·.mv)).foldl min 65535) =
      if rd = [] then x else (rd.map (·.mv)).foldl min 65535 := by
    cases rd <;> rfl
  rw [throttled, sampled, read, execPowerLoopTick]
  generalize dies : foldNat 4 _ s = x
  obtain rfl : t = x := ticked.trans dies
  simp only [lowest]
  rfl

/-- The thermal throttle steps up above 102 °C or a stack's 92 °C and down within 99 °C and 89 °C; a trip acts first. -/
theorem execThermalThrottleTick_eq {j : Int} {k n : Nat}
    (figure : n = if 102 ≤ j ∨ 92 ≤ k then min 15 (s.rdF d pgPwr 0x0D8 4 4 + 1)
      else if j ≤ 99 ∧ k ≤ 89 then s.rdF d pgPwr 0x0D8 4 4 - 1 else s.rdF d pgPwr 0x0D8 4 4)
    (stamped : t = s.wrF d pgPwr 0x0D8 4 4 n) : execThermalThrottleTick d j k s = .next ((({ t with
      dieEnv := Tab.upd {} t.dieEnv d (fun e => { e with temp := j }),
      power := { t.power with hot := t.power.hot || decide (100 < j) || decide (88 < k) } } : State).tripOn d
        ⟨j, k, 0⟩).alertPin s) := by
  simp only [execThermalThrottleTick, ← figure, ← stamped]
  rfl

end

/-- Settles O53: each event is its own equation, and shedding is released by the step's own way out. -/
theorem powerLoopCommandsComplete : Obligations.PowerLoopCommandsComplete := by
  unfold Obligations.PowerLoopCommandsComplete
  refine ⟨?frequency, ?droop, ?clear, ?pause, ?loop, ?throttle, ?enter, ?release⟩
  case frequency => exact fun _ _ _ _ => execFrequencyChangeComplete_of_running
  case droop => exact fun _ _ _ _ => execDroopDetect_of_new
  case clear =>
    rintro d i _ s rfl
    rfl
  case pause => exact fun _ _ still calm => congrArg Host.Outcome.next (if_pos ⟨still, calm⟩)
  case loop => exact fun _ _ _ _ _ _ => execPowerLoopTick_eq
  case throttle => exact fun _ _ _ _ _ _ => execThermalThrottleTick_eq
  case enter => exact fun _ _ _ _ => execShedStepEnter_of_low
  case release => exact fun _ _ _ _ _ _ => execShedStepRelease_of_high

end Sys2Proof.Machine
end

section
/-! SUPPORT. The Ethernet events, said once per case (22 R459 to R461). -/

namespace Sys2Proof.Machine

/-! ### The head of a transmit queue -/

section
variable {e : EthPort} {q : Fin 64} {k : Nat} {r : EthQ} {ix : List Nat} {ds : List (Nat × List Byte)}
  {bufs : List (Nat × Nat)} {s u z : State}
  (key : k = ethQKey e 0 q) (queue : r = s.ethQ k) (ready : s.ethReady e k = true ∧ s.fwQueue e q = false)
  (near : s.reaches (ethDie e) (r.desc r.head) = true) (read : u = s.descRead r) (sound : u.descOk r = none)
  (chain : txChain u r r.size r.head = some ix)
  (touched : z = u.touchAll ((ix.drop 1).map fun i => (r.desc i, 32)))
  (good : (ix.any fun i => z.rangeBad (addrKey (r.desc i)) 32) = false)
  (descs : ds = ix.map fun i => (r.desc i, z.memRead (addrKey (r.desc i)) 32))
  (ranges : bufs = ds.map fun x => (fieldAt x.2 0 8 % 2 ^ 52, fieldAt x.2 8 2))
  (home : (bufs.any fun b => z.ioOk b.1 b.2 && !(z.reaches (ethDie e) b.1)) = false)
include key queue ready near read sound chain touched good descs ranges home

/-- A frame whose buffers IO may read goes out, with its checksum where a descriptor asks for it, and its descriptors are
given back with status 0 (R459, R460). -/
theorem execEthTx_of_sent {f : List Byte} {y t : State} (mayRead : bufs.find? (fun b => !(z.ioOk b.1 b.2)) = none)
    (bufsRead : y = z.touchAll bufs) (whole : (bufs.any fun b => y.rangeBad (addrKey b.1) b.2) = false)
    (frame : f = bufs.flatMap fun b => y.memRead (addrKey b.1) b.2)
    (sent : t = (y.send (.frame e (if (ds.any fun x => bitsOf (fieldAt x.2 0x0A 1) 3 1 = 1) = true
      then withChecksum f else f))).incF (ethDie e) (ethPg e) 0x0B8 0 32 1) : execEthTx e q s =
      .next ((ds.foldl (fun t x => t.descDone x.1 (fieldAt x.2 0x0A 1) 0
        (if bitsOf (fieldAt x.2 0x0A 1) 2 1 = 1 then some (y.now (ethDie e)) else none)) t).setHead k
          (((ix.getLast?).getD r.head + 1) % r.size)) := by
  simp only [execEthTx, ← key, ← queue, ready, near, ← read, sound, chain, ← touched, good, ← descs, ← ranges, home,
    mayRead, ← bufsRead, whole, ← frame, ← sent, Option.isSome_none, Bool.true_eq_false, Bool.false_eq_true, or_self,
    if_false, true_and]

/-- A frame with a buffer that IO may not read ends REFUSED, its descriptors given back with status 1 (R461). -/
theorem execEthTx_of_refused {b : Nat × Nat} (refused : bufs.find? (fun b => !(z.ioOk b.1 b.2)) = some b) :
    execEthTx e q s = .next ((ds.foldl (fun t x => t.descDone x.1 (fieldAt x.2 0x0A 1) 1 none)
      (z.ioRefuse (ethDie e) (ethPg e) b.1)).setHead k (((ix.getLast?).getD r.head + 1) % r.size)) := by
  simp only [execEthTx, ← key, ← queue, ready, near, ← read, sound, chain, ← touched, good, ← descs, ← ranges, home,
    refused, Option.isSome_some, Bool.true_eq_false, Bool.false_eq_true, or_self, if_false, if_true, Nat.one_ne_zero,
    false_and]

end

/-! ### A frame received -/

section
variable {e : EthPort} {q : Fin 64} {f : RxFrame} {k a fl buf n : Nat} {r : EthQ} {x : List Byte} {z t u v s : State}

/-- A frame with a sound FCS goes into the buffer of the descriptor at the head of its queue, cut to its length. -/
theorem execEthRx_of_kept (key : k = ethQKey e 1 q) (queue : r = s.ethQ k)
    (ready : s.ethReady e k = true ∧ s.fwQueue e q = false) (data : e ≠ .mgt ∨ f.toCmd = false)
    (fits : f.bytes.length ≤ 9216) (near : s.reaches (ethDie e) (r.desc r.head) = true) (read : z = s.descRead r)
    (sound : z.descOk r = none) (desc : a = r.desc r.head) (bytes : x = z.memRead (addrKey a) 32)
    (flags : fl = fieldAt x 0x0A 1) (own : fl % 2 ≠ 0) (place : buf = fieldAt x 0 8 % 2 ^ 52)
    (home : z.ioOk buf 1 = false ∨ z.reaches (ethDie e) buf = true) (taken : n = min f.bytes.length (fieldAt x 8 2))
    (fcs : f.fcsOk = true) (counted : t = z.incF (ethDie e) (ethPg e) 0x0B8 32 32 1) (mayWrite : t.ioOk buf n = true)
    (wrote : u = (t.ownWrite (addrKey buf) (f.bytes.take n)).1)
    (stored : (t.ownWrite (addrKey buf) (f.bytes.take n)).2 = true)
    (done : v = u.descDone a (fl ||| 2) (if n < f.bytes.length then 4 else 0)
      (if f.ptp = true then some (u.now (ethDie e)) else none)) :
    execEthRx e q f s = .next ((v.ownWrite (addrKey a + 0x0C) (leBytes 2 n)).1.setHead k ((r.head + 1) % r.size)) := by
  obtain ⟨up, ours⟩ := ready
  have takes : ¬(s.ethReady e k = false ∨ (e = .mgt ∧ f.toCmd = true) ∨ 9216 < f.bytes.length ∨
      s.reaches (ethDie e) (r.desc r.head) = false) := by
    rintro (down | ⟨mgt, cmd⟩ | long | far)
    · exact Bool.false_ne_true (down.symm.trans up)
    · exact data.elim (fun h => h mgt) fun h => Bool.false_ne_true (h.symm.trans cmd)
    · exact Nat.not_lt.2 fits long
    · exact Bool.false_ne_true (far.symm.trans near)
  have owned : ¬(fl % 2 = 0 ∨ (z.ioOk buf 1 = true ∧ z.reaches (ethDie e) buf = false)) := by
    rintro (given | ⟨ok, far⟩)
    · exact own given
    · exact home.elim (fun h => Bool.false_ne_true (h.symm.trans ok)) fun h => Bool.false_ne_true (far.symm.trans h)
  rw [desc] at bytes done ⊢
  simp only [execEthRx, ← key, ← queue, ours, if_neg takes, ← read, sound, ← bytes, ← flags, ← place, if_neg owned,
    ← taken, fcs, ← counted, mayWrite, stored, ← wrote, ← done, Bool.true_or, Bool.true_eq_false, Bool.false_eq_true,
    or_self, if_false, if_true]

end

/-! ### The link of a port -/

theorem execEthLinkDown_of_up {e : EthPort} {s t : State} (up : s.rdF (ethDie e) (ethPg e) 0x088 0 1 ≠ 0)
    (shown : t = (s.wr (ethDie e) (ethPg e) 0x088 0).setErr (ethDie e) (ethPg e) 11) : execEthLinkDown e s =
      .next (if t.fwQueue e 63 = true ∧ t.rdF 0 pgTim 0x090 1 1 = 1 then t.steer 0 else t) := by
  simp only [execEthLinkDown, if_neg up, ← shown, Bool.and_eq_true, decide_eq_true_eq]

/-- Settles O59: a frame out and a frame in by the descriptor at the head of the queue, and a port up and down. -/
theorem ethernetCommandsComplete : Obligations.EthernetCommandsComplete := by
  unfold Obligations.EthernetCommandsComplete
  refine ⟨?sent, ?refused, ?received, ?up, ?down⟩
  case sent =>
    exact fun _ _ _ _ _ _ _ _ _ _ _ _ _ key queue ready near read sound chain touched good descs ranges home =>
      execEthTx_of_sent key queue ready near read sound chain touched good descs ranges home
  case refused =>
    exact fun _ _ _ _ _ _ _ _ _ _ _ key queue ready near read sound chain touched good descs ranges home =>
      execEthTx_of_refused key queue ready near read sound chain touched good descs ranges home
  case received => exact fun _ _ _ _ _ _ _ _ _ _ _ _ _ _ _ => execEthRx_of_kept
  case up =>
    exact fun _ _ up awake => congrArg Host.Outcome.next
      (if_neg (not_or.2 ⟨Bool.eq_false_iff.1 up, ne_false_of_eq_true awake⟩))
  case down => exact fun _ _ _ => execEthLinkDown_of_up

end Sys2Proof.Machine
end

section
/-! SUPPORT. The PCIe, pin and core events, said once per case (22 R456 to R465). -/

namespace Sys2Proof.Machine

section
variable {a l : Nat} {d : List Byte} {s : State} (up : s.pcieUp = true)
include up

/-! ### The root port (R462, R463) -/

/-- A write to the message address raises the vector in its data. -/
theorem execPcieInbound_of_msi (message : a = Config.msiAddr.toNat) :
    execPcieInbound true a l d false s = .next (s.msiIn (leNat (d.take 4) % 2048)) := by
  simp only [execPcieInbound, up, message, Bool.true_eq_false, Bool.false_eq_true, and_false, and_true, if_false, if_true]

theorem execPcieInbound_of_poisoned : execPcieInbound true a l d true s = .next (s.pcieRefuse true a 12 0) := by
  simp only [execPcieInbound, up, Bool.true_eq_false, and_self, if_false, if_true]

/-- A write that IO may make is performed, or refused where it reaches no memory. -/
theorem execPcieInbound_of_write {r : State × Bool} (window : s.inWindow a d.length = true)
    (ours : s.ownRange a d.length = true) (free : s.ioBlocked a d.length = false) (near : s.reaches 1 a = true)
    (wrote : r = s.ownWrite (addrKey a) d) : execPcieInbound true a l d false s = .next (
      if a = Config.msiAddr.toNat then s.msiIn (leNat (d.take 4) % 2048)
      else if r.2 = true then r.1 else r.1.pcieRefuse true a 11 0) := by
  simp only [execPcieInbound, up, window, ours, free, near, ← wrote, Bool.true_eq_false, Bool.false_eq_true, and_false,
    true_and, or_self, if_false, if_true]

/-- A read that IO may make is answered with the bytes, or aborted where they are unreadable. -/
theorem execPcieInbound_of_read {p : Bool} {t : State} (window : s.inWindow a l = true) (ours : s.ownRange a l = true)
    (free : s.ioBlocked a l = false) (near : s.reaches 1 a = true) (touched : t = s.touch (addrKey a) l) :
    execPcieInbound false a l d p s = .next (
      if t.rangeBad (addrKey a) l = true then t.pcieRefuse false a 11 4
      else t.send (.tlp false a [0] (t.memRead (addrKey a) l))) := by
  simp only [execPcieInbound, up, window, ours, free, near, ← touched, Bool.true_eq_false, Bool.false_eq_true, false_and,
    or_self, if_false]

/-- A read outside the windows or of another part's space is an Unsupported Request. -/
theorem execPcieInbound_of_outside {p : Bool} (outside : s.inWindow a l = false ∨ s.ownRange a l = false) :
    execPcieInbound false a l d p s = .next (s.pcieRefuse false a 10 1) := by
  simp only [execPcieInbound, up, Bool.true_eq_false, Bool.false_eq_true, false_and, if_false, if_pos outside]

/-- An access in the memory window goes out as one of memory, and one in the ECAM window alone as a configuration access. -/
theorem execPcieOutbound_of_up {w : Bool} : execPcieOutbound a l w d s = .next (
    if s.pcieWin 0 ≤ a ∧ a + l ≤ s.pcieWin 0 + 2 ^ 36 then s.send (.tlp w a [0, l] d)
    else if s.pcieWin 1 ≤ a ∧ a + l ≤ s.pcieWin 1 + 2 ^ 28 then s.send (.tlp w a [1, l] d) else s) := by
  simp only [execPcieOutbound, up, Bool.true_eq_false, if_false, decide_eq_true_eq]

end

/-- The root port's link comes up in flit mode at its rate and width, or only its lanes do. -/
theorem execPcieLinkUp_of_trained {r : BitVec 2} {w : Nat} {f : Bool} {s : State}
    (up : s.blkIs 1 pgPcie 4 = false ∧ s.alive 1 = true) (trained : f = false ∨ r ≠ 0 ∧ 0 < w ∧ w ≤ 8) :
    execPcieLinkUp r w f s = .next (
      if f = true then s.wr 1 pgPcie 0x080 (1 + r.toNat * 2 + w * 2 ^ 3) else s.wr 1 pgPcie 0x080 (2 ^ 7)) := by
  obtain ⟨block, awake⟩ := up
  have runs : ¬(s.blkIs 1 pgPcie 4 = true ∨ s.alive 1 = false) :=
    not_or.2 ⟨Bool.eq_false_iff.1 block, ne_false_of_eq_true awake⟩
  cases f with
  | false => exact congrArg Host.Outcome.next (if_neg runs)
  | true =>
    obtain off | ⟨rate, some_, most⟩ := trained
    · exact absurd off.symm Bool.false_ne_true
    have fits : ¬(r = 0 ∨ w = 0 ∨ 8 < w) := not_or.2 ⟨rate, not_or.2 ⟨Nat.pos_iff_ne_zero.1 some_, Nat.not_lt.2 most⟩⟩
    exact congrArg Host.Outcome.next ((if_neg runs).trans (if_neg fits))

/-- Settles O60: a request of the root port by its window, and each other event its own equation. -/
theorem boardAndPcieCommandsComplete : Obligations.BoardAndPcieCommandsComplete := by
  unfold Obligations.BoardAndPcieCommandsComplete
  refine ⟨?message, ?poisoned, ?write, ?read, ?outside, ?memory, ?config, ?linkUp, ?linkDown, ?pulse, ?machineCheck,
    ?record⟩
  case message => exact fun _ _ _ _ up => execPcieInbound_of_msi up
  case poisoned => exact fun _ _ _ _ up => execPcieInbound_of_poisoned up
  case write => exact fun _ _ _ _ _ up => execPcieInbound_of_write up
  case read => exact fun _ _ _ _ _ _ up => execPcieInbound_of_read up
  case outside => exact fun _ _ _ _ _ up => execPcieInbound_of_outside up
  case memory =>
    exact fun _ _ _ _ _ up least most => (execPcieOutbound_of_up up).trans (congrArg _ (if_pos ⟨least, most⟩))
  case config =>
    exact fun _ _ _ _ _ up least most =>
      (execPcieOutbound_of_up up).trans (by rw [if_pos (And.intro least most)])
  case linkUp => exact fun _ _ _ _ => execPcieLinkUp_of_trained
  case linkDown => exact fun _ => rfl
  case pulse => exact fun _ on whole => congrArg Host.Outcome.next (if_pos ⟨on, whole⟩)
  case machineCheck => exact fun _ _ _ => rfl
  case record =>
    exact fun _ on started => congrArg Host.Outcome.next (if_neg (not_or.2 ⟨Bool.eq_false_iff.1 on, started⟩))

end Sys2Proof.Machine
end
